-- ==== Sys2Proof/Word.lean ====
section
/-! DEFINITION. The words of the machine and their plainest arithmetic (spec/00 R4). -/

namespace Sys2Proof

/-- One byte of memory. -/
abbrev Byte := BitVec 8

/-- A general register (spec/03 R57). -/
abbrev W32 := BitVec 32

/-- A pair of registers, an instruction word, an address (spec/03 R58, spec/06 R144). -/
abbrev W64 := BitVec 64

/-- A register operand field (spec/03 R57). -/
abbrev Reg := BitVec 8

/-- A slot mask: bit s stands for slot s of a skein (spec/03 R67 `AMASK`). -/
abbrev Mask := BitVec 64

end Sys2Proof
end

