-- ==== Sys2Proof/Machine/Bits.lean ====
section
/-! DEFINITION. Fields of words and bytes of values: the one place where bit positions and the byte
order (little-endian, spec/00 R4) are decided. -/

namespace Sys2Proof

/-- The number whose fields, lowest first, have the widths and values given; a value is cut to its
width. -/
def packFields : List (Nat × Nat) → Nat
  | [] => 0
  | (w, v) :: r => v % 2 ^ w + 2 ^ w * packFields r

/-- The values of the fields of the given widths, lowest first. -/
def unpackFields : List Nat → Nat → List Nat
  | [], _ => []
  | w :: ws, n => n % 2 ^ w :: unpackFields ws (n / 2 ^ w)

/-- Bits hi:lo of a number (spec/00 R4: both ends included). -/
def bitsOf (n hi lo : Nat) : Nat := n / 2 ^ lo % 2 ^ (hi + 1 - lo)

/-- Bit k of a number. -/
def bitOf (n k : Nat) : Bool := n / 2 ^ k % 2 == 1

/-- 1 for true, 0 for false. -/
def boolNat (b : Bool) : Nat := if b then 1 else 0

/-- The n bytes of a value, lowest address first (spec/00 R4). -/
def bytesOf : Nat → Nat → List Byte
  | 0, _ => []
  | n + 1, v => BitVec.ofNat 8 v :: bytesOf n (v / 256)

/-- The value of bytes, the first being the least significant (spec/00 R4). -/
def ofBytes : List Byte → Nat
  | [] => 0
  | b :: r => b.toNat + 256 * ofBytes r

/-- The n bytes at an offset, as a number. -/
def fieldAt (bs : List Byte) (off n : Nat) : Nat := ofBytes ((bs.drop off).take n)

/-- A number of n bits read as two's complement. -/
def toSigned (n v : Nat) : Int := if v % 2 ^ n < 2 ^ (n - 1) then (v % 2 ^ n : Nat) else (v % 2 ^ n : Nat) - (2 ^ n : Nat)

/-- An integer reduced modulo 2^n. -/
def wrapInt (n : Nat) (x : Int) : Nat := (x % (2 ^ n : Nat)).toNat

/-- The masks of slots: bit s of the result is set when s is in the list. -/
def maskOf (slots : List Nat) : Mask :=
  slots.foldl (fun m s => m ||| BitVec.ofNat 64 (2 ^ s)) 0

/-- Slot s is in the mask. -/
def inMask (m : Mask) (s : Nat) : Bool := bitOf m.toNat s

/-- A list with the element at an index replaced; unchanged when the index is out of range. -/
def setAt {α : Type} : List α → Nat → α → List α
  | [], _, _ => []
  | _ :: r, 0, x => x :: r
  | y :: r, n + 1, x => y :: setAt r n x

/-- A list with the element at an index changed by a function. -/
def modifyAt {α : Type} : List α → Nat → (α → α) → List α
  | [], _, _ => []
  | y :: r, 0, f => f y :: r
  | y :: r, n + 1, f => y :: modifyAt r n f

/-- The numbers from `a` on, `n` of them. -/
def rangeFrom : Nat → Nat → List Nat
  | _, 0 => []
  | a, n + 1 => a :: rangeFrom (a + 1) n

/-- An address rounded up to a multiple of m. -/
def roundUpTo (m a : Nat) : Nat := (a + (m - 1)) / m * m

end Sys2Proof
end

