-- ==== Sys2Proof/Machine/Crypto.lean ====
section
/-! DEFINITION. The published algorithms that spec/ names and does not restate: SM3 (spec/14 R372), SM4 and its Galois/counter
mode (spec/10 R270, spec/14 R368 to R371); notes/assumptions/30. -/

namespace Sys2Proof

/-- A byte string as a big-endian number. -/
def beNat (bs : List Byte) : Nat := bs.foldl (fun n b => 256 * n + b.toNat) 0

/-- A number as n big-endian bytes. -/
def beBytes (n v : Nat) : List Byte := (bytesOf n v).reverse

/-- A word rotated left. -/
def rol32 (x : W32) (n : Nat) : W32 := x.rotateLeft (n % 32)

/-! ## SM4 -/

/-- The S-box, sixteen rows of sixteen. -/
def sm4Rows : List Nat :=
  [0xd690e9fecce13db716b614c228fb2c05, 0x2b679a762abe04c3aa44132649860699, 0x9c4250f491ef987a33540b43edcfac62,
    0xe4b31ca9c908e89580df94fa758f3fa6, 0x4707a7fcf37317ba83593c19e6854fa8, 0x686b81b27164da8bf8eb0f4b70569d35,
    0x1e240e5e6358d1a225227c3b01217887, 0xd40046579fd327524c3602e7a0c4c89e, 0xeabf8ad240c738b5a3f7f2cef96115a1,
    0xe0ae5da49b341a55ad933230f58cb1e3, 0x1df6e22e8266ca60c02923ab0d534e6f, 0xd5db3745defd8e2f03ff6a726d6c5b51,
    0x8d1baf92bbddbc7f11d95c411f105ad8, 0x0ac13188a5cd7bbd2d74d012b8e5b4b0, 0x8969974a0c96777e65b9f109c56ec684,
    0x18f07dec3adc4d2079ee5f3ed7cb3948]

def sm4Sub (b : Nat) : Nat := sm4Rows.getD (b / 16 % 16) 0 / 256 ^ (15 - b % 16) % 256

/-- The S-box on the four bytes of a word. -/
def sm4Tau (x : W32) : W32 :=
  let n := x.toNat
  BitVec.ofNat 32
    (sm4Sub (n % 256) + 256 * sm4Sub (n / 256 % 256) + 65536 * sm4Sub (n / 65536 % 256) + 16777216 * sm4Sub (n / 16777216))

def sm4Round (x : W32) : W32 :=
  let b := sm4Tau x
  b ^^^ rol32 b 2 ^^^ rol32 b 10 ^^^ rol32 b 18 ^^^ rol32 b 24

def sm4KeyRound (x : W32) : W32 :=
  let b := sm4Tau x
  b ^^^ rol32 b 13 ^^^ rol32 b 23

/-- The constant of key round i: byte j is 7 (4 i + j). -/
def sm4Ck (i : Nat) : W32 := BitVec.ofNat 32 (beNat ((rangeFrom 0 4).map fun j => BitVec.ofNat 8 ((4 * i + j) * 7)))

/-- The four words of a block. -/
def sm4Words (n : Nat) : W32 × W32 × W32 × W32 :=
  (BitVec.ofNat 32 (n / 2 ^ 96), BitVec.ofNat 32 (n / 2 ^ 64), BitVec.ofNat 32 (n / 2 ^ 32), BitVec.ofNat 32 n)

/-- The 32 round keys of a 128-bit key. -/
def sm4Keys (key : Nat) : List W32 :=
  let k := sm4Words (Nat.xor key 0xA3B1BAC656AA3350677D9197B27022DC)
  ((rangeFrom 0 32).foldl (fun (q : List W32 × W32 × W32 × W32 × W32) i =>
    let (out, a, b, c, d) := q
    let n := a ^^^ sm4KeyRound (b ^^^ c ^^^ d ^^^ sm4Ck i)
    (n :: out, b, c, d, n)) ([], k)).1.reverse

/-- One block encrypted under its round keys. -/
def sm4Block (keys : List W32) (block : Nat) : Nat :=
  let r := keys.foldl (fun (q : W32 × W32 × W32 × W32) rk =>
    let (a, b, c, d) := q
    (b, c, d, a ^^^ sm4Round (b ^^^ c ^^^ d ^^^ rk))) (sm4Words block)
  let (a, b, c, d) := r
  d.toNat * 2 ^ 96 + c.toNat * 2 ^ 64 + b.toNat * 2 ^ 32 + a.toNat

/-! ## The Galois/counter mode -/

/-- Half of a field element. -/
def gcmHalf (v : Nat) : Nat := if v % 2 = 1 then Nat.xor (v / 2) (0xE1 * 2 ^ 120) else v / 2

/-- The product in GF(2^128), the first bit of a block being the coefficient of 1. -/
def gcmMul (x y : Nat) : Nat :=
  ((rangeFrom 0 128).foldl (fun (q : Nat × Nat) i =>
    (if bitOf x (127 - i) then Nat.xor q.1 q.2 else q.1, gcmHalf q.2)) (0, y)).1

/-- Bytes cut into blocks, the last filled with zeros. -/
def gcmBlocks : Nat → List Byte → List Nat
  | 0, _ => []
  | _ + 1, [] => []
  | fuel + 1, bs => beNat ((bs ++ List.replicate 16 0).take 16) :: gcmBlocks fuel (bs.drop 16)

def ghash (h : Nat) (blocks : List Nat) : Nat := blocks.foldl (fun y x => gcmMul (Nat.xor y x) h) 0

/-- The bytes under the key stream from counter i on. -/
def gcmStream (keys : List W32) (j0 : Nat) : Nat → Nat → List Byte → List Byte
  | 0, _, _ => []
  | _ + 1, _, [] => []
  | fuel + 1, i, bs =>
    let k := beBytes 16 (sm4Block keys (j0 / 2 ^ 32 * 2 ^ 32 + (j0 + i) % 2 ^ 32))
    (List.zipWith (fun a b => a ^^^ b) (bs.take 16) k) ++ gcmStream keys j0 fuel (i + 1) (bs.drop 16)

/-- The tag of a ciphertext. -/
def gcmTag (keys : List W32) (j0 : Nat) (aad ct : List Byte) : List Byte :=
  let h := sm4Block keys 0
  let s := ghash h (gcmBlocks (aad.length + 1) aad ++ gcmBlocks (ct.length + 1) ct ++ [8 * aad.length * 2 ^ 64 + 8 * ct.length])
  beBytes 16 (Nat.xor s (sm4Block keys j0))

/-- SM4-GCM with a 96-bit IV: ciphertext and tag. -/
def gcmSeal (key iv : Nat) (aad pt : List Byte) : List Byte × List Byte :=
  let keys := sm4Keys key
  let j0 := iv * 2 ^ 32 + 1
  let ct := gcmStream keys j0 (pt.length + 1) 1 pt
  (ct, gcmTag keys j0 aad ct)

/-- SM4-GCM decryption; none where the tag does not agree. -/
def gcmOpen (key iv : Nat) (aad ct tag : List Byte) : Option (List Byte) :=
  let keys := sm4Keys key
  let j0 := iv * 2 ^ 32 + 1
  if gcmTag keys j0 aad ct = tag then some (gcmStream keys j0 (ct.length + 1) 1 ct) else none

/-! ## SM3 -/

def sm3P0 (x : W32) : W32 := x ^^^ rol32 x 9 ^^^ rol32 x 17
def sm3P1 (x : W32) : W32 := x ^^^ rol32 x 15 ^^^ rol32 x 23

/-- The message words W0 to W67 from the sixteen of a block. -/
def sm3Expand (w : List W32) : List W32 :=
  (rangeFrom 16 52).foldl (fun w j =>
    let at_ (i : Nat) := w.getD (j - i) 0
    w ++ [sm3P1 (at_ 16 ^^^ at_ 9 ^^^ rol32 (at_ 3) 15) ^^^ rol32 (at_ 13) 7 ^^^ at_ 6]) w

/-- The eight chaining words. -/
structure Sm3 where
  a : W32
  b : W32
  c : W32
  d : W32
  e : W32
  f : W32
  g : W32
  h : W32
  deriving DecidableEq, Repr

def sm3Init : Sm3 :=
  ⟨0x7380166f, 0x4914b2b9, 0x172442d7, 0xda8a0600, 0xa96f30bc, 0x163138aa, 0xe38dee4d, 0xb0fb0e4e⟩

def sm3Step (w : List W32) (v : Sm3) (j : Nat) : Sm3 :=
  let t : W32 := if j < 16 then 0x79cc4519 else 0x7a879d8a
  let ss1 := rol32 (rol32 v.a 12 + v.e + rol32 t j) 7
  let ss2 := ss1 ^^^ rol32 v.a 12
  let ff := if j < 16 then v.a ^^^ v.b ^^^ v.c else (v.a &&& v.b) ||| (v.a &&& v.c) ||| (v.b &&& v.c)
  let gg := if j < 16 then v.e ^^^ v.f ^^^ v.g else (v.e &&& v.f) ||| (~~~v.e &&& v.g)
  let tt1 := ff + v.d + ss2 + (w.getD j 0 ^^^ w.getD (j + 4) 0)
  let tt2 := gg + v.h + ss1 + w.getD j 0
  ⟨tt1, v.a, rol32 v.b 9, v.c, sm3P0 tt2, v.e, rol32 v.f 19, v.g⟩

def sm3Block (v : Sm3) (bs : List Byte) : Sm3 :=
  let w := sm3Expand ((rangeFrom 0 16).map fun i => BitVec.ofNat 32 (beNat ((bs.drop (4 * i)).take 4)))
  let r := (rangeFrom 0 64).foldl (sm3Step w) v
  ⟨r.a ^^^ v.a, r.b ^^^ v.b, r.c ^^^ v.c, r.d ^^^ v.d, r.e ^^^ v.e, r.f ^^^ v.f, r.g ^^^ v.g, r.h ^^^ v.h⟩

/-- The padded message. -/
def sm3Pad (bs : List Byte) : List Byte :=
  bs ++ [0x80] ++ List.replicate ((119 - bs.length % 64) % 64) 0 ++ beBytes 8 (8 * bs.length)

def sm3Blocks : Nat → Sm3 → List Byte → Sm3
  | 0, v, _ => v
  | fuel + 1, v, bs => if bs.isEmpty then v else sm3Blocks fuel (sm3Block v (bs.take 64)) (bs.drop 64)

/-- The 32-byte digest. -/
def sm3 (bs : List Byte) : List Byte :=
  let m := sm3Pad bs
  let v := sm3Blocks (m.length / 64 + 1) sm3Init m
  [v.a, v.b, v.c, v.d, v.e, v.f, v.g, v.h].flatMap fun x => beBytes 4 x.toNat

end Sys2Proof
end

