-- ==== Sys2Proof/Config.lean ====
section
/-! DEFINITION. What an implementation fixes, and the free values: constants with no body, so that no
proof can see a value of one.  A model field that counts selects a fresh free value. -/

namespace Sys2Proof

/-- DESIGN CHOICE (notes/assumptions/6): which of the results that spec/07 R193 and R203 allow an
approximate function gives.  The arguments are the function, the operand's bits and the variant (format,
scale and bound); R177 makes the result a fixed function of these. -/
opaque Config.approxChoice : Nat → Nat → Nat → Nat

/-- DESIGN CHOICE (notes/assumptions/11): which code an element takes in a tie between the extra and an even
code, which spec/04 R81 step 5 does not settle: the extra byte and the even code; true takes the extra. -/
opaque Config.blockTie : Nat → Nat → Bool

/-- DESIGN CHOICE (notes/assumptions/3): the nanoseconds by which `CLOCK` grows at a step (spec/03 R71). -/
opaque Config.clockDelta : Nat → Nat

/-- DESIGN CHOICE (notes/assumptions/97): the issue slots of a core that pass without an issue during a step (spec/15 R376); the arguments are
the step's count and the core. -/
opaque Config.idleSlots : Nat → Nat → Nat

/-- DESIGN CHOICE (notes/assumptions/3): the clocks of a core that pass during a step (spec/12 R320); the arguments are the step's count and
the core. -/
opaque Config.coreClocks : Nat → Nat → Nat

/-- DESIGN CHOICE (notes/assumptions/97): a context's L2 accesses from a core during a step, its misses, and its lines that another world
evicted (spec/15 R378, R379); the arguments are the step's count, the core, the context, and which of the three. -/
opaque Config.l2Count : Nat → Nat → Nat → Nat → Nat

/-- DESIGN CHOICE (notes/assumptions/7): a value that spec/ leaves open, one for each count. -/
opaque Config.freeValue : Nat → Nat

/-- DESIGN CHOICE (notes/assumptions/50): which code the record of a cut without a tier carries (spec/22 R461). -/
opaque Config.noTierCode : Nat

/-- DESIGN CHOICE (notes/assumptions/7): a byte that spec/ leaves open, one for each count and place. -/
opaque Config.freeByte : Nat → Nat → Byte

/-- The fused device identity `DBGID` (spec/14 R375); spec/ gives no value (notes/assumptions/7). -/
opaque Config.dbgId : W64

/-- The fused life-cycle value `LIFE` (spec/14 R375); spec/ gives no value (notes/assumptions/7). -/
opaque Config.life : W64

/-- DESIGN CHOICE (notes/assumptions/7): the verdict of an SM2 signature check (spec/14 R372, R375): key
identity, message bytes, signature bytes.  The algorithm is named by spec/ and not given by it. -/
opaque Config.sm2Verify : Nat → List Byte → List Byte → Bool

/-- The value that `DBGNONCE` shows after a number of renewals (spec/14 R375); spec/ gives none (notes/assumptions/7). -/
opaque Config.dbgNonce : Nat → W64

/-- DESIGN CHOICE (notes/assumptions/7): measurements 1 and 2, the digests of the boot ROM and the firmware image (spec/14 R373). -/
opaque Config.imageDigest : Nat → List Byte

/-- DESIGN CHOICE (notes/assumptions/7): measurement 3, a digest of the values that spec/14 R373 names; spec/ does not say how they are
laid out as bytes. -/
opaque Config.configDigest : List Nat → List Byte

/-- DESIGN CHOICE (notes/assumptions/7): whether a host request of a device of one partition travels on PCIe port 1 (spec/14 R355); the
arguments are a count and the request's I/O address. -/
opaque Config.secondPort : Nat → Nat → Bool

/-- Bytes of extension memory installed on a DDR-5 channel, 256 GiB at most (spec/01 R10, spec/05 R99; notes/assumptions/12). -/
opaque Config.channelBytes : Nat → Nat

/-- DESIGN CHOICE (notes/assumptions/13): the set, of 2,048, in which a bank keeps a line of the cluster cache (spec/01 R12). -/
opaque Config.cacheSet : Nat → Nat

/-- DESIGN CHOICE (notes/assumptions/77): the L2 slice, of 64, that is the home of a line (spec/05 R99). -/
opaque Config.sliceOf : Nat → Nat

end Sys2Proof
end

