-- ==== Sys2Proof/Machine/Number.lean ====
section
/-! DEFINITION. The binary floating-point formats, exact values, rounding and FMODE (spec/04 R72 to
R78, R82 to R86). -/

namespace Sys2Proof

/-! ## Rounding -/

/-- The rounding modes (spec/04 R82); the stochastic mode carries its 24-bit random value (R83). -/
inductive Rnd where
  | ne | tz | dn | up | na | sr (r : Nat) | ro
  deriving DecidableEq, Repr

/-- The stochastic random value of a seed, a `FIBID` and an element index (spec/04 R83). -/
def stochRandom (seed fib i : Nat) : Nat :=
  let m := 2 ^ 32
  let h := Nat.xor seed (fib * 0x6A4F93C5 % m)
  let h := Nat.xor h (i * 0xB1D32E57 % m)
  let h := Nat.xor h (h / 2 ^ 16)
  let h := h * 0x5C2E8A1B % m
  let h := Nat.xor h (h / 2 ^ 13)
  let h := h * 0x93A74F2D % m
  let h := Nat.xor h (h / 2 ^ 16)
  h / 2 ^ 8

/-- The mode of a rounding code (spec/04 R82); 7 is stored in `RMODE` as 0 (spec/03 R69). -/
def Rnd.ofCode (code rand : Nat) : Rnd :=
  match code with
  | 1 => .tz | 2 => .dn | 3 => .up | 4 => .na | 5 => .sr rand | 6 => .ro | _ => .ne

/-- The code in force: an override of 0 samples `RMODE` (spec/04 R82). -/
def roundCode (override rmode : Nat) : Nat := if override = 0 then rmode else override - 1

/-- Rounding takes the neighbour away from zero: the value lies at fraction rem / den of the spacing
above a neighbour whose last bit is `odd` (spec/04 R82, R83). -/
def Rnd.away (mode : Rnd) (neg odd : Bool) (rem den : Nat) : Bool :=
  match mode with
  | .ne => den < 2 * rem || (2 * rem == den && odd)
  | .tz => false
  | .dn => neg && rem != 0
  | .up => !neg && rem != 0
  | .na => den ≤ 2 * rem
  | .sr r => r < rem * 2 ^ 24 / den
  | .ro => rem != 0 && !odd

/-- num / den, a magnitude of sign `neg`, rounded to an integer magnitude (spec/04 R74, R82). -/
def Rnd.nat (mode : Rnd) (neg : Bool) (num den : Nat) : Nat :=
  let lo := num / den
  if mode.away neg (lo % 2 == 1) (num % den) den then lo + 1 else lo

/-! ## Formats -/

/-- A binary floating-point format: exponent bits, fraction bits, bias, and whether it has infinities
(spec/04 R75, R77). -/
structure FloatFmt where
  ebits : Nat
  fbits : Nat
  bias : Nat
  hasInf : Bool
  deriving DecidableEq, Repr

def fmtF32 : FloatFmt := ⟨8, 23, 127, true⟩
def fmtF64 : FloatFmt := ⟨11, 52, 1023, true⟩
def fmtF16 : FloatFmt := ⟨5, 10, 15, true⟩
def fmtBf16 : FloatFmt := ⟨8, 7, 127, true⟩
def fmtE4m3 : FloatFmt := ⟨4, 3, 7, false⟩
def fmtE5m2 : FloatFmt := ⟨5, 2, 15, true⟩

/-- Bits of the format less the sign. -/
def FloatFmt.magBits (f : FloatFmt) : Nat := f.ebits + f.fbits

/-- Bits of the format. -/
def FloatFmt.width (f : FloatFmt) : Nat := f.ebits + f.fbits + 1

/-- The magnitude bits of the largest finite value (spec/04 R75, R77). -/
def FloatFmt.maxCode (f : FloatFmt) : Nat :=
  if f.hasInf then (2 ^ f.ebits - 1) * 2 ^ f.fbits - 1 else 2 ^ f.magBits - 2

/-- The magnitude bits of infinity. -/
def FloatFmt.infCode (f : FloatFmt) : Nat := (2 ^ f.ebits - 1) * 2 ^ f.fbits

/-- The exponent of the smallest normal value. -/
def FloatFmt.emin (f : FloatFmt) : Int := 1 - (f.bias : Int)

/-- The canonical NaN (spec/04 R76). -/
def FloatFmt.nanBits (f : FloatFmt) : Nat :=
  if f.hasInf then f.infCode + 2 ^ (f.fbits - 1) else 2 ^ f.magBits - 1

/-- Bits with the sign set for `neg`. -/
def FloatFmt.withSign (f : FloatFmt) (neg : Bool) (mag : Nat) : Nat :=
  if neg then 2 ^ f.magBits + mag else mag

/-- A floating-point value: a NaN with its sign and its fraction (the fraction's top bit at bit 51), an
infinity, or a signed m × 2^e. -/
inductive FV where
  | nan (neg : Bool) (frac : Nat)
  | inf (neg : Bool)
  | fin (neg : Bool) (m : Nat) (e : Int)
  deriving DecidableEq, Repr

/-- The value of a pattern of the format (spec/04 R75, R77). -/
def FloatFmt.read (f : FloatFmt) (n : Nat) : FV :=
  let neg := bitOf n f.magBits
  let e := n / 2 ^ f.fbits % 2 ^ f.ebits
  let m := n % 2 ^ f.fbits
  if e = 2 ^ f.ebits - 1 ∧ (if f.hasInf then true else m == 2 ^ f.fbits - 1) then
    if f.hasInf ∧ m = 0 then .inf neg else .nan neg (m * 2 ^ (52 - f.fbits))
  else if e = 0 then .fin neg m (f.emin - f.fbits)
  else .fin neg (m + 2 ^ f.fbits) ((e : Int) - f.bias - f.fbits)

/-- The pattern is subnormal. -/
def FloatFmt.isSubnormal (f : FloatFmt) (n : Nat) : Bool :=
  n % 2 ^ f.magBits != 0 && n % 2 ^ f.magBits < 2 ^ f.fbits

/-- The pattern is a NaN. -/
def FloatFmt.isNan (f : FloatFmt) (n : Nat) : Bool :=
  match f.read n with
  | .nan _ _ => true
  | _ => false

/-- A pattern with a subnormal replaced by zero of its sign. -/
def FloatFmt.flush (f : FloatFmt) (n : Nat) : Nat :=
  if f.isSubnormal n then f.withSign (bitOf n f.magBits) 0 else n

/-- A NaN quietened and moved to the format by keeping the top fraction bits (spec/04 R76, R85); e4m3
has one NaN of each sign (R77). -/
def FloatFmt.nanFrom (f : FloatFmt) (neg : Bool) (frac : Nat) : Nat :=
  if f.hasInf then
    f.withSign neg (f.infCode + 2 ^ (f.fbits - 1) + frac / 2 ^ (52 - f.fbits) % 2 ^ (f.fbits - 1))
  else f.withSign neg f.nanBits

/-! ## Exact values -/

/-- An exact result: a NaN, an infinity, or the signed rational num / den (den is not 0); a zero keeps
its sign. -/
inductive Ex where
  | nan
  | inf (neg : Bool)
  | fin (neg : Bool) (num den : Nat)
  deriving DecidableEq, Repr

/-- The exact value of a floating-point value. -/
def FV.ex : FV → Ex
  | .nan _ _ => .nan
  | .inf neg => .inf neg
  | .fin neg m e => .fin neg (m * 2 ^ e.toNat) (2 ^ (-e).toNat)

/-- A signed rational: num / den, den not 0. -/
structure Q where
  num : Int
  den : Nat
  deriving DecidableEq, Repr

/-- The integer of a sign and a magnitude. -/
def signed (neg : Bool) (m : Nat) : Int := if neg then -(m : Int) else m

def Q.ofInt (n : Int) : Q := ⟨n, 1⟩
def Q.neg (a : Q) : Q := ⟨-a.num, a.den⟩
def Q.add (a b : Q) : Q := ⟨a.num * b.den + b.num * a.den, a.den * b.den⟩
def Q.sub (a b : Q) : Q := a.add b.neg
def Q.mul (a b : Q) : Q := ⟨a.num * b.num, a.den * b.den⟩
/-- The quotient, for a divisor that is not zero. -/
def Q.div (a b : Q) : Q :=
  if b.num < 0 then ⟨-(a.num * b.den), a.den * b.num.natAbs⟩ else ⟨a.num * b.den, a.den * b.num.natAbs⟩
/-- a ≤ b. -/
def Q.le (a b : Q) : Bool := a.num * b.den ≤ b.num * a.den
/-- a < b. -/
def Q.lt (a b : Q) : Bool := a.num * b.den < b.num * a.den
/-- a = b. -/
def Q.eq (a b : Q) : Bool := a.num * b.den == b.num * a.den
/-- a × 2^n. -/
def Q.scale (a : Q) (n : Int) : Q := ⟨a.num * 2 ^ n.toNat, a.den * 2 ^ (-n).toNat⟩

/-- ⌊log₂ (num / den)⌋ of a positive rational. -/
def floorLog2 (num den : Nat) : Int :=
  let e : Int := (Nat.log2 num : Int) - Nat.log2 den
  if den * 2 ^ e.toNat ≤ num * 2 ^ (-e).toNat then e else e - 1

/-- ⌈log₂ (num / den)⌉ of a positive rational. -/
def ceilLog2 (num den : Nat) : Int :=
  let e := floorLog2 num den
  if den * 2 ^ e.toNat = num * 2 ^ (-e).toNat then e else e + 1

/-- The lower neighbour of a magnitude in a format with an unbounded exponent: its bits, and the
fraction rem / den of the spacing that the magnitude lies above it. -/
structure Cut where
  code : Nat
  rem : Nat
  den : Nat
  deriving DecidableEq, Repr

/-- The neighbours of num / den (den is not 0). -/
def FloatFmt.cut (f : FloatFmt) (num den : Nat) : Cut :=
  if num = 0 then ⟨0, 0, 1⟩ else
  let e := max (floorLog2 num den) f.emin
  let q := e - f.fbits
  let n := num * 2 ^ (-q).toNat
  let d := den * 2 ^ q.toNat
  ⟨n / d + (e - f.emin).toNat * 2 ^ f.fbits, n % d, d⟩

/-- The magnitude bits of a result beyond the largest finite value (spec/04 R78). -/
def FloatFmt.overflow (f : FloatFmt) (mode : Rnd) (neg : Bool) : Nat :=
  if f.hasInf then
    match mode with
    | .ne | .na | .sr _ => f.infCode
    | .tz | .ro => f.maxCode
    | .dn => if neg then f.infCode else f.maxCode
    | .up => if neg then f.maxCode else f.infCode
  else f.maxCode

/-- The magnitude bits of a rounded magnitude (spec/04 R78, R82, R83). -/
def FloatFmt.roundMag (f : FloatFmt) (mode : Rnd) (neg : Bool) (num den : Nat) : Nat :=
  let c := f.cut num den
  let r := if mode.away neg (c.code % 2 == 1) c.rem c.den then c.code + 1 else c.code
  if r ≤ f.maxCode then r else f.overflow mode neg

/-- A signed rational rounded to the format; a zero result keeps the sign given. -/
def FloatFmt.roundTo (f : FloatFmt) (mode : Rnd) (neg : Bool) (num den : Nat) : Nat :=
  f.withSign neg (f.roundMag mode neg num den)

/-- An exact value rounded to the format; a NaN gives the canonical NaN, and an infinity in a format
without one its NaN of that sign (spec/04 R78). -/
def FloatFmt.roundEx (f : FloatFmt) (mode : Rnd) : Ex → Nat
  | .nan => f.nanBits
  | .inf neg => if f.hasInf then f.withSign neg f.infCode else f.withSign neg f.nanBits
  | .fin neg num den => f.roundTo mode neg num den

/-! ## Exact operations (spec/07 R191) -/

/-- The sign of the exact zero sum of opposite zeros or of values that cancel: − under downward rounding. -/
def Rnd.zeroNeg : Rnd → Bool
  | .dn => true
  | _ => false

def Ex.neg : Ex → Ex
  | .nan => .nan
  | .inf n => .inf (!n)
  | .fin n a b => .fin (!n) a b

def Ex.add (mode : Rnd) : Ex → Ex → Ex
  | .nan, _ => .nan
  | _, .nan => .nan
  | .inf a, .inf b => if a = b then .inf a else .nan
  | .inf a, .fin _ _ _ => .inf a
  | .fin _ _ _, .inf b => .inf b
  | .fin na a da, .fin nb b db =>
    if a = 0 ∧ b = 0 then .fin (if na = nb then na else mode.zeroNeg) 0 1 else
    let n := signed na (a * db) + signed nb (b * da)
    if n = 0 then .fin mode.zeroNeg 0 1 else .fin (n < 0) n.natAbs (da * db)

def Ex.mul : Ex → Ex → Ex
  | .nan, _ => .nan
  | _, .nan => .nan
  | .inf a, .inf b => .inf (a != b)
  | .inf a, .fin n m _ => if m = 0 then .nan else .inf (a != n)
  | .fin n m _, .inf b => if m = 0 then .nan else .inf (n != b)
  | .fin na a da, .fin nb b db => .fin (na != nb) (a * b) (da * db)

def Ex.div : Ex → Ex → Ex
  | .nan, _ => .nan
  | _, .nan => .nan
  | .inf _, .inf _ => .nan
  | .inf a, .fin n _ _ => .inf (a != n)
  | .fin n _ _, .inf b => .fin (n != b) 0 1
  | .fin na a da, .fin nb b db =>
    if b = 0 then (if a = 0 then .nan else .inf (na != nb)) else .fin (na != nb) (a * db) (da * b)

/-- x × 2^n. -/
def Ex.scale (n : Int) : Ex → Ex
  | .nan => .nan
  | .inf a => .inf a
  | .fin neg a b => .fin neg (a * 2 ^ n.toNat) (b * 2 ^ (-n).toNat)

/-- The bits of the integer square root of n from bit k - 1 down, r being the root so far. -/
def isqrtFrom (n : Nat) : Nat → Nat → Nat
  | 0, r => r
  | k + 1, r => if (r + 2 ^ k) * (r + 2 ^ k) ≤ n then isqrtFrom n k (r + 2 ^ k) else isqrtFrom n k r

/-- ⌊√n⌋. -/
def isqrt (n : Nat) : Nat := isqrtFrom n (Nat.log2 n / 2 + 1) 0

/-- √(num / den) as lower and upper bounds less than a part in 2^120 apart; the bounds are equal when the
root of the scaled value is exact. -/
def sqrtBounds (num den : Nat) : (Nat × Nat) × (Nat × Nat) :=
  let e := floorLog2 num den / 2
  let k := 128 - e
  let n := num * 4 ^ k.toNat
  let d := den * 4 ^ (-k).toNat
  let s := isqrt (n / d)
  let up := if s * s * d = n then s else s + 1
  ((s * 2 ^ (-k).toNat, 2 ^ k.toNat), (up * 2 ^ (-k).toNat, 2 ^ k.toNat))

/-- The square root, exact as far as any rounding of it can tell: a root that is not exact is given as the
midpoint of bounds that no format's boundary separates (spec/07 R190, R191). -/
def Ex.sqrt : Ex → Ex
  | .nan => .nan
  | .inf n => if n then .nan else .inf false
  | .fin n a b =>
    if a = 0 then .fin n 0 1
    else if n then .nan
    else
      let r := sqrtBounds a b
      .fin false (r.1.1 * r.2.2 + r.2.1 * r.1.2) (2 * r.1.2 * r.2.2)

/-! ## FMODE (spec/03 R68, spec/04 R85) -/

/-- The legacy bits of `FMODE`. -/
structure Fmode where
  ftzin : Bool
  ftz32 : Bool
  ftz16 : Bool
  nanpay : Bool
  minnum : Bool
  unfmad : Bool
  deriving DecidableEq, Repr

/-- The bits of `FMODE` (spec/03 R68). -/
def Fmode.ofNat (n : Nat) : Fmode :=
  ⟨bitOf n 0, bitOf n 1, bitOf n 2, bitOf n 3, bitOf n 4, bitOf n 5⟩

/-- All six bits clear (spec/04 R86: the units that ignore `FMODE`). -/
def Fmode.clear : Fmode := ⟨false, false, false, false, false, false⟩

/-- `FTZIN` flushes the format's inputs: every format but f64 (spec/04 R85). -/
def FloatFmt.flushIn (f : FloatFmt) (fm : Fmode) (n : Nat) : Nat :=
  if fm.ftzin && (f == fmtF32 || f == fmtF16 || f == fmtBf16) then f.flush n else n

/-- The result flush applies to the format (spec/04 R85); f64, e4m3 and e5m2 results are never flushed. -/
def FloatFmt.flushes (f : FloatFmt) (fm : Fmode) : Bool :=
  (fm.ftz32 && f == fmtF32) || (fm.ftz16 && (f == fmtF16 || f == fmtBf16))

/-- The result flush (spec/04 R85). -/
def FloatFmt.flushOut (f : FloatFmt) (fm : Fmode) (n : Nat) : Nat :=
  if f.flushes fm then f.flush n else n

/-- The first NaN among the operands, in the order given. -/
def firstNan : List FV → Option (Bool × Nat)
  | [] => none
  | .nan neg frac :: _ => some (neg, frac)
  | _ :: r => firstNan r

/-- The NaN a result takes (spec/04 R85 `NANPAY`); with no NaN operand, the canonical one. -/
def FloatFmt.nanResult (f : FloatFmt) (fm : Fmode) (ops : List FV) : Nat :=
  if fm.nanpay then
    match firstNan ops with
    | some (neg, frac) => f.nanFrom neg frac
    | none => f.nanBits
  else f.nanBits

/-- The clamp to [0, 1]: a NaN becomes +0, a value below zero +0, a value above one 1 (spec/06 R151). -/
def FloatFmt.clamp01 (f : FloatFmt) (n : Nat) : Nat :=
  let one := f.bias * 2 ^ f.fbits
  let mag := n % 2 ^ f.magBits
  if f.isNan n then 0
  else if bitOf n f.magBits then (if mag = 0 then n else 0)
  else if one < mag then one else n

/-- Finish of a class F point result: scale, round, flush, clamp (spec/06 R151, spec/07 R176). -/
def FloatFmt.finish (f : FloatFmt) (mode : Rnd) (fm : Fmode) (scale : Int) (clamp : Bool)
    (ops : List FV) (x : Ex) : Nat :=
  let r :=
    match x with
    | .nan => f.nanResult fm ops
    | x => f.flushOut fm (f.roundEx mode (x.scale scale))
  if clamp then f.clamp01 r else r

end Sys2Proof
end

