-- ==== Sys2Proof/Machine/Interval.lean ====
section
/-! DEFINITION. Intervals: reading, writing, comparison and arithmetic (spec/04 R87 to R91, spec/06
R150, R151, spec/07 R202, R204 to R207). -/

namespace Sys2Proof

/-- A bound: an extended real. -/
inductive ER where
  | ninf
  | fin (q : Q)
  | pinf
  deriving DecidableEq, Repr

/-- An interval [lo, hi]. -/
structure Iv where
  lo : ER
  hi : ER
  deriving DecidableEq, Repr

/-- [−∞, +∞]. -/
def Iv.entire : Iv := ⟨.ninf, .pinf⟩

def ER.zero : ER := .fin (Q.ofInt 0)

def ER.le : ER → ER → Bool
  | .ninf, _ => true
  | _, .pinf => true
  | .fin a, .fin b => a.le b
  | _, _ => false

def ER.lt (a b : ER) : Bool := !b.le a
def ER.eq (a b : ER) : Bool := a.le b && b.le a
def ER.min (a b : ER) : ER := if a.le b then a else b
def ER.max (a b : ER) : ER := if a.le b then b else a

def ER.neg : ER → ER
  | .ninf => .pinf
  | .pinf => .ninf
  | .fin q => .fin q.neg

def ER.abs (a : ER) : ER := if a.le ER.zero then a.neg else a

/-- The sum of two lower or two upper bounds, which are never opposite infinities. -/
def ER.add : ER → ER → ER
  | .ninf, _ => .ninf
  | _, .ninf => .ninf
  | .pinf, _ => .pinf
  | _, .pinf => .pinf
  | .fin a, .fin b => .fin (a.add b)

def ER.isInf : ER → Bool
  | .fin _ => false
  | _ => true

/-- The product; a zero times an infinity is formed as `none` (spec/07 R202). -/
def ER.mul : ER → ER → Option ER
  | .fin a, .fin b => some (.fin (a.mul b))
  | a, b =>
    if a.eq ER.zero || b.eq ER.zero then none
    else if a.lt ER.zero == b.lt ER.zero then some .pinf else some .ninf

/-- The quotient by a non-zero divisor; an infinity by an infinity gives `none`, its limits being those of
the other quotients. -/
def ER.div : ER → ER → Option ER
  | .fin a, .fin b => some (.fin (a.div b))
  | .fin _, _ => some ER.zero
  | a, .fin b => some (if a.lt ER.zero == decide (b.num < 0) then .pinf else .ninf)
  | _, _ => none

def ER.scale (n : Int) : ER → ER
  | .fin q => .fin (q.scale n)
  | x => x

/-- The bound of a floating-point value; a NaN has none. -/
def FV.er : FV → Option ER
  | .nan _ _ => none
  | .inf neg => some (if neg then .ninf else .pinf)
  | .fin neg m e => some (.fin ⟨signed neg (m * 2 ^ e.toNat), 2 ^ (-e).toNat⟩)

/-- What reading an interval operand answers: the interval, or EMPTY_INTERVAL (spec/04 R87). -/
def FloatFmt.readIv (f : FloatFmt) (lo hi : Nat) : Option Iv :=
  match (f.read lo).er, (f.read hi).er with
  | some a, some b => if b.lt a || a == .pinf || b == .ninf then none else some ⟨a, b⟩
  | _, _ => some Iv.entire

/-- The absolute value, then the negation, of an interval operand (spec/06 R150). -/
def Iv.modify (neg abs : Bool) (a : Iv) : Iv :=
  let a :=
    if abs then
      if a.lo.lt ER.zero && ER.zero.lt a.hi then ⟨ER.zero, a.lo.abs.max a.hi.abs⟩
      else ⟨a.lo.abs.min a.hi.abs, a.lo.abs.max a.hi.abs⟩
    else a
  if neg then ⟨a.hi.neg, a.lo.neg⟩ else a

/-- A signed rational rounded to the format; a zero result is +0 (spec/04 R87). -/
def FloatFmt.roundQ (f : FloatFmt) (mode : Rnd) (q : Q) : Nat :=
  let neg := decide (q.num < 0)
  let mag := f.roundMag mode neg q.num.natAbs q.den
  if mag = 0 then 0 else f.withSign neg mag

/-- A bound rounded down or up. -/
def FloatFmt.roundER (f : FloatFmt) (mode : Rnd) : ER → Nat
  | .ninf => f.withSign true f.infCode
  | .pinf => f.infCode
  | .fin q => f.roundQ mode q

/-- A subnormal lower bound moved outward (spec/04 R86). -/
def FloatFmt.flushLo (f : FloatFmt) (fm : Fmode) (n : Nat) : Nat :=
  if f.flushes fm && f.isSubnormal n then
    (if bitOf n f.magBits then f.withSign true (2 ^ f.fbits) else 0)
  else n

/-- A subnormal upper bound moved outward (spec/04 R86). -/
def FloatFmt.flushHi (f : FloatFmt) (fm : Fmode) (n : Nat) : Nat :=
  if f.flushes fm && f.isSubnormal n then (if bitOf n f.magBits then 0 else 2 ^ f.fbits) else n

/-- The bits of an interval result that is not empty (spec/04 R87): where both bounds are the same infinity, the inner one is the finite
value next to it, as spec/09 R245 has it of a loaded point (DESIGN CHOICE, notes/assumptions/110). -/
def FloatFmt.nonEmpty (f : FloatFmt) (v : Nat × Nat) : Nat × Nat :=
  (if v.1 = f.infCode then f.maxCode else v.1, if v.2 = f.withSign true f.infCode then f.withSign true f.maxCode else v.2)

/-- The bits of an interval result: each bound rounded outward, flushed outward (spec/04 R86, R91). -/
def FloatFmt.writeIv (f : FloatFmt) (fm : Fmode) (a : Iv) : Nat × Nat :=
  f.nonEmpty (f.flushLo fm (f.roundER .dn a.lo), f.flushHi fm (f.roundER .up a.hi))

/-- Finish of a class F interval result: scale, round, flush, clamp (spec/06 R151, spec/07 R202). -/
def FloatFmt.finishIv (f : FloatFmt) (fm : Fmode) (scale : Int) (clamp : Bool) (a : Iv) : Nat × Nat :=
  let r := f.writeIv fm ⟨a.lo.scale scale, a.hi.scale scale⟩
  if clamp then (f.clamp01 r.1, f.clamp01 r.2) else r

/-! ## Comparison -/

/-- The conditions of FCMP, coded as spec/06 R165 orders them. -/
inductive FCond where
  | lt | le | gt | ge | eq | ne | contains | subset | disjoint | ord | unord
  deriving DecidableEq, Repr

/-- A three-valued truth (spec/03 R63). -/
inductive Tri where
  | false_ | true_ | undecided
  deriving DecidableEq, Repr

/-- The code of a truth in a predicate word (spec/03 R63). -/
def Tri.code : Tri → Nat
  | .false_ => 0 | .true_ => 1 | .undecided => 2

/-- TRUE when t, else FALSE when f, else UNDECIDED. -/
def Tri.of (t f : Bool) : Tri := if t then .true_ else if f then .false_ else .undecided

def Tri.ofBool (b : Bool) : Tri := if b then .true_ else .false_

/-- Interval comparison (spec/04 R89). -/
def Iv.compare (cond : FCond) (x y : Iv) : Tri :=
  let a := x.lo
  let b := x.hi
  let c := y.lo
  let d := y.hi
  let apart := b.lt c || d.lt a
  let same := a.eq b && b.eq c && c.eq d
  match cond with
  | .lt => .of (b.lt c) (d.le a)
  | .le => .of (b.le c) (d.lt a)
  | .gt => .of (d.lt a) (b.le c)
  | .ge => .of (d.le a) (b.lt c)
  | .eq => .of same apart
  | .ne => .of apart same
  | .contains => .of (a.le c && d.le b) (d.lt a || b.lt c)
  | .subset => .of (c.le a && b.le d) (b.lt c || d.lt a)
  | .disjoint => .of apart same
  | .ord => .true_
  | .unord => .false_

/-- Point comparison (spec/07 R197): with a NaN, every condition is FALSE except ne and unord. -/
def FV.compare (cond : FCond) (x y : FV) : Tri :=
  match x.er, y.er with
  | some a, some b => Iv.compare cond ⟨a, a⟩ ⟨b, b⟩
  | _, _ => .ofBool (cond == .ne || cond == .unord)

/-! ## Arithmetic (spec/07 R202) -/

def Iv.add (x y : Iv) : Iv := ⟨x.lo.add y.lo, x.hi.add y.hi⟩

/-- The least and the greatest of the products of the bounds; none when a zero bound meets an infinite
one. -/
def Iv.mul (x y : Iv) : Option Iv :=
  match x.lo.mul y.lo, x.lo.mul y.hi, x.hi.mul y.lo, x.hi.mul y.hi with
  | some p, some q, some r, some s => some ⟨(p.min q).min (r.min s), (p.max q).max (r.max s)⟩
  | _, _, _, _ => none

/-- FMUL. -/
def Iv.fmul (x y : Iv) : Iv := (x.mul y).getD Iv.entire

/-- FFMA. -/
def Iv.fma (x y z : Iv) : Iv :=
  match x.mul y with
  | some p => p.add z
  | none => Iv.entire

/-- The least (or greatest) of the quotients that exist. -/
def pickER (pick : ER → ER → ER) : List (Option ER) → Option ER
  | [] => none
  | none :: r => pickER pick r
  | some a :: r =>
    match pickER pick r with
    | none => some a
    | some b => some (pick a b)

/-- FDIV: a divisor that contains zero gives [−∞, +∞]. -/
def Iv.fdiv (x y : Iv) : Iv :=
  if y.lo.le ER.zero && ER.zero.le y.hi then Iv.entire else
  let qs := [x.lo.div y.lo, x.lo.div y.hi, x.hi.div y.lo, x.hi.div y.hi]
  match pickER ER.min qs, pickER ER.max qs with
  | some a, some b => ⟨a, b⟩
  | _, _ => Iv.entire

/-- The square root of a bound at or above zero, as any rounding sees it. -/
def ER.sqrt : ER → ER
  | .fin q =>
    match Ex.sqrt (.fin false q.num.natAbs q.den) with
    | .fin _ n d => .fin ⟨n, d⟩
    | _ => .fin q
  | x => x

/-- FSQRT; an interval wholly below zero has none (spec/04 R88). -/
def Iv.fsqrt (x : Iv) : Option Iv :=
  if x.hi.lt ER.zero then none else some ⟨(x.lo.max ER.zero).sqrt, x.hi.sqrt⟩

/-- ⌊a⌋ of a bound. -/
def ER.floor : ER → ER
  | .fin q => .fin (Q.ofInt (q.num / q.den))
  | x => x

/-- ⌈a⌉ of a bound. -/
def ER.ceil (a : ER) : ER := a.neg.floor.neg

/-! ## Points of an interval (spec/07 R205) -/

/-- The midpoint. -/
def FloatFmt.ivMid (f : FloatFmt) (x : Iv) : Nat :=
  match x.lo, x.hi with
  | .fin a, .fin b => f.roundQ .ne ((a.add b).scale (-1))
  | .ninf, .fin _ => f.withSign true f.maxCode
  | .fin _, .pinf => f.maxCode
  | _, _ => 0

/-- The width, rounded up. -/
def FloatFmt.ivWid (f : FloatFmt) (x : Iv) : Nat :=
  match x.lo, x.hi with
  | .fin a, .fin b => f.roundQ .up (b.sub a)
  | _, _ => f.infCode

/-- The greatest magnitude. -/
def Iv.mag (x : Iv) : ER := x.lo.abs.max x.hi.abs

/-- The least magnitude. -/
def Iv.mig (x : Iv) : ER :=
  if x.lo.le ER.zero && ER.zero.le x.hi then ER.zero else x.lo.abs.min x.hi.abs

end Sys2Proof
end

