-- ==== Sys2Proof/Machine/Approx.lean ====
section
/-! DEFINITION. The approximate functions (spec/07 R193, R194, R203): an enclosure of the exact value by
fixed-point arithmetic of 256 fraction bits, and a free choice among the results that the stated error
allows (notes/assumptions/6). -/

namespace Sys2Proof

/-- The approximate functions (spec/07 R193). -/
inductive AFn where
  | rcp | rsq | ex2 | lg2 | sinp | cosp
  deriving DecidableEq, Repr

def AFn.code : AFn → Nat
  | .rcp => 0 | .rsq => 1 | .ex2 => 2 | .lg2 => 3 | .sinp => 4 | .cosp => 5

/-- The error bound in units in the last place (spec/07 R193). -/
def AFn.ulps : AFn → Nat
  | .rcp => 1 | .rsq => 1 | .ex2 => 2 | .lg2 => 2 | .sinp => 2 | .cosp => 2

/-! ## Fixed point -/

/-- The fraction bits of the fixed-point enclosures. -/
def fixBits : Nat := 256

def fixOne : Nat := 2 ^ 256

/-- ⌊π × 2^256⌋. -/
def fixPi : Nat := 0x3243f6a8885a308d313198a2e03707344a4093822299f31d0082efa98ec4e6c89

/-- ⌊ln 2 × 2^256⌋. -/
def fixLn2 : Nat := 0xb17217f7d1cf79abc9e3b39803f2f6af40f343267298b62d8a0d175b8baafa2b

/-- The error, in units of 2^-256, within which the sums below lie of the exact values. -/
def fixErr : Nat := 4096

/-- Σ t^k / k! from the term given, k counting up. -/
def fixExp (t : Nat) : Nat → Nat → Nat → Nat
  | 0, _, _ => 0
  | n + 1, k, term => term + fixExp t n (k + 1) (term * t / fixOne / (k + 1))

/-- Σ p / (2k + 1), p falling by the factor yy. -/
def fixAtanh (yy : Nat) : Nat → Nat → Nat → Nat
  | 0, _, _ => 0
  | n + 1, k, p => p / (2 * k + 1) + fixAtanh yy n (k + 1) (p * yy / fixOne)

/-- Σ (−1)^k z^k / (2k + 1)!, the terms of sin u / u. -/
def fixSinc (z : Nat) : Nat → Nat → Nat → Int
  | 0, _, _ => 0
  | n + 1, k, term =>
    (term : Int) - fixSinc z n (k + 1) (term * z / fixOne / ((2 * k + 2) * (2 * k + 3)))

/-! ## Enclosures -/

/-- An enclosure of an exact value; `exact` when the value is one of spec/07 R193's exact cases, and then
the bounds are equal. -/
structure Enc where
  lo : Q
  hi : Q
  exact_ : Bool
  deriving DecidableEq, Repr

def Enc.point (q : Q) : Enc := ⟨q, q, true⟩

def isPow2 (n : Nat) : Bool := n != 0 && 2 ^ Nat.log2 n == n

/-- 2^q. -/
def encEx2 (q : Q) : Enc :=
  let n := q.num / q.den
  let fnum := (q.num - n * q.den).toNat
  if 8192 ≤ n then .point ((Q.ofInt 1).scale 8192)
  else if n < -8192 then ⟨Q.ofInt 0, (Q.ofInt 1).scale (-8192), false⟩
  else if fnum = 0 then .point ((Q.ofInt 1).scale n)
  else
    let f := fnum * fixOne / q.den
    let v := fixExp (f * fixLn2 / fixOne) 64 0 fixOne
    ⟨(⟨(v : Int) - fixErr, fixOne⟩ : Q).scale n, (⟨(v : Int) + fixErr, fixOne⟩ : Q).scale n, false⟩

/-- log₂ q, for q > 0. -/
def encLg2 (q : Q) : Enc :=
  let num := q.num.toNat
  let e := floorLog2 num q.den
  let n := num * 2 ^ (-e).toNat
  let d := q.den * 2 ^ e.toNat
  if n = d then .point (Q.ofInt e)
  else
    let y := (n - d) * fixOne / (n + d)
    let s := fixAtanh (y * y / fixOne) 96 0 y
    let l : Int := e * (fixOne : Int) + (2 * s * fixOne / fixLn2 : Nat)
    ⟨⟨l - fixErr, fixOne⟩, ⟨l + fixErr, fixOne⟩, false⟩

/-- sin (π q). -/
def encSinp (q : Q) : Enc :=
  let r := q.num % (2 * (q.den : Int))
  let flip := (q.den : Int) ≤ r
  let r := (if flip then r - q.den else r).toNat
  let r := if q.den < 2 * r then q.den - r else r
  let sg (x : Q) : Q := if flip then x.neg else x
  if r = 0 then .point (Q.ofInt 0)
  else if 2 * r = q.den then .point (sg (Q.ofInt 1))
  else
    let u := r * fixOne / q.den * fixPi / fixOne
    let g := fixSinc (u * u / fixOne) 64 0 fixOne
    let lo : Q := ⟨(r * fixPi : Nat) * (g - fixErr), q.den * fixOne * fixOne⟩
    let hi : Q := ⟨(r * (fixPi + 1) : Nat) * (g + fixErr), q.den * fixOne * fixOne⟩
    if flip then ⟨hi.neg, lo.neg, false⟩ else ⟨lo, hi, false⟩

/-- cos (π q). -/
def encCosp (q : Q) : Enc := encSinp ⟨2 * q.num + q.den, 2 * q.den⟩

/-- 1 / q, for q ≠ 0. -/
def encRcp (q : Q) : Enc :=
  let r := (Q.ofInt 1).div q
  ⟨r, r, isPow2 q.num.natAbs && isPow2 q.den⟩

/-- 1 / √q, for q > 0. -/
def encRsq (q : Q) : Enc :=
  let b := sqrtBounds q.den q.num.toNat
  let lo : Q := ⟨b.1.1, b.1.2⟩
  let hi : Q := ⟨b.2.1, b.2.2⟩
  ⟨lo, hi, isPow2 q.num.toNat && isPow2 q.den && lo.eq hi⟩

/-- The enclosure of a function at a finite point of its domain. -/
def AFn.enc : AFn → Q → Enc
  | .rcp => encRcp | .rsq => encRsq | .ex2 => encEx2 | .lg2 => encLg2 | .sinp => encSinp
  | .cosp => encCosp

/-! ## Choosing a result -/

/-- The bits of an ordered index: a negative index is a negative value. -/
def FloatFmt.ofIndex (f : FloatFmt) (i : Int) : Nat :=
  if i < 0 then f.withSign true i.natAbs else i.natAbs

/-- The index of the greatest value of the format at or below q; infinity follows the largest finite
value. -/
def FloatFmt.indexDown (f : FloatFmt) (q : Q) : Int :=
  let c := f.cut q.num.natAbs q.den
  if q.num < 0 then -(min (if c.rem = 0 then c.code else c.code + 1) (f.maxCode + 1) : Nat)
  else (min c.code (f.maxCode + 1) : Nat)

/-- The index of the least value at or above q. -/
def FloatFmt.indexUp (f : FloatFmt) (q : Q) : Int := -(f.indexDown q.neg)

/-- The unit in the last place of q in the format. -/
def FloatFmt.ulpOf (f : FloatFmt) (q : Q) : Q :=
  let e := if q.num = 0 then f.emin else max (floorLog2 q.num.natAbs q.den) f.emin
  (Q.ofInt 1).scale (e - f.fbits)

/-- The error allowed about the scaled value x of the function at q (spec/07 R193). -/
def AFn.err (fn : AFn) (f : FloatFmt) (q x : Q) : Q :=
  let e := (Q.ofInt fn.ulps).mul (f.ulpOf x)
  let abs := (Q.ofInt 1).scale (if f.fbits = 52 then -51 else -22)
  if fn = .lg2 ∧ (⟨1, 2⟩ : Q).le q ∧ q.le (Q.ofInt 2) ∧ e.lt abs then abs else e

/-- One of the indices from a to b. -/
def pickIndex (a b : Int) (choice : Nat) : Int :=
  if b < a then a else a + ((choice % ((b - a).toNat + 1) : Nat) : Int)

/-- The special results (spec/07 R194); none where the function is evaluated at a finite point. -/
def AFn.special (fn : AFn) (x : FV) : Option Ex :=
  match fn, x with
  | _, .nan _ _ => some .nan
  | .rcp, .inf n => some (.fin n 0 1)
  | .rcp, .fin n m _ => if m = 0 then some (.inf n) else none
  | .rsq, .inf n => some (if n then .nan else .fin false 0 1)
  | .rsq, .fin n m _ => if m = 0 then some (.inf n) else if n then some .nan else none
  | .ex2, .inf n => some (if n then .fin false 0 1 else .inf false)
  | .ex2, .fin _ m _ => if m = 0 then some (.fin false 1 1) else none
  | .lg2, .inf n => some (if n then .nan else .inf false)
  | .lg2, .fin n m _ => if m = 0 then some (.inf true) else if n then some .nan else none
  | .sinp, .inf _ => some .nan
  | .sinp, .fin n m e =>
    if m = 0 ∨ m * 2 ^ e.toNat % 2 ^ (-e).toNat = 0 then some (.fin n 0 1) else none
  | .cosp, .inf _ => some .nan
  | .cosp, .fin _ _ _ => none

/-- A finite value as a rational. -/
def FV.q : FV → Q
  | .fin neg m e => ⟨signed neg (m * 2 ^ e.toNat), 2 ^ (-e).toNat⟩
  | _ => Q.ofInt 0

/-- The bits of a result of the format from its exact value by nearest-even; a zero keeps the value's
sign. -/
def FloatFmt.nearest (f : FloatFmt) (q : Q) : Nat :=
  f.roundTo .ne (decide (q.num < 0)) q.num.natAbs q.den

/-- A point result before flush and clamp (spec/07 R193): exact cases, f16 and bf16, and scaled results
that overflow or become subnormal round to nearest-even; any other is a free choice within the bound. -/
def AFn.pointBits (fn : AFn) (f : FloatFmt) (scale : Int) (bits : Nat) (q : Q) : Nat :=
  let e := fn.enc q
  let lo := e.lo.scale scale
  let hi := e.hi.scale scale
  let near := f.nearest lo
  let mag := near % 2 ^ f.magBits
  if e.exact_ || f.fbits < 23 then near
  else if scale != 0 && (mag < 2 ^ f.fbits || f.maxCode < mag) then near
  else
    let err := fn.err f q lo
    f.ofIndex (pickIndex (f.indexUp (hi.sub err)) (f.indexDown (lo.add err))
      (Config.approxChoice fn.code bits (f.fbits * 64 + (scale + 8).toNat * 4)))

/-- A point result (spec/07 R193, R194). -/
def AFn.point (fn : AFn) (f : FloatFmt) (fm : Fmode) (scale : Int) (clamp : Bool) (bits : Nat) : Nat :=
  let x := f.read bits
  match fn.special x with
  | some r => f.finish .ne fm scale clamp [x] r
  | none =>
    let r := f.flushOut fm (fn.pointBits f scale bits x.q)
    if clamp then f.clamp01 r else r

/-! ## Interval forms (spec/07 R203) -/

/-- A lower bound: the tightest one, or a free choice outward of it within the error; never below `least`. -/
def AFn.lowBound (fn : AFn) (f : FloatFmt) (scale : Int) (bits : Nat) (q : Q) (e : Enc) (least : Option Q) :
    Nat :=
  let x := e.lo.scale scale
  let atLeast (i : Int) : Int :=
    match least with
    | some l => max i (f.indexDown (l.scale scale))
    | none => i
  let t := atLeast (min (f.indexDown x) f.maxCode)
  let a := atLeast (f.indexUp ((f.read (f.ofIndex t)).q.sub (fn.err f q x)))
  f.ofIndex (pickIndex (min a t) t (Config.approxChoice fn.code bits (f.fbits * 64 + (scale + 8).toNat * 4 + 1)))

/-- An upper bound, never above `most`. -/
def AFn.highBound (fn : AFn) (f : FloatFmt) (scale : Int) (bits : Nat) (q : Q) (e : Enc) (most : Option Q) :
    Nat :=
  let x := e.hi.scale scale
  let atMost (i : Int) : Int :=
    match most with
    | some l => min i (f.indexUp (l.scale scale))
    | none => i
  let t := atMost (max (f.indexUp x) (-(f.maxCode : Int)))
  let b := atMost (f.indexDown ((f.read (f.ofIndex t)).q.add (fn.err f q x)))
  f.ofIndex (pickIndex t (max b t) (Config.approxChoice fn.code bits (f.fbits * 64 + (scale + 8).toNat * 4 + 2)))

/-- The interval [a, b] contains a point c + 2k, k an integer, c = num / 2. -/
def reaches (a b : Q) (num : Int) : Bool :=
  let k := -((num * a.den - 2 * a.num) / (4 * (a.den : Int)))
  -- the least k with a ≤ num / 2 + 2k
  (⟨num + 4 * k, 2⟩ : Q).le b

/-- The image of [a, b] under sin (π x) or cos (π x). -/
def AFn.periodic (fn : AFn) (f : FloatFmt) (scale : Int) (bits : Nat) (a b : Q) : Nat × Nat :=
  let one := Q.ofInt 1
  let shift : Int := if fn = .cosp then -1 else 0
  if (Q.ofInt 2).le (b.sub a) then (f.roundQ .dn (one.neg.scale scale), f.roundQ .up (one.scale scale))
  else
    let ea := fn.enc a
    let eb := fn.enc b
    let l := if ea.lo.le eb.lo then (a, ea) else (b, eb)
    let h := if eb.hi.le ea.hi then (a, ea) else (b, eb)
    (if reaches a b (3 + shift) then f.roundQ .dn (one.neg.scale scale)
     else fn.lowBound f scale bits l.1 l.2 (some one.neg),
     if reaches a b (1 + shift) then f.roundQ .up (one.scale scale)
     else fn.highBound f scale bits h.1 h.2 (some one))

/-- The bounds of an interval result before flush and clamp; none for EMPTY_INTERVAL. -/
def AFn.ivBits (fn : AFn) (f : FloatFmt) (scale : Int) (bits : Nat) (x : Iv) : Option (Nat × Nat) :=
  let entire := (f.withSign true f.infCode, f.infCode)
  let low (q : Q) := fn.lowBound f scale bits q (fn.enc q) none
  let high (q : Q) := fn.highBound f scale bits q (fn.enc q) none
  match fn with
  | .rcp =>
    if x.lo.le ER.zero && ER.zero.le x.hi then some entire else
    some
      (match x.hi with
       | .fin q => low q
       | _ => 0,
       match x.lo with
       | .fin q => high q
       | _ => 0)
  | .rsq =>
    if x.hi.lt ER.zero then none
    else if x.hi.eq ER.zero then some entire
    else some
      (match x.hi with
       | .fin q => low q
       | _ => 0,
       match x.lo with
       | .fin q => if 0 < q.num then high q else f.infCode
       | _ => f.infCode)
  | .lg2 =>
    if x.hi.lt ER.zero then none
    else if x.hi.eq ER.zero then some entire
    else some
      (match x.lo with
       | .fin q => if 0 < q.num then low q else f.withSign true f.infCode
       | _ => f.withSign true f.infCode,
       match x.hi with
       | .fin q => high q
       | _ => f.infCode)
  | .ex2 =>
    some
      (match x.lo with
       | .fin q => low q
       | _ => 0,
       match x.hi with
       | .fin q => high q
       | _ => f.infCode)
  | .sinp | .cosp =>
    match x.lo, x.hi with
    | .fin a, .fin b => some (fn.periodic f scale bits a b)
    | _, _ =>
      some (f.roundQ .dn ((Q.ofInt (-1)).scale scale), f.roundQ .up ((Q.ofInt 1).scale scale))

/-- A zero bound is written as +0 (spec/04 R87). -/
def FloatFmt.plusZero (f : FloatFmt) (n : Nat) : Nat := if n % 2 ^ f.magBits = 0 then 0 else n

/-- An interval result; `bits` are the operand's bits, on which the free choice depends. -/
def AFn.interval (fn : AFn) (f : FloatFmt) (fm : Fmode) (scale : Int) (clamp : Bool) (bits : Nat) (x : Iv) :
    Option (Nat × Nat) :=
  (fn.ivBits f scale bits x).map fun r =>
    let lo := f.flushLo fm (f.plusZero r.1)
    let hi := f.flushHi fm (f.plusZero r.2)
    if clamp then (f.clamp01 lo, f.clamp01 hi) else (lo, hi)

end Sys2Proof
end

