-- ==== Sys2Proof/Machine/Block.lean ====
section
/-! DEFINITION. The e2m1x block format (spec/04 R79 to R81). -/

namespace Sys2Proof

/-- The magnitudes of the codes 0 to 7, in halves (spec/04 R79). -/
def e2m1Halves (c : Nat) : Nat := ([0, 1, 2, 3, 4, 6, 8, 12] : List Nat).getD (c % 8) 0

/-- An element's value from its code, the block's scale byte and its extra byte (spec/04 R79, R80). -/
def e2m1Value (code scale extra : Nat) : FV :=
  if scale = 255 then .nan false (2 ^ 51)
  else if code = 8 then
    match fmtE4m3.read extra with
    | .fin neg m e => if m = 0 then .fin false 0 0 else .fin neg m (e + scale - 127)
    | x => x
  else .fin (bitOf code 3) (e2m1Halves code) ((scale : Int) - 128)

/-- A block as encoded: the scale byte, the extra byte and the codes of its 32 elements. -/
structure Block where
  scale : Nat
  extra : Nat
  codes : List Nat
  deriving DecidableEq, Repr

/-- The index and magnitude of the element of largest magnitude, the lowest index among equals. -/
def nominate : List Q → Nat → Nat × Q → Nat × Q
  | [], _, best => best
  | q :: r, i, best => nominate r (i + 1) (if best.2.lt q then (i, q) else best)

/-- The magnitude of a rational. -/
def Q.abs (q : Q) : Q := ⟨q.num.natAbs, q.den⟩

/-- The scale exponent (spec/04 R81 step 3). -/
def blockExp (m1 m2 : Q) : Int :=
  let k1 := ceilLog2 m1.num.natAbs (m1.den * 448)
  let k2 := ceilLog2 m2.num.natAbs (m2.den * 6)
  let k := if m1.num = 0 then 0 else if m2.num = 0 then k1 else max k2 k1
  max (-127) (min 127 k)

/-- A finite value as a rational; zero for the rest. -/
def FV.toQ (x : FV) : Q :=
  match x.er with
  | some (.fin q) => q
  | _ => Q.ofInt 0

/-- The codes of 0 to 15 at the least distance from y. -/
def nearestCodes (extra : Nat) (y : Q) : List Nat → List Nat × Q → List Nat × Q
  | [], best => best
  | c :: r, best =>
    let d := ((e2m1Value c 127 extra).toQ.sub y).abs
    nearestCodes extra y r
      (if best.1 = [] ∨ d.lt best.2 then ([c], d) else if d.eq best.2 then (best.1 ++ [c], best.2) else best)

/-- The code of an element that is not nominated (spec/04 R81 step 5). -/
def blockCode (extra : Nat) (y : Q) : Nat :=
  if y.num = 0 then 0 else
  match (nearestCodes extra y (rangeFrom 0 16) ([], y)).1 with
  | [c] => c
  | cs =>
    let even := cs.filter (fun c => c % 2 == 0)
    match even.filter (fun c => c != 8) with
    | c :: _ => if even.contains 8 && Config.blockTie extra c then 8 else c
    | [] => 8

/-- The encoding of a block of 32 values (spec/04 R81). -/
def encodeBlock (xs : List FV) : Block :=
  if xs.any (fun x => match x with
      | .fin _ _ _ => false
      | _ => true) then
    ⟨255, 0, xs.map (fun _ => 0)⟩
  else
    let qs := xs.map FV.toQ
    let mags := qs.map Q.abs
    let nom := nominate mags 0 (0, (mags.getD 0 (Q.ofInt 0)))
    let rest := nominate (setAt mags nom.1 (Q.ofInt 0)) 0 (0, Q.ofInt 0)
    let k := blockExp nom.2 rest.2
    let neg :=
      match xs.getD nom.1 (.fin false 0 0) with
      | .fin neg _ _ => neg
      | _ => false
    let x := nom.2.scale (-k)
    let extra := fmtE4m3.roundTo .ne neg x.num.natAbs x.den
    ⟨(k + 127).toNat, extra, setAt (qs.map (fun q => blockCode extra (q.scale (-k)))) nom.1 8⟩

end Sys2Proof
end

