-- ==== Sys2Proof/Syntax.lean ====
section
/-! DEFINITION. The syntax of the machine's steps: one constructor of `Instr` for each row of
spec/opcode_table.json.  171 rows are instruction words (a row ending in _IMM is the VI form of its
operation); the other 97 rows are steps of the machine around the cores, whose arguments say what
the step concerns. -/

namespace Sys2Proof

/-! ## Fields of instruction words (spec/06) -/

/-- The guard modes (spec/06 R145); mode 111 is not an instruction. -/
inductive GuardMode where
  | always | t | f | u | nt | nf | nu
  deriving DecidableEq, Repr

/-- A guard: its mode and its predicate index (spec/06 R144, R145). -/
structure Guard where
  mode : GuardMode
  p : BitVec 4
  deriving DecidableEq, Repr

/-- The fields every word shares: the guest-boundary mark `B` and the guard (spec/06 R144). -/
structure Hdr where
  b : Bool
  g : Guard
  deriving DecidableEq, Repr

/-- `TYPE` of class I (spec/06 R149). -/
inductive IntTy where
  | s32 | n32 | s64 | n64
  deriving DecidableEq, Repr

/-- `TYPE` of class B (spec/06 R149). -/
inductive BitTy where
  | b32 | b64
  deriving DecidableEq, Repr

/-- `TYPE` of class F (spec/06 R149). -/
inductive FTy where
  | f32 | f64 | f16 | bf16
  deriving DecidableEq, Repr

/-- `TYPE` of class FI (spec/06 R149). -/
inductive IvTy where
  | f32 | f64
  deriving DecidableEq, Repr

/-- `TYPE` of class H (spec/06 R149). -/
inductive HTy where
  | f16 | bf16
  deriving DecidableEq, Repr

/-- The V3 form (spec/06 R148), less `OP` and `TYPE`. -/
structure V3 where
  h : Hdr
  dst : Reg
  sa : Reg
  sb : Reg
  sc : Reg
  nega : Bool
  absa : Bool
  negb : Bool
  absb : Bool
  negc : Bool
  absc : Bool
  clamp : Bool
  scale : BitVec 3
  i : Bool
  ub : Bool
  deriving DecidableEq, Repr

/-- The VI form (spec/06 R153), less `OP` and `TYPE`. -/
structure VI where
  h : Hdr
  dst : Reg
  sa : Reg
  imm : BitVec 24
  nega : Bool
  absa : Bool
  clamp : Bool
  i : Bool
  deriving DecidableEq, Repr

/-- The address spaces (spec/05 R97, R98). -/
inductive Space where
  | global | scratch | localMem
  deriving DecidableEq, Repr

/-- The orders of an access (spec/05 R122). -/
inductive Order where
  | plain | acq | rel | acqrel
  deriving DecidableEq, Repr

/-- The scopes (spec/05 R121). -/
inductive Scope where
  | skein | gang | cluster | device | system
  deriving DecidableEq, Repr

/-- The M form (spec/06 R155), less `MOP`; for CACHE the operation in `SIZE` is the constructor. -/
structure MF where
  h : Hdr
  space : Space
  size : BitVec 3
  data : Reg
  base : Reg
  index : Reg
  off : BitVec 12
  hint : BitVec 2
  scope : Scope
  order : Order
  ua : Bool
  deriving DecidableEq, Repr

/-- The C form (spec/06 R159), less `OP`. -/
structure CF where
  h : Hdr
  ca : Reg
  cb : Reg
  off : BitVec 26
  cfl : BitVec 3
  deriving DecidableEq, Repr

/-- The X form (spec/06 R160, R161), less `OP`: registers at 44:37, 36:29 and 28:21, and bits 20:1. -/
structure XF where
  h : Hdr
  a : Reg
  b : Reg
  c : Reg
  lo : BitVec 20
  deriving DecidableEq, Repr

/-- The S form (spec/06 R163), less `OP`. -/
structure SF where
  h : Hdr
  dst : Reg
  sa : Reg
  sb : Reg
  imm : BitVec 16
  sub : BitVec 5
  deriving DecidableEq, Repr

/-- WAITC's own use of bits 20:1 (spec/06 R163, spec/09 R251). -/
structure WaitcF where
  h : Hdr
  l : BitVec 6
  s : BitVec 6
  c : BitVec 4
  t : BitVec 4
  deriving DecidableEq, Repr

/-! ## What the machine's other steps name -/

/-- The three core kinds (spec/01 R14). -/
inductive CoreKind where
  | rand | stake | handle
  deriving DecidableEq, Repr

/-- A core of a cluster: index 0 to 15 as R13 numbers them; 16 stands for the handle core. -/
structure CoreId where
  cluster : Nat
  core : Nat
  deriving DecidableEq, Repr

/-- An entry of a skein's in-flight record (spec/13 R330): the gang, the skein, and the entry's issue
number. -/
structure EntryId where
  gang : Nat
  skein : Nat
  seq : Nat
  deriving DecidableEq, Repr

/-- The fault codes (spec/19 R411). -/
inductive FaultCode where
  | illegalOp | regRange | formatDiverge | emptyInterval | align | xlate | perm | egress | roster
  | macFail | hostAtomic | qorphan | detViolation | statSlot | tlrBad | launchBad | migrateBad
  | spawnFull | watch | bkpt | trap | eccUncorr | linkDown | timeout
  deriving DecidableEq, Repr

/-- The completion of a host operation, named by its tag and slot (spec/13 R337, spec/21 R447):
status 0 successful, 1 completer abort, timeout or lost link, 2 unsupported request. -/
structure Completion where
  tag : BitVec 64
  slot : Nat
  status : Nat
  value : BitVec 128
  deriving DecidableEq, Repr

/-- A register write by the host: the writing world, the doorbell page it addresses (`none` for the
partition control block of its partition), the byte offset and the value. -/
structure RegWrite where
  by_ : Nat
  page : Option Nat
  off : Nat
  v : BitVec 64
  deriving DecidableEq, Repr

/-- What an incoming port request does (spec/14 R366, spec/15 R385). -/
inductive PortOp where
  | read | write | atomicAdd
  deriving DecidableEq, Repr

/-- A request that arrives through a Tvedton or PCIe port: the port (0 to 23 Tvedton, 24 and 25 PCIe),
the source device id, the source's `CSN`, the receiving world named in it, the physical address, and
the bytes written (or, for an atomic, its operand). -/
structure PortRequest where
  port : Nat
  source : BitVec 20
  csn : BitVec 48
  world : Nat
  op : PortOp
  addr : Nat
  bytes : List (BitVec 8)
  deriving DecidableEq, Repr

/-- The TDISP messages that move a world's interface between the states of spec/14 R363. -/
inductive TdispMsg where
  | lock | start | stop | error
  deriving DecidableEq, Repr

/-! ## The steps -/

/-- One constructor per row of spec/opcode_table.json. -/
inductive Instr where
  | iadd (ty : IntTy) (f : V3)
  | iaddImm (ty : IntTy) (f : VI)
  | isub (ty : IntTy) (f : V3)
  | isubImm (ty : IntTy) (f : VI)
  | imul (ty : IntTy) (f : V3)
  | imulImm (ty : IntTy) (f : VI)
  | imulh (ty : IntTy) (f : V3)
  | imulhImm (ty : IntTy) (f : VI)
  | imad (ty : IntTy) (f : V3)
  | imadImm (ty : IntTy) (f : VI)
  | imadw (ty : IntTy) (f : V3)
  | idiv (ty : IntTy) (f : V3)
  | idivImm (ty : IntTy) (f : VI)
  | irem (ty : IntTy) (f : V3)
  | iremImm (ty : IntTy) (f : VI)
  | imin (ty : IntTy) (f : V3)
  | iminImm (ty : IntTy) (f : VI)
  | imax (ty : IntTy) (f : V3)
  | imaxImm (ty : IntTy) (f : VI)
  | lea (ty : IntTy) (f : V3)
  | leaImm (ty : IntTy) (f : VI)
  | icmp (ty : IntTy) (f : V3)
  | icmpImm (ty : IntTy) (f : VI)
  | and (ty : BitTy) (f : V3)
  | andImm (ty : BitTy) (f : VI)
  | or (ty : BitTy) (f : V3)
  | orImm (ty : BitTy) (f : VI)
  | xor (ty : BitTy) (f : V3)
  | xorImm (ty : BitTy) (f : VI)
  | andn (ty : BitTy) (f : V3)
  | andnImm (ty : BitTy) (f : VI)
  | orn (ty : BitTy) (f : V3)
  | ornImm (ty : BitTy) (f : VI)
  | shl (ty : BitTy) (f : V3)
  | shlImm (ty : BitTy) (f : VI)
  | shr (ty : BitTy) (f : V3)
  | shrImm (ty : BitTy) (f : VI)
  | sar (ty : BitTy) (f : V3)
  | sarImm (ty : BitTy) (f : VI)
  | rotl (ty : BitTy) (f : V3)
  | rotlImm (ty : BitTy) (f : VI)
  | fshl (ty : BitTy) (f : V3)
  | bfx (ty : BitTy) (f : V3)
  | bfxImm (ty : BitTy) (f : VI)
  | bfi (ty : BitTy) (f : V3)
  | bfiImm (ty : BitTy) (f : VI)
  | popc (ty : BitTy) (f : V3)
  | clz (ty : BitTy) (f : V3)
  | ctz (ty : BitTy) (f : V3)
  | brev (ty : BitTy) (f : V3)
  | bperm (ty : BitTy) (f : V3)
  | bpermImm (ty : BitTy) (f : VI)
  | mov (ty : IntTy) (f : V3)
  | movImm (ty : IntTy) (f : VI)
  | movh (ty : IntTy) (f : VI)
  | sel3 (ty : BitTy) (f : V3)
  | fadd (ty : FTy) (f : V3)
  | faddImm (ty : FTy) (f : VI)
  | fmul (ty : FTy) (f : V3)
  | fmulImm (ty : FTy) (f : VI)
  | ffma (ty : FTy) (f : V3)
  | ffmaImm (ty : FTy) (f : VI)
  | fmin (ty : FTy) (f : V3)
  | fminImm (ty : FTy) (f : VI)
  | fmax (ty : FTy) (f : V3)
  | fmaxImm (ty : FTy) (f : VI)
  | fdiv (ty : FTy) (f : V3)
  | fdivImm (ty : FTy) (f : VI)
  | fsqrt (ty : FTy) (f : V3)
  | frcp (ty : FTy) (f : V3)
  | frsq (ty : FTy) (f : V3)
  | fex2 (ty : FTy) (f : V3)
  | flg2 (ty : FTy) (f : V3)
  | fsinp (ty : FTy) (f : V3)
  | fcosp (ty : FTy) (f : V3)
  | frnd (ty : FTy) (f : V3)
  | fscale (ty : FTy) (f : V3)
  | fscaleImm (ty : FTy) (f : VI)
  | fclass (ty : FTy) (f : V3)
  | fmant (ty : FTy) (f : V3)
  | fexpo (ty : FTy) (f : V3)
  | fcmp (ty : FTy) (f : V3)
  | fcmpImm (ty : FTy) (f : VI)
  | cvt (f : V3)
  | cvtb (f : V3)
  | pack2 (ty : HTy) (f : V3)
  | unpk (ty : HTy) (f : V3)
  | ivmk (ty : IvTy) (f : V3)
  | ivmid (ty : IvTy) (f : V3)
  | ivwid (ty : IvTy) (f : V3)
  | ivhull (ty : IvTy) (f : V3)
  | ivisect (ty : IvTy) (f : V3)
  | ivsplit (ty : IvTy) (f : V3)
  | ivmag (ty : IvTy) (f : V3)
  | ivmig (ty : IvTy) (f : V3)
  | ld (f : MF)
  | st (f : MF)
  | ldiv (f : MF)
  | stiv (f : MF)
  | atom (f : MF)
  | atomc (f : MF)
  | red (f : MF)
  | cachePref (f : MF)
  | cacheCinv (f : MF)
  | cacheCwb (f : MF)
  | bra (f : CF)
  | brx (f : CF)
  | brdec (f : CF)
  | call (f : CF)
  | callx (f : CF)
  | ret (f : CF)
  | rmark (f : CF)
  | rjoin (f : CF)
  | fnew (f : CF)
  | fend (f : CF)
  | exit (f : CF)
  | ivfork (f : CF)
  | migrate (f : CF)
  | bar (f : CF)
  | bara (f : CF)
  | barw (f : CF)
  | sbar (f : CF)
  | mma (f : XF)
  | ldstat (f : XF)
  | statrel (f : XF)
  | tzero (f : XF)
  | tcvt (f : XF)
  | tget (f : XF)
  | tstr (f : XF)
  | copy (f : XF)
  | copym (f : XF)
  | copyl (f : XF)
  | cfill (f : XF)
  | evpost (f : XF)
  | evpop (f : XF)
  | launch (f : XF)
  | nop (f : SF)
  | pand (f : SF)
  | por (f : SF)
  | pnot (f : SF)
  | pxor (f : SF)
  | pres (f : SF)
  | pmov (f : SF)
  | shfl (f : SF)
  | ballot (f : SF)
  | vote (f : SF)
  | rdx (f : SF)
  | scan (f : SF)
  | elect (f : SF)
  | fence (f : SF)
  | mwait (f : SF)
  | mtest (f : SF)
  | rwrite (f : SF)
  | arrwait (f : SF)
  | qpush (f : SF)
  | qpop (f : SF)
  | rdctr (f : SF)
  | bankcfg (f : SF)
  | gets (f : SF)
  | sets (f : SF)
  | trap (f : SF)
  | eret (f : SF)
  | bkpt (f : SF)
  | emret (f : SF)
  | yield (f : SF)
  | step (f : SF)
  | ckpt (f : SF)
  | wvload (f : SF)
  | wvbind (f : SF)
  | swapctx (f : SF)
  | waitc (f : WaitcF)
  | guestDecode
  | notAnInstruction (w : BitVec 64)
  | instructionFetchFault (code : FaultCode) (addr : BitVec 64)
  | packetUnknownType (world queue : Nat)
  | ldstatFillDone (c : CoreId)
  | multiClockResultWritten (gang skein slot : Nat)
  | loadComplete (e : EntryId) (slots : BitVec 64)
  | storePerformed (e : EntryId) (slots : BitVec 64)
  | portAccept (e : EntryId)
  | writeAck (e : EntryId)
  | tagRetire (tag : BitVec 64)
  | tileOpStart (c : CoreId)
  | tilePanelUnit (c : CoreId)
  | copyCommandStart (cluster : Nat)
  | copyBurst (cluster channel : Nat)
  | rwriteArrival (e : EntryId)
  | sbarArrival (e : EntryId)
  | monitorWake (e : EntryId) (slot : Nat)
  | monitorReread (e : EntryId) (slot : Nat)
  | migrationMove (gang : Nat)
  | queueDoorbell (world queue : Nat) (v : BitVec 64)
  | qctlWrite (world queue : Nat) (v : BitVec 64)
  | packetNop (world queue : Nat)
  | packetLaunch (world queue : Nat)
  | packetCopy (world queue : Nat)
  | packetFence (world queue : Nat)
  | packetSignal (world queue : Nat)
  | packetEvent (world queue : Nat)
  | packetHandle (world queue : Nat)
  | fenceCounterWake (world queue : Nat)
  | gridComplete (grid : Nat)
  | spanPlacement (grid span cluster : Nat) (cores : List Nat)
  | spawnRefill (gang : Nat)
  | skeinMoveIn (c : CoreId)
  | forcedRotation (c : CoreId)
  | compaction (c : CoreId)
  | relocation (grid span cluster : Nat)
  | forwardExpiry (cluster : Nat)
  | heldPostEnter (cluster world : Nat)
  | switchRequestServe (cluster : Nat)
  | cswctlGo (world : Nat) (v : BitVec 64)
  | freezePoint (ctx : Nat)
  | wfreezeGo (w : RegWrite)
  | wfreezeResume (w : RegWrite)
  | parkedCompletion (c : Completion)
  | checkpointTimer (partition : Nat)
  | checkpointCut (partition : Nat)
  | shadowCopy (partition frame : Nat)
  | drainFrame (partition : Nat) (failure : Option (BitVec 8))
  | ckptcfgWrite (w : RegWrite)
  | ckptack (w : RegWrite)
  | atsTranslationCompletion (world : Nat) (page : Nat) (frame : Nat) (rd wr : Bool)
  | pageRequestResponse (world : Nat) (page : Nat) (ok : Bool)
  | atsInvalidation (world : Nat) (first last : Nat)
  | atomicopCompletion (c : Completion)
  | hostAtomicDone (world : Nat) (v : BitVec 64)
  | completerError (e : EntryId) (slot : Nat)
  | requestTimeout (e : EntryId) (slot : Nat)
  | peerUnreachable (partition peer : Nat)
  | pcieLinkDown (port : Nat)
  | incomingPortRequest (r : PortRequest)
  | linkSessionRekey (port : Nat)
  | bounceDoorbell (world channel : Nat) (v : BitVec 64)
  | bounceResync (world channel : Nat) (v : BitVec 64)
  | bounceSlotLand (world channel : Nat)
  | xinvGo (w : RegWrite)
  | xinvComplete (partition : Nat)
  | wvhctlGo (w : RegWrite)
  | eiscfgWrite (w : RegWrite)
  | dutycfgWrite (w : RegWrite)
  | pwrlimWrite (w : RegWrite)
  | ps2Request (w : RegWrite)
  | ps0Request (w : RegWrite)
  | ps2Exit (partition : Nat)
  | ps1Entry (cluster : Nat)
  | partcfgWrite (w : RegWrite)
  | ecccntClear (w : RegWrite)
  | ctrselWrite (w : RegWrite)
  | traceClaim (cluster : Nat) (party : Option Nat)
  | traceRelease (cluster : Nat) (party : Option Nat)
  | traceSample (c : CoreId) (leaf : Nat)
  | dbggo (w : RegWrite)
  | debugScrubDone
  | tdispMessage (world : Nat) (m : TdispMsg)
  | modelKeyDelivery (world : Nat) (key : BitVec 128)
  | spdmRequest (world : Nat) (index : Nat)
  | clockRelock (die : Nat) (kind : CoreKind) (mhz : Nat)
  | coldReset
  | warmReset (scrub : Bool)
  | partitionReset (partition : Nat)
  | functionLevelReset (world : Nat)
  | pcieHotReset (port : Nat)
  | pcieD3cold
  | bootComplete (firmwareOk : Bool)
  | registerWrite (w : RegWrite)
  | linkRetrained (port : Nat)
  | portDown (port : Nat)
  deriving DecidableEq, Repr

end Sys2Proof
end

