-- ==== Sys2Proof/WellFormed.lean ====
section
/-! DEFINITION. Which terms of `Instr` are instructions: the reserved fields and field values of
spec/06 R147 to R168 and spec/20 R428 that the word alone decides.  What depends on the state (the
core kind, the feature vector, the register ranges, the slot field) is checked at issue
(spec/20 R426, stage 1).  A step that is no instruction word has no field to check. -/

namespace Sys2Proof

/-! ## The shared fields -/

/-- Guard mode 000 takes index 0 only (spec/06 R145). -/
def Guard.ok (g : Guard) : Bool :=
  match g.mode with
  | .always => g.p == 0
  | _ => true

/-- The guard of any instruction (spec/06 R145). -/
def Hdr.ok (h : Hdr) : Bool := h.g.ok

/-- The guard of a collective instruction: mode 000 only (spec/08 R208). -/
def Hdr.okAlways (h : Hdr) : Bool := h.g.mode == .always && h.g.p == 0

/-- The field names a predicate: its upper four bits are zero (spec/06 R163). -/
def isPred (r : Reg) : Bool := r.toNat < 16

/-! ## V3 and VI (spec/06 R148 to R154) -/

/-- No modifier of A is set. -/
def V3.noModA (f : V3) : Bool := !f.nega && !f.absa

/-- No modifier of B is set. -/
def V3.noModB (f : V3) : Bool := !f.negb && !f.absb

/-- No modifier of C is set. -/
def V3.noModC (f : V3) : Bool := !f.negc && !f.absc

/-- No absolute modifier is set (class I on an n type, spec/06 R150). -/
def V3.noAbs (f : V3) : Bool := !f.absa && !f.absb && !f.absc

/-- B is not read: its field, modifiers and broadcast bit are zero (spec/06 R147, R150, R152). -/
def V3.noB (f : V3) : Bool := f.sb == 0 && f.noModB && !f.ub

/-- C is not read (spec/06 R147, R150). -/
def V3.noC (f : V3) : Bool := f.sc == 0 && f.noModC

/-- `SCALE`, `CLAMP` and `I` are all zero (spec/06 R151, R152). -/
def V3.noScale (f : V3) : Bool := f.scale == 0

/-- `I` may be set with f32 and f64 only (spec/06 R152). -/
def FTy.ivOk (ty : FTy) (i : Bool) : Bool :=
  match ty with
  | .f32 | .f64 => true
  | .f16 | .bf16 => !i

/-- An s type, on which the absolute modifier exists (spec/06 R150). -/
def IntTy.signed : IntTy → Bool
  | .s32 | .s64 => true
  | .n32 | .n64 => false

/-- Class I: no scale, no `I`; absolute values on s types only (spec/06 R150 to R152). -/
def V3.okI (ty : IntTy) (f : V3) : Bool :=
  f.h.ok && f.noScale && !f.i && (ty.signed || f.noAbs)

/-- Class B and class H: no modifier, clamp, scale or `I` (spec/06 R150 to R152). -/
def V3.okB (f : V3) : Bool :=
  f.h.ok && f.noScale && !f.i && !f.clamp && f.noModA && f.noModB && f.noModC

/-- Class F with a floating result: `I` with f32 and f64 only (spec/06 R152). -/
def V3.okF (ty : FTy) (f : V3) : Bool := f.h.ok && ty.ivOk f.i

/-- Class FI: no `I`, clamp or scale (spec/06 R151, R152). -/
def V3.okFI (f : V3) : Bool := f.h.ok && f.noScale && !f.i && !f.clamp

/-- Class I in VI. -/
def VI.okI (ty : IntTy) (f : VI) : Bool := f.h.ok && !f.i && (ty.signed || !f.absa)

/-- Class B in VI. -/
def VI.okB (f : VI) : Bool := f.h.ok && !f.i && !f.clamp && !f.nega && !f.absa

/-- An f16 or bf16 immediate has bits 23:16 zero (spec/06 R153). -/
def FTy.immOk (ty : FTy) (imm : BitVec 24) : Bool :=
  match ty with
  | .f32 | .f64 => true
  | .f16 | .bf16 => imm.toNat < 65536

/-- Class F in VI. -/
def VI.okF (ty : FTy) (f : VI) : Bool := f.h.ok && ty.ivOk f.i && ty.immOk f.imm

/-- A format code that names a format and not e2m1x (CVT, spec/07 R198). -/
def cvtCodeOk (c : Nat) : Bool := c < 15 && c != 6

/-- A floating-point format code (spec/04 R72). -/
def codeIsFloat (c : Nat) : Bool := c < 6

/-- CVT (spec/07 R198): `SB` holds the two codes, `SC` the rounding override. -/
def V3.okCvt (f : V3) : Bool :=
  let src := f.sb.toNat % 16
  let dst := f.sb.toNat / 16
  f.h.ok && f.noScale && !f.i && !f.ub && cvtCodeOk src && cvtCodeOk dst && f.sc.toNat < 8 &&
    f.noModB && f.noModC && (codeIsFloat src || f.noModA) &&
    (!f.clamp || (!codeIsFloat src && !codeIsFloat dst))

/-- CVTB (spec/07 R200). -/
def V3.okCvtb (f : V3) : Bool :=
  f.h.ok && f.noScale && !f.i && !f.ub && !f.clamp && f.noModB && f.noC &&
    f.sb.toNat / 16 == 6 && f.sb.toNat % 16 < 4

/-- UNPK's element code, position and `TYPE` (spec/07 R201). -/
def unpkOk (ty : HTy) (sb : Reg) : Bool :=
  let code := sb.toNat % 16
  let pos := sb.toNat / 16
  match ty with
  | .bf16 => code == 3 && pos < 2
  | .f16 => ((code == 2 || code == 11 || code == 12) && pos < 2) || ((code == 13 || code == 14) && pos < 4)

/-- IVMK's `SC`: 0, or 1 for the .w form, which is f32 only (spec/07 R204). -/
def ivmkScOk (ty : IvTy) (sc : Reg) : Bool :=
  sc == 0 || (sc == 1 && ty == .f32)

/-! ## The M form (spec/06 R155 to R158) -/

/-- LD and LDIV: plain or acquire (spec/05 R122). -/
def Order.okLoad : Order → Bool
  | .plain | .acq => true
  | .rel | .acqrel => false

/-- ST, STIV and RED: plain or release (spec/05 R122). -/
def Order.okStore : Order → Bool
  | .plain | .rel => true
  | .acq | .acqrel => false

/-- An atomic operation and a size it lists (spec/06 R157). -/
def aopOk (aop size : Nat) : Bool :=
  match aop with
  | 0 | 1 | 2 | 3 | 4 | 5 | 6 | 11 => size == 2 || size == 3
  | 7 | 9 | 10 => size == 2
  | 8 => size == 3
  | _ => false

/-- `AOP`, bits 20:17 (spec/06 R157). -/
def MF.aop (f : MF) : Nat := f.off.toNat / 256

/-- CACHE: `DATA` and `INDEX` 0, order plain; `SIZE` names the operation (spec/06 R156, spec/05 R122). -/
def MF.okCache (op : Nat) (f : MF) : Bool :=
  f.h.ok && f.size.toNat == op && f.data == 0 && f.index == 0 && f.order == .plain

/-! ## The X form (spec/06 R160, R161); bit k of the word is bit k - 1 of `lo` -/

/-- Bits hi:lo of the word, for 20 ≥ hi ≥ lo ≥ 1. -/
def XF.bits (f : XF) (hi lo : Nat) : Nat := f.lo.toNat / 2 ^ (lo - 1) % 2 ^ (hi - lo + 1)

/-- A copy command's scope field, bits 9:7, is 1 to 5 (spec/06 R161). -/
def XF.scopeOk (f : XF) : Bool := 1 ≤ f.bits 9 7 && f.bits 9 7 ≤ 5

/-! ## The S form (spec/06 R163, R164) -/

/-- A scope code of the S form (spec/05 R121). -/
def scopeCodeOk (n : Nat) : Bool := 1 ≤ n && n ≤ 5

/-- The listed selectors of state registers (spec/03 R67). -/
def selectorOk (n : Nat) : Bool :=
  n ≤ 8 || n == 0x10 || n == 0x11 || (0x18 ≤ n && n ≤ 0x1A) || (0x20 ≤ n && n ≤ 0x2D) ||
    n == 0x30 || n == 0x31 || (0x38 ≤ n && n ≤ 0x3D)

/-- The selectors of 64-bit state registers (spec/03 R67). -/
def selector64 (n : Nat) : Bool :=
  n == 0x03 || n == 0x21 || n == 0x22 || n == 0x24 || n == 0x25 || n == 0x28 || n == 0x30 ||
    n == 0x31 || n == 0x39 || n == 0x3C || n == 0x3D

/-- The selectors that SETS may write (spec/03 R67). -/
def selectorRW (n : Nat) : Bool :=
  n == 0x18 || n == 0x19 || n == 0x1A || n == 0x24 || n == 0x25 || n == 0x38

/-- The format codes of RDX and SCAN, with the operation (spec/06 R164). -/
def rdxOk (code op : Nat) : Bool :=
  (code == 0 || code == 1 || code == 7 || code == 8 || code == 9 || code == 10) && op ≤ 5 &&
    (op < 3 || 7 ≤ code)

/-- The fields of the S form that an operation leaves unused are zero. -/
def SF.zero (dst sa sb imm sub : Bool) (f : SF) : Bool :=
  (!dst || f.dst == 0) && (!sa || f.sa == 0) && (!sb || f.sb == 0) && (!imm || f.imm == 0) && (!sub || f.sub == 0)

/-- MWAIT's and MTEST's immediate and condition (spec/06 R164, spec/09 R253). -/
def SF.okMonitor (f : SF) : Bool :=
  f.imm.toNat < 32 && scopeCodeOk (f.imm.toNat % 8) && f.sub.toNat < 6

/-- The V3 IADD class of source use: A and B. -/
def V3.readsAB (f : V3) : Bool := f.noC

/-- A alone is read. -/
def V3.readsA (f : V3) : Bool := f.noB && f.noC

/-! ## Every constructor -/

/-- The term is an instruction as far as its own fields say (spec/06 R147, spec/20 R428). -/
def Instr.wf : Instr → Bool
  | .iadd ty f => f.okI ty && f.readsAB
  | .iaddImm ty f => f.okI ty
  | .isub ty f => f.okI ty && f.readsAB
  | .isubImm ty f => f.okI ty
  | .imul ty f => f.okI ty && f.readsAB
  | .imulImm ty f => f.okI ty
  | .imulh ty f => f.okI ty && f.readsAB && !f.clamp
  | .imulhImm ty f => f.okI ty && !f.clamp
  | .imad ty f => f.okI ty
  | .imadImm ty f => f.okI ty
  | .imadw ty f => f.okI ty && (ty == .s32 || ty == .n32)
  | .idiv ty f => f.okI ty && f.readsAB
  | .idivImm ty f => f.okI ty
  | .irem ty f => f.okI ty && f.readsAB && !f.clamp
  | .iremImm ty f => f.okI ty && !f.clamp
  | .imin ty f => f.okI ty && f.readsAB && !f.clamp
  | .iminImm ty f => f.okI ty && !f.clamp
  | .imax ty f => f.okI ty && f.readsAB && !f.clamp
  | .imaxImm ty f => f.okI ty && !f.clamp
  | .lea ty f => f.okI ty && f.sc.toNat < 8 && f.noModC
  | .leaImm ty f => f.okI ty
  | .icmp ty f => f.okI ty && !f.clamp && isPred f.dst && f.sc.toNat < 6 && f.noModC
  | .icmpImm ty f => f.okI ty && !f.clamp && f.dst.toNat / 16 < 6
  | .and _ f => f.okB && f.readsAB
  | .andImm _ f => f.okB
  | .or _ f => f.okB && f.readsAB
  | .orImm _ f => f.okB
  | .xor _ f => f.okB && f.readsAB
  | .xorImm _ f => f.okB
  | .andn _ f => f.okB && f.readsAB
  | .andnImm _ f => f.okB
  | .orn _ f => f.okB && f.readsAB
  | .ornImm _ f => f.okB
  | .shl _ f => f.okB && f.readsAB
  | .shlImm _ f => f.okB
  | .shr _ f => f.okB && f.readsAB
  | .shrImm _ f => f.okB
  | .sar _ f => f.okB && f.readsAB
  | .sarImm _ f => f.okB
  | .rotl _ f => f.okB && f.readsAB
  | .rotlImm _ f => f.okB
  | .fshl _ f => f.okB
  | .bfx _ f => f.okB && f.readsAB
  | .bfxImm _ f => f.okB
  | .bfi _ f => f.okB
  | .bfiImm _ f => f.okB
  | .popc _ f => f.okB && f.readsA
  | .clz _ f => f.okB && f.readsA
  | .ctz _ f => f.okB && f.readsA
  | .brev _ f => f.okB && f.readsA
  | .bperm _ f => f.okB && f.readsAB
  | .bpermImm _ f => f.okB
  | .mov ty f => f.okI ty && f.readsA && !f.clamp
  | .movImm ty f => f.okI ty && !f.clamp && !f.nega && !f.absa && f.sa == 0
  | .movh ty f => f.okI ty && !f.clamp && !f.nega && !f.absa && f.sa == 0 && (ty == .s32 || ty == .n32)
  | .sel3 _ f => f.okB && isPred f.sc
  | .fadd ty f => f.okF ty && f.readsAB
  | .faddImm ty f => f.okF ty
  | .fmul ty f => f.okF ty && f.readsAB
  | .fmulImm ty f => f.okF ty
  | .ffma ty f => f.okF ty
  | .ffmaImm ty f => f.okF ty
  | .fmin ty f => f.okF ty && f.readsAB
  | .fminImm ty f => f.okF ty
  | .fmax ty f => f.okF ty && f.readsAB
  | .fmaxImm ty f => f.okF ty
  | .fdiv ty f => f.okF ty && f.readsAB
  | .fdivImm ty f => f.okF ty
  | .fsqrt ty f => f.okF ty && f.readsA
  | .frcp ty f => f.okF ty && f.readsA
  | .frsq ty f => f.okF ty && f.readsA
  | .fex2 ty f => f.okF ty && f.readsA
  | .flg2 ty f => f.okF ty && f.readsA
  | .fsinp ty f => f.okF ty && f.readsA
  | .fcosp ty f => f.okF ty && f.readsA
  | .frnd ty f => f.okF ty && f.readsA
  | .fscale ty f => f.okF ty && f.readsAB
  | .fscaleImm ty f => f.h.ok && ty.ivOk f.i
  | .fclass _ f => f.h.ok && f.readsA && f.noScale && !f.i && !f.clamp
  | .fmant _ f => f.h.ok && f.readsA && !f.i
  | .fexpo _ f => f.h.ok && f.readsA && f.noScale && !f.i && !f.clamp
  | .fcmp ty f => f.okF ty && !f.clamp && f.noScale && isPred f.dst && f.sc.toNat < 11 && f.noModC
  | .fcmpImm ty f => f.okF ty && !f.clamp && f.dst.toNat / 16 < 11
  | .cvt f => f.okCvt
  | .cvtb f => f.okCvtb
  | .pack2 _ f => f.okB && f.readsAB
  | .unpk ty f => f.okB && !f.ub && f.noC && unpkOk ty f.sb
  | .ivmk ty f => f.okFI && f.noModC && ivmkScOk ty f.sc
  | .ivmid _ f => f.okFI && f.readsA
  | .ivwid _ f => f.okFI && f.readsA
  | .ivhull _ f => f.okFI && f.readsAB
  | .ivisect _ f => f.okFI && f.readsAB
  | .ivsplit _ f => f.okFI && f.noC && f.noModB && !f.ub
  | .ivmag _ f => f.okFI && f.readsA
  | .ivmig _ f => f.okFI && f.readsA
  | .ld f => f.h.ok && f.size.toNat ≤ 4 && f.order.okLoad
  | .st f => f.h.ok && f.size.toNat ≤ 4 && f.order.okStore && !f.ua
  | .ldiv f => f.h.ok && 2 ≤ f.size.toNat && f.size.toNat ≤ 5 && f.order.okLoad
  | .stiv f => f.h.ok && (f.size == 3 || f.size == 4) && f.order.okStore && !f.ua
  | .atom f => f.h.ok && aopOk f.aop f.size.toNat && !f.ua
  | .atomc f => f.h.ok && (f.size == 2 || f.size == 3) && !f.ua
  | .red f => f.h.ok && aopOk f.aop f.size.toNat && f.order.okStore && !f.ua
  | .cachePref f => f.okCache 0
  | .cacheCinv f => f.okCache 1
  | .cacheCwb f => f.okCache 2
  | .bra f => f.h.ok && f.ca == 0 && f.cb == 0 && f.cfl == 0
  | .brx f => f.h.ok && f.cb == 0 && f.off == 0 && f.cfl == 0
  | .brdec f => f.h.ok && f.cb == 0 && f.cfl == 0
  | .call f => f.h.ok && f.ca == 0 && 1 ≤ f.cb.toNat && f.cb.toNat ≤ 29 && f.cfl == 0
  | .callx f => f.h.ok && 1 ≤ f.cb.toNat && f.cb.toNat ≤ 29 && f.off == 0 && f.cfl == 0
  | .ret f => f.h.ok && f.ca == 0 && f.cb == 0 && f.off == 0 && f.cfl == 0
  | .rmark f => f.h.ok && f.cb == 0 && f.cfl == 0
  | .rjoin f => f.h.ok && f.cb == 0 && f.off == 0 && f.cfl == 0
  | .fnew f => f.h.ok && f.cb == 0 && f.cfl == 0
  | .fend f => f.h.ok && f.ca == 0 && f.cb == 0 && f.off == 0 && f.cfl == 0
  | .exit f => f.h.ok && f.ca == 0 && f.cb == 0 && f.off == 0 && f.cfl == 0
  | .ivfork f => f.h.ok && isPred f.cb && f.off == 0 && f.cfl.toNat < 2
  | .migrate f => f.h.okAlways && f.cb == 0
  | .bar f => f.h.okAlways && f.ca == 0 && isPred f.cb && f.off == 0 && f.cfl == 0
  | .bara f => f.h.okAlways && f.ca == 0 && isPred f.cb && f.off == 0 && f.cfl == 0
  | .barw f => f.h.okAlways && f.ca == 0 && isPred f.cb && f.off == 0 && f.cfl == 0
  | .sbar f => f.h.okAlways && f.ca == 0 && f.cb == 0 && f.off == 0 && f.cfl == 0
  | .mma f => f.h.ok && f.bits 20 15 != 0 && f.bits 14 13 != 3
  | .ldstat f => f.h.ok && f.c == 0 && f.bits 14 10 == 0 && f.bits 5 1 == 0 && (if f.bits 9 9 == 1 then f.bits 20 15 % 4 == 3 else f.b == 0)
  | .statrel f => f.h.ok && f.a == 0 && f.b == 0 && f.c == 0 && f.bits 20 9 == 0 && f.bits 5 1 == 0
  | .tzero f => f.h.ok && f.b == 0 && f.bits 20 15 != 0 && f.bits 14 13 != 3 && f.bits 12 10 == 0 && f.bits 8 1 == 0
  | .tcvt f => f.h.ok && f.bits 20 15 != 0 && f.bits 14 13 != 3 && f.bits 12 5 == 0 && f.bits 4 2 ≤ 4 && f.bits 1 1 == 0
  | .tget f => f.h.ok && f.bits 14 13 != 3 && f.bits 12 10 == 0 && f.bits 8 6 == 0 && f.bits 1 1 == 0
  | .tstr f => f.h.ok && f.bits 14 13 != 3 && f.bits 12 10 == 0 && f.bits 8 6 == 0 && f.bits 1 1 == 0
  | .copy f => f.h.ok && f.scopeOk && f.bits 5 1 == 0
  | .copym f => f.h.ok && f.scopeOk && f.bits 6 1 == 0
  | .copyl f => f.h.ok && f.scopeOk && f.bits 4 1 == 0
  | .cfill f => f.h.ok && f.scopeOk && f.bits 6 6 == 0 && f.bits 4 1 == 0
  | .evpost f => f.h.ok && f.c == 0 && f.lo == 0
  | .evpop f => f.h.ok && f.b == 0 && f.c == 0 && f.lo == 0
  | .launch f => f.h.ok && f.b == 0 && f.c == 0 && f.lo == 0
  | .nop f => f.h.ok && f.zero true true true true true
  | .pand f => f.h.ok && isPred f.dst && isPred f.sa && isPred f.sb && f.zero false false false true true
  | .por f => f.h.ok && isPred f.dst && isPred f.sa && isPred f.sb && f.zero false false false true true
  | .pnot f => f.h.ok && isPred f.dst && isPred f.sa && f.zero false false true true true
  | .pxor f => f.h.ok && isPred f.dst && isPred f.sa && isPred f.sb && f.zero false false false true true
  | .pres f => f.h.ok && isPred f.dst && isPred f.sa && f.sub.toNat < 2 && f.zero false false true true false
  | .pmov f => f.h.ok && isPred f.dst && isPred f.sa && f.zero false false true true true
  | .shfl f => f.h.ok && f.sub.toNat < 8 && f.zero false false false true false
  | .ballot f => f.h.ok && f.imm.toNat < 3 && f.sub.toNat < 16 && f.zero false true true false false
  | .vote f => f.h.ok && isPred f.dst && f.imm.toNat < 3 && f.sub.toNat < 16 && f.zero false true true false false
  | .rdx f => f.h.ok && f.imm.toNat < 16 && f.sub.toNat < 8 && rdxOk f.imm.toNat f.sub.toNat && f.zero false false true false false
  | .scan f => f.h.ok && f.imm.toNat < 16 && f.sub.toNat < 16 && rdxOk f.imm.toNat (f.sub.toNat % 8) && f.zero false false true false false
  | .elect f => f.h.ok && isPred f.dst && f.zero false true true true true
  | .fence f => f.h.ok && scopeCodeOk f.imm.toNat && 1 ≤ f.sub.toNat && f.sub.toNat ≤ 3 && f.zero true true true false false
  | .mwait f => f.h.ok && f.okMonitor && f.zero true false false false false
  | .mtest f => f.h.ok && f.okMonitor && isPred f.dst
  | .rwrite f => f.h.ok && f.imm.toNat < 2048 && f.zero true false false false true
  | .arrwait f => f.h.ok && f.imm != 0 && f.sub.toNat < 4 && f.zero true true true false false
  | .qpush f => f.h.ok && f.imm.toNat < 64 && f.zero true false true false true
  | .qpop f => f.h.ok && f.imm.toNat < 64 && f.zero false true true false true
  | .rdctr f => f.h.ok && f.imm.toNat < 512 && f.dst.toNat % 2 == 0 && f.zero false true true false true
  | .bankcfg f => f.h.ok && f.imm.toNat < 192 && f.zero false true true false true
  | .gets f => f.h.ok && f.imm.toNat < 256 && selectorOk f.imm.toNat && (!selector64 f.imm.toNat || f.dst.toNat % 2 == 0) && f.zero false true true false true
  | .sets f => f.h.ok && f.imm.toNat < 256 && selectorRW f.imm.toNat && (!selector64 f.imm.toNat || f.sa.toNat % 2 == 0) && f.zero true false true false true
  | .trap f => f.h.ok && f.zero true true true false true
  | .eret f => f.h.ok && f.zero true true true true true
  | .bkpt f => f.h.ok && f.zero true true true false true
  | .emret f => f.h.ok && f.zero true true true false true
  | .yield f => f.h.ok && f.zero true true true true true
  | .step f => f.h.okAlways && f.zero true true true true true
  | .ckpt f => f.h.ok && f.zero true true true true true
  | .wvload f => f.h.ok && f.imm.toNat < 16 && f.zero false false true false true
  | .wvbind f => f.h.ok && f.imm.toNat < 16 && f.zero true false true false true
  | .swapctx f => f.h.ok && f.zero false false false true true
  | .waitc f => f.h.ok
  | .guestDecode => true
  | .loadComplete _ _ => true
  | .storePerformed _ _ => true
  | .portAccept _ => true
  | .writeAck _ => true
  | .tagRetire _ => true
  | .tileOpStart _ => true
  | .tilePanelUnit _ => true
  | .copyCommandStart _ => true
  | .copyBurst _ _ => true
  | .rwriteArrival _ => true
  | .sbarArrival _ => true
  | .monitorWake _ _ => true
  | .monitorReread _ _ => true
  | .migrationMove _ => true
  | .queueDoorbell _ _ _ => true
  | .qctlWrite _ _ _ => true
  | .packetNop _ _ => true
  | .packetLaunch _ _ => true
  | .packetCopy _ _ => true
  | .packetFence _ _ => true
  | .packetSignal _ _ => true
  | .packetEvent _ _ => true
  | .packetHandle _ _ => true
  | .fenceCounterWake _ _ => true
  | .gridComplete _ => true
  | .spanPlacement _ _ _ _ => true
  | .spawnRefill _ => true
  | .skeinMoveIn _ => true
  | .forcedRotation _ => true
  | .compaction _ => true
  | .relocation _ _ _ => true
  | .forwardExpiry _ => true
  | .heldPostEnter _ _ => true
  | .switchRequestServe _ => true
  | .cswctlGo _ _ => true
  | .freezePoint _ => true
  | .wfreezeGo _ => true
  | .wfreezeResume _ => true
  | .parkedCompletion _ => true
  | .checkpointTimer _ => true
  | .checkpointCut _ => true
  | .shadowCopy _ _ => true
  | .drainFrame _ _ => true
  | .ckptcfgWrite _ => true
  | .ckptack _ => true
  | .atsTranslationCompletion _ _ _ _ _ => true
  | .pageRequestResponse _ _ _ => true
  | .atsInvalidation _ _ _ => true
  | .atomicopCompletion _ => true
  | .hostAtomicDone _ _ => true
  | .completerError _ _ => true
  | .requestTimeout _ _ => true
  | .peerUnreachable _ _ => true
  | .pcieLinkDown _ => true
  | .incomingPortRequest _ => true
  | .linkSessionRekey _ => true
  | .bounceDoorbell _ _ _ => true
  | .bounceResync _ _ _ => true
  | .bounceSlotLand _ _ => true
  | .xinvGo _ => true
  | .xinvComplete _ => true
  | .wvhctlGo _ => true
  | .eiscfgWrite _ => true
  | .dutycfgWrite _ => true
  | .pwrlimWrite _ => true
  | .ps2Request _ => true
  | .ps0Request _ => true
  | .ps2Exit _ => true
  | .ps1Entry _ => true
  | .partcfgWrite _ => true
  | .ecccntClear _ => true
  | .ctrselWrite _ => true
  | .traceClaim _ _ => true
  | .traceRelease _ _ => true
  | .traceSample _ _ => true
  | .dbggo _ => true
  | .debugScrubDone => true
  | .tdispMessage _ _ => true
  | .modelKeyDelivery _ _ => true
  | .spdmRequest _ _ => true
  | .clockRelock _ _ _ => true
  | .coldReset => true
  | .warmReset _ => true
  | .partitionReset _ => true
  | .functionLevelReset _ => true
  | .pcieHotReset _ => true
  | .pcieD3cold => true
  | .bootComplete _ => true
  | .registerWrite _ => true
  | .notAnInstruction _ => true
  | .instructionFetchFault _ _ => true
  | .packetUnknownType _ _ => true
  | .ldstatFillDone _ => true
  | .multiClockResultWritten _ _ _ => true
  | .linkRetrained _ => true
  | .portDown _ => true

/-- The term is an instruction word: a row of the four instruction chapters. -/
def Instr.isWord : Instr → Bool
  | .iadd _ _ => true
  | .iaddImm _ _ => true
  | .isub _ _ => true
  | .isubImm _ _ => true
  | .imul _ _ => true
  | .imulImm _ _ => true
  | .imulh _ _ => true
  | .imulhImm _ _ => true
  | .imad _ _ => true
  | .imadImm _ _ => true
  | .imadw _ _ => true
  | .idiv _ _ => true
  | .idivImm _ _ => true
  | .irem _ _ => true
  | .iremImm _ _ => true
  | .imin _ _ => true
  | .iminImm _ _ => true
  | .imax _ _ => true
  | .imaxImm _ _ => true
  | .lea _ _ => true
  | .leaImm _ _ => true
  | .icmp _ _ => true
  | .icmpImm _ _ => true
  | .and _ _ => true
  | .andImm _ _ => true
  | .or _ _ => true
  | .orImm _ _ => true
  | .xor _ _ => true
  | .xorImm _ _ => true
  | .andn _ _ => true
  | .andnImm _ _ => true
  | .orn _ _ => true
  | .ornImm _ _ => true
  | .shl _ _ => true
  | .shlImm _ _ => true
  | .shr _ _ => true
  | .shrImm _ _ => true
  | .sar _ _ => true
  | .sarImm _ _ => true
  | .rotl _ _ => true
  | .rotlImm _ _ => true
  | .fshl _ _ => true
  | .bfx _ _ => true
  | .bfxImm _ _ => true
  | .bfi _ _ => true
  | .bfiImm _ _ => true
  | .popc _ _ => true
  | .clz _ _ => true
  | .ctz _ _ => true
  | .brev _ _ => true
  | .bperm _ _ => true
  | .bpermImm _ _ => true
  | .mov _ _ => true
  | .movImm _ _ => true
  | .movh _ _ => true
  | .sel3 _ _ => true
  | .fadd _ _ => true
  | .faddImm _ _ => true
  | .fmul _ _ => true
  | .fmulImm _ _ => true
  | .ffma _ _ => true
  | .ffmaImm _ _ => true
  | .fmin _ _ => true
  | .fminImm _ _ => true
  | .fmax _ _ => true
  | .fmaxImm _ _ => true
  | .fdiv _ _ => true
  | .fdivImm _ _ => true
  | .fsqrt _ _ => true
  | .frcp _ _ => true
  | .frsq _ _ => true
  | .fex2 _ _ => true
  | .flg2 _ _ => true
  | .fsinp _ _ => true
  | .fcosp _ _ => true
  | .frnd _ _ => true
  | .fscale _ _ => true
  | .fscaleImm _ _ => true
  | .fclass _ _ => true
  | .fmant _ _ => true
  | .fexpo _ _ => true
  | .fcmp _ _ => true
  | .fcmpImm _ _ => true
  | .cvt _ => true
  | .cvtb _ => true
  | .pack2 _ _ => true
  | .unpk _ _ => true
  | .ivmk _ _ => true
  | .ivmid _ _ => true
  | .ivwid _ _ => true
  | .ivhull _ _ => true
  | .ivisect _ _ => true
  | .ivsplit _ _ => true
  | .ivmag _ _ => true
  | .ivmig _ _ => true
  | .ld _ => true
  | .st _ => true
  | .ldiv _ => true
  | .stiv _ => true
  | .atom _ => true
  | .atomc _ => true
  | .red _ => true
  | .cachePref _ => true
  | .cacheCinv _ => true
  | .cacheCwb _ => true
  | .bra _ => true
  | .brx _ => true
  | .brdec _ => true
  | .call _ => true
  | .callx _ => true
  | .ret _ => true
  | .rmark _ => true
  | .rjoin _ => true
  | .fnew _ => true
  | .fend _ => true
  | .exit _ => true
  | .ivfork _ => true
  | .migrate _ => true
  | .bar _ => true
  | .bara _ => true
  | .barw _ => true
  | .sbar _ => true
  | .mma _ => true
  | .ldstat _ => true
  | .statrel _ => true
  | .tzero _ => true
  | .tcvt _ => true
  | .tget _ => true
  | .tstr _ => true
  | .copy _ => true
  | .copym _ => true
  | .copyl _ => true
  | .cfill _ => true
  | .evpost _ => true
  | .evpop _ => true
  | .launch _ => true
  | .nop _ => true
  | .pand _ => true
  | .por _ => true
  | .pnot _ => true
  | .pxor _ => true
  | .pres _ => true
  | .pmov _ => true
  | .shfl _ => true
  | .ballot _ => true
  | .vote _ => true
  | .rdx _ => true
  | .scan _ => true
  | .elect _ => true
  | .fence _ => true
  | .mwait _ => true
  | .mtest _ => true
  | .rwrite _ => true
  | .arrwait _ => true
  | .qpush _ => true
  | .qpop _ => true
  | .rdctr _ => true
  | .bankcfg _ => true
  | .gets _ => true
  | .sets _ => true
  | .trap _ => true
  | .eret _ => true
  | .bkpt _ => true
  | .emret _ => true
  | .yield _ => true
  | .step _ => true
  | .ckpt _ => true
  | .wvload _ => true
  | .wvbind _ => true
  | .swapctx _ => true
  | .waitc _ => true
  | .guestDecode => false
  | .loadComplete _ _ => false
  | .storePerformed _ _ => false
  | .portAccept _ => false
  | .writeAck _ => false
  | .tagRetire _ => false
  | .tileOpStart _ => false
  | .tilePanelUnit _ => false
  | .copyCommandStart _ => false
  | .copyBurst _ _ => false
  | .rwriteArrival _ => false
  | .sbarArrival _ => false
  | .monitorWake _ _ => false
  | .monitorReread _ _ => false
  | .migrationMove _ => false
  | .queueDoorbell _ _ _ => false
  | .qctlWrite _ _ _ => false
  | .packetNop _ _ => false
  | .packetLaunch _ _ => false
  | .packetCopy _ _ => false
  | .packetFence _ _ => false
  | .packetSignal _ _ => false
  | .packetEvent _ _ => false
  | .packetHandle _ _ => false
  | .fenceCounterWake _ _ => false
  | .gridComplete _ => false
  | .spanPlacement _ _ _ _ => false
  | .spawnRefill _ => false
  | .skeinMoveIn _ => false
  | .forcedRotation _ => false
  | .compaction _ => false
  | .relocation _ _ _ => false
  | .forwardExpiry _ => false
  | .heldPostEnter _ _ => false
  | .switchRequestServe _ => false
  | .cswctlGo _ _ => false
  | .freezePoint _ => false
  | .wfreezeGo _ => false
  | .wfreezeResume _ => false
  | .parkedCompletion _ => false
  | .checkpointTimer _ => false
  | .checkpointCut _ => false
  | .shadowCopy _ _ => false
  | .drainFrame _ _ => false
  | .ckptcfgWrite _ => false
  | .ckptack _ => false
  | .atsTranslationCompletion _ _ _ _ _ => false
  | .pageRequestResponse _ _ _ => false
  | .atsInvalidation _ _ _ => false
  | .atomicopCompletion _ => false
  | .hostAtomicDone _ _ => false
  | .completerError _ _ => false
  | .requestTimeout _ _ => false
  | .peerUnreachable _ _ => false
  | .pcieLinkDown _ => false
  | .incomingPortRequest _ => false
  | .linkSessionRekey _ => false
  | .bounceDoorbell _ _ _ => false
  | .bounceResync _ _ _ => false
  | .bounceSlotLand _ _ => false
  | .xinvGo _ => false
  | .xinvComplete _ => false
  | .wvhctlGo _ => false
  | .eiscfgWrite _ => false
  | .dutycfgWrite _ => false
  | .pwrlimWrite _ => false
  | .ps2Request _ => false
  | .ps0Request _ => false
  | .ps2Exit _ => false
  | .ps1Entry _ => false
  | .partcfgWrite _ => false
  | .ecccntClear _ => false
  | .ctrselWrite _ => false
  | .traceClaim _ _ => false
  | .traceRelease _ _ => false
  | .traceSample _ _ => false
  | .dbggo _ => false
  | .debugScrubDone => false
  | .tdispMessage _ _ => false
  | .modelKeyDelivery _ _ => false
  | .spdmRequest _ _ => false
  | .clockRelock _ _ _ => false
  | .coldReset => false
  | .warmReset _ => false
  | .partitionReset _ => false
  | .functionLevelReset _ => false
  | .pcieHotReset _ => false
  | .pcieD3cold => false
  | .bootComplete _ => false
  | .registerWrite _ => false
  | .notAnInstruction _ => false
  | .instructionFetchFault _ _ => false
  | .packetUnknownType _ _ => false
  | .ldstatFillDone _ => false
  | .multiClockResultWritten _ _ _ => false
  | .linkRetrained _ => false
  | .portDown _ => false

end Sys2Proof
end

