-- ==== Sys2Proof/Decode.lean ====
section
/-! DEFINITION. The decoder, total on every 64-bit word and rejecting by name, and after it the
encoder, both written from the field tables of spec/06. -/

namespace Sys2Proof

/-- Why a word is not an instruction, in the order of the checks (spec/06 R147). -/
inductive DecodeError where
  /-- `FORM` 110 or 111. -/
  | form
  /-- The operation field names no operation, or `TYPE` lies outside its class. -/
  | operation
  /-- Guard mode 111. -/
  | guard
  /-- A reserved bit, field or field value (and guard mode 000 with a non-zero index). -/
  | reserved
  /-- Fewer than eight bytes. -/
  | short
  deriving DecidableEq, Repr

/-! ## Codes of the small types -/

/-- Guard mode codes (spec/06 R145). -/
def GuardMode.code : GuardMode → Nat
  | .always => 0 | .t => 1 | .f => 2 | .u => 3 | .nt => 4 | .nf => 5 | .nu => 6

/-- The guard mode of a code; 111 has none (spec/06 R145). -/
def GuardMode.ofCode : Nat → Option GuardMode
  | 0 => some .always | 1 => some .t | 2 => some .f | 3 => some .u | 4 => some .nt | 5 => some .nf
  | 6 => some .nu | _ => none

/-- Class I (spec/06 R149). -/
def IntTy.code : IntTy → Nat
  | .s32 => 0 | .n32 => 1 | .s64 => 2 | .n64 => 3

/-- Class I (spec/06 R149). -/
def IntTy.ofCode : Nat → Option IntTy
  | 0 => some .s32 | 1 => some .n32 | 2 => some .s64 | 3 => some .n64 | _ => none

/-- Class B (spec/06 R149). -/
def BitTy.code : BitTy → Nat
  | .b32 => 0 | .b64 => 1

/-- Class B (spec/06 R149). -/
def BitTy.ofCode : Nat → Option BitTy
  | 0 => some .b32 | 1 => some .b64 | _ => none

/-- Class F (spec/06 R149). -/
def FTy.code : FTy → Nat
  | .f32 => 0 | .f64 => 1 | .f16 => 2 | .bf16 => 3

/-- Class F (spec/06 R149). -/
def FTy.ofCode : Nat → Option FTy
  | 0 => some .f32 | 1 => some .f64 | 2 => some .f16 | 3 => some .bf16 | _ => none

/-- Class FI (spec/06 R149). -/
def IvTy.code : IvTy → Nat
  | .f32 => 0 | .f64 => 1

/-- Class FI (spec/06 R149). -/
def IvTy.ofCode : Nat → Option IvTy
  | 0 => some .f32 | 1 => some .f64 | _ => none

/-- Class H (spec/06 R149). -/
def HTy.code : HTy → Nat
  | .f16 => 2 | .bf16 => 3

/-- Class H (spec/06 R149). -/
def HTy.ofCode : Nat → Option HTy
  | 2 => some .f16 | 3 => some .bf16 | _ => none

/-- Spaces (spec/06 R155). -/
def Space.code : Space → Nat
  | .global => 0 | .scratch => 1 | .localMem => 2

/-- Spaces; 11 is not an instruction (spec/06 R155). -/
def Space.ofCode : Nat → Option Space
  | 0 => some .global | 1 => some .scratch | 2 => some .localMem | _ => none

/-- Orders (spec/06 R155). -/
def Order.code : Order → Nat
  | .plain => 0 | .acq => 1 | .rel => 2 | .acqrel => 3

/-- Orders (spec/06 R155). -/
def Order.ofCode : Nat → Option Order
  | 0 => some .plain | 1 => some .acq | 2 => some .rel | 3 => some .acqrel | _ => none

/-- Scopes (spec/05 R121). -/
def Scope.code : Scope → Nat
  | .skein => 1 | .gang => 2 | .cluster => 3 | .device => 4 | .system => 5

/-- Scopes; 0, 6 and 7 are not instructions (spec/05 R121). -/
def Scope.ofCode : Nat → Option Scope
  | 1 => some .skein | 2 => some .gang | 3 => some .cluster | 4 => some .device | 5 => some .system
  | _ => none

/-! ## Field widths of the forms, bit 0 first -/

/-- spec/06 R148. -/
def v3Widths : List Nat := [1, 1, 1, 3, 1, 1, 1, 1, 1, 1, 1, 8, 8, 8, 8, 4, 3, 2, 6, 3, 1]

/-- spec/06 R153. -/
def viWidths : List Nat := [1, 1, 1, 1, 1, 24, 8, 8, 4, 3, 2, 6, 3, 1]

/-- spec/06 R155. -/
def mWidths : List Nat := [1, 1, 2, 3, 2, 12, 8, 8, 8, 4, 3, 3, 2, 3, 3, 1]

/-- spec/06 R159. -/
def cWidths : List Nat := [3, 26, 8, 8, 4, 3, 8, 3, 1]

/-- spec/06 R160, R161. -/
def xWidths : List Nat := [1, 20, 8, 8, 8, 4, 3, 8, 3, 1]

/-- spec/06 R163. -/
def sWidths : List Nat := [5, 16, 8, 8, 8, 4, 3, 8, 3, 1]

/-- WAITC (spec/06 R163). -/
def waitcWidths : List Nat := [1, 4, 4, 6, 6, 8, 8, 8, 4, 3, 8, 3, 1]

/-- A one-bit field. -/
def bitField (n : Nat) : Bool := n == 1

/-! ## The operation maps (spec/06 R165 to R168) -/

/-- The V3 operations. -/
def buildV3 (op ty : Nat) (f : V3) : Option Instr :=
  match op with
  | 0 => (IntTy.ofCode ty).map (fun t => .iadd t f)
  | 1 => (IntTy.ofCode ty).map (fun t => .isub t f)
  | 2 => (IntTy.ofCode ty).map (fun t => .imul t f)
  | 3 => (IntTy.ofCode ty).map (fun t => .imulh t f)
  | 4 => (IntTy.ofCode ty).map (fun t => .imad t f)
  | 5 => (IntTy.ofCode ty).map (fun t => .imadw t f)
  | 6 => (IntTy.ofCode ty).map (fun t => .idiv t f)
  | 7 => (IntTy.ofCode ty).map (fun t => .irem t f)
  | 8 => (IntTy.ofCode ty).map (fun t => .imin t f)
  | 9 => (IntTy.ofCode ty).map (fun t => .imax t f)
  | 10 => (IntTy.ofCode ty).map (fun t => .lea t f)
  | 11 => (IntTy.ofCode ty).map (fun t => .icmp t f)
  | 12 => (BitTy.ofCode ty).map (fun t => .and t f)
  | 13 => (BitTy.ofCode ty).map (fun t => .or t f)
  | 14 => (BitTy.ofCode ty).map (fun t => .xor t f)
  | 15 => (BitTy.ofCode ty).map (fun t => .andn t f)
  | 16 => (BitTy.ofCode ty).map (fun t => .orn t f)
  | 17 => (BitTy.ofCode ty).map (fun t => .shl t f)
  | 18 => (BitTy.ofCode ty).map (fun t => .shr t f)
  | 19 => (BitTy.ofCode ty).map (fun t => .sar t f)
  | 20 => (BitTy.ofCode ty).map (fun t => .rotl t f)
  | 21 => (BitTy.ofCode ty).map (fun t => .fshl t f)
  | 22 => (BitTy.ofCode ty).map (fun t => .bfx t f)
  | 23 => (BitTy.ofCode ty).map (fun t => .bfi t f)
  | 24 => (BitTy.ofCode ty).map (fun t => .popc t f)
  | 25 => (BitTy.ofCode ty).map (fun t => .clz t f)
  | 26 => (BitTy.ofCode ty).map (fun t => .ctz t f)
  | 27 => (BitTy.ofCode ty).map (fun t => .brev t f)
  | 28 => (BitTy.ofCode ty).map (fun t => .bperm t f)
  | 29 => (IntTy.ofCode ty).map (fun t => .mov t f)
  | 31 => (BitTy.ofCode ty).map (fun t => .sel3 t f)
  | 32 => (FTy.ofCode ty).map (fun t => .fadd t f)
  | 33 => (FTy.ofCode ty).map (fun t => .fmul t f)
  | 34 => (FTy.ofCode ty).map (fun t => .ffma t f)
  | 35 => (FTy.ofCode ty).map (fun t => .fmin t f)
  | 36 => (FTy.ofCode ty).map (fun t => .fmax t f)
  | 37 => (FTy.ofCode ty).map (fun t => .fdiv t f)
  | 38 => (FTy.ofCode ty).map (fun t => .fsqrt t f)
  | 39 => (FTy.ofCode ty).map (fun t => .frcp t f)
  | 40 => (FTy.ofCode ty).map (fun t => .frsq t f)
  | 41 => (FTy.ofCode ty).map (fun t => .fex2 t f)
  | 42 => (FTy.ofCode ty).map (fun t => .flg2 t f)
  | 43 => (FTy.ofCode ty).map (fun t => .fsinp t f)
  | 44 => (FTy.ofCode ty).map (fun t => .fcosp t f)
  | 45 => (FTy.ofCode ty).map (fun t => .frnd t f)
  | 46 => (FTy.ofCode ty).map (fun t => .fscale t f)
  | 47 => (FTy.ofCode ty).map (fun t => .fclass t f)
  | 48 => (FTy.ofCode ty).map (fun t => .fmant t f)
  | 49 => (FTy.ofCode ty).map (fun t => .fexpo t f)
  | 50 => (FTy.ofCode ty).map (fun t => .fcmp t f)
  | 51 => if ty = 0 then some (.cvt f) else none
  | 52 => if ty = 0 then some (.cvtb f) else none
  | 53 => (HTy.ofCode ty).map (fun t => .pack2 t f)
  | 54 => (HTy.ofCode ty).map (fun t => .unpk t f)
  | 55 => (IvTy.ofCode ty).map (fun t => .ivmk t f)
  | 56 => (IvTy.ofCode ty).map (fun t => .ivmid t f)
  | 57 => (IvTy.ofCode ty).map (fun t => .ivwid t f)
  | 58 => (IvTy.ofCode ty).map (fun t => .ivhull t f)
  | 59 => (IvTy.ofCode ty).map (fun t => .ivisect t f)
  | 60 => (IvTy.ofCode ty).map (fun t => .ivsplit t f)
  | 61 => (IvTy.ofCode ty).map (fun t => .ivmag t f)
  | 62 => (IvTy.ofCode ty).map (fun t => .ivmig t f)
  | _ => none

/-- The VI operations. -/
def buildVI (op ty : Nat) (f : VI) : Option Instr :=
  match op with
  | 0 => (IntTy.ofCode ty).map (fun t => .iaddImm t f)
  | 1 => (IntTy.ofCode ty).map (fun t => .isubImm t f)
  | 2 => (IntTy.ofCode ty).map (fun t => .imulImm t f)
  | 3 => (IntTy.ofCode ty).map (fun t => .imulhImm t f)
  | 4 => (IntTy.ofCode ty).map (fun t => .imadImm t f)
  | 6 => (IntTy.ofCode ty).map (fun t => .idivImm t f)
  | 7 => (IntTy.ofCode ty).map (fun t => .iremImm t f)
  | 8 => (IntTy.ofCode ty).map (fun t => .iminImm t f)
  | 9 => (IntTy.ofCode ty).map (fun t => .imaxImm t f)
  | 10 => (IntTy.ofCode ty).map (fun t => .leaImm t f)
  | 11 => (IntTy.ofCode ty).map (fun t => .icmpImm t f)
  | 12 => (BitTy.ofCode ty).map (fun t => .andImm t f)
  | 13 => (BitTy.ofCode ty).map (fun t => .orImm t f)
  | 14 => (BitTy.ofCode ty).map (fun t => .xorImm t f)
  | 15 => (BitTy.ofCode ty).map (fun t => .andnImm t f)
  | 16 => (BitTy.ofCode ty).map (fun t => .ornImm t f)
  | 17 => (BitTy.ofCode ty).map (fun t => .shlImm t f)
  | 18 => (BitTy.ofCode ty).map (fun t => .shrImm t f)
  | 19 => (BitTy.ofCode ty).map (fun t => .sarImm t f)
  | 20 => (BitTy.ofCode ty).map (fun t => .rotlImm t f)
  | 22 => (BitTy.ofCode ty).map (fun t => .bfxImm t f)
  | 23 => (BitTy.ofCode ty).map (fun t => .bfiImm t f)
  | 28 => (BitTy.ofCode ty).map (fun t => .bpermImm t f)
  | 29 => (IntTy.ofCode ty).map (fun t => .movImm t f)
  | 30 => (IntTy.ofCode ty).map (fun t => .movh t f)
  | 32 => (FTy.ofCode ty).map (fun t => .faddImm t f)
  | 33 => (FTy.ofCode ty).map (fun t => .fmulImm t f)
  | 34 => (FTy.ofCode ty).map (fun t => .ffmaImm t f)
  | 35 => (FTy.ofCode ty).map (fun t => .fminImm t f)
  | 36 => (FTy.ofCode ty).map (fun t => .fmaxImm t f)
  | 37 => (FTy.ofCode ty).map (fun t => .fdivImm t f)
  | 46 => (FTy.ofCode ty).map (fun t => .fscaleImm t f)
  | 50 => (FTy.ofCode ty).map (fun t => .fcmpImm t f)
  | _ => none

/-- The M operations; `MOP` 111 takes its operation from `SIZE`. -/
def buildM (op : Nat) (f : MF) : Option Instr :=
  match op with
  | 0 => some (.ld f)
  | 1 => some (.st f)
  | 2 => some (.ldiv f)
  | 3 => some (.stiv f)
  | 4 => some (.atom f)
  | 5 => some (.atomc f)
  | 6 => some (.red f)
  | 7 =>
    match f.size.toNat with
    | 0 => some (.cachePref f)
    | 1 => some (.cacheCinv f)
    | 2 => some (.cacheCwb f)
    | _ => none
  | _ => none

/-- The C operations. -/
def buildC (op : Nat) (f : CF) : Option Instr :=
  match op with
  | 0 => some (.bra f)
  | 1 => some (.brx f)
  | 2 => some (.brdec f)
  | 3 => some (.call f)
  | 4 => some (.callx f)
  | 5 => some (.ret f)
  | 6 => some (.rmark f)
  | 7 => some (.rjoin f)
  | 8 => some (.fnew f)
  | 9 => some (.fend f)
  | 10 => some (.exit f)
  | 11 => some (.ivfork f)
  | 12 => some (.migrate f)
  | 13 => some (.bar f)
  | 14 => some (.bara f)
  | 15 => some (.barw f)
  | 16 => some (.sbar f)
  | _ => none

/-- The X operations. -/
def buildX (op : Nat) (f : XF) : Option Instr :=
  match op with
  | 0 => some (.mma f)
  | 1 => some (.ldstat f)
  | 2 => some (.statrel f)
  | 3 => some (.tzero f)
  | 4 => some (.tcvt f)
  | 5 => some (.tget f)
  | 6 => some (.tstr f)
  | 8 => some (.copy f)
  | 9 => some (.copym f)
  | 10 => some (.copyl f)
  | 11 => some (.cfill f)
  | 12 => some (.evpost f)
  | 13 => some (.evpop f)
  | 14 => some (.launch f)
  | _ => none

/-- The S operations. -/
def buildS (op : Nat) (f : SF) : Option Instr :=
  match op with
  | 0 => some (.nop f)
  | 1 => some (.pand f)
  | 2 => some (.por f)
  | 3 => some (.pnot f)
  | 4 => some (.pxor f)
  | 5 => some (.pres f)
  | 6 => some (.pmov f)
  | 16 => some (.shfl f)
  | 17 => some (.ballot f)
  | 18 => some (.vote f)
  | 19 => some (.rdx f)
  | 20 => some (.scan f)
  | 21 => some (.elect f)
  | 32 => some (.fence f)
  | 33 => some (.mwait f)
  | 34 => some (.mtest f)
  | 35 => some (.rwrite f)
  | 36 => some (.arrwait f)
  | 37 => some (.qpush f)
  | 38 => some (.qpop f)
  | 40 => some (.rdctr f)
  | 41 => some (.bankcfg f)
  | 48 => some (.gets f)
  | 49 => some (.sets f)
  | 50 => some (.trap f)
  | 51 => some (.eret f)
  | 52 => some (.bkpt f)
  | 53 => some (.emret f)
  | 54 => some (.yield f)
  | 55 => some (.step f)
  | 56 => some (.ckpt f)
  | 57 => some (.wvload f)
  | 58 => some (.wvbind f)
  | 59 => some (.swapctx f)
  | _ => none

/-! ## The decoder -/

/-- The header of a word; none for guard mode 111. -/
def mkHdr (b gm gp : Nat) : Option Hdr :=
  (GuardMode.ofCode gm).map (fun m => { b := bitField b, g := { mode := m, p := BitVec.ofNat 4 gp } })

/-- The last checks: the operation exists, and the reserved fields and values are as they must be. -/
def finish (i : Option Instr) (rest : Nat) : Except DecodeError Instr :=
  match i with
  | none => .error .operation
  | some i => if rest = 0 ∧ i.wf = true then .ok i else .error .reserved

/-- A word of the V3 form. -/
def decodeV3 (n : Nat) : Except DecodeError Instr :=
  match unpackFields v3Widths n with
  | [z, ub, i, sc, cl, ac, nc, ab, nb, aa, na, c, b, a, d, gp, gm, ty, op, _, bb] =>
    match mkHdr bb gm gp with
    | none => .error .guard
    | some h =>
      finish (buildV3 op ty
        { h := h, dst := BitVec.ofNat 8 d, sa := BitVec.ofNat 8 a, sb := BitVec.ofNat 8 b,
          sc := BitVec.ofNat 8 c, nega := bitField na, absa := bitField aa, negb := bitField nb,
          absb := bitField ab, negc := bitField nc, absc := bitField ac, clamp := bitField cl,
          scale := BitVec.ofNat 3 sc, i := bitField i, ub := bitField ub }) z
  | _ => .error .short

/-- A word of the VI form. -/
def decodeVI (n : Nat) : Except DecodeError Instr :=
  match unpackFields viWidths n with
  | [z, i, cl, aa, na, imm, a, d, gp, gm, ty, op, _, bb] =>
    match mkHdr bb gm gp with
    | none => .error .guard
    | some h =>
      finish (buildVI op ty
        { h := h, dst := BitVec.ofNat 8 d, sa := BitVec.ofNat 8 a, imm := BitVec.ofNat 24 imm,
          nega := bitField na, absa := bitField aa, clamp := bitField cl, i := bitField i }) z
  | _ => .error .short

/-- A word of the M form. -/
def decodeM (n : Nat) : Except DecodeError Instr :=
  match unpackFields mWidths n with
  | [z, ua, ord, scope, hint, off, idx, base, data, gp, gm, size, space, mop, _, bb] =>
    match mkHdr bb gm gp with
    | none => .error .guard
    | some h =>
      match Space.ofCode space, Scope.ofCode scope, Order.ofCode ord with
      | some sp, some sc, some o =>
        finish (buildM mop
          { h := h, space := sp, size := BitVec.ofNat 3 size, data := BitVec.ofNat 8 data,
            base := BitVec.ofNat 8 base, index := BitVec.ofNat 8 idx, off := BitVec.ofNat 12 off,
            hint := BitVec.ofNat 2 hint, scope := sc, order := o, ua := bitField ua }) z
      | _, _, _ => .error .reserved
  | _ => .error .short

/-- A word of the C form. -/
def decodeC (n : Nat) : Except DecodeError Instr :=
  match unpackFields cWidths n with
  | [cfl, off, cb, ca, gp, gm, op, _, bb] =>
    match mkHdr bb gm gp with
    | none => .error .guard
    | some h =>
      finish (buildC op
        { h := h, ca := BitVec.ofNat 8 ca, cb := BitVec.ofNat 8 cb, off := BitVec.ofNat 26 off,
          cfl := BitVec.ofNat 3 cfl }) 0
  | _ => .error .short

/-- A word of the X form. -/
def decodeX (n : Nat) : Except DecodeError Instr :=
  match unpackFields xWidths n with
  | [z, lo, c, b, a, gp, gm, op, _, bb] =>
    match mkHdr bb gm gp with
    | none => .error .guard
    | some h =>
      finish (buildX op
        { h := h, a := BitVec.ofNat 8 a, b := BitVec.ofNat 8 b, c := BitVec.ofNat 8 c,
          lo := BitVec.ofNat 20 lo }) z
  | _ => .error .short

/-- A WAITC word: every bit outside its four limits is zero (spec/09 R251). -/
def decodeWaitc (n : Nat) : Except DecodeError Instr :=
  match unpackFields waitcWidths n with
  | [z, t, c, s, l, sb, sa, dst, gp, gm, _, _, bb] =>
    match mkHdr bb gm gp with
    | none => .error .guard
    | some h =>
      finish (some (.waitc
        { h := h, l := BitVec.ofNat 6 l, s := BitVec.ofNat 6 s,
          c := BitVec.ofNat 4 c, t := BitVec.ofNat 4 t })) (z + sb + sa + dst)
  | _ => .error .short

/-- A word of the S form other than WAITC. -/
def decodeS (n : Nat) : Except DecodeError Instr :=
  match unpackFields sWidths n with
  | [sub, imm, sb, sa, dst, gp, gm, op, _, bb] =>
    match mkHdr bb gm gp with
    | none => .error .guard
    | some h =>
      finish (buildS op
        { h := h, dst := BitVec.ofNat 8 dst, sa := BitVec.ofNat 8 sa, sb := BitVec.ofNat 8 sb,
          imm := BitVec.ofNat 16 imm, sub := BitVec.ofNat 5 sub }) 0
  | _ => .error .short

/-- The decoder (spec/06 R144, R147). -/
def decode (w : W64) : Except DecodeError Instr :=
  let n := w.toNat
  match bitsOf n 62 60 with
  | 0 => decodeV3 n
  | 1 => decodeVI n
  | 2 => decodeM n
  | 3 => decodeC n
  | 4 => decodeX n
  | 5 => if bitsOf n 59 52 = 0x27 then decodeWaitc n else decodeS n
  | _ => .error .form

/-- The decoder on bytes in memory order: the first eight are the word (spec/00 R4). -/
def decodeBytes (bs : List Byte) : Except DecodeError Instr :=
  if bs.length < 8 then .error .short else decode (BitVec.ofNat 64 (ofBytes (bs.take 8)))

/-- The instruction the decoder reads from a word laid out as the hardware stores it; nothing for a
number that is no 64-bit word. -/
def decodeTableWord (_nbits w : Nat) : Option Instr :=
  if w < 2 ^ 64 then
    match decodeBytes (bytesOf 8 w) with
    | .ok i => some i
    | .error _ => none
  else none

/-! ## The encoder -/

/-- The header's fields from bit 45: index, mode (spec/06 R144). -/
def Hdr.gp (h : Hdr) : Nat := h.g.p.toNat

/-- The guard mode's code. -/
def Hdr.gm (h : Hdr) : Nat := h.g.mode.code

/-- A V3 word (spec/06 R148). -/
def V3.word (op ty : Nat) (f : V3) : W64 :=
  BitVec.ofNat 64 (packFields [(1, 0), (1, boolNat f.ub), (1, boolNat f.i), (3, f.scale.toNat),
    (1, boolNat f.clamp), (1, boolNat f.absc), (1, boolNat f.negc), (1, boolNat f.absb),
    (1, boolNat f.negb), (1, boolNat f.absa), (1, boolNat f.nega), (8, f.sc.toNat), (8, f.sb.toNat),
    (8, f.sa.toNat), (8, f.dst.toNat), (4, f.h.gp), (3, f.h.gm), (2, ty), (6, op), (3, 0),
    (1, boolNat f.h.b)])

/-- A VI word (spec/06 R153). -/
def VI.word (op ty : Nat) (f : VI) : W64 :=
  BitVec.ofNat 64 (packFields [(1, 0), (1, boolNat f.i), (1, boolNat f.clamp), (1, boolNat f.absa),
    (1, boolNat f.nega), (24, f.imm.toNat), (8, f.sa.toNat), (8, f.dst.toNat), (4, f.h.gp),
    (3, f.h.gm), (2, ty), (6, op), (3, 1), (1, boolNat f.h.b)])

/-- An M word (spec/06 R155). -/
def MF.word (mop : Nat) (f : MF) : W64 :=
  BitVec.ofNat 64 (packFields [(1, 0), (1, boolNat f.ua), (2, f.order.code), (3, f.scope.code),
    (2, f.hint.toNat), (12, f.off.toNat), (8, f.index.toNat), (8, f.base.toNat), (8, f.data.toNat),
    (4, f.h.gp), (3, f.h.gm), (3, f.size.toNat), (2, f.space.code), (3, mop), (3, 2),
    (1, boolNat f.h.b)])

/-- A C word (spec/06 R159). -/
def CF.word (op : Nat) (f : CF) : W64 :=
  BitVec.ofNat 64 (packFields [(3, f.cfl.toNat), (26, f.off.toNat), (8, f.cb.toNat), (8, f.ca.toNat),
    (4, f.h.gp), (3, f.h.gm), (8, op), (3, 3), (1, boolNat f.h.b)])

/-- An X word (spec/06 R160, R161). -/
def XF.word (op : Nat) (f : XF) : W64 :=
  BitVec.ofNat 64 (packFields [(1, 0), (20, f.lo.toNat), (8, f.c.toNat), (8, f.b.toNat),
    (8, f.a.toNat), (4, f.h.gp), (3, f.h.gm), (8, op), (3, 4), (1, boolNat f.h.b)])

/-- An S word (spec/06 R163). -/
def SF.word (op : Nat) (f : SF) : W64 :=
  BitVec.ofNat 64 (packFields [(5, f.sub.toNat), (16, f.imm.toNat), (8, f.sb.toNat), (8, f.sa.toNat),
    (8, f.dst.toNat), (4, f.h.gp), (3, f.h.gm), (8, op), (3, 5), (1, boolNat f.h.b)])

/-- A WAITC word (spec/09 R251). -/
def WaitcF.word (f : WaitcF) : W64 :=
  BitVec.ofNat 64 (packFields [(1, 0), (4, f.t.toNat), (4, f.c.toNat), (6, f.s.toNat), (6, f.l.toNat),
    (8, 0), (8, 0), (8, 0), (4, f.h.gp), (3, f.h.gm), (8, 0x27), (3, 5), (1, boolNat f.h.b)])

/-- The word of an instruction; a step that is no instruction word has none. -/
def encode : Instr → Option W64
  | .iadd ty f => some (V3.word 0 ty.code f)
  | .iaddImm ty f => some (VI.word 0 ty.code f)
  | .isub ty f => some (V3.word 1 ty.code f)
  | .isubImm ty f => some (VI.word 1 ty.code f)
  | .imul ty f => some (V3.word 2 ty.code f)
  | .imulImm ty f => some (VI.word 2 ty.code f)
  | .imulh ty f => some (V3.word 3 ty.code f)
  | .imulhImm ty f => some (VI.word 3 ty.code f)
  | .imad ty f => some (V3.word 4 ty.code f)
  | .imadImm ty f => some (VI.word 4 ty.code f)
  | .imadw ty f => some (V3.word 5 ty.code f)
  | .idiv ty f => some (V3.word 6 ty.code f)
  | .idivImm ty f => some (VI.word 6 ty.code f)
  | .irem ty f => some (V3.word 7 ty.code f)
  | .iremImm ty f => some (VI.word 7 ty.code f)
  | .imin ty f => some (V3.word 8 ty.code f)
  | .iminImm ty f => some (VI.word 8 ty.code f)
  | .imax ty f => some (V3.word 9 ty.code f)
  | .imaxImm ty f => some (VI.word 9 ty.code f)
  | .lea ty f => some (V3.word 10 ty.code f)
  | .leaImm ty f => some (VI.word 10 ty.code f)
  | .icmp ty f => some (V3.word 11 ty.code f)
  | .icmpImm ty f => some (VI.word 11 ty.code f)
  | .and ty f => some (V3.word 12 ty.code f)
  | .andImm ty f => some (VI.word 12 ty.code f)
  | .or ty f => some (V3.word 13 ty.code f)
  | .orImm ty f => some (VI.word 13 ty.code f)
  | .xor ty f => some (V3.word 14 ty.code f)
  | .xorImm ty f => some (VI.word 14 ty.code f)
  | .andn ty f => some (V3.word 15 ty.code f)
  | .andnImm ty f => some (VI.word 15 ty.code f)
  | .orn ty f => some (V3.word 16 ty.code f)
  | .ornImm ty f => some (VI.word 16 ty.code f)
  | .shl ty f => some (V3.word 17 ty.code f)
  | .shlImm ty f => some (VI.word 17 ty.code f)
  | .shr ty f => some (V3.word 18 ty.code f)
  | .shrImm ty f => some (VI.word 18 ty.code f)
  | .sar ty f => some (V3.word 19 ty.code f)
  | .sarImm ty f => some (VI.word 19 ty.code f)
  | .rotl ty f => some (V3.word 20 ty.code f)
  | .rotlImm ty f => some (VI.word 20 ty.code f)
  | .fshl ty f => some (V3.word 21 ty.code f)
  | .bfx ty f => some (V3.word 22 ty.code f)
  | .bfxImm ty f => some (VI.word 22 ty.code f)
  | .bfi ty f => some (V3.word 23 ty.code f)
  | .bfiImm ty f => some (VI.word 23 ty.code f)
  | .popc ty f => some (V3.word 24 ty.code f)
  | .clz ty f => some (V3.word 25 ty.code f)
  | .ctz ty f => some (V3.word 26 ty.code f)
  | .brev ty f => some (V3.word 27 ty.code f)
  | .bperm ty f => some (V3.word 28 ty.code f)
  | .bpermImm ty f => some (VI.word 28 ty.code f)
  | .mov ty f => some (V3.word 29 ty.code f)
  | .movImm ty f => some (VI.word 29 ty.code f)
  | .movh ty f => some (VI.word 30 ty.code f)
  | .sel3 ty f => some (V3.word 31 ty.code f)
  | .fadd ty f => some (V3.word 32 ty.code f)
  | .faddImm ty f => some (VI.word 32 ty.code f)
  | .fmul ty f => some (V3.word 33 ty.code f)
  | .fmulImm ty f => some (VI.word 33 ty.code f)
  | .ffma ty f => some (V3.word 34 ty.code f)
  | .ffmaImm ty f => some (VI.word 34 ty.code f)
  | .fmin ty f => some (V3.word 35 ty.code f)
  | .fminImm ty f => some (VI.word 35 ty.code f)
  | .fmax ty f => some (V3.word 36 ty.code f)
  | .fmaxImm ty f => some (VI.word 36 ty.code f)
  | .fdiv ty f => some (V3.word 37 ty.code f)
  | .fdivImm ty f => some (VI.word 37 ty.code f)
  | .fsqrt ty f => some (V3.word 38 ty.code f)
  | .frcp ty f => some (V3.word 39 ty.code f)
  | .frsq ty f => some (V3.word 40 ty.code f)
  | .fex2 ty f => some (V3.word 41 ty.code f)
  | .flg2 ty f => some (V3.word 42 ty.code f)
  | .fsinp ty f => some (V3.word 43 ty.code f)
  | .fcosp ty f => some (V3.word 44 ty.code f)
  | .frnd ty f => some (V3.word 45 ty.code f)
  | .fscale ty f => some (V3.word 46 ty.code f)
  | .fscaleImm ty f => some (VI.word 46 ty.code f)
  | .fclass ty f => some (V3.word 47 ty.code f)
  | .fmant ty f => some (V3.word 48 ty.code f)
  | .fexpo ty f => some (V3.word 49 ty.code f)
  | .fcmp ty f => some (V3.word 50 ty.code f)
  | .fcmpImm ty f => some (VI.word 50 ty.code f)
  | .cvt f => some (V3.word 51 0 f)
  | .cvtb f => some (V3.word 52 0 f)
  | .pack2 ty f => some (V3.word 53 ty.code f)
  | .unpk ty f => some (V3.word 54 ty.code f)
  | .ivmk ty f => some (V3.word 55 ty.code f)
  | .ivmid ty f => some (V3.word 56 ty.code f)
  | .ivwid ty f => some (V3.word 57 ty.code f)
  | .ivhull ty f => some (V3.word 58 ty.code f)
  | .ivisect ty f => some (V3.word 59 ty.code f)
  | .ivsplit ty f => some (V3.word 60 ty.code f)
  | .ivmag ty f => some (V3.word 61 ty.code f)
  | .ivmig ty f => some (V3.word 62 ty.code f)
  | .ld f => some (MF.word 0 f)
  | .st f => some (MF.word 1 f)
  | .ldiv f => some (MF.word 2 f)
  | .stiv f => some (MF.word 3 f)
  | .atom f => some (MF.word 4 f)
  | .atomc f => some (MF.word 5 f)
  | .red f => some (MF.word 6 f)
  | .cachePref f => some (MF.word 7 f)
  | .cacheCinv f => some (MF.word 7 f)
  | .cacheCwb f => some (MF.word 7 f)
  | .bra f => some (CF.word 0 f)
  | .brx f => some (CF.word 1 f)
  | .brdec f => some (CF.word 2 f)
  | .call f => some (CF.word 3 f)
  | .callx f => some (CF.word 4 f)
  | .ret f => some (CF.word 5 f)
  | .rmark f => some (CF.word 6 f)
  | .rjoin f => some (CF.word 7 f)
  | .fnew f => some (CF.word 8 f)
  | .fend f => some (CF.word 9 f)
  | .exit f => some (CF.word 10 f)
  | .ivfork f => some (CF.word 11 f)
  | .migrate f => some (CF.word 12 f)
  | .bar f => some (CF.word 13 f)
  | .bara f => some (CF.word 14 f)
  | .barw f => some (CF.word 15 f)
  | .sbar f => some (CF.word 16 f)
  | .mma f => some (XF.word 0 f)
  | .ldstat f => some (XF.word 1 f)
  | .statrel f => some (XF.word 2 f)
  | .tzero f => some (XF.word 3 f)
  | .tcvt f => some (XF.word 4 f)
  | .tget f => some (XF.word 5 f)
  | .tstr f => some (XF.word 6 f)
  | .copy f => some (XF.word 8 f)
  | .copym f => some (XF.word 9 f)
  | .copyl f => some (XF.word 10 f)
  | .cfill f => some (XF.word 11 f)
  | .evpost f => some (XF.word 12 f)
  | .evpop f => some (XF.word 13 f)
  | .launch f => some (XF.word 14 f)
  | .nop f => some (SF.word 0 f)
  | .pand f => some (SF.word 1 f)
  | .por f => some (SF.word 2 f)
  | .pnot f => some (SF.word 3 f)
  | .pxor f => some (SF.word 4 f)
  | .pres f => some (SF.word 5 f)
  | .pmov f => some (SF.word 6 f)
  | .shfl f => some (SF.word 16 f)
  | .ballot f => some (SF.word 17 f)
  | .vote f => some (SF.word 18 f)
  | .rdx f => some (SF.word 19 f)
  | .scan f => some (SF.word 20 f)
  | .elect f => some (SF.word 21 f)
  | .fence f => some (SF.word 32 f)
  | .mwait f => some (SF.word 33 f)
  | .mtest f => some (SF.word 34 f)
  | .rwrite f => some (SF.word 35 f)
  | .arrwait f => some (SF.word 36 f)
  | .qpush f => some (SF.word 37 f)
  | .qpop f => some (SF.word 38 f)
  | .rdctr f => some (SF.word 40 f)
  | .bankcfg f => some (SF.word 41 f)
  | .gets f => some (SF.word 48 f)
  | .sets f => some (SF.word 49 f)
  | .trap f => some (SF.word 50 f)
  | .eret f => some (SF.word 51 f)
  | .bkpt f => some (SF.word 52 f)
  | .emret f => some (SF.word 53 f)
  | .yield f => some (SF.word 54 f)
  | .step f => some (SF.word 55 f)
  | .ckpt f => some (SF.word 56 f)
  | .wvload f => some (SF.word 57 f)
  | .wvbind f => some (SF.word 58 f)
  | .swapctx f => some (SF.word 59 f)
  | .waitc f => some f.word
  | .guestDecode => none
  | .loadComplete _ _ => none
  | .storePerformed _ _ => none
  | .portAccept _ => none
  | .writeAck _ => none
  | .tagRetire _ => none
  | .tileOpStart _ => none
  | .tilePanelUnit _ => none
  | .copyCommandStart _ => none
  | .copyBurst _ _ => none
  | .rwriteArrival _ => none
  | .sbarArrival _ => none
  | .monitorWake _ _ => none
  | .monitorReread _ _ => none
  | .migrationMove _ => none
  | .queueDoorbell _ _ _ => none
  | .qctlWrite _ _ _ => none
  | .packetNop _ _ => none
  | .packetLaunch _ _ => none
  | .packetCopy _ _ => none
  | .packetFence _ _ => none
  | .packetSignal _ _ => none
  | .packetEvent _ _ => none
  | .packetHandle _ _ => none
  | .fenceCounterWake _ _ => none
  | .gridComplete _ => none
  | .spanPlacement _ _ _ _ => none
  | .spawnRefill _ => none
  | .skeinMoveIn _ => none
  | .forcedRotation _ => none
  | .compaction _ => none
  | .relocation _ _ _ => none
  | .forwardExpiry _ => none
  | .heldPostEnter _ _ => none
  | .switchRequestServe _ => none
  | .cswctlGo _ _ => none
  | .freezePoint _ => none
  | .wfreezeGo _ => none
  | .wfreezeResume _ => none
  | .parkedCompletion _ => none
  | .checkpointTimer _ => none
  | .checkpointCut _ => none
  | .shadowCopy _ _ => none
  | .drainFrame _ _ => none
  | .ckptcfgWrite _ => none
  | .ckptack _ => none
  | .atsTranslationCompletion _ _ _ _ _ => none
  | .pageRequestResponse _ _ _ => none
  | .atsInvalidation _ _ _ => none
  | .atomicopCompletion _ => none
  | .hostAtomicDone _ _ => none
  | .completerError _ _ => none
  | .requestTimeout _ _ => none
  | .peerUnreachable _ _ => none
  | .pcieLinkDown _ => none
  | .incomingPortRequest _ => none
  | .linkSessionRekey _ => none
  | .bounceDoorbell _ _ _ => none
  | .bounceResync _ _ _ => none
  | .bounceSlotLand _ _ => none
  | .xinvGo _ => none
  | .xinvComplete _ => none
  | .wvhctlGo _ => none
  | .eiscfgWrite _ => none
  | .dutycfgWrite _ => none
  | .pwrlimWrite _ => none
  | .ps2Request _ => none
  | .ps0Request _ => none
  | .ps2Exit _ => none
  | .ps1Entry _ => none
  | .partcfgWrite _ => none
  | .ecccntClear _ => none
  | .ctrselWrite _ => none
  | .traceClaim _ _ => none
  | .traceRelease _ _ => none
  | .traceSample _ _ => none
  | .dbggo _ => none
  | .debugScrubDone => none
  | .tdispMessage _ _ => none
  | .modelKeyDelivery _ _ => none
  | .spdmRequest _ _ => none
  | .clockRelock _ _ _ => none
  | .coldReset => none
  | .warmReset _ => none
  | .partitionReset _ => none
  | .functionLevelReset _ => none
  | .pcieHotReset _ => none
  | .pcieD3cold => none
  | .bootComplete _ => none
  | .registerWrite _ => none
  | .notAnInstruction _ => none
  | .instructionFetchFault _ _ => none
  | .packetUnknownType _ _ => none
  | .ldstatFillDone _ => none
  | .multiClockResultWritten _ _ _ => none
  | .linkRetrained _ => none
  | .portDown _ => none

end Sys2Proof
end

