-- ==== Sys2Proof/Machine/Flags.lean ====
section
/-! DEFINITION. The predicate word, guards, three-valued logic and integer conditions (spec/03 R63, spec/06 R145,
R165, spec/07 R183, spec/08 R223). -/

namespace Sys2Proof

/-- A word as v0 stores it: each pair 11 becomes 10 (spec/03 R63); n pairs from the lowest. -/
def pwClean : Nat → Nat → Nat
  | 0, _ => 0
  | n + 1, v => (if v % 4 = 3 then 2 else v % 4) + 4 * pwClean n (v / 4)

/-- The code of predicate i. -/
def predCode (pw : W32) (i : Nat) : Nat := pw.toNat / 4 ^ i % 4

/-- The truth of a code; 11 is never stored. -/
def Tri.ofCode : Nat → Tri
  | 0 => .false_
  | 1 => .true_
  | _ => .undecided

/-- Predicate i. -/
def predOf (pw : W32) (i : Nat) : Tri := Tri.ofCode (predCode pw i)

/-- The predicate word with predicate i set: only that predicate's two bits change. -/
def setPred (pw : W32) (i : Nat) (t : Tri) : W32 :=
  BitVec.ofNat 32 (pw.toNat - predCode pw i * 4 ^ i + t.code * 4 ^ i)

/-- The guard passes for a predicate word (spec/06 R145). -/
def Guard.passes (g : Guard) (pw : W32) : Bool :=
  let t := predOf pw g.p.toNat
  match g.mode with
  | .always => true
  | .t => t == .true_
  | .f => t == .false_
  | .u => t == .undecided
  | .nt => t != .true_
  | .nf => t != .false_
  | .nu => t != .undecided

/-! ## Kleene logic (spec/08 R223) -/

def Tri.and : Tri → Tri → Tri
  | .false_, _ => .false_
  | _, .false_ => .false_
  | .true_, .true_ => .true_
  | _, _ => .undecided

def Tri.or : Tri → Tri → Tri
  | .true_, _ => .true_
  | _, .true_ => .true_
  | .false_, .false_ => .false_
  | _, _ => .undecided

def Tri.xor : Tri → Tri → Tri
  | .undecided, _ => .undecided
  | _, .undecided => .undecided
  | a, b => Tri.ofBool (a != b)

def Tri.not : Tri → Tri
  | .true_ => .false_
  | .false_ => .true_
  | .undecided => .undecided

/-- PRES: undecided replaced. -/
def Tri.resolve (b : Bool) : Tri → Tri
  | .undecided => Tri.ofBool b
  | t => t

/-! ## Conditions (spec/06 R165) -/

/-- The conditions of ICMP by code, on exact values. -/
def intCond (code : Nat) (a b : Int) : Bool :=
  match code with
  | 0 => a == b
  | 1 => a != b
  | 2 => a < b
  | 3 => a ≤ b
  | 4 => b < a
  | _ => b ≤ a

/-- The conditions of FCMP by code. -/
def FCond.ofCode : Nat → FCond
  | 0 => .eq | 1 => .ne | 2 => .lt | 3 => .le | 4 => .gt | 5 => .ge | 6 => .ord | 7 => .unord | 8 => .contains
  | 9 => .subset | _ => .disjoint

/-- The conditions of MWAIT and MTEST by code (spec/09 R253): memory against expected, n bits. -/
def monCond (code n m e : Nat) : Bool :=
  match code with
  | 0 => m == e
  | 1 => m != e
  | 2 => toSigned n m < toSigned n e
  | 3 => toSigned n e ≤ toSigned n m
  | 4 => m < e
  | _ => e ≤ m

end Sys2Proof
end

