-- ==== Sys2Proof/Machine/State.lean ====
section
/-! DEFINITION. The state of the whole device as plain data, why a step can stop, and the state after a
cold reset.  INVENTORY.md lists every piece with its rule.  Tables of many like things (worlds, clusters,
cores, banks) are lists of numbered entries in ascending order; an entry that is not listed has its reset
value. -/

namespace Sys2Proof.Machine

/-- Why a step stops. -/
inductive Fault where
  /-- Raised by `exec` on an instruction word when no batch is at issue: spec/ gives an instruction an effect
  only as the issue of a batch (spec/02 R34).  Safe: nothing is said of the hardware. -/
  | noBatch
  deriving DecidableEq, Repr

/-- Why a step has no meaning. -/
inductive Refusal where
  /-- Raised by `exec` only, for an instruction whose meaning is not written yet.  Safe. -/
  | notModelled (mnemonic : String)
  deriving DecidableEq, Repr

/-- Bytes by address, addresses strictly rising, no byte equal to 0 listed; an unlisted address reads 0
(notes/assumptions/4; a line of device memory reads only through its MAC, spec/14 R490). -/
abbrev Memory := List Host.Cell

/-- Numbered entries, numbers strictly rising. -/
abbrev Tbl (α : Type) := List (Nat × α)

/-! ## Operations in flight (spec/13 R330 to R332) -/

/-- Where an access is performed. -/
inductive Home where
  /-- HBM or extension memory, by physical address. -/
  | dev
  /-- Device register space (spec/05 R99). -/
  | devreg
  /-- Scratch of a cluster. -/
  | scratch (cluster : Nat)
  /-- Handle-local memory of a cluster. -/
  | handle (cluster : Nat)
  /-- Host memory, by host physical address. -/
  | host
  /-- A peer device's memory. -/
  | peer (id : Nat)
  deriving DecidableEq, Repr

/-- One part of an access, on one page (spec/05 R110). -/
structure Part where
  home : Home
  addr : Nat
  len : Nat
  strong : Bool
  unordered : Bool
  cached : Bool
  devPage : Bool
  /-- How an atomic to a host page is served: 1 PCIe AtomicOps, 2 host-assisted (spec/09 R247). -/
  hat : Nat
  /-- The untranslated I/O address of a host page's part. -/
  io : Nat
  /-- Retention in force: 0 normal, 1 streaming, 2 sticky, 3 bypass (spec/05 R117). -/
  retn : Nat
  deriving DecidableEq, Repr

/-- A part of memory that no page describes. -/
def Part.plain (home : Home) (addr len : Nat) : Part := ⟨home, addr, len, false, false, false, false, 0, 0, 0⟩

/-- How far one fibre's part of an operation has come. -/
inductive Stage where
  | sent
  /-- Performed at its home; a load has its value bound and its register not written. -/
  | performed
  /-- Written to the register, or needing nothing more. -/
  | done
  /-- Failed; a load's consumer takes the fault (spec/19 R424). -/
  | failed (code : FaultCode)
  deriving DecidableEq, Repr

/-- One fibre's part of an operation: its slot, which fibre, its destination register (counted in the allocation;
e-registers from 1248 on), its address, the parts of the access, the data and the compare value read at issue, its
progress and its value. -/
structure SlotOp where
  slot : Nat
  uid : Nat
  dst : Nat
  va : W64
  parts : List Part
  data : Nat
  cmp : Nat
  stage : Stage
  val : Nat
  /-- Parts performed before the rest, by number, with what a load read there (spec/05 R109, R110). -/
  got : List (Nat × Nat)
  /-- A store that its cluster sees already, performed no further yet (spec/05 R135). -/
  near : Bool
  deriving DecidableEq, Repr

/-- An operation as sent. -/
def SlotOp.new (slot uid dst : Nat) (va : W64) (parts : List Part) (data cmp : Nat) : SlotOp :=
  ⟨slot, uid, dst, va, parts, data, cmp, .sent, 0, [], false⟩

/-- One copy command of a fibre (spec/10 R280 to R282): the captured operands and how far it has come. -/
structure CopyCmd where
  slot : Nat
  uid : Nat
  /-- Record or source address, and destination, or landing with the mask above it, as captured. -/
  a : W64
  b : W64
  stamp : W64
  /-- Landing offset, byte count. -/
  n : Nat
  pattern : W32
  coords : List W32
  /-- Cores that receive (spec/10 R281), with their gangs. -/
  receivers : List (Nat × Nat)
  stampsDone : List Nat
  seed : W32
  fib : Nat
  rmode : Nat
  /-- The layout record as far as the engine has read it. -/
  record : List Byte
  started : Bool
  prog : Nat
  ended : Bool
  /-- The burst under way: its elements as read, row and index with the bytes, and the receivers at which it has landed (spec/10 R281). -/
  burst : List ((Nat × Nat) × List Byte)
  landed : List Nat
  deriving DecidableEq, Repr

/-- A quarter operation (spec/10 R262 to R275). -/
structure TileOp where
  quarter : Nat
  acc : Nat
  fmt : Nat
  n16 : Nat
  m : Nat
  nega : Bool
  negb : Bool
  zc : Bool
  iv : Bool
  slot : Nat
  kcnt : Nat
  fuse : Bool
  /-- The rounding code in force at issue, and the leader's seed and `FIBID`. -/
  rnd : Nat
  seed : W32
  fib : Nat
  /-- Owned rows with their A row addresses, and the first panel each is still to be written in (spec/13 R341). -/
  rows : List (Nat × Nat × Nat)
  /-- TCVT: code address, side address, swizzle.  LDSTAT: source, global address, length.  TGET and TSTR: first
  register, panel, count. -/
  p0 : Nat
  p1 : Nat
  p2 : Nat
  /-- TSTR: each fibre's slot and the registers it stores. -/
  regs : List (Nat × List W32)
  /-- MMA: a stationary slot that failed authentication makes it end unwritten (spec/20 R434). -/
  dead : Bool
  started : Bool
  deriving DecidableEq, Repr

/-- An entry of the in-flight record (spec/13 R330, R331). -/
structure Entry where
  seq : Nat
  kind : Nat
  cls : Nat
  iopx : Nat
  scope : Nat
  acquire : Bool
  release : Bool
  rnd : Nat
  stampw : Bool
  portacc : Bool
  acked : Bool
  prog : Nat
  pc : W64
  mask : Mask
  tag : W64
  /-- Destination register or core, size in bytes, atomic operation, and the operation's own extra field. -/
  dst : Nat
  size : Nat
  aop : Nat
  aux : Nat
  /-- One access is made for all of its fibres (`UA`, spec/06 R158). -/
  one : Bool
  /-- A completion of the parked operation is held for it (`CMPL`). -/
  cmpl : Bool
  ops : List SlotOp
  copies : List CopyCmd
  tile : Option TileOp
  deriving DecidableEq, Repr

/-! ## Fibres, skeins, gangs (spec/02, spec/03) -/

/-- The wait kinds (spec/13 R345 `FST`). -/
inductive Wait where
  | none | rjoin | barw | sbar | mwait | arrwait | qpop | qpush | evpop | evpost | migrate | waitc
  deriving DecidableEq, Repr

/-- A guest instruction being carried out (spec/11 R298): its words (none in an emulation routine or a handler), its
length in guest PC units, and the unit in bytes. -/
structure Expansion where
  words : List W64
  len : Nat
  unit : Nat
  deriving DecidableEq, Repr

/-- A fibre (spec/03, spec/13 R345). -/
structure Fibre where
  /-- Creation number: later fibres have greater ones (spec/08 R215). -/
  uid : Nat
  regs : List W32
  e : List W32
  pc : W64
  wshift : Nat
  pers : Nat
  rmode : Nat
  fmode : Nat
  srseed : W32
  pidx : W32
  amask : W64
  fmask : W64
  fcode : W32
  fpc : W64
  gpc : W64
  faddr : W64
  eqid : W32
  iopx : Nat
  fglen : Nat
  /-- The moment of its latest migration (spec/02 R38). -/
  movedAt : Nat
  pass : Nat
  parked : Bool
  emul : Bool
  wait : Wait
  /-- What it waits on: a barrier with its part, a MIGRATE's fields, the number of a batch that waits as a whole. -/
  waitArg : Nat
  /-- RJOIN: the mask it waits for and the moment it was made (spec/08 R215). -/
  wmask : W64
  wmoment : Nat
  /-- It could not issue, and nothing has happened since (notes/assumptions/1). -/
  tried : Bool
  /-- Barrier b: bit b (spec/08 R220). -/
  barIn : Nat
  stepIn : Bool
  sbarIn : Bool
  /-- Pair registers written by RMARK (index in the allocation) and the moment of each (spec/08 R215). -/
  marks : List (Nat × Nat)
  lastMark : Nat
  /-- The next issue is unchecked by watchpoints (spec/15 R385). -/
  waive : Bool
  lseq : Nat
  expansion : Option Expansion
  /-- Mode writes of a template, made at the next guest boundary (spec/03 R69): selector and value. -/
  pend : List (Nat × Nat)
  /-- Registers that hold uncorrectable data (spec/19 R423), counted as in `SlotOp.dst`. -/
  poison : List Nat
  /-- Multi-clock results not yet written: first register, counted as in `SlotOp.dst`, and the words (spec/03 R66,
  spec/07 R177). -/
  late : List (Nat × List W32)
  /-- Where its latest issue stands, if that is a multi-clock instruction of canonical code whose result is not written: a freeze stops it
  there (spec/13 R328). -/
  redo : Option W64
  /-- Where the instruction stands that `PIDX` counts for, while the fibre is in a handler (spec/13 R341). -/
  longPc : W64
  deriving DecidableEq, Repr

/-- A skein (spec/03 R64, spec/12 R320). -/
structure Skein where
  width : Nat
  slots : List (Option Fibre)
  l : Nat
  s : Nat
  c : Nat
  t : Nat
  ackc : Nat
  arrive : List Nat
  record : List Entry
  nextSeq : Nat
  active : Bool
  /-- Ready age, in clocks of the core (spec/12 R320). -/
  age : Nat
  /-- The clock of its core from which it may issue: 2 after it moved in (R320), or when the compaction that made room for it ends
  (R322). -/
  readyFrom : Nat
  /-- The clock of its core at which its compaction move ends (R322). -/
  moving : Nat
  /-- It has issued since it moved into the active set. -/
  issued : Bool
  residency : Nat
  /-- First block of its register run (spec/12 R321). -/
  block : Nat
  /-- ARRWAITs waiting, in issue order: counter, count, slots (spec/09 R257). -/
  arrq : List (Nat × Nat × Mask)
  /-- Replaying its record before new issue (spec/13 R339). -/
  replaying : Bool
  deriving DecidableEq, Repr

/-- A gang's area of the replay log (spec/15 R387): mode (0 off, 1 record, 2 replay), address, entries, entries used. -/
structure LogArea where
  mode : Nat
  base : Nat
  cap : Nat
  used : Nat
  deriving DecidableEq, Repr

/-- An equivalence point (spec/12 R316): id, the two addresses, and the map entries (rand register, stake
register, kind). -/
structure EqPoint where
  eqid : Nat
  rpc : W64
  spc : W64
  maps : List (Nat × Nat × Nat)
  deriving DecidableEq, Repr

/-- A launch descriptor as read (spec/12 R315). -/
structure LaunchDesc where
  rimg : W64
  simg : W64
  eqtab : W64
  eqcnt : Nat
  width : Nat
  rregs : Nat
  sregs : Nat
  pers : Nat
  gangsk : Nat
  spang : Nat
  start : Bool
  det : Bool
  gprio : Nat
  fibs : Nat
  gx : Nat
  gy : Nat
  gz : Nat
  scrfp : Nat
  scrbase : Nat
  spcap : Nat
  spbase : Nat
  argp : W64
  deriving DecidableEq, Repr

/-- A long instruction of a handle thread under way (spec/13 R341): the bytes it has read; a LAUNCH's number, and its descriptor and
equivalence table as read and checked, while it waits for the grid queue (spec/10 R288); that its SWAPCTX is past its checks (spec/08
R239). -/
structure Work where
  bytes : List Byte
  launch : Option (Nat × LaunchDesc × List EqPoint)
  swap : Bool
  deriving DecidableEq, Repr

/-- A gang (spec/02 R29); a handle-core thread is a gang of one fibre. -/
structure Gang where
  key : Nat
  kind : CoreKind
  cluster : Nat
  /-- Core index (spec/01 R13), or the thread number on a handle core. -/
  core : Nat
  ctx : Nat
  grid : Nat
  gangid : Nat
  spanid : Nat
  linear : Nat
  /-- Registers per fibre in the running image. -/
  nregs : Nat
  /-- 0 rand image, 1 stake image. -/
  image : Nat
  det : Bool
  lbase : Nat
  barPhase : List Nat
  stepPhase : Nat
  stepCount : Nat
  sbarPhase : Nat
  poolBase : Nat
  poolCap : Nat
  /-- Its pool's header was found bad: no refill from the region (spec/02 R44). -/
  poolBad : Bool
  hcpc : W64
  csn : Nat
  skeins : List Skein
  frozen : Bool
  ended : Bool
  /-- The core that a MIGRATE grant reserved (spec/12 R323). -/
  target : Option Nat
  /-- The moment at which its waiting MIGRATE request arrived; 0 without one (R323). -/
  asked : Nat
  /-- Cores that it left by migration, each with the equivalence point (spec/02 R50), oldest first. -/
  moves : List (Nat × Nat)
  /-- A handle routine's packet: world, queue and number (spec/12 R326). -/
  routine : Option (Nat × Nat × Nat)
  work : Work
  log : LogArea
  deriving DecidableEq, Repr

/-! ## Grids, contexts, worlds -/

/-- Who learns of a grid's completion: a queue's packet, or a handle thread. -/
inductive Launcher where
  | packet (world queue number : Nat)
  | thread (cluster thread : Nat)
  deriving DecidableEq, Repr

/-- A grid (spec/12 R315 to R318). -/
structure Grid where
  key : Nat
  world : Nat
  ctx : Nat
  desc : LaunchDesc
  eq : List EqPoint
  gridid : W32
  hcpc : W64
  csn : Nat
  stepcnt : Nat
  /-- Linear numbers of the spans placed so far. -/
  placed : List Nat
  launcher : Launcher
  ordchk : Bool
  log : Nat × Nat × Nat
  done : Bool
  deriving DecidableEq, Repr

/-- A stationary slot as issued (spec/10 R265, spec/20 R434): the gang that holds it, its loaded length, and the sealed object that was
loaded: global address and length. -/
structure StatSlot where
  holder : Option Nat
  len : Nat
  sealed : Option (W64 × Nat)
  deriving DecidableEq, Repr

/-- What the tile queue has loaded into a slot for a gang (notes/assumptions/41): the bytes, none while they are still to be read from the
sealed object; the object; and that it did not authenticate at a resume (spec/10 R272). -/
structure SlotFill where
  slot : Nat
  gang : Nat
  data : Option (List Byte)
  origin : Option (W64 × Nat)
  bad : Bool
  deriving DecidableEq, Repr

/-- A slot as a save keeps it for a gang: how the gang holds it, and what its tile operations still find there (spec/10 R272); a sealed
object's bytes are not kept. -/
structure SavedSlot where
  gang : Nat
  slot : Nat
  held : Option StatSlot
  fill : Option SlotFill
  deriving DecidableEq, Repr

/-- What a context does. -/
inductive CtxState where
  | running
  /-- Frozen by `WFREEZE` (`true`), or saved otherwise. -/
  | frozen (byHypervisor : Bool)
  /-- Named by a SWAPCTX in progress. -/
  | swapping
  deriving DecidableEq, Repr

/-- A context (spec/13 R342, R346). -/
structure Context where
  key : Nat
  ctxid : Nat
  world : Nat
  xroot : Nat
  featvec : W64
  /-- Global address of the save area, and its physical frames from the first page on (spec/22 R457). -/
  area : W64
  frames : List Nat
  seqBase : Nat
  st : CtxState
  /-- Gangs saved at a freeze: what the save area's layout has no place for is taken from here at a resume. -/
  saved : List Gang
  /-- Their stationary slots (spec/10 R272). -/
  slots : List SavedSlot
  /-- The bytes that the save wrote from the grid table on. -/
  image : List Byte
  /-- Tagged writes still travelling (spec/13 R335), and every operation, by entry and slot, that had left its core when it was frozen. -/
  late : Nat
  lates : List (EntryId × Nat)
  deriving DecidableEq, Repr

/-- A packet that has started and not completed: its number in the queue, its address, its header fields, its
completion counter and increment, and its `CSN`. -/
structure Packet where
  number : Nat
  addr : W64
  /-- The `HCPC` of its launch site (spec/02 R52; the handle PC of thread 0 where that parses, spec/12 R311). -/
  hcpc : W64
  typ : Nat
  intr : Bool
  vec : Nat
  caddr : W64
  cinc : W64
  csn : Nat
  deriving DecidableEq, Repr

/-- A command queue (spec/12 R309). -/
structure Queue where
  qbase : W64
  ctl : W64
  qwr : Nat
  qrd : Nat
  csn : Nat
  live : List Packet
  /-- A FENCE being waited on: counters not yet satisfied (spec/12 R314). -/
  fence : Option (List Nat)
  /-- A LAUNCH packet's descriptor and equivalence table as read, while it waits for the grid queue (spec/12 R313, R317). -/
  waiting : Option (LaunchDesc × List EqPoint)
  deriving DecidableEq, Repr

/-- A bounce channel (spec/14 R370, R371). -/
structure Bounce where
  src : W64
  dst : W64
  ctl : W64
  prod : Nat
  staged : Option Nat
  cons : Nat
  mism : Bool
  gen : Nat
  last : Nat
  deriving DecidableEq, Repr

/-- The TDISP states (spec/14 R363). -/
inductive Tdisp where
  | unlocked | locked | run | error
  deriving DecidableEq, Repr

/-- A guest's trace registers in a cluster (spec/15 R381). -/
structure TraceRegs where
  /-- 2 from a revocation to its acknowledgement, else 0 (spec/15 R382). -/
  state : Nat
  kinds : Nat
  smpn : Nat
  base : W64
  size : Nat
  rd : Nat
  wr : Nat
  /-- Records of a revocation that wait for room in the ring (spec/22 R467). -/
  owed : List (List Byte)
  deriving DecidableEq, Repr

/-- A world (spec/14 R356): its doorbell page and keys. -/
structure World where
  queues : Tbl Queue
  fhvec : W64
  frbase : W64
  frctl : W64
  frlost : Nat
  fridx : Nat
  loss : Bool
  cswout : W64
  cswin : W64
  cswcl : Nat
  cswst : Nat
  cswbusy : Bool
  /-- Its switch request is past the checks (spec/12 R327). -/
  cswbegun : Bool
  bounce : Tbl Bounce
  haprod : W64
  havec : W64
  trace : Tbl TraceRegs
  /-- Generation of the memory keys; 0 before any key is made (spec/14 R368). -/
  key : Nat
  modelKey : Option (BitVec 128)
  tdisp : Tdisp
  /-- Partition-control-block registers of the world. -/
  banklim : W32
  featmsk : W64
  parkbase : W64
  haq : W64
  wcfg : W64
  wpasid : W64
  ordchk : W64
  ordlen : W64
  rlog : W64
  rlcap : W64
  /-- Frozen by `WFREEZE` (spec/13 R329). -/
  frozen : Bool
  /-- Completions held at the port (spec/13 R337), and whether the first was reported. -/
  held : List Completion
  heldReported : Bool
  /-- The roster as cached until an `XINV` with `ALL` (spec/14 R366). -/
  roster : Option (List Nat)
  deriving DecidableEq, Repr

/-! ## Clusters and cores -/

/-- Bank modes (spec/05 R111). -/
inductive BankMode where
  | cache | scratch | fifo
  deriving DecidableEq, Repr

/-- A cluster SRAM bank (spec/05 R111, R112, spec/09 R258, R259, R261, spec/12 R319). -/
structure Bank where
  mode : BankMode
  world : Nat
  entries : List W32
  producers : List Nat
  everProducer : Bool
  /-- The grid and linear span whose footprint it holds, and whether the scheduler turned it. -/
  foot : Option (Nat × Nat)
  turned : Bool
  byCfg : Bool
  /-- Batches waiting, in order: gang, skein, pop. -/
  waiters : List (Nat × Nat × Bool)
  deriving DecidableEq, Repr

/-- A line of a cluster cache or of a stake core's private cache (spec/05 R108, spec/09 R248): its physical line number, world, bytes,
which bytes are dirty, its retention class (R117) and the way, that is the bank, that holds it (R113).  A cache lists its lines from
the least recently used on (R118). -/
structure CacheLine where
  line : Nat
  world : Nat
  bytes : List Byte
  dirty : List Bool
  retn : Nat
  way : Nat
  deriving DecidableEq, Repr

/-- A line of an instruction cache (spec/01 R12, R14). -/
structure CodeLine where
  line : Nat
  world : Nat
  bytes : List Byte
  deriving DecidableEq, Repr

/-- A weave table as loaded (spec/11 R292): its bytes. -/
structure WeaveTable where
  gen : Nat
  bytes : List Byte
  deriving DecidableEq, Repr

/-- A DOC line (spec/11 R303). -/
structure DocLine where
  world : Nat
  pers : Nat
  gen : Nat
  va : W64
  pa : Nat
  words : List W64
  len : Nat
  fromEis : Bool
  deriving DecidableEq, Repr

/-- An entry of the event queue (spec/10 R286, R287). -/
structure Event where
  world : Nat
  tag : W32
  source : W32
  payload : W64
  deriving DecidableEq, Repr

/-- A device post held for room (spec/10 R287): of an EVENT packet, its queue and number, so that it completes when the entry is in. -/
structure HeldPost extends Event where
  packet : Option (Nat × Nat)
  deriving DecidableEq, Repr

/-- A forwarding entry (spec/12 R325). -/
structure Forward where
  world : Nat
  grid : Nat
  span : Nat
  target : Nat
  deriving DecidableEq, Repr

/-- The trace unit of a cluster (spec/15 R381 to R383): the hypervisor's registers, the owner (0 free, 1
the hypervisor, w + 2 world w), and drops; a record is written when it is made. -/
structure TraceUnit where
  hyp : TraceRegs
  /-- 0 free, 1 the hypervisor, w + 2 world w. -/
  owner : Nat
  dropped : Nat
  /-- The sampling period under way is one of host polling (spec/01 R25). -/
  polling : Bool
  deriving DecidableEq, Repr

/-- A command that the copy engine runs or holds: an entry's command by slot, or a queue's COPY packet. -/
inductive CopyRef where
  | entry (e : EntryId) (slot : Nat)
  | packet (world queue number : Nat) (src dst : W64) (count : Nat)
  deriving DecidableEq, Repr

/-- A cluster (spec/01 R12). -/
structure Cluster where
  banks : Tbl Bank
  scratch : Memory
  scratchPoison : List Nat
  cache : List CacheLine
  /-- The cluster instruction cache. -/
  code : List CodeLine
  weave : Tbl WeaveTable
  /-- Personality ids made visible: id and world (spec/08 R238). -/
  bindings : List (Nat × Nat)
  doc : List DocLine
  events : List Event
  held : List HeldPost
  copyWait : List CopyRef
  channels : Tbl CopyRef
  /-- Packet copies in progress: bytes done. -/
  packetProg : List (Nat × Nat × Nat × Nat)
  forwards : List Forward
  trace : TraceUnit
  local_ : Memory
  /-- `CSN` of handle threads (spec/02 R51). -/
  csns : List Nat
  watch : List (W64 × W64)
  switches : List Nat
  idle : Bool
  /-- Whose turn it is among the queues of each priority level: world, queue, packets parsed (spec/12 R311). -/
  turns : Tbl (Nat × Nat × Nat)
  deriving DecidableEq, Repr

/-- An element of a core's tile queue (spec/10 R269): an entry's quarter operation, or a STATREL of a slot by a gang. -/
inductive TileRef where
  | op (e : EntryId)
  | release (slot gang : Nat)
  deriving DecidableEq, Repr

/-- A rand or stake core (spec/01 R14). -/
structure Core where
  /-- Bank H (spec/15 R377), by counter number. -/
  h : Tbl Nat
  /-- Bank G: context and counter number. -/
  g : List (Nat × Tbl Nat)
  slots : List StatSlot
  fills : List SlotFill
  queue : List TileRef
  /-- Tag sequence of each context (spec/13 R333). -/
  seqs : Tbl Nat
  /-- The model's own: clocks of the core that have passed (notes/assumptions/3). -/
  clocks : Nat
  /-- The clock from which the next forced rotation may be (spec/12 R320). -/
  rotated : Nat
  /-- Grids with a placement that waits on the core for a run alone, and the clock since which it has waited (spec/12 R322). -/
  wanting : Tbl Nat
  /-- The model's own: the step up to which the slots without an issue are charged (notes/assumptions/97). -/
  idleFrom : Nat
  /-- A stake core's private data cache, and the core's own instruction cache (spec/01 R14). -/
  cache : List CacheLine
  code : List CodeLine
  deriving DecidableEq, Repr

/-! ## Translation, ports, partitions -/

/-- A translation held (spec/05 R107): the leaf's context, first page (VA[55:18]), page count and bits. -/
structure TlbEntry where
  world : Nat
  ctx : Nat
  page : Nat
  pages : Nat
  pa : Nat
  bits : Nat
  fdev : Nat
  /-- Physical address of the leaf entry. -/
  entry : Nat
  deriving DecidableEq, Repr

/-- A host translation held (spec/14 R359): world, 4 KiB I/O page, host frame, access. -/
structure AtsEntry where
  world : Nat
  page : Nat
  frame : Nat
  rd : Bool
  wr : Bool
  /-- Translations returned for it without the access needed (spec/21 R441); 4: its page request was lost with the link (R454). -/
  fails : Nat
  deriving DecidableEq, Repr

/-- A write to host or peer memory that not every cluster sees yet (spec/05 R128): where, the bytes under it, the clusters that see it,
and the operation whose acknowledgement says that all do. -/
structure FarWrite where
  home : Home
  addr : Nat
  old : List Byte
  seen : List Nat
  op : EntryId
  deriving DecidableEq, Repr

/-- An entry of a home's tag table (spec/13 R334). -/
structure TagEntry where
  tag : W64
  slot : Nat
  addr : W64
  /-- 0 global, 1 scratch, 2 register deposit, 3 a peer. -/
  space : Nat
  val : Nat
  /-- The home: an L2 slice, a cluster, a core, a peer. -/
  home : Nat
  pinned : Bool
  deriving DecidableEq, Repr

/-- Who last wrote a line of HBM or extension memory in whole, and under which key (spec/14 R368, R490). -/
structure Owner where
  world : Nat
  key : Nat
  deriving DecidableEq, Repr

/-- A checkpoint (spec/13 R347 to R353). -/
structure Checkpoint where
  phase : Nat
  cseq : Nat
  /-- Asked for by the timer, at any grid's next step boundary, and by fibres, at their grid's. -/
  timer : Bool
  wants : List Nat
  /-- HBM frames still to stream, by number: from `lo` up to `hi`; extension frames; those of both that are unfrozen. -/
  lo : Nat
  hi : Nat
  ext : List Nat
  thawed : List Nat
  /-- Shadow copies: frame and its bytes at the cut. -/
  shadow : List (Nat × Memory)
  /-- Extension frames written since they were last streamed. -/
  bitmap : List Nat
  /-- Extension frames of the cut, those streamed since, and frames that the host has taken. -/
  extAll : List Nat
  streamed : List Nat
  /-- The image's header has been broken for writing (spec/22 R463). -/
  opened : Bool
  /-- Contexts kept frozen until the drain ends (R351). -/
  heldContexts : List Nat
  /-- Tier, address and who streams, as they stood when the cut was taken. -/
  tgt : W64
  adr : W64
  pull : Bool
  deriving DecidableEq, Repr

/-- An access that the order checker keeps (spec/15 R386): its gang and cluster, the gang's own clock, whether it writes and is an
atomic and at which scope, and the fields reported (spec/22 R469). -/
structure OrdAccess where
  gang : Nat
  cluster : Nat
  clock : Nat
  write : Bool
  atomic : Bool
  scope : Nat
  pc : W64
  pc2 : W64
  hcpc : W64
  csn : Nat
  gridid : W32
  linear : Nat
  deriving DecidableEq, Repr

/-- A granule that the checker tracks: which, the last write, and the reads since. -/
structure OrdGranule where
  loc : Nat
  last : Option OrdAccess
  reads : List OrdAccess
  deriving DecidableEq, Repr

/-- A hard partition's control block (spec/01 R20 to R24, spec/05 R107, spec/11, spec/13, spec/15, spec/19, spec/21,
spec/22). -/
structure Partition where
  pnext : Nat
  sharew : Nat
  psref : Bool
  pscur : Nat
  /-- On the way out of PS2, with the port requests that wait for it (spec/01 R20). -/
  psexit : Bool
  psheld : List PortRequest
  /-- Doorbells that wait for it: bounce or queue, world, number, value. -/
  psbells : List (Bool × Nat × Nat × Nat)
  dutycfg : W32
  migdis : Bool
  fwdlate : Nat
  xinv : W64
  xinvBusy : Bool
  eiscfg : W64
  wvhaddr : W64
  wvhctl : W64
  wfreeze : Nat
  ckptcfg : W64
  ckptshd : W64
  ckpttgt : W64
  ckptadr : W64
  ckpt : Checkpoint
  ecc : W64
  eccLast : W64
  fabtmo : W64
  ctrsel : W64
  routing : Tbl (List Nat)
  numvfs : Nat
  /-- Nanoseconds of `CLOCK` at the last partition reset. -/
  clock0 : Nat
  /-- The model's own: steps taken when counter bank H was last reset to zero (spec/15 R377, notes/assumptions/97). -/
  slots0 : Nat
  pageReqs : List (Nat × Nat)
  /-- Translation requests outstanding; one more for each answer that is to be dropped (spec/21 R442). -/
  atsReqs : List (Nat × Nat)
  /-- Invalidation requests not yet answered: world, first and last page (spec/14 R361). -/
  invals : List (Nat × Nat × Nat)
  ordHist : List OrdGranule
  /-- Vector clocks by what carries them (Order.lean). -/
  ordClocks : List ((Nat × Nat × Nat) × Tbl Nat)
  nextCtx : Nat
  deriving DecidableEq, Repr

/-- A port (spec/14 R355): whether its link is up, and its session's count. -/
structure Port where
  up : Bool
  session : Nat
  deriving DecidableEq, Repr

/-- The security engine (spec/14 R368 to R375): debug state, the ports open, how often the nonce was renewed, the mailbox, the token that
was accepted, measurement 4, and how often the SPDM, IDE and link session keys were wiped. -/
structure Security where
  dstate : Nat
  scope : Nat
  nonce : Nat
  mailbox : List Byte
  token : List Byte
  debugMeas : List Byte
  wipes : Nat
  /-- Images that the firmware has booted from: one for each reset (measurement 2). -/
  image : Nat
  deriving DecidableEq, Repr

/-- The batch that the step has put at issue. -/
structure Issue where
  gang : Nat
  skein : Nat
  slots : List Nat
  deriving DecidableEq, Repr

/-- Which agent moves next (notes/assumptions/1): a step of the machine around the cores, the issue of a skein, a
write that the host or a peer makes to its own memory, a line's write-back, or a part of an operation before the rest of it. -/
inductive Action where
  | event (i : Instr)
  | issue (gang skein : Nat)
  | hostWrite (addr : Nat) (bytes : List Byte)
  | peerWrite (id addr : Nat) (bytes : List Byte)
  /-- A dirty line of a cluster's cache, or of a stake core's private one, goes on to where other agents see it (spec/05 R127). -/
  | clean (cluster line world : Nat)
  | cleanPrivate (core line world : Nat)
  /-- A line leaves an instruction cache: a core's, or with none the cluster's. -/
  | dropCode (cluster : Nat) (core : Option Nat) (line world : Nat)
  /-- One part of a load or store of several is performed before the others (spec/05 R109, R110). -/
  | piece (op : EntryId) (slot part : Nat)
  /-- A store comes into its cluster's cache before it is performed at its own, wider scope (spec/05 R135). -/
  | near (op : EntryId) (slot : Nat)
  /-- A cluster comes to see a write to host or peer memory (spec/05 R128). -/
  | see (write cluster : Nat)
  /-- A unit of the layout record of the command that starts next is read before the rest of it (spec/20 R435). -/
  | unit (cluster : Nat)
  /-- The burst under way on a channel lands at one receiver before the others; its stamp follows its last one (spec/10 R281, spec/05 R140). -/
  | land (cluster channel receiver : Nat)
  /-- The routing table's entry of an id, or a partition's `NumVFs`, written: spec/ gives neither a place (spec/14 R355, R365). -/
  | route (id : Nat) (ports : List Nat)
  | numVfs (partition n : Nat)
  deriving DecidableEq, Repr

/-- The device, and what it can reach. -/
structure State where
  /-- The model's own: steps taken, free values drawn, next unused key, who moves next, the batch at issue. -/
  ticks : Nat
  free : Nat
  nextKey : Nat
  agenda : List Action
  issue : Option Issue
  /-- Nanoseconds since power-on (spec/03 R71, through free increments). -/
  clock : Nat
  /-- Hard partitions now: 1, 2 or 4 (spec/01 R21). -/
  partitions : Nat
  devw : Nat
  /-- Firmware: 0 not booted, 1 booted, 2 recovery function set (spec/01 R28), 3 off: PS3 (R19). -/
  boot : Nat
  fabricId : Nat
  parts : Tbl Partition
  worlds : Tbl World
  ctxs : List Context
  grids : List Grid
  gangs : List Gang
  clusters : Tbl Cluster
  /-- By core number (spec/01 R13); the handle core of cluster c is 512 + c. -/
  cores : Tbl Core
  clocks : Tbl Nat
  mem : Memory
  owners : Tbl Owner
  poisoned : List Nat
  host : Memory
  peers : Tbl Memory
  /-- Writes to those that not every cluster sees yet, the newest first (spec/05 R128). -/
  far : List FarWrite
  tlb : List TlbEntry
  ats : List AtsEntry
  tags : List TagEntry
  ports : Tbl Port
  /-- Peers that a partition cannot reach: 2^20 partition + id (spec/21 R453). -/
  unreachable : List Nat
  security : Security
  /-- Interrupts raised: world and vector. -/
  msix : List (Nat × Nat)
  /-- Answers given to requests from the ports: port, status, bytes. -/
  answers : List (Nat × Nat × List Byte)
  deriving DecidableEq, Repr

/-! ## Reset -/

/-- A trace unit's registers after reset (spec/15 R381; notes/assumptions/8). -/
def TraceRegs.reset : TraceRegs := ⟨0, 0, 0, 0, 0, 0, 0, []⟩

/-- A command queue after reset (spec/12 R309; `CSN` starts at 1, spec/02 R52). -/
def Queue.reset : Queue := ⟨0, 0, 0, 0, 1, [], none, none⟩

/-- A bounce channel after reset (notes/assumptions/8). -/
def Bounce.reset : Bounce := ⟨0, 0, 0, 0, none, 0, false, 0, 0⟩

/-- A world after reset: `FEATMSK` all ones (spec/11 R307), every other register 0 (notes/assumptions/8), the interface
in CONFIG_UNLOCKED (notes/assumptions/9). -/
def World.reset : World :=
  { queues := [], fhvec := 0, frbase := 0, frctl := 0, frlost := 0, fridx := 0, loss := false, cswout := 0,
    cswin := 0, cswcl := 0, cswst := 0, cswbusy := false, cswbegun := false, bounce := [], haprod := 0, havec := 0, trace := [],
    key := 0, modelKey := none, tdisp := .unlocked, banklim := 0, featmsk := BitVec.ofNat 64 (2 ^ 64 - 1),
    parkbase := 0, haq := 0, wcfg := 0, wpasid := 0, ordchk := 0, ordlen := 0, rlog := 0, rlcap := 0,
    frozen := false, held := [], heldReported := false, roster := none }

/-- A bank after reset: cache mode (notes/assumptions/10). -/
def Bank.reset : Bank := ⟨.cache, 0, [], [], false, none, false, false, []⟩

/-- A cluster after reset: empty; handle threads' `CSN` 1 (spec/02 R51). -/
def Cluster.reset : Cluster :=
  { banks := [], scratch := [], scratchPoison := [], cache := [], code := [], weave := [], bindings := [],
    doc := [], events := [], held := [], copyWait := [], channels := [], packetProg := [], forwards := [],
    trace := ⟨.reset, 0, 0, false⟩, local_ := [], csns := [1, 1, 1, 1, 1, 1, 1, 1],
    watch := [(0, 0), (0, 0), (0, 0), (0, 0)], switches := [], idle := false, turns := [] }

/-- An empty stationary slot. -/
def StatSlot.reset : StatSlot := ⟨none, 0, none⟩

/-- A core after reset: counters 0 (spec/15 R377), slots empty. -/
def Core.reset : Core := ⟨[], [], [.reset, .reset, .reset, .reset], [], [], [], 0, 0, [], 0, [], []⟩

/-- No checkpoint. -/
def Checkpoint.reset : Checkpoint := ⟨0, 0, false, [], 0, 0, [], [], [], [], [], [], false, [], 0, 0, false⟩

/-- A partition after reset; `shareW` is its share of `DEVW` (spec/01 R20), `FABTMO` as spec/21 R452 gives it. -/
def Partition.reset (shareW : Nat) : Partition :=
  { pnext := 0, sharew := shareW, psref := false, pscur := 0, psexit := false, psheld := [], psbells := [], dutycfg := 0, migdis := false, fwdlate := 0, xinv := 0,
    xinvBusy := false, eiscfg := 0, wvhaddr := 0, wvhctl := 0, wfreeze := 0, ckptcfg := 0, ckptshd := 0,
    ckpttgt := 0, ckptadr := 0, ckpt := .reset, ecc := 0, eccLast := 0,
    fabtmo := BitVec.ofNat 64 (20 * 2 ^ 24 + 10000), ctrsel := 0, routing := [], numvfs := 0, clock0 := 0, slots0 := 0,
    pageReqs := [], atsReqs := [], invals := [], ordHist := [], ordClocks := [], nextCtx := 0 }

/-- The debug unit after a cold reset (spec/14 R375; notes/assumptions/8). -/
def Security.reset : Security := ⟨0, 0, 0, List.replicate 128 0, [], List.replicate 32 0, 0, 0⟩

/-- The device right after a cold reset (spec/01 R26): one partition, nothing booted, nothing resident, memory with
nothing listed. -/
def State.reset : State :=
  { ticks := 0, free := 0, nextKey := 1, agenda := [], issue := none, clock := 0, partitions := 1, devw := 3200,
    boot := 0, fabricId := 0, parts := [(0, .reset 3200)], worlds := [], ctxs := [], grids := [], gangs := [],
    clusters := [], cores := [], clocks := [], mem := [], owners := [], poisoned := [], host := [], peers := [], far := [],
    tlb := [], ats := [], tags := [], ports := [], unreachable := [], security := .reset, msix := [],
    answers := [] }

end Sys2Proof.Machine
end

