-- ==== Sys2Proof/Machine/Store.lean ====
section
/-! DEFINITION. Tables, bytes of memory, and the parts of the state by number. -/

namespace Sys2Proof.Machine

/-! ## Tables -/

/-- The entry with a number. -/
def tget {α : Type} : Tbl α → Nat → Option α
  | [], _ => none
  | (k, v) :: r, n => if k = n then some v else tget r n

/-- The table with one entry written, kept in order. -/
def tset {α : Type} : Tbl α → Nat → α → Tbl α
  | [], n, x => [(n, x)]
  | (k, v) :: r, n, x =>
    if n < k then (n, x) :: (k, v) :: r
    else if n = k then (n, x) :: r
    else (k, v) :: tset r n x

/-- The table without an entry. -/
def tdel {α : Type} : Tbl α → Nat → Tbl α
  | [], _ => []
  | (k, v) :: r, n => if k = n then r else (k, v) :: tdel r n

/-! ## Bytes -/

/-- One byte; an unlisted address reads 0 (notes/assumptions/4). -/
def Memory.read (m : Memory) (a : Nat) : Byte := (tget m a).getD 0

/-- One byte written, in canonical form. -/
def Memory.write : Memory → Nat → Byte → Memory
  | [], a, b => if b = 0 then [] else [(a, b)]
  | (x, y) :: r, a, b =>
    if a < x then (if b = 0 then (x, y) :: r else (a, b) :: (x, y) :: r)
    else if a = x then (if b = 0 then r else (a, b) :: r)
    else (x, y) :: Memory.write r a b

/-- n bytes from an address. -/
def Memory.readBytes (m : Memory) (a n : Nat) : List Byte := (rangeFrom a n).map m.read

/-- Bytes written from an address on. -/
def Memory.writeBytes (m : Memory) (a : Nat) : List Byte → Memory
  | [] => m
  | b :: r => Memory.writeBytes (m.write a b) (a + 1) r

/-- Bytes of an address range removed (reading 0). -/
def Memory.clear (m : Memory) (a n : Nat) : Memory := m.filter (fun c => !(a ≤ c.1 && c.1 < a + n))

/-- Every address listed lies above a bound, rising strictly, and no byte listed is 0. -/
def Memory.wfFrom : Nat → Memory → Bool
  | _, [] => true
  | lo, (a, b) :: r => lo ≤ a && b != 0 && Memory.wfFrom (a + 1) r

/-- The canonical form. -/
def Memory.wf (m : Memory) : Bool := Memory.wfFrom 0 m

/-! ## Parts of the state by number -/

def State.world (s : State) (w : Nat) : World := (tget s.worlds w).getD .reset
def State.setWorld (s : State) (w : Nat) (x : World) : State := { s with worlds := tset s.worlds w x }
def State.modWorld (s : State) (w : Nat) (f : World → World) : State := s.setWorld w (f (s.world w))

def State.cluster (s : State) (c : Nat) : Cluster := (tget s.clusters c).getD .reset
def State.setCluster (s : State) (c : Nat) (x : Cluster) : State := { s with clusters := tset s.clusters c x }
def State.modCluster (s : State) (c : Nat) (f : Cluster → Cluster) : State := s.setCluster c (f (s.cluster c))

def State.core (s : State) (c : Nat) : Core := (tget s.cores c).getD .reset
def State.setCore (s : State) (c : Nat) (x : Core) : State := { s with cores := tset s.cores c x }
def State.modCore (s : State) (c : Nat) (f : Core → Core) : State := s.setCore c (f (s.core c))

def State.part (s : State) (p : Nat) : Partition := (tget s.parts p).getD (.reset (s.devw / s.partitions))
def State.setPart (s : State) (p : Nat) (x : Partition) : State := { s with parts := tset s.parts p x }
def State.modPart (s : State) (p : Nat) (f : Partition → Partition) : State := s.setPart p (f (s.part p))

/-- The partition of a world (spec/14 R356). -/
def partOfWorld (w : Nat) : Nat := w / 64

/-- The partition of a cluster (spec/01 R10, R21). -/
def State.partOfCluster (s : State) (c : Nat) : Nat := c / (32 / s.partitions)

/-- The clusters of a partition. -/
def State.clustersOf (s : State) (p : Nat) : List Nat := rangeFrom (p * (32 / s.partitions)) (32 / s.partitions)

/-- The device-wide number of a core (spec/01 R13). -/
def coreNumber (cluster index : Nat) : Nat := if index < 12 then 12 * cluster + index else 384 + 4 * cluster + (index - 12)

/-- The number of a gang's core; handle cores have none in spec/ (R13) and are numbered from 512 on. -/
def Gang.coreNo (g : Gang) : Nat := if g.kind = .handle then 512 + g.cluster else coreNumber g.cluster g.core

/-- The skein is in a compaction move (spec/12 R322). -/
def State.compacting (s : State) (g : Gang) (sk : Skein) : Bool := decide ((s.core g.coreNo).clocks < sk.moving)

/-- The kind of a core index. -/
def kindOfIndex (i : Nat) : CoreKind := if i < 12 then .rand else if i < 16 then .stake else .handle

/-- A gang in a list, by key. -/
def findGang : List Gang → Nat → Option Gang
  | [], _ => none
  | g :: r, k => if g.key = k then some g else findGang r k

/-- The gang with a key replaced. -/
def putGang : List Gang → Gang → List Gang
  | [], _ => []
  | h :: r, g => if h.key = g.key then g :: r else h :: putGang r g

def State.gang (s : State) (k : Nat) : Option Gang := findGang s.gangs k
def State.setGang (s : State) (g : Gang) : State := { s with gangs := putGang s.gangs g }
def State.modGang (s : State) (k : Nat) (f : Gang → Gang) : State :=
  match s.gang k with
  | some g => s.setGang { f g with key := k }
  | none => s

def State.skein (s : State) (g k : Nat) : Option Skein := (s.gang g).bind fun x => x.skeins[k]?
def Gang.modSkein (g : Gang) (k : Nat) (f : Skein → Skein) : Gang := { g with skeins := modifyAt g.skeins k f }
def State.modSkein (s : State) (g k : Nat) (f : Skein → Skein) : State := s.modGang g (fun x => x.modSkein k f)

/-- The fibre in a slot. -/
def Skein.fibre (sk : Skein) (slot : Nat) : Option Fibre := (sk.slots[slot]?).join
def Skein.setFibre (sk : Skein) (slot : Nat) (f : Option Fibre) : Skein := { sk with slots := setAt sk.slots slot f }
def State.setFibre (s : State) (g k slot : Nat) (f : Option Fibre) : State := s.modSkein g k (fun x => x.setFibre slot f)

/-- The live fibres of a skein with their slots, in slot order. -/
def liveFrom : Nat → List (Option Fibre) → List (Nat × Fibre)
  | _, [] => []
  | n, none :: r => liveFrom (n + 1) r
  | n, some f :: r => (n, f) :: liveFrom (n + 1) r

def Skein.live (sk : Skein) : List (Nat × Fibre) := liveFrom 0 sk.slots

/-- Every fibre of a skein changed. -/
def Skein.mapFibres (sk : Skein) (f : Nat → Fibre → Fibre) : Skein :=
  { sk with slots := sk.slots.zipIdx.map (fun x => x.1.map (f x.2)) }

/-- Some fibre of the gang is live. -/
def Gang.anyLive (g : Gang) : Bool := g.skeins.any (fun k => !k.live.isEmpty)

def findCtx : List Context → Nat → Option Context
  | [], _ => none
  | c :: r, k => if c.key = k then some c else findCtx r k

def State.ctx (s : State) (k : Nat) : Option Context := findCtx s.ctxs k
def State.modCtx (s : State) (k : Nat) (f : Context → Context) : State :=
  { s with ctxs := s.ctxs.map (fun c => if c.key = k then f c else c) }

def findGrid : List Grid → Nat → Option Grid
  | [], _ => none
  | g :: r, k => if g.key = k then some g else findGrid r k

def State.grid (s : State) (k : Nat) : Option Grid := findGrid s.grids k
def State.modGrid (s : State) (k : Nat) (f : Grid → Grid) : State :=
  { s with grids := s.grids.map (fun g => if g.key = k then f g else g) }

def Cluster.bank (c : Cluster) (b : Nat) : Bank := (tget c.banks b).getD .reset
def Cluster.setBank (c : Cluster) (b : Nat) (x : Bank) : Cluster := { c with banks := tset c.banks b x }
def State.modBank (s : State) (c b : Nat) (f : Bank → Bank) : State :=
  s.modCluster c (fun x => x.setBank b (f (x.bank b)))

/-- The world of a context; 0 when there is none. -/
def State.worldOfCtx (s : State) (k : Nat) : Nat := ((s.ctx k).map (·.world)).getD 0

/-- The context in which a world's queues, rings and packets are translated: its first running one, or else its first
(notes/assumptions/31). -/
def State.worldCtx (s : State) (w : Nat) : Nat :=
  (((s.ctxs.find? fun c => c.world == w && c.st == .running).or (s.ctxs.find? fun c => c.world == w)).map (·.key)).getD 0

/-- Every gang: on a core, or saved with a context that was switched out. -/
def State.allGangs (s : State) : List Gang :=
  s.gangs ++ s.ctxs.flatMap fun c => c.saved.filter fun g => (findGang s.gangs g.key).isNone

/-- The world a gang runs in. -/
def State.worldOf (s : State) (g : Gang) : Nat := s.worldOfCtx g.ctx

/-- The feature vector a gang's context keeps (spec/11 R307); without a context, the device's. -/
def State.featvecOf (s : State) (g : Gang) : Nat := ((s.ctx g.ctx).map (·.featvec.toNat)).getD 0x103FF

/-- A fresh free value (notes/assumptions/7). -/
def State.draw (s : State) : State := { s with free := s.free + 1 }

/-- A fresh key. -/
def State.takeKey (s : State) : Nat × State := (s.nextKey, { s with nextKey := s.nextKey + 1 })

/-- MSI-X vectors of a function: a physical one, or a virtual one (spec/14 R357). -/
def vectorsOf (world : Nat) : Nat := if world % 64 = 0 then 2048 else 64

/-- An interrupt raised (spec/14 R357); a vector that the function does not have raises none (notes/assumptions/128). -/
def State.raise (s : State) (world vec : Nat) : State :=
  { s with msix := s.msix ++ if vec < vectorsOf world then [(world, vec)] else [] }

end Sys2Proof.Machine
end

