-- ==== Sys2Proof/Machine/Operands.lean ====
section
/-! DEFINITION. Registers of a fibre, operand groups, source modifiers and immediates (spec/03 R57 to R63, spec/06 R149
to R154, spec/07 R176). -/

namespace Sys2Proof.Machine

/-! ## Registers -/

/-- Registers a fibre's window can name on a core kind (spec/03 R57, spec/20 R430). -/
def kindRegs : CoreKind → Nat
  | .rand => 64 | .stake => 240 | .handle => 64

/-- `WSIZE` (spec/03 R59). -/
def Fibre.wsize (f : Fibre) : Nat := f.regs.length - f.wshift

/-- One register by field value (spec/03 R57); a register that does not exist reads 0 (no instruction that names one
passes stage 1).  v0 never reads a pair of 11, however its register came to hold one (R63; notes/assumptions/111). -/
def Fibre.rd (f : Fibre) (n : Nat) : W32 :=
  if n = 0 then BitVec.ofNat 32 (pwClean 16 (f.regs.getD f.wshift 0).toNat)
  else if n < 248 then f.regs.getD (f.wshift + n) 0
  else f.e.getD (n - 248) 0

/-- One register written; v0 stores each pair 11 as 10 (spec/03 R63).  A register written is no longer uncorrectable
(spec/19 R423); registers in `poison` are counted in the allocation, e-registers from 1248 on. -/
def Fibre.wr (f : Fibre) (n : Nat) (v : W32) : Fibre :=
  if n < 248 then
    { f with
      regs := setAt f.regs (f.wshift + n) (if n = 0 then BitVec.ofNat 32 (pwClean 16 v.toNat) else v)
      poison := f.poison.filter (· != f.wshift + n) }
  else { f with e := setAt f.e (n - 248) v, poison := f.poison.filter (· != n + 1000) }

/-- A group of consecutive registers, the lowest first. -/
def Fibre.rdGroup (f : Fibre) (n k : Nat) : List W32 := (rangeFrom n k).map f.rd

/-- The value of a group, the lowest register least significant (spec/03 R58). -/
def groupVal : List W32 → Nat
  | [] => 0
  | v :: r => v.toNat + 2 ^ 32 * groupVal r

/-- A value of k registers. -/
def Fibre.rdVal (f : Fibre) (n k : Nat) : Nat := groupVal (f.rdGroup n k)

/-- A value written to k registers from n on. -/
def Fibre.wrVal (f : Fibre) (n : Nat) : Nat → Nat → Fibre
  | 0, _ => f
  | k + 1, v => Fibre.wrVal (f.wr n (BitVec.ofNat 32 v)) (n + 1) k (v / 2 ^ 32)

/-- Words written to consecutive registers. -/
def Fibre.wrGroup (f : Fibre) (n : Nat) : List W32 → Fibre
  | [] => f
  | v :: r => Fibre.wrGroup (f.wr n v) (n + 1) r

/-- A pair as an address or mask. -/
def Fibre.pair (f : Fibre) (n : Nat) : W64 := BitVec.ofNat 64 (f.rdVal n 2)

/-- The predicate word. -/
def Fibre.pw (f : Fibre) : W32 := f.rd 0

/-- One predicate written. -/
def Fibre.wrPred (f : Fibre) (i : Nat) (t : Tri) : Fibre := f.wr 0 (setPred f.pw i t)

/-! ## Operand groups (spec/03 R57, R58, spec/20 R430) -/

/-- An operand group: first register, registers, the alignment of the field value, whether it is read, and whether the batch's lowest fibre
supplies it to all (`UB`, `UA`; spec/02 R37). -/
structure Group where
  reg : Nat
  n : Nat
  align : Nat
  src : Bool
  low : Bool
  deriving DecidableEq, Repr

/-- A source register, pair or quad. -/
def srcG (n : Nat) (r : Reg) : Group := ⟨r.toNat, n, n, true, false⟩
/-- A source that the batch's lowest fibre may supply. -/
def srcL (low : Bool) (n : Nat) (r : Reg) : Group := ⟨r.toNat, n, n, true, low⟩
/-- A destination register, pair or quad. -/
def dstG (n : Nat) (r : Reg) : Group := ⟨r.toNat, n, n, false, false⟩
/-- The predicate word. -/
def pwG : Group := ⟨0, 1, 1, true, false⟩

/-- The group exists on the core kind, in a window of the size given, and is aligned. -/
def Group.ok (g : Group) (kind : CoreKind) (wsize : Nat) : Bool :=
  g.reg % g.align == 0 &&
    (if g.reg < 248 then g.reg + g.n ≤ min (kindRegs kind) wsize else g.reg + g.n ≤ 256)

/-- The registers of a group. -/
def Group.regs (g : Group) : List Nat := rangeFrom g.reg g.n

/-! ## Widths of types -/

/-- Bits of a type of class I. -/
def intBits : IntTy → Nat
  | .s32 | .n32 => 32
  | .s64 | .n64 => 64

def bitBits : BitTy → Nat
  | .b32 => 32 | .b64 => 64

def fFmt : FTy → FloatFmt
  | .f32 => fmtF32 | .f64 => fmtF64 | .f16 => fmtF16 | .bf16 => fmtBf16

def ivFmt : IvTy → FloatFmt
  | .f32 => fmtF32 | .f64 => fmtF64

def hFmt : HTy → FloatFmt
  | .f16 => fmtF16 | .bf16 => fmtBf16

/-- Registers that a value of the format takes. -/
def fmtRegs (f : FloatFmt) : Nat := if f.fbits = 52 then 2 else 1

/-! ## Immediates (spec/06 R153) -/

/-- `IMM24` sign-extended. -/
def immSigned (i : BitVec 24) : Int := i.toInt

/-- The immediate of class I as an n-bit pattern. -/
def immInt (ty : IntTy) (i : BitVec 24) : Nat :=
  match ty with
  | .s32 => wrapInt 32 (immSigned i)
  | .s64 => wrapInt 64 (immSigned i)
  | .n32 | .n64 => i.toNat

/-- The immediate of class F. -/
def immFloat (f : FloatFmt) (i : BitVec 24) : Nat :=
  if f.fbits = 52 then i.toNat * 2 ^ 40 else if f.fbits = 23 then i.toNat * 2 ^ 8 else i.toNat % 65536

/-! ## Source modifiers (spec/06 R150) -/

/-- Absolute value, then negation, of a float pattern: the sign bit alone. -/
def modFloat (f : FloatFmt) (neg abs : Bool) (n : Nat) : Nat :=
  let mag := n % 2 ^ f.magBits
  let sg := bitOf n f.magBits && !abs
  f.withSign (sg != neg) mag

/-- Absolute value (of an s type), then negation, of an integer pattern of n bits. -/
def modInt (n : Nat) (neg abs : Bool) (v : Nat) : Nat :=
  let a := if abs && 2 ^ (n - 1) ≤ v then (2 ^ n - v) % 2 ^ n else v
  if neg then (2 ^ n - a) % 2 ^ n else a

/-- A pattern of class I as an exact integer. -/
def intVal (ty : IntTy) (v : Nat) : Int :=
  match ty with
  | .s32 => toSigned 32 v
  | .s64 => toSigned 64 v
  | .n32 | .n64 => v

/-- Least and greatest value of a type. -/
def intMin : IntTy → Int
  | .s32 => -(2 ^ 31) | .s64 => -(2 ^ 63) | .n32 | .n64 => 0
def intMax : IntTy → Int
  | .s32 => 2 ^ 31 - 1 | .s64 => 2 ^ 63 - 1 | .n32 => 2 ^ 32 - 1 | .n64 => 2 ^ 64 - 1

/-- Finish of class I: saturate or wrap (spec/06 R151). -/
def finishInt (ty : IntTy) (clamp : Bool) (x : Int) : Nat :=
  wrapInt (intBits ty) (if clamp then max (intMin ty) (min (intMax ty) x) else x)

/-- `SCALE` as an exponent (spec/06 R148). -/
def scaleExp (s : BitVec 3) : Int := s.toInt

end Sys2Proof.Machine
end

