-- ==== Sys2Proof/Machine/Needs.lean ====
section
/-! DEFINITION. What the checks before an instruction's effect need of its word: guard, operand groups, core kinds,
feature and stationary slot field (spec/20 R426 stage 1, R429, R430). -/

namespace Sys2Proof.Machine

/-- What stage 1 and the scoreboard need of a word.  `kinds`: bit 0 rand, bit 1 stake, bit 2 handle; `firmware`: on
handle threads 0 and 1 only; `feat`: the `FEATVEC` bit of the feature it uses; `slot`: its stationary slot field. -/
structure Need where
  h : Hdr
  groups : List Group
  kinds : Nat
  firmware : Bool
  feat : Option Nat
  slot : Option Nat
  deriving DecidableEq, Repr

/-- A step that is no instruction word needs nothing. -/
def Need.none_ : Need := ⟨⟨true, ⟨.always, 0⟩⟩, [], 7, false, none, none⟩

/-- Registers of a value of a format code (spec/04 R72). -/
def codeRegs (c : Nat) : Nat := if c = 1 ∨ c = 9 ∨ c = 10 then 2 else 1

/-- Registers of the `AROW` group by the field `M` (spec/10 R264). -/
def rowRegs (m : Nat) : Nat := 2 ^ m

/-- The core kinds that reach a space (spec/05 R98). -/
def spaceKinds : Space → Nat
  | .localMem => 4
  | _ => 7

/-- The index register; field 0 means none (spec/06 R155). -/
def indexGroup (f : MF) : List Group := if f.index = 0 then [] else [srcL f.ua 1 f.index]

/-- Registers of `DATA` by `SIZE` (spec/06 R156). -/
def sizeRegs (size : BitVec 3) : Nat := if size = 4 then 4 else if size = 3 then 2 else 1

/-- What a word needs. -/
def needOf : Instr → Need
  | .iadd ty f => ⟨f.h, [dstG (intBits ty / 32) f.dst, srcG (intBits ty / 32) f.sa, srcL f.ub (intBits ty / 32) f.sb], 7, false, none, none⟩
  | .iaddImm ty f => ⟨f.h, [dstG (intBits ty / 32) f.dst, srcG (intBits ty / 32) f.sa], 7, false, none, none⟩
  | .isub ty f => ⟨f.h, [dstG (intBits ty / 32) f.dst, srcG (intBits ty / 32) f.sa, srcL f.ub (intBits ty / 32) f.sb], 7, false, none, none⟩
  | .isubImm ty f => ⟨f.h, [dstG (intBits ty / 32) f.dst, srcG (intBits ty / 32) f.sa], 7, false, none, none⟩
  | .imul ty f => ⟨f.h, [dstG (intBits ty / 32) f.dst, srcG (intBits ty / 32) f.sa, srcL f.ub (intBits ty / 32) f.sb], 7, false, none, none⟩
  | .imulImm ty f => ⟨f.h, [dstG (intBits ty / 32) f.dst, srcG (intBits ty / 32) f.sa], 7, false, none, none⟩
  | .imulh ty f => ⟨f.h, [dstG (intBits ty / 32) f.dst, srcG (intBits ty / 32) f.sa, srcL f.ub (intBits ty / 32) f.sb], 7, false, none, none⟩
  | .imulhImm ty f => ⟨f.h, [dstG (intBits ty / 32) f.dst, srcG (intBits ty / 32) f.sa], 7, false, none, none⟩
  | .imad ty f => ⟨f.h, [dstG (intBits ty / 32) f.dst, srcG (intBits ty / 32) f.sa, srcL f.ub (intBits ty / 32) f.sb, srcG (intBits ty / 32) f.sc], 7, false, none, none⟩
  | .imadImm ty f => ⟨f.h, [dstG (intBits ty / 32) f.dst, srcG (intBits ty / 32) f.dst, srcG (intBits ty / 32) f.sa], 7, false, none, none⟩
  | .imadw _ f => ⟨f.h, [dstG 2 f.dst, srcG 1 f.sa, srcL f.ub 1 f.sb, srcG 2 f.sc], 7, false, none, none⟩
  | .idiv ty f => ⟨f.h, [dstG (intBits ty / 32) f.dst, srcG (intBits ty / 32) f.sa, srcL f.ub (intBits ty / 32) f.sb], 7, false, none, none⟩
  | .idivImm ty f => ⟨f.h, [dstG (intBits ty / 32) f.dst, srcG (intBits ty / 32) f.sa], 7, false, none, none⟩
  | .irem ty f => ⟨f.h, [dstG (intBits ty / 32) f.dst, srcG (intBits ty / 32) f.sa, srcL f.ub (intBits ty / 32) f.sb], 7, false, none, none⟩
  | .iremImm ty f => ⟨f.h, [dstG (intBits ty / 32) f.dst, srcG (intBits ty / 32) f.sa], 7, false, none, none⟩
  | .imin ty f => ⟨f.h, [dstG (intBits ty / 32) f.dst, srcG (intBits ty / 32) f.sa, srcL f.ub (intBits ty / 32) f.sb], 7, false, none, none⟩
  | .iminImm ty f => ⟨f.h, [dstG (intBits ty / 32) f.dst, srcG (intBits ty / 32) f.sa], 7, false, none, none⟩
  | .imax ty f => ⟨f.h, [dstG (intBits ty / 32) f.dst, srcG (intBits ty / 32) f.sa, srcL f.ub (intBits ty / 32) f.sb], 7, false, none, none⟩
  | .imaxImm ty f => ⟨f.h, [dstG (intBits ty / 32) f.dst, srcG (intBits ty / 32) f.sa], 7, false, none, none⟩
  | .lea ty f => ⟨f.h, [dstG (intBits ty / 32) f.dst, srcG (intBits ty / 32) f.sa, srcL f.ub 1 f.sb], 7, false, none, none⟩
  | .leaImm ty f => ⟨f.h, [dstG (intBits ty / 32) f.dst, srcG (intBits ty / 32) f.sa], 7, false, none, none⟩
  | .icmp ty f => ⟨f.h, [srcG (intBits ty / 32) f.sa, srcL f.ub (intBits ty / 32) f.sb, pwG], 7, false, none, none⟩
  | .icmpImm ty f => ⟨f.h, [srcG (intBits ty / 32) f.sa, pwG], 7, false, none, none⟩
  | .and ty f => ⟨f.h, [dstG (bitBits ty / 32) f.dst, srcG (bitBits ty / 32) f.sa, srcL f.ub (bitBits ty / 32) f.sb], 7, false, none, none⟩
  | .andImm ty f => ⟨f.h, [dstG (bitBits ty / 32) f.dst, srcG (bitBits ty / 32) f.sa], 7, false, none, none⟩
  | .or ty f => ⟨f.h, [dstG (bitBits ty / 32) f.dst, srcG (bitBits ty / 32) f.sa, srcL f.ub (bitBits ty / 32) f.sb], 7, false, none, none⟩
  | .orImm ty f => ⟨f.h, [dstG (bitBits ty / 32) f.dst, srcG (bitBits ty / 32) f.sa], 7, false, none, none⟩
  | .xor ty f => ⟨f.h, [dstG (bitBits ty / 32) f.dst, srcG (bitBits ty / 32) f.sa, srcL f.ub (bitBits ty / 32) f.sb], 7, false, none, none⟩
  | .xorImm ty f => ⟨f.h, [dstG (bitBits ty / 32) f.dst, srcG (bitBits ty / 32) f.sa], 7, false, none, none⟩
  | .andn ty f => ⟨f.h, [dstG (bitBits ty / 32) f.dst, srcG (bitBits ty / 32) f.sa, srcL f.ub (bitBits ty / 32) f.sb], 7, false, none, none⟩
  | .andnImm ty f => ⟨f.h, [dstG (bitBits ty / 32) f.dst, srcG (bitBits ty / 32) f.sa], 7, false, none, none⟩
  | .orn ty f => ⟨f.h, [dstG (bitBits ty / 32) f.dst, srcG (bitBits ty / 32) f.sa, srcL f.ub (bitBits ty / 32) f.sb], 7, false, none, none⟩
  | .ornImm ty f => ⟨f.h, [dstG (bitBits ty / 32) f.dst, srcG (bitBits ty / 32) f.sa], 7, false, none, none⟩
  | .shl ty f => ⟨f.h, [dstG (bitBits ty / 32) f.dst, srcG (bitBits ty / 32) f.sa, srcL f.ub 1 f.sb], 7, false, none, none⟩
  | .shlImm ty f => ⟨f.h, [dstG (bitBits ty / 32) f.dst, srcG (bitBits ty / 32) f.sa], 7, false, none, none⟩
  | .shr ty f => ⟨f.h, [dstG (bitBits ty / 32) f.dst, srcG (bitBits ty / 32) f.sa, srcL f.ub 1 f.sb], 7, false, none, none⟩
  | .shrImm ty f => ⟨f.h, [dstG (bitBits ty / 32) f.dst, srcG (bitBits ty / 32) f.sa], 7, false, none, none⟩
  | .sar ty f => ⟨f.h, [dstG (bitBits ty / 32) f.dst, srcG (bitBits ty / 32) f.sa, srcL f.ub 1 f.sb], 7, false, none, none⟩
  | .sarImm ty f => ⟨f.h, [dstG (bitBits ty / 32) f.dst, srcG (bitBits ty / 32) f.sa], 7, false, none, none⟩
  | .rotl ty f => ⟨f.h, [dstG (bitBits ty / 32) f.dst, srcG (bitBits ty / 32) f.sa, srcL f.ub 1 f.sb], 7, false, none, none⟩
  | .rotlImm ty f => ⟨f.h, [dstG (bitBits ty / 32) f.dst, srcG (bitBits ty / 32) f.sa], 7, false, none, none⟩
  | .fshl ty f => ⟨f.h, [dstG (bitBits ty / 32) f.dst, srcG (bitBits ty / 32) f.sa, srcL f.ub (bitBits ty / 32) f.sb, srcG 1 f.sc], 7, false, none, none⟩
  | .bfx ty f => ⟨f.h, [dstG (bitBits ty / 32) f.dst, srcG (bitBits ty / 32) f.sa, srcL f.ub 1 f.sb], 7, false, none, none⟩
  | .bfxImm ty f => ⟨f.h, [dstG (bitBits ty / 32) f.dst, srcG (bitBits ty / 32) f.sa], 7, false, none, none⟩
  | .bfi ty f => ⟨f.h, [dstG (bitBits ty / 32) f.dst, srcG (bitBits ty / 32) f.sa, srcL f.ub 1 f.sb, srcG (bitBits ty / 32) f.sc], 7, false, none, none⟩
  | .bfiImm ty f => ⟨f.h, [dstG (bitBits ty / 32) f.dst, srcG (bitBits ty / 32) f.dst, srcG (bitBits ty / 32) f.sa], 7, false, none, none⟩
  | .popc ty f => ⟨f.h, [dstG 1 f.dst, srcG (bitBits ty / 32) f.sa], 7, false, none, none⟩
  | .clz ty f => ⟨f.h, [dstG 1 f.dst, srcG (bitBits ty / 32) f.sa], 7, false, none, none⟩
  | .ctz ty f => ⟨f.h, [dstG 1 f.dst, srcG (bitBits ty / 32) f.sa], 7, false, none, none⟩
  | .brev ty f => ⟨f.h, [dstG (bitBits ty / 32) f.dst, srcG (bitBits ty / 32) f.sa], 7, false, none, none⟩
  | .bperm ty f => ⟨f.h, [dstG (bitBits ty / 32) f.dst, srcG (bitBits ty / 32) f.sa, srcL f.ub 1 f.sb], 7, false, none, none⟩
  | .bpermImm ty f => ⟨f.h, [dstG (bitBits ty / 32) f.dst, srcG (bitBits ty / 32) f.sa], 7, false, none, none⟩
  | .mov ty f => ⟨f.h, [dstG (intBits ty / 32) f.dst, srcG (intBits ty / 32) f.sa], 7, false, none, none⟩
  | .movImm ty f => ⟨f.h, [dstG (intBits ty / 32) f.dst], 7, false, none, none⟩
  | .movh _ f => ⟨f.h, [dstG 1 f.dst, srcG 1 f.dst], 7, false, none, none⟩
  | .sel3 ty f => ⟨f.h, [dstG (bitBits ty / 32) f.dst, srcG (bitBits ty / 32) f.dst, srcG (bitBits ty / 32) f.sa, srcL f.ub (bitBits ty / 32) f.sb, pwG], 7, false, none, none⟩
  | .fadd ty f => ⟨f.h, [dstG (fmtRegs (fFmt ty) * (if f.i then 2 else 1)) f.dst, srcG (fmtRegs (fFmt ty) * (if f.i then 2 else 1)) f.sa, srcL f.ub (fmtRegs (fFmt ty) * (if f.i then 2 else 1)) f.sb], 7, false, (if f.i then some 0 else none), none⟩
  | .faddImm ty f => ⟨f.h, [dstG (fmtRegs (fFmt ty) * (if f.i then 2 else 1)) f.dst, srcG (fmtRegs (fFmt ty) * (if f.i then 2 else 1)) f.sa], 7, false, (if f.i then some 0 else none), none⟩
  | .fmul ty f => ⟨f.h, [dstG (fmtRegs (fFmt ty) * (if f.i then 2 else 1)) f.dst, srcG (fmtRegs (fFmt ty) * (if f.i then 2 else 1)) f.sa, srcL f.ub (fmtRegs (fFmt ty) * (if f.i then 2 else 1)) f.sb], 7, false, (if f.i then some 0 else none), none⟩
  | .fmulImm ty f => ⟨f.h, [dstG (fmtRegs (fFmt ty) * (if f.i then 2 else 1)) f.dst, srcG (fmtRegs (fFmt ty) * (if f.i then 2 else 1)) f.sa], 7, false, (if f.i then some 0 else none), none⟩
  | .ffma ty f => ⟨f.h, [dstG (fmtRegs (fFmt ty) * (if f.i then 2 else 1)) f.dst, srcG (fmtRegs (fFmt ty) * (if f.i then 2 else 1)) f.sa, srcL f.ub (fmtRegs (fFmt ty) * (if f.i then 2 else 1)) f.sb, srcG (fmtRegs (fFmt ty) * (if f.i then 2 else 1)) f.sc], 7, false, (if f.i then some 0 else none), none⟩
  | .ffmaImm ty f => ⟨f.h, [dstG (fmtRegs (fFmt ty) * (if f.i then 2 else 1)) f.dst, srcG (fmtRegs (fFmt ty) * (if f.i then 2 else 1)) f.dst, srcG (fmtRegs (fFmt ty) * (if f.i then 2 else 1)) f.sa], 7, false, (if f.i then some 0 else none), none⟩
  | .fmin ty f => ⟨f.h, [dstG (fmtRegs (fFmt ty) * (if f.i then 2 else 1)) f.dst, srcG (fmtRegs (fFmt ty) * (if f.i then 2 else 1)) f.sa, srcL f.ub (fmtRegs (fFmt ty) * (if f.i then 2 else 1)) f.sb], 7, false, (if f.i then some 0 else none), none⟩
  | .fminImm ty f => ⟨f.h, [dstG (fmtRegs (fFmt ty) * (if f.i then 2 else 1)) f.dst, srcG (fmtRegs (fFmt ty) * (if f.i then 2 else 1)) f.sa], 7, false, (if f.i then some 0 else none), none⟩
  | .fmax ty f => ⟨f.h, [dstG (fmtRegs (fFmt ty) * (if f.i then 2 else 1)) f.dst, srcG (fmtRegs (fFmt ty) * (if f.i then 2 else 1)) f.sa, srcL f.ub (fmtRegs (fFmt ty) * (if f.i then 2 else 1)) f.sb], 7, false, (if f.i then some 0 else none), none⟩
  | .fmaxImm ty f => ⟨f.h, [dstG (fmtRegs (fFmt ty) * (if f.i then 2 else 1)) f.dst, srcG (fmtRegs (fFmt ty) * (if f.i then 2 else 1)) f.sa], 7, false, (if f.i then some 0 else none), none⟩
  | .fdiv ty f => ⟨f.h, [dstG (fmtRegs (fFmt ty) * (if f.i then 2 else 1)) f.dst, srcG (fmtRegs (fFmt ty) * (if f.i then 2 else 1)) f.sa, srcL f.ub (fmtRegs (fFmt ty) * (if f.i then 2 else 1)) f.sb], 7, false, (if f.i then some 0 else none), none⟩
  | .fdivImm ty f => ⟨f.h, [dstG (fmtRegs (fFmt ty) * (if f.i then 2 else 1)) f.dst, srcG (fmtRegs (fFmt ty) * (if f.i then 2 else 1)) f.sa], 7, false, (if f.i then some 0 else none), none⟩
  | .fsqrt ty f => ⟨f.h, [dstG (fmtRegs (fFmt ty) * (if f.i then 2 else 1)) f.dst, srcG (fmtRegs (fFmt ty) * (if f.i then 2 else 1)) f.sa], 7, false, (if f.i then some 0 else none), none⟩
  | .frcp ty f => ⟨f.h, [dstG (fmtRegs (fFmt ty) * (if f.i then 2 else 1)) f.dst, srcG (fmtRegs (fFmt ty) * (if f.i then 2 else 1)) f.sa], 7, false, (if f.i then some 0 else none), none⟩
  | .frsq ty f => ⟨f.h, [dstG (fmtRegs (fFmt ty) * (if f.i then 2 else 1)) f.dst, srcG (fmtRegs (fFmt ty) * (if f.i then 2 else 1)) f.sa], 7, false, (if f.i then some 0 else none), none⟩
  | .fex2 ty f => ⟨f.h, [dstG (fmtRegs (fFmt ty) * (if f.i then 2 else 1)) f.dst, srcG (fmtRegs (fFmt ty) * (if f.i then 2 else 1)) f.sa], 7, false, (if f.i then some 0 else none), none⟩
  | .flg2 ty f => ⟨f.h, [dstG (fmtRegs (fFmt ty) * (if f.i then 2 else 1)) f.dst, srcG (fmtRegs (fFmt ty) * (if f.i then 2 else 1)) f.sa], 7, false, (if f.i then some 0 else none), none⟩
  | .fsinp ty f => ⟨f.h, [dstG (fmtRegs (fFmt ty) * (if f.i then 2 else 1)) f.dst, srcG (fmtRegs (fFmt ty) * (if f.i then 2 else 1)) f.sa], 7, false, (if f.i then some 0 else none), none⟩
  | .fcosp ty f => ⟨f.h, [dstG (fmtRegs (fFmt ty) * (if f.i then 2 else 1)) f.dst, srcG (fmtRegs (fFmt ty) * (if f.i then 2 else 1)) f.sa], 7, false, (if f.i then some 0 else none), none⟩
  | .frnd ty f => ⟨f.h, [dstG (fmtRegs (fFmt ty) * (if f.i then 2 else 1)) f.dst, srcG (fmtRegs (fFmt ty) * (if f.i then 2 else 1)) f.sa], 7, false, (if f.i then some 0 else none), none⟩
  | .fscale ty f => ⟨f.h, [dstG (fmtRegs (fFmt ty) * (if f.i then 2 else 1)) f.dst, srcG (fmtRegs (fFmt ty) * (if f.i then 2 else 1)) f.sa, srcL f.ub 1 f.sb], 7, false, (if f.i then some 0 else none), none⟩
  | .fscaleImm ty f => ⟨f.h, [dstG (fmtRegs (fFmt ty) * (if f.i then 2 else 1)) f.dst, srcG (fmtRegs (fFmt ty) * (if f.i then 2 else 1)) f.sa], 7, false, (if f.i then some 0 else none), none⟩
  | .fclass ty f => ⟨f.h, [dstG 1 f.dst, srcG (fmtRegs (fFmt ty)) f.sa], 7, false, none, none⟩
  | .fmant ty f => ⟨f.h, [dstG (fmtRegs (fFmt ty)) f.dst, srcG (fmtRegs (fFmt ty)) f.sa], 7, false, none, none⟩
  | .fexpo ty f => ⟨f.h, [dstG 1 f.dst, srcG (fmtRegs (fFmt ty)) f.sa], 7, false, none, none⟩
  | .fcmp ty f => ⟨f.h, [srcG (fmtRegs (fFmt ty) * (if f.i then 2 else 1)) f.sa, srcL f.ub (fmtRegs (fFmt ty) * (if f.i then 2 else 1)) f.sb, pwG], 7, false, (if f.i then some 0 else none), none⟩
  | .fcmpImm ty f => ⟨f.h, [srcG (fmtRegs (fFmt ty) * (if f.i then 2 else 1)) f.sa, pwG], 7, false, (if f.i then some 0 else none), none⟩
  | .cvt f => ⟨f.h, [dstG (codeRegs (f.sb.toNat / 16)) f.dst, srcG (codeRegs (f.sb.toNat % 16)) f.sa], 7, false, none, none⟩
  | .cvtb f => ⟨f.h, [dstG 1 f.dst, srcG (codeRegs (f.sb.toNat % 16)) f.sa], 7, false, (some 2), none⟩
  | .pack2 _ f => ⟨f.h, [dstG 1 f.dst, srcG 1 f.sa, srcL f.ub 1 f.sb], 7, false, none, none⟩
  | .unpk _ f => ⟨f.h, [dstG 1 f.dst, srcG 1 f.sa], 7, false, none, none⟩
  | .ivmk ty f => ⟨f.h, [dstG (if f.sc == 1 then 2 else 2 * (fmtRegs (ivFmt ty))) f.dst, srcG (if f.sc == 1 then 2 else (fmtRegs (ivFmt ty))) f.sa, srcL f.ub (if f.sc == 1 then 2 else (fmtRegs (ivFmt ty))) f.sb], 7, false, (some 0), none⟩
  | .ivmid ty f => ⟨f.h, [dstG (fmtRegs (ivFmt ty)) f.dst, srcG (2 * (fmtRegs (ivFmt ty))) f.sa], 7, false, (some 0), none⟩
  | .ivwid ty f => ⟨f.h, [dstG (fmtRegs (ivFmt ty)) f.dst, srcG (2 * (fmtRegs (ivFmt ty))) f.sa], 7, false, (some 0), none⟩
  | .ivhull ty f => ⟨f.h, [dstG (2 * (fmtRegs (ivFmt ty))) f.dst, srcG (2 * (fmtRegs (ivFmt ty))) f.sa, srcL f.ub (2 * (fmtRegs (ivFmt ty))) f.sb], 7, false, (some 0), none⟩
  | .ivisect ty f => ⟨f.h, [dstG (2 * (fmtRegs (ivFmt ty))) f.dst, srcG (2 * (fmtRegs (ivFmt ty))) f.sa, srcL f.ub (2 * (fmtRegs (ivFmt ty))) f.sb], 7, false, (some 0), none⟩
  | .ivsplit ty f => ⟨f.h, [dstG (2 * (fmtRegs (ivFmt ty))) f.dst, dstG (2 * (fmtRegs (ivFmt ty))) f.sb, srcG (2 * (fmtRegs (ivFmt ty))) f.sa], 7, false, (some 0), none⟩
  | .ivmag ty f => ⟨f.h, [dstG (fmtRegs (ivFmt ty)) f.dst, srcG (2 * (fmtRegs (ivFmt ty))) f.sa], 7, false, (some 0), none⟩
  | .ivmig ty f => ⟨f.h, [dstG (fmtRegs (ivFmt ty)) f.dst, srcG (2 * (fmtRegs (ivFmt ty))) f.sa], 7, false, (some 0), none⟩
  | .ld f => ⟨f.h, [dstG (sizeRegs f.size) f.data, srcL f.ua 2 f.base] ++ indexGroup f, (spaceKinds f.space), false, none, none⟩
  | .st f => ⟨f.h, [srcG (sizeRegs f.size) f.data, srcG 2 f.base] ++ indexGroup f, (spaceKinds f.space), false, none, none⟩
  | .ldiv f => ⟨f.h, [dstG (if f.size == 4 then 4 else 2) f.data, srcL f.ua 2 f.base] ++ indexGroup f, (spaceKinds f.space), false, none, none⟩
  | .stiv f => ⟨f.h, [srcG (if f.size == 4 then 4 else 2) f.data, srcG 2 f.base] ++ indexGroup f, (spaceKinds f.space), false, none, none⟩
  | .atom f => ⟨f.h, [dstG (sizeRegs f.size) f.data, srcG (sizeRegs f.size) f.data, srcG 2 f.base] ++ indexGroup f, (spaceKinds f.space), false, none, none⟩
  | .atomc f => ⟨f.h, [dstG (sizeRegs f.size) f.data, srcG (sizeRegs f.size) f.data, srcG (sizeRegs f.size) f.index, srcG 2 f.base], (spaceKinds f.space), false, none, none⟩
  | .red f => ⟨f.h, [srcG (sizeRegs f.size) f.data, srcG 2 f.base] ++ indexGroup f, (spaceKinds f.space), false, none, none⟩
  | .cachePref f => ⟨f.h, [srcL f.ua 2 f.base], (spaceKinds f.space), false, none, none⟩
  | .cacheCinv f => ⟨f.h, [srcL f.ua 2 f.base], (spaceKinds f.space), false, none, none⟩
  | .cacheCwb f => ⟨f.h, [srcL f.ua 2 f.base], (spaceKinds f.space), false, none, none⟩
  | .bra f => ⟨f.h, [], 7, false, none, none⟩
  | .ret f => ⟨f.h, [srcG 2 2, srcG 1 1], 7, false, none, none⟩
  | .fend f => ⟨f.h, [], 7, false, none, none⟩
  | .exit f => ⟨f.h, [], 7, false, none, none⟩
  | .call f => ⟨f.h, [], 7, false, none, none⟩
  | .brx f => ⟨f.h, [srcG 2 f.ca], 7, false, none, none⟩
  | .callx f => ⟨f.h, [srcG 2 f.ca], 7, false, none, none⟩
  | .rjoin f => ⟨f.h, [srcG 2 f.ca], 7, false, none, none⟩
  | .brdec f => ⟨f.h, [srcG 1 f.ca, dstG 1 f.ca], 7, false, none, none⟩
  | .rmark f => ⟨f.h, [dstG 2 f.ca], 7, false, none, none⟩
  | .fnew f => ⟨f.h, [dstG 1 f.ca], 3, false, none, none⟩
  | .ivfork f => ⟨f.h, [srcG (if f.cfl == 1 then 4 else 2) f.ca, dstG (if f.cfl == 1 then 4 else 2) f.ca, pwG], 3, false, none, none⟩
  | .migrate f => ⟨f.h, [dstG 1 f.ca], 3, false, none, none⟩
  | .bar f => ⟨f.h, [], 3, false, none, none⟩
  | .bara f => ⟨f.h, [], 3, false, none, none⟩
  | .barw f => ⟨f.h, [], 3, false, none, none⟩
  | .sbar f => ⟨f.h, [], 3, false, none, none⟩
  | .mma f => ⟨f.h, [srcG 1 f.a, srcG (rowRegs (f.bits 14 13)) f.b, srcG 1 f.c], 1, false, (if f.bits 9 9 == 1 then some 1 else none), (some (f.bits 8 6))⟩
  | .ldstat f => ⟨f.h, [srcG 1 f.a] ++ (if f.bits 9 9 == 1 then [srcG 2 f.b] else []), 1, false, (if f.bits 9 9 == 1 then some 8 else none), (some (f.bits 8 6))⟩
  | .statrel f => ⟨f.h, [], 1, false, none, (some (f.bits 8 6))⟩
  | .tzero f => ⟨f.h, [srcG 1 f.a, srcG 1 f.c], 1, false, none, none⟩
  | .tcvt f => ⟨f.h, [srcG 1 f.a, srcG 2 f.b, srcG 1 f.c], 1, false, none, none⟩
  | .tget f => ⟨f.h, [srcG 1 f.a, dstG 1 f.b, srcG 1 f.c], 1, false, none, none⟩
  | .tstr f => ⟨f.h, [srcG 1 f.a, srcG 1 f.b, srcG 1 f.c], 1, false, none, none⟩
  | .copy f => ⟨f.h, [srcG 2 f.a, ⟨f.b.toNat, 8, 1, true, false⟩, srcG 2 f.c, srcG 1 (BitVec.ofNat 8 (f.bits 20 13))], 7, false, none, none⟩
  | .copym f => ⟨f.h, [srcG 2 f.a, ⟨f.b.toNat, 8, 1, true, false⟩, srcG 2 f.c, srcG 2 (BitVec.ofNat 8 (f.bits 20 13))], 7, false, none, none⟩
  | .copyl f => ⟨f.h, [srcG 2 f.a, srcG 2 f.b, srcG 2 f.c, srcG 1 (BitVec.ofNat 8 (f.bits 20 13))], 7, false, none, none⟩
  | .cfill f => ⟨f.h, [srcG 2 f.a, srcG 1 f.b, srcG 2 f.c, srcG 1 (BitVec.ofNat 8 (f.bits 20 13))], 7, false, none, none⟩
  | .evpost f => ⟨f.h, [srcG 2 f.a, srcG 1 f.b], 7, false, none, none⟩
  | .evpop f => ⟨f.h, [dstG 4 f.a], 7, false, none, none⟩
  | .launch f => ⟨f.h, [srcG 2 f.a], 4, false, none, none⟩
  | .nop f => ⟨f.h, [], 7, false, none, none⟩
  | .fence f => ⟨f.h, [], 7, false, none, none⟩
  | .arrwait f => ⟨f.h, [], 3, false, none, none⟩
  | .trap f => ⟨f.h, [], 7, false, none, none⟩
  | .eret f => ⟨f.h, [], 7, false, none, none⟩
  | .bkpt f => ⟨f.h, [], 7, false, none, none⟩
  | .emret f => ⟨f.h, [], 3, false, none, none⟩
  | .yield f => ⟨f.h, [], 7, false, none, none⟩
  | .step f => ⟨f.h, [], 3, false, none, none⟩
  | .ckpt f => ⟨f.h, [], 7, false, none, none⟩
  | .pand f => ⟨f.h, [pwG], 7, false, none, none⟩
  | .por f => ⟨f.h, [pwG], 7, false, none, none⟩
  | .pnot f => ⟨f.h, [pwG], 7, false, none, none⟩
  | .pxor f => ⟨f.h, [pwG], 7, false, none, none⟩
  | .pres f => ⟨f.h, [pwG], 7, false, none, none⟩
  | .pmov f => ⟨f.h, [pwG], 7, false, none, none⟩
  | .vote f => ⟨f.h, [pwG], 7, false, none, none⟩
  | .elect f => ⟨f.h, [pwG], 7, false, none, none⟩
  | .shfl f => ⟨f.h, [dstG (if bitOf f.sub.toNat 2 then 2 else 1) f.dst, srcG (if bitOf f.sub.toNat 2 then 2 else 1) f.sa, srcG 1 f.sb], 7, false, none, none⟩
  | .ballot f => ⟨f.h, [dstG 2 f.dst, pwG], 7, false, none, none⟩
  | .rdx f => ⟨f.h, [dstG (codeRegs f.imm.toNat) f.dst, srcG (codeRegs f.imm.toNat) f.sa], 7, false, none, none⟩
  | .scan f => ⟨f.h, [dstG (codeRegs f.imm.toNat) f.dst, srcG (codeRegs f.imm.toNat) f.sa], 7, false, none, none⟩
  | .mwait f => ⟨f.h, [srcG 2 f.sa, srcG (if bitOf f.imm.toNat 3 then 2 else 1) f.sb], 7, false, none, none⟩
  | .mtest f => ⟨f.h, [srcG 2 f.sa, srcG (if bitOf f.imm.toNat 3 then 2 else 1) f.sb, pwG], 7, false, none, none⟩
  | .rwrite f => ⟨f.h, [srcG 1 f.sa, srcG 1 f.sb], 3, false, none, none⟩
  | .qpush f => ⟨f.h, [srcG 1 f.sa], 7, false, none, none⟩
  | .qpop f => ⟨f.h, [dstG 1 f.dst], 7, false, none, none⟩
  | .rdctr f => ⟨f.h, [dstG 2 f.dst], 7, false, none, none⟩
  | .bankcfg f => ⟨f.h, [dstG 1 f.dst], 7, false, none, none⟩
  | .gets f => ⟨f.h, [dstG (if selector64 f.imm.toNat then 2 else 1) f.dst], 7, false, none, none⟩
  | .sets f => ⟨f.h, [srcG (if selector64 f.imm.toNat then 2 else 1) f.sa], 7, false, none, none⟩
  | .wvload f => ⟨f.h, [dstG 1 f.dst, srcG 2 f.sa], 4, true, none, none⟩
  | .wvbind f => ⟨f.h, [srcG 1 f.sa], 4, true, none, none⟩
  | .swapctx f => ⟨f.h, [dstG 1 f.dst, srcG 2 f.sa, srcG 2 f.sb], 4, true, none, none⟩
  | .waitc f => ⟨f.h, [], 7, false, none, none⟩
  | .guestDecode => .none_
  | .loadComplete _ _ => .none_
  | .storePerformed _ _ => .none_
  | .portAccept _ => .none_
  | .writeAck _ => .none_
  | .tagRetire _ => .none_
  | .tileOpStart _ => .none_
  | .tilePanelUnit _ => .none_
  | .copyCommandStart _ => .none_
  | .copyBurst _ _ => .none_
  | .rwriteArrival _ => .none_
  | .sbarArrival _ => .none_
  | .monitorWake _ _ => .none_
  | .monitorReread _ _ => .none_
  | .migrationMove _ => .none_
  | .queueDoorbell _ _ _ => .none_
  | .qctlWrite _ _ _ => .none_
  | .packetNop _ _ => .none_
  | .packetLaunch _ _ => .none_
  | .packetCopy _ _ => .none_
  | .packetFence _ _ => .none_
  | .packetSignal _ _ => .none_
  | .packetEvent _ _ => .none_
  | .packetHandle _ _ => .none_
  | .fenceCounterWake _ _ => .none_
  | .gridComplete _ => .none_
  | .spanPlacement _ _ _ _ => .none_
  | .spawnRefill _ => .none_
  | .skeinMoveIn _ => .none_
  | .forcedRotation _ => .none_
  | .compaction _ => .none_
  | .relocation _ _ _ => .none_
  | .forwardExpiry _ => .none_
  | .heldPostEnter _ _ => .none_
  | .switchRequestServe _ => .none_
  | .cswctlGo _ _ => .none_
  | .freezePoint _ => .none_
  | .wfreezeGo _ => .none_
  | .wfreezeResume _ => .none_
  | .parkedCompletion _ => .none_
  | .checkpointTimer _ => .none_
  | .checkpointCut _ => .none_
  | .shadowCopy _ _ => .none_
  | .drainFrame _ _ => .none_
  | .ckptcfgWrite _ => .none_
  | .ckptack _ => .none_
  | .atsTranslationCompletion _ _ _ _ _ => .none_
  | .pageRequestResponse _ _ _ => .none_
  | .atsInvalidation _ _ _ => .none_
  | .atomicopCompletion _ => .none_
  | .hostAtomicDone _ _ => .none_
  | .completerError _ _ => .none_
  | .requestTimeout _ _ => .none_
  | .peerUnreachable _ _ => .none_
  | .pcieLinkDown _ => .none_
  | .incomingPortRequest _ => .none_
  | .linkSessionRekey _ => .none_
  | .bounceDoorbell _ _ _ => .none_
  | .bounceResync _ _ _ => .none_
  | .bounceSlotLand _ _ => .none_
  | .xinvGo _ => .none_
  | .xinvComplete _ => .none_
  | .wvhctlGo _ => .none_
  | .eiscfgWrite _ => .none_
  | .dutycfgWrite _ => .none_
  | .pwrlimWrite _ => .none_
  | .ps2Request _ => .none_
  | .ps0Request _ => .none_
  | .ps2Exit _ => .none_
  | .ps1Entry _ => .none_
  | .partcfgWrite _ => .none_
  | .ecccntClear _ => .none_
  | .ctrselWrite _ => .none_
  | .traceClaim _ _ => .none_
  | .traceRelease _ _ => .none_
  | .traceSample _ _ => .none_
  | .dbggo _ => .none_
  | .debugScrubDone => .none_
  | .tdispMessage _ _ => .none_
  | .modelKeyDelivery _ _ => .none_
  | .spdmRequest _ _ => .none_
  | .clockRelock _ _ _ => .none_
  | .coldReset => .none_
  | .warmReset _ => .none_
  | .partitionReset _ => .none_
  | .functionLevelReset _ => .none_
  | .pcieHotReset _ => .none_
  | .pcieD3cold => .none_
  | .bootComplete _ => .none_
  | .registerWrite _ => .none_
  | .notAnInstruction _ => .none_
  | .instructionFetchFault _ _ => .none_
  | .packetUnknownType _ _ => .none_
  | .ldstatFillDone _ => .none_
  | .multiClockResultWritten _ _ _ => .none_
  | .linkRetrained _ => .none_
  | .portDown _ => .none_

/-- The groups that the scoreboard watches (spec/03 R66): the operand groups, and the predicate word of a guard. -/
def Need.watched (n : Need) : List Group := if n.h.g.mode = .always then n.groups else pwG :: n.groups

end Sys2Proof.Machine
end

