-- ==== Sys2Proof/Machine/Access.lean ====
section
/-! DEFINITION. Device memory by lines, cluster caches, page tables, translation and the checks of an access
(spec/05 R97 to R110, spec/14 R359 to R368, R490, spec/19 R423, spec/21 R444). -/

namespace Sys2Proof.Machine

/-! ## Lines of HBM and extension memory -/

/-- Bytes of HBM that a partition owns (spec/01 R21). -/
def State.hbmBytes (s : State) : Nat := 768 * 2 ^ 30 / s.partitions

/-- The base of extension memory (spec/05 R99). -/
def extBase : Nat := 0x0000100000000000

/-- Bytes of extension memory of a partition: those of its share of the sixteen channels (spec/01 R10, R21). -/
def State.extensionBytes (s : State) (p : Nat) : Nat :=
  ((rangeFrom (p * (16 / s.partitions)) (16 / s.partitions)).map fun ch => min (2 ^ 38) (Config.channelBytes ch)).sum

/-- Device register space (spec/05 R99). -/
def regBase : Nat := 0x000F000000000000

/-- Where a physical address range of n bytes of a partition lies; none is a hole (spec/05 R99). -/
def State.deviceHome (s : State) (p pa n : Nat) : Option Home :=
  if pa + n ≤ s.hbmBytes then some .dev
  else if extBase ≤ pa ∧ pa + n ≤ extBase + 2 ^ 42 ∧ pa + n ≤ extBase + s.extensionBytes p then some .dev
  else if regBase ≤ pa ∧ pa + n ≤ 2 ^ 52 then some .devreg
  else none

/-- The number under which a partition's physical address is kept: each partition numbers its own view. -/
def absAddr (part pa : Nat) : Nat := part * 2 ^ 52 + pa

/-- The key generation a world has now. -/
def State.keyOf (s : State) (w : Nat) : Nat := (s.world w).key

/-- A line holds uncorrectable data. -/
def State.isPoisoned (s : State) (line : Nat) : Bool := s.poisoned.contains line

/-- The line was written in whole under the world's present key (spec/14 R368, R490). -/
def State.lineOwned (s : State) (w line : Nat) : Bool := tget s.owners line == some ⟨w, s.keyOf w⟩

/-- Why a world cannot read a line, if it cannot (spec/19 R423, spec/21 R444). -/
def State.lineFault (s : State) (w line : Nat) : Option FaultCode :=
  if s.isPoisoned line then some .eccUncorr
  else if s.lineOwned w line then none else some .macFail

/-- The lines that n bytes touch. -/
def linesOf (a n : Nat) : List Nat := if n = 0 then [] else rangeFrom (a / 128) ((a + n - 1) / 128 + 1 - a / 128)

/-- The first line that a world cannot read, with the reason. -/
def State.firstBadLine (s : State) (w : Nat) : List Nat → Option (Nat × FaultCode)
  | [] => none
  | l :: r =>
    match s.lineFault w l with
    | some c => some (l, c)
    | none => State.firstBadLine s w r

/-- An uncorrectable event counted (spec/19 R425). -/
def State.countUncorr (s : State) (line : Nat) : State :=
  let p := line * 128 / 2 ^ 52
  let pa := line * 128 % 2 ^ 52
  s.modPart p fun x =>
    let u := x.ecc.toNat / 2 ^ 32
    { x with
      ecc := BitVec.ofNat 64 (min (u + 1) (2 ^ 32 - 1) * 2 ^ 32 + x.ecc.toNat % 2 ^ 32)
      eccLast := BitVec.ofNat 64 ((if extBase ≤ pa then 2 else 1) * 2 ^ 61 + pa) }

/-- n bytes of device memory read under a world. -/
def State.readDev (s : State) (w a n : Nat) : Except FaultCode (List Byte) :=
  match s.firstBadLine w (linesOf a n) with
  | some (_, c) => .error c
  | none => .ok (s.mem.readBytes a n)

/-- The part of a range that lies in a line covers the whole line. -/
def coversLine (a n line : Nat) : Bool := a ≤ line * 128 && line * 128 + 128 ≤ a + n

/-- Bytes written to device memory under a world: a line covered whole is written and becomes readable under it;
a part of a line that the world cannot read is not written, and its reason is answered (spec/14 R490, spec/19
R423). -/
def State.writeDev (s : State) (w a : Nat) (bs : List Byte) : Except FaultCode State :=
  let n := bs.length
  let lines := linesOf a n
  match s.firstBadLine w (lines.filter fun l => !coversLine a n l) with
  | some (_, c) => .error c
  | none =>
    let whole := lines.filter (coversLine a n)
    .ok { s with
      mem := s.mem.writeBytes a bs
      owners := whole.foldl (fun o l => tset o l ⟨w, s.keyOf w⟩) s.owners
      poisoned := s.poisoned.filter (fun l => !whole.contains l) }

/-! ## Frames frozen by a checkpoint (spec/05 R106, spec/13 R349) -/

/-- The 256 KiB frame of a kept address, in its partition. -/
def frameOf (a : Nat) : Nat := a / 2 ^ 18

/-- The frame is frozen. -/
def Checkpoint.holds (c : Checkpoint) (frame : Nat) : Bool :=
  ((c.lo ≤ frame && frame < c.hi) || c.ext.contains frame) && !c.thawed.contains frame

/-- A frame of the range is frozen. -/
def State.frameHeld (s : State) (a n : Nat) : Bool :=
  let p := s.part (a / 2 ^ 52)
  n != 0 && (p.ckpt.holds (frameOf a) || p.ckpt.holds (frameOf (a + n - 1)))

/-- An extension frame written is marked in the bitmap (spec/13 R348). -/
def State.markExt (s : State) (a : Nat) : State :=
  if extBase ≤ a % 2 ^ 52 then
    s.modPart (a / 2 ^ 52) fun p =>
      if p.ckpt.bitmap.contains (frameOf a) then p
      else { p with ckpt := { p.ckpt with bitmap := p.ckpt.bitmap ++ [frameOf a] } }
  else s

/-! ## Caches of a cluster and of its stake cores (spec/01 R12, R14, spec/05 R117, R118, R121, R127; notes/assumptions/13) -/

/-- How an agent reaches memory: its cluster, and the private cache of a stake core, by the core's number. -/
structure Via where
  cluster : Nat
  stake : Option Nat
  deriving DecidableEq, Repr

/-- An agent of the cluster that is on no stake core. -/
def Via.ofCluster (c : Nat) : Via := ⟨c, none⟩

/-- A gang's way to memory. -/
def Gang.via (g : Gang) : Via := ⟨g.cluster, if g.kind = .stake then some g.coreNo else none⟩

/-- The line of a world in a cache. -/
def findLine : List CacheLine → Nat → Nat → Option CacheLine
  | [], _, _ => none
  | x :: r, l, w => if x.line = l ∧ x.world = w then some x else findLine r l w

/-- A cache with the line of its number and world replaced. -/
def putLine : List CacheLine → CacheLine → List CacheLine
  | [], _ => []
  | y :: r, x => if y.line = x.line ∧ y.world = x.world then x :: r else y :: putLine r x

/-- A cache without a line. -/
def lessLine (cs : List CacheLine) (line w : Nat) : List CacheLine := cs.filter fun x => !(x.line == line && x.world == w)

/-- A line used: it becomes the most recent, with the class of the access; bypass leaves the class (R117). -/
def touchLine (cs : List CacheLine) (line w retn : Nat) : List CacheLine :=
  match findLine cs line w with
  | some x => lessLine cs line w ++ [{ x with retn := if retn = 3 then x.retn else retn }]
  | none => cs

/-- A new line's place: a streaming line is the least recent (R118). -/
def enterLine (cs : List CacheLine) (x : CacheLine) : List CacheLine := if x.retn = 1 then x :: cs else cs ++ [x]

/-- A line as filled. -/
def CacheLine.fresh (line w : Nat) (bytes : List Byte) (retn way : Nat) : CacheLine := ⟨line, w, bytes, List.replicate 128 false, retn, way⟩

/-- The victim among some lines, least recent first: streaming, then normal, then sticky (R118). -/
def chooseVictim (xs : List CacheLine) : Option CacheLine :=
  ((xs.find? fun x => x.retn == 1).or (xs.find? fun x => x.retn != 2)).or xs.head?

/-- Two lines lie in one set of the cluster cache. -/
def sameSet (a b : Nat) : Bool := Config.cacheSet a % 2048 == Config.cacheSet b % 2048

/-- Where more than half the ways of a line's set would hold sticky lines, the least recent of them becomes normal (R118). -/
def unstick (ways line : Nat) (cs : List CacheLine) : List CacheLine :=
  if 2 * (cs.filter fun x => x.retn == 2).length ≤ ways then cs
  else
    let sticky := cs.filter fun x => x.retn == 2 && sameSet x.line line
    if 2 * sticky.length ≤ ways then cs
    else match sticky.head? with
      | some x => putLine cs { x with retn := 0 }
      | none => cs

/-- The ways of the cluster cache: the banks in cache mode (spec/01 R12). -/
def Cluster.ways (k : Cluster) : List Nat := (rangeFrom 0 64).filter fun b => (k.bank b).mode == .cache

/-- A way that is empty in a line's set. -/
def Cluster.freeWay (k : Cluster) (line : Nat) : Option Nat :=
  (k.ways.find? fun b => !k.cache.any fun x => x.way == b).or
    (k.ways.find? fun b => !k.cache.any fun x => x.way == b && sameSet x.line line)

/-- A line has dirty bytes. -/
def CacheLine.isDirty (x : CacheLine) : Bool := x.dirty.any id

/-- A dirty line lies in a frozen frame, so that it cannot go to memory now (R106). -/
def State.lineStuck (s : State) (x : CacheLine) : Bool := x.isDirty && s.frameHeld (x.line * 128) 128

/-- Dirty bytes laid over the bytes below them. -/
def overlay : List Byte → List Bool → List Byte → List Byte
  | b :: bs, d :: ds, m :: ms => (if d then b else m) :: overlay bs ds ms
  | _, _, ms => ms

/-- A line's dirty bytes written to the memory side; nothing of a line that the world cannot write. -/
def State.writeDirty (s : State) (x : CacheLine) : State :=
  if x.isDirty && !((s.lineFault x.world x.line).isSome && !x.dirty.all id) then
    match s.writeDev x.world (x.line * 128) (overlay x.bytes x.dirty (s.mem.readBytes (x.line * 128) 128)) with
    | .ok s' => s'.markExt (x.line * 128)
    | .error _ => s
  else s

/-- A dirty line of a cluster's cache written to the memory side; the line stays, clean. -/
def State.writeBackLine (s : State) (c : Nat) (x : CacheLine) : State :=
  if x.isDirty then
    let s' := s.writeDirty x
    s'.modCluster c fun k =>
      { k with cache := putLine k.cache { x with bytes := s'.mem.readBytes (x.line * 128) 128, dirty := List.replicate 128 false } }
  else s

/-- Every dirty line of a cluster's cache written back. -/
def State.writeBackAll (s : State) (c : Nat) : State := (s.cluster c).cache.foldl (fun s x => s.writeBackLine c x) s

/-- Some dirty line of a cluster's cache lies in a frozen frame. -/
def State.dirtyHeld (s : State) (c : Nat) : Bool := (s.cluster c).cache.any s.lineStuck

/-- Clean bytes of a line as the memory side has them now. -/
def State.renewed (s : State) (x : CacheLine) : CacheLine :=
  { x with bytes := overlay x.bytes x.dirty (s.mem.readBytes (x.line * 128) 128) }

/-- What an acquire at device scope or above does to a cluster's cache: nothing stale is kept (R125, R126). -/
def State.acquireSync (s : State) (c : Nat) : State :=
  s.modCluster c fun k => { k with cache := (k.cache.filter CacheLine.isDirty).map s.renewed }

/-- Clean bytes of held lines brought up to date: what an access at device scope or above reads is not older than what a later one of the
same fibre may read through the cache (R123). -/
def State.refresh (s : State) (c w a n : Nat) : State :=
  s.modCluster c fun k =>
    { k with cache := k.cache.map fun x => if x.world = w ∧ a / 128 ≤ x.line ∧ x.line ≤ (a + n - 1) / 128 then s.renewed x else x }

/-- A line brought into the cluster's cache, or used where it is held; with bypass, or where no line of its set can be replaced, it is not
held.  A line that the world cannot read is answered with its reason. -/
def State.holdLine (s : State) (c w retn line : Nat) : Except FaultCode State :=
  let k := s.cluster c
  let enter (s : State) (cs : List CacheLine) (way : Nat) : State :=
    s.modCluster c fun k =>
      { k with cache := unstick k.ways.length line (enterLine cs (.fresh line w (s.mem.readBytes (line * 128) 128) retn way)) }
  match findLine k.cache line w with
  | some _ => .ok (s.modCluster c fun k => { k with cache := unstick k.ways.length line (touchLine k.cache line w retn) })
  | none =>
    match s.lineFault w line with
    | some code => .error code
    | none =>
      if retn = 3 then .ok s else
      match k.freeWay line with
      | some way => .ok (enter s k.cache way)
      | none =>
        match chooseVictim (k.cache.filter fun x => sameSet x.line line && !s.lineStuck x) with
        | none => .ok s
        | some v => .ok (enter (s.writeDirty v) (lessLine k.cache v.line v.world) v.way)

def State.holdLines (s : State) (c w retn : Nat) : List Nat → Except FaultCode State
  | [] => .ok s
  | l :: r =>
    match s.holdLine c w retn l with
    | .error e => .error e
    | .ok s' => State.holdLines s' c w retn r

/-- A byte as a cluster sees it through its cache. -/
def State.cachedByte (s : State) (c w a : Nat) : Byte :=
  match findLine (s.cluster c).cache (a / 128) w with
  | some x => x.bytes.getD (a % 128) 0
  | none => s.mem.read a

/-- A byte at the memory side, with the cluster's own dirty bytes over it. -/
def State.coherentByte (s : State) (c w a : Nat) : Byte :=
  match findLine (s.cluster c).cache (a / 128) w with
  | some x => if x.dirty.getD (a % 128) false then x.bytes.getD (a % 128) 0 else s.mem.read a
  | none => s.mem.read a

/-- Bytes put in lines of a cache from an address on, dirty or not; those of lines that are not held are left out. -/
def putBytes (cs : List CacheLine) (w a : Nat) (dirty : Bool) : List Byte → List CacheLine
  | [] => cs
  | b :: r =>
    putBytes (cs.map fun x =>
      if x.line = a / 128 ∧ x.world = w then { x with bytes := setAt x.bytes (a % 128) b, dirty := setAt x.dirty (a % 128) dirty }
      else x) w (a + 1) dirty r

def State.putCachedBytes (s : State) (c w a : Nat) (dirty : Bool) (bs : List Byte) : State :=
  s.modCluster c fun k => { k with cache := putBytes k.cache w a dirty bs }

/-- A range cut where lines of a size end: addresses and lengths. -/
def cutAt (step : Nat) : Nat → Nat → Nat → List (Nat × Nat)
  | 0, _, _ => []
  | fuel + 1, a, n =>
    if n = 0 then []
    else
      let k := min n (step - a % step)
      (a, k) :: cutAt step fuel (a + k) (n - k)

/-- Bytes written through the cluster's cache: into the lines it holds, the others' at the memory side. -/
def State.writeThrough (s : State) (c w : Nat) : List (Nat × Nat) → List Byte → Except FaultCode State
  | [], _ => .ok s
  | (x, n) :: r, bs =>
    let seg := bs.take n
    if (findLine (s.cluster c).cache (x / 128) w).isSome then State.writeThrough (s.putCachedBytes c w x true seg) c w r (bs.drop n)
    else
      match s.writeDev w x seg with
      | .error e => .error e
      | .ok s' => State.writeThrough (s'.markExt x) c w r (bs.drop n)

/-! ### Private caches of stake cores -/

/-- The dirty bytes of a private line laid into the cluster's cache, or at the memory side where it does not hold the line. -/
def State.pushLine (s : State) (c : Nat) (x : CacheLine) : State :=
  if !x.isDirty then s else
  match s.holdLine c x.world x.retn x.line with
  | .error _ => s
  | .ok s1 =>
    match findLine (s1.cluster c).cache x.line x.world with
    | some y =>
      s1.modCluster c fun k =>
        { k with cache := putLine k.cache { y with bytes := overlay x.bytes x.dirty y.bytes, dirty := (y.dirty.zip x.dirty).map fun d => d.1 || d.2 } }
    | none => s1.writeDirty x

/-- A core's private cache replaced. -/
def State.setPrivate (s : State) (core : Nat) (cs : List CacheLine) : State := s.modCore core fun k => { k with cache := cs }

/-- Lines of a private cache that a test takes, pushed and dropped. -/
def State.shedPrivate (s : State) (v : Via) (p : CacheLine → Bool) : State :=
  match v.stake with
  | none => s
  | some core =>
    let cs := (s.core core).cache
    if cs.any p then ((cs.filter p).foldl (fun s x => s.pushLine v.cluster x) s).setPrivate core (cs.filter fun x => !p x) else s

/-- Dirty lines of a private cache pushed; they stay, clean. -/
def State.pushPrivate (s : State) (v : Via) : State :=
  match v.stake with
  | none => s
  | some core =>
    let cs := (s.core core).cache
    if cs.any CacheLine.isDirty then
      (cs.foldl (fun s x => s.pushLine v.cluster x) s).setPrivate core (cs.map fun x => { x with dirty := List.replicate 128 false })
    else s

/-- A line brought into a stake core's private cache of 2,048 lines from its cluster's. -/
def State.holdPrivate (s : State) (v : Via) (core w retn line : Nat) : Except FaultCode State :=
  match findLine (s.core core).cache line w with
  | some _ => .ok (s.modCore core fun k => { k with cache := touchLine k.cache line w retn })
  | none =>
    match s.holdLine v.cluster w retn line with
    | .error e => .error e
    | .ok s1 =>
      if retn = 3 then .ok s1 else
      let x := CacheLine.fresh line w ((rangeFrom (line * 128) 128).map (s1.cachedByte v.cluster w)) retn 0
      let cs := (s1.core core).cache
      if cs.length < 2048 then .ok (s1.setPrivate core (enterLine cs x))
      else
        match chooseVictim (cs.filter fun y => !s1.lineStuck y) with
        | none => .ok s1
        | some y => .ok ((s1.pushLine v.cluster y).setPrivate core (enterLine (lessLine cs y.line y.world) x))

def State.holdPrivates (s : State) (v : Via) (core w retn : Nat) : List Nat → Except FaultCode State
  | [] => .ok s
  | l :: r =>
    match s.holdPrivate v core w retn l with
    | .error e => .error e
    | .ok s' => State.holdPrivates s' v core w retn r

/-- A byte as a stake core sees it. -/
def State.privateByte (s : State) (v : Via) (core w a : Nat) : Byte :=
  match findLine (s.core core).cache (a / 128) w with
  | some x => x.bytes.getD (a % 128) 0
  | none => s.cachedByte v.cluster w a

/-- Bytes written by a stake core: into the private lines held, the others' through the cluster's cache. -/
def State.writePrivate (s : State) (v : Via) (core w : Nat) : List (Nat × Nat) → List Byte → Except FaultCode State
  | [], _ => .ok s
  | (x, n) :: r, bs =>
    let seg := bs.take n
    if (findLine (s.core core).cache (x / 128) w).isSome then
      State.writePrivate (s.modCore core fun k => { k with cache := putBytes k.cache w x true seg }) v core w r (bs.drop n)
    else
      match s.writeThrough v.cluster w [(x, n)] seg with
      | .error e => .error e
      | .ok s' => State.writePrivate s' v core w r (bs.drop n)

/-! ### What acquires, releases and cache operations do -/

/-- The numbers of a cluster's stake cores (spec/01 R13). -/
def stakesOf (c : Nat) : List Nat := rangeFrom (384 + 4 * c) 4

/-- An acquire at a scope, for an agent: at cluster scope its private cache keeps nothing, at device scope or above its cluster's cache
nothing stale. -/
def State.acquireCaches (s : State) (v : Via) (scope : Nat) : State :=
  let s1 := if 3 ≤ scope then s.shedPrivate v fun _ => true else s
  if 4 ≤ scope then s1.acquireSync v.cluster else s1

/-- A release at a scope, for an agent: its writes go on to where the others of the scope read. -/
def State.releaseCaches (s : State) (v : Via) (scope : Nat) : State :=
  let s1 := if 3 ≤ scope then s.pushPrivate v else s
  if 4 ≤ scope then s1.writeBackAll v.cluster else s1

/-- A frozen frame holds a release at a scope: dirty lines that it must write back lie there. -/
def State.releaseHeld (s : State) (v : Via) (scope : Nat) : Bool :=
  4 ≤ scope && (s.dirtyHeld v.cluster || (v.stake.any fun core => (s.core core).cache.any s.lineStuck))

/-- Every dirty line of a cluster, its stake cores' among them, written to the memory side. -/
def State.flushAll (s : State) (c : Nat) : State :=
  ((stakesOf c).foldl (fun s core => s.pushPrivate ⟨c, some core⟩) s).writeBackAll c

/-- Some dirty line of a cluster or of its stake cores lies in a frozen frame. -/
def State.anyHeld (s : State) (c : Nat) : Bool :=
  s.dirtyHeld c || (stakesOf c).any fun core => (s.core core).cache.any s.lineStuck

/-- CWB: a line's dirty bytes of every cache of the cluster go to the memory side (spec/09 R248). -/
def State.cleanLine (s : State) (c line w : Nat) : State :=
  let s1 := (stakesOf c).foldl (fun s core =>
    match findLine (s.core core).cache line w with
    | some x =>
      if x.isDirty then
        (s.pushLine c x).modCore core fun k => { k with cache := putLine k.cache { x with dirty := List.replicate 128 false } }
      else s
    | none => s) s
  match findLine (s1.cluster c).cache line w with
  | some x => s1.writeBackLine c x
  | none => s1

/-- CINV: a line leaves every cache of the cluster, dirty bytes with it, the decoded operations made from it too (spec/09 R248). -/
def State.dropLine (s : State) (c line w : Nat) : State :=
  let code (l : List CodeLine) : List CodeLine := l.filter fun x => !(x.line == line && x.world == w)
  let s1 := (rangeFrom (12 * c) 12 ++ stakesOf c ++ [512 + c]).foldl (fun s n =>
    if (s.core n).cache.isEmpty && (s.core n).code.isEmpty then s
    else s.modCore n fun k => { k with cache := lessLine k.cache line w, code := code k.code }) s
  s1.modCluster c fun k =>
    { k with
      cache := lessLine k.cache line w
      code := code k.code
      doc := k.doc.filter fun x => !(x.world == w && x.pa / 128 ≤ line && line ≤ (x.pa + max 1 x.len - 1) / 128) }

/-- A dirty line of a cluster's cache goes to the memory side when the agenda says so (R127). -/
def State.cleanOne (s : State) (c line w : Nat) : State :=
  match findLine (s.cluster c).cache line w with
  | some x => if s.lineStuck x then s else s.writeBackLine c x
  | none => s

/-- The same of a line of a stake core's private cache: it goes to the cluster's. -/
def State.cleanPrivate (s : State) (core line w : Nat) : State :=
  match findLine (s.core core).cache line w with
  | some x =>
    if !x.isDirty || s.lineStuck x || core < 384 then s
    else (s.pushLine ((core - 384) / 4) x).modCore core fun k => { k with cache := putLine k.cache { x with dirty := List.replicate 128 false } }
  | none => s

/-- A line leaves an instruction cache. -/
def State.dropCode (s : State) (c : Nat) (core : Option Nat) (line w : Nat) : State :=
  let less (l : List CodeLine) : List CodeLine := l.filter fun x => !(x.line == line && x.world == w)
  match core with
  | some n => s.modCore n fun k => { k with code := less k.code }
  | none => s.modCluster c fun k => { k with code := less k.code }

/-- Lines that device-scope reads touch, written to the memory side first: a write that its cluster sees is then seen by all (R128). -/
def State.publish (s : State) (c w : Nat) (lines : List Nat) : State :=
  lines.foldl (fun s l => s.cleanOne c l w) s

/-! ## Writes to host and peer memory that not every cluster sees yet (spec/05 R128) -/

/-- A byte of host or peer memory as a cluster sees it, from what lies there now and the writes on it, the newest first. -/
def farByte (c : Nat) (home : Home) (a : Nat) : List FarWrite → Byte → Byte
  | [], b => b
  | f :: r, b =>
    if f.home == home && f.addr ≤ a && a < f.addr + f.old.length then
      if f.seen.contains c then b else farByte c home a r (f.old.getD (a - f.addr) 0)
    else farByte c home a r b

/-- Bytes written to host or peer memory in a way that everyone sees at once: older writes there are seen no more. -/
def State.dropFar (s : State) (home : Home) (a n : Nat) : State :=
  { s with far := s.far.filter fun f => !(f.home == home && f.addr < a + n && a < f.addr + f.old.length) }

/-- A cluster comes to see a write. -/
def State.seeFar (s : State) (write cluster : Nat) : State :=
  { s with far := modifyAt s.far write fun f => if f.seen.contains cluster then f else { f with seen := f.seen ++ [cluster] } }

/-! ## Reading and writing one part of an access at its home -/

/-- Host or peer memory as it lies. -/
def State.portBytes (s : State) (home : Home) (a n : Nat) : List Byte :=
  match home with
  | .host => s.host.readBytes a n
  | .peer d => ((tget s.peers d).getD []).readBytes a n
  | _ => []

/-- Bytes stored in host or peer memory. -/
def State.putPort (s : State) (home : Home) (a : Nat) (bs : List Byte) : State :=
  match home with
  | .host => { s with host := s.host.writeBytes a bs }
  | .peer d => { s with peers := tset s.peers d (((tget s.peers d).getD []).writeBytes a bs) }
  | _ => s

/-- The same, in a way that everyone sees at once. -/
def State.putNow (s : State) (home : Home) (a : Nat) (bs : List Byte) : State := (s.putPort home a bs).dropFar home a bs.length

/-- n bytes read at a home by an agent, at a scope (spec/05 R121, R127). -/
def State.readHome (s : State) (v : Via) (w scope : Nat) (p : Part) : Except FaultCode (List Byte × State) :=
  match p.home with
  | .dev =>
    let lines := linesOf p.addr p.len
    if p.cached && scope ≤ 2 && v.stake.isSome then
      match s.holdPrivates v (v.stake.getD 0) w p.retn lines with
      | .error e => .error e
      | .ok s1 => .ok ((rangeFrom p.addr p.len).map (s1.privateByte v (v.stake.getD 0) w), s1)
    else
      let s0 := s.shedPrivate v fun x => x.world == w && lines.contains x.line
      if p.cached && scope ≤ 3 then
        match s0.holdLines v.cluster w p.retn lines with
        | .error e => .error e
        | .ok s1 => .ok ((rangeFrom p.addr p.len).map (s1.cachedByte v.cluster w), s1)
      else
        match s0.firstBadLine w (lines.filter fun l => (findLine (s0.cluster v.cluster).cache l w).isNone) with
        | some (_, e) => .error e
        | none =>
          let s1 := s0.publish v.cluster w lines
          .ok ((rangeFrom p.addr p.len).map (s1.coherentByte v.cluster w), s1.refresh v.cluster w p.addr p.len)
  | .devreg => .ok ((rangeFrom p.addr p.len).map (Config.freeByte s.free), s.draw)
  | .scratch k =>
    if (s.cluster k).scratchPoison.any (fun a => p.addr ≤ a && a < p.addr + p.len) then .error .eccUncorr
    else .ok ((s.cluster k).scratch.readBytes p.addr p.len, s)
  | .handle k => .ok ((s.cluster k).local_.readBytes p.addr p.len, s)
  | h => .ok ((rangeFrom p.addr p.len).map fun a => farByte v.cluster h a s.far ((s.portBytes h a 1).headD 0), s)

/-- Bytes written at a home. -/
def State.writeHome (s : State) (v : Via) (w scope : Nat) (p : Part) (bs : List Byte) : Except FaultCode State :=
  match p.home with
  | .dev =>
    let lines := linesOf p.addr p.len
    let cuts := cutAt 128 (lines.length + 1) p.addr p.len
    if p.cached && scope ≤ 2 && v.stake.isSome then
      match s.holdPrivates v (v.stake.getD 0) w p.retn lines with
      | .error e => .error e
      | .ok s1 => s1.writePrivate v (v.stake.getD 0) w cuts bs
    else
      let s0 := s.shedPrivate v fun x => x.world == w && lines.contains x.line
      if p.cached && scope ≤ 3 then
        match s0.holdLines v.cluster w p.retn lines with
        | .error e => .error e
        | .ok s1 => s1.writeThrough v.cluster w cuts bs
      else
        match s0.writeDev w p.addr bs with
        | .error e => .error e
        | .ok s1 => .ok ((s1.markExt p.addr).putCachedBytes v.cluster w p.addr false bs)
  | .devreg => .ok s
  | .scratch k =>
    .ok (s.modCluster k fun x =>
      { x with
        scratch := x.scratch.writeBytes p.addr bs
        scratchPoison := x.scratchPoison.filter (fun a => !(p.addr ≤ a && a < p.addr + p.len)) })
  | .handle k => .ok (s.modCluster k fun x => { x with local_ := x.local_.writeBytes p.addr bs })
  | h => .ok (s.putNow h p.addr bs)

/-- The bytes of all parts, in address order. -/
def State.readParts (s : State) (v : Via) (w scope : Nat) : List Part → Except FaultCode (List Byte × State)
  | [] => .ok ([], s)
  | p :: r =>
    match s.readHome v w scope p with
    | .error e => .error e
    | .ok (bs, s') =>
      match State.readParts s' v w scope r with
      | .error e => .error e
      | .ok (bs', s'') => .ok (bs ++ bs', s'')

/-- Bytes written through all parts. -/
def State.writeParts (s : State) (v : Via) (w scope : Nat) : List Part → List Byte → Except FaultCode State
  | [], _ => .ok s
  | p :: r, bs =>
    match s.writeHome v w scope p (bs.take p.len) with
    | .error e => .error e
    | .ok s' => State.writeParts s' v w scope r (bs.drop p.len)

/-! ## Page tables (spec/05 R100 to R105) -/

/-- A leaf as found: its entry's kept address and value, its first page (VA[55:18]), page count, and the physical
address of its first byte. -/
structure Leaf where
  at_ : Nat
  val : Nat
  page : Nat
  pages : Nat
  pa : Nat
  deriving DecidableEq, Repr

def leafPA (e : Nat) : Nat := bitsOf e 115 64
def leafFdev (e : Nat) : Nat := bitsOf e 52 33
def leafRem (e : Nat) : Bool := bitOf e 32
def leafWtag (e : Nat) : Nat := bitsOf e 31 24
def leafXpers (e : Nat) : Nat := bitsOf e 23 20
def leafHat (e : Nat) : Nat := bitsOf e 19 18
def leafCons (e : Nat) : Bool := bitOf e 17
def leafBnc (e : Nat) : Bool := bitOf e 16
def leafSeal (e : Nat) : Bool := bitOf e 15
def leafHost (e : Nat) : Bool := bitOf e 14
def leafDev (e : Nat) : Bool := bitOf e 13
def leafC (e : Nat) : Bool := bitOf e 12
def leafRetn (e : Nat) : Nat := bitsOf e 11 10
def leafOrd (e : Nat) : Nat := bitsOf e 9 8
def leafFrz (e : Nat) : Bool := bitOf e 7
def leafD (e : Nat) : Bool := bitOf e 6
def leafA (e : Nat) : Bool := bitOf e 5
def leafX (e : Nat) : Bool := bitOf e 4
def leafW (e : Nat) : Bool := bitOf e 3
def leafRd (e : Nat) : Bool := bitOf e 2
def entryL (e : Nat) : Bool := bitOf e 1
def entryV (e : Nat) : Bool := bitOf e 0

/-- Reserved fields and field values of a leaf are as they must be (spec/05 R101, R102). -/
def leafClean (e : Nat) : Bool :=
  bitsOf e 127 116 == 0 && bitsOf e 63 53 == 0 && leafOrd e != 3 && leafHat e != 3

/-- A pointer entry uses `V`, `L` and `PA` only (spec/05 R101). -/
def pointerClean (e : Nat) : Bool := bitsOf e 127 116 == 0 && bitsOf e 63 2 == 0

/-- A 16-byte entry of a table, read under the world.  DESIGN CHOICE (notes/assumptions/121): an entry whose own address lies in a hole or
in device register space faults XLATE; R102 names only a leaf that leads into a hole. -/
def State.readEntry (s : State) (w pa : Nat) : Except FaultCode Nat :=
  let a := absAddr (partOfWorld w) pa
  match s.deviceHome (partOfWorld w) pa 16 with
  | some .dev =>
    match s.readDev w a 16 with
    | .ok bs => .ok (ofBytes bs)
    | .error e => .error e
  | _ => .error .xlate

/-- A leaf of the given size is aligned, clean, and leads into no hole (spec/05 R102). -/
def State.checkLeaf (s : State) (w at_ e page pages : Nat) : Except FaultCode Leaf :=
  let size := pages * 2 ^ 18
  if !leafClean e || leafPA e % size != 0 then .error .xlate
  else if leafHost e || leafRem e then .ok ⟨at_, e, page, pages, leafPA e⟩
  else if (s.deviceHome (partOfWorld w) (leafPA e) size).isNone then .error .xlate
  else .ok ⟨at_, e, page, pages, leafPA e⟩

/-- The walk (spec/05 R100 to R103). -/
def State.walk (s : State) (w xroot va : Nat) : Except FaultCode Leaf :=
  let p := partOfWorld w
  match s.readEntry w (xroot + 16 * bitsOf va 55 46) with
  | .error e => .error e
  | .ok e1 =>
    if !entryV e1 || entryL e1 || !pointerClean e1 || leafPA e1 % 2 ^ 18 != 0 then .error .xlate else
    let a2 := leafPA e1 + 16 * bitsOf va 45 32
    match s.readEntry w a2 with
    | .error e => .error e
    | .ok e2 =>
      if !entryV e2 then .error .xlate
      else if entryL e2 then s.checkLeaf w (absAddr p a2) e2 (bitsOf va 55 32 * 2 ^ 14) (2 ^ 14)
      else if !pointerClean e2 || leafPA e2 % 2 ^ 18 != 0 then .error .xlate else
      let first := leafPA e2 + 16 * (bitsOf va 31 18 / 128 * 128)
      match s.readEntry w first with
      | .error e => .error e
      | .ok e3 =>
        if leafCons e3 then
          if !entryV e3 || !entryL e3 then .error .xlate
          else s.checkLeaf w (absAddr p first) e3 (bitsOf va 55 18 / 128 * 128) 128
        else
          let a3 := leafPA e2 + 16 * bitsOf va 31 18
          match s.readEntry w a3 with
          | .error e => .error e
          | .ok e4 =>
            if !entryV e4 || !entryL e4 then .error .xlate
            else s.checkLeaf w (absAddr p a3) e4 (bitsOf va 55 18) 1

/-- The translation held for a page of a context. -/
def findTlb : List TlbEntry → Nat → Nat → Option TlbEntry
  | [], _, _ => none
  | t :: r, ctx, page =>
    if t.ctx = ctx ∧ t.page ≤ page ∧ page < t.page + t.pages then some t else findTlb r ctx page

/-- The leaf of an address: held, or walked for and then held (spec/05 R107). -/
def State.leafOf (s : State) (ctx va : Nat) : Except FaultCode (TlbEntry × State) :=
  match findTlb s.tlb ctx (bitsOf va 55 18) with
  | some t => .ok (t, s)
  | none =>
    match s.ctx ctx with
    | none => .error .xlate
    | some c =>
      match s.walk c.world c.xroot va with
      | .error e => .error e
      | .ok l =>
        let t : TlbEntry := ⟨c.world, ctx, l.page, l.pages, l.pa, l.val, leafFdev l.val, l.at_⟩
        .ok (t, { s with tlb := s.tlb ++ [t] })

/-! ## Frozen frames and the leaves that map them (spec/13 R348, R349) -/

/-- The valid leaves of a translation root: kept address of the entry, its value, and the pages it maps. -/
def State.leafEntries (s : State) (w xroot : Nat) : List (Nat × Nat × Nat) :=
  let p := partOfWorld w
  let entries (base n : Nat) : List (Nat × Nat) :=
    (rangeFrom 0 n).filterMap fun i =>
      match s.readEntry w (base + 16 * i) with
      | .ok e => if entryV e then some (absAddr p (base + 16 * i), e) else none
      | .error _ => none
  (entries xroot 1024).flatMap fun a =>
    if entryL a.2 then [] else
    (entries (leafPA a.2) 16384).flatMap fun b =>
      if entryL b.2 then [(b.1, b.2, 16384)]
      else
        (rangeFrom 0 128).flatMap fun run =>
          let first := match s.readEntry w (leafPA b.2 + 2048 * run) with
            | .ok e => e
            | .error _ => 0
          if leafCons first then
            if entryV first && entryL first then [(absAddr p (leafPA b.2 + 2048 * run), first, 128)] else []
          else (entries (leafPA b.2 + 2048 * run) 128).filterMap fun c => if entryL c.2 then some (c.1, c.2, 1) else none

/-- `FRZ` of a leaf entry written in memory, and in the translations held of it. -/
def State.writeFrz (s : State) (entry e : Nat) (on : Bool) : State :=
  let v := e - (if leafFrz e then 128 else 0) + (if on then 128 else 0)
  { s with
    mem := s.mem.writeBytes entry (bytesOf 16 v)
    tlb := s.tlb.map fun t => if t.entry = entry then { t with bits := t.bits - (if leafFrz t.bits then 128 else 0) + (if on then 128 else 0) } else t }

/-- `FRZ` written in every leaf of a partition's contexts that maps one of some frames. -/
def State.markLeaves (s : State) (p : Nat) (frames : Nat → Bool) (on : Bool) : State :=
  (s.ctxs.filter fun c => partOfWorld c.world == p).foldl (fun s c =>
    ((s.leafEntries c.world c.xroot).filter fun l =>
        !leafHost l.2.1 && !leafRem l.2.1 && leafFrz l.2.1 != on &&
          (rangeFrom (frameOf (absAddr p (leafPA l.2.1))) l.2.2).any frames).foldl
      (fun s l => s.writeFrz l.1 l.2.1 on) s) s

/-- Frames of the shadow pool (spec/13 R350); with `FALLBK` no frame is copied (R351). -/
def Partition.shadowFrames (p : Partition) : Nat := if bitOf p.ckptcfg.toNat 62 then 0 else bitsOf p.ckptshd.toNat 63 52 * 4096

/-- A frozen frame copied to the shadow pool and unfrozen, where the pool has room (R349). -/
def State.shadowFrame (s : State) (frame : Nat) : State :=
  let n := frame * 2 ^ 18 / 2 ^ 52
  let p := s.part n
  if p.ckpt.holds frame && p.ckpt.shadow.length < p.shadowFrames then
    (s.modPart n fun x =>
      { x with ckpt := { x.ckpt with
          thawed := x.ckpt.thawed ++ [frame]
          shadow := x.ckpt.shadow ++ [(frame, s.mem.filter fun c => frameOf c.1 == frame)] } }).markLeaves n (· == frame) false
  else s

/-- The frames of a range that the device itself writes, shadowed first. -/
def State.shadowRange (s : State) (a n : Nat) : State :=
  if n = 0 then s else (rangeFrom (frameOf a) (frameOf (a + n - 1) + 1 - frameOf a)).foldl (fun s f => s.shadowFrame f) s

/-- The bits that an access sets in a leaf. -/
def wantAD (write : Bool) : Nat := if write then 0x60 else 0x20

/-- `A`, and `D` for a write, set in a leaf and in memory before the first access through it (spec/05 R105); none where the leaf no longer
matches the walked value. -/
def State.setAD (s : State) (t : TlbEntry) (write : Bool) : Option State :=
  if Nat.land t.bits (wantAD write) = wantAD write then some s
  else
    let s1 := s.shadowRange t.entry 16
    if ofBytes (s1.mem.readBytes t.entry 16) = t.bits then
      let v := Nat.lor t.bits (wantAD write)
      some (({ s1 with
        mem := s1.mem.writeBytes t.entry (bytesOf 16 v)
        tlb := s1.tlb.map (fun x => if x = t then { x with bits := v } else x) }).markExt t.entry)
    else none

/-- The write of a leaf's bits is held: its frame is frozen, and the shadow pool full (spec/13 R349). -/
def State.leafStuck (s : State) (write : Bool) (t : TlbEntry) : Bool :=
  Nat.land t.bits (wantAD write) != wantAD write && s.frameHeld t.entry 16 && (s.shadowRange t.entry 16).frameHeld t.entry 16

/-! ## Checks of an access (spec/05 R97, R104, R108 to R110; spec/20 R426 stage 4) -/

/-- What an access is, for its checks. -/
inductive Acc where
  | load | store | cwb | cinv
  /-- ATOM and ATOMC; `det`: in deterministic mode, where a host or remote page is refused (spec/20 R439). -/
  | atomic (det : Bool)
  /-- RED. -/
  | reduce (det : Bool)
  | fetch (pers : Nat)
  /-- A copy engine's read or write. -/
  | engineRead | engineWrite
  deriving DecidableEq, Repr

def Acc.writes : Acc → Bool
  | .store | .atomic _ | .reduce _ | .engineWrite => true
  | _ => false

/-- The engine cuts its accesses as it needs; only a core's are checked for alignment (spec/05 R109, spec/10 R285). -/
def Acc.engine : Acc → Bool
  | .engineRead | .engineWrite => true
  | _ => false

/-- The access is refused on a host or remote page (spec/20 R439). -/
def Acc.barred : Acc → Bool
  | .atomic d | .reduce d => d
  | _ => false

/-- The permission checks in order (spec/05 R104). -/
def Acc.permitted (a : Acc) (world e : Nat) : Bool :=
  leafWtag e == world &&
  match a with
  | .load => leafRd e && !leafSeal e
  | .store | .reduce _ => leafW e && !leafSeal e
  | .atomic _ => leafRd e && leafW e && !leafSeal e
  | .cwb => leafRd e
  | .cinv => leafW e
  | .fetch p => leafX e && !leafDev e && leafXpers e == p
  | .engineRead => leafRd e
  | .engineWrite => leafW e

/-- What an access's checks answer. -/
inductive Checked (α : Type) where
  | ok (a : α) (s : State)
  | fault (code : FaultCode) (addr : W64) (s : State)
  /-- A host translation is outstanding: the batch does not issue (spec/14 R359). -/
  | wait (s : State)

/-- The world is protected: its interface is locked or running (spec/14 R363). -/
def State.isProtected (s : State) (w : Nat) : Bool := (s.world w).tdisp == .locked || (s.world w).tdisp == .run

/-- The PCIe ports, 24 and 25, that carry a partition's function set (spec/14 R355). -/
def State.pciePorts (s : State) (p : Nat) : List Nat :=
  if s.partitions = 1 then [24, 25] else if s.partitions = 2 then [24 + p] else [24 + p / 2]

def State.portUp (s : State) (n : Nat) : Bool := ((tget s.ports n).map (·.up)).getD true

/-- The peer is unreachable from a partition (spec/21 R453). -/
def State.peerGone (s : State) (p d : Nat) : Bool := s.unreachable.contains (p * 2 ^ 20 + d)

/-- No port carries a partition's host requests any more (spec/01 R27, spec/21 R453). -/
def State.pcieLost (s : State) (p : Nat) : Bool := (s.pciePorts p).all fun n => !s.portUp n

/-- A host translation, or what happens without one (spec/14 R358 to R360, spec/21 R441, R454). -/
def State.hostFrame (s : State) (w ioa : Nat) (write : Bool) : Checked Nat :=
  let p := partOfWorld w
  let page := ioa / 4096
  let part := s.part p
  let gone : State := { s with ats := s.ats.filter (fun y => !(y.world == w && y.page == page)) }
  if s.pcieLost p then .fault .linkDown (BitVec.ofNat 64 ioa) s else
  match s.ats.find? (fun x => x.world == w && x.page == page) with
  | some x =>
    if (if write then x.wr else x.rd) then .ok (x.frame * 4096 + ioa % 4096) s
    else if x.fails = 4 then .fault .linkDown (BitVec.ofNat 64 ioa) gone
    else if part.pageReqs.contains (w, page) || part.atsReqs.contains (w, page) then .wait s
    else if bitOf part.dutycfg.toNat 1 || 3 ≤ x.fails then .fault .xlate (BitVec.ofNat 64 ioa) gone
    else if part.pageReqs.length < 512 then .wait (s.modPart p fun q => { q with pageReqs := q.pageReqs ++ [(w, page)] })
    else .wait s
  | none =>
    if part.atsReqs.contains (w, page) then .wait s
    else .wait (s.modPart p fun q => { q with atsReqs := q.atsReqs ++ [(w, page)] })

/-- The host page's atomic mode: 1 PCIe AtomicOps, 2 host-assisted (spec/05 R101, spec/01 R24, spec/11 R308). -/
def State.hatMode (s : State) (w featvec e : Nat) : Nat :=
  if !bitOf featvec 6 then 2
  else
    match leafHat e with
    | 1 => 1
    | 2 => 2
    | _ => if bitOf (s.part (partOfWorld w)).dutycfg.toNat 2 then 2 else 1

/-- The roster entry of a peer (spec/14 R366). -/
def rosterEntry : List Nat → Nat → Option Nat
  | [], _ => none
  | e :: r, id => if bitOf e 31 && e % 2 ^ 20 == id then some e else rosterEntry r id

/-- The world's roster as device memory holds it. -/
def State.rosterInMemory (s : State) (w : Nat) : List Nat :=
  let cfg := (s.world w).wcfg.toNat
  let base := absAddr (partOfWorld w) (bitsOf cfg 51 12 * 4096)
  (rangeFrom 0 (cfg % 4096)).map (fun i => ofBytes (s.mem.readBytes (base + 4 * i) 4))

/-- The world's roster as the ports hold it, read when it is not held. -/
def State.rosterOf (s : State) (w : Nat) : List Nat := ((s.world w).roster).getD (s.rosterInMemory w)

/-- The peer admits the access (spec/14 R366). -/
def State.rosterOk (s : State) (w id : Nat) (a : Acc) : Bool :=
  match rosterEntry (s.rosterOf w) id with
  | none => false
  | some e =>
    match a with
    | .store | .engineWrite | .cinv => bitOf e 29
    | .atomic _ | .reduce _ => bitOf e 30
    | _ => bitOf e 28

/-- An address of the global space is in canonical form (spec/05 R97). -/
def canonical (va : Nat) : Bool := bitsOf va 63 56 == (if bitOf va 55 then 255 else 0)

/-- How an access is cut at a port: at the 4 KiB pages of the host (spec/14 R359), a core's 16 bytes into 64-bit halves (spec/05 R109);
addresses and lengths. -/
def portCuts (host engine : Bool) (a len : Nat) : List (Nat × Nat) :=
  if !engine && len = 16 then cutAt 8 4 a len else if host then cutAt 4096 (len / 4096 + 2) a len else [(a, len)]

/-- The pieces of an access on a host page, each with its host address. -/
def State.placeHost (s : State) (w featvec : Nat) (a : Acc) (t : TlbEntry) (va ioa : Nat) : List (Nat × Nat) → Checked (List Part)
  | [] => .ok [] s
  | (x, len) :: r =>
    let at_ : W64 := BitVec.ofNat 64 (va + (x - ioa))
    match s.hostFrame w x a.writes with
    | .wait s' => .wait s'
    | .fault c y s' => .fault c (if bitOf (s.part (partOfWorld w)).dutycfg.toNat 1 then y else at_) s'
    | .ok ha s' =>
      if a.writes && s.isProtected w && !leafBnc t.bits then .fault .egress at_ s'
      else
        match State.placeHost s' w featvec a t va ioa r with
        | .ok ps s'' =>
          .ok (⟨.host, ha, len, leafOrd t.bits == 0 || leafDev t.bits, leafOrd t.bits == 2 && !leafDev t.bits, false, leafDev t.bits,
            s.hatMode w featvec t.bits, x, 0⟩ :: ps) s''
        | other => other

/-- Where an access on one page is performed, once its leaf is known: host translation, egress, roster. -/
def State.place (s : State) (w featvec : Nat) (a : Acc) (t : TlbEntry) (va len : Nat) : Checked (List Part) :=
  let e := t.bits
  let pa := t.pa + (va % 2 ^ 56 - t.page * 2 ^ 18)
  let strong := leafOrd e == 0 || leafDev e
  let unordered := leafOrd e == 2 && !leafDev e
  if leafHost e then
    if !bitOf (s.world w).wpasid.toNat 20 then .fault .xlate (BitVec.ofNat 64 va) s
    else s.placeHost w featvec a t va pa (portCuts true a.engine pa len)
  else if leafRem e then
    if s.rosterOk w t.fdev a then
      .ok ((portCuts false a.engine pa len).map fun c => ⟨.peer t.fdev, c.1, c.2, strong, unordered, false, leafDev e, 0, 0, 0⟩) s
    else .fault .roster (BitVec.ofNat 64 va) s
  else
    match s.deviceHome (partOfWorld w) pa len with
    | some .dev =>
      .ok [⟨.dev, absAddr (partOfWorld w) pa, len, strong, unordered, leafC e && !strong, leafDev e, 0, 0, leafRetn e⟩] s
    | some h => .ok [⟨h, pa, len, strong, unordered, false, leafDev e, 0, 0, 0⟩] s
    | none => .fault .xlate (BitVec.ofNat 64 va) s

/-- One page's translation and permission (R104). -/
def State.translatePart (s : State) (ctx world : Nat) (a : Acc) (va : Nat) : Checked TlbEntry :=
  if !canonical va then .fault .xlate (BitVec.ofNat 64 va) s else
  match s.leafOf ctx va with
  | .error e => .fault e (BitVec.ofNat 64 va) s
  | .ok (t, s1) => if a.permitted world t.bits then .ok t s1 else .fault .perm (BitVec.ofNat 64 va) s1

/-- The bytes of an access on its first page. -/
def firstLen (va n : Nat) : Nat := min n (2 ^ 18 - va % 2 ^ 18)

/-- The checks of the part of an access on one page, in order: translation, permission, alignment (the access's own, and on a device page
its size's, which no access that straddles has), deterministic mode, where it goes. -/
def State.checkPage (s : State) (ctx world featvec : Nat) (a : Acc) (va len : Nat) (aligned whole : Bool) (at_ : Nat) :
    Checked (TlbEntry × List Part) :=
  match s.translatePart ctx world a va with
  | .fault c x s' => .fault c x s'
  | .wait s' => .wait s'
  | .ok t s1 =>
    if !aligned || (leafDev t.bits && !a.engine && !whole) then .fault .align (BitVec.ofNat 64 at_) s1
    else if a.barred && (leafHost t.bits || leafRem t.bits) then .fault .detViolation (BitVec.ofNat 64 at_) s1
    else
      match s1.place world featvec a t va len with
      | .ok ps s2 => .ok (t, ps) s2
      | .fault c x s2 => .fault c x s2
      | .wait s2 => .wait s2

/-- Every part of a global access of n bytes checked, in address order (R110), with the leaves it goes through; `align` is the alignment it
must have on any page, and on a device page every access of a core is aligned to its size (R109).  Neither `A` nor `D` is set. -/
def State.checkOnce (s : State) (ctx world featvec : Nat) (a : Acc) (va n : Nat) (align : Nat) :
    Checked (List TlbEntry × List Part) :=
  let n1 := firstLen va n
  match s.checkPage ctx world featvec a va n1 (va % align == 0) (va % n == 0) va with
  | .fault c x s1 => .fault c x s1
  | .wait s1 => .wait s1
  | .ok p1 s1 =>
    if n1 = n then .ok ([p1.1], p1.2) s1
    else
      match s1.checkPage ctx world featvec a ((va + n1) % 2 ^ 64) (n - n1) true false va with
      | .fault c x s2 => .fault c x s2
      | .wait s2 => .wait s2
      | .ok p2 s2 => .ok ([p1.1, p2.1], p1.2 ++ p2.2) s2

/-- `A`, and `D` for a write, set in every leaf; none where one has changed since it was walked (R105). -/
def State.setLeaves (s : State) (write : Bool) : List TlbEntry → Option State
  | [] => some s
  | t :: r =>
    match s.setAD t write with
    | some s' => State.setLeaves s' write r
    | none => none

/-- A global access of n bytes checked, and `A` and `D` set where it passes: an access that faults has no effect.  Where a leaf has
changed, the walk starts again (R105). -/
def State.checkGlobal (s : State) (ctx world featvec : Nat) (a : Acc) (va n : Nat) (align : Nat) : Checked (List Part) :=
  match s.checkOnce ctx world featvec a va n align with
  | .fault c x s1 => .fault c x s1
  | .wait s1 => .wait s1
  | .ok r s1 =>
    if r.1.any (s1.leafStuck a.writes) then .wait s1 else
    match s1.setLeaves a.writes r.1 with
    | some s2 => .ok r.2 s2
    | none =>
      match ({ s1 with tlb := s1.tlb.filter fun x => !r.1.contains x }).checkOnce ctx world featvec a va n align with
      | .fault c x s2 => .fault c x s2
      | .wait s2 => .wait s2
      | .ok r' s2 => .ok r'.2 ((s2.setLeaves a.writes r'.1).getD s2)

/-- The bank of a scratch address is in scratch mode for the world (spec/05 R111). -/
def State.bankOk (s : State) (c w a : Nat) : Bool :=
  let b := (s.cluster c).bank (a / 2 ^ 18)
  b.mode == .scratch && b.world == w

/-- The first byte of a scratch range that lies in no bank of the world. -/
def State.scratchBad (s : State) (c w a n : Nat) : Option Nat :=
  if n = 0 then none
  else
    ((rangeFrom (a / 2 ^ 18) ((a + n - 1) / 2 ^ 18 + 1 - a / 2 ^ 18)).find? fun b => !(b < 64 && s.bankOk c w (b * 2 ^ 18))).map
      fun b => max a (b * 2 ^ 18)

/-- A scratch access of n bytes (spec/05 R97, R109 to R111). -/
def State.checkScratch (s : State) (c w va n align : Nat) : Checked (List Part) :=
  if 2 ^ 24 ≤ va then .fault .xlate (BitVec.ofNat 64 va) s
  else if !s.bankOk c w va then .fault .perm (BitVec.ofNat 64 va) s
  else if va % align != 0 then .fault .align (BitVec.ofNat 64 va) s
  else if 2 ^ 24 < va + n then .fault .xlate (BitVec.ofNat 64 (2 ^ 24)) s
  else
    match s.scratchBad c w va n with
    | some x => .fault .perm (BitVec.ofNat 64 x) s
    | none => .ok [.plain (.scratch c) va n] s

/-- The range lies in the thread's part of handle-local memory (spec/05 R98). -/
def localOk (thread a n : Nat) : Bool :=
  if thread < 2 then a + n ≤ 0x30000 || (0x3C000 ≤ a && a + n ≤ 0x40000)
  else 0x30000 + 0x2000 * (thread - 2) ≤ a && a + n ≤ 0x32000 + 0x2000 * (thread - 2)

/-- A handle-local access (spec/05 R98). -/
def State.checkLocal (s : State) (c thread va n align : Nat) : Checked (List Part) :=
  if 2 ^ 18 ≤ va then .fault .xlate (BitVec.ofNat 64 va) s
  else if !localOk thread va n then .fault .perm (BitVec.ofNat 64 va) s
  else if va % align != 0 then .fault .align (BitVec.ofNat 64 va) s
  else .ok [.plain (.handle c) va n] s

/-- A global access by the device itself in a world's context (a ring, a table, a queue): read. -/
def State.readGlobal (s : State) (ctx world va n : Nat) : Except (FaultCode × Nat) (List Byte × State) :=
  match s.checkGlobal ctx world 0x103FF .engineRead va n 1 with
  | .fault c x _ => .error (c, if x.toNat = 0 then va else x.toNat)
  | .wait _ => .error (.xlate, va)
  | .ok ps s' =>
    match s'.readParts (.ofCluster (32 / s.partitions * partOfWorld world)) world 5 ps with
    | .error e => .error (e, va)
    | .ok r => .ok r

/-- The same, a write. -/
def State.writeGlobal (s : State) (ctx world va : Nat) (bs : List Byte) : Except (FaultCode × Nat) State :=
  match s.checkGlobal ctx world 0x103FF .engineWrite va bs.length 1 with
  | .fault c _ _ => .error (c, va)
  | .wait _ => .error (.xlate, va)
  | .ok ps s1 =>
    let s' := ps.foldl (fun s p => if p.home == .dev then s.shadowRange p.addr p.len else s) s1
    match s'.writeParts (.ofCluster (32 / s.partitions * partOfWorld world)) world 5 ps bs with
    | .error e => .error (e, va)
    | .ok r => .ok r

/-- A range cut where pages end, for ranges longer than a page. -/
def State.readGlobalLong (s : State) (ctx world : Nat) : Nat → Nat → Nat → Except (FaultCode × Nat) (List Byte × State)
  | 0, _, _ => .ok ([], s)
  | fuel + 1, va, n =>
    if n = 0 then .ok ([], s) else
    let k := firstLen va n
    match s.readGlobal ctx world va k with
    | .error e => .error e
    | .ok (bs, s') =>
      match State.readGlobalLong s' ctx world fuel (va + k) (n - k) with
      | .error e => .error e
      | .ok (r, s'') => .ok (bs ++ r, s'')

def State.writeGlobalLong (s : State) (ctx world : Nat) : Nat → Nat → List Byte → Except (FaultCode × Nat) State
  | 0, _, _ => .ok s
  | fuel + 1, va, bs =>
    if bs.isEmpty then .ok s else
    let k := firstLen va bs.length
    match s.writeGlobal ctx world va (bs.take k) with
    | .error e => .error e
    | .ok s' => State.writeGlobalLong s' ctx world fuel (va + k) (bs.drop k)

end Sys2Proof.Machine
end

