-- ==== Sys2Proof/Machine/Report.lean ====
section
/-! DEFINITION. What the device reports: fault records, events of the cluster event queue, trace records (spec/19 R413
to R421, spec/10 R286, R287, spec/15 R381 to R383). -/

namespace Sys2Proof.Machine

/-! ## Fault codes (spec/19 R411) -/

def faultNum : FaultCode → Nat
  | .illegalOp => 0x01 | .regRange => 0x02 | .formatDiverge => 0x03 | .emptyInterval => 0x04 | .align => 0x05
  | .xlate => 0x06 | .perm => 0x07 | .egress => 0x08 | .roster => 0x09 | .macFail => 0x0A | .hostAtomic => 0x0B
  | .qorphan => 0x0C | .detViolation => 0x0D | .statSlot => 0x0E | .tlrBad => 0x0F | .launchBad => 0x10
  | .migrateBad => 0x11 | .spawnFull => 0x12 | .watch => 0x13 | .bkpt => 0x14 | .trap => 0x15 | .eccUncorr => 0x16
  | .linkDown => 0x17 | .timeout => 0x18

/-- `CLOCK` of a partition (spec/03 R67). -/
def State.clockOf (s : State) (p : Nat) : Nat := (s.clock - (s.part p).clock0) % 2 ^ 64

/-! ## Events (spec/10 R286, R287) -/

/-- Entries of a world in an event list. -/
def eventsOf (w : Nat) (es : List Event) : Nat := (es.filter (fun e => e.world == w)).length

/-- The event queue has room for n entries of a world. -/
def Cluster.eventRoom (c : Cluster) (w n : Nat) : Bool := c.events.length + n ≤ 4096 && eventsOf w c.events + n ≤ 1024

/-- Held posts of a world. -/
def Cluster.heldOf (c : Cluster) (w : Nat) : Nat := (c.held.filter fun e => e.world == w).length

/-- A device post goes straight into the queue. -/
def Cluster.postNow (c : Cluster) (w : Nat) : Bool := c.heldOf w == 0 && c.eventRoom w 1

/-- A post by the device: queued, or held when the world already has held posts or there is no room; `packet` names the EVENT packet that
makes it.  What is held beyond a world's share is the posts whose sources wait (notes/assumptions/113). -/
def State.postFor (s : State) (cluster : Nat) (e : Event) (packet : Option (Nat × Nat)) : State :=
  s.modCluster cluster fun c =>
    if c.postNow e.world then { c with events := c.events ++ [e] } else { c with held := c.held ++ [⟨e, packet⟩] }

def State.postEvent (s : State) (cluster : Nat) (e : Event) : State := s.postFor cluster e none

/-- The source word of a device post: `SCHED` alone (spec/10 R286). -/
def schedSource : W32 := 0x80000000

/-! ## Fault records (spec/19 R415, R416, R420, R421) -/

/-- The fields of a fault record. -/
structure Record where
  code : FaultCode
  imp : Bool
  stake : Bool
  guest : Bool
  iopx : Nat
  term : Bool
  world : Nat
  /-- `RSKG`. -/
  skg : Nat
  eqid : Nat
  pc : W64
  pc2 : W64
  fmask : Mask
  /-- `RAMASK`, or `RSRC` of an imprecise report. -/
  amask : Nat
  addr : W64
  hcpc : W64
  csn : Nat
  /-- The context, and the cluster whose event queue an `EVT` event goes to. -/
  ctx : Nat
  cluster : Nat
  deriving DecidableEq, Repr

/-- `RSRC` (spec/19 R421). -/
def srcWord (kind cluster unit port peer : Nat) : Nat :=
  packFields [(3, kind), (5, cluster), (4, unit), (5, port), (20, peer)]

/-- The 64 bytes of a record (spec/19 R420). -/
def Record.bytes (r : Record) (loss : Bool) (ctxid : Nat) : List Byte :=
  let flg := packFields [(1, boolNat r.imp), (1, boolNat r.stake), (1, boolNat r.guest), (3, r.iopx),
    (1, boolNat r.term), (1, boolNat loss)]
  bytesOf 1 (faultNum r.code) ++ bytesOf 1 flg ++ bytesOf 1 r.world ++ bytesOf 1 r.skg
    ++ bytesOf 4 (r.eqid % 2 ^ 26) ++ bytesOf 8 r.pc.toNat ++ bytesOf 8 r.pc2.toNat ++ bytesOf 8 r.fmask.toNat
    ++ bytesOf 8 r.amask ++ bytesOf 8 r.addr.toNat ++ bytesOf 8 r.hcpc.toNat
    ++ bytesOf 6 r.csn ++ bytesOf 2 ctxid

/-- A record dropped and counted. -/
def State.dropRecord (s : State) (w : Nat) : State :=
  s.modWorld w fun x => { x with frlost := min (x.frlost + 1) (2 ^ 32 - 1), loss := true }

/-- A record appended to the world's fault ring, with the interrupt and the event that `FRCTL` asks for. -/
def State.writeRecord (s : State) (r : Record) : State :=
  let x := s.world r.world
  let logn := bitsOf x.frctl.toNat 4 0
  let ctxid := ((s.ctx r.ctx).map (·.ctxid)).getD 0xFFFF
  if logn < 6 || 16 < logn || (x.fridx + 2 ^ 32 - bitsOf x.frctl.toNat 63 32) % 2 ^ 32 == 2 ^ logn then
    s.dropRecord r.world
  else
    let at_ := bitsOf x.frbase.toNat 63 12 * 4096 + 64 * (x.fridx % 2 ^ logn)
    match s.writeGlobal r.ctx r.world (at_ % 2 ^ 64) (r.bytes x.loss ctxid) with
    | .error _ => s.dropRecord r.world
    | .ok s1 =>
      let s2 := s1.modWorld r.world fun y => { y with fridx := (y.fridx + 1) % 2 ^ 32, loss := false }
      let s3 := s2.raise r.world (bitsOf x.frctl.toNat 20 10)
      if bitOf x.frctl.toNat 9 then
        s3.postEvent r.cluster
          ⟨r.world, BitVec.ofNat 32 (0x82000000 + faultNum r.code), schedSource, BitVec.ofNat 64 x.fridx⟩
      else s3

/-- An uncorrectable event: counted, and recorded for the partition's physical function as well (spec/19 R425). -/
def State.writeRecordEcc (s : State) (r : Record) (line : Nat) : State :=
  let s1 := (s.writeRecord r).countUncorr line
  let pf := line * 128 / 2 ^ 52 * 64
  if r.world = pf then s1 else s1.writeRecord { r with world := pf, imp := true, amask := srcWord 6 r.cluster 0 0 0 }

/-! ## Trace records (spec/15 R381 to R383) -/

/-- What a trace record says besides the unit's own fields. -/
structure TraceRec where
  kind : Nat
  src : Nat
  skein : Nat
  leaf : Nat
  world : Nat
  hcpc : W64
  csn : Nat
  pc : W64
  pc2 : W64
  mask : Mask
  data : W64
  deriving DecidableEq, Repr

/-- The 64 bytes of a trace record. -/
def TraceRec.bytes (r : TraceRec) (time : Nat) : List Byte :=
  bytesOf 8 time ++ bytesOf 1 r.kind ++ bytesOf 1 r.src ++ bytesOf 1 r.skein ++ bytesOf 1 r.leaf ++ bytesOf 1 r.world
    ++ bytesOf 3 0 ++ bytesOf 8 r.hcpc.toNat ++ bytesOf 8 r.csn ++ bytesOf 8 r.pc.toNat ++ bytesOf 8 r.pc2.toNat
    ++ bytesOf 8 r.mask.toNat ++ bytesOf 8 r.data.toNat

/-- The registers of a unit's owner: the hypervisor's, or a world's. -/
def State.traceRegs (s : State) (cluster owner : Nat) : TraceRegs :=
  if owner = 1 then (s.cluster cluster).trace.hyp
  else (tget (s.world (owner - 2)).trace cluster).getD .reset

/-- The owner's registers changed. -/
def State.modTraceRegs (s : State) (cluster owner : Nat) (f : TraceRegs → TraceRegs) : State :=
  if owner = 1 then
    s.modCluster cluster fun c => { c with trace := { c.trace with hyp := f c.trace.hyp } }
  else
    s.modWorld (owner - 2) fun w => { w with trace := tset w.trace cluster (f ((tget w.trace cluster).getD .reset)) }

/-- A record's bytes put in the owner's ring at its write index. -/
def State.putTrace (s : State) (cluster owner ctx : Nat) (bs : List Byte) : Option State :=
  let r := s.traceRegs cluster owner
  let n := 2 ^ (r.size % 32)
  if r.size % 32 < 6 || 24 < r.size % 32 || (r.wr + 2 ^ 32 - r.rd) % 2 ^ 32 == n then none
  else
    let at_ := r.base.toNat + 64 * (r.wr % n)
    let written :=
      if owner = 1 then
        (match s.writeDev (64 * s.partOfCluster cluster) (absAddr (s.partOfCluster cluster) (at_ % 2 ^ 52)) bs with
          | .ok s' => some s'
          | .error _ => none)
      else
        (match s.writeGlobal ctx (owner - 2) (at_ % 2 ^ 64) bs with
          | .ok s' => some s'
          | .error _ => none)
    written.map fun s' => s'.modTraceRegs cluster owner fun x => { x with wr := (x.wr + 1) % 2 ^ 32 }

/-- A record made for the unit's owner, when it admits the world and the kind; a full ring counts it as dropped, and the
first one after space returns is preceded by a gap record. -/
def State.trace (s : State) (cluster ctx : Nat) (r : TraceRec) : State :=
  let u := (s.cluster cluster).trace
  let regs := s.traceRegs cluster u.owner
  if u.owner = 0 || !bitOf regs.kinds r.kind || (u.owner != 1 && u.owner != r.world + 2) then s
  else
    let time := s.clockOf (s.partOfCluster cluster)
    let drop (s : State) : State :=
      s.modCluster cluster fun c => { c with trace := { c.trace with dropped := c.trace.dropped + 1 } }
    let put (s : State) : State :=
      match s.putTrace cluster u.owner ctx (r.bytes time) with
      | some s' => s'
      | none => drop s
    if u.dropped = 0 then put s
    else
      match s.putTrace cluster u.owner ctx
          (({ r with kind := 13, pc := 0, pc2 := 0, mask := 0, data := BitVec.ofNat 64 u.dropped } : TraceRec).bytes time) with
      | none => drop s
      | some s' => put (s'.modCluster cluster fun c => { c with trace := { c.trace with dropped := 0 } })

end Sys2Proof.Machine
end

