-- ==== Sys2Proof/Machine/Fetch.lean ====
section
/-! DEFINITION. Where a fibre stands, what it would issue, the scoreboard, and the choice of a batch (spec/02 R34, R35,
spec/03 R66, spec/11 R298). -/

namespace Sys2Proof.Machine

/-! ## Registers counted in the allocation -/

/-- A register field as a place that CALL and RET do not move. -/
def Fibre.place (f : Fibre) (n : Nat) : Nat := if n < 248 then f.wshift + n else 1000 + n

/-- The places of a group. -/
def Group.places (g : Group) (f : Fibre) : List Nat := g.regs.map f.place

/-- A word written at a place. -/
def Fibre.wrPlace (f : Fibre) (p : Nat) (v : W32) : Fibre :=
  if p < 1000 then
    { f with
      regs := setAt f.regs p (if p = f.wshift then BitVec.ofNat 32 (pwClean 16 v.toNat) else v)
      poison := f.poison.filter (· != p) }
  else { f with e := setAt f.e (p - 1248) v, poison := f.poison.filter (· != p) }

/-- Words written from a place on. -/
def Fibre.wrPlaces (f : Fibre) (p : Nat) : List W32 → Fibre
  | [] => f
  | v :: r => Fibre.wrPlaces (f.wrPlace p v) (p + 1) r

/-- The words of a value, lowest first. -/
def wordsOf : Nat → Nat → List W32
  | 0, _ => []
  | n + 1, v => BitVec.ofNat 32 v :: wordsOf n (v / 2 ^ 32)

/-! ## Where a fibre stands -/

/-- It issues template words. -/
def Fibre.inTemplate (f : Fibre) : Bool :=
  match f.expansion with
  | some x => !x.words.isEmpty && !f.parked && !f.emul
  | none => false

/-- It stands at a guest instruction that is not being expanded. -/
def Fibre.atGuest (f : Fibre) : Bool := f.pers != 0 && !f.emul && !f.parked && !f.inTemplate

/-- Its faults count as guest code (spec/19 R417). -/
def Fibre.isGuest (f : Fibre) : Bool := f.pers != 0 && !f.emul

/-- The weave table of a cluster for a personality id. -/
def State.weaveTable (s : State) (cluster pers : Nat) : Option WeaveTable := tget (s.cluster cluster).weave pers

/-- A field of n bytes of a weave table. -/
def WeaveTable.field (t : WeaveTable) (off n : Nat) : Nat := ofBytes ((t.bytes.drop off).take n)

/-- The guest PC unit in bytes (spec/11 R292 `PCUNIT`). -/
def WeaveTable.unit (t : WeaveTable) : Nat := 2 ^ t.field 0x09 1

/-- The guest PC unit of a fibre: that of the instruction it carries out, else that of its table. -/
def State.unitOf (s : State) (cluster : Nat) (f : Fibre) : Nat :=
  match f.expansion with
  | some x => x.unit
  | none => ((s.weaveTable cluster f.pers).map WeaveTable.unit).getD 1

/-! ## Fetch (spec/05 R102, R104) -/

/-- Lines that a core's own instruction cache holds: 64 KiB in a rand core, the 256 KiB cache of a stake core (spec/01 R14); a handle core
has none. -/
def codeCap (k : CoreKind) : Nat :=
  match k with
  | .rand => 512
  | .stake => 2048
  | .handle => 0

/-- An instruction cache with a line entered, the oldest leaving where it is full. -/
def enterCode (cap : Nat) (ls : List CodeLine) (x : CodeLine) : List CodeLine := if ls.length < cap then ls ++ [x] else ls.drop 1 ++ [x]

/-- The line of a world in an instruction cache. -/
def findCode (ls : List CodeLine) (line w : Nat) : Option CodeLine := ls.find? fun x => x.line == line && x.world == w

/-- A line of code as a gang's core fetches it: from its own instruction cache, which its cluster's of 1 MiB fills, which memory fills
(spec/01 R12, R14).  Nothing keeps these caches in step with stores (notes/assumptions/115). -/
def State.codeLine (s : State) (g : Gang) (w line : Nat) : Except FaultCode (List Byte × State) :=
  match findCode (s.core g.coreNo).code line w with
  | some x => .ok (x.bytes, s)
  | none =>
    let own (s : State) (x : CodeLine) : State := s.modCore g.coreNo fun k => { k with code := enterCode (codeCap g.kind) k.code x }
    match findCode (s.cluster g.cluster).code line w with
    | some x => .ok (x.bytes, own s x)
    | none =>
      match s.readHome g.via w 4 { Part.plain .dev (line * 128) 128 with cached := true } with
      | .error c => .error c
      | .ok (bs, s1) =>
        let x : CodeLine := ⟨line, w, bs⟩
        .ok (bs, own (s1.modCluster g.cluster fun k => { k with code := enterCode 8192 k.code x }) x)

/-- The bytes of a fetch: through the instruction caches on cached pages. -/
def State.readCode (s : State) (g : Gang) (w : Nat) : List (Nat × Nat) → Except FaultCode (List Byte × State)
  | [] => .ok ([], s)
  | (a, n) :: r =>
    match s.codeLine g w (a / 128) with
    | .error c => .error c
    | .ok (bs, s1) =>
      match State.readCode s1 g w r with
      | .error c => .error c
      | .ok (bs', s2) => .ok ((bs.drop (a % 128)).take n ++ bs', s2)

/-- The bytes of a fetch's parts. -/
def State.readFetch (s : State) (g : Gang) (w : Nat) (ps : List Part) : Except FaultCode (List Byte × State) :=
  if g.kind != .handle && ps.all (fun p => p.home == .dev && p.cached) then
    s.readCode g w (ps.flatMap fun p => cutAt 128 3 p.addr p.len)
  else s.readParts g.via w 4 ps

/-- The canonical word at an address.  DESIGN CHOICE (notes/assumptions/112): at a PC that is no multiple of 8, for which
spec/ names no fault, the 8 bytes from there on are the word. -/
def State.fetchWord (s : State) (g : Gang) (pc : W64) : Checked W64 :=
  match s.checkGlobal g.ctx (s.worldOf g) (s.featvecOf g) (.fetch 0) pc.toNat 8 1 with
  | .fault c a s' => .fault c a s'
  | .wait s' => .wait s'
  | .ok ps s' =>
    match s'.readFetch g (s.worldOf g) ps with
    | .error c => .fault c pc s'
    | .ok (bs, s'') => .ok (BitVec.ofNat 64 (ofBytes bs)) s''

/-- What a fibre would issue. -/
inductive Fetched where
  | instr (i : Instr) (s : State)
  | bad (w : W64) (s : State)
  | fault (code : FaultCode) (addr : W64) (s : State)
  | guest
  | wait (s : State)

/-- A word as fetched. -/
def fetchedWord (w : W64) (s : State) : Fetched :=
  match decode w with
  | .ok i => .instr i s
  | .error _ => .bad w s

/-- What a fibre of a gang would issue now. -/
def State.fetched (s : State) (g : Gang) (f : Fibre) : Fetched :=
  if f.atGuest then .guest
  else if f.inTemplate then
    fetchedWord ((f.expansion.bind fun x => x.words[f.iopx]?).getD 0) s
  else
    match s.fetchWord g f.pc with
    | .ok w s' => fetchedWord w s'
    | .fault c a s' => .fault c a s'
    | .wait s' => .wait s'

/-! ## The scoreboard (spec/03 R66, spec/19 R424) -/

/-- Registers of a tile element (spec/10 R274). -/
def tileWords (fmtWord : Nat) (iv : Bool) : Nat := (if bitsOf fmtWord 11 8 = 1 then 2 else 1) * (if iv then 2 else 1)

/-- The registers TGET and TSTR move in a fibre (spec/10 R274). -/
def spanGroup (f : XF) (src : Bool) (x : Fibre) : Group :=
  let w := tileWords (x.rd f.c.toNat).toNat (f.bits 9 9 == 1)
  ⟨f.b.toNat, 2 ^ f.bits 14 13 * (f.bits 5 2 + 1) * w, w, src, false⟩

/-- Groups whose extent a register or the window gives: watched by the scoreboard, checked at stage 3. -/
def spansOf (i : Instr) (x : Fibre) : List Group :=
  match i with
  | .tget f => [spanGroup f false x]
  | .tstr f => [spanGroup f true x]
  | .call f | .callx f => [⟨8 * f.cb.toNat, 4, 1, false, false⟩, pwG]
  | _ => []

/-- The places that an instruction names in a fibre. -/
def namedPlaces (i : Instr) (x : Fibre) : List Nat :=
  ((needOf i).watched ++ spansOf i x).flatMap fun g => g.places x

/-- The operation returns a value to registers: LD, LDIV, ATOM, ATOMC, TGET (spec/13 R331). -/
def returnsValue (kind : Nat) : Bool := kind == 1 || kind == 2 || kind == 5 || kind == 6 || kind == 0x1C

/-- A fibre's operations in the record that return a value, with the entry. -/
def Skein.loadsOf (sk : Skein) (x : Fibre) : List (Entry × SlotOp) :=
  (sk.record.filter fun e => returnsValue e.kind).flatMap fun e => (e.ops.filter fun o => o.uid == x.uid).map fun o => (e, o)

/-- The result is still to come. -/
def Stage.pending : Stage → Bool
  | .sent | .performed => true
  | _ => false

/-- The places an operation writes: n registers from its destination. -/
def opPlaces (e : Entry) (o : SlotOp) : List Nat := rangeFrom o.dst (if e.kind = 0x1C then o.cmp else max 1 (e.aux))

/-- The places whose result is pending in a fibre: until its whole operation is complete, which a replay would perform again for every slot
(spec/13 R339). -/
def Skein.pendingPlaces (sk : Skein) (x : Fibre) : List Nat :=
  ((sk.loadsOf x).filter fun p => p.2.stage.pending || (p.2.stage == .done && p.1.ops.any fun o => o.stage.pending)).flatMap (fun p => opPlaces p.1 p.2)
    ++ x.late.flatMap fun l => rangeFrom l.1 l.2.length

/-- The scoreboard holds the instruction back. -/
def Skein.holds (sk : Skein) (i : Instr) (x : Fibre) : Bool :=
  let pend := sk.pendingPlaces x
  !pend.isEmpty && (namedPlaces i x).any pend.contains

/-- The failed operations of which the instruction is the consumer. -/
def Skein.consumes (sk : Skein) (i : Instr) (x : Fibre) : List (Entry × SlotOp × FaultCode) :=
  let named := namedPlaces i x
  (sk.loadsOf x).filterMap fun p =>
    match p.2.stage with
    | .failed c => if (opPlaces p.1 p.2).any named.contains then some (p.1, p.2, c) else none
    | _ => none

/-! ## Batches -/

/-- The instruction has not issued yet where its batch waits; it issues when it can be carried out. -/
def Wait.retries : Wait → Bool
  | .none | .qpush | .evpop | .evpost | .waitc => true
  | _ => false

/-- The instruction has issued and its batch waits: it is carried out, without another issue, when what it waits for
has come (spec/02 R34, spec/09 R257, R258). -/
def Wait.issued : Wait → Bool
  | .arrwait | .qpop => true
  | _ => false

/-- An atomic of the fibre to a host page has not been answered: the fibre issues nothing more (spec/21 R446). -/
def Skein.heldByHost (sk : Skein) (x : Fibre) : Bool :=
  (sk.loadsOf x).any fun p =>
    (p.1.kind == 5 || p.1.kind == 6) && p.2.stage.pending
      && (p.2.parts.any (fun q => q.home == .host) || (p.2.parts.isEmpty && p.1.cls == 2))

/-- An interval MMA that reads C may still fault in the fibre: it issues nothing more until that is decided, so that the
fault is precise (spec/10 R267). -/
def Skein.heldByMma (sk : Skein) (x : Fibre) : Bool :=
  sk.record.any fun e => e.kind == 0x18 && (e.tile.any fun t => t.iv && !t.zc) && e.ops.any fun o => o.uid == x.uid && o.stage != .done

/-- The fibre can issue now (spec/02 R34). -/
def State.ready (s : State) (g : Gang) (sk : Skein) (x : Fibre) : Bool :=
  x.wait.retries && !x.tried && !sk.heldByHost x && !sk.heldByMma x &&
    match s.fetched g x with
    | .instr i _ => !sk.holds i x
    | .wait _ => false
    | _ => true

/-- The instruction waits as issued, and something has happened since it was last looked at. -/
def Fibre.resumable (x : Fibre) : Bool := x.wait.issued && !x.tried

/-- Where a fibre stands within a guest instruction: 0 before its expansion, else the template word, counted from 1. -/
def Fibre.stage (x : Fibre) : Nat := if x.inTemplate then x.iopx + 1 else 0

/-- The template words it issues from. -/
def Fibre.template (x : Fibre) : Option Expansion := if x.inTemplate then x.expansion else none

/-- What must be equal within a batch: sub-skein, PC, personality, template and its word, emulation, batch that waits as
a whole. -/
def Fibre.batchKey (x : Fibre) : Bool × Nat × Nat × Nat × Option Expansion × Bool × Nat :=
  (x.parked, x.pc.toNat, x.pers, x.stage, x.template, x.emul, if x.wait = .none then 0 else x.waitArg)

/-- The order of PCs, then personalities, then template words (spec/02 R35). -/
def Fibre.before (x y : Fibre) : Bool :=
  if x.pc.toNat ≠ y.pc.toNat then x.pc.toNat < y.pc.toNat
  else if x.pers ≠ y.pers then x.pers < y.pers
  else x.stage < y.stage

/-- The fibre whose batch comes next (spec/02 R35). -/
def chooseFibre : List (Nat × Fibre) → Option Fibre
  | [] => none
  | (_, x) :: r =>
    match chooseFibre r with
    | none => some x
    | some y =>
      if 256 ≤ x.pass ∨ 256 ≤ y.pass then
        (if y.pass < x.pass then some x else if x.pass < y.pass then some y else if y.before x then some y else some x)
      else if y.before x then some y else some x

/-- The live fibres that can issue. -/
def State.readyFibres (s : State) (g : Gang) (sk : Skein) : List (Nat × Fibre) := sk.live.filter fun p => s.ready g sk p.2

/-- The skein has a ready batch. -/
def State.hasBatch (s : State) (g : Gang) (sk : Skein) : Bool := !(s.readyFibres g sk).isEmpty

/-- The slots of the batch of a fibre among a list. -/
def batchOf (x : Fibre) (rs : List (Nat × Fibre)) : List Nat := (rs.filter fun p => p.2.batchKey == x.batchKey).map (·.1)

/-- The fibres of batches that wait as issued and are to be looked at. -/
def Skein.resumables (sk : Skein) : List (Nat × Fibre) := sk.live.filter fun p => p.2.resumable

/-- The next batch of a skein: its slots.  A batch that waits as issued is looked at first, which is no issue. -/
def State.nextBatch (s : State) (g : Gang) (sk : Skein) : List Nat :=
  match sk.resumables with
  | p :: _ => batchOf p.2 sk.resumables
  | [] =>
    let rs := s.readyFibres g sk
    match chooseFibre rs with
    | none => []
    | some x => batchOf x rs

end Sys2Proof.Machine
end

