-- ==== Sys2Proof/Machine/Order.lean ====
section
/-! DEFINITION. The order checker: vector clocks, granule history and reports (spec/15 R386, spec/22 R469, R470).  What happens-before is
over-approximated by gangs, clusters and granules, which can only cause a race to be missed (notes/assumptions/39). -/

namespace Sys2Proof.Machine

/-- Some grid of the partition is checked. -/
def State.checking (s : State) (p : Nat) : Bool := s.grids.any fun g => g.ordchk && !g.done && partOfWorld g.world == p

/-! ## Clocks.  What carries one: (0, g, 0) gang g; (1, k, 0) grid k at its launch; (2, place, class) a place, by who released there;
(3, g, class) what gang g read there before an acquire fence; (4, g, scope) gang g at its release fence; (5, g, 0) deposits to gang g;
(6, 64 × cluster + bank, 0) a FIFO bank; (7, 0, 0) the event queues; (8, 0, 0) everything outside the gangs. -/

abbrev OrdKey := Nat × Nat × Nat

/-- The later of two clocks, gang by gang. -/
def joinClock (a b : Tbl Nat) : Tbl Nat := b.foldl (fun t p => tset t p.1 (max ((tget t p.1).getD 0) p.2)) a

/-- The clock kept under a key. -/
def Partition.ordFind (x : Partition) (k : OrdKey) : Option (Tbl Nat) := (x.ordClocks.find? fun p => p.1 == k).map (·.2)

def Partition.ordGet (x : Partition) (k : OrdKey) : Tbl Nat := (x.ordFind k).getD []

def Partition.ordPut (x : Partition) (k : OrdKey) (t : Tbl Nat) : Partition :=
  { x with ordClocks := (k, t) :: x.ordClocks.filter fun p => p.1 != k }

/-- A gang's clock: its own, or as it was when its grid was launched, or what was outside. -/
def Partition.gangClock (x : Partition) (g : Gang) : Tbl Nat :=
  ((x.ordFind (0, g.key, 0)).or (x.ordFind (1, g.grid, 0))).getD (x.ordGet (8, 0, 0))

/-- The gang's own component of its next accesses. -/
def Partition.epoch (x : Partition) (g : Gang) : Nat := (tget (x.gangClock g) g.key).getD 0 + 1

/-- What the gang did so far is published under keys. -/
def Partition.publish (x : Partition) (g : Gang) (ks : List OrdKey) : Partition :=
  let t := tset (x.gangClock g) g.key (x.epoch g)
  (ks.foldl (fun x k => x.ordPut k (joinClock (x.ordGet k) t)) x).ordPut (0, g.key, 0) t

/-- The clocks under the keys that satisfy f, joined. -/
def Partition.gathered (x : Partition) (f : OrdKey → Bool) : Tbl Nat :=
  (x.ordClocks.filter fun p => f p.1).foldl (fun t p => joinClock t p.2) []

/-- The gang has seen what is published under keys, and what happened outside. -/
def Partition.obtain (x : Partition) (g : Gang) (f : OrdKey → Bool) : Partition :=
  x.ordPut (0, g.key, 0) (joinClock (x.gangClock g) (x.gathered fun k => k == (8, 0, 0) || f k))

/-- The class of a release by a gang of cluster c: wide at device scope and above, narrow at cluster scope (spec/05 R121). -/
def ordClass (c scope : Nat) : Nat := 2 * c + (if 4 ≤ scope then 1 else 0)

/-- An acquire by a gang of cluster c at a scope pairs with a release of a class (R125). -/
def ordPairs (c scope cls : Nat) : Bool := (4 ≤ scope && cls % 2 == 1) || (3 ≤ scope && cls / 2 == c)

/-- A change of the checker's data in the gang's partition while it checks. -/
def State.ordering (s : State) (g : Gang) (f : Partition → Partition) : State :=
  let p := s.partOfCluster g.cluster
  if s.checking p then s.modPart p f else s

/-- Something outside the gangs happens: it has seen what every gang did. -/
def State.ordOutside (s : State) : State :=
  s.gangs.foldl (fun s g => s.ordering g fun x => x.publish g [(8, 0, 0)]) s

/-- A grid is launched. -/
def State.ordLaunch (s : State) (p key : Nat) : State :=
  let s1 := s.ordOutside
  if s1.checking p then s1.modPart p fun x => x.ordPut (1, key, 0) (x.ordGet (8, 0, 0)) else s1

/-- Gangs meet at a span barrier. -/
def State.ordMeet (s : State) (gs : List Gang) : State :=
  let keys := gs.map (·.key)
  let s1 := gs.foldl (fun s g => s.ordering g fun x => x.publish g []) s
  gs.foldl (fun s g => s.ordering g fun x => x.ordPut (0, g.key, 0) (joinClock (x.gangClock g)
    (x.gathered fun k => k.1 == 0 && keys.contains k.2.1))) s1

/-- A fence of a gang's fibres: bit 0 of `order` acquire, bit 1 release (R125, R129). -/
def State.ordFence (s : State) (g : Gang) (order scope : Nat) : State :=
  s.ordering g fun x =>
    let x1 := if bitOf order 0 then x.obtain g (fun k => k.1 == 3 && k.2.1 == g.key && ordPairs g.cluster scope k.2.2) else x
    if bitOf order 1 then x1.publish g [(4, g.key, scope)] else x1

/-! ## Places -/

/-- A home as a number. -/
def ordHome : Home → Nat
  | .dev => 0
  | .devreg => 1
  | .host => 2
  | .scratch c => 4 + 2 * c
  | .handle c => 5 + 2 * c
  | .peer id => 1000 + id

/-- The granules of an access, with the virtual address of each. -/
def ordPlaces : Nat → List Part → List (Nat × Nat)
  | _, [] => []
  | va, p :: r =>
    (rangeFrom (p.addr / 16) ((p.addr + p.len - 1) / 16 + 1 - p.addr / 16)).map
        (fun n => (ordHome p.home * 2 ^ 60 + n, (va / 16 + (n - p.addr / 16)) * 16))
      ++ ordPlaces (va + p.len) r

/-! ## History and reports -/

/-- The scopes of two atomics of different gangs include each other (spec/05 R121, R130). -/
def ordMutual (a b : OrdAccess) : Bool :=
  (4 ≤ a.scope || (a.scope == 3 && a.cluster == b.cluster)) && (4 ≤ b.scope || (b.scope == 3 && a.cluster == b.cluster))

/-- Two accesses, the first recorded earlier, race: b's clock is t. -/
def ordRace (t : Tbl Nat) (a b : OrdAccess) : Bool :=
  a.gang != b.gang && (a.write || b.write) && !(a.atomic && b.atomic && ordMutual a b) && (tget t a.gang).getD 0 < a.clock

/-- The 48 bytes of one access of a report. -/
def OrdAccess.bytes (a : OrdAccess) : List Byte :=
  bytesOf 8 a.pc.toNat ++ bytesOf 8 a.pc2.toNat ++ bytesOf 8 a.hcpc.toNat ++ bytesOf 8 (a.csn % 2 ^ 48) ++ bytesOf 8 a.gridid.toNat
    ++ bytesOf 8 a.linear

/-- Where a world's ring lies, as a kept address, and the reports it holds (R386, R469). -/
def State.ordRing (s : State) (w : Nat) : Nat × Nat :=
  (absAddr (partOfWorld w) (bitsOf (s.world w).ordchk.toNat 51 12 * 4096), ((s.world w).ordlen.toNat - 1) / 2)

/-- Bytes of the ring written; nothing where they cannot be. -/
def State.ordWrite (s : State) (w a : Nat) (bs : List Byte) : State :=
  match s.writeDev w a bs with
  | .ok s' => s'
  | .error _ => s

/-- A pair reported: the report, then the write index; a full ring counts it as dropped. -/
def State.ordReport (s : State) (w va : Nat) (a b : OrdAccess) : State :=
  let r := s.ordRing w
  let word (k : Nat) : Nat := ofBytes (s.mem.readBytes (r.1 + 8 * k) 8)
  if r.2 ≤ (word 1 + 2 ^ 64 - word 2) % 2 ^ 64 then s.ordWrite w r.1 (bytesOf 8 (word 0 + 1))
  else
    (s.ordWrite w (r.1 + 64 + 128 * (word 1 % r.2))
      (bytesOf 8 va ++ bytesOf 1 (boolNat a.write + 2 * boolNat b.write) ++ bytesOf 1 w ++ bytesOf 6 0 ++ a.bytes ++ b.bytes
        ++ bytesOf 16 0)).ordWrite w (r.1 + 8) (bytesOf 8 (word 1 + 1))

/-- The access entered in the history of its granule; a granule beyond the 2^20 tracked is left alone (R386). -/
def Partition.ordRecord (x : Partition) (loc : Nat) (a : OrdAccess) : Partition :=
  let old := (x.ordHist.find? fun h => h.loc == loc).getD ⟨loc, none, []⟩
  let new : OrdGranule :=
    if a.write then ⟨loc, some a, []⟩
    else { old with reads := a :: old.reads.filter fun b => b.gang != a.gang || b.atomic != a.atomic || b.scope != a.scope }
  let rest := x.ordHist.filter fun h => h.loc != loc
  if rest.length < 2 ^ 20 then { x with ordHist := new :: rest } else x

/-- One granule of an access checked against its history, and entered; a read counts what it may have read as seen, for a fence may
follow (R125). -/
def State.ordCheck (s : State) (g : Gang) (w : Nat) (a : OrdAccess) (reads : Bool) (p : Nat × Nat) : State :=
  let x := s.part (s.partOfCluster g.cluster)
  let t := joinClock (x.gangClock g) (if reads then x.gathered fun k => k == (8, 0, 0) || (k.1 == 2 && k.2.1 == p.1) else [])
  let s1 :=
    match x.ordHist.find? fun h => h.loc == p.1 with
    | some h => ((h.last.toList ++ h.reads).filter fun b => ordRace t b a).foldl (fun (s : State) b => s.ordReport w p.2 b a) s
    | none => s
  s1.ordering g fun x => x.ordRecord p.1 a

/-- What an access releases at its places, the release fences before a plain write among it. -/
def Partition.ordRelease (x : Partition) (g : Gang) (release : Bool) (scope : Nat) (locs : List Nat) : Partition :=
  let x1 := if release && 3 ≤ scope then x.publish g (locs.map fun n => (2, n, ordClass g.cluster scope)) else x
  (x1.ordClocks.filter fun p => p.1.1 == 4 && p.1.2.1 == g.key && 3 ≤ p.1.2.2).foldl (fun x p =>
    locs.foldl (fun x n =>
      x.ordPut (2, n, ordClass g.cluster p.1.2.2) (joinClock (x.ordGet (2, n, ordClass g.cluster p.1.2.2)) p.2)) x) x1

/-- What a read sees at its places: with acquire order at once, else at the gang's next acquire fence. -/
def Partition.ordAcquire (x : Partition) (g : Gang) (acquire : Bool) (scope : Nat) (locs : List Nat) : Partition :=
  if acquire then x.obtain g fun k => k.1 == 2 && locs.contains k.2.1 && ordPairs g.cluster scope k.2.2
  else
    (x.ordClocks.filter fun p => p.1.1 == 2 && locs.contains p.1.2.1).foldl (fun x p =>
      x.ordPut (3, g.key, p.1.2.2) (joinClock (x.ordGet (3, g.key, p.1.2.2)) p.2)) x

/-- An access performed: what it acquires, the check of its granules where its grid is checked, what it releases. -/
def State.ordPerform (s : State) (g : Gang) (a : OrdAccess) (reads acquire release : Bool) (places : List (Nat × Nat))
    (tracked : Bool) : State :=
  let locs := places.map (·.1)
  let s1 := if reads then s.ordering g fun x => x.ordAcquire g acquire a.scope locs else s
  let a1 := { a with clock := (s1.part (s1.partOfCluster g.cluster)).epoch g }
  let s2 :=
    if tracked && ((s1.grid g.grid).map (·.ordchk)).getD false then
      places.foldl (fun (s : State) p => s.ordCheck g (s.worldOf g) a1 reads p) s1
    else s1
  if a.write then s2.ordering g fun x => x.ordRelease g release a.scope locs else s2

end Sys2Proof.Machine
end

