-- ==== Sys2Proof/Machine/Resources.lean ====
section
/-! DEFINITION. What a core has room for: skein residencies and runs of register blocks (spec/01 R14, spec/12 R321, R323). -/

namespace Sys2Proof.Machine

/-- The gangs resident on a core. -/
def State.residents (s : State) (cluster core : Nat) : List Gang :=
  s.gangs.filter fun g => g.kind != .handle && !g.ended && g.cluster == cluster && g.core == core

/-- The clock at which the compaction moves on a core end: what takes the room that they open does not issue before it (spec/12 R322). -/
def State.movesEnd (s : State) (cluster core : Nat) : Nat :=
  (((s.residents cluster core).flatMap fun g => g.skeins.map (·.moving))).foldl max 0

/-- Blocks that a skein takes (spec/12 R321). -/
def runLength (width regs : Nat) : Nat := width / 32 * (regs / 8)

/-- The runs in use on a core: first block and length. -/
def State.runsUsed (s : State) (cluster core : Nat) : List (Nat × Nat) :=
  (s.residents cluster core).flatMap fun g => g.skeins.map fun k => (k.block, runLength k.width g.nregs)

/-- Two runs share a block. -/
def runsMeet (a b : Nat × Nat) : Bool := a.1 < b.1 + b.2 && b.1 < a.1 + a.2

/-- The lowest free run of n blocks from block `at_` on. -/
def freeRunFrom (used : List (Nat × Nat)) (n : Nat) : Nat → Nat → Option Nat
  | 0, _ => none
  | fuel + 1, at_ =>
    if 512 < at_ + n then none
    else if used.any (runsMeet (at_, n)) then freeRunFrom used n fuel (at_ + 1)
    else some at_

def freeRun (used : List (Nat × Nat)) (n : Nat) : Option Nat := freeRunFrom used n 513 0

/-- Runs for k skeins of n blocks each, taken one after another. -/
def takeRuns : Nat → Nat → List (Nat × Nat) → Option (List Nat)
  | 0, _, _ => some []
  | k + 1, n, used =>
    match freeRun used n with
    | none => none
    | some a => (takeRuns k n ((a, n) :: used)).map fun r => a :: r

/-- Resident skeins a core kind can hold (spec/01 R14). -/
def residencyLimit : CoreKind → Nat
  | .rand => 32 | .stake => 16 | .handle => 8

/-- Registers per fibre a core kind can hold (spec/01 R14). -/
def registerLimit : CoreKind → Nat
  | .rand => 64 | .stake => 240 | .handle => 64

/-- Residencies in use on a core. -/
def State.skeinsHeld (s : State) (cluster core : Nat) : Nat := ((s.residents cluster core).map fun g => g.skeins.length).sum

/-- The runs a gang of k skeins would get on a core; none where it has no room. -/
def State.roomFor (s : State) (cluster core k width regs : Nat) : Option (List Nat) :=
  if residencyLimit (kindOfIndex core) < s.skeinsHeld cluster core + k then none else takeRuns k (runLength width regs) (s.runsUsed cluster core)

/-- The core is reserved by a grant. -/
def State.reserved (s : State) (cluster core : Nat) : Bool :=
  s.gangs.any fun g => g.cluster == cluster && g.target == some core && !g.ended

/-- The core indices of a kind. -/
def coresOf : CoreKind → List Nat
  | .rand => rangeFrom 0 12
  | .stake => rangeFrom 12 4
  | .handle => []

end Sys2Proof.Machine
end

