-- ==== Sys2Proof/Machine/Ops.lean ====
section
/-! DEFINITION. The issue of a batch: stage checks, guards, the in-flight record, what a fibre does next, taking an
exception and returning from one, barriers and joins, and the end of fibres and gangs (spec/02 R34 to R44, R55, spec/08,
spec/13 R330 to R334, spec/19 R417 to R424, spec/20 R426 to R440). -/

namespace Sys2Proof.Machine

/-! ## What a fibre does next -/

/-- One of the fibre's modes written (spec/03 R67 to R69): 0x18 `RMODE`, 0x19 `FMODE`, 0x1A `SRSEED`. -/
def Fibre.setMode (x : Fibre) (sel v : Nat) : Fibre :=
  if sel = 0x18 then { x with rmode := if v % 8 = 7 then 0 else v % 8 }
  else if sel = 0x19 then { x with fmode := v % 64 }
  else { x with srseed := BitVec.ofNat 32 v }

/-- Mode writes held back to the guest boundary take effect (spec/03 R69). -/
def Fibre.applyPend (x : Fibre) : Fibre :=
  { x.pend.foldl (fun y p => y.setMode p.1 p.2) x with pend := [] }

/-- A guest boundary: the fibre stands at the guest instruction at `GPC` t (spec/11 R298, R300). -/
def Fibre.toGuest (x : Fibre) (unit : Nat) (t : W64) : Fibre :=
  { x.applyPend with gpc := t, pc := t * BitVec.ofNat 64 unit, iopx := 0, expansion := none }

/-- The address, or in a template the guest PC, of the next instruction. -/
def Fibre.nextPc (x : Fibre) : W64 :=
  match x.expansion with
  | some e => if x.inTemplate then x.gpc + BitVec.ofNat 64 e.len else x.pc + 8
  | none => x.pc + 8

/-- The target of an offset field: words in canonical code, guest PC units in a template (spec/08 R210, spec/11 R300). -/
def Fibre.target (x : Fibre) (off : Int) : W64 :=
  if x.inTemplate then x.gpc + BitVec.ofInt 64 off else x.pc + BitVec.ofInt 64 (8 * off)

/-- Control goes to a target. -/
def Fibre.goto (x : Fibre) (t : W64) : Fibre :=
  match x.expansion with
  | some e => if x.inTemplate then x.toGuest e.unit t else { x with pc := t }
  | none => { x with pc := t }

/-- On to the next instruction: the next template word, or past the guest instruction, or the next word. -/
def Fibre.advance (x : Fibre) : Fibre :=
  match x.expansion with
  | some e => if x.inTemplate && x.iopx + 1 < e.words.length then { x with iopx := x.iopx + 1 } else x.goto x.nextPc
  | none => x.goto x.nextPc

/-! ## Batches -/

/-- A batch at issue: its gang and skein as they stood, its slots (`AMASK`), and the fibres whose guard passes and whose
checks of stages 1 to 3 succeeded so far. -/
structure Batch where
  g : Gang
  k : Nat
  sk : Skein
  all : List (Nat × Fibre)
  run : List (Nat × Fibre)

/-- The batch's lowest fibre in the fixed fibre order (spec/02 R37). -/
def Batch.low (b : Batch) (dflt : Fibre) : Fibre := ((b.all.head?).map (·.2)).getD dflt

/-- `AMASK` (spec/03 R67). -/
def Batch.amask (b : Batch) : Mask := maskOf (b.all.map (·.1))

/-- The world, context and feature vector a batch runs under. -/
def State.worldB (s : State) (b : Batch) : Nat := s.worldOf b.g

/-- `FIBID` of a slot (spec/02 R31); on a handle thread its number (spec/03 R67). -/
def Batch.fibid (b : Batch) (slot : Nat) : Nat := if b.g.kind = .handle then b.g.core else b.k * b.sk.width + slot

/-- What the instruction does in one fibre. -/
inductive Out where
  /-- Carried out: on to the next instruction. -/
  | next (x : Fibre)
  /-- Carried out: control goes to a target. -/
  | jump (x : Fibre) (t : W64)
  /-- Issued; the fibre stays where it stands. -/
  | stay (x : Fibre)
  | gone
  | fault (code : FaultCode) (addr : W64)
  /-- A TRAP, whose `FPC` is the next instruction. -/
  | trap (addr : W64)

/-- What the instruction does in the batch: it issues, or the batch waits as a whole. -/
inductive Result where
  | done (outs : List (Nat × Out)) (s : State)
  | held (w : Wait) (s : State)
  /-- A long instruction has done one of its units and goes on with the next (spec/13 R341). -/
  | again (s : State)

/-- Every fibre that runs answers by itself. -/
def Batch.each (b : Batch) (f : Nat → Fibre → Out) : List (Nat × Out) := b.run.map fun p => (p.1, f p.1 p.2)

/-! ## The in-flight record (spec/13 R330 to R334, spec/03 R64) -/

/-- The counter that an entry of a kind holds up: 1 L, 2 S, 3 C, 4 T, 0 none. -/
def kindCounter (kind : Nat) : Nat :=
  if kind = 1 ∨ kind = 2 ∨ kind = 5 ∨ kind = 6 then 1
  else if kind = 3 ∨ kind = 4 ∨ kind = 7 ∨ kind = 0x0C then 2
  else if 0x10 ≤ kind ∧ kind ≤ 0x13 then 3
  else if 0x18 ≤ kind ∧ kind ≤ 0x1D then 4
  else 0

/-- n more operations of a kind fit their counter. -/
def Skein.room (sk : Skein) (kind n : Nat) : Bool :=
  match kindCounter kind with
  | 1 => sk.l + n ≤ 63
  | 2 => sk.s + n ≤ 63
  | 3 => sk.c + n ≤ 15
  | 4 => sk.t + n ≤ 15
  | _ => true

/-- A counter moved up by n. -/
def Skein.raise (sk : Skein) (kind n : Nat) : Skein :=
  match kindCounter kind with
  | 1 => { sk with l := sk.l + n }
  | 2 => { sk with s := sk.s + n }
  | 3 => { sk with c := sk.c + n }
  | 4 => { sk with t := sk.t + n }
  | _ => sk

/-- A counter moved down by one. -/
def Skein.lower (sk : Skein) (kind : Nat) : Skein :=
  match kindCounter kind with
  | 1 => { sk with l := sk.l - 1 }
  | 2 => { sk with s := sk.s - 1 }
  | 3 => { sk with c := sk.c - 1 }
  | 4 => { sk with t := sk.t - 1 }
  | _ => sk

/-- An entry made at issue; its number is the skein's next.  One that waits for an acknowledgement raises `ACKC`. -/
def Skein.addEntry (sk : Skein) (e : Entry) : Skein :=
  let sk' := sk.raise e.kind 1
  { sk' with
    record := sk'.record ++ [{ e with seq := sk.nextSeq }]
    nextSeq := sk.nextSeq + 1
    ackc := sk'.ackc + (if e.acked then 0 else 1) }

def State.addEntry (s : State) (b : Batch) (e : Entry) : State := s.modSkein b.g.key b.k fun sk => sk.addEntry e

/-- The entry with a number. -/
def Skein.entry (sk : Skein) (seq : Nat) : Option Entry := sk.record.find? fun e => e.seq == seq

/-- An entry changed. -/
def Skein.modEntry (sk : Skein) (seq : Nat) (f : Entry → Entry) : Skein :=
  { sk with record := sk.record.map fun e => if e.seq = seq then f e else e }

/-- An entry removed, what it still counts lowered. -/
def Skein.dropEntry (sk : Skein) (seq : Nat) : Skein :=
  match sk.entry seq with
  | none => sk
  | some e =>
    let sk1 := if e.portacc then sk else sk.lower e.kind
    { sk1 with
      record := sk1.record.filter fun x => x.seq != seq
      ackc := sk1.ackc - (if e.acked then 0 else 1) }

/-- An entry's skein counter lowered, once; it stays in the record for its acknowledgement (spec/03 R64, spec/13 R331). -/
def Skein.releaseCount (sk : Skein) (seq : Nat) : Skein :=
  match sk.entry seq with
  | none => sk
  | some e => if e.portacc then sk else (sk.lower e.kind).modEntry seq fun x => { x with portacc := true }

/-- The acknowledgement of an entry has returned. -/
def Skein.ackEntry (sk : Skein) (seq : Nat) : Skein :=
  match sk.entry seq with
  | none => sk
  | some e => if e.acked then sk else { sk.modEntry seq fun x => { x with acked := true } with ackc := sk.ackc - 1 }

/-- The operation's result goes to registers: it counts as a load for what is after it. -/
def loadLike (kind : Nat) : Bool := kind == 1 || kind == 2 || kind == 5 || kind == 6

/-- The operation writes memory. -/
def storeLike (kind : Nat) : Bool := kind == 3 || kind == 4 || kind == 5 || kind == 6 || kind == 7

/-- Complete: written to its register, or performed and needing no more, or failed. -/
def SlotOp.complete (o : SlotOp) : Bool :=
  match o.stage with
  | .done | .failed _ => true
  | _ => false

/-- Performed at its home, or complete. -/
def SlotOp.performed (o : SlotOp) : Bool := o.stage != .sent

/-- Nothing of the operation is left for a release of its fibre to wait for: loads are complete, writes, cache operations
and deposits performed (spec/05 R125, R129, spec/09 R248). -/
def settledOp (kind : Nat) (o : SlotOp) : Bool :=
  if loadLike kind then o.complete else if storeLike kind || kind == 8 || kind == 9 || kind == 0x0C then o.performed else true

/-- All of a fibre's operations numbered below a bound are settled. -/
def Skein.settled (sk : Skein) (bound uid : Nat) : Bool :=
  sk.record.all fun e => e.seq ≥ bound || e.ops.all fun o => o.uid != uid || settledOp e.kind o

/-- Nothing more is owed for any fibre of the entry. -/
def Entry.finished (e : Entry) : Bool := e.ops.all fun o => o.stage == .done

/-- The next tag of the gang's core for its context (spec/13 R333); a handle core's number is the one `CORE` reports
(spec/03 R67), and it shares that number's sequence, so that tags stay unique. -/
def State.takeTag (s : State) (g : Gang) : W64 × State :=
  let core := if g.kind = .handle then g.cluster else coreNumber g.cluster g.core
  let base := ((s.ctx g.ctx).map (·.seqBase)).getD 0
  let seq := (tget (s.core core).seqs g.ctx).getD base
  let ctxid := ((s.ctx g.ctx).map (·.ctxid)).getD 0
  (BitVec.ofNat 64 (packFields [(31, seq), (9, core), (16, ctxid), (8, s.worldOf g)]),
    s.modCore core fun c => { c with seqs := tset c.seqs g.ctx ((seq + 1) % 2 ^ 31) })

/-- The value of a command sequence number after one is given (spec/02 R51). -/
def nextCsn (n : Nat) : Nat := if n + 1 < 2 ^ 48 then n + 1 else 1

/-- The next `CSN` of a handle thread (spec/02 R51). -/
def State.takeCsn (s : State) (g : Gang) : Nat × State :=
  ((s.cluster g.cluster).csns.getD g.core 1,
    s.modCluster g.cluster fun c => { c with csns := modifyAt c.csns g.core nextCsn })

/-- Homes retire the entries of a tag (spec/13 R334). -/
def State.retireTag (s : State) (tag : W64) : State := { s with tags := s.tags.filter fun t => t.tag != tag }

/-- The gang still uses its span's footprint: it lives, or operations of its fibres are outstanding. -/
def Gang.usesFootprint (g : Gang) : Bool := g.kind != .handle && (!g.ended || g.skeins.any fun sk => !sk.record.isEmpty)

/-- A footprint bank whose span has ended. -/
def State.footprintFree (s : State) (b : Bank) : Bool :=
  b.foot.any fun p => !s.allGangs.any fun g => g.grid == p.1 && g.spanid == p.2 && g.usesFootprint

/-- The bank afterwards: back in cache mode where the scheduler turned it and no BANKCFG named it (spec/12 R319). -/
def Bank.leaveFootprint (b : Bank) : Bank :=
  if b.turned && !b.byCfg then .reset else { b with foot := none, turned := false }

/-- Footprint banks of ended spans released in a cluster. -/
def State.releaseFootprints (s : State) (c : Nat) : State :=
  s.modCluster c fun k =>
    let back := (k.banks.filter fun p => s.footprintFree p.2 && p.2.turned && !p.2.byCfg).map (·.1)
    { k with
      banks := k.banks.map fun p => if s.footprintFree p.2 then (p.1, p.2.leaveFootprint) else p
      scratch := back.foldl (fun m n => m.clear (n * 2 ^ 18) (2 ^ 18)) k.scratch
      scratchPoison := k.scratchPoison.filter fun a => !back.contains (a / 2 ^ 18) }

/-- The footprints of spans that have ended, released once the last operation of an ended gang is performed (spec/12 R319). -/
def State.settleFootprint (s : State) (key : Nat) : State :=
  match s.gang key with
  | some g => if g.ended && g.kind != .handle && !g.usesFootprint then s.releaseFootprints g.cluster else s
  | none => s

/-- Writes to host or peer memory whose entry has gone: their acknowledgement says that every cluster sees them (spec/05 R128, R133). -/
def State.settleFar (s : State) (id : EntryId) : State :=
  if (s.skein id.gang id.skein).any fun sk => (sk.entry id.seq).isSome then s
  else { s with far := s.far.filter fun f => f.op != id }

/-- An operation's entry removed once nothing is owed, or left for its acknowledgement alone; its tag's retirement is the
event TAG_RETIRE. -/
def State.closeEntry (s : State) (g k seq : Nat) : State :=
  (s.modSkein g k fun sk =>
    match sk.entry seq with
    | some e => if e.finished then (if e.acked then sk.dropEntry seq else sk.releaseCount seq) else sk
    | none => sk).settleFootprint g |>.settleFar ⟨g, k, seq⟩

/-- The empty entry of a kind for a batch: the fields every operation shares. -/
def Batch.entry (b : Batch) (kind : Nat) (dflt : Fibre) : Entry :=
  let x := b.low dflt
  { seq := 0, kind := kind, cls := 0, iopx := x.iopx, scope := 4, acquire := false, release := false, rnd := 0,
    stampw := false, portacc := false, acked := true, prog := 0, pc := x.pc, mask := maskOf (b.run.map (·.1)), tag := 0,
    dst := 0, size := 0, aop := 0, aux := 0, one := false, cmpl := false, ops := [], copies := [], tile := none }

/-! ## Spawn pool (spec/02 R42 to R44) -/

/-- Bytes of a pool entry: 64 and four for each register of the larger image. -/
def Grid.poolEntrySize (g : Grid) : Nat := 64 + 4 * max g.desc.rregs g.desc.sregs

/-- `HEAD` and `COUNT` of a gang's pool; none where the gang has none, or its header was found bad, or cannot be read. -/
def State.poolHeader (s : State) (g : Gang) : Option (Nat × Nat) :=
  if g.poolCap = 0 || g.poolBad then none
  else
    match s.readGlobal g.ctx (s.worldOf g) g.poolBase 16 with
    | .ok (bs, _) => some (ofBytes (bs.take 4), ofBytes ((bs.drop 4).take 4))
    | .error _ => none

/-- Entries the pool holds. -/
def State.poolCount (s : State) (g : Gang) : Nat := ((s.poolHeader g).map (·.2)).getD 0

/-- The pool's header written. -/
def State.setPool (s : State) (g : Gang) (head count : Nat) : State :=
  match s.writeGlobal g.ctx (s.worldOf g) g.poolBase (bytesOf 4 head ++ bytesOf 4 count) with
  | .ok s' => s'
  | .error _ => s

/-! ## Fault records of fibres (spec/19 R419, R420) -/

/-- The other image's address for an equivalence point (spec/12 R316). -/
def State.otherPc (s : State) (g : Gang) (eqid : Nat) : W64 :=
  match (s.grid g.grid).bind fun gr => gr.eq.find? fun p => p.eqid == eqid with
  | some p => if g.image = 0 then p.spc else p.rpc
  | none => 0

/-- `RSKG` of a skein, or of a handle thread. -/
def rskg (g : Gang) (k : Nat) : Nat := if g.kind = .handle then 16 * 15 + g.core else 16 * g.gangid + k

/-- `RFPC` and `RPC2` of a fibre. -/
def State.recordPcs (s : State) (g : Gang) (x : Fibre) : W64 × W64 :=
  if x.isGuest && !x.parked then (x.gpc * BitVec.ofNat 64 (s.unitOf g.cluster x), x.gpc)
  else (x.pc, s.otherPc g x.eqid.toNat)

/-- A precise fault's record: the lowest faulting fibre x, the masks, and whether the gang ends. -/
def State.preciseRecord (s : State) (g : Gang) (k : Nat) (x : Fibre) (code : FaultCode) (addr : W64) (fm am : Mask)
    (term : Bool) : Record :=
  let pcs := s.recordPcs g x
  { code := code, imp := false, stake := g.image = 1, guest := x.isGuest && !x.parked, iopx := x.iopx, term := term,
    world := s.worldOf g, skg := rskg g k, eqid := x.eqid.toNat, pc := pcs.1, pc2 := pcs.2, fmask := fm,
    amask := am.toNat, addr := addr, hcpc := g.hcpc, csn := g.csn, ctx := g.ctx, cluster := g.cluster }

/-- An imprecise fault's record for an operation of a skein (spec/19 R413, R420); an engine command of a handle thread is named
by its own PC and number, kept in `aop` (spec/02 R51). -/
def State.impreciseRecord (s : State) (g : Gang) (k : Nat) (e : Entry) (code : FaultCode) (addr : W64) (mask : Mask)
    (src : Nat) : Record :=
  { code := code, imp := true, stake := g.image = 1, guest := false, iopx := e.iopx, term := false,
    world := s.worldOf g, skg := rskg g k, eqid := 0, pc := e.pc, pc2 := 0, fmask := mask, amask := src, addr := addr,
    hcpc := if g.kind = .handle ∧ 0x10 ≤ e.kind then e.pc else g.hcpc
    csn := if g.kind = .handle ∧ 0x10 ≤ e.kind then e.aop else g.csn
    ctx := g.ctx, cluster := g.cluster }

/-! ## Barriers (spec/08 R220, R221, R235) -/

/-- The gang's live fibres. -/
def Gang.live (g : Gang) : List Fibre := g.skeins.flatMap fun sk => sk.live.map (·.2)

/-- Every live fibre changed. -/
def Gang.mapLive (g : Gang) (f : Fibre → Fibre) : Gang :=
  { g with skeins := g.skeins.map fun sk => sk.mapFibres fun _ x => f x }

/-- A fibre's arrival at barrier b. -/
def Fibre.arrive (x : Fibre) (b : Nat) : Fibre := { x with barIn := Nat.lor x.barIn (2 ^ b) }

/-- What a completed phase of barrier b does to a fibre: `waitArg` = b + 16 × part; part 0 waits to depart, 1 waits to
arrive (BARA), 2 waits to arrive and then to depart (BAR). -/
def Fibre.phaseDone (x : Fibre) (b : Nat) : Fibre :=
  let x := { x with barIn := x.barIn - (if bitOf x.barIn b then 2 ^ b else 0) }
  if x.wait = .barw ∧ x.waitArg % 16 = b then
    match x.waitArg / 16 with
    | 0 => { x with wait := .none, waitArg := 0 }.advance
    | 1 => ({ x with wait := .none, waitArg := 0 }.arrive b).advance
    | _ => { x with waitArg := b }.arrive b
  else x

/-- The phases of barrier b that are complete, at most fuel of them. -/
def Gang.settleBarrier (g : Gang) (b : Nat) : Nat → Gang
  | 0 => g
  | fuel + 1 =>
    if !g.live.isEmpty && g.live.all (fun x => bitOf x.barIn b) then
      Gang.settleBarrier
        { g.mapLive (fun x => x.phaseDone b) with barPhase := modifyAt g.barPhase b fun p => (p + 1) % 256 } b fuel
    else g

/-- All sixteen barriers. -/
def Gang.settleBarriers (g : Gang) : Gang := (rangeFrom 0 16).foldl (fun g b => g.settleBarrier b 3) g

/-- The hidden step barrier (spec/08 R235). -/
def Gang.settleStep (g : Gang) : Gang :=
  if !g.live.isEmpty && g.live.all (fun x => x.stepIn) then
    { g.mapLive (fun x => { x with stepIn := false }) with stepPhase := g.stepPhase + 1, stepCount := g.stepCount + 1 }
  else g

/-- The gangs of a span that have live fibres or may get some. -/
def State.spanGangs (s : State) (g : Gang) : List Gang :=
  s.gangs.filter fun h => h.kind != .handle && h.grid == g.grid && h.spanid == g.spanid && !h.ended

/-- A span barrier phase completes when every live fibre of every gang of the span is in the arrived set (R221). -/
def State.settleSpan (s : State) (g : Gang) : State :=
  let gs := s.spanGangs g
  let live := gs.flatMap Gang.live
  if g.kind != .handle && !live.isEmpty && live.all (fun x => x.sbarIn) then
    gs.foldl (fun s h =>
      s.modGang h.key fun y =>
        { y.mapLive (fun x =>
            let x := { x with sbarIn := false }
            if x.wait = .sbar then { x with wait := .none }.advance else x) with
          sbarPhase := y.sbarPhase + 1 }) (gs.foldl (fun s h => s.acquireCaches h.via 3) (s.ordMeet gs))
  else s

/-- The code of the record of a cut that is asked for without a tier: one of those that R461 names for aborts, which one is left open
(notes/assumptions/50). -/
def noTierCode : FaultCode :=
  match Config.noTierCode % 5 with
  | 0 => .linkDown | 1 => .timeout | 2 => .xlate | 3 => .roster | _ => .perm

/-- A cut begins (spec/13 R347, R348, spec/22 R461): without a tier it is aborted with a record; while one is in progress the request
merges into it; otherwise issue stops in the partition. -/
def State.beginCut (s : State) (p : Nat) : State :=
  let x := s.part p
  let tier := bitsOf x.ckpttgt.toNat 63 62
  if x.ckpt.phase = 1 ∨ x.ckpt.phase = 2 then s
  else if tier = 1 ∨ tier = 2 then
    s.modPart p fun y => { y with ckpt := { y.ckpt with phase := 1, timer := false, wants := [] } }
  else
    (s.modPart p fun y => { y with ckpt := { y.ckpt with phase := 4, timer := false, wants := [] } }).writeRecord
      { code := noTierCode, imp := true, stake := false, guest := false, iopx := 0, term := false, world := 64 * p, skg := 0xF0, eqid := 0,
        pc := 0, pc2 := 0, fmask := 0, amask := srcWord 6 0 0 0 0, addr := x.ckptadr, hcpc := 0, csn := 0,
        ctx := s.worldCtx (64 * p), cluster := 0 }

/-- What a rise of a grid's `STEPCNT` from a to b sets off: a cut asked for at this boundary, or the step trigger (R347). -/
def State.stepBoundary (s : State) (p grid a b : Nat) : State :=
  let x := s.part p
  let inc := bitsOf x.ckptcfg.toNat 31 0
  if bitOf x.ckptcfg.toNat 63 && (x.ckpt.timer || x.ckpt.wants.contains grid || (inc != 0 && a / inc < b / inc)) then s.beginCut p else s

/-- The grid's step count: the least among its live, placed gangs, never decreasing (R235). -/
def State.settleGridStep (s : State) (grid : Nat) : State :=
  let gs := s.gangs.filter fun h => h.kind != .handle && h.grid == grid && !h.ended
  match gs with
  | [] => s
  | h :: r =>
    let least := r.foldl (fun m x => min m x.stepCount) h.stepCount
    let was := ((s.grid grid).map (·.stepcnt)).getD least
    let s1 := s.modGrid grid fun y => { y with stepcnt := max y.stepcnt least }
    if was < least then s1.stepBoundary (s.partOfCluster h.cluster) grid was least else s1

/-! ## Joins (spec/02 R38, spec/08 R215) -/

/-- The waiting fibre w is satisfied by the slots of its skein: each masked fibre has ended, stands at the RJOIN, or has
migrated with its gang since the mask was made. -/
def Skein.joinSatisfied (sk : Skein) (w : Fibre) : Bool :=
  (rangeFrom 0 64).all fun t =>
    !inMask w.wmask t ||
      match sk.fibre t with
      | none => true
      | some x => w.wmoment < x.uid || w.wmoment < x.movedAt || (x.wait == .rjoin && x.pc == w.pc && x.parked == w.parked)

/-- The fibres waiting at one RJOIN leave when all of them are satisfied. -/
def Skein.settleJoin (sk : Skein) (pc : W64) (parked : Bool) : Skein :=
  let waits (x : Fibre) : Bool := x.wait == .rjoin && x.pc == pc && x.parked == parked
  let ws := (sk.live.map (·.2)).filter waits
  if !ws.isEmpty && ws.all sk.joinSatisfied then
    sk.mapFibres fun _ x => if waits x then { x with wait := .none, wmask := 0, wmoment := 0 }.advance else x
  else sk

/-- Every RJOIN at which fibres of the skein wait. -/
def Skein.settleJoins (sk : Skein) : Skein :=
  (sk.live.map fun p => (p.2.pc, p.2.parked)).foldl (fun sk k => sk.settleJoin k.1 k.2) sk

/-! ## The end of gangs (spec/02 R41, spec/09 R259, spec/10 R265, spec/19 R424) -/

/-- Operations that failed and whose consumer never came are reported (spec/19 R424). -/
def State.reportUnconsumed (s : State) (g : Gang) (k : Nat) (sk : Skein) (uids : List Nat) : State :=
  let bad := sk.record.flatMap fun e =>
    (e.ops.filter fun o => uids.contains o.uid).filterMap fun o =>
      match o.stage with
      | .failed c => some (e, o, c)
      | _ => none
  bad.foldl (fun s p =>
    let s1 := s.writeRecord (s.impreciseRecord g k p.1 p.2.2 p.2.1.va (maskOf [p.2.1.slot]) (srcWord 6 g.cluster g.core 0 0))
    let s2 := s1.modSkein g.key k fun x => x.modEntry p.1.seq fun e =>
      { e with ops := e.ops.map fun o => if o.uid = p.2.1.uid then { o with stage := .done } else o }
    s2.closeEntry g.key k p.1.seq) s

/-! ## Counters (spec/15 R376 to R378) -/

/-- A counter moved up. -/
def counted (t : Tbl Nat) (n by_ : Nat) : Tbl Nat := tset t n (((tget t n).getD 0 + by_) % 2 ^ 64)

/-- Slots charged to a leaf: the total and the leaf's counter. -/
def charged (t : Tbl Nat) (leaf by_ : Nat) : Tbl Nat := counted (counted t 0 by_) leaf by_

/-- A context's view in bank G changed. -/
def Core.mapView (c : Core) (ctx : Nat) (f : Tbl Nat → Tbl Nat) : Core :=
  { c with g := if c.g.any (fun p => p.1 == ctx) then c.g.map (fun p => if p.1 = ctx then (p.1, f p.2) else p) else c.g ++ [(ctx, f [])] }

/-- Bank H and the view of the gang's context changed alike. -/
def State.mapCounters (s : State) (g : Gang) (f : Tbl Nat → Tbl Nat) : State :=
  s.modCore g.coreNo fun c => { c with h := f c.h }.mapView g.ctx f

/-- A core's counter moved up in both banks. -/
def State.addCounter (s : State) (g : Gang) (n by_ : Nat) : State := s.mapCounters g fun t => counted t n by_

/-- The view of a context without a resident skein on a core is discarded (R377). -/
def State.dropView (s : State) (core ctx : Nat) : State :=
  if s.gangs.any fun g => !g.ended && g.coreNo == core && g.ctx == ctx then s
  else s.modCore core fun k => { k with g := k.g.filter fun p => p.1 != ctx }

/-- The gang leaves every FIFO bank it produced into; a bank left by its last producer answers its consumers at their
next issue. -/
def State.leaveBanks (s : State) (g : Gang) : State :=
  s.modCluster g.cluster fun c =>
    { c with banks := c.banks.map fun p =>
        (p.1, { p.2 with
          producers := p.2.producers.filter fun k => k != g.key
          waiters := p.2.waiters.filter fun w => w.1 != g.key }) }

/-- The queue holds an operation of the gang. -/
def Core.runs (c : Core) (key : Nat) : Bool :=
  c.queue.any fun r => match r with | .op id => id.gang == key | .release _ k => k == key

/-- The gang's stationary slots are emptied (spec/10 R265); what is queued before still finds the bytes. -/
def State.releaseSlots (s : State) (g : Gang) : State :=
  { s with cores := s.cores.map fun p => (p.1, { p.2 with
      slots := p.2.slots.map fun x => if x.holder = some g.key then StatSlot.reset else x
      fills := if p.2.runs g.key then p.2.fills else p.2.fills.filter fun f => f.gang != g.key
      queue := if p.2.runs g.key then p.2.queue ++ ((p.2.fills.filter fun f => f.gang == g.key).map fun f => .release f.slot g.key) else p.2.queue }) }

/-- Every fibre of the gang ends; its pool entries are discarded; the gang ends (spec/08 R218). -/
def State.endGang (s : State) (key : Nat) : State :=
  match s.gang key with
  | none => s
  | some g =>
    if g.ended then s else
    let s0 := (rangeFrom 0 g.skeins.length).foldl (fun s k =>
      match s.skein key k with
      | some sk => s.reportUnconsumed g k sk (sk.live.map (·.2.uid))
      | none => s) s
    let s1 :=
      match s0.poolHeader g with
      | some (h, c) => if c = 0 then s0 else s0.setPool g h 0
      | none => s0
    let s2 := s1.modGang key fun x =>
      { x with ended := true, skeins := x.skeins.map fun sk => { sk with slots := sk.slots.map fun _ => none, arrq := [] } }
    let s3 := (((s2.leaveBanks g).releaseSlots g).dropView g.coreNo g.ctx).releaseFootprints g.cluster
    (s3.settleSpan g).settleGridStep g.grid

/-! ## Queues (spec/12 R309, R313) -/

def World.queue (w : World) (q : Nat) : Queue := (tget w.queues q).getD .reset
def State.queue (s : State) (w q : Nat) : Queue := (s.world w).queue q
def State.modQueue (s : State) (w q : Nat) (f : Queue → Queue) : State :=
  s.modWorld w fun x => { x with queues := tset x.queues q (f (x.queue q)) }

/-- `HOMECL` as a cluster of the device. -/
def State.homeCluster (s : State) (w q : Nat) : Nat :=
  partOfWorld w * (32 / s.partitions) + bitsOf (s.queue w q).ctl.toNat 23 19 % (32 / s.partitions)

/-- A trace record of a packet: kind 8 its start, 9 its completion (spec/15 R383). -/
def State.tracePacket (s : State) (w q kind : Nat) (p : Packet) : State :=
  s.trace (s.homeCluster w q) 0
    { kind := kind, src := 0, skein := 0, leaf := 0, world := w, hcpc := p.hcpc, csn := p.csn, pc := 0, pc2 := 0, mask := 0,
      data := p.addr }

/-- A packet is complete: it goes from its queue, and its interrupt is raised. -/
def State.closePacket (s : State) (w q number : Nat) : State :=
  match (s.queue w q).live.find? fun p => p.number == number with
  | none => s
  | some p =>
    let s1 := (s.modQueue w q fun x => { x with live := x.live.filter fun y => y.number != number }).tracePacket w q 9 p
    if p.intr then s1.raise w p.vec else s1

/-- A handle routine ends and its thread goes back to the event loop (spec/08 R208, spec/12 R326): it produces into no FIFO bank any more
(spec/09 R259), and its packet completes. -/
def State.endRoutine (s : State) (key : Nat) : State :=
  match s.gang key with
  | none => s
  | some g =>
    let s0 : State :=
      match s.skein key 0 with
      | some sk => s.reportUnconsumed g 0 sk (sk.live.map (·.2.uid))
      | none => s
    let s1 := (s0.modGang key fun x =>
      { x with ended := true, skeins := x.skeins.map fun sk => { sk with slots := sk.slots.map fun _ => none } }).leaveBanks g
    match g.routine, g.ended with
    | some (w, q, n), false => s1.closePacket w q n
    | _, _ => s1

/-! ## Taking an exception (spec/19 R417 to R419) -/

/-- A fibre's precise fault: slot, code, faulting address, and whether it is a TRAP. -/
structure Raised where
  slot : Nat
  code : FaultCode
  addr : W64
  trap : Bool
  deriving DecidableEq, Repr

/-- The skein holds a parked sub-skein. -/
def Skein.anyParked (sk : Skein) : Bool := sk.live.any fun p => p.2.parked

/-- Handler entry of one fibre (spec/19 R417): what is saved, and where it goes. -/
def Fibre.enter (x : Fibre) (unit : Nat) (fhvec : W64) (am fm : Mask) (r : Raised) : Fibre :=
  let gpc := if x.isGuest && r.trap then x.nextPc else x.gpc
  let fpc := if x.isGuest then gpc * BitVec.ofNat 64 unit else if r.trap then x.pc + 8 else x.pc
  { x with
    fcode := BitVec.ofNat 32 (faultNum r.code)
    faddr := r.addr
    gpc := gpc
    fpc := fpc
    longPc := fpc
    amask := am
    fmask := fm
    pc := fhvec
    pass := 0
    parked := true
    wait := .none
    waitArg := 0
    waive := false
    expansion := x.expansion.map fun e => { e with words := [] } }

/-- The trace source byte of a gang (spec/15 R383). -/
def traceSrc (g : Gang) : Nat := if g.kind = .handle then 16 + g.core else g.core

/-- A trace record about a batch: kind, lowest fibre, slots, data. -/
def State.traceBatch (s : State) (g : Gang) (k kind : Nat) (x : Fibre) (mask : Mask) (data : W64) : State :=
  s.trace g.cluster g.ctx
    { kind := kind, src := traceSrc g, skein := k, leaf := 0, world := s.worldOf g, hcpc := g.hcpc, csn := g.csn,
      pc := x.pc, pc2 := (s.recordPcs g x).2, mask := mask, data := data }

/-- Precise faults of one issue (R417 to R419).  In a handle thread they end the routine with a record.  Fibres outside
a parked sub-skein that faults while one exists are held at the instruction.  With no handler, or in a handler, they
end the gang with a record; otherwise all of them enter the handler together. -/
def State.takeFaults (s : State) (gkey k : Nat) (am : Mask) (rs : List Raised) : State :=
  match rs, s.gang gkey, s.skein gkey k with
  | r0 :: _, some g, some sk =>
    match sk.fibre r0.slot with
    | none => s
    | some x0 =>
      let fm := maskOf (rs.map (·.slot))
      let w := s.world (s.worldOf g)
      if g.kind = .handle then
        (s.writeRecord (s.preciseRecord g k x0 r0.code r0.addr 1 1 false)).endRoutine gkey
      else if x0.parked || (w.fhvec = 0 && !sk.anyParked) then
        (s.writeRecord (s.preciseRecord g k x0 r0.code r0.addr fm am true)).endGang gkey
      else if sk.anyParked then
        s.modSkein gkey k fun y => y.mapFibres fun t x => if inMask fm t then { x with tried := true } else x
      else
        let unit := s.unitOf g.cluster x0
        let s1 := rs.foldl (fun s r =>
          s.modSkein gkey k fun y => { y with slots := modifyAt y.slots r.slot fun o => o.map fun x => x.enter unit w.fhvec am fm r }) s
        let s2 := s1.traceBatch g k 6 x0 fm (BitVec.ofNat 64 (faultNum r0.code))
        if bitOf w.frctl.toNat 8 then s2.writeRecord (s.preciseRecord g k x0 r0.code r0.addr fm am false) else s2
  | _, _, _ => s

/-! ## Migration requests (spec/02 R46 to R48, R55, spec/08 R219, spec/12 R323, spec/20 R436) -/

/-- What a waiting MIGRATE says: id, flags, result register. -/
def migrateId (x : Fibre) : Nat := x.waitArg % 2 ^ 26
def migrateFlags (x : Fibre) : Nat := x.waitArg / 2 ^ 26 % 8
def migrateReg (x : Fibre) : Nat := x.waitArg / 2 ^ 29 % 256

/-- The other core kind. -/
def otherKind : CoreKind → CoreKind
  | .rand => .stake | .stake => .rand | .handle => .handle

/-- Registers per fibre of the other image. -/
def Grid.otherRegs (gr : Grid) (g : Gang) : Nat := if g.image = 0 then gr.desc.sregs else gr.desc.rregs

/-- The lowest-numbered core of the other kind that can take the whole gang (R323). -/
def State.migrationTarget (s : State) (g : Gang) (regs : Nat) : Option Nat :=
  (coresOf (otherKind g.kind)).find? fun c =>
    !(s.residents g.cluster c).any (fun h => h.grid == g.grid && h.spanid == g.spanid) && !s.reserved g.cluster c &&
      (s.roomFor g.cluster c g.skeins.length (((g.skeins.head?).map (·.width)).getD 32) regs).isSome

/-- A policy bit holds: force, occupancy, target idle (R47, R55). -/
def State.policyHolds (s : State) (g : Gang) (pol : Nat) : Bool :=
  bitOf pol 0
    || (bitOf pol 1 && 2 * g.live.length < (g.skeins.map (·.width)).sum)
    || (bitOf pol 2 && !g.det && (coresOf (otherKind g.kind)).any fun c => (s.residents g.cluster c).isEmpty)

/-- Requests of a cluster that wait for a core, in arrival order (R323). -/
def earliest : List Gang → Option Gang
  | [] => none
  | a :: r =>
    match earliest r with
    | none => some a
    | some b => if b.asked < a.asked then some b else some a

/-- Waiting requests of a cluster granted in arrival order, as far as cores are free, at most fuel of them (R323, R55). -/
def State.serveRequests (s : State) (cluster : Nat) : Nat → State
  | 0 => s
  | fuel + 1 =>
    let can (h : Gang) : Option Nat :=
      if h.asked = 0 || h.cluster != cluster || h.target.isSome || h.frozen || h.ended || h.live.isEmpty
          || !h.live.all (fun x => x.wait == .migrate) then none
      else (s.grid h.grid).bind fun gr => s.migrationTarget h (gr.otherRegs h)
    match earliest (s.gangs.filter fun h => (can h).isSome) with
    | none => s
    | some h => State.serveRequests (s.modGang h.key fun y => { y with target := can h, asked := 0 }) cluster fuel

/-- Why a request is declined, if it is (R48). -/
def State.declineCause (s : State) (g : Gang) (pol : Nat) (target : Option Nat) : Option Nat :=
  let fv := s.featvecOf g
  if (s.part (s.partOfCluster g.cluster)).migdis || !bitOf fv 9 || !bitOf fv 3 then some 4
  else if g.live.any (fun x => x.wshift != 0) then some 2
  else if s.poolCount g != 0 then some 3
  else if !s.policyHolds g pol then some (if bitOf pol 2 && g.det then 5 else 0)
  else if target.isNone && !g.det then some 1
  else none

/-- Every fibre of the gang stands at a MIGRATE: the one request is decided, after those of the cluster that wait and can be granted
(R323).  MIGRATE_BAD on every fibre, or declined with its result, or granted with its target reserved; in deterministic mode it waits
for one. -/
def State.resolveMigrate (s : State) (key : Nat) : State :=
  match s.gang key with
  | none => s
  | some g =>
    if g.ended || g.live.isEmpty || g.target.isSome || g.asked != 0 || !g.live.all (fun x => x.wait == .migrate) then s else
    let first := g.live.head?
    let id := (first.map migrateId).getD 0
    let pol := (first.map migrateFlags).getD 0
    let gr := s.grid g.grid
    let known := (gr.map fun r => r.eq.any fun p => p.eqid == id).getD false
    let regs := (gr.map fun r => r.otherRegs g).getD 0
    if !g.live.all (fun x => migrateId x == id) || !known || registerLimit (otherKind g.kind) < regs then
      (rangeFrom 0 g.skeins.length).foldl (fun s k =>
        match s.skein key k with
        | none => s
        | some sk => s.takeFaults key k (maskOf (sk.live.map (·.1))) (sk.live.map fun p => ⟨p.1, .migrateBad, 0, false⟩)) s
    else
      let s := s.serveRequests g.cluster s.gangs.length
      let target := s.migrationTarget g regs
      match s.declineCause g pol target with
      | some why =>
        let s1 := s.modGang key fun y => y.mapLive fun x =>
          { x.wr (migrateReg x) (BitVec.ofNat 32 (2 * why)) with wait := .none, waitArg := 0 }.advance
        (s1.addCounter g 25 1).trace g.cluster g.ctx
          { kind := 5, src := traceSrc g, skein := 0, leaf := 0, world := s.worldOf g, hcpc := g.hcpc, csn := g.csn,
            pc := (first.map (·.pc)).getD 0, pc2 := 0, mask := 0, data := BitVec.ofNat 64 (2 * why) }
      | none =>
        let (moment, s1) := s.takeKey
        s1.modGang key fun y => { y with target := target, asked := if target.isSome then 0 else moment }

/-- The fibres of a skein that leave their RJOINs now. -/
def Skein.leaveJoins (sk : Skein) : List (Nat × Fibre) :=
  let new := sk.settleJoins
  sk.live.filter fun p => p.2.wait == .rjoin && (new.fibre p.1).any fun x => x.wait != .rjoin

/-- The first of each of the RJOINs that fibres stand at, in order. -/
def joinHeads : List (Nat × Fibre) → List (Nat × Fibre)
  | [] => []
  | p :: r => p :: (joinHeads r).filter fun q => !(q.2.pc == p.2.pc && q.2.parked == p.2.parked)

/-- The trace records of RJOIN releases of a gang: kind 4, one for each RJOIN that fibres leave (spec/15 R383). -/
def State.traceJoins (s : State) (key : Nat) : State :=
  match s.gang key with
  | none => s
  | some g =>
    (rangeFrom 0 g.skeins.length).foldl (fun s k =>
      match g.skeins[k]? with
      | none => s
      | some sk =>
        let out := sk.leaveJoins
        (joinHeads out).foldl (fun (s : State) p =>
          s.traceBatch g k 4 p.2 (maskOf ((out.filter fun q => q.2.pc == p.2.pc && q.2.parked == p.2.parked).map (·.1))) 0) s) s

/-- What waits on fibres that have ended or arrived is looked at again; a gang without live fibres and with an empty
pool ends. -/
def State.settleGang (s : State) (key : Nat) : State :=
  let s0 := s.traceJoins key
  let s1 := s0.modGang key fun g =>
    let g1 := { g with skeins := g.skeins.map Skein.settleJoins }
    g1.settleBarriers.settleStep
  match s1.gang key with
  | none => s1
  | some g =>
    let s2 := (s1.settleSpan g).settleGridStep g.grid
    if g.ended then s2
    else if g.anyLive then s2.resolveMigrate key
    else if g.kind = .handle then s2.endRoutine key
    else if s2.poolCount g = 0 then s2.endGang key
    else s2

/-- Return from an exception (spec/08 R232): canonical code resumes at `FPC`, which must be a multiple of 8; guest code
at the start of the guest instruction at `GPC`.  `PIDX` stays where it goes back to the instruction that `PIDX` counts for. -/
def Fibre.leaveHandler (x : Fibre) (unit : Nat) : Except (FaultCode × W64) Fibre :=
  let back (t : W64) : Fibre := { x with parked := false, pidx := if t = x.longPc then x.pidx else 0 }
  if x.isGuest then .ok ((back (x.gpc * BitVec.ofNat 64 unit)).toGuest unit x.gpc)
  else if x.fpc.toNat % 8 ≠ 0 then .error (.align, x.fpc)
  else .ok { back x.fpc with pc := x.fpc }

/-! ## Issue -/

/-- Beats an issue takes (spec/02 R32). -/
def beatsOf (kind : CoreKind) (slots : List Nat) : Nat :=
  let lanes := if kind = .stake then 32 else 16
  ((rangeFrom 0 4).filter fun b => slots.any fun t => t / lanes == b).length

/-- An issue counted. -/
def State.countIssue (s : State) (b : Batch) (passed faulted : Nat) : State :=
  let beats := beatsOf b.g.kind (b.all.map (·.1))
  let s1 := s.mapCounters b.g fun t => charged t (if passed = 0 then 2 else 1) beats
  (s1.addCounter b.g 16 1).addCounter b.g 17 (passed - faulted)

/-- Nothing is marked as tried any more. -/
def State.clearTried (s : State) : State :=
  { s with gangs := s.gangs.map fun g => g.mapLive fun x => if x.tried then { x with tried := false } else x }

/-- `EQID` of a fibre that issues at an equivalence point of its image (spec/03 R67), also where the word there faults or is
not an instruction (DESIGN CHOICE, notes/assumptions/112). -/
def State.passPoint (s : State) (g : Gang) (x : Fibre) : Fibre :=
  if x.parked || x.isGuest || x.emul then x
  else
    match (s.grid g.grid).bind fun gr => gr.eq.find? fun p => (if g.image = 0 then p.rpc else p.spc) == x.pc with
    | some p => { x with eqid := BitVec.ofNat 32 p.eqid }
    | none => x

/-- An instruction carried out outside a handler leaves no progress behind (spec/13 R341); before the final word of a template it is that
word's. -/
def Fibre.endLong (x : Fibre) : Fibre :=
  if x.parked || (x.inTemplate && (x.expansion.any fun e => decide (x.iopx + 1 < e.words.length))) then x else { x with pidx := 0 }

/-- What a fibre's latest issue leaves to be done again: where it stood, if the issue left a multi-clock result to come. -/
def Fibre.redoOf (was x : Fibre) : Option W64 := if was.late.length < x.late.length && !was.inTemplate then some was.pc else none

/-- What is left of a fibre after the issue. -/
def Out.after : Out → Option Fibre
  | .next x => some { x.endLong with wait := .none, waitArg := 0 }.advance
  | .jump x t => some ({ x.endLong with wait := .none, waitArg := 0 }.goto t)
  | .stay x => some x
  | .gone => none
  | .fault _ _ => none
  | .trap _ => none

def Out.isGone : Out → Bool
  | .gone => true
  | _ => false

/-- The fault an outcome raises. -/
def Out.raised (slot : Nat) : Out → Option Raised
  | .fault c a => some ⟨slot, c, a, false⟩
  | .trap a => some ⟨slot, .trap, a, true⟩
  | _ => none

/-- Where a fibre that was carried out stands afterwards. -/
def Out.place : Out → Option (W64 × Nat)
  | .stay _ => none
  | r => r.after.map fun x => (x.pc, x.iopx)

/-- The trace records of an issue that goes somewhere else: kind 2 where fibres take a branch, its target that of the lowest of
them, and kind 3 where the fibres of the batch part (spec/15 R383). -/
def State.traceFlow (s : State) (b : Batch) (every : List (Nat × Out)) : State :=
  match b.all with
  | [] => s
  | (_, x) :: _ =>
    let s1 :=
      match b.all.findSome? fun p => every.findSome? fun o => if o.1 = p.1 then (match o.2 with | .jump _ t => some t | _ => none) else none with
      | some t => s.traceBatch b.g b.k 2 x b.amask t
      | none => s
    match every.filterMap fun o => o.2.place with
    | q :: r => if r.all (· == q) then s1 else s1.traceBatch b.g b.k 3 x b.amask 0
    | [] => s1

/-- The batch issued before and has waited since. -/
def Batch.waited (b : Batch) : Bool := b.all.any fun p => p.2.wait.issued

/-- The batch's outcomes put into effect: fibres written, pass counts (spec/02 R35) and counters where this is its issue, faults
taken, and what waited on the fibres settled. -/
def State.finish (s : State) (b : Batch) (ready : List Nat) (outs : List (Nat × Out)) : State :=
  let off := (b.all.filter fun p => !outs.any fun o => o.1 == p.1).map fun p => (p.1, Out.next p.2)
  let every := outs ++ off
  let mark (x : Fibre) : Fibre := { s.passPoint b.g x with pass := 0, tried := false, waive := false, redo := none }
  let s1 := s.modSkein b.g.key b.k fun sk =>
    let sk1 := { sk with issued := true }
    let sk2 := sk1.mapFibres (fun t x =>
      if ready.contains t && !b.waited && !b.all.any (fun p => p.1 == t) then { x with pass := x.pass + 1 } else x)
    every.foldl (fun y o =>
      match o.2 with
      | .fault _ _ => { y with slots := modifyAt y.slots o.1 fun f => f.map mark }
      | .trap _ => { y with slots := modifyAt y.slots o.1 fun f => f.map mark }
      | r => { y with slots := modifyAt y.slots o.1 fun old => old.bind fun was => (r.after).map fun x =>
          { x with pass := 0, tried := false, waive := false, eqid := (s.passPoint b.g was).eqid, redo := was.redoOf x } }) sk2
  let raised := outs.filterMap fun o => o.2.raised o.1
  let s2 := (if b.waited then s1.clearTried else s1.clearTried.countIssue b outs.length raised.length).traceFlow b every
  let s3 := s2.takeFaults b.g.key b.k b.amask raised
  let ended := b.all.filter fun p => every.any fun o => o.1 == p.1 && o.2.isGone
  let s4 := s3.reportUnconsumed b.g b.k ((s3.skein b.g.key b.k).getD b.sk) (ended.map fun p => p.2.uid)
  s4.settleGang b.g.key

/-- The whole batch waits: marked as tried, and as waiting together where the wait is one. -/
def State.holdBatch (s : State) (b : Batch) (w : Wait) : State :=
  let (ticket, s1) := s.takeKey
  s1.modSkein b.g.key b.k fun sk =>
    sk.mapFibres fun t x =>
      if b.all.any (fun p => p.1 == t) then
        (if w = .none then { x with tried := true }
        else { x with tried := true, wait := w, waitArg := if x.wait = w then x.waitArg else ticket })
      else x

/-- Fibres that a list of outcomes does not name. -/
def without (xs : List (Nat × Fibre)) (outs : List (Nat × Out)) : List (Nat × Fibre) :=
  xs.filter fun p => !outs.any fun o => o.1 == p.1

/-- Every fibre of the batch without an outcome waits as issued, under one number. -/
def State.waitIssued (s : State) (b : Batch) (ready : List Nat) (w : Wait) (bad : List (Nat × Out)) : State :=
  let (ticket, s1) := s.takeKey
  s1.finish b ready (bad ++ (without b.all bad).map fun p => (p.1, Out.stay { p.2 with wait := w, waitArg := ticket }))

/-- Every fibre of a list faults alike. -/
def faultAll (xs : List (Nat × Fibre)) (code : FaultCode) (addr : W64) : List (Nat × Out) :=
  xs.map fun p => (p.1, Out.fault code addr)

/-- The batch at issue, and the fibres whose pass counts the issue moves: the ready ones, but for those that wait at a WAITC
(spec/09 R251). -/
def State.batch (s : State) : Option (Batch × List Nat) :=
  match s.issue with
  | none => none
  | some iss =>
    match s.gang iss.gang with
    | none => none
    | some g =>
      match g.skeins[iss.skein]? with
      | none => none
      | some sk =>
        let all := sk.live.filter fun p => iss.slots.contains p.1
        if all.isEmpty then none
        else some (⟨g, iss.skein, sk, all, all⟩, ((s.readyFibres g sk).filter fun p => p.2.wait != .waitc).map (·.1))

/-- Stage 1 (spec/20 R426): is the word an instruction here, in this core kind, context and guest boundary? -/
def State.stage1 (s : State) (b : Batch) (n : Need) (x : Fibre) : Option FaultCode :=
  let kindBit := match b.g.kind with | .rand => 0 | .stake => 1 | .handle => 2
  let regs := n.groups.all fun g => g.ok b.g.kind x.wsize
  if !bitOf n.kinds kindBit || (n.firmware && 2 ≤ b.g.core) then some .illegalOp
  else if !x.inTemplate && !n.h.b then some .illegalOp
  else if (n.feat.map fun f => !bitOf (s.featvecOf b.g) f).getD false then some .illegalOp
  else if !regs then some .regRange
  else if (n.slot.map fun t => decide (4 ≤ t)).getD false then some .statSlot
  else none

/-- The stage-1 code of a batch: the first kind of failure any of its fibres has (R426, R427). -/
def State.stage1All (s : State) (b : Batch) (n : Need) : Option FaultCode :=
  let cs := b.all.filterMap fun p => s.stage1 b n p.2
  if cs.contains .illegalOp then some .illegalOp
  else if cs.contains .regRange then some .regRange
  else cs.head?

/-- The first source register of a fibre x that holds uncorrectable data (spec/19 R423); l is the batch's lowest fibre, which supplies what
the word broadcasts. -/
def poisonedSource (n : Need) (l x : Fibre) : Option Nat :=
  let bad (g : Group) (r : Nat) : Bool := let y := if g.low then l else x; y.poison.contains (y.place r)
  (n.groups.filter (·.src)).findSome? fun g => g.regs.find? (bad g)

/-- A consumer's fault: the fibre has no more part in the operation, whose entry goes when nothing is owed (R424). -/
def State.consume (s : State) (b : Batch) (slot : Nat) (c : Entry × SlotOp × FaultCode) : State :=
  let s1 := s.modSkein b.g.key b.k fun sk => sk.modEntry c.1.seq fun e =>
    { e with mask := e.mask &&& ~~~(maskOf [slot]), ops := e.ops.filter fun o => !(o.uid == c.2.1.uid && o.slot == slot) }
  s1.closeEntry b.g.key b.k c.1.seq

/-- The passing fibres for which the instruction consumes a failed operation fault; the others go on. -/
def State.checkConsumers (s : State) (b : Batch) (i : Instr) :
    List (Nat × Fibre) → List (Nat × Out) × List (Nat × Fibre) × State
  | [] => ([], [], s)
  | (t, x) :: r =>
    match b.sk.consumes i x with
    | c :: _ =>
      let q := State.checkConsumers (s.consume b t c) b i r
      ((t, Out.fault c.2.2 c.2.1.va) :: q.1, q.2.1, q.2.2)
    | [] =>
      let q := State.checkConsumers s b i r
      (q.1, (t, x) :: q.2.1, q.2.2)

/-- The fault of a fibre that reads an uncorrectable register: `FADDR` names the register field (R423). -/
def poisonFault (n : Need) (b : Batch) (p : Nat × Fibre) : Option (Nat × Out) :=
  (poisonedSource n (b.low p.2) p.2).map fun r => (p.1, Out.fault .eccUncorr (BitVec.ofNat 64 (2 ^ 63 + r)))

/-- The issue of an instruction word: the checks every word passes (stage 1, consumers of failed operations, the
instruction's own stage-2 checks `pre`, uncorrectable sources), then what the instruction does (spec/20 R426, R427). -/
def State.issueChecked (s : State) (i : Instr) (pre : Batch → State → List (Nat × Out)) (body : Batch → State → Result) :
    Host.Outcome State Fault Refusal :=
  match s.batch with
  | none => .fault .noBatch
  | some (b, ready) =>
    let s := { s with issue := none }
    let n := needOf i
    match s.stage1All b n with
    | some c => .next (s.finish b ready (faultAll b.all c 0))
    | none =>
      let q := s.checkConsumers b i (b.all.filter fun p => n.h.g.passes p.2.pw)
      let b1 := { b with run := q.2.1 }
      let bad2 := pre b1 q.2.2
      let run2 := without b1.run bad2
      let bad3 := run2.filterMap (poisonFault n b)
      let run3 := without run2 bad3
      let bad := q.1 ++ bad2 ++ bad3
      match body { b with run := run3 } q.2.2 with
      | .done outs s2 => .next (s2.finish b ready (bad ++ outs))
      | .held w s2 =>
        if w.issued && !b.waited then .next (s2.waitIssued b ready w bad)
        else if bad.isEmpty then .next (s2.holdBatch b w)
        else .next (s2.finish b ready (bad ++ run3.map fun p => (p.1, Out.stay p.2)))
      | .again s2 =>
        if bad.isEmpty then .next s2.clearTried
        else .next (s2.finish b ready (bad ++ run3.map fun p => (p.1, Out.stay (((s2.skein b.g.key b.k).bind (·.fibre p.1)).getD p.2))))

/-- An instruction without stage-2 checks of its own. -/
def State.issueWith (s : State) (i : Instr) (body : Batch → State → Result) : Host.Outcome State Fault Refusal :=
  s.issueChecked i (fun _ _ => []) body

/-- An instruction whose effect in each fibre is by itself. -/
def State.perFibre (s : State) (i : Instr) (f : Batch → Nat → Fibre → Out) : Host.Outcome State Fault Refusal :=
  s.issueWith i fun b s => .done (b.each (f b)) s

end Sys2Proof.Machine
end

