-- ==== Sys2Proof/Machine/Int.lean ====
section
/-! DEFINITION. Integer arithmetic, logic and bit operations, moves and SEL3 (spec/07 R176, R179 to R189). -/

namespace Sys2Proof.Machine

/-! ## Shared operations -/

/-- The fibre that supplies source B: the batch's lowest where `UB` is set (spec/02 R37). -/
def bFibre (b : Batch) (x : Fibre) (ub : Bool) : Fibre := if ub then b.low x else x

/-- A source of class I at its width, its modifiers applied (spec/06 R150). -/
def Fibre.intSrc (x : Fibre) (ty : IntTy) (r : Reg) (neg abs : Bool) : Nat :=
  modInt (intBits ty) neg abs (x.rdVal r.toNat (intBits ty / 32))

/-- A result written at the width of its type. -/
def Fibre.intDst (x : Fibre) (ty : IntTy) (r : Reg) (v : Nat) : Fibre := x.wrVal r.toNat (intBits ty / 32) v

/-- The three sources of a V3 word as exact integers. -/
def v3Ints (b : Batch) (x : Fibre) (ty : IntTy) (f : V3) : Int × Int × Int :=
  (intVal ty (x.intSrc ty f.sa f.nega f.absa), intVal ty ((bFibre b x f.ub).intSrc ty f.sb f.negb f.absb),
    intVal ty (x.intSrc ty f.sc f.negc f.absc))

/-- A V3 operation of class I on exact integers, finished (R176). -/
def intOp (op : Int → Int → Int → Int) (ty : IntTy) (f : V3) (b : Batch) (_ : Nat) (x : Fibre) : Out :=
  let v := v3Ints b x ty f
  .next (x.intDst ty f.dst (finishInt ty f.clamp (op v.1 v.2.1 v.2.2)))

/-- A VI operation of class I: B is the immediate, C the destination (spec/06 R153, R154). -/
def intOpImm (op : Int → Int → Int → Int) (ty : IntTy) (f : VI) (_ : Batch) (_ : Nat) (x : Fibre) : Out :=
  let a := intVal ty (x.intSrc ty f.sa f.nega f.absa)
  let c := intVal ty (x.intSrc ty f.dst false false)
  .next (x.intDst ty f.dst (finishInt ty f.clamp (op a (intVal ty (immInt ty f.imm)) c)))

/-- A multi-clock result: pending until MULTI_CLOCK_RESULT_WRITTEN (spec/03 R66, spec/07 R177). -/
def Fibre.later (x : Fibre) (r : Reg) (n v : Nat) : Fibre := { x with late := x.late ++ [(x.place r.toNat, wordsOf n v)] }

/-- A multi-clock operation of class I. -/
def intLate (op : IntTy → Int → Int → Int) (ty : IntTy) (f : V3) (b : Batch) (_ : Nat) (x : Fibre) : Out :=
  let v := v3Ints b x ty f
  .next (x.later f.dst (intBits ty / 32) (finishInt ty f.clamp (op ty v.1 v.2.1)))

def intLateImm (op : IntTy → Int → Int → Int) (ty : IntTy) (f : VI) (_ : Batch) (_ : Nat) (x : Fibre) : Out :=
  let a := intVal ty (x.intSrc ty f.sa f.nega f.absa)
  .next (x.later f.dst (intBits ty / 32) (finishInt ty f.clamp (op ty a (intVal ty (immInt ty f.imm)))))

/-- The type is signed. -/
def signedTy : IntTy → Bool
  | .s32 | .s64 => true
  | .n32 | .n64 => false

/-- The exact quotient of IDIV (R180). -/
def divOp (ty : IntTy) (a b : Int) : Int :=
  if b ≠ 0 then Int.tdiv a b
  else if !signedTy ty then intMax ty
  else if 0 ≤ a then intMax ty else intMin ty

/-- The remainder of IREM (R180). -/
def remOp (_ : IntTy) (a b : Int) : Int := if b ≠ 0 then a - Int.tdiv a b * b else a

/-- The upper half of a product (R179). -/
def mulhOp (ty : IntTy) (a b : Int) : Int := a * b / 2 ^ intBits ty

/-- LEA: B is one register, extended as the type says (R181). -/
def leaB (ty : IntTy) (neg abs : Bool) (v : Nat) : Int :=
  if signedTy ty then toSigned 32 (modInt 32 neg abs v) else (modInt 32 neg abs v : Nat)

/-! ## Integer arithmetic -/

/-- IADD (R179). -/
def execIadd (ty : IntTy) (f : V3) (s : State) : Host.Outcome State Fault Refusal :=
  s.perFibre (.iadd ty f) (intOp (fun a b _ => a + b) ty f)

/-- IADD (R179). The immediate form. -/
def execIaddImm (ty : IntTy) (f : VI) (s : State) : Host.Outcome State Fault Refusal :=
  s.perFibre (.iaddImm ty f) (intOpImm (fun a b _ => a + b) ty f)

/-- ISUB (R179). -/
def execIsub (ty : IntTy) (f : V3) (s : State) : Host.Outcome State Fault Refusal :=
  s.perFibre (.isub ty f) (intOp (fun a b _ => a - b) ty f)

/-- ISUB (R179). The immediate form. -/
def execIsubImm (ty : IntTy) (f : VI) (s : State) : Host.Outcome State Fault Refusal :=
  s.perFibre (.isubImm ty f) (intOpImm (fun a b _ => a - b) ty f)

/-- IMUL (R179). -/
def execImul (ty : IntTy) (f : V3) (s : State) : Host.Outcome State Fault Refusal :=
  s.perFibre (.imul ty f) (intOp (fun a b _ => a * b) ty f)

/-- IMUL (R179). The immediate form. -/
def execImulImm (ty : IntTy) (f : VI) (s : State) : Host.Outcome State Fault Refusal :=
  s.perFibre (.imulImm ty f) (intOpImm (fun a b _ => a * b) ty f)

/-- IMULH (R179). -/
def execImulh (ty : IntTy) (f : V3) (s : State) : Host.Outcome State Fault Refusal :=
  s.perFibre (.imulh ty f) (intOp (fun a b _ => mulhOp ty a b) ty f)

/-- IMULH (R179). The immediate form. -/
def execImulhImm (ty : IntTy) (f : VI) (s : State) : Host.Outcome State Fault Refusal :=
  s.perFibre (.imulhImm ty f) (intOpImm (fun a b _ => mulhOp ty a b) ty f)

/-- IMAD (R179). -/
def execImad (ty : IntTy) (f : V3) (s : State) : Host.Outcome State Fault Refusal :=
  s.perFibre (.imad ty f) (intOp (fun a b c => a * b + c) ty f)

/-- IMAD (R179). The immediate form. -/
def execImadImm (ty : IntTy) (f : VI) (s : State) : Host.Outcome State Fault Refusal :=
  s.perFibre (.imadImm ty f) (intOpImm (fun a b c => a * b + c) ty f)

/-- IMADW: a widening multiply-add (R182). -/
def execImadw (ty : IntTy) (f : V3) (s : State) : Host.Outcome State Fault Refusal :=
  s.perFibre (.imadw ty f) fun b _ x =>
    let a := intVal ty (x.intSrc ty f.sa f.nega f.absa)
    let m := intVal ty ((bFibre b x f.ub).intSrc ty f.sb f.negb f.absb)
    let wide : IntTy := if signedTy ty then .s64 else .n64
    let c := intVal wide (x.intSrc wide f.sc f.negc f.absc)
    .next (x.wrVal f.dst.toNat 2 (finishInt wide f.clamp (a * m + c)))

/-- IDIV (R180). -/
def execIdiv (ty : IntTy) (f : V3) (s : State) : Host.Outcome State Fault Refusal :=
  s.perFibre (.idiv ty f) (intLate divOp ty f)

/-- IDIV (R180). The immediate form. -/
def execIdivImm (ty : IntTy) (f : VI) (s : State) : Host.Outcome State Fault Refusal :=
  s.perFibre (.idivImm ty f) (intLateImm divOp ty f)

/-- IREM (R180). -/
def execIrem (ty : IntTy) (f : V3) (s : State) : Host.Outcome State Fault Refusal :=
  s.perFibre (.irem ty f) (intLate remOp ty f)

/-- IREM (R180). The immediate form. -/
def execIremImm (ty : IntTy) (f : VI) (s : State) : Host.Outcome State Fault Refusal :=
  s.perFibre (.iremImm ty f) (intLateImm remOp ty f)

/-- IMIN (R179). -/
def execImin (ty : IntTy) (f : V3) (s : State) : Host.Outcome State Fault Refusal :=
  s.perFibre (.imin ty f) (intOp (fun a b _ => min a b) ty f)

/-- IMIN (R179). The immediate form. -/
def execIminImm (ty : IntTy) (f : VI) (s : State) : Host.Outcome State Fault Refusal :=
  s.perFibre (.iminImm ty f) (intOpImm (fun a b _ => min a b) ty f)

/-- IMAX (R179). -/
def execImax (ty : IntTy) (f : V3) (s : State) : Host.Outcome State Fault Refusal :=
  s.perFibre (.imax ty f) (intOp (fun a b _ => max a b) ty f)

/-- IMAX (R179). The immediate form. -/
def execImaxImm (ty : IntTy) (f : VI) (s : State) : Host.Outcome State Fault Refusal :=
  s.perFibre (.imaxImm ty f) (intOpImm (fun a b _ => max a b) ty f)

/-- LEA (R181). -/
def execLea (ty : IntTy) (f : V3) (s : State) : Host.Outcome State Fault Refusal :=
  s.perFibre (.lea ty f) fun b _ x =>
    let a := intVal ty (x.intSrc ty f.sa f.nega f.absa)
    let v := leaB ty f.negb f.absb ((bFibre b x f.ub).rd f.sb.toNat).toNat
    .next (x.intDst ty f.dst (finishInt ty f.clamp (a + v * 2 ^ f.sc.toNat)))

/-- LEA with an immediate: the shift is 0 (R181). -/
def execLeaImm (ty : IntTy) (f : VI) (s : State) : Host.Outcome State Fault Refusal :=
  s.perFibre (.leaImm ty f) (intOpImm (fun a b _ => a + b) ty f)

/-- ICMP (R183). -/
def execIcmp (ty : IntTy) (f : V3) (s : State) : Host.Outcome State Fault Refusal :=
  s.perFibre (.icmp ty f) fun b _ x =>
    let v := v3Ints b x ty { f with sc := 0 }
    .next (x.wrPred f.dst.toNat (.ofBool (intCond f.sc.toNat v.1 v.2.1)))

/-- ICMP with an immediate: the condition stands in DST bits 44:41 (R183, spec/06 R154). -/
def execIcmpImm (ty : IntTy) (f : VI) (s : State) : Host.Outcome State Fault Refusal :=
  s.perFibre (.icmpImm ty f) fun _ _ x =>
    let a := intVal ty (x.intSrc ty f.sa f.nega f.absa)
    .next (x.wrPred (f.dst.toNat % 16) (.ofBool (intCond (f.dst.toNat / 16) a (intVal ty (immInt ty f.imm)))))

/-! ## Logic and bits (R184 to R187) -/

/-- A source of class B at its width. -/
def Fibre.bitSrc (x : Fibre) (ty : BitTy) (r : Reg) : Nat := x.rdVal r.toNat (bitBits ty / 32)

/-- A V3 operation of class B on A and a whole B. -/
def bitOp (op : Nat → Nat → Nat → Nat) (ty : BitTy) (f : V3) (b : Batch) (_ : Nat) (x : Fibre) : Out :=
  .next (x.wrVal f.dst.toNat (bitBits ty / 32)
    (op (bitBits ty) (x.bitSrc ty f.sa) ((bFibre b x f.ub).bitSrc ty f.sb)))

/-- A V3 operation of class B whose B is one register: a count, a field or a selector. -/
def bitOpN (op : Nat → Nat → Nat → Nat) (ty : BitTy) (f : V3) (b : Batch) (_ : Nat) (x : Fibre) : Out :=
  .next (x.wrVal f.dst.toNat (bitBits ty / 32)
    (op (bitBits ty) (x.bitSrc ty f.sa) ((bFibre b x f.ub).rd f.sb.toNat).toNat))

/-- A VI operation of class B. -/
def bitOpImm (op : Nat → Nat → Nat → Nat) (ty : BitTy) (f : VI) (_ : Batch) (_ : Nat) (x : Fibre) : Out :=
  .next (x.wrVal f.dst.toNat (bitBits ty / 32) (op (bitBits ty) (x.bitSrc ty f.sa) f.imm.toNat))

/-- A V3 operation of class B that reads A alone and writes n registers. -/
def bitOp1 (op : Nat → Nat → Nat) (n : Nat) (ty : BitTy) (f : V3) (_ : Batch) (_ : Nat) (x : Fibre) : Out :=
  .next (x.wrVal f.dst.toNat n (op (bitBits ty) (x.bitSrc ty f.sa)))

/-- ¬b in w bits. -/
def notW (w b : Nat) : Nat := 2 ^ w - 1 - b % 2 ^ w

def opAnd (_ a b : Nat) : Nat := Nat.land a b
def opOr (_ a b : Nat) : Nat := Nat.lor a b
def opXor (_ a b : Nat) : Nat := Nat.xor a b
def opAndn (w a b : Nat) : Nat := Nat.land a (notW w b)
def opOrn (w a b : Nat) : Nat := Nat.lor a (notW w b)

/-- Shifts by n places: nothing is left of the operand when n reaches the width. -/
def opShl (w a n : Nat) : Nat := if w ≤ n then 0 else a * 2 ^ n % 2 ^ w
def opShr (w a n : Nat) : Nat := if w ≤ n then 0 else a / 2 ^ n
def opSar (w a n : Nat) : Nat := wrapInt w (toSigned w a / 2 ^ min n (w - 1))
def opRotl (w a n : Nat) : Nat := (a * 2 ^ (n % w) % 2 ^ w) + a / 2 ^ (w - n % w)

/-- Bits 2W−1:W of (a × 2^W + b) shifted left n mod W places. -/
def opFshl (w a b n : Nat) : Nat := (a * 2 ^ w + b) * 2 ^ (n % w) / 2 ^ w % 2 ^ w

/-- BFX: the field that B names of a (R185). -/
def opBfx (w a sel : Nat) : Nat :=
  let pos := sel % 256
  let len := min (sel / 256 % 256) w
  if len = 0 ∨ w ≤ pos then 0
  else
    let v := a / 2 ^ pos % 2 ^ len
    if bitOf sel 16 then wrapInt w (toSigned len v) else v

/-- BFI: the low bits of a put into the field of c that B names (R185). -/
def opBfi (w a sel c : Nat) : Nat :=
  let pos := sel % 256
  let len := min (sel / 256 % 256) w
  if w ≤ pos then c
  else
    let top := min (pos + len) w
    c % 2 ^ pos + (a % 2 ^ (top - pos)) * 2 ^ pos + c / 2 ^ top * 2 ^ top

/-- Bits set among the lowest n. -/
def countOnes : Nat → Nat → Nat
  | 0, _ => 0
  | n + 1, a => a % 2 + countOnes n (a / 2)

def opPopc (w a : Nat) : Nat := countOnes w a
def opClz (w a : Nat) : Nat := if a = 0 then w else w - 1 - Nat.log2 a

/-- Zeros below the lowest bit set; the width for zero. -/
def countZeros : Nat → Nat → Nat
  | 0, _ => 0
  | n + 1, a => if a % 2 = 1 then 0 else 1 + countZeros n (a / 2)

def opCtz (w a : Nat) : Nat := countZeros w a

/-- The lowest n bits in reverse order. -/
def reverseBits : Nat → Nat → Nat
  | 0, _ => 0
  | n + 1, a => a % 2 * 2 ^ n + reverseBits n (a / 2)

def opBrev (w a : Nat) : Nat := reverseBits w a

/-- One byte of BPERM's result by its nibble (R187). -/
def bpermByte (w a nib : Nat) : Nat :=
  if bitOf nib 3 then 0
  else if w = 32 then
    let v := a / 256 ^ (nib % 4) % 256
    if bitOf nib 2 then (if 128 ≤ v then 255 else 0) else v
  else a / 256 ^ (nib % 8) % 256

def opBperm (w a sel : Nat) : Nat :=
  ofBytes ((rangeFrom 0 (w / 8)).map fun i => BitVec.ofNat 8 (bpermByte w a (sel / 16 ^ i % 16)))

/-- AND (R184). -/
def execAnd (ty : BitTy) (f : V3) (s : State) : Host.Outcome State Fault Refusal :=
  s.perFibre (.and ty f) (bitOp opAnd ty f)

/-- AND with an immediate (R184). -/
def execAndImm (ty : BitTy) (f : VI) (s : State) : Host.Outcome State Fault Refusal :=
  s.perFibre (.andImm ty f) (bitOpImm opAnd ty f)

/-- OR (R184). -/
def execOr (ty : BitTy) (f : V3) (s : State) : Host.Outcome State Fault Refusal :=
  s.perFibre (.or ty f) (bitOp opOr ty f)

/-- OR with an immediate (R184). -/
def execOrImm (ty : BitTy) (f : VI) (s : State) : Host.Outcome State Fault Refusal :=
  s.perFibre (.orImm ty f) (bitOpImm opOr ty f)

/-- XOR (R184). -/
def execXor (ty : BitTy) (f : V3) (s : State) : Host.Outcome State Fault Refusal :=
  s.perFibre (.xor ty f) (bitOp opXor ty f)

/-- XOR with an immediate (R184). -/
def execXorImm (ty : BitTy) (f : VI) (s : State) : Host.Outcome State Fault Refusal :=
  s.perFibre (.xorImm ty f) (bitOpImm opXor ty f)

/-- ANDN (R184). -/
def execAndn (ty : BitTy) (f : V3) (s : State) : Host.Outcome State Fault Refusal :=
  s.perFibre (.andn ty f) (bitOp opAndn ty f)

/-- ANDN with an immediate (R184). -/
def execAndnImm (ty : BitTy) (f : VI) (s : State) : Host.Outcome State Fault Refusal :=
  s.perFibre (.andnImm ty f) (bitOpImm opAndn ty f)

/-- ORN (R184). -/
def execOrn (ty : BitTy) (f : V3) (s : State) : Host.Outcome State Fault Refusal :=
  s.perFibre (.orn ty f) (bitOp opOrn ty f)

/-- ORN with an immediate (R184). -/
def execOrnImm (ty : BitTy) (f : VI) (s : State) : Host.Outcome State Fault Refusal :=
  s.perFibre (.ornImm ty f) (bitOpImm opOrn ty f)

/-- SHL (R184). -/
def execShl (ty : BitTy) (f : V3) (s : State) : Host.Outcome State Fault Refusal :=
  s.perFibre (.shl ty f) (bitOpN opShl ty f)

/-- SHL with an immediate (R184). -/
def execShlImm (ty : BitTy) (f : VI) (s : State) : Host.Outcome State Fault Refusal :=
  s.perFibre (.shlImm ty f) (bitOpImm opShl ty f)

/-- SHR (R184). -/
def execShr (ty : BitTy) (f : V3) (s : State) : Host.Outcome State Fault Refusal :=
  s.perFibre (.shr ty f) (bitOpN opShr ty f)

/-- SHR with an immediate (R184). -/
def execShrImm (ty : BitTy) (f : VI) (s : State) : Host.Outcome State Fault Refusal :=
  s.perFibre (.shrImm ty f) (bitOpImm opShr ty f)

/-- SAR (R184). -/
def execSar (ty : BitTy) (f : V3) (s : State) : Host.Outcome State Fault Refusal :=
  s.perFibre (.sar ty f) (bitOpN opSar ty f)

/-- SAR with an immediate (R184). -/
def execSarImm (ty : BitTy) (f : VI) (s : State) : Host.Outcome State Fault Refusal :=
  s.perFibre (.sarImm ty f) (bitOpImm opSar ty f)

/-- ROTL (R184). -/
def execRotl (ty : BitTy) (f : V3) (s : State) : Host.Outcome State Fault Refusal :=
  s.perFibre (.rotl ty f) (bitOpN opRotl ty f)

/-- ROTL with an immediate (R184). -/
def execRotlImm (ty : BitTy) (f : VI) (s : State) : Host.Outcome State Fault Refusal :=
  s.perFibre (.rotlImm ty f) (bitOpImm opRotl ty f)

/-- BFX (R185). -/
def execBfx (ty : BitTy) (f : V3) (s : State) : Host.Outcome State Fault Refusal :=
  s.perFibre (.bfx ty f) (bitOpN opBfx ty f)

/-- BFX with an immediate (R185). -/
def execBfxImm (ty : BitTy) (f : VI) (s : State) : Host.Outcome State Fault Refusal :=
  s.perFibre (.bfxImm ty f) (bitOpImm opBfx ty f)

/-- BPERM (R187). -/
def execBperm (ty : BitTy) (f : V3) (s : State) : Host.Outcome State Fault Refusal :=
  s.perFibre (.bperm ty f) (bitOpN opBperm ty f)

/-- BPERM with an immediate (R187). -/
def execBpermImm (ty : BitTy) (f : VI) (s : State) : Host.Outcome State Fault Refusal :=
  s.perFibre (.bpermImm ty f) (bitOpImm opBperm ty f)

/-- FSHL (R185). -/
def execFshl (ty : BitTy) (f : V3) (s : State) : Host.Outcome State Fault Refusal :=
  s.perFibre (.fshl ty f) fun b _ x =>
    let w := bitBits ty
    .next (x.wrVal f.dst.toNat (w / 32)
      (opFshl w (x.bitSrc ty f.sa) ((bFibre b x f.ub).bitSrc ty f.sb) (x.rd f.sc.toNat).toNat))

/-- BFI (R185). -/
def execBfi (ty : BitTy) (f : V3) (s : State) : Host.Outcome State Fault Refusal :=
  s.perFibre (.bfi ty f) fun b _ x =>
    let w := bitBits ty
    .next (x.wrVal f.dst.toNat (w / 32)
      (opBfi w (x.bitSrc ty f.sa) ((bFibre b x f.ub).rd f.sb.toNat).toNat (x.bitSrc ty f.sc)))

/-- BFI with an immediate: C is the destination (R185). -/
def execBfiImm (ty : BitTy) (f : VI) (s : State) : Host.Outcome State Fault Refusal :=
  s.perFibre (.bfiImm ty f) fun _ _ x =>
    let w := bitBits ty
    .next (x.wrVal f.dst.toNat (w / 32) (opBfi w (x.bitSrc ty f.sa) f.imm.toNat (x.bitSrc ty f.dst)))

/-- POPC (R186). -/
def execPopc (ty : BitTy) (f : V3) (s : State) : Host.Outcome State Fault Refusal :=
  s.perFibre (.popc ty f) (bitOp1 opPopc 1 ty f)

/-- CLZ (R186). -/
def execClz (ty : BitTy) (f : V3) (s : State) : Host.Outcome State Fault Refusal :=
  s.perFibre (.clz ty f) (bitOp1 opClz 1 ty f)

/-- CTZ (R186). -/
def execCtz (ty : BitTy) (f : V3) (s : State) : Host.Outcome State Fault Refusal :=
  s.perFibre (.ctz ty f) (bitOp1 opCtz 1 ty f)

/-- BREV (R186). -/
def execBrev (ty : BitTy) (f : V3) (s : State) : Host.Outcome State Fault Refusal :=
  s.perFibre (.brev ty f) (bitOp1 opBrev (bitBits ty / 32) ty f)

/-! ## Moves and select (R188, R189) -/

/-- MOV (R188). -/
def execMov (ty : IntTy) (f : V3) (s : State) : Host.Outcome State Fault Refusal :=
  s.perFibre (.mov ty f) fun _ _ x => .next (x.intDst ty f.dst (x.intSrc ty f.sa f.nega f.absa))

/-- MOV of an immediate (R188, spec/06 R154). -/
def execMovImm (ty : IntTy) (f : VI) (s : State) : Host.Outcome State Fault Refusal :=
  s.perFibre (.movImm ty f) fun _ _ x => .next (x.intDst ty f.dst (immInt ty f.imm))

/-- MOVH: bits 31:8 written, bits 7:0 kept (R188). -/
def execMovh (ty : IntTy) (f : VI) (s : State) : Host.Outcome State Fault Refusal :=
  s.perFibre (.movh ty f) fun _ _ x =>
    .next (x.wrVal f.dst.toNat 1 (f.imm.toNat * 256 + (x.rd f.dst.toNat).toNat % 256))

/-- SEL3 (R189). -/
def execSel3 (ty : BitTy) (f : V3) (s : State) : Host.Outcome State Fault Refusal :=
  s.perFibre (.sel3 ty f) fun b _ x =>
    let v :=
      match predOf x.pw f.sc.toNat with
      | .true_ => x.bitSrc ty f.sa
      | .false_ => (bFibre b x f.ub).bitSrc ty f.sb
      | .undecided => x.bitSrc ty f.dst
    .next (x.wrVal f.dst.toNat (bitBits ty / 32) v)

end Sys2Proof.Machine
end

