-- ==== Sys2Proof/Machine/Float.lean ====
section
/-! DEFINITION. Floating-point arithmetic, approximate functions, inspection, comparison and conversions, with their
interval forms (spec/07 R190 to R203). -/

namespace Sys2Proof.Machine

/-! ## Shared operations -/

/-- The rounding in force for a fibre: an override or `RMODE`, with the random value of element i (spec/04 R82 to R84). -/
def Fibre.rnd (x : Fibre) (fib ov i : Nat) : Rnd :=
  Rnd.ofCode (roundCode ov x.rmode) (stochRandom x.srseed.toNat fib i)

/-- The fibre's `FMODE`. -/
def Fibre.fm (x : Fibre) : Fmode := Fmode.ofNat x.fmode

/-- A point source of a format: flushed under `FTZIN`, then its modifiers (spec/06 R150). -/
def Fibre.fSrc (x : Fibre) (fmt : FloatFmt) (r : Reg) (neg abs : Bool) (fm : Fmode) : FV :=
  fmt.read (modFloat fmt neg abs (fmt.flushIn fm (x.rdVal r.toNat (fmtRegs fmt) % 2 ^ fmt.width)))

/-- A result of a format: narrow values write zeros above (spec/06 R149). -/
def Fibre.fDst (x : Fibre) (fmt : FloatFmt) (r : Reg) (v : Nat) : Fibre := x.wrVal r.toNat (fmtRegs fmt) v

/-- The three point sources of a V3 word. -/
def v3Floats (b : Batch) (x : Fibre) (fmt : FloatFmt) (f : V3) : FV × FV × FV :=
  (x.fSrc fmt f.sa f.nega f.absa x.fm, (bFibre b x f.ub).fSrc fmt f.sb f.negb f.absb x.fm,
    x.fSrc fmt f.sc f.negc f.absc x.fm)

/-- The sources of a VI word: A, the immediate, the destination. -/
def viFloats (x : Fibre) (fmt : FloatFmt) (f : VI) : FV × FV × FV :=
  (x.fSrc fmt f.sa f.nega f.absa x.fm, fmt.read (fmt.flushIn x.fm (immFloat fmt f.imm)),
    x.fSrc fmt f.dst false false x.fm)

/-- What an operation does with point operands: the operands for the choice of a NaN, and the exact value. -/
abbrev PointOp := FloatFmt → Fmode → Rnd → FV × FV × FV → List FV × Ex

/-- What it does with interval operands; nothing where the operand lies outside its domain. -/
abbrev IntervalOp := Iv → Iv → Iv → Option Iv

/-- An interval source: nothing when it is empty (spec/04 R87), its modifiers applied. -/
def Fibre.ivSrc (x : Fibre) (fmt : FloatFmt) (r : Reg) (neg abs : Bool) : Option Iv :=
  let k := fmtRegs fmt
  (fmt.readIv (x.rdVal r.toNat k) (x.rdVal (r.toNat + k) k)).map (Iv.modify neg abs)

/-- Both bounds written. -/
def Fibre.ivDst (x : Fibre) (fmt : FloatFmt) (r : Reg) (v : Nat × Nat) : Fibre :=
  let k := fmtRegs fmt
  (x.wrVal r.toNat k v.1).wrVal (r.toNat + k) k v.2

/-- A result written at once, or pending for a multi-clock operation. -/
def Fibre.put (x : Fibre) (late : Bool) (r : Reg) (n v : Nat) : Fibre :=
  if late then x.later r n v else x.wrVal r.toNat n v

/-- The bounds as one value of the group. -/
def ivWord (fmt : FloatFmt) (v : Nat × Nat) : Nat := v.1 + 2 ^ (32 * fmtRegs fmt) * v.2

/-- An empty operand's fault (spec/20 R433). -/
def emptyFault : Out := .fault .emptyInterval 0

/-- The number of sources an operation reads. -/
inductive Reads where
  | a | ab | abc
  deriving DecidableEq, Repr

/-- A class F operation in the V3 form, point or interval (R176, R190, R202). -/
def floatOp (reads : Reads) (late : Bool) (pt : PointOp) (iv : IntervalOp) (ty : FTy) (f : V3) (b : Batch) (slot : Nat)
    (x : Fibre) : Out :=
  let fmt := fFmt ty
  if f.i then
    let va := x.ivSrc fmt f.sa f.nega f.absa
    let vb := if reads = .a then some Iv.entire else (bFibre b x f.ub).ivSrc fmt f.sb f.negb f.absb
    let vc := if reads = .abc then x.ivSrc fmt f.sc f.negc f.absc else some Iv.entire
    match va, vb, vc with
    | some a, some b, some c =>
      match iv a b c with
      | some r => .next (x.put late f.dst (2 * fmtRegs fmt) (ivWord fmt (fmt.finishIv x.fm (scaleExp f.scale) f.clamp r)))
      | none => emptyFault
    | _, _, _ => emptyFault
  else
    let mode := x.rnd (b.fibid slot) 0 0
    let r := pt fmt x.fm mode (v3Floats b x fmt f)
    .next (x.put late f.dst (fmtRegs fmt) (fmt.finish mode x.fm (scaleExp f.scale) f.clamp r.1 r.2))

/-- The same in the VI form: the immediate is the point interval [x, x] (spec/06 R153). -/
def floatOpImm (reads : Reads) (late : Bool) (pt : PointOp) (iv : IntervalOp) (ty : FTy) (f : VI) (b : Batch) (slot : Nat)
    (x : Fibre) : Out :=
  let fmt := fFmt ty
  if f.i then
    let m := immFloat fmt f.imm
    let vc := if reads = .abc then x.ivSrc fmt f.dst false false else some Iv.entire
    match x.ivSrc fmt f.sa f.nega f.absa, fmt.readIv m m, vc with
    | some a, some b, some c =>
      match iv a b c with
      | some r => .next (x.put late f.dst (2 * fmtRegs fmt) (ivWord fmt (fmt.finishIv x.fm 0 f.clamp r)))
      | none => emptyFault
    | _, _, _ => emptyFault
  else
    let mode := x.rnd (b.fibid slot) 0 0
    let r := pt fmt x.fm mode (viFloats x fmt f)
    .next (x.put late f.dst (fmtRegs fmt) (fmt.finish mode x.fm 0 f.clamp r.1 r.2))

/-! ## The operations on points and intervals -/

def ptAdd : PointOp := fun _ _ mode v => ([v.1, v.2.1], v.1.ex.add mode v.2.1.ex)
def ptMul : PointOp := fun _ _ _ v => ([v.1, v.2.1], v.1.ex.mul v.2.1.ex)
def ptDiv : PointOp := fun _ _ _ v => ([v.1, v.2.1], v.1.ex.div v.2.1.ex)
def ptSqrt : PointOp := fun _ _ _ v => ([v.1], v.1.ex.sqrt)

/-- FFMA; with `UNFMAD` the product is rounded first (R190, spec/04 R85). -/
def ptFma : PointOp := fun fmt fm mode v =>
  let p := v.1.ex.mul v.2.1.ex
  let p := if fm.unfmad && p != .nan then (fmt.read (fmt.roundEx mode p)).ex else p
  ([v.1, v.2.1, v.2.2], p.add mode v.2.2.ex)

/-- The sign of a value. -/
def fvNeg : FV → Bool
  | .nan n _ => n
  | .inf n => n
  | .fin n _ _ => n

def fvNan : FV → Bool
  | .nan _ _ => true
  | _ => false

/-- a is the smaller, −0 lying below +0 (R192). -/
def fvLeast (a b : FV) : Bool :=
  match a.er, b.er with
  | some p, some q => if p.eq q then fvNeg a || !fvNeg b else p.lt q
  | _, _ => true

/-- FMIN (`small`) and FMAX under `MINNUM` (R192, spec/04 R85). -/
def ptMinMax (small : Bool) : PointOp := fun _ fm _ v =>
  let a := v.1
  let b := v.2.1
  let pick := if small == fvLeast a b then a else b
  ([a, b],
    if fvNan a || fvNan b then
      (if fm.minnum && !fvNan b then b.ex else if fm.minnum && !fvNan a then a.ex else .nan)
    else pick.ex)

/-- FRND: the integral value, a zero keeping the sign (R195). -/
def ptRnd : PointOp := fun _ _ mode v =>
  ([v.1],
    match v.1.ex with
    | .fin neg n d => .fin neg (mode.nat neg n d) 1
    | x => x)

def ivMinMax (small : Bool) : IntervalOp := fun a b _ =>
  some (if small then ⟨a.lo.min b.lo, a.hi.min b.hi⟩ else ⟨a.lo.max b.lo, a.hi.max b.hi⟩)

/-- FADD (R190, R202). -/
def execFadd (ty : FTy) (f : V3) (s : State) : Host.Outcome State Fault Refusal :=
  s.perFibre (.fadd ty f) (floatOp .ab false ptAdd (fun a b _ => some (a.add b)) ty f)

/-- FADD (R190, R202). The immediate form. -/
def execFaddImm (ty : FTy) (f : VI) (s : State) : Host.Outcome State Fault Refusal :=
  s.perFibre (.faddImm ty f) (floatOpImm .ab false ptAdd (fun a b _ => some (a.add b)) ty f)

/-- FMUL (R190, R202). -/
def execFmul (ty : FTy) (f : V3) (s : State) : Host.Outcome State Fault Refusal :=
  s.perFibre (.fmul ty f) (floatOp .ab false ptMul (fun a b _ => some (a.fmul b)) ty f)

/-- FMUL (R190, R202). The immediate form. -/
def execFmulImm (ty : FTy) (f : VI) (s : State) : Host.Outcome State Fault Refusal :=
  s.perFibre (.fmulImm ty f) (floatOpImm .ab false ptMul (fun a b _ => some (a.fmul b)) ty f)

/-- FFMA (R190, R202). -/
def execFfma (ty : FTy) (f : V3) (s : State) : Host.Outcome State Fault Refusal :=
  s.perFibre (.ffma ty f) (floatOp .abc false ptFma (fun a b c => some (a.fma b c)) ty f)

/-- FFMA (R190, R202). The immediate form. -/
def execFfmaImm (ty : FTy) (f : VI) (s : State) : Host.Outcome State Fault Refusal :=
  s.perFibre (.ffmaImm ty f) (floatOpImm .abc false ptFma (fun a b c => some (a.fma b c)) ty f)

/-- FMIN (R192, R202). -/
def execFmin (ty : FTy) (f : V3) (s : State) : Host.Outcome State Fault Refusal :=
  s.perFibre (.fmin ty f) (floatOp .ab false (ptMinMax true) (ivMinMax true) ty f)

/-- FMIN (R192, R202). The immediate form. -/
def execFminImm (ty : FTy) (f : VI) (s : State) : Host.Outcome State Fault Refusal :=
  s.perFibre (.fminImm ty f) (floatOpImm .ab false (ptMinMax true) (ivMinMax true) ty f)

/-- FMAX (R192, R202). -/
def execFmax (ty : FTy) (f : V3) (s : State) : Host.Outcome State Fault Refusal :=
  s.perFibre (.fmax ty f) (floatOp .ab false (ptMinMax false) (ivMinMax false) ty f)

/-- FMAX (R192, R202). The immediate form. -/
def execFmaxImm (ty : FTy) (f : VI) (s : State) : Host.Outcome State Fault Refusal :=
  s.perFibre (.fmaxImm ty f) (floatOpImm .ab false (ptMinMax false) (ivMinMax false) ty f)

/-- FDIV (R190, R202). -/
def execFdiv (ty : FTy) (f : V3) (s : State) : Host.Outcome State Fault Refusal :=
  s.perFibre (.fdiv ty f) (floatOp .ab true ptDiv (fun a b _ => some (a.fdiv b)) ty f)

/-- FDIV (R190, R202). The immediate form. -/
def execFdivImm (ty : FTy) (f : VI) (s : State) : Host.Outcome State Fault Refusal :=
  s.perFibre (.fdivImm ty f) (floatOpImm .ab true ptDiv (fun a b _ => some (a.fdiv b)) ty f)

/-- FSQRT (R190, R202). -/
def execFsqrt (ty : FTy) (f : V3) (s : State) : Host.Outcome State Fault Refusal :=
  s.perFibre (.fsqrt ty f) (floatOp .a true ptSqrt (fun a _ _ => a.fsqrt) ty f)

/-- FRND (R195, R202). -/
def execFrnd (ty : FTy) (f : V3) (s : State) : Host.Outcome State Fault Refusal :=
  s.perFibre (.frnd ty f) (floatOp .a false ptRnd (fun a _ _ => some ⟨a.lo.floor, a.hi.ceil⟩) ty f)

/-! ## Approximate functions (R193, R194, R203) -/

/-- An approximate function of A; multi-clock. -/
def approxOp (fn : AFn) (ty : FTy) (f : V3) (_ : Batch) (_ : Nat) (x : Fibre) : Out :=
  let fmt := fFmt ty
  let k := fmtRegs fmt
  if f.i then
    match x.ivSrc fmt f.sa f.nega f.absa with
    | none => emptyFault
    | some a =>
      match fn.interval fmt x.fm (scaleExp f.scale) f.clamp (x.rdVal f.sa.toNat (2 * k)) a with
      | none => emptyFault
      | some r => .next (x.later f.dst (2 * k) (ivWord fmt r))
  else
    let bits := modFloat fmt f.nega f.absa (fmt.flushIn x.fm (x.rdVal f.sa.toNat k % 2 ^ fmt.width))
    .next (x.later f.dst k (fn.point fmt x.fm (scaleExp f.scale) f.clamp bits))

/-- FRCP (R193, R194, R203). -/
def execFrcp (ty : FTy) (f : V3) (s : State) : Host.Outcome State Fault Refusal :=
  s.perFibre (.frcp ty f) (approxOp .rcp ty f)

/-- FRSQ (R193, R194, R203). -/
def execFrsq (ty : FTy) (f : V3) (s : State) : Host.Outcome State Fault Refusal :=
  s.perFibre (.frsq ty f) (approxOp .rsq ty f)

/-- FEX2 (R193, R194, R203). -/
def execFex2 (ty : FTy) (f : V3) (s : State) : Host.Outcome State Fault Refusal :=
  s.perFibre (.fex2 ty f) (approxOp .ex2 ty f)

/-- FLG2 (R193, R194, R203). -/
def execFlg2 (ty : FTy) (f : V3) (s : State) : Host.Outcome State Fault Refusal :=
  s.perFibre (.flg2 ty f) (approxOp .lg2 ty f)

/-- FSINP (R193, R194, R203). -/
def execFsinp (ty : FTy) (f : V3) (s : State) : Host.Outcome State Fault Refusal :=
  s.perFibre (.fsinp ty f) (approxOp .sinp ty f)

/-- FCOSP (R193, R194, R203). -/
def execFcosp (ty : FTy) (f : V3) (s : State) : Host.Outcome State Fault Refusal :=
  s.perFibre (.fcosp ty f) (approxOp .cosp ty f)

/-! ## Scaling and inspection (R195, R196) -/

/-- A scale beyond every format's range is as good as one at its edge. -/
def scaleCap (n : Int) : Int := max (-5000) (min 5000 n)

/-- FSCALE by n of A, point or interval. -/
def fscaleOp (fmt : FloatFmt) (i clamp neg abs : Bool) (dst sa : Reg) (n : Int) (fib : Nat) (x : Fibre) : Out :=
  if i then
    match x.ivSrc fmt sa neg abs with
    | none => emptyFault
    | some a => .next (x.ivDst fmt dst (fmt.finishIv x.fm (scaleCap n) clamp a))
  else
    let a := x.fSrc fmt sa neg abs x.fm
    .next (x.fDst fmt dst (fmt.finish (x.rnd fib 0 0) x.fm (scaleCap n) clamp [a] a.ex))

/-- FCLASS of a pattern (R196). -/
def classOf (fmt : FloatFmt) (n : Nat) : Nat :=
  let neg := bitOf n fmt.magBits
  match fmt.read n with
  | .nan _ _ => if bitOf n (fmt.fbits - 1) then 2 else 1
  | .inf true => 4
  | .inf false => 512
  | .fin _ m _ =>
    if m = 0 then (if neg then 32 else 64)
    else if fmt.isSubnormal n then (if neg then 16 else 128)
    else if neg then 8 else 256

/-- FEXPO of a value (R196). -/
def expoOf : FV → Nat
  | .nan _ _ => 0x7FFFFFFE
  | .inf _ => 0x7FFFFFFF
  | .fin _ m e => if m = 0 then 0x80000000 else wrapInt 32 ((Nat.log2 m : Int) + e)

/-- FMANT's exact value (R196). -/
def mantOf : FV → Ex
  | .fin neg m e => if m = 0 then .fin neg 0 1 else .fin neg m (2 ^ Nat.log2 m)
  | x => x.ex

/-- FSCALE (R195, R202). -/
def execFscale (ty : FTy) (f : V3) (s : State) : Host.Outcome State Fault Refusal :=
  s.perFibre (.fscale ty f) fun b t x =>
    let n := toSigned 32 (modInt 32 f.negb f.absb ((bFibre b x f.ub).rd f.sb.toNat).toNat)
    fscaleOp (fFmt ty) f.i f.clamp f.nega f.absa f.dst f.sa (n + scaleExp f.scale) (b.fibid t) x

/-- FSCALE with an immediate count (R195). -/
def execFscaleImm (ty : FTy) (f : VI) (s : State) : Host.Outcome State Fault Refusal :=
  s.perFibre (.fscaleImm ty f) fun b t x =>
    fscaleOp (fFmt ty) f.i f.clamp f.nega f.absa f.dst f.sa (immSigned f.imm) (b.fibid t) x

/-- FCLASS (R196). -/
def execFclass (ty : FTy) (f : V3) (s : State) : Host.Outcome State Fault Refusal :=
  s.perFibre (.fclass ty f) fun _ _ x =>
    let fmt := fFmt ty
    .next (x.wrVal f.dst.toNat 1
      (classOf fmt (modFloat fmt f.nega f.absa (x.rdVal f.sa.toNat (fmtRegs fmt) % 2 ^ fmt.width))))

/-- FMANT (R196). -/
def execFmant (ty : FTy) (f : V3) (s : State) : Host.Outcome State Fault Refusal :=
  s.perFibre (.fmant ty f) fun b t x =>
    let fmt := fFmt ty
    let a := x.fSrc fmt f.sa f.nega f.absa .clear
    .next (x.fDst fmt f.dst (fmt.finish (x.rnd (b.fibid t) 0 0) x.fm (scaleExp f.scale) f.clamp [a] (mantOf a)))

/-- FEXPO (R196). -/
def execFexpo (ty : FTy) (f : V3) (s : State) : Host.Outcome State Fault Refusal :=
  s.perFibre (.fexpo ty f) fun _ _ x =>
    .next (x.wrVal f.dst.toNat 1 (expoOf (x.fSrc (fFmt ty) f.sa f.nega f.absa .clear)))

/-! ## Comparison (R197) -/

/-- FCMP (R197). -/
def execFcmp (ty : FTy) (f : V3) (s : State) : Host.Outcome State Fault Refusal :=
  s.perFibre (.fcmp ty f) fun b _ x =>
    let fmt := fFmt ty
    let c := FCond.ofCode f.sc.toNat
    if f.i then
      match x.ivSrc fmt f.sa f.nega f.absa, (bFibre b x f.ub).ivSrc fmt f.sb f.negb f.absb with
      | some p, some q => .next (x.wrPred f.dst.toNat (Iv.compare c p q))
      | _, _ => emptyFault
    else
      let v := v3Floats b x fmt { f with sc := 0 }
      .next (x.wrPred f.dst.toNat (FV.compare c v.1 v.2.1))

/-- FCMP with an immediate (R197, spec/06 R154). -/
def execFcmpImm (ty : FTy) (f : VI) (s : State) : Host.Outcome State Fault Refusal :=
  s.perFibre (.fcmpImm ty f) fun _ _ x =>
    let fmt := fFmt ty
    let c := FCond.ofCode (f.dst.toNat / 16)
    let p := f.dst.toNat % 16
    if f.i then
      match x.ivSrc fmt f.sa f.nega f.absa, fmt.readIv (immFloat fmt f.imm) (immFloat fmt f.imm) with
      | some a, some q => .next (x.wrPred p (Iv.compare c a q))
      | _, _ => emptyFault
    else
      let v := viFloats x fmt { f with dst := 0 }
      .next (x.wrPred p (FV.compare c v.1 v.2.1))

/-! ## Conversions (R198 to R201) -/

/-- The float format of a code (spec/04 R72). -/
def codeFloat : Nat → Option FloatFmt
  | 0 => some fmtF32 | 1 => some fmtF64 | 2 => some fmtF16 | 3 => some fmtBf16 | 4 => some fmtE4m3 | 5 => some fmtE5m2
  | _ => none

/-- The integer format of a code: bits and signedness. -/
def codeInt : Nat → Option (Nat × Bool)
  | 7 => some (32, true) | 8 => some (32, false) | 9 => some (64, true) | 10 => some (64, false) | 11 => some (16, true)
  | 12 => some (16, false) | 13 => some (8, true) | 14 => some (8, false) | _ => none

/-- Least and greatest value of an integer format. -/
def rangeOf (bits : Nat) (sg : Bool) : Int × Int :=
  if sg then (-(2 ^ (bits - 1)), 2 ^ (bits - 1) - 1) else (0, 2 ^ bits - 1)

/-- A value saturated to an integer format. -/
def satInt (bits : Nat) (sg : Bool) (v : Int) : Int := max (rangeOf bits sg).1 (min (rangeOf bits sg).2 v)

/-- An integer as a register holds it: narrow ones extended to 32 bits (spec/04 R73). -/
def intReg (bits : Nat) (sg : Bool) (v : Int) : Nat :=
  let n := wrapInt bits v
  if bits < 32 ∧ sg then wrapInt 32 (toSigned bits n) else n

/-- A float rounded to an integer format (spec/04 R74). -/
def floatToInt (mode : Rnd) (bits : Nat) (sg : Bool) : Ex → Int
  | .nan => 0
  | .inf neg => if neg then (rangeOf bits sg).1 else (rangeOf bits sg).2
  | .fin neg n d => satInt bits sg (signed neg (mode.nat neg n d))

/-- CVT from a code to a code of a source pattern; `fm` is clear where `FMODE` is ignored (R199, spec/04 R86). -/
def convert (mode : Rnd) (fm : Fmode) (dst src : Nat) (neg abs clamp : Bool) (v : Nat) : Nat :=
  match codeFloat src, codeInt src with
  | some sf, _ =>
    let a := sf.read (modFloat sf neg abs (sf.flushIn fm (v % 2 ^ sf.width)))
    match codeFloat dst, codeInt dst with
    | some df, _ => df.finish mode fm 0 false [a] a.ex
    | none, some (bits, sg) => intReg bits sg (floatToInt mode bits sg a.ex)
    | none, none => 0
  | none, some (sb, ss) =>
    let a : Int := if ss then toSigned sb v else (v % 2 ^ sb : Nat)
    match codeFloat dst, codeInt dst with
    | some df, _ => df.finish mode fm 0 false [] (.fin (decide (a < 0)) a.natAbs 1)
    | none, some (bits, sg) => intReg bits sg (if clamp then satInt bits sg a else a)
    | none, none => 0
  | none, none => 0

/-- The element that a fibre supplies to its block: +0 from a fibre that takes no part (R200). -/
def blockElement (run : List (Nat × Fibre)) (src : Nat) (f : V3) (t : Nat) : FV :=
  match run.find? fun p => p.1 == t, codeFloat src with
  | some p, some fmt => p.2.fSrc fmt f.sa f.nega f.absa .clear
  | _, _ => .fin false 0 0

/-- The register an element of an encoded block gives its fibre (R200). -/
def blockWord (k : Block) (t : Nat) : Nat := k.codes.getD (t % 32) 0 + k.scale * 2 ^ 8 + k.extra * 2 ^ 16

/-- A NaN element widened to f32, quiet, sign and payload kept; any other element exactly (R201). -/
def unpackFloat (fmt : FloatFmt) (n : Nat) : Nat :=
  match fmt.read n with
  | .nan _ _ => fmtF32.withSign (bitOf n fmt.magBits)
      (Nat.lor (n % 2 ^ fmt.fbits * 2 ^ (23 - fmt.fbits)) 0x7FC00000)
  | x => fmtF32.roundEx .ne x.ex

/-- UNPK's result by element code and position (R201). -/
def unpackElement (code pos v : Nat) : Nat :=
  match codeFloat code, codeInt code with
  | some fmt, _ => unpackFloat fmt (v / 2 ^ (16 * pos) % 2 ^ 16)
  | none, some (bits, sg) =>
    let n := v / 2 ^ (bits * pos) % 2 ^ bits
    if sg then wrapInt 32 (toSigned bits n) else n
  | none, none => 0

/-- CVT (R198, R199). -/
def execCvt (f : V3) (s : State) : Host.Outcome State Fault Refusal :=
  s.perFibre (.cvt f) fun b t x =>
    let dst := f.sb.toNat / 16
    let src := f.sb.toNat % 16
    let v := convert (x.rnd (b.fibid t) f.sc.toNat 0) x.fm dst src f.nega f.absa f.clamp (x.rdVal f.sa.toNat (codeRegs src))
    .next (x.wrVal f.dst.toNat (codeRegs dst) v)

/-- CVTB: the block's fibres encode it together (R200). -/
def execCvtb (f : V3) (s : State) : Host.Outcome State Fault Refusal :=
  s.issueWith (.cvtb f) fun b s =>
    let src := f.sb.toNat % 16
    .done (b.each fun t x =>
      let first := t / 32 * 32
      let k := encodeBlock ((rangeFrom first 32).map (blockElement b.run src f))
      .next (x.wrVal f.dst.toNat 1 (blockWord k t))) s

/-- PACK2 (R201). -/
def execPack2 (ty : HTy) (f : V3) (s : State) : Host.Outcome State Fault Refusal :=
  s.perFibre (.pack2 ty f) fun b t x =>
    let fmt := hFmt ty
    let half (y : Fibre) (r : Reg) (i : Nat) : Nat :=
      let v := y.fSrc fmtF32 r false false x.fm
      fmt.finish (x.rnd (b.fibid t) 0 i) x.fm 0 false [v] v.ex
    .next (x.wrVal f.dst.toNat 1 (half x f.sa 0 + 2 ^ 16 * half (bFibre b x f.ub) f.sb 1))

/-- UNPK (R201). -/
def execUnpk (ty : HTy) (f : V3) (s : State) : Host.Outcome State Fault Refusal :=
  s.perFibre (.unpk ty f) fun _ _ x =>
    .next (x.wrVal f.dst.toNat 1 (unpackElement (f.sb.toNat % 16) (f.sb.toNat / 16) (x.rd f.sa.toNat).toNat))

/-! ## Class FI (R204 to R207) -/

/-- A point written exactly, a zero as +0 (R205). -/
def pointBits (fmt : FloatFmt) (a : ER) : Nat := fmt.roundER .ne a

/-- A class FI operation of one interval that writes a point. -/
def ivPoint (op : FloatFmt → Iv → Nat) (ty : IvTy) (f : V3) (_ : Batch) (_ : Nat) (x : Fibre) : Out :=
  let fmt := ivFmt ty
  match x.ivSrc fmt f.sa f.nega f.absa with
  | none => emptyFault
  | some a => .next (x.fDst fmt f.dst (op fmt a))

/-- IVMK's bounds (R204): exact, or rounded outward in the .w form. -/
def ivmkBits (dst : FloatFmt) (a b : FV) (fm : Fmode) : Nat × Nat :=
  match a.er, b.er with
  | some p, some q =>
    let lo := p.min q
    let hi := p.max q
    dst.writeIv fm ⟨lo, hi⟩
  | _, _ => (dst.withSign true dst.infCode, dst.infCode)

/-- IVMK (R204). -/
def execIvmk (ty : IvTy) (f : V3) (s : State) : Host.Outcome State Fault Refusal :=
  s.perFibre (.ivmk ty f) fun b _ x =>
    let dst := ivFmt ty
    let src := if f.sc = 1 then fmtF64 else dst
    let p := x.fSrc src f.sa f.nega f.absa .clear
    let q := (bFibre b x f.ub).fSrc src f.sb f.negb f.absb .clear
    .next (x.ivDst dst f.dst (ivmkBits dst p q x.fm))

/-- IVMID (R205). -/
def execIvmid (ty : IvTy) (f : V3) (s : State) : Host.Outcome State Fault Refusal :=
  s.perFibre (.ivmid ty f) (ivPoint FloatFmt.ivMid ty f)

/-- IVWID (R205). -/
def execIvwid (ty : IvTy) (f : V3) (s : State) : Host.Outcome State Fault Refusal :=
  s.perFibre (.ivwid ty f) (ivPoint FloatFmt.ivWid ty f)

/-- IVMAG (R205). -/
def execIvmag (ty : IvTy) (f : V3) (s : State) : Host.Outcome State Fault Refusal :=
  s.perFibre (.ivmag ty f) (ivPoint (fun fmt a => pointBits fmt a.mag) ty f)

/-- IVMIG (R205). -/
def execIvmig (ty : IvTy) (f : V3) (s : State) : Host.Outcome State Fault Refusal :=
  s.perFibre (.ivmig ty f) (ivPoint (fun fmt a => pointBits fmt a.mig) ty f)

/-- IVHULL (R206). -/
def execIvhull (ty : IvTy) (f : V3) (s : State) : Host.Outcome State Fault Refusal :=
  s.perFibre (.ivhull ty f) fun b _ x =>
    let fmt := ivFmt ty
    match x.ivSrc fmt f.sa f.nega f.absa, (bFibre b x f.ub).ivSrc fmt f.sb f.negb f.absb with
    | some p, some q => .next (x.ivDst fmt f.dst (fmt.writeIv x.fm ⟨p.lo.min q.lo, p.hi.max q.hi⟩))
    | _, _ => emptyFault

/-- IVISECT (R206). -/
def execIvisect (ty : IvTy) (f : V3) (s : State) : Host.Outcome State Fault Refusal :=
  s.perFibre (.ivisect ty f) fun b _ x =>
    let fmt := ivFmt ty
    match x.ivSrc fmt f.sa f.nega f.absa, (bFibre b x f.ub).ivSrc fmt f.sb f.negb f.absb with
    | some p, some q =>
      let lo := p.lo.max q.lo
      let hi := p.hi.min q.hi
      if hi.lt lo then emptyFault else .next (x.ivDst fmt f.dst (fmt.writeIv x.fm ⟨lo, hi⟩))
    | _, _ => emptyFault

/-- IVSPLIT: the lower half, then the upper half (R207). -/
def execIvsplit (ty : IvTy) (f : V3) (s : State) : Host.Outcome State Fault Refusal :=
  s.perFibre (.ivsplit ty f) fun _ _ x =>
    let fmt := ivFmt ty
    match x.ivSrc fmt f.sa f.nega f.absa with
    | none => emptyFault
    | some a =>
      let m := fmt.ivMid a
      let v := fmt.writeIv x.fm a
      .next ((x.ivDst fmt f.dst (v.1, fmt.flushHi x.fm m)).ivDst fmt f.sb (fmt.flushLo x.fm m, v.2))

end Sys2Proof.Machine
end

