-- ==== Sys2Proof/Machine/Lanes.lean ====
section
/-! DEFINITION. Predicate logic and the operations across the fibres of a batch (spec/08 R223 to R229). -/

namespace Sys2Proof.Machine

/-! ## Predicates (R223) -/

/-- Predicate r of a fibre. -/
def Fibre.pred (x : Fibre) (r : Reg) : Tri := predOf x.pw r.toNat

/-- A predicate operation in each fibre. -/
def predOp (op : Tri → Tri → Tri) (f : SF) (_ : Batch) (_ : Nat) (x : Fibre) : Out :=
  .next (x.wrPred f.dst.toNat (op (x.pred f.sa) (x.pred f.sb)))

/-- PAND. -/
def execPand (f : SF) (s : State) : Host.Outcome State Fault Refusal := s.perFibre (.pand f) (predOp Tri.and f)

/-- POR. -/
def execPor (f : SF) (s : State) : Host.Outcome State Fault Refusal := s.perFibre (.por f) (predOp Tri.or f)

/-- PNOT. -/
def execPnot (f : SF) (s : State) : Host.Outcome State Fault Refusal :=
  s.perFibre (.pnot f) (predOp (fun a _ => a.not) f)

/-- PXOR. -/
def execPxor (f : SF) (s : State) : Host.Outcome State Fault Refusal := s.perFibre (.pxor f) (predOp Tri.xor f)

/-- PRES: undecided becomes false (`SUB` 0) or true (`SUB` 1). -/
def execPres (f : SF) (s : State) : Host.Outcome State Fault Refusal :=
  s.perFibre (.pres f) (predOp (fun a _ => a.resolve (f.sub == 1)) f)

/-- PMOV. -/
def execPmov (f : SF) (s : State) : Host.Outcome State Fault Refusal :=
  s.perFibre (.pmov f) (predOp (fun a _ => a) f)

/-! ## Across a batch -/

/-- The slot that SHFL reads, where it exists (R225). -/
def shflSlot (mode slot n : Nat) : Option Nat :=
  match mode with
  | 0 => some n
  | 1 => if n ≤ slot then some (slot - n) else none
  | 2 => some (slot + n)
  | _ => some (Nat.xor slot n)

/-- The fibre of a list in a slot. -/
def inSlot (xs : List (Nat × Fibre)) (t : Nat) : Option Fibre := (xs.find? fun p => p.1 == t).map (·.2)

/-- SHFL: sources are every fibre of the batch (R224, R225). -/
def execShfl (f : SF) (s : State) : Host.Outcome State Fault Refusal :=
  s.perFibre (.shfl f) fun b slot x =>
    let n := if bitOf f.sub.toNat 2 then 2 else 1
    let src := ((shflSlot (f.sub.toNat % 4) slot (x.rd f.sb.toNat).toNat).bind (inSlot b.all)).getD x
    .next (x.wrVal f.dst.toNat n (src.rdVal f.sa.toNat n))

/-- BALLOT (R226). -/
def execBallot (f : SF) (s : State) : Host.Outcome State Fault Refusal :=
  s.perFibre (.ballot f) fun b _ x =>
    let hit := b.run.filter fun p => predCode p.2.pw f.sub.toNat == f.imm.toNat
    .next (x.wrVal f.dst.toNat 2 (maskOf (hit.map (·.1))).toNat)

/-- VOTE's result (R226). -/
def voteOf (mode : Nat) (ts : List Tri) : Tri :=
  match mode with
  | 0 => if ts.all (· == .true_) then .true_ else if ts.any (· == .false_) then .false_ else .undecided
  | 1 => if ts.any (· == .true_) then .true_ else if ts.all (· == .false_) then .false_ else .undecided
  | _ => Tri.ofBool (ts.all fun t => some t == ts.head?)

/-- VOTE. -/
def execVote (f : SF) (s : State) : Host.Outcome State Fault Refusal :=
  s.perFibre (.vote f) fun b _ x =>
    .next (x.wrPred f.dst.toNat (voteOf f.imm.toNat (b.run.map fun p => predOf p.2.pw f.sub.toNat)))

/-- ELECT (R229). -/
def execElect (f : SF) (s : State) : Host.Outcome State Fault Refusal :=
  s.perFibre (.elect f) fun b slot x =>
    .next (x.wrPred f.dst.toNat (Tri.ofBool ((b.run.head?.map (·.1)) == some slot)))

/-! ## Reductions (R227, R228) -/

/-- One step of a reduction on patterns of a format code: 0 add, 1 min, 2 max, 3 and, 4 or, 5 xor. -/
def reduceStep (op code : Nat) (fm : Fmode) (a b : Nat) : Nat :=
  match codeFloat code with
  | some fmt =>
    let v := (fmt.read a, fmt.read b, fmt.read b)
    let r := if op = 0 then ptAdd fmt fm .ne v else ptMinMax (op == 1) fmt fm .ne v
    fmt.finish .ne fm 0 false r.1 r.2
  | none =>
    let bits := if code = 9 ∨ code = 10 then 64 else 32
    let sg := code == 7 || code == 9
    let val (n : Nat) : Int := if sg then toSigned bits n else n
    match op with
    | 0 => (a + b) % 2 ^ bits
    | 1 => if val b < val a then b else a
    | 2 => if val a < val b then b else a
    | 3 => Nat.land a b
    | 4 => Nat.lor a b
    | _ => Nat.xor a b

/-- The identity of an exclusive scan. -/
def reduceIdentity (op code : Nat) : Nat :=
  match codeFloat code with
  | some fmt => if op = 1 then fmt.infCode else if op = 2 then fmt.withSign true fmt.infCode else 0
  | none =>
    let bits := if code = 9 ∨ code = 10 then 64 else 32
    let sg := code == 7 || code == 9
    match op with
    | 1 => wrapInt bits (rangeOf bits sg).2
    | 2 => wrapInt bits (rangeOf bits sg).1
    | 3 => 2 ^ bits - 1
    | _ => 0

/-- A fibre's leaf: its `SA` value; a float is flushed under `FTZIN`, and a signalling NaN is the quiet one of its sign and payload
(spec/04 R76). -/
def reduceLeaf (code : Nat) (fm : Fmode) (sa : Reg) (x : Fibre) : Nat :=
  let v := x.rdVal sa.toNat (codeRegs code)
  match codeFloat code with
  | some fmt =>
    match fmt.read v with
    | .nan neg frac => fmt.nanFrom neg frac
    | _ => fmt.flushIn fm v
  | none => v

/-- One level of the tree: nodes 2i and 2i + 1 combined. -/
def reduceLevel (op code : Nat) (fm : Fmode) : List (Option Nat) → List (Option Nat)
  | a :: b :: r =>
    (match a, b with
      | some x, some y => some (reduceStep op code fm x y)
      | some x, none => some x
      | none, y => y) :: reduceLevel op code fm r
  | r => r

/-- The levels of a tree of 2^n leaves. -/
def reduceTree (op code : Nat) (fm : Fmode) : Nat → List (Option Nat) → List (Option Nat)
  | 0, xs => xs
  | n + 1, xs => reduceTree op code fm n (reduceLevel op code fm xs)

/-- The `FMODE` of the lowest contributor. -/
def lowestFm (xs : List (Nat × Fibre)) : Fmode := ((xs.head?).map fun p => p.2.fm).getD .clear

/-- RDX (R227). -/
def execRdx (f : SF) (s : State) : Host.Outcome State Fault Refusal :=
  s.perFibre (.rdx f) fun b _ x =>
    let code := f.imm.toNat
    let fm := lowestFm b.run
    let leaves := (rangeFrom 0 64).map fun t => (inSlot b.run t).map (reduceLeaf code fm f.sa)
    let root := (reduceTree (f.sub.toNat % 8) code fm 6 leaves).head?.join.getD 0
    .next (x.wrVal f.dst.toNat (codeRegs code) root)

/-- The fold of leaves one after another; nothing of no leaves. -/
def reduceFold (op code : Nat) (fm : Fmode) : List Nat → Option Nat
  | [] => none
  | a :: r => some (r.foldl (reduceStep op code fm) a)

/-- SCAN (R228). -/
def execScan (f : SF) (s : State) : Host.Outcome State Fault Refusal :=
  s.perFibre (.scan f) fun b slot x =>
    let code := f.imm.toNat
    let op := f.sub.toNat % 8
    let fm := lowestFm b.run
    let upTo := b.run.filter fun p => if bitOf f.sub.toNat 3 then p.1 < slot else p.1 ≤ slot
    let v := (reduceFold op code fm (upTo.map fun p => reduceLeaf code fm f.sa p.2)).getD (reduceIdentity op code)
    .next (x.wrVal f.dst.toNat (codeRegs code) v)

end Sys2Proof.Machine
end

