-- ==== Sys2Proof/Machine/Make.lean ====
section
/-! DEFINITION. New fibres, skeins and gangs as launch makes them (spec/03 R61, R67, spec/02 R39). -/

namespace Sys2Proof.Machine

/-- A fibre at launch: n registers, all 0 but d2, which holds the argument pointer; modes as R67 and R302 give them. -/
def Fibre.fresh (uid n : Nat) (pc : W64) (pers fmode : Nat) (argp : W64) : Fibre :=
  { uid := uid
    regs := setAt (setAt (List.replicate n 0) 2 (BitVec.ofNat 32 argp.toNat)) 3 (BitVec.ofNat 32 (argp.toNat / 2 ^ 32))
    e := List.replicate 8 0
    pc := pc, wshift := 0, pers := pers, rmode := 0, fmode := fmode, srseed := 0, pidx := 0, amask := 0, fmask := 0,
    fcode := 0, fpc := 0, gpc := 0, faddr := 0, eqid := 0, iopx := 0, fglen := 0, movedAt := 0, pass := 0, parked := false, emul := false,
    wait := .none, waitArg := 0, wmask := 0, wmoment := 0, tried := false, barIn := 0, stepIn := false, sbarIn := false,
    marks := [], lastMark := uid, waive := false, lseq := 0, expansion := none, pend := [], poison := [], late := [], redo := none, longPc := 0 }

/-- A skein with its fibres in slots 0 upward. -/
def Skein.fresh (width block age : Nat) (active : Bool) (fibres : List Fibre) : Skein :=
  { width := width
    slots := (fibres.map some ++ List.replicate width none).take width
    l := 0, s := 0, c := 0, t := 0, ackc := 0, arrive := [0, 0, 0, 0], record := [], nextSeq := 0, active := active,
    age := age, readyFrom := 0, moving := 0, issued := false, residency := 0, block := block, arrq := [], replaying := false }

/-- A gang without skeins: no arrivals anywhere. -/
def Gang.fresh (key : Nat) (kind : CoreKind) (cluster core ctx grid nregs : Nat) : Gang :=
  { key := key, kind := kind, cluster := cluster, core := core, ctx := ctx, grid := grid, gangid := 0, spanid := 0,
    linear := 0, nregs := nregs, image := if kind = .stake then 1 else 0, det := false, lbase := 0,
    barPhase := List.replicate 16 0, stepPhase := 0, stepCount := 0, sbarPhase := 0, poolBase := 0, poolCap := 0, poolBad := false,
    hcpc := 0, csn := 0, skeins := [], frozen := false, ended := false, target := none, asked := 0, moves := [], routine := none, work := ⟨[], none, false⟩, log := ⟨0, 0, 0, 0⟩ }

end Sys2Proof.Machine
end

