-- ==== Sys2Proof/Machine/Log.lean ====
section
/-! DEFINITION. The replay log of deterministic grids (spec/15 R387, R388). -/

namespace Sys2Proof.Machine

/-- Where a gang's entry i lies, as a kept address. -/
def State.logEntryAt (s : State) (g : Gang) (i : Nat) : Nat := absAddr (partOfWorld (s.worldOf g)) (g.log.base + 16 * i)

/-- The 16 bytes of an entry. -/
def logBytes (k slot kind size seq val : Nat) : List Byte :=
  bytesOf 1 k ++ bytesOf 1 slot ++ bytesOf 1 kind ++ bytesOf 1 size ++ bytesOf 4 seq ++ bytesOf 8 val

/-- Entries that a value of n bytes takes. -/
def logEntries (n : Nat) : Nat := (n + 7) / 8

/-- The entries of a value from entry i on, written; nothing where the area cannot be written (notes/assumptions/29). -/
def State.putLog (s : State) (g : Gang) (k slot kind size seq : Nat) : Nat → Nat → Nat → Option State
  | 0, _, _ => some s
  | n + 1, i, val =>
    match s.writeDev (s.worldOf g) (s.logEntryAt g i) (logBytes k slot kind size seq (val % 2 ^ 64)) with
    | .ok s' => State.putLog s' g k slot kind size seq n (i + 1) (val / 2 ^ 64)
    | .error _ => none

/-- The first entry of the area that matches. -/
def State.findLog (s : State) (g : Gang) (k slot kind seq : Nat) : Nat → Nat → Option Nat
  | 0, _ => none
  | fuel + 1, i =>
    let bs := s.mem.readBytes (s.logEntryAt g i) 8
    if bs.take 3 = bytesOf 1 k ++ bytesOf 1 slot ++ bytesOf 1 kind ∧ ofBytes (bs.drop 4) = seq then some i
    else State.findLog s g k slot kind seq fuel (i + 1)

/-- The value of n entries from entry i on. -/
def State.logValue (s : State) (g : Gang) : Nat → Nat → Nat
  | 0, _ => 0
  | n + 1, i => ofBytes (s.mem.readBytes (s.logEntryAt g i + 8) 8) + 2 ^ 64 * State.logValue s g n (i + 1)

/-- What the log makes of a logged operation of a fibre. -/
inductive Logged where
  /-- No log: the operation reads its source. -/
  | off
  /-- Recorded: entry i and the entries after it are the operation's. -/
  | recorded (i : Nat) (s : State)
  /-- Replayed: the value. -/
  | replayed (v : Nat)
  | fault

/-- A logged operation of n bytes, with the value as read (a recording load's is put in later). -/
def State.logged (s : State) (gk : Nat) (k slot : Nat) (x : Fibre) (kind n val : Nat) : Logged :=
  match s.gang gk with
  | none => .off
  | some g =>
    if !g.det then .off
    else if g.log.mode = 1 then
      if g.log.cap < g.log.used + logEntries n then .fault
      else
        match s.putLog g k slot kind n x.lseq (logEntries n) g.log.used val with
        | some s' => .recorded g.log.used (s'.modGang gk fun y => { y with log := { y.log with used := y.log.used + logEntries n } })
        | none => .fault
    else if g.log.mode = 2 then
      match s.findLog g k slot kind x.lseq g.log.cap 0 with
      | some i => .replayed (s.logValue g (logEntries n) i)
      | none => .fault
    else .off

/-- One more logged operation of the fibre. -/
def Fibre.counted (x : Fibre) : Fibre := { x with lseq := x.lseq + 1 }

/-- A value read at issue, through the log: the value to use, the fibre and the state; nothing where DET_VIOLATION is
raised. -/
def State.throughLog (s : State) (gk k slot : Nat) (x : Fibre) (kind n val : Nat) : Option (Nat × Fibre × State) :=
  match s.logged gk k slot x kind n val with
  | .off => some (val, x, s)
  | .recorded _ s' => some (val, x.counted, s')
  | .replayed v => some (v % 2 ^ (8 * n), x.counted, s)
  | .fault => none

end Sys2Proof.Machine
end

