-- ==== Sys2Proof/Machine/System.lean ====
section
/-! DEFINITION. State registers, handlers, emulation and yielding (spec/03 R67 to R71, spec/08 R230 to R234). -/

namespace Sys2Proof.Machine

/-! ## State registers (spec/03 R67) -/

/-- The core number that `CORE` reports. -/
def coreReport (g : Gang) : Nat := if g.kind = .handle then g.cluster else coreNumber g.cluster g.core

/-- `OUTCNT` of a skein. -/
def Skein.outcnt (sk : Skein) : Nat := packFields [(6, sk.l), (6, sk.s), (4, sk.c), (4, sk.t), (10, sk.ackc)]

/-- `SPANID` from the span's linear index in its grid (spec/02 R31): x in 23:0, y in 47:24, z in 63:48. -/
def spanIndex (gx gy linear : Nat) : Nat :=
  packFields [(24, linear % max gx 1), (24, linear / max gx 1 % max gy 1), (16, linear / (max gx 1 * max gy 1))]

/-- The kind as `KIND` gives it. -/
def kindCode : CoreKind → Nat
  | .rand => 0 | .stake => 1 | .handle => 2

/-- The selectors that read as zero on a handle thread. -/
def zeroOnHandle (sel : Nat) : Bool := (1 ≤ sel && sel ≤ 4) || (0x20 ≤ sel && sel ≤ 0x2D)

/-- The value of a state register for a fibre of a batch (spec/03 R67; `WBASE` by spec/12 R321). -/
def State.stateReg (s : State) (b : Batch) (slot : Nat) (x : Fibre) (sel : Nat) : Nat :=
  let g := b.g
  let grid := s.grid g.grid
  if g.kind = .handle ∧ zeroOnHandle sel then 0 else
  match sel with
  | 0x00 => b.fibid slot
  | 0x01 => b.k
  | 0x02 => g.gangid
  | 0x03 => ((grid.map fun r => spanIndex r.desc.gx r.desc.gy g.spanid).getD 0)
  | 0x04 => ((grid.map fun r => r.gridid.toNat).getD 0)
  | 0x05 => slot % (if g.kind = .stake then 32 else 16)
  | 0x06 => coreReport g
  | 0x07 => g.cluster
  | 0x08 => kindCode g.kind
  | 0x10 => 8 * b.sk.block + x.wshift
  | 0x11 => x.wsize
  | 0x18 => x.rmode
  | 0x19 => x.fmode
  | 0x1A => x.srseed.toNat
  | 0x20 => x.pidx.toNat
  | 0x21 => x.amask.toNat
  | 0x22 => x.fmask.toNat
  | 0x23 => x.fcode.toNat
  | 0x24 => x.fpc.toNat
  | 0x25 => x.gpc.toNat
  | 0x26 => x.eqid.toNat
  | 0x27 => x.iopx
  | 0x28 => x.faddr.toNat
  | 0x29 => b.sk.outcnt
  | 0x2A => b.sk.arrive.getD 0 0
  | 0x2B => b.sk.arrive.getD 1 0
  | 0x2C => b.sk.arrive.getD 2 0
  | 0x2D => b.sk.arrive.getD 3 0
  | 0x30 => g.csn
  | 0x31 => g.hcpc.toNat
  | 0x38 => g.lbase
  | 0x39 => ((grid.map fun r => r.stepcnt).getD 0)
  | 0x3A => s.worldOf g
  | 0x3B => x.pers
  | 0x3C => s.clockOf (s.partOfCluster g.cluster)
  | 0x3D => s.featvecOf g
  | _ => 0

/-- The fibres that run, one after another in the fixed fibre order, each with the state the earlier ones left. -/
def State.inOrder (s : State) (f : State → Nat → Fibre → Out × State) : List (Nat × Fibre) → List (Nat × Out) × State
  | [] => ([], s)
  | (t, x) :: r =>
    let o := f s t x
    let q := State.inOrder o.2 f r
    ((t, o.1) :: q.1, q.2)

/-- The registers whose values depend on placement or time, which a replay log records (spec/15 R387, spec/02 R56). -/
def placementReg (sel : Nat) : Bool :=
  (4 ≤ sel && sel ≤ 8) || sel == 0x10 || (0x29 ≤ sel && sel ≤ 0x2D) || sel == 0x39 || sel == 0x3C

/-- GETS (R230). -/
def execGets (f : SF) (s : State) : Host.Outcome State Fault Refusal :=
  s.issueWith (.gets f) fun b s =>
    let sel := f.imm.toNat % 256
    let n := if selector64 sel then 2 else 1
    let r := s.inOrder (fun s slot x =>
      let v := s.stateReg b slot x sel
      if placementReg sel then
        match s.throughLog b.g.key b.k slot x 3 (4 * n) v with
        | some q => (.next (q.2.1.wrVal f.dst.toNat n q.1), q.2.2)
        | none => (.fault .detViolation 0, s)
      else (.next (x.wrVal f.dst.toNat n v), s)) b.run
    .done r.1 r.2

/-- SETS in one fibre: modes at once, or at the next guest boundary within a template; `FPC` and `GPC` at once (R69, R70). -/
def setsFibre (sel v : Nat) (x : Fibre) : Fibre :=
  if sel = 0x24 then { x with fpc := BitVec.ofNat 64 v }
  else if sel = 0x25 then { x with gpc := BitVec.ofNat 64 v }
  else if sel = 0x38 then x
  else if x.inTemplate then { x with pend := x.pend ++ [(sel, v)] }
  else x.setMode sel v

/-- SETS (R230); `LBASE` takes the value of the batch's lowest fibre (R70). -/
def execSets (f : SF) (s : State) : Host.Outcome State Fault Refusal :=
  s.issueWith (.sets f) fun b s =>
    let sel := f.imm.toNat % 256
    let n := if selector64 sel then 2 else 1
    let outs := b.each fun _ x => .next (setsFibre sel (x.rdVal f.sa.toNat n) x)
    match sel == 0x38 && !b.run.isEmpty, b.all with
    | true, (_, x0) :: _ => .done outs (s.modGang b.g.key fun g => { g with lbase := (x0.rd f.sa.toNat).toNat / 8 * 8 })
    | _, _ => .done outs s

/-! ## Handlers and emulation (R231 to R233) -/

/-- TRAP: the handler resumes after it (R231). -/
def execTrap (f : SF) (s : State) : Host.Outcome State Fault Refusal :=
  s.perFibre (.trap f) fun _ _ _ => .trap (BitVec.ofNat 64 f.imm.toNat)

/-- BKPT: the handler resumes at it (R231). -/
def execBkpt (f : SF) (s : State) : Host.Outcome State Fault Refusal :=
  s.perFibre (.bkpt f) fun _ _ _ => .fault .bkpt (BitVec.ofNat 64 f.imm.toNat)

/-- The passing fibres that stand where the instruction is out of place (spec/20 R426 stage 2). -/
def misplaced (ok : Fibre → Bool) (b : Batch) (_ : State) : List (Nat × Out) :=
  if b.run.all fun p => ok p.2 then [] else faultAll b.run .illegalOp 0

/-- ERET (R232). -/
def execEret (f : SF) (s : State) : Host.Outcome State Fault Refusal :=
  s.issueChecked (.eret f) (misplaced Fibre.parked) fun b s =>
    .done (b.each fun _ x =>
      match x.leaveHandler (s.unitOf b.g.cluster x) with
      | .ok y => .stay y
      | .error e => .fault e.1 e.2) s

/-- EMRET's advance in guest PC units; none where it is no whole number of them (R233, spec/11 R301). -/
def emretAdvance (n fglen unit : Nat) : Option Nat :=
  let parcels := if n = 0 then fglen else if n = 0xFFFF then 0 else n
  if 2 * parcels % unit = 0 then some (2 * parcels / unit) else none

/-- EMRET (R233). -/
def execEmret (f : SF) (s : State) : Host.Outcome State Fault Refusal :=
  s.issueChecked (.emret f) (misplaced fun x => x.emul && !x.parked) fun b s =>
    .done (b.each fun _ x =>
      let unit := s.unitOf b.g.cluster x
      match emretAdvance f.imm.toNat x.fglen unit with
      | some a => .stay ({ x with emul := false }.toGuest unit (x.gpc + BitVec.ofNat 64 a))
      | none => .fault .align 0) s

/-! ## Yielding (R234) -/

/-- Another resident skein of the core has a ready batch. -/
def State.otherReady (s : State) (b : Batch) : Bool :=
  (s.residents b.g.cluster b.g.core).any fun g =>
    g.skeins.zipIdx.any fun p => (g.key != b.g.key || p.2 != b.k) && !g.frozen && !(s.nextBatch g p.1).isEmpty

/-- YIELD: no architectural effect; the skein leaves the active set when another resident skein of the core is ready. -/
def execYield (f : SF) (s : State) : Host.Outcome State Fault Refusal :=
  s.issueWith (.yield f) fun b s =>
    if !b.run.isEmpty && b.g.kind != .handle && s.otherReady b then
      .done (b.each fun _ x => .next x) (s.modSkein b.g.key b.k fun sk => { sk with active := false })
    else .done (b.each fun _ x => .next x) s

end Sys2Proof.Machine
end

