-- ==== Sys2Proof/Machine/Mem.lean ====
section
/-! DEFINITION. Loads, stores, atomics and cache operations at issue: addresses, checks, and the entries they make in the
in-flight record (spec/09 R241 to R249, spec/20 R426 stage 4, spec/15 R384, R385). -/

namespace Sys2Proof.Machine

/-! ## Addresses (R241) -/

/-- Bytes of an access by `SIZE` (spec/06 R156). -/
def sizeBytes (size : BitVec 3) : Nat := if size = 5 then 8 else 2 ^ (size.toNat % 5)

/-- The address of an M word in a fibre; `off` its signed offset, `unit` the bytes it counts. -/
def memAddr (f : MF) (off : Int) (unit size : Nat) (useIndex : Bool) (x : Fibre) : W64 :=
  let base := x.pair f.base.toNat
  let idx := if useIndex && f.index != 0 then BitVec.ofInt 64 ((x.rd f.index.toNat).toInt * size) else 0
  base + idx + BitVec.ofInt 64 (off * unit)

/-- The address that a fibre of the batch uses: its own, or with `UA` that of the batch's lowest fibre (spec/06 R158). -/
def Batch.addr (b : Batch) (f : MF) (off : Int) (unit size : Nat) (useIndex : Bool) (x : Fibre) : W64 :=
  memAddr f off unit size useIndex (if f.ua then b.low x else x)

/-- The offset of a load or store, and of an atomic (spec/06 R155, R157). -/
def wideOff (f : MF) : Int := f.off.toInt
def atomOff (f : MF) : Int := toSigned 8 (f.off.toNat % 256)

/-- The number of a scope (spec/05 R121). -/
def scopeNum : Scope → Nat
  | .skein => 1 | .gang => 2 | .cluster => 3 | .device => 4 | .system => 5

def orderAcquires : Order → Bool
  | .acq | .acqrel => true
  | _ => false

def orderReleases : Order → Bool
  | .rel | .acqrel => true
  | _ => false

/-- The part ends at a port. -/
def Part.port (p : Part) : Bool :=
  match p.home with
  | .host | .peer _ => true
  | _ => false

/-! ## Order (spec/05 R108 to R110, R121, R123 to R129, R133, R142, spec/09 R243, R247, R248) -/

/-- Two accesses share a byte. -/
def partsMeet (a b : List Part) : Bool :=
  a.any fun p => b.any fun q => p.home == q.home && p.addr < q.addr + q.len && q.addr < p.addr + p.len

/-- Two accesses share a 128-byte line of device memory. -/
def linesMeet (a b : List Part) : Bool :=
  a.any fun p => b.any fun q => p.home == q.home && p.addr / 128 ≤ (q.addr + q.len - 1) / 128 && q.addr / 128 ≤ (p.addr + p.len - 1) / 128

/-- Some part is on a page whose accesses are ordered. -/
def SlotOp.ordered (o : SlotOp) : Bool := o.parts.any fun p => !p.unordered

/-- Some part is on a strongly ordered page. -/
def SlotOp.strong (o : SlotOp) : Bool := o.parts.any fun p => p.strong

/-- The parts of an operation from number i on, each as an operation of its own (spec/05 R110); `off` bytes lie before them. -/
def SlotOp.piecesFrom (o : SlotOp) : Nat → Nat → List Part → List SlotOp
  | _, _, [] => []
  | i, off, p :: r =>
    { o with
      va := o.va + BitVec.ofNat 64 off, parts := [p], data := o.data / 2 ^ (8 * off)
      stage := if o.stage == .sent && o.got.any (fun q => q.1 == i) then .performed else o.stage } ::
      SlotOp.piecesFrom o (i + 1) (off + p.len) r

/-- An operation part by part: each is performed under its own page's kind. -/
def SlotOp.pieces (o : SlotOp) : List SlotOp := o.piecesFrom 0 0 o.parts

/-- An atomic to a host page, which its completion ends (spec/21 R447); a parked one read back from a save area names no part yet. -/
def hostAtom (e : Entry) (o : SlotOp) : Bool :=
  (e.kind == 5 || e.kind == 6 || e.kind == 7) && (o.parts.any (fun p => p.home == .host) || (o.parts.isEmpty && e.cls == 2))

/-- An earlier operation has gone as far as a release of entry e needs: its loads are complete and its writes performed; for a release at
cluster scope or below its cluster's seeing them is enough (spec/05 R135), and a release at a narrower scope than system does not wait for
a port (R133, R142). -/
def releasedTo (e e' : Entry) (o' : SlotOp) : Bool :=
  if loadLike e'.kind then o'.complete
  else o'.performed || (o'.near && e.scope ≤ 3) || (o'.parts.any Part.port && e.scope < 5)

/-- What one part of an earlier operation (e', o') of a fibre leaves to wait for before a part of (e, o) is performed. -/
def mayFollow (e : Entry) (o : SlotOp) (e' : Entry) (o' : SlotOp) : Bool :=
  let same := partsMeet o'.parts o.parts
  (o'.performed || !same)
    && (!(storeLike e.kind && o.ordered && loadLike e'.kind && o'.ordered) || o'.complete)
    && (!(o.strong && o'.strong) || (if loadLike e'.kind then o'.complete else o'.performed))
    && (!(e'.acquire && o'.ordered) || o'.complete)
    && (!(e.release && o.ordered) || releasedTo e e' o')
    && (!(e'.kind == 9 && linesMeet o'.parts o.parts) || o'.complete)
    && (!((e.kind == 8 || e.kind == 9) && linesMeet o'.parts o.parts) || o'.performed)

/-- An earlier operation whose place is not known yet: its host translation is outstanding. -/
def unplaced (e : Entry) (o : SlotOp) : Bool := o.parts.isEmpty && e.kind ≤ 9 && e.cls != 2 && !o.complete

/-- Every part of an operation that is still to be performed may follow an earlier operation. -/
def mayFollowAll (e : Entry) (o : SlotOp) (e' : Entry) (o' : SlotOp) : Bool :=
  !unplaced e' o' && o.pieces.all fun q => q.performed || o'.pieces.all fun q' => mayFollow e q e' q'

/-- Earlier operations of a fibre in its skein's record, with their entries. -/
def Skein.earlier (sk : Skein) (seq uid : Nat) : List (Entry × SlotOp) :=
  (sk.record.filter fun e => decide (e.seq < seq)).flatMap fun e => (e.ops.filter fun o => o.uid == uid).map fun o => (e, o)

/-- A release at system scope waits for the acknowledgements of everything the skein sent before it (spec/05 R133). -/
def Skein.acked (sk : Skein) (seq : Nat) : Bool := (sk.record.filter fun e => decide (e.seq < seq)).all fun e => e.acked

/-- The order of the model allows the operation to be performed now. -/
def Skein.mayPerform (sk : Skein) (e : Entry) (o : SlotOp) : Bool :=
  (sk.earlier e.seq o.uid).all (fun p => mayFollowAll e o p.1 p.2)
    && !(e.kind ≤ 0x0A && o.parts.isEmpty)
    && e.ops.all (fun q => q.slot ≥ o.slot || q.performed || e.one || !partsMeet q.parts o.parts)
    && (!(e.release && o.ordered && e.scope == 5) || sk.acked e.seq)

/-- The scope at which a part of an entry's operation is performed: host and remote pages are system scope (spec/05 R121). -/
def Entry.scopeAt (e : Entry) (p : Part) : Nat := if p.port then 5 else e.scope

/-! ## Values -/

/-- A float atomic in a format: no flushing, canonical NaN (spec/09 R246). -/
def floatAtom (fmt : FloatFmt) (min? : Option Bool) (a b : Nat) : Nat :=
  let v := (fmt.read a, fmt.read b, fmt.read b)
  let fm := Fmode.ofNat 16
  let r := match min? with
    | none => ptAdd fmt Fmode.clear .ne v
    | some m => ptMinMax m fmt fm .ne v
  fmt.finish .ne Fmode.clear 0 false r.1 r.2

/-- The new value of an atomic on n bits (spec/09 R246); 16 is the compare-and-swap. -/
def atomNew (aop n old d cmp : Nat) : Nat :=
  match aop with
  | 0 => (old + d) % 2 ^ n
  | 1 => if toSigned n d < toSigned n old then d else old
  | 2 => if toSigned n old < toSigned n d then d else old
  | 3 => Nat.land old d
  | 4 => Nat.lor old d
  | 5 => Nat.xor old d
  | 6 => d
  | 7 => floatAtom fmtF32 none old d
  | 8 => floatAtom fmtF64 none old d
  | 9 => floatAtom fmtF32 (some true) old d
  | 10 => floatAtom fmtF32 (some false) old d
  | 11 => if d ≤ old then 0 else old + 1
  | _ => if old = cmp then d else old

/-- LDIV's point x of a format as bounds of a format (spec/09 R245). -/
def ldivPoint (src dst : FloatFmt) (v : Nat) : Nat × Nat :=
  match src.read v with
  | .nan _ _ => (dst.withSign true dst.infCode, dst.infCode)
  | .inf neg => if neg then (dst.withSign true dst.infCode, dst.withSign true dst.maxCode) else (dst.maxCode, dst.infCode)
  | x =>
    if src = dst then (if v % 2 ^ dst.magBits = 0 then (0, 0) else (v, v))
    else
      match x.er with
      | some y => (dst.roundER .dn y, dst.roundER .up y)
      | none => (0, 0)

/-- The words that a load of a kind, form and size writes (spec/09 R244, R245). -/
def loadWords (kind aop size v : Nat) : List W32 :=
  if kind = 2 ∧ aop = 2 then
    let p := ldivPoint fmtF32 fmtF32 v
    [BitVec.ofNat 32 p.1, BitVec.ofNat 32 p.2]
  else if kind = 2 ∧ aop = 5 then
    let p := ldivPoint fmtF64 fmtF32 v
    [BitVec.ofNat 32 p.1, BitVec.ofNat 32 p.2]
  else wordsOf (max 1 (size / 4)) v

/-! ## Checks of an access -/

/-- A byte that a watchpoint watches lies in a range of device physical addresses (spec/15 R384). -/
def watchHits (w : W64 × W64) (write : Bool) (pa n : Nat) : Bool :=
  bitOf w.2.toNat (if write then 17 else 16) &&
    (rangeFrom 0 16).any fun i =>
      bitOf w.2.toNat i && pa ≤ bitsOf w.1.toNat 51 4 * 16 + i && bitsOf w.1.toNat 51 4 * 16 + i < pa + n

/-- An access by a core of a cluster hits one of the cluster's watchpoints. -/
def Cluster.watched (c : Cluster) (write : Bool) (ps : List Part) : Bool :=
  c.watch.any fun w => ps.any fun p => p.home == .dev && watchHits w write (p.addr % 2 ^ 52) p.len

/-- A PCIe AtomicOp exists for the operation (spec/09 R247). -/
def atomicOpOk (aop : Nat) (isCas : Bool) : Bool := isCas || aop == 0 || aop == 6

/-- What a memory instruction asks for in a fibre. -/
structure MemAsk where
  space : Space
  acc : Acc
  va : W64
  n : Nat
  align : Nat
  /-- An atomic's operation, and whether it is a compare-and-swap. -/
  aop : Nat
  cas : Bool
  /-- The retention hint; 0 takes the page's (spec/05 R117). -/
  hint : Nat

/-- The checks of one fibre's access, in order (R241, spec/20 R431): address, translation, permission, alignment,
deterministic mode, egress, roster, host atomics, loads of templates, watchpoints.  An access that fails one leaves the state as it
was. -/
def State.checkAsk (s : State) (b : Batch) (x : Fibre) (q : MemAsk) : Checked (List Part) :=
  let w := s.worldB b
  let r :=
    match q.space with
    | .global => s.checkGlobal b.g.ctx w (s.featvecOf b.g) q.acc q.va.toNat q.n q.align
    | .scratch => s.checkScratch b.g.cluster w q.va.toNat q.n q.align
    | .localMem => s.checkLocal b.g.cluster b.g.core q.va.toNat q.n q.align
  match r with
  | .ok ps s' =>
    let isAtomic := match q.acc with | .atomic _ | .reduce _ => true | _ => false
    let nonFinal := x.inTemplate && ((x.expansion.map fun e => decide (x.iopx + 1 < e.words.length)).getD false)
    let core := match q.acc with | .cwb | .cinv => false | _ => true
    if isAtomic && ps.any (fun p => p.home == .host && p.hat == 1) && !atomicOpOk q.aop q.cas then .fault .hostAtomic q.va s
    else if nonFinal && ps.any (fun p => p.devPage) then .fault .perm q.va s
    else if core && !x.waive && (s.cluster b.g.cluster).watched q.acc.writes ps then
      .fault .watch q.va (s.traceBatch b.g b.k 10 x (maskOf (b.run.map (·.1))) q.va)
    else .ok (if q.hint = 0 then ps else ps.map fun p => { p with retn := q.hint }) s'
  | r => r

/-- The accesses of a batch in the fixed fibre order: the fibres that fault, the accesses that pass, or a wait for host
translations (spec/14 R359). -/
inductive Asked where
  | wait (s : State)
  | done (faults : List (Nat × Out)) (ops : List (Nat × Fibre × List Part)) (s : State)

def State.askAll (s : State) (b : Batch) (ask : Nat → Fibre → MemAsk) : List (Nat × Fibre) → Asked
  | [] => .done [] [] s
  | (t, x) :: r =>
    match s.checkAsk b x (ask t x) with
    | .wait s' => .wait s'
    | .fault c a s' =>
      match State.askAll s' b ask r with
      | .wait s'' => .wait s''
      | .done fs ops s'' => .done ((t, .fault c a) :: fs) ops s''
    | .ok ps s' =>
      match State.askAll s' b ask r with
      | .wait s'' => .wait s''
      | .done fs ops s'' => .done fs ((t, x, ps) :: ops) s''

/-! ## Entries -/

/-- The class of an operation by where its parts lie (R249). -/
def classOf1 (kind : Nat) (ps : List Part) : Nat :=
  if kind = 1 ∨ kind = 2 then (if ps.any Part.devPage then 2 else 0)
  else if ps.any (fun p => p.home == .host) then (if kind = 5 ∨ kind = 6 ∨ ps.any (fun p => p.hat == 2 && kind == 7) then 2 else 0)
  else if ps.any (fun p => match p.home with | .handle _ => true | _ => false) then 0
  else 1

/-- The scope as written, where scratch knows none above cluster (spec/05 R111); a host page's atomic is at system scope (spec/09 R247).
Other accesses to host and remote pages keep what was written: a release there at a narrower scope than system does not wait for
acknowledgements (spec/05 R133, R142). -/
def scopeFor (scope : Nat) (space : Space) (hostAtomic : Bool) : Nat :=
  if hostAtomic then 5
  else match space with
    | .global => scope
    | _ => min scope 3

/-- What an entry of a memory instruction says besides its fibres' parts. -/
structure MemKind where
  kind : Nat
  size : Nat
  aop : Nat
  /-- Registers that a load writes. -/
  regs : Nat
  scope : Nat
  space : Space
  order : Order
  /-- One access for the whole batch (`UA`). -/
  one : Bool

/-- An operation that reaches a port raises `ACKC` when it writes (spec/03 R64). -/
def needsAck (kind : Nat) (ops : List SlotOp) : Bool :=
  (kind == 3 || kind == 4 || kind == 5 || kind == 6 || kind == 7) && ops.any fun o => o.parts.any Part.port

/-- A memory instruction's entry, but for its tag. -/
def Batch.memEntry (b : Batch) (x0 : Fibre) (m : MemKind) (ops : List SlotOp) : Entry :=
  let atHost := (m.kind == 5 || m.kind == 6 || m.kind == 7) && ops.any fun o => o.parts.any fun p => p.home == .host
  { b.entry m.kind x0 with
      cls := (ops.map fun o => classOf1 m.kind o.parts).foldl max 0, scope := scopeFor m.scope m.space atHost, one := m.one, acquire := orderAcquires m.order, release := orderReleases m.order,
      acked := !needsAck m.kind ops, mask := maskOf (ops.map (·.slot)), size := m.size, aop := m.aop, aux := m.regs,
      ops := ops }

/-- The operation's entry made at issue, with its tag where its class takes one (spec/13 R333; an atomic to a host page
takes one for its completion). -/
def State.recordMem (s : State) (b : Batch) (x0 : Fibre) (m : MemKind) (ops : List SlotOp) : State :=
  let e := b.memEntry x0 m ops
  if e.cls = 0 && !(e.ops.any (hostAtom e)) then s.addEntry b e
  else
    let t := s.takeTag b.g
    t.2.addEntry b { e with tag := t.1 }

/-- Handle-local accesses, performed at issue one after another: no counter and no record entry (spec/05 R98). -/
def State.performLocal (s : State) (b : Batch) (m : MemKind) (mk : Nat → Fibre → List Part → SlotOp) :
    List (Nat × Fibre × List Part) → List (Nat × Out) × State
  | [] => ([], s)
  | (t, x, ps) :: r =>
    let o := mk t x ps
    let got : Except FaultCode (Fibre × State) :=
      match s.readParts b.g.via (s.worldB b) 1 ps with
      | .error c => .error c
      | .ok (bs, s1) =>
        let old := ofBytes bs
        if m.kind = 1 ∨ m.kind = 2 then .ok (x.wrPlaces o.dst (loadWords m.kind m.aop m.size old), s1)
        else
          let new := if m.kind = 3 ∨ m.kind = 4 then o.data else atomNew m.aop (8 * m.size) old o.data o.cmp
          (s1.writeParts b.g.via (s.worldB b) 1 ps (bytesOf m.size new)).map fun s2 =>
            (if m.kind = 5 ∨ m.kind = 6 then x.wrPlaces o.dst (wordsOf (max 1 (m.size / 4)) old) else x, s2)
    match got with
    | .error c =>
      let q := State.performLocal s b m mk r
      ((t, .fault c o.va) :: q.1, q.2)
    | .ok (x', s') =>
      let q := State.performLocal s' b m mk r
      ((t, .next x') :: q.1, q.2)

/-- The issue of a handle-local access: checks, and the access itself. -/
def State.issueLocal (s : State) (b : Batch) (m : MemKind) (ask : Nat → Fibre → MemAsk) (mk : Nat → Fibre → List Part → SlotOp) : Result :=
  match s.askAll b ask b.run with
  | .wait s' => .held .none s'
  | .done faults oks s1 =>
    let q := s1.performLocal b m mk oks
    .done (faults ++ q.1) q.2

/-! ## Host-assisted atomics (spec/14 R362) -/

/-- The request ring of a world: entries and I/O address; none where it is disabled. -/
def State.requestRing (s : State) (w : Nat) : Option (Nat × Nat) :=
  let q := (s.world w).haq.toNat
  if 6 ≤ q % 32 ∧ q % 32 ≤ 12 then some (2 ^ (q % 32), q / 4096 * 4096) else none

/-- Ring positions whose atomic still waits: every pending host-assisted part of the world's gangs. -/
def State.ringBusy (s : State) (w : Nat) : List Nat :=
  s.allGangs.flatMap fun g =>
    if s.worldOf g = w then
      g.skeins.flatMap fun sk => sk.record.flatMap fun e =>
        (e.ops.filter fun o => (e.kind == 5 || e.kind == 6 || e.kind == 7) && o.stage == .sent
          && o.parts.any fun p => p.home == .host && p.hat == 2).map (·.val)
    else []

/-- The 64 bytes of a request. -/
def requestBytes (aop size : Nat) (io data cmp tag slot : Nat) : List Byte :=
  bytesOf 1 1 ++ bytesOf 1 aop ++ bytesOf 1 size ++ bytesOf 1 0 ++ bytesOf 4 0 ++ bytesOf 8 io ++ bytesOf 8 data
    ++ bytesOf 8 cmp ++ bytesOf 8 0 ++ bytesOf 8 tag ++ bytesOf 1 slot ++ bytesOf 15 0

/-- What becomes of one fibre's request. -/
inductive Requested where
  | sent (position : Nat) (s : State)
  /-- The ring is full. -/
  | full
  | wait (s : State)
  /-- Disabled, or the entry could not be written (with its code). -/
  | failed (code : Option FaultCode) (at_ : Nat) (s : State)

/-- A request written to the ring: `HAPROD` and the vector follow (spec/14 R362). -/
def State.request (s : State) (w : Nat) (busy : List Nat) (bytes : Nat → List Byte) : Requested :=
  match s.requestRing w with
  | none => .failed none 0 s
  | some (n, base) =>
    let j := (s.world w).haprod.toNat
    if busy.contains (j % n) then .full
    else
      let io := base + 64 * (j % n)
      if !bitOf (s.world w).wpasid.toNat 20 then .failed (some .xlate) io s else
      match s.hostFrame w io true with
      | .wait s' => .wait s'
      | .fault c _ s' => .failed (some c) io s'
      | .ok ha s' =>
        let s1 := s'.putNow .host ha (bytes (j % n))
        let s2 := s1.modWorld w fun x => { x with haprod := x.haprod + 1 }
        .sent (j % n) (s2.raise w (bitsOf (s.world w).havec.toNat 10 0))

/-- The requests of a batch's host-assisted parts, in slot order: operations with their ring positions, and those that
failed. -/
inductive Requests where
  | hold (s : State)
  | done (ops : List SlotOp) (bad : List (SlotOp × Option FaultCode × Nat)) (s : State)

def State.requestAll (s : State) (w : Nat) (tag : W64) (aop size : Nat) (busy : List Nat) : List SlotOp → Requests
  | [] => .done [] [] s
  | o :: r =>
    match o.parts.find? fun p => p.home == .host && p.hat == 2 with
    | none =>
      match State.requestAll s w tag aop size busy r with
      | .hold s' => .hold s'
      | .done ops bad s' => .done (o :: ops) bad s'
    | some p =>
      match s.request w busy fun _ => requestBytes aop size p.io o.data o.cmp tag.toNat o.slot with
      | .full => .hold s
      | .wait s' => .hold s'
      | .failed c a s' =>
        match State.requestAll s' w tag aop size busy r with
        | .hold s'' => .hold s''
        | .done ops bad s'' => .done ops ((o, c, a) :: bad) s''
      | .sent j s' =>
        match State.requestAll s' w tag aop size (j :: busy) r with
        | .hold s'' => .hold s''
        | .done ops bad s'' => .done ({ o with val := j } :: ops) bad s''

/-! ## The shared issue -/

/-- One memory instruction of a batch: checks, room in its counters, requests to the host, the entry.  `mk` makes a
fibre's operation from its parts.  An atomic to a host page leaves when it may be performed, after what its release orders (R247). -/
def State.issueMem (s : State) (b : Batch) (m : MemKind) (ask : Nat → Fibre → MemAsk)
    (mk : Nat → Fibre → List Part → SlotOp) : Result :=
  if m.space = .localMem then s.issueLocal b m ask mk else
  match b.run with
  | [] => .done [] s
  | (_, x0) :: _ =>
    if !b.sk.room m.kind 1 then .held .none s else
    match s.askAll b ask b.run with
    | .wait s' => .held .none s'
    | .done faults oks s1 =>
      let ops := oks.map fun o => mk o.1 o.2.1 o.2.2
      if needsAck m.kind ops && 1023 ≤ b.sk.ackc then .held .none s
      else if ops.isEmpty then .done faults s1
      else
        let e := { b.memEntry x0 m ops with seq := b.sk.nextSeq }
        if ops.any fun o => hostAtom e o && (!b.sk.mayPerform e o || (e.release && s1.releaseHeld b.g.via 5)) then .held .none s
        else
        let s1 := if e.release && ops.any (hostAtom e) then s1.releaseCaches b.g.via 5 else s1
        let assisted := (m.kind == 5 || m.kind == 6 || m.kind == 7)
          && ops.any fun o => o.parts.any fun p => p.home == .host && p.hat == 2
        let nexts (ops : List SlotOp) : List (Nat × Out) :=
          (oks.filter fun o => ops.any fun q => q.slot == o.1).map fun o => (o.1, .next o.2.1)
        if !assisted then .done (faults ++ nexts ops) (s1.recordMem b x0 m ops)
        else
          let w := s.worldB b
          let tag := (s1.takeTag b.g).1
          match s1.requestAll w tag (if m.kind = 6 then 16 else m.aop) m.size (s1.ringBusy w) ops with
          | .hold s2 =>
            .held .none { s with parts := s2.parts, ats := s2.ats }
          | .done sent bad s2 =>
            let e0 := { b.entry m.kind x0 with tag := tag }
            let s3 := bad.foldl (fun s p =>
              let r := match p.2.1 with
                | some c => s.writeRecord (s.impreciseRecord b.g b.k e0 c (BitVec.ofNat 64 p.2.2) (maskOf [p.1.slot])
                    (srcWord 5 b.g.cluster b.g.core 0 0))
                | none => s
              if m.kind = 7 then
                r.writeRecord (r.impreciseRecord b.g b.k e0 .hostAtomic p.1.va (maskOf [p.1.slot])
                  (srcWord 5 b.g.cluster b.g.core 0 0))
              else r) s2
            let badOuts := bad.map fun p =>
              (p.1.slot, if m.kind = 7 then Out.next ((inSlot b.run p.1.slot).getD x0) else .fault .hostAtomic p.1.va)
            .done (faults ++ badOuts ++ nexts sent)
              (if sent.isEmpty then s3 else s3.recordMem b x0 m sent)

/-! ## Loads and stores (R244, R245) -/

/-- A fibre's operation. -/
def slotOp (t : Nat) (x : Fibre) (dst : Nat) (va : W64) (ps : List Part) (data cmp : Nat) : SlotOp := .new t x.uid dst va ps data cmp

/-- The bytes of a store's data group. -/
def storeData (x : Fibre) (r : Reg) (n : Nat) : Nat := x.rdVal r.toNat (max 1 (n / 4)) % 2 ^ (8 * n)

/-- A load is one whose value a replay log holds: from a host page, or where a bounce channel lands (spec/15 R387). -/
def State.logsLoad (s : State) (w : Nat) (va : W64) (ps : List Part) : Bool :=
  ps.any (fun p => p.home == .host) ||
    (s.world w).bounce.any fun p =>
      let slots := 2 ^ (p.2.ctl.toNat % 32)
      let bytes := 2 ^ bitsOf p.2.ctl.toNat 12 8
      bitOf p.2.ctl.toNat 63 && p.2.dst.toNat ≤ va.toNat && va.toNat < p.2.dst.toNat + slots * bytes

/-- Logged loads of an entry, one after another: recorded entries keep their log index, replayed ones their value
(spec/15 R388).  Answers the operations, the fibres and the slots that fault. -/
def State.logLoads (s : State) (b : Batch) (n : Nat) :
    List SlotOp → List SlotOp × List (Nat × Out) × List (Nat × Fibre) × State
  | [] => ([], [], [], s)
  | o :: r =>
    let keep (s : State) (o : SlotOp) (xs : List (Nat × Fibre)) :=
      let q := State.logLoads s b n r
      (o :: q.1, q.2.1, xs ++ q.2.2.1, q.2.2.2)
    match inSlot b.run o.slot with
    | none => keep s o []
    | some x =>
      if !s.logsLoad (s.worldB b) o.va o.parts then keep s o [(o.slot, x)]
      else
        match s.logged b.g.key b.k o.slot x 1 n 0 with
        | .off => keep s o [(o.slot, x)]
        | .recorded i s' => keep s' { o with cmp := i + 1 } [(o.slot, x.counted)]
        | .replayed v => keep s { o with stage := .performed, val := v % 2 ^ (8 * n) } [(o.slot, x.counted)]
        | .fault =>
          let q := State.logLoads s b n r
          (q.1, (o.slot, .fault .detViolation 0) :: q.2.1, q.2.2.1, q.2.2.2)

/-- The issue of a load. -/
def State.issueLoad (s : State) (b : Batch) (m : MemKind) (ask : Nat → Fibre → MemAsk)
    (mk : Nat → Fibre → List Part → SlotOp) : Result :=
  if m.space = .localMem then s.issueLocal b m ask mk else
  match b.run with
  | [] => .done [] s
  | (_, x0) :: _ =>
    if !b.sk.room m.kind 1 then .held .none s else
    match s.askAll b ask b.run with
    | .wait s' => .held .none s'
    | .done faults oks s1 =>
      let q := s1.logLoads b m.size (oks.map fun o => mk o.1 o.2.1 o.2.2)
      let outs := faults ++ q.2.1 ++ q.2.2.1.map fun p => (p.1, Out.next p.2)
      .done outs (if q.1.isEmpty then q.2.2.2 else q.2.2.2.recordMem b x0 m q.1)

/-- LD (R244). -/
def execLd (f : MF) (s : State) : Host.Outcome State Fault Refusal :=
  s.issueWith (.ld f) fun b s =>
    let n := sizeBytes f.size
    let ea (x : Fibre) := b.addr f (wideOff f) n n true x
    s.issueLoad b ⟨1, n, 0, sizeRegs f.size, scopeNum f.scope, f.space, f.order, f.ua⟩
      (fun _ x => ⟨f.space, .load, ea x, n, 1, 0, false, f.hint.toNat⟩)
      (fun t x ps => slotOp t x (x.place f.data.toNat) (ea x) ps 0 0)

/-- ST (R244). -/
def execSt (f : MF) (s : State) : Host.Outcome State Fault Refusal :=
  s.issueWith (.st f) fun b s =>
    let n := sizeBytes f.size
    let ea (x : Fibre) := b.addr f (wideOff f) n n true x
    s.issueMem b ⟨3, n, 0, 0, scopeNum f.scope, f.space, f.order, f.ua⟩
      (fun _ x => ⟨f.space, .store, ea x, n, 1, 0, false, f.hint.toNat⟩)
      (fun t x ps => slotOp t x 0 (ea x) ps (storeData x f.data n) 0)

/-- LDIV (R245): `aop` keeps `SIZE`, which says how the registers are made. -/
def execLdiv (f : MF) (s : State) : Host.Outcome State Fault Refusal :=
  s.issueWith (.ldiv f) fun b s =>
    let n := sizeBytes f.size
    let ea (x : Fibre) := b.addr f (wideOff f) n n true x
    s.issueLoad b ⟨2, n, f.size.toNat, if f.size = 4 then 4 else 2, scopeNum f.scope, f.space, f.order, f.ua⟩
      (fun _ x => ⟨f.space, .load, ea x, n, n, 0, false, f.hint.toNat⟩)
      (fun t x ps => slotOp t x (x.place f.data.toNat) (ea x) ps 0 0)

/-- STIV (R245). -/
def execStiv (f : MF) (s : State) : Host.Outcome State Fault Refusal :=
  s.issueWith (.stiv f) fun b s =>
    let n := sizeBytes f.size
    let ea (x : Fibre) := b.addr f (wideOff f) n n true x
    s.issueMem b ⟨4, n, 0, 0, scopeNum f.scope, f.space, f.order, f.ua⟩
      (fun _ x => ⟨f.space, .store, ea x, n, n, 0, false, f.hint.toNat⟩)
      (fun t x ps => slotOp t x 0 (ea x) ps (storeData x f.data n) 0)

/-! ## Atomics (R246, R247) -/

/-- Stage 2: in deterministic mode, an atomic whose scope is above gang (spec/20 R439). -/
def detScope (f : MF) (b : Batch) (_ : State) : List (Nat × Out) :=
  if b.g.det && 3 ≤ scopeNum f.scope then faultAll b.run .detViolation 0 else []

/-- ATOM (R246). -/
def execAtom (f : MF) (s : State) : Host.Outcome State Fault Refusal :=
  s.issueChecked (.atom f) (detScope f) fun b s =>
    let n := sizeBytes f.size
    let ea (x : Fibre) := b.addr f (atomOff f) n n true x
    s.issueMem b ⟨5, n, f.aop, sizeRegs f.size, scopeNum f.scope, f.space, f.order, f.ua⟩
      (fun _ x => ⟨f.space, .atomic b.g.det, ea x, n, n, f.aop, false, f.hint.toNat⟩)
      (fun t x ps => slotOp t x (x.place f.data.toNat) (ea x) ps (storeData x f.data n) 0)

/-- ATOMC: compare with the `INDEX` group and swap (R246). -/
def execAtomc (f : MF) (s : State) : Host.Outcome State Fault Refusal :=
  s.issueChecked (.atomc f) (detScope f) fun b s =>
    let n := sizeBytes f.size
    let ea (x : Fibre) := b.addr f (wideOff f) n n false x
    s.issueMem b ⟨6, n, 16, sizeRegs f.size, scopeNum f.scope, f.space, f.order, f.ua⟩
      (fun _ x => ⟨f.space, .atomic b.g.det, ea x, n, n, 16, true, f.hint.toNat⟩)
      (fun t x ps => slotOp t x (x.place f.data.toNat) (ea x) ps (storeData x f.data n) (storeData x f.index n))

/-- RED (R246). -/
def execRed (f : MF) (s : State) : Host.Outcome State Fault Refusal :=
  s.issueChecked (.red f) (detScope f) fun b s =>
    let n := sizeBytes f.size
    let ea (x : Fibre) := b.addr f (atomOff f) n n true x
    s.issueMem b ⟨7, n, f.aop, 0, scopeNum f.scope, f.space, f.order, f.ua⟩
      (fun _ x => ⟨f.space, .reduce b.g.det, ea x, n, n, f.aop, false, f.hint.toNat⟩)
      (fun t x ps => slotOp t x 0 (ea x) ps (storeData x f.data n) 0)

/-! ## Cache lines (R248) -/

/-- The address of a CACHE word: the line is the one that holds it. -/
def cacheAddr (b : Batch) (f : MF) (x : Fibre) : W64 := b.addr f (wideOff f) 128 0 false x

/-- The lines that CWB and CINV act on: of cached pages of device memory. -/
def cachedOnly (ps : List Part) : List Part := ps.filter fun p => p.home == .dev && p.cached

/-- PREF asks for lines of cached pages that a load may read, without a fault and without setting `A` (spec/05 R104). -/
def State.prefetched (s : State) (b : Batch) (f : MF) (x : Fibre) : List Part :=
  match f.space with
  | .global =>
    match s.checkOnce b.g.ctx (s.worldB b) (s.featvecOf b.g) .load (cacheAddr b f x).toNat 1 1 with
    | .ok r _ => (cachedOnly r.2).map fun p => { p with retn := if f.hint = 0 then p.retn else f.hint.toNat }
    | _ => []
  | _ => []

/-- The entry of a CACHE word: its fibres' operations, where it has any. -/
def State.recordCache (s : State) (b : Batch) (x0 : Fibre) (kind : Nat) (ops : List SlotOp) : State :=
  if ops.isEmpty then s
  else s.addEntry b { b.entry kind x0 with mask := maskOf (ops.map (·.slot)), size := 128, ops := ops }

/-- CACHE.pref: an entry that STORE_PERFORMED carries out. -/
def execCachePref (f : MF) (s : State) : Host.Outcome State Fault Refusal :=
  s.issueWith (.cachePref f) fun b s =>
    .done (b.each fun _ x => .next x)
      (match b.run with
        | [] => s
        | (_, x0) :: _ =>
          s.recordCache b x0 0x0A ((b.run.filter fun p => !(s.prefetched b f p.2).isEmpty).map fun p =>
            slotOp p.1 p.2 0 (cacheAddr b f p.2) (s.prefetched b f p.2) 0 0))

/-- CWB and CINV at issue: checks, and an entry that STORE_PERFORMED carries out. -/
def State.issueCache (s : State) (b : Batch) (kind : Nat) (acc : Acc) (f : MF) : Result :=
  match b.run with
  | [] => .done [] s
  | (_, x0) :: _ =>
    match s.askAll b (fun _ x => ⟨f.space, acc, cacheAddr b f x, 1, 1, 0, false, f.hint.toNat⟩) b.run with
    | .wait s' => .held .none s'
    | .done faults oks s1 =>
      let ops := (oks.filter fun o => !(cachedOnly o.2.2).isEmpty).map fun o =>
        slotOp o.1 o.2.1 0 (cacheAddr b f o.2.1) (cachedOnly o.2.2) 0 0
      .done (faults ++ oks.map fun o => (o.1, Out.next o.2.1)) (s1.recordCache b x0 kind ops)

/-- CACHE.cwb. -/
def execCacheCwb (f : MF) (s : State) : Host.Outcome State Fault Refusal :=
  s.issueWith (.cacheCwb f) fun b s => s.issueCache b 8 .cwb f

/-- CACHE.cinv. -/
def execCacheCinv (f : MF) (s : State) : Host.Outcome State Fault Refusal :=
  s.issueWith (.cacheCinv f) fun b s => s.issueCache b 9 .cinv f

end Sys2Proof.Machine
end

