-- ==== Sys2Proof/Machine/Park.lean ====
section
/-! DEFINITION. The parking area: completions of host operations that arrive while their context is frozen (spec/13 R337, R338). -/

namespace Sys2Proof.Machine

/-- A parking area that can be used: the kept address of its header, its indices and its entries. -/
structure ParkArea where
  base : Nat
  head : Nat
  tail : Nat
  cap : Nat

/-- The area of a world, read under the physical function's keys (notes/assumptions/32), or why it cannot be used. -/
def State.parkArea (s : State) (w : Nat) : Except FaultCode ParkArea :=
  let p := partOfWorld w
  let b := (s.world w).parkbase.toNat
  if b = 0 ∨ b % 4096 ≠ 0 ∨ s.deviceHome p b 64 ≠ some .dev then .error .perm
  else
    match s.readDev (64 * p) (absAddr p b) 64 with
    | .error c => .error c
    | .ok bs =>
      let cap := fieldAt bs 8 4
      if (rangeFrom 6 15).any (fun k => cap == 2 ^ k) && s.deviceHome p b (64 + 32 * cap) == some .dev then
        .ok ⟨absAddr p b, fieldAt bs 0 4, fieldAt bs 4 4, cap⟩
      else .error .perm

/-- Entries in the ring; its indices run freely modulo 2^32. -/
def ParkArea.count (a : ParkArea) : Nat := (a.tail + 2 ^ 32 - a.head) % 2 ^ 32

/-- The kept address of entry i. -/
def ParkArea.entryAt (a : ParkArea) (i : Nat) : Nat := a.base + 64 + 32 * (i % a.cap)

/-- The 32 bytes of a parked completion. -/
def parkBytes (c : Completion) : List Byte :=
  bytesOf 8 c.tag.toNat ++ bytesOf 1 c.slot ++ bytesOf 1 c.status ++ bytesOf 6 0 ++ bytesOf 16 c.value.toNat

def parkOfBytes (bs : List Byte) : Completion :=
  ⟨BitVec.ofNat 64 (fieldAt bs 0 8), fieldAt bs 8 1, fieldAt bs 9 1, BitVec.ofNat 128 (fieldAt bs 0x10 16)⟩

/-- Bytes that the device writes in a partition's memory for the physical function. -/
def State.writeOwn (s : State) (p a : Nat) (bs : List Byte) : Except FaultCode State :=
  ((s.shadowRange a bs.length).writeDev (64 * p) a bs).map fun s1 => s1.markExt a

/-- The completion held at the port; the first one held because the area cannot be used is reported. -/
def State.holdAtPort (s : State) (w : Nat) (c : Completion) (why : Option FaultCode) : State :=
  let s1 := s.modWorld w fun x => { x with held := x.held ++ [c] }
  match why, (s.world w).heldReported with
  | some code, false =>
    let pf := 64 * partOfWorld w
    (s1.writeRecord
      { code := code, imp := true, stake := false, guest := false, iopx := 0, term := false, world := pf, skg := 0xF0, eqid := 0,
        pc := 0, pc2 := 0, fmask := 0, amask := srcWord 5 0 0 24 0, addr := (s.world w).parkbase, hcpc := 0, csn := 0,
        ctx := s.worldCtx pf, cluster := 0 }).modWorld w fun x => { x with heldReported := true }
  | _, _ => s1

/-- A completion for a frozen context: appended at `PTAIL`, or held at the port behind those that are. -/
def State.park (s : State) (w : Nat) (c : Completion) : State :=
  if !(s.world w).held.isEmpty then s.holdAtPort w c none
  else
    match s.parkArea w with
    | .error e => s.holdAtPort w c (some e)
    | .ok a =>
      if a.cap ≤ a.count then s.holdAtPort w c none
      else
        match s.writeOwn (partOfWorld w) (a.entryAt a.tail) (parkBytes c) with
        | .error e => s.holdAtPort w c (some e)
        | .ok s1 =>
          match s1.writeOwn (partOfWorld w) (a.base + 4) (bytesOf 4 ((a.tail + 1) % 2 ^ 32)) with
          | .error e => s.holdAtPort w c (some e)
          | .ok s2 => s2

/-- The completions in the ring, oldest first. -/
def State.parked (s : State) (a : ParkArea) : List Completion :=
  (rangeFrom a.head a.count).map fun i => parkOfBytes (s.mem.readBytes (a.entryAt i) 32)

/-- The ring with some completions left, ending at `PTAIL`. -/
def State.keepParked (s : State) (w : Nat) (a : ParkArea) (cs : List Completion) : State :=
  let first := (a.tail + 2 ^ 32 - cs.length) % 2 ^ 32
  let put (s : State) (at_ : Nat) (bs : List Byte) : State :=
    match s.writeOwn (partOfWorld w) at_ bs with
    | .ok s1 => s1
    | .error _ => s
  put (cs.zipIdx.foldl (fun s q => put s (a.entryAt (first + q.2)) (parkBytes q.1)) s) a.base (bytesOf 4 first)

/-- A parked operation of a frozen context, by tag and slot: the world. -/
def State.parkedOp (s : State) (tag : W64) (slot : Nat) : Option (Nat × Entry × SlotOp) :=
  (s.ctxs.filter fun c => c.st != .running).findSome? fun c => c.saved.findSome? fun g => g.skeins.findSome? fun sk =>
    sk.record.findSome? fun e =>
      if e.cls = 2 ∧ e.tag = tag then (e.ops.find? fun o => o.slot == slot && (o.stage == .sent || !e.acked)).map fun o => (c.world, e, o)
      else none

/-- The saved entries of a tag hold a parked completion (`CMPL`, R330). -/
def State.markCmpl (s : State) (tag : W64) : State :=
  { s with ctxs := s.ctxs.map fun c =>
      if c.st = .running then c
      else { c with saved := c.saved.map fun g => { g with skeins := g.skeins.map fun sk =>
              { sk with record := sk.record.map fun e => if e.cls = 2 ∧ e.tag = tag then { e with cmpl := true } else e } } } }

/-- The completion of an operation of a frozen context arrives; one that has arrived already does nothing. -/
def State.parkFor (s : State) (c : Completion) : State :=
  match s.parkedOp c.tag c.slot with
  | none => s
  | some (w, _, _) =>
    let here (d : Completion) : Bool := d.tag == c.tag && d.slot == c.slot
    let inRing := match s.parkArea w with
      | .ok a => (s.parked a).any here
      | .error _ => false
    if inRing || (s.world w).held.any here then s else (s.park w c).markCmpl c.tag

end Sys2Proof.Machine
end

