-- ==== Sys2Proof/Machine/Area.lean ====
section
/-! DEFINITION. A context's save area as bytes of device memory: its frames, its header, and its spill region (spec/13 R334,
R335, R342, spec/22 R455, R457). -/

namespace Sys2Proof.Machine

/-! ## Frames (R457) -/

/-- The kept address of an area's byte, and the bytes left on its page; none past the recorded frames. -/
def areaAt (frames : List Nat) (area off : Nat) : Option (Nat × Nat) :=
  let x := area % 2 ^ 18 + off
  (frames[x / 2 ^ 18]?).map fun f => (f + x % 2 ^ 18, 2 ^ 18 - x % 2 ^ 18)

/-- n bytes at an offset, cut where pages end: kept addresses and lengths. -/
def areaPieces (frames : List Nat) (area : Nat) : Nat → Nat → Nat → List (Nat × Nat)
  | 0, _, _ => []
  | fuel + 1, off, n =>
    if n = 0 then []
    else
      match areaAt frames area off with
      | none => []
      | some (a, left) => (a, min n left) :: areaPieces frames area fuel (off + min n left) (n - min n left)

/-- The pieces of a context's area. -/
def Context.pieces (c : Context) (off n : Nat) : List (Nat × Nat) :=
  areaPieces c.frames c.area.toNat (c.frames.length + 1) off n

/-- Bytes written to the area; what a line refuses is not written. -/
def State.writePieces (s : State) (w : Nat) : List (Nat × Nat) → List Byte → State
  | [], _ => s
  | (a, n) :: r, bs =>
    let s0 := s.shadowRange a n
    let s1 : State := match s0.writeDev w a (bs.take n) with
      | .ok s1 => s1.markExt a
      | .error _ => s0
    State.writePieces s1 w r (bs.drop n)

def State.writeArea (s : State) (c : Context) (off : Nat) (bs : List Byte) : State :=
  s.writePieces c.world (c.pieces off bs.length) bs

/-- Bytes read from the area, or the line that cannot be read. -/
def State.readPieces (s : State) (w : Nat) : List (Nat × Nat) → Except (FaultCode × Nat) (List Byte)
  | [] => .ok []
  | (a, n) :: r =>
    match s.firstBadLine w (linesOf a n) with
    | some (l, e) => .error (e, l)
    | none => (State.readPieces s w r).map fun bs => s.mem.readBytes a n ++ bs

def State.readArea (s : State) (c : Context) (off n : Nat) : Except (FaultCode × Nat) (List Byte) := s.readPieces c.world (c.pieces off n)

/-! ## The header (R342) -/

/-- A save area's header. -/
structure AreaHeader where
  magic : Nat
  ver : Nat
  state : Nat
  world : Nat
  ctxid : Nat
  ngang : Nat
  flags : Nat
  xroot : Nat
  featvec : Nat
  devid : Nat
  ngrid : Nat
  size : Nat
  gridoff : Nat
  gangoff : Nat
  spilloff : Nat
  spillcap : Nat
  spillcnt : Nat
  late : Nat
  seq : Nat
  /-- The reserved bytes are zero (spec/00 R5). -/
  clean : Bool
  deriving DecidableEq, Repr

def AreaHeader.ofBytes (bs : List Byte) : AreaHeader :=
  let f := fieldAt bs
  { magic := f 0 4, ver := f 4 2, state := f 6 1, world := f 7 1, ctxid := f 8 2, ngang := f 0x0A 2, flags := f 0x0C 4,
    xroot := f 0x10 8, featvec := f 0x18 8, devid := f 0x20 4, ngrid := f 0x24 4, size := f 0x28 8, gridoff := f 0x30 8,
    gangoff := f 0x38 8, spilloff := f 0x40 8, spillcap := f 0x48 4, spillcnt := f 0x4C 4, late := f 0x50 4, seq := f 0x58 4
    clean := f 0x54 4 == 0 && f 0x5C 164 == 0 }

def AreaHeader.bytes (h : AreaHeader) : List Byte :=
  bytesOf 4 h.magic ++ bytesOf 2 h.ver ++ bytesOf 1 h.state ++ bytesOf 1 h.world ++ bytesOf 2 h.ctxid ++ bytesOf 2 h.ngang
    ++ bytesOf 4 h.flags ++ bytesOf 8 h.xroot ++ bytesOf 8 h.featvec ++ bytesOf 4 h.devid ++ bytesOf 4 h.ngrid
    ++ bytesOf 8 h.size ++ bytesOf 8 h.gridoff ++ bytesOf 8 h.gangoff ++ bytesOf 8 h.spilloff ++ bytesOf 4 h.spillcap
    ++ bytesOf 4 h.spillcnt ++ bytesOf 4 h.late ++ bytesOf 4 0 ++ bytesOf 4 h.seq ++ List.replicate 164 0

def AreaHeader.settled (h : AreaHeader) : Bool := bitOf h.flags 0
def AreaHeader.portfree (h : AreaHeader) : Bool := bitOf h.flags 2

/-- A new context's area: nothing saved in it yet. -/
def AreaHeader.isNew (h : AreaHeader) : Bool := h.ngang == 0 && h.ngrid == 0 && h.seq == 0

/-- The shape that SWAPCTX accepts. -/
def AreaHeader.shaped (h : AreaHeader) : Bool :=
  h.magic == 0x41535643 && h.ver == 1 && 1 ≤ h.state && h.state ≤ 3 && h.xroot < 2 ^ 52 && h.xroot % 2 ^ 14 == 0
    && 256 ≤ h.size && 256 ≤ h.spilloff && h.spilloff + 32 * h.spillcap ≤ h.size && h.spillcnt ≤ h.spillcap
    && h.seq < 2 ^ 31 && h.flags < 8 && h.devid < 2 ^ 20 && h.clean

/-- The 32 bytes of a spill entry (R335). -/
def TagEntry.bytes (t : TagEntry) : List Byte :=
  bytesOf 8 t.tag.toNat ++ bytesOf 8 t.addr.toNat ++ bytesOf 1 t.slot ++ bytesOf 1 t.space ++ bytesOf 6 0 ++ bytesOf 8 t.val

/-- A spill entry's home on this device is its space's; a scratch or core home is the one that finds the key. -/
def spillOfBytes (bs : List Byte) : TagEntry :=
  let f := fieldAt bs
  ⟨BitVec.ofNat 64 (f 0 8), f 0x10 1, BitVec.ofNat 64 (f 8 8), f 0x11 1, f 0x18 8, 0, false⟩

/-- The tag belongs to a context (R333). -/
def tagOf (w ctxid : Nat) (tag : W64) : Bool := bitsOf tag.toNat 63 56 == w && bitsOf tag.toNat 55 40 == ctxid

/-- The header of a context's area; an area without frames, or one that cannot be read, has no room. -/
def State.areaHeader (s : State) (c : Context) : AreaHeader :=
  match s.readArea c 0 256 with
  | .ok bs => AreaHeader.ofBytes (bs ++ List.replicate (256 - bs.length) 0)
  | .error _ => { AreaHeader.ofBytes (List.replicate 256 0) with size := c.frames.length * 2 ^ 18, spilloff := 256 }

def State.writeHeader (s : State) (c : Context) (h : AreaHeader) : State := s.writeArea c 0 h.bytes

/-- A tag entry of a frozen context: appended to its spill region, or kept at its home and pinned where the region is full (R335,
R455). -/
def State.addSpill (s : State) (c : Context) (t : TagEntry) : State :=
  let h := s.areaHeader c
  if t.space = 3 then { s with tags := s.tags ++ [t] }
  else if h.spillcnt < h.spillcap then
    (s.writeArea c (h.spilloff + 32 * h.spillcnt) t.bytes).writeHeader c { h with spillcnt := h.spillcnt + 1 }
  else { s with tags := s.tags ++ [{ t with pinned := true }] }

/-- One tagged write fewer is travelling. -/
def State.lowerLate (s : State) (key : Nat) : State :=
  match s.ctx key with
  | none => s
  | some c =>
    let h := s.areaHeader c
    (s.modCtx key fun x => { x with late := x.late - 1 }).writeHeader c
      { h with late := h.late - 1, flags := if h.late ≤ 1 then h.flags / 2 * 2 + 1 else h.flags }

end Sys2Proof.Machine
end

