-- ==== Sys2Proof/Machine/MemDone.lean ====
section
/-! DEFINITION. How operations in flight are performed, in what order, and how they end: the steps LOAD_COMPLETE,
STORE_PERFORMED, PORT_ACCEPT, WRITE_ACK, TAG_RETIRE, host atomics and MULTI_CLOCK_RESULT_WRITTEN (spec/05 R120 to R133,
spec/13 R334, spec/19 R423, R424, spec/21 R444 to R447). -/

namespace Sys2Proof.Machine

/-! ## An operation by its name -/

/-- The gang, skein and entry of a name; a frozen gang's operations do not move (spec/13 R328). -/
def State.located (s : State) (id : EntryId) : Option (Gang × Skein × Entry) :=
  match s.gang id.gang with
  | none => none
  | some g =>
    if g.frozen then none else
    match g.skeins[id.skein]? with
    | none => none
    | some sk => (sk.entry id.seq).map fun e => (g, sk, e)

/-- An entry's operation in a slot. -/
def Entry.op (e : Entry) (slot : Nat) : Option SlotOp := e.ops.find? fun o => o.slot == slot

/-- One operation replaced. -/
def Entry.putOp (e : Entry) (o : SlotOp) : Entry :=
  { e with ops := e.ops.map fun q => if q.slot = o.slot ∧ q.uid = o.uid then o else q }

def State.putOp (s : State) (id : EntryId) (o : SlotOp) : State :=
  s.modSkein id.gang id.skein fun sk => sk.modEntry id.seq fun e => e.putOp o

/-- The entry of a name closed if nothing is owed. -/
def State.closeId (s : State) (id : EntryId) : State := s.closeEntry id.gang id.skein id.seq

/-- The slots of a mask. -/
def slotsOf (m : W64) : List Nat := (rangeFrom 0 64).filter (inMask m)

/-! ## Frozen frames (spec/05 R106) -/

/-- The entry through which a context reaches an address has `FRZ` set. -/
def State.frzAt (s : State) (ctx va : Nat) : Bool :=
  match s.leafOf ctx va with
  | .ok (t, _) => leafFrz t.bits
  | .error _ => false

/-- A part of global memory whose write is held: its entry has `FRZ`, or its frame is frozen (spec/05 R106, spec/13 R349). -/
def State.partHeld (s : State) (ctx va : Nat) (p : Part) : Bool :=
  match p.home with
  | .dev => s.frameHeld p.addr p.len || s.frzAt ctx va
  | .host | .peer _ => s.frzAt ctx va
  | _ => false

/-- A frozen frame holds the operation's write back, or what its release writes back. -/
def State.heldByFrame (s : State) (g : Gang) (e : Entry) (o : SlotOp) : Bool :=
  ((storeLike e.kind || e.kind == 8) && o.pieces.any fun q => q.parts.any (s.partHeld g.ctx q.va.toNat))
    || (e.release && o.parts.any fun p => s.releaseHeld g.via (e.scopeAt p))

/-! ## What an operation does at its home -/

/-- The entry of a tag, slot and address at its home: the parts of an access that straddles are told apart by where they lie
(notes/assumptions/77). -/
def findTag : List TagEntry → W64 → Nat → W64 → Option TagEntry
  | [], _, _, _ => none
  | t :: r, tag, slot, addr => if t.tag = tag ∧ t.slot = slot ∧ t.addr = addr then some t else findTag r tag slot addr

/-- The home of a tagged write: the space of its spill entries, and which L2 slice, cluster, core or peer (spec/13 R334, R335). -/
def State.tagPlace (s : State) (p : Part) : Nat × Nat :=
  match p.home with
  | .scratch c => (1, c)
  | .peer d => (3, d)
  | _ => (0, 64 / s.partitions * (p.addr / 2 ^ 52) + Config.sliceOf (p.addr / 128) % (64 / s.partitions))

/-- Entries that a home holds (R334); a peer's are the peer's. -/
def tagCap (space : Nat) : Nat :=
  match space with
  | 0 => 4096
  | 1 => 1024
  | _ => 64

/-- The entry lies at the home. -/
def TagEntry.isAt (t : TagEntry) (h : Nat × Nat) : Bool := t.space == h.1 && t.home == h.2

/-- The home has room for n entries more. -/
def State.tagRoom (s : State) (h : Nat × Nat) (n : Nat) : Bool :=
  h.1 == 3 || s.tags.length + n ≤ 64 || (s.tags.filter fun t => t.isAt h).length + n ≤ tagCap h.1

/-- A full home evicts entries of frozen contexts, but for pinned ones, into their spill regions (R336, R455). -/
def State.evictTags (s : State) (h : Nat × Nat) (n : Nat) : State :=
  if s.tagRoom h n then s
  else
    s.tags.foldl (fun s t =>
      if !t.isAt h || t.pinned then s else
      match s.ctxs.find? fun c => c.st != .running && tagOf c.world c.ctxid t.tag with
      | some c => ({ s with tags := s.tags.filter (· != t) }).addSpill c t
      | none => s) s

/-- The homes that an operation's parts need room at. -/
def State.tagNeeds (s : State) (e : Entry) (o : SlotOp) : List (Nat × Nat) :=
  if e.cls != 1 then []
  else (o.pieces.filter fun q => q.stage == .sent && (findTag s.tags e.tag q.slot q.va).isNone).flatMap fun q => q.parts.map s.tagPlace

/-- Every home of the operation has room for its entry; without it the home holds the write (R336). -/
def State.tagsFit (s : State) (e : Entry) (o : SlotOp) : Bool :=
  let hs := s.tagNeeds e o
  hs.all fun h => s.tagRoom h hs.length

/-- Room made at the operation's homes where it can be. -/
def State.makeTagRoom (s : State) (e : Entry) (o : SlotOp) : State :=
  let hs := s.tagNeeds e o
  hs.foldl (fun s h => s.evictTags h hs.length) s

/-- A tagged write recorded at its home (R334). -/
def State.recordTag (s : State) (e : Entry) (q : SlotOp) (p : Part) (val : Nat) : State :=
  if e.cls = 1 then
    { s with tags := s.tags ++ [⟨e.tag, q.slot, q.va, (s.tagPlace p).1, val % 2 ^ 64, (s.tagPlace p).2, false⟩] }
  else s

/-- The peer is unreachable, or the PCIe port of the world's partition is down (spec/21 R453). -/
def State.portLost (s : State) (w : Nat) (p : Part) : Bool :=
  match p.home with
  | .peer d => s.peerGone (partOfWorld w) d
  | .host => s.pcieLost (partOfWorld w)
  | _ => false

/-- What the order checker keeps of an entry's operation of a fibre (spec/22 R469); the pair of the PC as the fibre stands now. -/
def State.ordAccess (s : State) (g : Gang) (e : Entry) (uid : Nat) (write atomic : Bool) : OrdAccess :=
  { gang := g.key, cluster := g.cluster, clock := 0, write := write, atomic := atomic, scope := e.scope, pc := e.pc,
    pc2 := match g.live.find? fun x => x.uid == uid with
      | some x => if x.isGuest && !x.parked then BitVec.ofNat 64 (e.pc.toNat / s.unitOf g.cluster x) else s.otherPc g x.eqid.toNat
      | none => 0
    hcpc := g.hcpc, csn := g.csn, gridid := ((s.grid g.grid).map (·.gridid)).getD 0, linear := g.linear }

/-- Global memory whose accesses are ordered as R126 says: what the checker tracks. -/
def SlotOp.tracked (o : SlotOp) : Bool :=
  o.parts.all fun p => !p.unordered && (match p.home with | .dev | .host | .peer _ => true | _ => false)

/-- The order checker sees a part of an operation performed (spec/15 R386). -/
def State.ordOp (s : State) (g : Gang) (e : Entry) (q : SlotOp) (p : Part) : State :=
  if s.checking (s.partOfCluster g.cluster) && e.kind ≤ 7 then
    s.ordPerform g { s.ordAccess g e q.uid (storeLike e.kind) (e.kind == 5 || e.kind == 6 || e.kind == 7) with scope := e.scopeAt p }
      (loadLike e.kind || e.kind == 7) e.acquire e.release (ordPlaces q.va.toNat [p]) q.tracked
  else s

/-- Bytes that an operation writes to host or peer memory: its cluster sees them, the others when the agenda says so, and once they are
acknowledged (spec/05 R128). -/
def State.writeFar (s : State) (id : EntryId) (c : Nat) (p : Part) (bs : List Byte) : State :=
  { s.putPort p.home p.addr bs with far := ⟨p.home, p.addr, s.portBytes p.home p.addr bs.length, [c], id⟩ :: s.far }

/-- The bytes under an operation's part: an atomic reads what lies there. -/
def State.readOld (s : State) (v : Via) (w scope : Nat) (p : Part) : Except FaultCode (List Byte × State) :=
  if p.port then .ok (s.portBytes p.home p.addr p.len, s) else s.readHome v w scope p

/-- The bytes of an operation's part written. -/
def State.writeOp (s : State) (id : EntryId) (v : Via) (w scope : Nat) (p : Part) (bs : List Byte) : Except FaultCode State :=
  if p.port then .ok (s.writeFar id v.cluster p bs) else s.writeHome v w scope p bs

/-- One part q of an operation performed at p: its value, or why it is not.  The order of the instruction holds for each part (spec/05
R110). -/
def State.performPiece (s : State) (id : EntryId) (g : Gang) (e : Entry) (q : SlotOp) (p : Part) : Except FaultCode (Nat × State) :=
  let w := s.worldOf g
  let v := g.via
  match if e.cls = 1 then findTag s.tags e.tag q.slot q.va else none with
  | some t => .ok (t.val, s)
  | none =>
    if s.portLost w p then .error .linkDown else
    let sc := e.scopeAt p
    let s0 := s.ordOp g e q p
    let s1 := if e.release && !p.unordered then s0.releaseCaches v sc else s0
    let s2 := if e.acquire && !p.unordered then s1.acquireCaches v sc else s1
    if e.kind = 1 ∨ e.kind = 2 then (s2.readHome v w sc p).map fun r => (ofBytes r.1, r.2)
    else if e.kind = 3 ∨ e.kind = 4 then
      if q.near then .ok (0, (s2.publish v.cluster w (linesOf p.addr p.len)).recordTag e q p 0)
      else (s2.writeOp id v w sc p (bytesOf p.len q.data)).map fun s3 => (0, s3.recordTag e q p 0)
    else if e.kind = 8 then .ok (0, s2.cleanLine v.cluster (p.addr / 128) w)
    else if e.kind = 9 then .ok (0, s2.dropLine v.cluster (p.addr / 128) w)
    else if e.kind = 0x0A then
      .ok (0, match (match v.stake with
          | some core => s2.holdPrivate v core w p.retn (p.addr / 128)
          | none => s2.holdLine v.cluster w p.retn (p.addr / 128)) with
        | .ok s3 => s3
        | .error _ => s2)
    else
      match s2.readOld v w sc p with
      | .error x => .error x
      | .ok (bs, s3) =>
        let old := ofBytes bs
        (s3.writeOp id v w sc p (bytesOf e.size (atomNew e.aop (8 * e.size) old q.data q.cmp))).map fun s4 =>
          (old, s4.recordTag e q p (if e.kind = 7 then 0 else old))

/-- The parts of an operation from number i on performed, those that are already left out; `got` has their values. -/
def State.performPieces (s : State) (id : EntryId) (g : Gang) (e : Entry) (got : List (Nat × Nat)) :
    Nat → List SlotOp → Except FaultCode (List Byte × State)
  | _, [] => .ok ([], s)
  | i, q :: r =>
    match q.parts with
    | [] => State.performPieces s id g e got (i + 1) r
    | p :: _ =>
      match if q.stage = .sent then s.performPiece id g e q p else .ok ((tget got i).getD 0, s) with
      | .error c => .error c
      | .ok (v, s1) => (State.performPieces s1 id g e got (i + 1) r).map fun x => (bytesOf p.len v ++ x.1, x.2)

/-- The operation performed: its value, or why it is not. -/
def State.performOp (s : State) (id : EntryId) (g : Gang) (e : Entry) (o : SlotOp) : Except FaultCode (Nat × State) :=
  (s.performPieces id g e o.got 0 o.pieces).map fun r => (ofBytes r.1, r.2)

/-- An operation of an entry may be performed now; one access for a whole batch when every fibre's may (spec/06 R158). -/
def Skein.mayGo (sk : Skein) (e : Entry) (o : SlotOp) : Bool :=
  if e.one then e.ops.all fun q => q.performed || sk.mayPerform e q else sk.mayPerform e o

/-- Nothing holds an operation back: the order of the model, a frozen frame, its homes' tag tables. -/
def State.clearToGo (s : State) (g : Gang) (sk : Skein) (e : Entry) (o : SlotOp) : Bool :=
  sk.mayGo e o && !s.heldByFrame g e o && s.tagsFit e o

/-! ## Failures -/

/-- The line that a world cannot read among an access's parts. -/
def State.badLine (s : State) (w : Nat) (ps : List Part) : Nat :=
  ((ps.filter fun p => p.home == .dev).findSome? fun p => (s.firstBadLine w (linesOf p.addr p.len)).map (·.1)).getD 0

/-- Uncorrectable data or a lasting MAC failure, found at the memory side: counted, and recorded for the partition's
physical function (spec/19 R425, spec/21 R444). -/
def State.noteBad (s : State) (g : Gang) (k : Nat) (e : Entry) (o : SlotOp) (code : FaultCode) : State :=
  if code = .eccUncorr ∨ code = .macFail then
    let line := s.badLine (s.worldOf g) o.parts
    let r := s.impreciseRecord g k e code o.va (maskOf [o.slot]) (srcWord 6 g.cluster 0 0 0)
    (s.countUncorr line).writeRecord { r with world := 64 * partOfWorld (s.worldOf g) }
  else s

/-- Where an answer came from: `PORT` and `PEER` of `RSRC` (spec/21 R491); a peer's port is the first of its routing set. -/
def State.portSource (s : State) (g : Gang) (o : SlotOp) (code : FaultCode) : Nat :=
  if code = .eccUncorr ∨ code = .macFail then srcWord 6 g.cluster g.core 0 0
  else
    match (o.parts.filter Part.port).map Part.home with
    | .peer d :: _ => srcWord 5 g.cluster g.core (((tget (s.part 0).routing d).bind (·.head?)).getD 0) d
    | .host :: _ => srcWord 5 g.cluster g.core 24 0
    | _ => srcWord 0 g.cluster g.core 0 0

/-- A slot's operation fails: a load's at its consumer (R424), a write's with an imprecise record, its counters falling
(R453). -/
def State.failOp (s : State) (id : EntryId) (slot : Nat) (code : FaultCode) : State :=
  match s.located id with
  | none => s
  | some (g, sk, e) =>
    match e.op slot with
    | none => s
    | some o =>
      if o.complete then s else
      let s1 := s.noteBad g id.skein e o code
      let alive := sk.live.any fun p => p.2.uid == o.uid
      if loadLike e.kind && alive then
        let s2 := s1.putOp id { o with stage := .failed code }
        if e.acked then s2 else s2.modSkein id.gang id.skein fun y => y.ackEntry id.seq
      else
        let s2 := s1.writeRecord (s1.impreciseRecord g id.skein e code o.va (maskOf [o.slot]) (s1.portSource g o code))
        let s3 := s2.putOp id { o with stage := .done }
        let s4 := if (s3.located id).any (fun q => q.2.2.finished) then
            s3.modSkein id.gang id.skein fun y => (y.releaseCount id.seq).ackEntry id.seq
          else s3
        s4.closeId id

/-! ## Loads complete -/

/-- The registers of a fibre that stands in a slot of a skein, by its number. -/
def Skein.modUid (sk : Skein) (uid : Nat) (f : Fibre → Fibre) : Skein :=
  sk.mapFibres fun _ x => if x.uid = uid then f x else x

/-- A recording load's value put in its log entries (spec/15 R388). -/
def State.putLogValue (s : State) (g : Gang) (e : Entry) (o : SlotOp) (v : Nat) : State :=
  if o.cmp = 0 ∨ (e.kind ≠ 1 ∧ e.kind ≠ 2) then s
  else
    (rangeFrom 0 (logEntries e.size)).foldl (fun s i =>
      match s.writeDev (s.worldOf g) (s.logEntryAt g (o.cmp - 1 + i) + 8) (bytesOf 8 (v / 2 ^ (64 * i))) with
      | .ok s' => s'
      | .error _ => s) s

/-- A bound value written to the fibre's registers; the operation is complete, and `L` falls with the last one. -/
def State.deliver (s : State) (id : EntryId) (g : Gang) (e : Entry) (o : SlotOp) (v : Nat) : State :=
  let s1 := s.putLogValue g e o v
  let s2 := s1.modSkein id.gang id.skein fun sk => sk.modUid o.uid fun x => x.wrPlaces o.dst (loadWords e.kind e.aop e.size v)
  (s2.putOp id { o with stage := .done, val := v }).closeId id

/-- LOAD_COMPLETE in one slot: the value is bound where it is not yet, for every fibre of one access, and written. -/
def State.completeLoad (s : State) (id : EntryId) (slot : Nat) : State :=
  match s.located id with
  | none => s
  | some (g, sk, e) =>
    match e.op slot with
    | none => s
    | some o =>
      if !loadLike e.kind || hostAtom e o then s else
      match o.stage with
      | .performed => s.deliver id g e o o.val
      | .sent =>
        let s := s.makeTagRoom e o
        if !s.clearToGo g sk e o then s
        else
          match s.performOp id g e o with
          | .ok (v, s1) =>
            (if e.one then
                e.ops.foldl (fun s q => if q.stage = .sent then s.putOp id { q with stage := .performed, val := v } else s) s1
              else s1).deliver id g e o v
          | .error c => s.failOp id slot c
      | _ => s

/-- LOAD_COMPLETE (spec/03 R64, spec/09 R244). -/
def execLoadComplete (e : EntryId) (slots : BitVec 64) (s : State) : Host.Outcome State Fault Refusal :=
  .next ((slotsOf slots).foldl (fun s t => s.completeLoad e t) s).clearTried

/-- STORE_PERFORMED in one slot.  A write to host or fabric memory is performed after its port has accepted it. -/
def State.performStore (s : State) (id : EntryId) (slot : Nat) : State :=
  match s.located id with
  | none => s
  | some (g, sk, e) =>
    match e.op slot with
    | none => s
    | some o =>
      let s := s.makeTagRoom e o
      if !(storeLike e.kind || e.kind == 8 || e.kind == 9 || e.kind == 0x0A) || hostAtom e o || o.performed then s
      else if !loadLike e.kind && o.parts.any Part.port && !e.portacc then s
      else if !s.clearToGo g sk e o then s
      else
        match s.performOp id g e o with
        | .ok (v, s1) =>
          (s1.putOp id { o with stage := if loadLike e.kind then .performed else .done, val := v }).closeId id
        | .error c => s.failOp id slot c

/-! ## Operations sent again (spec/13 R339, spec/09 R253) -/

/-- How an operation accesses memory again. -/
def replayAcc (det : Bool) (kind : Nat) : Acc :=
  match kind with
  | 3 | 4 => .store
  | 5 | 6 => .atomic det
  | 7 => .reduce det
  | 8 => .cwb
  | 9 => .cinv
  | _ => .load

/-- An operation's address translated and checked again; its retention stays. -/
def State.askReplay (s : State) (g : Gang) (e : Entry) (o : SlotOp) : Checked (List Part) :=
  let scratch := match o.parts.map Part.home with | .scratch _ :: _ => true | _ => false
  let line := 8 ≤ e.kind && e.kind ≤ 0x0A
  let kept (ps : List Part) : List Part :=
    let qs := if line then cachedOnly ps else ps
    match o.parts with
    | p :: _ => qs.map fun q => { q with retn := p.retn }
    | [] => qs
  if scratch then s.checkScratch g.cluster (s.worldOf g) o.va.toNat e.size 1
  else if e.kind = 0x0A then
    match s.checkOnce g.ctx (s.worldOf g) (s.featvecOf g) .load o.va.toNat 1 1 with
    | .ok r s1 => .ok (kept r.2) s1
    | .fault _ _ s1 => .ok [] s1
    | .wait s1 => .ok [] s1
  else
    match s.checkGlobal g.ctx (s.worldOf g) (s.featvecOf g) (replayAcc g.det e.kind) o.va.toNat (if line then 1 else e.size) 1 with
    | .ok ps s1 => .ok (kept ps) s1
    | x => x

/-! ## Parts of operations before the rest -/

/-- One part of a load or store of several is performed before the others (spec/05 R109, R110). -/
def State.performPart (s : State) (id : EntryId) (slot part : Nat) : State :=
  match s.located id with
  | none => s
  | some (g, sk, e) =>
    match e.op slot with
    | none => s
    | some o =>
      match o.pieces[part]?, o.parts[part]? with
      | some q, some p =>
        let s := s.makeTagRoom e q
        if e.kind = 0 || 4 < e.kind || e.one || o.near || q.stage != .sent || o.parts.length < 2 || (storeLike e.kind && p.port && !e.portacc)
            || !s.clearToGo g sk e { q with got := [] } then s
        else
          match s.performPiece id g e q p with
          | .ok (v, s1) => s1.putOp id { o with got := o.got ++ [(part, v)] }
          | .error c => s.failOp id slot c
      | _, _ => s

/-- A plain store at device scope or above to cached pages comes into its cluster's cache before it is performed (spec/05 R121, R135); what
another cluster, or a read at device scope, sees of it, it sees performed (R128). -/
def State.performNear (s : State) (id : EntryId) (slot : Nat) : State :=
  match s.located id with
  | none => s
  | some (g, sk, e) =>
    match e.op slot with
    | none => s
    | some o =>
      if (e.kind != 3 && e.kind != 4) || e.release || e.scope < 4 || o.near || o.stage != .sent || !o.got.isEmpty
          || !(o.parts.all fun p => p.home == .dev && p.cached) || !s.clearToGo g sk e o then s
      else
        match s.writeParts g.via (s.worldOf g) 3 o.parts (bytesOf e.size o.data) with
        | .ok s1 => s1.putOp id { o with near := true }
        | .error c => s.failOp id slot c

/-! ## Writes that reach their home after their context was frozen (spec/13 R328, R335) -/

/-- The write has left its core: nothing before it holds it back, and its port has accepted it. -/
def lateOp (sk : Skein) (e : Entry) (o : SlotOp) : Bool :=
  storeLike e.kind && !hostAtom e o && o.stage == .sent && sk.mayPerform e o
    && (if o.parts.any Part.port then e.portacc else e.cls == 1)

/-- The frozen context, saved gang, skein and entry of a name. -/
def State.locatedSaved (s : State) (id : EntryId) : Option (Context × Gang × Skein × Entry) :=
  (s.ctxs.filter fun c => c.st != .running).findSome? fun c =>
    match findGang c.saved id.gang with
    | none => none
    | some g =>
      match g.skeins[id.skein]? with
      | none => none
      | some sk => (sk.entry id.seq).map fun e => (c, g, sk, e)

/-- A saved operation changed. -/
def State.putSavedOp (s : State) (key : Nat) (id : EntryId) (o : SlotOp) : State :=
  s.modCtx key fun c =>
    { c with saved := c.saved.map fun g =>
        if g.key = id.gang then g.modSkein id.skein fun sk => sk.modEntry id.seq fun e => e.putOp o else g }

/-- A late write performed, one of those that had left their cores at the freeze: its tag goes to the spill region and `LATE` falls; its
entry stands for the replay. -/
def State.performLate (s : State) (id : EntryId) (slot : Nat) : State :=
  match s.locatedSaved id with
  | none => s
  | some (c, g, _, e) =>
    match e.op slot with
    | none => s
    | some o =>
      if !c.lates.contains (id, slot) || s.heldByFrame g e o then s
      else
        let s1 : State :=
          match s.performOp id g e o with
          | .error _ => s
          | .ok (_, s1) =>
            let new := s1.tags.drop s.tags.length
            new.foldl (fun s t => s.addSpill c t) { s1 with tags := s1.tags.take s.tags.length, far := s1.far.filter fun f => f.op != id }
        let s2 := (s1.putSavedOp c.key id { o with stage := if e.cls = 2 then .done else .performed }).modCtx c.key fun x =>
          { x with lates := x.lates.filter (· != (id, slot)) }
        if e.cls = 1 then s2.lowerLate c.key else s2

/-- STORE_PERFORMED (spec/03 R64, spec/13 R334). -/
def execStorePerformed (e : EntryId) (slots : BitVec 64) (s : State) : Host.Outcome State Fault Refusal :=
  .next ((slotsOf slots).foldl (fun s t => (s.performStore e t).performLate e t) s).clearTried

/-! ## Ports (spec/03 R64, spec/05 R133, spec/13 R331) -/

/-- The port accepts a host or fabric write: `S` falls; a host write's entry is parked from now on, with a tag. -/
def State.acceptAtPort (s : State) (id : EntryId) : State :=
  match s.located id with
  | none => s
  | some (g, sk, e) =>
    let ready := e.ops.all fun o => if o.parts.any Part.port then o.performed || sk.mayPerform e o else o.complete
    if !(e.kind == 3 || e.kind == 4 || e.kind == 7) || e.acked || e.portacc || !ready then s
    else
      let t := if e.cls = 0 ∧ e.tag = 0 then s.takeTag g else (e.tag, s)
      t.2.modSkein id.gang id.skein fun y =>
        (y.modEntry id.seq fun x => { x with cls := if x.cls = 0 then 2 else x.cls, tag := t.1 }).releaseCount id.seq

/-- PORT_ACCEPT. -/
def execPortAccept (e : EntryId) (s : State) : Host.Outcome State Fault Refusal := .next (s.acceptAtPort e).clearTried

/-- The acknowledgement of a write that has been performed, or of what a copy command has written so far: `ACKC` falls, and an entry that owes
nothing goes. -/
def State.ackWrite (s : State) (id : EntryId) : State :=
  match s.located id with
  | none => s
  | some (_, _, e) =>
    if e.acked || ((!e.finished || !e.portacc) && !(0x10 ≤ e.kind && e.kind ≤ 0x13)) then s
    else (s.modSkein id.gang id.skein fun y => y.ackEntry id.seq).closeId id

/-- WRITE_ACK. -/
def execWriteAck (e : EntryId) (s : State) : Host.Outcome State Fault Refusal := .next (s.ackWrite e).clearTried

/-- Some record entry, resident or saved, still carries the tag. -/
def State.tagLive (s : State) (tag : W64) : Bool :=
  s.allGangs.any fun g =>
    g.skeins.any fun sk => sk.record.any fun e => e.tag == tag || e.copies.any fun c => !c.ended && c.stampsDone != [] && e.tag == tag

/-- TAG_RETIRE: once the issuer's entry is gone, its tag goes from the homes (spec/13 R334). -/
def execTagRetire (tag : BitVec 64) (s : State) : Host.Outcome State Fault Refusal :=
  .next (if s.tagLive tag then s else s.retireTag tag)

/-! ## Completions of host atomics (spec/21 R446, R447) -/

/-- The pending host atomic of a tag and slot among the resident gangs. -/
def State.findAtom (s : State) (tag : W64) (slot : Nat) : Option (EntryId × Gang × Entry × SlotOp) :=
  s.gangs.findSome? fun g =>
    if g.frozen then none else
    g.skeins.zipIdx.findSome? fun p =>
      p.1.record.findSome? fun e =>
        if e.tag = tag then
          (e.ops.find? fun o => o.slot == slot && hostAtom e o && o.stage == .sent).map fun o => (⟨g.key, p.2, e.seq⟩, g, e, o)
        else none

/-- HOST_ATOMIC at the atomic: the fibre goes back to it and faults there (R447). -/
def State.refuseAtom (s : State) (id : EntryId) (g : Gang) (e : Entry) (o : SlotOp) : State :=
  let s1 := s.putOp id { o with stage := .done }
  let s2 := if (s1.located id).any (fun q => q.2.2.finished) then
      (s1.modSkein id.gang id.skein fun y => y.ackEntry id.seq).closeId id
    else s1
  if e.kind = 7 then
    s2.writeRecord (s2.impreciseRecord g id.skein e .hostAtomic o.va (maskOf [o.slot]) (srcWord 5 g.cluster g.core 24 0))
  else
    let unit (x : Fibre) := s2.unitOf g.cluster x
    let s3 := s2.modSkein id.gang id.skein fun sk => sk.modUid o.uid fun x =>
      { x with pc := e.pc, iopx := e.iopx,
               gpc := if x.isGuest && !x.parked then BitVec.ofNat 64 (e.pc.toNat / unit x) else x.gpc }
    s3.takeFaults id.gang id.skein e.mask [⟨o.slot, .hostAtomic, o.va, false⟩]

/-- A completion delivered: done with a value, which an acquire may rest on, refused, or lost. -/
def State.completeAtom (s : State) (id : EntryId) (g : Gang) (e : Entry) (o : SlotOp) (status v : Nat) : State :=
  if status = 0 then
    let s0 := s.ordOutside.ordering g fun x => x.obtain g fun _ => false
    let s := if e.acquire then s0.acquireCaches g.via 5 else s0
    let s1 := if loadLike e.kind then s.deliver id g e o v else (s.putOp id { o with stage := .done }).closeId id
    if (s1.located id).any (fun q => q.2.2.finished) then
      (s1.modSkein id.gang id.skein fun y => y.ackEntry id.seq).closeId id
    else s1
  else if status = 2 then s.refuseAtom id g e o
  else s.failOp id o.slot .timeout

/-- ATOMICOP_COMPLETION. -/
def execAtomicopCompletion (c : Completion) (s : State) : Host.Outcome State Fault Refusal :=
  match s.findAtom c.tag c.slot with
  | some (id, g, e, o) => .next (s.completeAtom id g e o c.status (c.value.toNat % 2 ^ (8 * e.size))).clearTried
  | none => .next (s.parkFor c)

/-- HOST_ATOMIC_DONE: the entry handed back, read, matched, and its atomic completed (spec/14 R362). -/
def execHostAtomicDone (world : Nat) (v : BitVec 64) (s : State) : Host.Outcome State Fault Refusal :=
  match s.requestRing world with
  | none => .next s
  | some (n, base) =>
    if n ≤ v.toNat then .next s else
    match s.hostFrame world (base + 64 * v.toNat) false with
    | .ok ha s1 =>
      let bs := s1.host.readBytes ha 64
      let field (off k : Nat) : Nat := ofBytes ((bs.drop off).take k)
      if field 0 1 = 1 then .next s else
      match s1.findAtom (BitVec.ofNat 64 (field 0x28 8)) (field 0x30 1) with
      | some (id, g, e, o) =>
        if (o.parts = [] ∨ (o.val = v.toNat ∧ o.parts.any (fun p => p.hat == 2) = true)) ∧ s1.worldOf g = world then
          .next (s1.completeAtom id g e o (if field 3 1 = 0 then 0 else 2) (field 0x20 8 % 2 ^ (8 * e.size))).clearTried
        else .next s1
      | none =>
        let tag := BitVec.ofNat 64 (field 0x28 8)
        match s1.parkedOp tag (field 0x30 1) with
        | some (w, e, o) =>
          if w = world ∧ (o.parts = [] ∨ (o.val = v.toNat ∧ o.parts.any (fun p => p.hat == 2) = true)) then
            .next (s1.parkFor ⟨tag, o.slot, if field 3 1 = 0 then 0 else 2, BitVec.ofNat 128 (field 0x20 8 % 2 ^ (8 * e.size))⟩)
          else .next s1
        | none => .next s1
    | _ => .next s

/-! ## Multi-clock results (spec/03 R66, spec/07 R177) -/

/-- The oldest multi-clock result of a fibre written. -/
def Fibre.writeLate (x : Fibre) : Fibre :=
  match x.late with
  | [] => x
  | (p, ws) :: r => { x.wrPlaces p ws with late := r, redo := if r.isEmpty then none else x.redo }

/-- MULTI_CLOCK_RESULT_WRITTEN. -/
def execMultiClockResultWritten (gang skein slot : Nat) (s : State) : Host.Outcome State Fault Refusal :=
  .next ((s.modSkein gang skein fun sk => { sk with slots := modifyAt sk.slots slot fun o => o.map Fibre.writeLate }).clearTried)

/-! ## Words that are no instruction, and fetches that fail (spec/00 R6, spec/08 R211) -/

/-- NOT_AN_INSTRUCTION: every fibre of the batch faults ILLEGAL_OP. -/
def execNotAnInstruction (_ : BitVec 64) (s : State) : Host.Outcome State Fault Refusal :=
  match s.batch with
  | none => .fault .noBatch
  | some (b, ready) => .next ({ s with issue := none }.finish b ready (faultAll b.all .illegalOp 0))

/-- INSTRUCTION_FETCH_FAULT: every fibre of the batch faults with the fetch's code. -/
def execInstructionFetchFault (code : FaultCode) (addr : BitVec 64) (s : State) : Host.Outcome State Fault Refusal :=
  match s.batch with
  | none => .fault .noBatch
  | some (b, ready) => .next ({ s with issue := none }.finish b ready (faultAll b.all code addr))

end Sys2Proof.Machine
end

