-- ==== Sys2Proof/Machine/Packet.lean ====
section
/-! DEFINITION. What the copy engine, the queue parser and the scheduler share: accesses that no fibre makes, records of
packets, and the completion of packets (spec/12 R310, R313, spec/19 R413, spec/10 R283 to R285). -/

namespace Sys2Proof.Machine

/-! ## Accesses by an engine or the parser -/

/-- Under what an agent accesses memory: context, world, feature vector, cluster, scope. -/
structure Access where
  ctx : Nat
  world : Nat
  fv : Nat
  cluster : Nat
  scope : Nat

/-- The access of a world's own agents at system scope. -/
def State.worldAccess (s : State) (w cluster : Nat) : Access :=
  { ctx := s.worldCtx w, world := w, fv := ((s.ctx (s.worldCtx w)).map (·.featvec.toNat)).getD 0x103FF, cluster := cluster, scope := 5 }

/-- n bytes read from the global space. -/
def State.agentRead (s : State) (v : Access) (va n : Nat) : Checked (List Byte) :=
  if n = 0 then .ok [] s else
  match s.checkGlobal v.ctx v.world v.fv .engineRead va n 1 with
  | .fault c a s' => .fault c a s'
  | .wait s' => .wait s'
  | .ok ps s1 =>
    if ps.any (s1.portLost v.world) then .fault .linkDown (BitVec.ofNat 64 va) s1
    else
      match s1.readParts (.ofCluster v.cluster) v.world v.scope ps with
      | .error c => .fault c (BitVec.ofNat 64 va) s1
      | .ok (bs, s2) => .ok bs s2

/-- The first watched byte of an access, counted from its start (spec/15 R385). -/
def watchedAt (c : Cluster) : Nat → List Part → Option Nat
  | _, [] => none
  | off, p :: r =>
    match (rangeFrom 0 p.len).find? fun i =>
        p.home == .dev && c.watch.any fun w => watchHits w true ((p.addr + i) % 2 ^ 52) 1 with
    | some i => some (off + i)
    | none => watchedAt c (off + p.len) r

/-- A write that has been checked. -/
structure Placed1 where
  va : Nat
  parts : List Part
  bytes : List Byte

/-- The writes of one burst checked, before any is performed; a write to a frozen frame waits (spec/05 R106). -/
def State.agentChecks (s : State) (v : Access) : List (Nat × List Byte) → Checked (List Placed1)
  | [] => .ok [] s
  | (va, bs) :: r =>
    if bs.isEmpty then State.agentChecks s v r else
    match s.checkGlobal v.ctx v.world v.fv .engineWrite va bs.length 1 with
    | .fault c a s' => .fault c a s'
    | .wait s' => .wait s'
    | .ok ps s1 =>
      if ps.any (s1.portLost v.world) then .fault .linkDown (BitVec.ofNat 64 va) s1
      else if s1.frzAt v.ctx va || s1.frzAt v.ctx (va + bs.length - 1) || ps.any (fun p => p.home == .dev && s1.frameHeld p.addr p.len) then .wait s1
      else
        match State.agentChecks s1 v r with
        | .ok qs s2 => .ok (⟨va, ps, bs⟩ :: qs) s2
        | x => x

/-- Checked writes performed; the first watched address hit, if any. -/
def State.agentPerform (s : State) (v : Access) : List Placed1 → Checked (Option W64)
  | [] => .ok none s
  | q :: r =>
    match s.writeParts (.ofCluster v.cluster) v.world v.scope q.parts q.bytes with
    | .error c => .fault c (BitVec.ofNat 64 q.va) s
    | .ok s1 =>
      let hit := (watchedAt (s1.cluster v.cluster) 0 q.parts).map fun i => BitVec.ofNat 64 (q.va + i)
      match State.agentPerform s1 v r with
      | .ok h s2 => .ok (hit.or h) s2
      | x => x

/-- Writes of one burst. -/
def State.agentWrites (s : State) (v : Access) (ws : List (Nat × List Byte)) : Checked (Option W64) :=
  match s.agentChecks v ws with
  | .ok qs s1 => s1.agentPerform v qs
  | .fault c a s1 => .fault c a s1
  | .wait s1 => .wait s1

/-- A 64-bit word changed as one atomic. -/
def State.agentUpdate (s : State) (v : Access) (va : Nat) (f : Nat → Nat) : Checked Unit :=
  match s.agentRead v va 8 with
  | .fault c a s1 => .fault c a s1
  | .wait s1 => .wait s1
  | .ok bs s1 =>
    match s1.agentWrites v [(va, bytesOf 8 (f (ofBytes bs)))] with
    | .fault c a s2 => .fault c a s2
    | .wait s2 => .wait s2
    | .ok _ s2 => .ok () s2

/-! ## Queues and packets -/

/-- An imprecise record of the parser, naming a packet (R310). -/
def State.packetRecord (s : State) (w q : Nat) (pc hcpc : W64) (csn : Nat) (code : FaultCode) (addr : W64) : State :=
  let c := s.homeCluster w q
  s.writeRecord
    { code := code, imp := true, stake := false, guest := false, iopx := 0, term := false, world := w, skg := 0xF0, eqid := 0,
      pc := pc, pc2 := 0, fmask := 0, amask := srcWord 3 c 0 0 0, addr := addr, hcpc := hcpc, csn := csn,
      ctx := s.worldCtx w, cluster := c }

/-- A packet completes (R313): its counter, its interrupt; `add` says whether `CINC` is added.  False where a host
translation is still to come. -/
def State.completePacket (s : State) (w q number : Nat) (add : Bool) : Bool × State :=
  match (s.queue w q).live.find? fun p => p.number == number with
  | none => (true, s)
  | some p =>
    let close (s : State) : State := s.closePacket w q number
    if !add || p.caddr = 0 then (true, close s)
    else if p.caddr.toNat % 8 ≠ 0 then (true, close (s.packetRecord w q p.addr p.hcpc p.csn .align p.caddr))
    else
      let v := s.worldAccess w (s.homeCluster w q)
      match (s.writeBackAll v.cluster).agentUpdate v p.caddr.toNat fun x => x + p.cinc.toNat with
      | .ok _ s1 => (true, close s1)
      | .wait s1 => (false, s1)
      | .fault c a s1 => (true, close (s1.packetRecord w q p.addr p.hcpc p.csn c a))

/-- An entry of a grid's or engine's own events posted: where the world's held posts leave no room its source waits
(spec/10 R287). -/
def State.canPost (s : State) (cluster w : Nat) : Bool :=
  let c := s.cluster cluster
  c.postNow w || (c.heldOf w < 16 && c.held.length < 256)

end Sys2Proof.Machine
end

