-- ==== Sys2Proof/Machine/Control.lean ====
section
/-! DEFINITION. Branches, calls, reconvergence, fibres, migration requests and barriers (spec/08 R210 to R222, spec/03
R60, spec/02 R38 to R44). -/

namespace Sys2Proof.Machine

/-! ## Branches (R210, R211, spec/11 R300) -/

/-- The signed offset field. -/
def cfOffset (f : CF) : Int := f.off.toInt

/-- NOP (R234). -/
def execNop (f : SF) (s : State) : Host.Outcome State Fault Refusal :=
  s.perFibre (.nop f) fun _ _ x => .next x

/-- BRA (R210). -/
def execBra (f : CF) (s : State) : Host.Outcome State Fault Refusal :=
  s.perFibre (.bra f) fun _ _ x => .jump x (x.target (cfOffset f))

/-- A target taken from registers: in canonical code a multiple of 8, else ALIGN with the target in `FADDR`; in a template a
guest PC (R210, spec/11 R300). -/
def jumpTo (x y : Fibre) (t : W64) : Out :=
  if !x.inTemplate && t.toNat % 8 != 0 then .fault .align t else .jump y t

/-- BRX (R210). -/
def execBrx (f : CF) (s : State) : Host.Outcome State Fault Refusal :=
  s.perFibre (.brx f) fun _ _ x => jumpTo x x (x.pair f.ca.toNat)

/-- BRDEC (R210): the counter goes down to 0 and stays there; the branch is taken while it was above 1. -/
def execBrdec (f : CF) (s : State) : Host.Outcome State Fault Refusal :=
  s.perFibre (.brdec f) fun _ _ x =>
    let c := (x.rd f.ca.toNat).toNat
    let y := if c ≠ 0 then x.wr f.ca.toNat (BitVec.ofNat 32 (c - 1)) else x
    if 1 < c then .jump y (x.target (cfOffset f)) else .next y

/-! ## Calls (spec/03 R60, spec/08 R212, R213) -/

/-- The window moves up by k registers; the callee's pw, shift and return PC are written. -/
def Fibre.enterCall (x : Fibre) (k : Nat) : Fibre :=
  let y := { x with wshift := x.wshift + k }
  ((y.wr 0 x.pw).wr 1 (BitVec.ofNat 32 k)).wrVal 2 2 x.nextPc.toNat

/-- The window has room for a shift of k. -/
def Fibre.callFits (x : Fibre) (k : Nat) : Bool := k < x.wsize && 8 ≤ x.wsize - k

/-- CALL (R60, R212). -/
def execCall (f : CF) (s : State) : Host.Outcome State Fault Refusal :=
  s.perFibre (.call f) fun _ _ x =>
    let k := 8 * f.cb.toNat
    if x.callFits k then .jump (x.enterCall k) (x.target (cfOffset f)) else .fault .regRange 0

/-- CALLX: the target pair is read before the window moves (R212). -/
def execCallx (f : CF) (s : State) : Host.Outcome State Fault Refusal :=
  s.perFibre (.callx f) fun _ _ x =>
    let k := 8 * f.cb.toNat
    if x.callFits k then jumpTo x (x.enterCall k) (x.pair f.ca.toNat) else .fault .regRange 0

/-- RET (R60, R213). -/
def execRet (f : CF) (s : State) : Host.Outcome State Fault Refusal :=
  s.perFibre (.ret f) fun _ _ x =>
    let k := (x.rd 1).toNat
    if k = 0 || k % 8 != 0 || x.wshift < k then .fault .regRange 0
    else jumpTo x { x with wshift := x.wshift - k } (x.pair 2)

/-! ## Reconvergence (R214, R215) -/

/-- The number under which a fibre keeps the moment of the RMARK that wrote a pair. -/
def Fibre.markKey (x : Fibre) (r : Reg) : Nat := x.place r.toNat

/-- RMARK: the mask of the passing fibres goes to each one's pair, and the moment of the issue is kept (R214, R215). -/
def execRmark (f : CF) (s : State) : Host.Outcome State Fault Refusal :=
  s.issueWith (.rmark f) fun b s =>
    let (moment, s1) := s.takeKey
    let mask := maskOf (b.run.map (·.1))
    .done (b.each fun _ x =>
      let y := x.wrVal f.ca.toNat 2 mask.toNat
      .next { y with marks := tset y.marks (x.markKey f.ca) moment, lastMark := moment }) s1

/-- The moment a fibre's mask was made. -/
def Fibre.maskMoment (x : Fibre) (r : Reg) : Nat := (tget x.marks (x.markKey r)).getD x.lastMark

/-- RJOIN: passing fibres wait; those whose guard fails stand at this PC for the moment of the issue, and count as arrived for the
fibres that wait here (R215).  Whether the join is satisfied is looked at when the issue ends. -/
def execRjoin (f : CF) (s : State) : Host.Outcome State Fault Refusal :=
  s.issueWith (.rjoin f) fun b s =>
    let off := maskOf ((b.all.filter fun p => !f.h.g.passes p.2.pw).map (·.1))
    let cut (m : W64) : W64 := m &&& ~~~off
    let low := b.all.head?
    let s1 := s.modSkein b.g.key b.k fun sk => sk.mapFibres fun _ y =>
      if y.wait = .rjoin ∧ (low.map fun p => p.2.pc) = some y.pc ∧ (low.map fun p => p.2.parked) = some y.parked
      then { y with wmask := cut y.wmask } else y
    .done (b.each fun _ x =>
      .stay { x with wait := .rjoin, wmask := cut (x.pair f.ca.toNat), wmoment := x.maskMoment f.ca }) s1

/-! ## Creating fibres (spec/02 R39 to R44, spec/08 R216, R217, spec/20 R437) -/

/-- `LEGACY` of a personality's table in a cluster (spec/11 R302). -/
def State.legacyOf (s : State) (cluster pers : Nat) : Nat :=
  if pers = 0 then 0 else ((s.weaveTable cluster pers).map fun t => t.field 0x07 1 % 64).getD 0

/-- The state of a fibre that x creates, before its PC and predicate are set (R39, notes/assumptions/17). -/
def Fibre.child (x : Fibre) (uid legacy : Nat) : Fibre :=
  { x with
    uid := uid, rmode := 0, fmode := legacy, srseed := 0, pidx := 0, amask := 0, fmask := 0, fcode := 0, fpc := 0, faddr := 0,
    eqid := x.eqid, fglen := if x.emul then x.fglen else 0, movedAt := 0, pass := 0, wait := .none, waitArg := 0, wmask := 0, wmoment := 0,
    tried := false, barIn := 0, stepIn := false, sbarIn := false, marks := [], lastMark := uid, waive := false, lseq := 0,
    pend := [], late := [], redo := none, longPc := 0, poison := x.poison }

/-- The lowest free slot of a skein. -/
def Skein.freeSlot (sk : Skein) : Option Nat := (rangeFrom 0 sk.width).find? fun t => (sk.fibre t).isNone

/-- The first free slot in the order of R40: the creator's skein k, then the others from the lowest. -/
def Gang.freeSlot (g : Gang) (k : Nat) : Option (Nat × Nat) :=
  (k :: (rangeFrom 0 g.skeins.length).filter fun j => j != k).findSome? fun j =>
    (g.skeins[j]?).bind fun sk => sk.freeSlot.map fun t => (j, t)

/-- A pool entry's bytes (spec/02 R42); n registers fill it. -/
def poolEntry (x : Fibre) (image creator n : Nat) : List Byte :=
  bytesOf 8 x.pc.toNat ++ bytesOf 8 (if x.pers = 0 then 0 else x.gpc.toNat) ++ bytesOf 4 x.pw.toNat ++ bytesOf 2 x.wshift ++ bytesOf 1 x.pers
    ++ bytesOf 1 image ++ bytesOf 4 creator ++ bytesOf 4 0 ++ x.e.flatMap (fun (v : W32) => bytesOf 4 v.toNat)
    ++ ((x.regs ++ List.replicate n 0).take n).flatMap (fun (v : W32) => bytesOf 4 v.toNat)

/-- Where a created fibre went. -/
inductive Placed where
  | slot (fibid : Nat) (s : State)
  | pool (s : State)
  | fault (code : FaultCode) (addr : W64) (s : State)

/-- An imprecise SPAWN_FULL for a bad pool header; the gang takes no more refills (R44). -/
def State.badHeader (s : State) (g : Gang) : State :=
  (s.modGang g.key fun x => { x with poolBad := true }).writeRecord
    { code := .spawnFull, imp := true, stake := g.image = 1, guest := false, iopx := 0, term := false, world := s.worldOf g,
      skg := rskg g 0, eqid := 0, pc := 0, pc2 := 0, fmask := 0, amask := srcWord 7 g.cluster 0 0 0,
      addr := BitVec.ofNat 64 g.poolBase, hcpc := g.hcpc, csn := g.csn, ctx := g.ctx, cluster := g.cluster }

/-- A child placed: in a slot, else in the pool, else SPAWN_FULL (R40, R43, R44, R437). -/
def State.placeChild (s : State) (gk k : Nat) (creator : Nat) (x : Fibre) : Placed :=
  match s.gang gk with
  | none => .fault .spawnFull 0 s
  | some g =>
    match g.freeSlot k with
    | some (j, t) =>
      .slot (j * ((g.skeins[j]?.map (·.width)).getD 0) + t) (s.modSkein gk j fun sk => sk.setFibre t (some x))
    | none =>
      if g.poolCap = 0 then .fault .spawnFull 0 s else
      match s.readGlobal g.ctx (s.worldOf g) g.poolBase 16 with
      | .error (c, a) => .fault c (BitVec.ofNat 64 a) s
      | .ok (bs, s1) =>
        let head := ofBytes (bs.take 4)
        let count := ofBytes ((bs.drop 4).take 4)
        if g.poolCap < count || g.poolCap ≤ head then .fault .spawnFull 0 (s1.badHeader g)
        else if count = g.poolCap then .fault .spawnFull 0 s1
        else
          let size := ((s.grid g.grid).map Grid.poolEntrySize).getD 64
          let at_ := g.poolBase + 16 + (head + count) % g.poolCap * size
          let e := poolEntry x g.image creator ((size - 64) / 4)
          match s1.writeGlobalLong g.ctx (s.worldOf g) 3 at_ e with
          | .error (c, _) => .fault c (BitVec.ofNat 64 at_) s1
          | .ok s2 =>
            match s2.writeGlobal g.ctx (s.worldOf g) g.poolBase (bytesOf 4 head ++ bytesOf 4 (count + 1)) with
            | .error (c, _) => .fault c (BitVec.ofNat 64 at_) s1
            | .ok s3 => .pool s3

/-- The creators of a batch place their children one after another, in slot order.  `make` answers, for a creator, its
fault, or the child and what becomes of the creator given the child's `FIBID`, or none for the pool. -/
def State.createAll (s : State) (b : Batch) (make : Nat → Fibre → Nat → Except FaultCode (Fibre × (Option Nat → Fibre))) :
    List (Nat × Fibre) → List (Nat × Out) × State
  | [] => ([], s)
  | (t, x) :: r =>
    let (uid, s1) := s.takeKey
    match make t x uid with
    | .error c =>
      let q := State.createAll s b make r
      ((t, .fault c 0) :: q.1, q.2)
    | .ok (child, after) =>
      match s1.placeChild b.g.key b.k (b.fibid t) child with
      | .fault c a s2 =>
        let q := State.createAll s2 b make r
        ((t, .fault c a) :: q.1, q.2)
      | .slot n s2 =>
        let q := State.createAll s2 b make r
        ((t, .next (after (some n))) :: q.1, q.2)
      | .pool s2 =>
        let q := State.createAll s2 b make r
        ((t, .next (after none)) :: q.1, q.2)

/-- FNEW (R216). -/
def execFnew (f : CF) (s : State) : Host.Outcome State Fault Refusal :=
  s.issueWith (.fnew f) fun b s =>
    let legacy (x : Fibre) := s.legacyOf b.g.cluster x.pers
    let r := s.createAll b (fun t x uid =>
      let child := ((x.child uid (legacy x)).goto (x.target (cfOffset f))).wr f.ca.toNat (BitVec.ofNat 32 (b.fibid t))
      .ok (child, fun n => x.wr f.ca.toNat (BitVec.ofNat 32 (n.getD 0xFFFFFFFF)))) b.run
    .done r.1 r.2

/-- IVFORK (R217): the parent keeps the lower half and its predicate false, the child the upper half and true. -/
def execIvfork (f : CF) (s : State) : Host.Outcome State Fault Refusal :=
  s.issueWith (.ivfork f) fun b s =>
    let fmt := if f.cfl = 1 then fmtF64 else fmtF32
    let r := s.createAll b (fun _ x uid =>
      match x.ivSrc fmt f.ca false false with
      | none => .error .emptyInterval
      | some a =>
        let m := fmt.ivMid a
        let v := fmt.writeIv .clear a
        let y := (x.ivDst fmt f.ca (m, v.2)).wrPred f.cb.toNat .true_
        let child := { (y.child uid (s.legacyOf b.g.cluster x.pers)) with waitArg := 0 }.advance
        .ok (child, fun _ => (x.ivDst fmt f.ca (v.1, m)).wrPred f.cb.toNat .false_)) b.run
    .done r.1 r.2

/-- FEND (R218). -/
def execFend (f : CF) (s : State) : Host.Outcome State Fault Refusal :=
  s.issueWith (.fend f) fun b s => .done (b.each fun _ _ => .gone) s

/-- EXIT: the whole gang ends; on a handle thread its routine (R208, R218). -/
def execExit (f : CF) (s : State) : Host.Outcome State Fault Refusal :=
  s.issueWith (.exit f) fun b s =>
    if b.run.isEmpty then .done [] s
    else .done (b.each fun _ _ => .gone) (if b.g.kind = .handle then s.endRoutine b.g.key else s.endGang b.g.key)

/-! ## Migration requests (R219) -/

/-- MIGRATE: the fibre waits until every live fibre of the gang stands at one; in a handler or an emulation routine it is
MIGRATE_BAD (spec/20 R436). -/
def execMigrate (f : CF) (s : State) : Host.Outcome State Fault Refusal :=
  s.issueChecked (.migrate f)
    (fun b _ => (b.run.filter fun p => p.2.parked || p.2.emul).map fun p => (p.1, .fault .migrateBad 0))
    fun b s => .done (b.each fun _ x =>
      .stay { x with wait := .migrate, waitArg := f.off.toNat + 2 ^ 26 * f.cfl.toNat + 2 ^ 29 * f.ca.toNat }) s

/-! ## Barriers (R220 to R222) -/

/-- BARA at barrier n: arrive, or wait for the phase to advance and then arrive. -/
def arriveAt (n : Nat) (x : Fibre) : Out :=
  if bitOf x.barIn n then .stay { x with wait := .barw, waitArg := n + 16 } else .next (x.arrive n)

/-- BARW: wait while the fibre's arrival is of the current phase. -/
def departAt (n : Nat) (x : Fibre) : Out :=
  if bitOf x.barIn n then .stay { x with wait := .barw, waitArg := n } else .next x

/-- BAR: arrive, then wait for the phase to advance. -/
def meetAt (n : Nat) (x : Fibre) : Out :=
  if bitOf x.barIn n then .stay { x with wait := .barw, waitArg := n + 32 }
  else .stay { x.arrive n with wait := .barw, waitArg := n }

/-- An arrival is a release at gang scope: the batch waits until the earlier operations of its fibres are performed
(R222). -/
def Batch.releasing (b : Batch) : Bool := b.run.all fun p => b.sk.settled b.sk.nextSeq p.2.uid

/-- BARA (R220). -/
def execBara (f : CF) (s : State) : Host.Outcome State Fault Refusal :=
  s.issueWith (.bara f) fun b s =>
    if b.releasing then .done (b.each fun _ x => arriveAt f.cb.toNat x) s else .held .none s

/-- BARW (R220). -/
def execBarw (f : CF) (s : State) : Host.Outcome State Fault Refusal :=
  s.perFibre (.barw f) fun _ _ x => departAt f.cb.toNat x

/-- BAR (R220). -/
def execBar (f : CF) (s : State) : Host.Outcome State Fault Refusal :=
  s.issueWith (.bar f) fun b s =>
    if b.releasing then .done (b.each fun _ x => meetAt f.cb.toNat x) s else .held .none s

/-- SBAR: the arrival stands in the record until the cluster's span barrier has counted it (R209, R221). -/
def execSbar (f : CF) (s : State) : Host.Outcome State Fault Refusal :=
  s.issueWith (.sbar f) fun b s =>
    match b.run with
    | [] => .done [] s
    | (_, x0) :: _ =>
      let e := { b.entry 0x20 x0 with
        ops := b.run.map fun p => .new p.1 p.2.uid 0 0 [] 0 0 }
      .done (b.each fun _ x => .stay { x with wait := .sbar }) (s.addEntry b e)

/-- STEP: an arrival at the hidden step barrier, which never waits (R235). -/
def execStep (f : SF) (s : State) : Host.Outcome State Fault Refusal :=
  s.perFibre (.step f) fun _ _ x => .next { x with stepIn := true }

end Sys2Proof.Machine
end

