-- ==== Sys2Proof/Machine/Sync.lean ====
section
/-! DEFINITION. Fences, counters, monitors, deposits, FIFO banks, counter reads and bank modes (spec/09 R250 to R261,
spec/05 R111 to R114, R129, R132, spec/08 R221, spec/02 R50). -/

namespace Sys2Proof.Machine

/-! ## FENCE and WAITC (R250 to R252) -/

/-- Nothing of an operation is left for a release at a scope to wait for: at cluster scope or below its cluster's seeing a store is enough,
and only system scope waits for a port (spec/05 R133, R135, R142). -/
def settledAt (scope kind : Nat) (o : SlotOp) : Bool :=
  settledOp kind o || (storeLike kind && !loadLike kind && ((o.near && scope ≤ 3) || (o.parts.any Part.port && scope < 5)))

/-- A fence of the order (bit 0 acquire, bit 1 release) and scope has nothing left to wait for; at system scope, whatever its order, it
waits for `ACKC` too (R129). -/
def Batch.fenceReady (b : Batch) (order scope : Nat) : Bool :=
  (b.run.all fun p => b.sk.record.all fun e => e.ops.all fun o =>
      o.uid != p.2.uid ||
        ((!bitOf order 0 || !loadLike e.kind || o.complete) && (!bitOf order 1 || settledAt scope e.kind o)))
    && !(scope == 5 && b.sk.ackc != 0)

/-- What a fence does to the caches on its way to memory. -/
def State.fenceCaches (s : State) (v : Via) (order scope : Nat) : State :=
  let s1 := if bitOf order 1 then s.releaseCaches v scope else s
  if bitOf order 0 then s1.acquireCaches v scope else s1

/-- FENCE: the batch waits where it stands until what the fence orders is performed (R129, R250). -/
def execFence (f : SF) (s : State) : Host.Outcome State Fault Refusal :=
  s.issueWith (.fence f) fun b s =>
    let order := f.sub.toNat % 4
    let scope := f.imm.toNat % 8
    if b.run.isEmpty then .done [] s
    else if !b.fenceReady order scope || (bitOf order 1 && s.releaseHeld b.g.via scope) then .held .none s
    else .done (b.each fun _ x => .next x) ((s.ordFence b.g order scope).fenceCaches b.g.via order scope)

/-- The counters of a skein are at or below a WAITC's limits. -/
def Skein.waitMet (sk : Skein) (f : WaitcF) : Bool :=
  sk.l ≤ f.l.toNat && sk.s ≤ f.s.toNat && sk.c ≤ f.c.toNat && sk.t ≤ f.t.toNat

/-- A fibre's failed operation that holds a counter above its limit: the WAITC is its consumer (spec/19 R424). -/
def Skein.waitFails (sk : Skein) (f : WaitcF) (x : Fibre) : Option (Entry × SlotOp × FaultCode) :=
  (sk.loadsOf x).findSome? fun p =>
    match p.2.stage with
    | .failed c =>
      if (kindCounter p.1.kind == 1 && f.l.toNat < sk.l) || (kindCounter p.1.kind == 4 && f.t.toNat < sk.t)
      then some (p.1, p.2, c) else none
    | _ => none

/-- WAITC (R251): an acquire of what the completed copy commands of its cluster wrote (spec/05 R131). -/
def execWaitc (f : WaitcF) (s : State) : Host.Outcome State Fault Refusal :=
  s.issueWith (.waitc f) fun b s =>
    let sk := (s.skein b.g.key b.k).getD b.sk
    if b.run.isEmpty then .done [] s
    else if sk.waitMet f then .done (b.each fun _ x => .next x) (s.acquireCaches b.g.via 3)
    else
      let bad := b.run.filterMap fun p => (sk.waitFails f p.2).map fun c => (p.1, c)
      if bad.isEmpty then .held .waitc s
      else
        let outs := b.each fun t x =>
          match bad.find? fun q => q.1 == t with
          | some q => .fault q.2.2.2 q.2.2.1.va
          | none => .stay x
        .done outs (bad.foldl (fun s q => s.consume b q.1 q.2) s)

/-! ## Monitors (R253 to R255) -/

/-- The fields that MWAIT and MTEST share. -/
structure MonForm where
  bytes : Nat
  space : Space
  scope : Nat
  cond : Nat

/-- A scope above cluster on scratch is cluster (R253). -/
def monForm (f : SF) : MonForm :=
  let scratch := bitOf f.imm.toNat 4
  { bytes := if bitOf f.imm.toNat 3 then 8 else 4
    space := if scratch then .scratch else .global
    scope := if scratch then min 3 (f.imm.toNat % 8) else f.imm.toNat % 8
    cond := f.sub.toNat % 8 }

/-- A monitor's entry; `aux` 1 where it ends by writing TRUE (R254). -/
def monEntry (b : Batch) (x0 : Fibre) (m : MonForm) (test : Bool) (ops : List SlotOp) : Entry :=
  { b.entry 0x0B x0 with
    scope := m.scope, acquire := true, mask := maskOf (ops.map (·.slot)), size := m.bytes, aop := m.cond, aux := boolNat test, ops := ops }

/-- An acquire read of a monitored location; a host or remote page is read at system scope (spec/05 R121). -/
def State.monRead (s : State) (g : Gang) (scope : Nat) (ps : List Part) : Except FaultCode (Nat × State) :=
  let w := s.worldOf g
  if ps.any (s.portLost w) then .error .linkDown else
  let sc := if ps.any Part.port then 5 else scope
  let s0 := s.ordering g fun x => x.ordAcquire g true sc ((ordPlaces 0 ps).map (·.1))
  ((s0.acquireCaches g.via sc).readParts g.via w sc ps).map fun r => (ofBytes r.1, r.2)

/-- The checks of every fibre's address, as a load's; answers like `askAll`. -/
def State.askMonitor (s : State) (b : Batch) (f : SF) (m : MonForm) : Asked :=
  s.askAll b (fun _ x => ⟨m.space, .load, x.pair f.sa.toNat, m.bytes, 1, 0, false, 0⟩)
    (b.run.map fun p => (p.1, { p.2 with waive := true }))

/-- A fibre's monitor as an operation. -/
def monOp (f : SF) (m : MonForm) (t : Nat) (x : Fibre) (ps : List Part) : SlotOp :=
  .new t x.uid (f.dst.toNat % 16) (x.pair f.sa.toNat) ps (x.rdVal f.sb.toNat (m.bytes / 4)) 0

/-- The first reads of a batch's monitors in slot order; `hit` and `miss` say what becomes of a fibre whose condition holds
and of one whose does not.  Answers the outcomes and the operations that stay armed. -/
def State.firstReads (s : State) (b : Batch) (m : MonForm) (hit miss : State → Nat → Fibre → SlotOp → Option (Out × State)) :
    List (Nat × Fibre × SlotOp) → List (Nat × Out) × List SlotOp × State
  | [] => ([], [], s)
  | (t, x, o) :: r =>
    match s.monRead b.g m.scope o.parts with
    | .error c =>
      let q := State.firstReads s b m hit miss r
      ((t, .fault c o.va) :: q.1, q.2.1, q.2.2)
    | .ok (v, s1) =>
      let holds := monCond m.cond (8 * m.bytes) v o.data
      match if holds then hit s1 t x o else miss s1 t x o with
      | some (out, s2) =>
        let q := State.firstReads s2 b m hit miss r
        ((t, out) :: q.1, q.2.1, q.2.2)
      | none =>
        let q := State.firstReads s1 b m hit miss r
        ((t, .stay { x with wait := .mwait }) :: q.1, o :: q.2.1, q.2.2)

/-- Monitors of a batch: checks, first reads, and an entry for the fibres that park. -/
def State.monitors (s : State) (b : Batch) (f : SF) (test : Bool)
    (hit miss : State → Nat → Fibre → SlotOp → Option (Out × State)) : Result :=
  let m := monForm f
  match b.run with
  | [] => .done [] s
  | (_, x0) :: _ =>
    match s.askMonitor b f m with
    | .wait s' => .held .none s'
    | .done faults oks s1 =>
      let ops := oks.map fun o => (o.1, ((inSlot b.run o.1).getD o.2.1), monOp f m o.1 o.2.1 o.2.2)
      let e := { monEntry b x0 m test (ops.map (·.2.2)) with seq := b.sk.nextSeq }
      if ops.any fun o => !b.sk.mayPerform e o.2.2 || s1.heldByFrame b.g e o.2.2 then .held .none s1
      else
        let q := s1.firstReads b m hit miss ops
        .done (faults ++ q.1) (if q.2.1.isEmpty then q.2.2 else q.2.2.addEntry b (monEntry b x0 m test q.2.1))

/-- MWAIT (R253). -/
def execMwait (f : SF) (s : State) : Host.Outcome State Fault Refusal :=
  s.issueWith (.mwait f) fun b s =>
    s.monitors b f false (fun s _ x _ => some (.next x, s)) (fun _ _ _ _ => none)

/-- A test's answer through the replay log (spec/15 R387). -/
def testAnswer (b : Batch) (k : Bool) (s : State) (t : Nat) (x : Fibre) (o : SlotOp) : Option (Out × State) :=
  match s.throughLog b.g.key b.k t x 5 1 (boolNat k) with
  | some q => some (.next (q.2.1.wrPred o.dst (Tri.ofBool (q.1 % 2 == 1))), q.2.2)
  | none => some (.fault .detViolation 0, s)

/-- MTEST (R254): in deterministic mode without a replay log it waits as MWAIT does and then writes TRUE. -/
def execMtest (f : SF) (s : State) : Host.Outcome State Fault Refusal :=
  s.issueWith (.mtest f) fun b s =>
    if b.g.det && b.g.log.mode == 0 then
      s.monitors b f true (fun s _ x o => some (.next (x.wrPred o.dst .true_), s)) (fun _ _ _ _ => none)
    else s.monitors b f true (testAnswer b true) (testAnswer b false)

/-- The parked fibre of a monitor changed, and the monitor gone. -/
def State.endMonitor (s : State) (id : EntryId) (o : SlotOp) (f : Fibre → Fibre) : State :=
  let s1 := s.modSkein id.gang id.skein fun sk => sk.modUid o.uid fun x => f { x with wait := .none, waitArg := 0 }
  (s1.putOp id { o with stage := .done }).closeId id

/-- A monitor that fails: its fibre faults at the MWAIT. -/
def State.failMonitor (s : State) (id : EntryId) (o : SlotOp) (code : FaultCode) (addr : W64) : State :=
  (s.endMonitor id o fun x => x).takeFaults id.gang id.skein (maskOf [o.slot]) [⟨o.slot, code, addr, false⟩]

/-- A monitor read again (R253): its address is translated and checked afresh, a scratch bank's mode too (spec/05 R107, R111), and the read
waits for its place in the fibre's order. -/
def State.reread (s : State) (id : EntryId) (slot : Nat) : State :=
  match s.located id with
  | none => s
  | some (g, sk, e) =>
    match e.op slot with
    | none => s
    | some o =>
      if e.kind != 0x0B || o.complete || !(sk.live.any fun p => p.2.uid == o.uid && p.2.wait == .mwait) then s
      else
        match s.askReplay g e o with
        | .wait s1 => s1
        | .fault c a s1 => s1.failMonitor id o c a
        | .ok ps s1 =>
          let o := { o with parts := ps, stage := .sent }
          if !sk.mayPerform e o then s1.putOp id o else
          match s1.monRead g e.scope ps with
          | .error c => s1.failMonitor id o c o.va
          | .ok (v, s2) =>
            if monCond e.aop (8 * e.size) v o.data then
              s2.endMonitor id o fun x => (if e.aux = 1 then x.wrPred o.dst .true_ else x).advance
            else s2.putOp id o

/-- MONITOR_WAKE. -/
def execMonitorWake (e : EntryId) (slot : Nat) (s : State) : Host.Outcome State Fault Refusal :=
  .next (s.reread e slot).clearTried

/-- MONITOR_REREAD. -/
def execMonitorReread (e : EntryId) (slot : Nat) (s : State) : Host.Outcome State Fault Refusal :=
  .next (s.reread e slot).clearTried

/-! ## Deposits (R256, R257, spec/02 R50) -/

/-- The last of a gang's moves away from a core. -/
def moveFrom (core : Nat) : Nat → List (Nat × Nat) → Option Nat
  | _, [] => none
  | i, (c, _) :: r => (moveFrom core (i + 1) r).or (if c = core then some i else none)

/-- The gang of a span that a deposit to a core reaches, with the number of its moves after which the register number is
its own: the resident one, or one that left the core by migration. -/
def State.depositTarget (s : State) (g : Gang) (core : Nat) : Option (Gang × Nat) :=
  let gs := (s.spanGangs g).filter fun h => h.cluster == g.cluster
  match gs.find? fun h => h.core == core with
  | some h => some (h, h.moves.length)
  | none => gs.findSome? fun h => (moveFrom core 0 h.moves).map fun i => (h, i)

/-- A register number translated through an equivalence point, from rand or from stake (R50; the later entry wins, spec/12
R316): none for a number that the table does not map. -/
def translateReg (p : EqPoint) (fromRand : Bool) (n : Nat) : Option Nat :=
  p.maps.foldl (fun (r : Option Nat) (m : Nat × Nat × Nat) =>
    let a := if fromRand then m.1 else m.2.1
    let b := if fromRand then m.2.1 else m.1
    if a ≤ n ∧ n < a + 2 ^ m.2.2 then some (b + (n - a)) else r) none

/-- A register number through the moves of a gang. -/
def State.followMoves (s : State) (g : Gang) : List (Nat × Nat) → Nat → Option Nat
  | [], n => some n
  | (core, eqid) :: r, n =>
    match (s.grid g.grid).bind fun gr => gr.eq.find? fun p => p.eqid == eqid with
    | none => none
    | some p =>
      match translateReg p (core < 12) n with
      | none => none
      | some m => State.followMoves s g r m

/-- Stage 2 of RWRITE: the target exists (R256). -/
def rwriteTarget (f : SF) (b : Batch) (s : State) : List (Nat × Out) :=
  match b.all with
  | [] => []
  | (_, x0) :: _ =>
    let tgt := x0.rd f.sb.toNat
    let ok :=
      match s.depositTarget b.g (tgt.toNat % 16) with
      | some (h, _) => tgt.toNat < 512 && tgt.toNat / 16 < h.skeins.length && tgt.toNat % 16 != b.g.core
      | none => false
    if ok then [] else faultAll b.run .perm (BitVec.ofNat 64 tgt.toNat)

/-- RWRITE: `dst` keeps the register number, `aux` the receiving gang, `aop` its skein, `size` the counter, `prog` the moves
after which the number is the gang's own (R256). -/
def execRwrite (f : SF) (s : State) : Host.Outcome State Fault Refusal :=
  s.issueChecked (.rwrite f) (rwriteTarget f) fun b s =>
    match b.run, b.all with
    | (_, x0) :: _, (_, low) :: _ =>
      let tgt := (low.rd f.sb.toNat).toNat
      match s.depositTarget b.g (tgt % 16) with
      | none => .done [] s
      | some (h, i) =>
        if !b.sk.room 0x0C 1 then .held .none s
        else
          let t := s.takeTag b.g
          let ops := b.run.map fun p => slotOp p.1 p.2 0 0 [] (p.2.rd f.sa.toNat).toNat tgt
          let e := { b.entry 0x0C x0 with
            cls := 1, scope := 3, release := bitOf f.imm.toNat 10, tag := t.1, dst := f.imm.toNat % 256,
            size := bitsOf f.imm.toNat 9 8, aux := h.key, aop := tgt / 16, prog := i, ops := ops }
          .done (b.each fun _ x => .next x) (t.2.addEntry b e)
    | _, _ => .done [] s

/-- The register exists in a fibre's window. -/
def Fibre.hasReg (x : Fibre) (kind : CoreKind) (n : Nat) : Bool := 248 ≤ n || n < min (kindRegs kind) x.wsize

/-- The address that a deposit's tag is kept under: its register number. -/
def depositAddr (e : Entry) : W64 := BitVec.ofNat 64 e.dst

/-- The deposits of an RWRITE made in the receiving skein, then the arrival; the tag is kept at the receiving core (R256,
spec/13 R334). -/
def State.depositAll (s : State) (h : Gang) (e : Entry) : State :=
  let reg := s.followMoves h (h.moves.drop e.prog) e.dst
  let s1 := e.ops.foldl (fun s o =>
    s.modSkein h.key e.aop fun sk =>
      { sk with slots := modifyAt sk.slots o.slot fun q => q.map fun x =>
          match reg with
          | some n => if x.hasReg h.kind n then x.wr n (BitVec.ofNat 32 o.data) else x
          | none => x }) s
  let s2 := s1.modSkein h.key e.aop fun sk => { sk with arrive := modifyAt sk.arrive e.size fun v => (v + 1) % 65536 }
  { s2 with tags := s2.tags ++ e.ops.map fun o => ⟨e.tag, o.slot, depositAddr e, 2, 0, coreNumber h.cluster h.core, false⟩ }

/-- RWRITE_ARRIVAL in one entry: a release waits for its fibres' earlier operations; a tag found counts nothing again; a
receiver that has ended takes nothing; a receiving core whose tag table is full holds it (spec/13 R336); S falls. -/
def State.arriveDeposit (s : State) (id : EntryId) : State :=
  match s.located id with
  | none => s
  | some (g, sk, e) =>
    if e.kind != 0x0C || (e.release && !e.ops.all fun o => sk.settled e.seq o.uid) then s
    else
      let close (s : State) : State := s.modSkein id.gang id.skein fun y => y.dropEntry id.seq
      match s.gang e.aux with
      | none => close s
      | some h =>
        if h.frozen then s
        else if h.ended || e.ops.any (fun o => (findTag s.tags e.tag o.slot (depositAddr e)).isSome) then close s
        else
          let at_ := (2, coreNumber h.cluster h.core)
          let s1 := s.evictTags at_ e.ops.length
          if !s1.tagRoom at_ e.ops.length then s1
          else close ((if e.release then (s1.releaseCaches g.via 3).ordering g fun x => x.publish g [(5, h.key, 0)] else s1).depositAll h e)

/-- RWRITE_ARRIVAL. -/
def execRwriteArrival (e : EntryId) (s : State) : Host.Outcome State Fault Refusal := .next (s.arriveDeposit e).clearTried

/-- ARRWAITs of a skein that still wait: some fibre of each stands at it. -/
def Skein.arrWaiting (sk : Skein) : List (Nat × Nat × Mask) :=
  sk.arrq.filter fun q => sk.live.any fun p => inMask q.2.2 p.1 && p.2.wait == .arrwait

/-- ARRWAIT: no overtaking on one counter (R257). -/
def execArrwait (f : SF) (s : State) : Host.Outcome State Fault Refusal :=
  s.issueWith (.arrwait f) fun b s =>
    let k := f.sub.toNat % 4
    let n := f.imm.toNat
    let me : Nat × Nat × Mask := (k, n, maskOf (b.run.map (·.1)))
    let q := b.sk.arrWaiting
    let put (l : List (Nat × Nat × Mask)) : State := s.modSkein b.g.key b.k fun sk => { sk with arrq := l }
    if b.run.isEmpty then .done [] s
    else if (q.takeWhile (· != me)).any (fun p => p.1 == k) || b.sk.arrive.getD k 0 < n then
      .held .arrwait (put (if q.contains me then q else q ++ [me]))
    else
      .done (b.each fun _ x => .next x)
        ((((put (q.filter (· != me))).acquireCaches b.g.via 3).modSkein b.g.key b.k fun sk => { sk with arrive := modifyAt sk.arrive k fun v => v - n }).ordering b.g
          fun x => x.obtain b.g fun k => k == (5, b.g.key, 0))

/-- SBAR_ARRIVAL: the span barrier counts an arrival once the operations before it are performed (spec/08 R221, R222). -/
def State.arriveSpan (s : State) (id : EntryId) : State :=
  match s.located id with
  | none => s
  | some (g, sk, e) =>
    if e.kind != 0x20 || !e.ops.all (fun o => sk.settled e.seq o.uid) then s
    else
      let s1 := s.modSkein id.gang id.skein fun y =>
        (y.mapFibres fun _ x => if e.ops.any (fun o => o.uid == x.uid) then { x with sbarIn := true } else x).dropEntry id.seq
      (s1.releaseCaches g.via 3).settleSpan g

/-- SBAR_ARRIVAL. -/
def execSbarArrival (e : EntryId) (s : State) : Host.Outcome State Fault Refusal := .next (s.arriveSpan e).clearTried

/-! ## FIFO banks (R258, R259) -/

/-- Stage 2: the bank is a FIFO of the world. -/
def fifoBank (f : SF) (b : Batch) (s : State) : List (Nat × Out) :=
  let n := f.imm.toNat % 64
  let bank := (s.cluster b.g.cluster).bank n
  if bank.mode == .fifo && bank.world == s.worldB b then [] else faultAll b.run .perm (BitVec.ofNat 64 (n * 0x40000))

/-- Stage 2 of QPUSH: in deterministic mode no second producer (spec/20 R439). -/
def pushBank (f : SF) (b : Batch) (s : State) : List (Nat × Out) :=
  let bank := (s.cluster b.g.cluster).bank (f.imm.toNat % 64)
  match fifoBank f b s with
  | [] =>
    if b.g.det && bank.producers.any (fun k => k != b.g.key) && !bank.producers.contains b.g.key
    then faultAll b.run .detViolation 0 else []
  | fs => fs

/-- The bank's first waiter of a kind is another skein. -/
def Bank.behind (bank : Bank) (me : Nat × Nat × Bool) : Bool :=
  match bank.waiters.filter fun w => w.2.2 == me.2.2 with
  | w :: _ => w != me
  | [] => false

/-- A waiter added at the end, once. -/
def Bank.join (bank : Bank) (me : Nat × Nat × Bool) : Bank :=
  if bank.waiters.contains me then bank else { bank with waiters := bank.waiters ++ [me] }

def Bank.leave (bank : Bank) (me : Nat × Nat × Bool) : Bank := { bank with waiters := bank.waiters.filter (· != me) }

/-- QPUSH. -/
def execQpush (f : SF) (s : State) : Host.Outcome State Fault Refusal :=
  s.issueChecked (.qpush f) (pushBank f) fun b s =>
    let c := b.g.cluster
    let n := f.imm.toNat % 64
    if b.run.isEmpty then .done [] s
    else if !b.releasing then .held .none s
    else
      let me := (b.g.key, b.k, false)
      let s1 := s.modBank c n fun x =>
        { x with producers := if x.producers.contains b.g.key then x.producers else x.producers ++ [b.g.key], everProducer := true }
      let bank := (s1.cluster c).bank n
      if bank.behind me || 65536 < bank.entries.length + b.run.length then .held .qpush (s1.modBank c n fun x => x.join me)
      else
        .done (b.each fun _ x => .next x)
          (((s1.releaseCaches b.g.via 3).modBank c n fun x => { x.leave me with entries := x.entries ++ b.run.map fun p => p.2.rd f.sa.toNat }).ordering b.g
            fun x => x.publish b.g [(6, 64 * c + n, 0)])

/-- Values to fibres in order; those left without one fault QORPHAN (R259, spec/21 R450). -/
def popOuts (r : Reg) (bank : Nat) : List (Nat × Fibre) → List W32 → List (Nat × Out)
  | [], _ => []
  | (t, _) :: xs, [] => (t, .fault .qorphan (BitVec.ofNat 64 (bank * 0x40000))) :: popOuts r bank xs []
  | (t, x) :: xs, v :: vs => (t, .next (x.wr r.toNat v)) :: popOuts r bank xs vs

/-- QPOP. -/
def execQpop (f : SF) (s : State) : Host.Outcome State Fault Refusal :=
  s.issueChecked (.qpop f) (fifoBank f) fun b s =>
    let c := b.g.cluster
    let n := f.imm.toNat % 64
    let me := (b.g.key, b.k, true)
    let bank := (s.cluster c).bank n
    let orphaned := bank.everProducer && bank.producers.isEmpty
    if b.run.isEmpty then .done [] s
    else if bank.behind me || (bank.entries.length < b.run.length && !orphaned) then .held .qpop (s.modBank c n fun x => x.join me)
    else
      .done (popOuts f.dst n b.run bank.entries)
        (((s.acquireCaches b.g.via 3).modBank c n fun x => { x.leave me with entries := x.entries.drop b.run.length }).ordering b.g
          fun x => x.obtain b.g fun k => k == (6, 64 * c + n, 0))

/-! ## RDCTR (R260, spec/15 R377, R378) -/

/-- A counter's value in a table. -/
def counterIn (t : Tbl Nat) (n : Nat) : Nat := (tget t n).getD 0

/-- Counters that bank G does not have. -/
def onlyInH (n : Nat) : Bool := n == 26 || n == 27

/-- What an issuer of RDCTR reads. -/
def State.readCounter (s : State) (g : Gang) (n : Nat) (bankH : Bool) : Nat :=
  let c := s.core g.coreNo
  if bankH then (if g.kind = .handle ∧ g.core < 2 then counterIn c.h n else 0)
  else if onlyInH n then 0
  else counterIn (((c.g.find? fun p => p.1 == g.ctx).map (·.2)).getD []) n

/-- RDCTR. -/
def execRdctr (f : SF) (s : State) : Host.Outcome State Fault Refusal :=
  s.issueWith (.rdctr f) fun b s =>
    let v := s.readCounter b.g (f.imm.toNat % 256) (bitOf f.imm.toNat 8)
    let r := s.inOrder (fun s slot x =>
      match s.throughLog b.g.key b.k slot x 2 8 v with
      | some q => (.next (q.2.1.wrVal f.dst.toNat 2 q.1), q.2.2)
      | none => (.fault .detViolation 0, s)) b.run
    .done r.1 r.2

/-! ## BANKCFG (R261, spec/05 R112 to R114) -/

def bankModeOf : Nat → BankMode
  | 0 => .cache | 1 => .scratch | _ => .fifo

def bankCode : BankMode → Nat
  | .cache => 0 | .scratch => 1 | .fifo => 2

/-- Banks of a world in a mode. -/
def Cluster.banksIn (c : Cluster) (w : Nat) (m : BankMode) : Nat :=
  (c.banks.filter fun p => p.2.mode == m && p.2.world == w).length

/-- Banks in cache mode. -/
def Cluster.cacheBanks (c : Cluster) : Nat := 64 - (c.banks.filter fun p => p.2.mode != .cache).length

/-- The most banks of a mode a world may have (`BANKLIM`). -/
def State.bankLimit (s : State) (w : Nat) (m : BankMode) : Nat :=
  let lim := (s.world w).banklim.toNat
  match m with
  | .cache => 64
  | .scratch => bitsOf lim 6 0
  | .fifo => bitsOf lim 14 8

/-- Why a request is refused, if it is: `STATUS` (R261). -/
def State.bankStatus (s : State) (c w n : Nat) (m : BankMode) : Nat :=
  let k := s.cluster c
  let bank := k.bank n
  if bank.mode != .cache && bank.world != w then 1
  else if bank.mode == m then 0
  else if bank.foot.isSome then 2
  else if bank.mode == .fifo && (!bank.producers.isEmpty || bank.waiters.any (fun x => x.2.2)) then 3
  else if m != .cache && s.bankLimit w m < k.banksIn w m + 1 then 4
  else if bank.mode == .cache && m != .cache && k.cacheBanks ≤ 8 then 5
  else 0

/-- The bank in its new mode; its scratch bytes read zero. -/
def State.setBankMode (s : State) (c w n : Nat) (m : BankMode) : State :=
  s.modCluster c fun k =>
    { k.setBank n (if m == .cache then .reset else { Bank.reset with mode := m, world := w, byCfg := true }) with
      scratch := k.scratch.clear (n * 2 ^ 18) (2 ^ 18)
      scratchPoison := k.scratchPoison.filter fun a => a / 2 ^ 18 != n }

/-- Some part lies in a bank of the cluster. -/
def inBank (c n : Nat) (ps : List Part) : Bool :=
  ps.any fun p => p.home == .scratch c && n * 2 ^ 18 < p.addr + p.len && p.addr < (n + 1) * 2 ^ 18

/-- Every access to the bank that was accepted has been performed (R112): those of running contexts, and those of frozen ones that had left
their cores. -/
def State.bankQuiet (s : State) (c n : Nat) : Bool :=
  ((s.gangs.filter fun g => g.cluster == c && !g.frozen).all fun g => g.skeins.all fun sk => sk.record.all fun e => e.ops.all fun o =>
      o.performed || !inBank c n o.parts || e.kind == 0x0B)
    && s.ctxs.all fun x => x.lates.all fun l =>
      match s.locatedSaved l.1 with
      | some (_, _, _, e) => !(e.op l.2).any fun o => inBank c n o.parts
      | none => true

/-- A dirty line that the bank holds as a way of the cluster cache. -/
def State.bankDirty (s : State) (c n : Nat) : Option CacheLine := (s.cluster c).cache.find? fun x => x.way == n && x.isDirty

/-- A bank's mode changed, the lines it holds dropped (R113). -/
def State.changeBank (s : State) (c w n : Nat) (m : BankMode) : State :=
  (s.modCluster c fun k => { k with cache := k.cache.filter fun x => x.way != n }).setBankMode c w n m

/-- BANKCFG: a change from cache mode writes one dirty line of the bank back after another; `PIDX` counts them, and the mode changes when
none is left. -/
def execBankcfg (f : SF) (s : State) : Host.Outcome State Fault Refusal :=
  s.issueWith (.bankcfg f) fun b s =>
    let c := b.g.cluster
    let w := s.worldB b
    let n := f.imm.toNat % 64
    let m := bankModeOf (bitsOf f.imm.toNat 7 6)
    let prev := ((s.cluster c).bank n).mode
    let status := s.bankStatus c w n m
    let res := packFields [(3, status), (5, 0), (2, bankCode prev), (6, n)]
    let answer (s : State) : Result := .done (b.each fun _ x => .next (x.wr f.dst.toNat (BitVec.ofNat 32 res))) s
    if b.run.isEmpty then .done [] s
    else if status != 0 || prev == m then
      answer (if status == 0 && m == .scratch then s.modBank c n fun x => { x with byCfg := true } else s)
    else if !s.bankQuiet c n then .held .none s
    else
      match if prev == .cache then s.bankDirty c n else none with
      | some x =>
        if s.lineStuck x then .held .none s
        else
          .again ((s.writeBackLine c x).modSkein b.g.key b.k fun sk =>
            sk.mapFibres fun t y => if b.run.any (fun p => p.1 == t) then { y with pidx := y.pidx + 1 } else y)
      | none => answer (s.changeBank c w n m)

end Sys2Proof.Machine
end

