-- ==== Sys2Proof/Machine/Tile.lean ====
section
/-! DEFINITION. Tile operations and stationary slots: the instructions, the tile queue, and the steps that carry its
elements out (spec/10 R262 to R276, spec/04 R92 to R96, spec/20 R432 to R434). -/

namespace Sys2Proof.Machine

/-! ## Swizzles (spec/05 R115) -/

/-- The scratch address of byte c of row r. -/
def swizzleAt (code base pitch r c : Nat) : Nat :=
  match code with
  | 0 => base + r * pitch + c
  | 4 => base + r / 8 * (8 * pitch) + c / 16 * 128 + r % 8 * 16 + c % 16
  | k =>
    let w := 32 * 2 ^ k
    base + r * pitch + c / w * w + Nat.xor (c % w / 16) (r % (w / 16)) * 16 + c % 16

/-- The base and pitch meet the swizzle's requirement. -/
def swizzleOk (code base pitch : Nat) : Bool :=
  match code with
  | 0 => true
  | 4 => base % 16 == 0 && pitch % 16 == 0
  | k => k < 4 && base % (32 * 2 ^ k) == 0 && pitch % (32 * 2 ^ k) == 0

/-- The pieces of n bytes from column byte c of a row. -/
def swizzlePieces (code base pitch r c n : Nat) : List (Nat × Nat) :=
  if code = 0 then [(base + r * pitch + c, n)]
  else (rangeFrom 0 (n / 16)).map fun i => (swizzleAt code base pitch r (c + 16 * i), 16)

/-! ## Scratch as the arrays use it -/

/-- Bytes of scratch, where none of them is uncorrectable. -/
def State.readScratch (s : State) (c a n : Nat) : Option (List Byte) :=
  match s.readHome (.ofCluster c) 0 3 (.plain (.scratch c) a n) with
  | .ok r => some r.1
  | .error _ => none

def State.writeScratch (s : State) (c a : Nat) (bs : List Byte) : State :=
  match s.writeHome (.ofCluster c) 0 3 (.plain (.scratch c) a bs.length) bs with
  | .ok s' => s'
  | .error _ => s

def State.writeScratchAll (s : State) (c : Nat) (ws : List (Nat × List Byte)) : State :=
  ws.foldl (fun s w => s.writeScratch c w.1 w.2) s

/-- A tile, row or source of n bytes: its alignment and its banks (R263, R264). -/
def State.checkArea (s : State) (c w a n align : Nat) : Option (FaultCode × W64) :=
  if a % align != 0 then some (.align, BitVec.ofNat 64 a)
  else if (s.scratchBad c w a n).isSome then some (.perm, BitVec.ofNat 64 a) else none

/-! ## Format words (spec/06 R162, spec/10 R266, R273, R275) -/

def fwAf (w : Nat) : Nat := bitsOf w 3 0
def fwBf (w : Nat) : Nat := bitsOf w 7 4
def fwAcc (w : Nat) : Nat := bitsOf w 11 8
def fwRnd (w : Nat) : Nat := bitsOf w 14 12

/-- K and whether the sum is exact (R92), for a listed combination. -/
def mmaShape (w : Nat) : Option (Nat × Bool) :=
  let a := fwAf w
  let b := fwBf w
  let narrow (x : Nat) : Bool := x == 4 || x == 5
  if a == 1 && b == 1 then (if fwAcc w = 1 then some (2, false) else none)
  else if a == 0 && b == 0 then some (4, false)
  else if fwAcc w ≠ 0 then none
  else if a == 3 && b == 3 then some (16, false)
  else if a == 2 && b == 2 then some (16, true)
  else if narrow a && narrow b then some (32, true)
  else if a == 6 && b == 6 then some (64, true)
  else none

/-- No reserved bit, an accumulator format, and no code that the world's features lack (spec/11 R308). -/
def wordClean (featvec w : Nat) : Bool :=
  w < 2 ^ 15 && fwAcc w ≤ 1 && (bitOf featvec 2 || (fwAf w != 6 && fwBf w != 6))

/-- TZERO, TGET and TSTR use `ACCF` alone. -/
def accOnly (w : Nat) : Bool := fwAf w == 0 && fwBf w == 0 && fwRnd w == 0

/-- TCVT's words, for a tile of n16 panels. -/
def tcvtWord (n16 w : Nat) : Bool :=
  fwBf w == 0 && (fwAf w == 0 || (2 ≤ fwAf w && fwAf w ≤ 6)) && (fwAcc w == 0 || fwAf w == 0 || fwAf w == 2 || fwAf w == 3)
    && (fwAf w != 6 || n16 % 2 == 0)

/-- Stage 2: one word in every passing fibre, and a legal one (spec/20 R432). -/
def formatWord (r : Reg) (legal : Nat → Bool) (b : Batch) (s : State) : List (Nat × Out) :=
  match b.run with
  | [] => []
  | (_, x0) :: _ =>
    let w := x0.rd r.toNat
    if b.run.any fun p => p.2.rd r.toNat != w then faultAll b.run .formatDiverge 0
    else if !wordClean (s.featvecOf b.g) w.toNat || !legal w.toNat then faultAll b.run .illegalOp 0
    else []

/-- The accumulator format. -/
def accFmt (w : Nat) : FloatFmt := if fwAcc w = 1 then fmtF64 else fmtF32

/-- Bytes of a tile element. -/
def elemBytes (w : Nat) (iv : Bool) : Nat := (if fwAcc w = 1 then 8 else 4) * (if iv then 2 else 1)

/-- Bytes of an element of a packed format; e2m1x has its own rows. -/
def codeBytes (c : Nat) : Nat := if c = 1 then 8 else if c = 0 then 4 else if c = 2 ∨ c = 3 then 2 else 1

/-- Bytes of kt elements of a row or column, side pairs included (R264, R265). -/
def packedBytes (code kt : Nat) : Nat := if code = 6 then kt / 2 + kt / 16 else kt * codeBytes code

/-! ## Tiles -/

/-- Rows of the field `M`. -/
def tileRows (m : Nat) : Nat := 8 * 2 ^ m

/-- The address of element (r, c) of a tile (R263). -/
def elemAt (acc m r c e : Nat) : Nat := acc + ((c / 16 * tileRows m + r) * 16 + c % 16) * e

/-- A quarter with its leader and its contributors (R262). -/
structure Quarter where
  q : Nat
  slot : Nat
  leader : Fibre
  members : List (Nat × Fibre)

/-- The quarters that have passing fibres. -/
def quartersOf (run : List (Nat × Fibre)) : List Quarter :=
  (rangeFrom 0 8).filterMap fun q =>
    match run.filter fun p => p.1 / 8 == q with
    | [] => none
    | (t, x) :: m => some ⟨q, t, x, (t, x) :: m⟩

/-- The rows that a fibre owns. -/
def rowsOf (m slot : Nat) : List Nat := rangeFrom (slot % 8 * 2 ^ m) (2 ^ m)

/-- Owned rows of contributors; for an MMA with A row addresses read from the group at `arow`, and the panel that a fault
left each to be resumed from (spec/13 R341). -/
def ownedRows (m : Nat) (arow : Option Nat) (members : List (Nat × Fibre)) : List (Nat × Nat × Nat) :=
  members.flatMap fun p => (rowsOf m p.1).zipIdx.map fun r =>
    match arow with
    | some a => (r.1, (p.2.rd (a + r.2)).toNat, if p.2.parked then 0 else p.2.pidx.toNat)
    | none => (r.1, 0, 0)

/-- The first failing check of a list of areas. -/
def State.checkAreas (s : State) (c w align : Nat) (as : List (Nat × Nat)) : Option (FaultCode × W64) :=
  as.findSome? fun a => s.checkArea c w a.1 a.2 align

/-! ## Issue -/

/-- One quarter's operation, as its checks leave it: what it faults with, or the operation, the contributors' parts and the
fibres that fault alone. -/
inductive QuarterOp where
  | fault (code : FaultCode) (addr : W64)
  | op (t : TileOp) (ops : List SlotOp) (bad : List (Nat × Out))

/-- The blank operation of a quarter. -/
def blankTile (q : Nat) (leader : Fibre) (fib fw : Nat) : TileOp :=
  { quarter := q, acc := 0, fmt := fw, n16 := 0, m := 0, nega := false, negb := false, zc := false, iv := false, slot := 0,
    kcnt := 1, fuse := false, rnd := roundCode (fwRnd fw) leader.rmode, seed := leader.srseed, fib := fib, rows := [],
    p0 := 0, p1 := 0, p2 := 0, regs := [], dead := false, started := false }

/-- The tile queue of the gang's core. -/
def State.tileQueue (s : State) (g : Gang) : List TileRef := (s.core (coreNumber g.cluster g.core)).queue

/-- Queue elements entered. -/
def State.pushTile (s : State) (g : Gang) (r : TileRef) : State :=
  s.modCore (coreNumber g.cluster g.core) fun c => { c with queue := c.queue ++ [r] }

/-- The quarter operations of an issue, in order. -/
def State.enterQuarters (s : State) (b : Batch) (kind first : Nat)
    (mk : Quarter → State → QuarterOp) : List Quarter → List (Nat × Out) × State
  | [] => ([], s)
  | q :: r =>
    match mk q s with
    | .fault c a =>
      let rest := State.enterQuarters s b kind first mk r
      (faultAll q.members c a ++ rest.1, rest.2)
    | .op t ops bad =>
      let good := without q.members bad
      if ops.isEmpty then
        let rest := State.enterQuarters s b kind first mk r
        (bad ++ rest.1, rest.2)
      else
        let seq := ((s.skein b.g.key b.k).map (·.nextSeq)).getD 0
        let e := { b.entry kind q.leader with
          rnd := t.rnd, dst := first, aux := b.amask.toNat, mask := maskOf (ops.map (·.slot)), ops := ops, tile := some t,
          prog := (t.rows.map (·.2.2)).foldl min ((t.rows.head?.map (·.2.2)).getD 0) }
        let s1 := (s.addEntry b e).pushTile b.g (.op ⟨b.g.key, b.k, seq⟩)
        let rest := State.enterQuarters s1 b kind first mk r
        (bad ++ good.map (fun p => (p.1, Out.next p.2)) ++ rest.1, rest.2)

/-- The issue of a tile instruction: room in T and in the queue for all of its quarters (R269). -/
def State.issueTile (s : State) (b : Batch) (kind : Nat) (mk : Quarter → State → QuarterOp) : Result :=
  let qs := quartersOf b.run
  if b.run.isEmpty then .done [] s
  else if !b.sk.room kind qs.length || 32 < (s.tileQueue b.g).length + qs.length then .held .none s
  else
    let r := s.enterQuarters b kind b.sk.nextSeq mk qs
    .done r.1 r.2

/-- A contributor's part of an operation. -/
def tileSlot (a : Nat) (p : Nat × Fibre) : SlotOp := slotOp p.1 p.2 0 (BitVec.ofNat 64 a) [] 0 0

/-- The slot is held by the gang with at least n bytes loaded (spec/20 R434). -/
def State.slotHolds (s : State) (g : Gang) (slot n : Nat) : Bool :=
  match (s.core (coreNumber g.cluster g.core)).slots[slot]? with
  | some x => x.holder == some g.key && n ≤ x.len
  | none => false

/-- MMA (R266, R267). -/
def execMma (f : XF) (s : State) : Host.Outcome State Fault Refusal :=
  s.issueChecked (.mma f) (formatWord f.c fun w => (mmaShape w).isSome) fun b s =>
    s.issueTile b 0x18 fun q s =>
        let fw := (q.leader.rd f.c.toNat).toNat
        let kt := ((mmaShape fw).map (·.1)).getD 0 * (f.bits 5 2 + 1)
        let m := f.bits 14 13
        let n16 := f.bits 20 15
        let iv := f.bits 9 9 == 1
        let acc := (q.leader.rd f.a.toNat).toNat
        let rows := ownedRows m (some f.b.toNat) q.members
        let c := b.g.cluster
        let w := s.worldB b
        let areas := (acc, 16 * n16 * tileRows m * elemBytes fw iv) :: rows.map fun r => (r.2.1, packedBytes (fwAf fw) kt)
        match s.checkAreas c w 16 areas with
        | some x => .fault x.1 x.2
        | none =>
          if !s.slotHolds b.g (f.bits 8 6) (16 * n16 * packedBytes (fwBf fw) kt) then .fault .statSlot 0
          else
            .op { blankTile q.q q.leader (b.fibid q.slot) fw with
                acc := acc, n16 := n16, m := m, nega := f.bits 12 12 == 1, negb := f.bits 11 11 == 1, zc := f.bits 10 10 == 1,
                iv := iv, slot := f.bits 8 6, kcnt := f.bits 5 2 + 1, fuse := f.bits 1 1 == 1, rows := rows }
              (q.members.map (tileSlot acc)) []

/-- TZERO (R273). -/
def execTzero (f : XF) (s : State) : Host.Outcome State Fault Refusal :=
  s.issueChecked (.tzero f) (formatWord f.c accOnly) fun b s =>
    s.issueTile b 0x1A fun q s =>
        let fw := (q.leader.rd f.c.toNat).toNat
        let m := f.bits 14 13
        let n16 := f.bits 20 15
        let iv := f.bits 9 9 == 1
        let acc := (q.leader.rd f.a.toNat).toNat
        match s.checkArea b.g.cluster (s.worldB b) acc (16 * n16 * tileRows m * elemBytes fw iv) 16 with
        | some x => .fault x.1 x.2
        | none =>
          .op { blankTile q.q q.leader (b.fibid q.slot) fw with
              acc := acc, n16 := n16, m := m, iv := iv, rows := ownedRows m none q.members }
            (q.members.map (tileSlot acc)) []

/-- The destination of TCVT: pieces of code and side bytes of the owned rows, with the array each belongs to (R275). -/
def tcvtPieces (af n : Nat) (swz code side : Nat) (rows : List (Nat × Nat × Nat)) : List (Nat × Nat × Nat) :=
  let pitch := if af = 6 then n / 2 else n * codeBytes af
  rows.flatMap fun r =>
    (swizzlePieces swz code pitch r.1 0 pitch).map (fun p => (code, p.1, p.2))
      ++ (if af = 6 then [(side, side + r.1 * (n / 16), n / 16)] else [])

/-- TCVT (R275). -/
def execTcvt (f : XF) (s : State) : Host.Outcome State Fault Refusal :=
  s.issueChecked (.tcvt f) (formatWord f.c (tcvtWord (f.bits 20 15))) fun b s =>
    s.issueTile b 0x1B fun q s =>
        let fw := (q.leader.rd f.c.toNat).toNat
        let m := f.bits 14 13
        let n16 := f.bits 20 15
        let n := 16 * n16
        let acc := (q.leader.rd f.a.toNat).toNat
        let code := (q.leader.rd f.b.toNat).toNat
        let side := (q.leader.rd (f.b.toNat + 1)).toNat
        let swz := f.bits 4 2
        let c := b.g.cluster
        let w := s.worldB b
        let rows := ownedRows m none q.members
        let pitch := if fwAf fw = 6 then n / 2 else n * codeBytes (fwAf fw)
        match s.checkArea c w acc (n * tileRows m * elemBytes fw false) 16 with
        | some x => .fault x.1 x.2
        | none =>
          if !swizzleOk swz code pitch then .fault .align (BitVec.ofNat 64 code)
          else
            match (tcvtPieces (fwAf fw) n swz code side rows).find? fun p => (s.scratchBad c w p.2.1 p.2.2).isSome with
            | some p => .fault .perm (BitVec.ofNat 64 p.1)
            | none =>
              .op { blankTile q.q q.leader (b.fibid q.slot) fw with
                  acc := acc, n16 := n16, m := m, rows := rows, p0 := code, p1 := side, p2 := swz }
                (q.members.map (tileSlot acc)) []

/-- A span of TGET or TSTR fits the fibre's window (R274). -/
def spanFits (g : Group) (kind : CoreKind) (x : Fibre) : Bool := g.reg % g.align == 0 && ({ g with align := 1 } : Group).ok kind x.wsize

/-- TGET and TSTR at issue; `mk` makes a contributor's part and the registers it stores. -/
def moveQuarter (f : XF) (b : Batch) (get : Bool) (q : Quarter) (s : State) : QuarterOp :=
    let fw := (q.leader.rd f.c.toNat).toNat
    let m := f.bits 14 13
    let iv := f.bits 9 9 == 1
    let e := elemBytes fw iv
    let acc := (q.leader.rd f.a.toNat).toNat
    let panel := acc + f.bits 20 15 * tileRows m * 16 * e
    if acc % 16 != 0 then .fault .align (BitVec.ofNat 64 acc)
    else
      match s.checkArea b.g.cluster (s.worldB b) panel (tileRows m * 16 * e) 1 with
      | some x => .fault x.1 x.2
      | none =>
        let span (x : Fibre) := spanGroup f (!get) x
        let bad := q.members.filter fun p => !spanFits (span p.2) b.g.kind p.2
        let good := q.members.filter fun p => spanFits (span p.2) b.g.kind p.2
        .op { blankTile q.q q.leader (b.fibid q.slot) fw with
            acc := acc, m := m, iv := iv, n16 := 1, rows := ownedRows m none good, p0 := f.b.toNat, p1 := f.bits 20 15,
            p2 := f.bits 5 2 + 1,
            regs := if get then [] else good.map fun p => (p.1, p.2.rdGroup f.b.toNat (span p.2).n) }
          (good.map fun p => slotOp p.1 p.2 (p.2.place f.b.toNat) (BitVec.ofNat 64 panel) [] 0 (span p.2).n)
          (faultAll bad .regRange 0)

/-- TGET (R274). -/
def execTget (f : XF) (s : State) : Host.Outcome State Fault Refusal :=
  s.issueChecked (.tget f) (formatWord f.c accOnly) fun b s =>
    s.issueTile b 0x1C (moveQuarter f b true)

/-- TSTR (R274). -/
def execTstr (f : XF) (s : State) : Host.Outcome State Fault Refusal :=
  s.issueChecked (.tstr f) (formatWord f.c accOnly) fun b s =>
    s.issueTile b 0x1D (moveQuarter f b false)

/-! ## LDSTAT and STATREL (R270, R271) -/

/-- The stationary slot of the gang's core. -/
def State.statSlot (s : State) (g : Gang) (n : Nat) : StatSlot :=
  ((s.core (coreNumber g.cluster g.core)).slots[n]?).getD .reset

def State.setStat (s : State) (g : Gang) (n : Nat) (x : StatSlot) : State :=
  s.modCore (coreNumber g.cluster g.core) fun c => { c with slots := setAt c.slots n x }

/-- What a core's queue has loaded into a slot for a gang. -/
def Core.fill (c : Core) (n key : Nat) : Option SlotFill := c.fills.find? fun f => f.slot == n && f.gang == key

/-- The same without it, and with another. -/
def Core.dropFill (c : Core) (n key : Nat) : Core := { c with fills := c.fills.filter fun f => !(f.slot == n && f.gang == key) }

def Core.putFill (c : Core) (f : SlotFill) : Core := { c.dropFill f.slot f.gang with fills := f :: (c.dropFill f.slot f.gang).fills }

/-- What an LDSTAT reads of its lowest passing fibre: bytes to load, source, bytes of the source, global address. -/
def ldstatArgs (f : XF) (x : Fibre) : Nat × Nat × Nat × W64 :=
  let n := (f.bits 20 15 + 1) * 1024
  let sealed_ := f.bits 9 9 == 1
  (n, (x.rd f.a.toNat).toNat, (if sealed_ then n + n / 256 else n), (if sealed_ then x.pair f.b.toNat else 0))

/-- LDSTAT's checks: they fault every passing fibre. -/
def ldstatCheck (f : XF) (b : Batch) (s : State) : List (Nat × Out) :=
  match b.run with
  | [] => []
  | (_, x0) :: _ =>
    let a := ldstatArgs f x0
    let h := (s.statSlot b.g (f.bits 8 6)).holder
    if h.isSome && h != some b.g.key then faultAll b.run .statSlot 0
    else if a.2.2.2.toNat % 4096 != 0 then faultAll b.run .align a.2.2.2
    else
      match s.checkArea b.g.cluster (s.worldB b) a.2.1 a.2.2.1 16 with
      | some x => faultAll b.run x.1 x.2
      | none => []

/-- LDSTAT: the slot is held from the issue on (R434). -/
def execLdstat (f : XF) (s : State) : Host.Outcome State Fault Refusal :=
  s.issueChecked (.ldstat f) (ldstatCheck f) fun b s =>
    match b.run with
    | [] => .done [] s
    | (t0, x0) :: _ =>
      if !b.sk.room 0x19 1 || 32 < (s.tileQueue b.g).length + 1 then .held .none s
      else
        let a := ldstatArgs f x0
        let n := f.bits 8 6
        let e := { b.entry 0x19 x0 with
          ops := b.run.map (tileSlot a.2.1)
          tile := some { blankTile (t0 / 8) x0 (b.fibid t0) 0 with
            slot := n, iv := f.bits 9 9 == 1, p0 := a.2.1, p1 := a.2.2.2.toNat, p2 := a.1 } }
        let s1 := (s.addEntry b e).pushTile b.g (.op ⟨b.g.key, b.k, b.sk.nextSeq⟩)
        .done (b.each fun _ x => .next x)
          (s1.setStat b.g n ⟨some b.g.key, a.1, if f.bits 9 9 = 1 then some (a.2.2.2, a.1) else none⟩)

/-- STATREL's check. -/
def statrelCheck (f : XF) (b : Batch) (s : State) : List (Nat × Out) :=
  if (s.statSlot b.g (f.bits 8 6)).holder == some b.g.key then [] else faultAll b.run .statSlot 0

/-- STATREL: empty from its issue on; the bytes go in queue order. -/
def execStatrel (f : XF) (s : State) : Host.Outcome State Fault Refusal :=
  s.issueChecked (.statrel f) (statrelCheck f) fun b s =>
    if b.run.isEmpty then .done [] s
    else if 32 < (s.tileQueue b.g).length + 1 then .held .none s
    else
      let n := f.bits 8 6
      .done (b.each fun _ x => .next x)
        ((s.setStat b.g n .reset).pushTile b.g (.release n b.g.key))

/-! ## Passes (spec/04 R92 to R96) -/

/-- The elements of a row or column of kt elements; for e2m1x the side bytes follow the codes. -/
def packedElems (code kt : Nat) (bs : List Byte) : List FV :=
  (rangeFrom 0 kt).map fun k =>
    if code = 6 then
      let b := (bs.getD (k / 2) 0).toNat
      e2m1Value (if k % 2 = 1 then b / 16 else b % 16) (bs.getD (kt / 2 + 2 * (k / 32)) 0).toNat
        (bs.getD (kt / 2 + 2 * (k / 32) + 1) 0).toNat
    else
      match codeFloat code with
      | some fmt => fmt.read (ofBytes ((bs.drop (k * codeBytes code)).take (codeBytes code)))
      | none => .fin false 0 0

/-- Column n's bytes in the slot (R265). -/
def slotColumn (code kt nTotal n : Nat) (data : List Byte) : List Byte :=
  if code = 6 then
    (data.drop (n * (kt / 2))).take (kt / 2) ++ (data.drop (nTotal * (kt / 2) + n * (kt / 16))).take (kt / 16)
  else (data.drop (n * kt * codeBytes code)).take (kt * codeBytes code)

/-- Neighbours added, each sum rounded. -/
def treeLevel (acc : FloatFmt) (mode : Rnd) : List Ex → List Ex
  | a :: b :: r => (acc.read (acc.roundEx mode (a.add mode b))).ex :: treeLevel acc mode r
  | r => r

/-- The pairwise tree, fuel levels deep. -/
def treeSum (acc : FloatFmt) (mode : Rnd) : Nat → List Ex → Ex
  | 0, xs => (xs.head?).getD (.fin false 0 1)
  | fuel + 1, xs =>
    match xs with
    | [x] => x
    | _ => treeSum acc mode fuel (treeLevel acc mode xs)

/-- Σ of a pass: exact (R92), or products and tree rounded under a mode (R93). -/
def passSum (acc : FloatFmt) (exact : Bool) (mode tree : Rnd) (ps : List Ex) : Ex :=
  if exact then ps.foldl (fun (s : Option Ex) p => some (match s with | some x => x.add mode p | none => p)) none |>.getD (.fin false 0 1)
  else treeSum acc tree 6 (ps.map fun p => (acc.read (acc.roundEx tree p)).ex)

/-- D of a point pass. -/
def pointPass (acc : FloatFmt) (exact : Bool) (mode : Rnd) (c : Nat) (ps : List Ex) : Nat :=
  acc.roundEx mode ((acc.read c).ex.add mode (passSum acc exact mode .ne ps))

/-- A bound as an exact value. -/
def ER.toEx : ER → Ex
  | .ninf => .inf true
  | .pinf => .inf false
  | .fin q => .fin (q.num < 0) q.num.natAbs q.den

/-- A bound of an interval result; a zero is +0. -/
def boundBits (acc : FloatFmt) (mode : Rnd) (x : Ex) : Nat :=
  let n := acc.roundEx mode x
  if n % 2 ^ acc.magBits = 0 then 0 else n

def Ex.isNan : Ex → Bool
  | .nan => true
  | _ => false

/-- D of an interval pass (R95, R96) from C's bounds, infinite products and sums as IEEE arithmetic has them. -/
def ivPass (acc : FloatFmt) (exact : Bool) (c : Nat × Nat) (ps : List Ex) : Nat × Nat :=
  let lo := (acc.read c.1).ex.add .dn (passSum acc exact .ne .dn ps)
  let hi := (acc.read c.2).ex.add .up (passSum acc exact .ne .up ps)
  if Ex.isNan lo || Ex.isNan hi then (acc.withSign true acc.infCode, acc.infCode)
  else (boundBits acc .dn lo, boundBits acc .up hi)

/-- The products of one pass: elements sK to sK + K − 1 of a row and a column. -/
def passProducts (k s : Nat) (nega negb : Bool) (a b : List FV) : List Ex :=
  List.zipWith (fun (x y : FV) =>
      let ex (n : Bool) (v : FV) : Ex := if n then v.ex.neg else v.ex
      (ex nega x).mul (ex negb y)) ((a.drop (s * k)).take k) ((b.drop (s * k)).take k)

/-- A point element through all passes (R94). -/
def pointElem (acc : FloatFmt) (exact : Bool) (mode : Rnd) (k kcnt : Nat) (t : TileOp) (a b : List FV) (c : Nat) : Nat :=
  (rangeFrom 0 kcnt).foldl (fun c s => pointPass acc exact mode c (passProducts k s t.nega t.negb a b)) c

/-- An interval element through all passes; none where C as read is empty.  Between passes the bounds are as IEEE arithmetic has them, and
what is written is not empty (spec/04 R87, R96; notes/assumptions/110). -/
def ivElem (acc : FloatFmt) (exact : Bool) (k kcnt : Nat) (t : TileOp) (a b : List FV) (c : Nat × Nat) : Option (Nat × Nat) :=
  (acc.readIv c.1 c.2).map fun iv =>
    acc.nonEmpty ((rangeFrom 0 kcnt).foldl (fun c s => ivPass acc exact c (passProducts k s t.nega t.negb a b))
      (acc.roundER .dn iv.lo, acc.roundER .up iv.hi))

/-! ## Units -/

/-- What a unit of an operation comes to. -/
inductive UnitOut where
  | writes (ws : List (Nat × List Byte))
  | empty
  | bad

/-- Results of a list collected, the first failure ending it. -/
def collectUnit : List UnitOut → UnitOut
  | [] => .writes []
  | .writes ws :: r =>
    match collectUnit r with
    | .writes ws' => .writes (ws ++ ws')
    | x => x
  | x :: _ => x

/-- One element of MMA's panel. -/
def State.mmaElem (s : State) (c : Nat) (t : TileOp) (shape : Nat × Bool) (row : Nat) (a b : List FV) (col : Nat) : UnitOut :=
  let acc := accFmt t.fmt
  let e := elemBytes t.fmt t.iv
  let at_ := elemAt t.acc t.m row col e
  match if t.zc then some (List.replicate e 0) else s.readScratch c at_ e with
  | none => .bad
  | some bs =>
    if t.iv then
      let h := e / 2
      match ivElem acc shape.2 shape.1 t.kcnt t a b (ofBytes (bs.take h), ofBytes (bs.drop h)) with
      | none => .empty
      | some v => .writes [(at_, bytesOf h v.1 ++ bytesOf h v.2)]
    else
      let mode := Rnd.ofCode t.rnd (stochRandom t.seed.toNat t.fib (row * (16 * t.n16) + col))
      .writes [(at_, bytesOf e (pointElem acc shape.2 mode shape.1 t.kcnt t a b (ofBytes bs)))]

/-- MMA's panel unit (R268). -/
def State.mmaUnit (s : State) (c : Nat) (t : TileOp) (data : List Byte) (panel : Nat) : UnitOut :=
  let shape := (mmaShape t.fmt).getD (0, false)
  let kt := shape.1 * t.kcnt
  let cols := (rangeFrom (16 * panel) 16).map fun n =>
    (n, packedElems (fwBf t.fmt) kt (slotColumn (fwBf t.fmt) kt (16 * t.n16) n data))
  collectUnit ((t.rows.filter fun r => r.2.2 ≤ panel).map fun r =>
    match s.readScratch c r.2.1 (packedBytes (fwAf t.fmt) kt) with
    | none => .bad
    | some bs =>
      let a := packedElems (fwAf t.fmt) kt bs
      collectUnit (cols.map fun n => s.mmaElem c t shape r.1 a n.2 n.1))

/-- TZERO's panel unit. -/
def zeroUnit (t : TileOp) (panel : Nat) : UnitOut :=
  let e := elemBytes t.fmt t.iv
  .writes (t.rows.flatMap fun r => (rangeFrom (16 * panel) 16).map fun c => (elemAt t.acc t.m r.1 c e, List.replicate e 0))

/-- The tile's elements of a row as points, columns c to c + n − 1. -/
def State.tilePoints (s : State) (c : Nat) (t : TileOp) (row col n : Nat) : Option (List FV) :=
  let e := elemBytes t.fmt false
  (rangeFrom col n).mapM fun k => (s.readScratch c (elemAt t.acc t.m row k e) e).map fun bs => (accFmt t.fmt).read (ofBytes bs)

/-- Bytes of a row from column byte `at_` on, under the swizzle. -/
def swizzled (code base pitch row at_ : Nat) (bs : List Byte) : List (Nat × List Byte) :=
  bs.zipIdx.map fun p => (swizzleAt code base pitch row (at_ + p.2), [p.1])

/-- The sixteen code bytes of a block. -/
def blockBytes (k : Block) : List Byte :=
  (rangeFrom 0 16).map fun i => BitVec.ofNat 8 (k.codes.getD (2 * i) 0 % 16 + 16 * (k.codes.getD (2 * i + 1) 0 % 16))

/-- TCVT's unit; a block of e2m1x is written with its second panel (R81, R275). -/
def State.cvtUnit (s : State) (c : Nat) (t : TileOp) (panel : Nat) : UnitOut :=
  let n := 16 * t.n16
  let af := fwAf t.fmt
  if af = 6 then
    if panel % 2 = 0 then .writes []
    else
      collectUnit (t.rows.map fun r =>
        match s.tilePoints c t r.1 (16 * (panel - 1)) 32 with
        | none => .bad
        | some xs =>
          let k := encodeBlock xs
          .writes (swizzled t.p2 t.p0 (n / 2) r.1 (8 * (panel - 1)) (blockBytes k)
            ++ [(t.p1 + r.1 * (n / 16) + (panel - 1), [BitVec.ofNat 8 k.scale, BitVec.ofNat 8 k.extra])]))
  else
    match codeFloat af with
    | none => .writes []
    | some fmt =>
      let e := codeBytes af
      collectUnit (t.rows.map fun r =>
        match s.tilePoints c t r.1 (16 * panel) 16 with
        | none => .bad
        | some xs =>
          .writes (swizzled t.p2 t.p0 (n * e) r.1 (16 * panel * e)
            (xs.zipIdx.flatMap fun p =>
              let i := r.1 * n + (16 * panel + p.2)
              let mode := Rnd.ofCode t.rnd (stochRandom t.seed.toNat t.fib i)
              bytesOf e (fmt.roundEx mode p.1.ex))))

/-- The elements that a fibre's slot moves, in register order: rows then columns. -/
def moveElems (t : TileOp) (slot : Nat) : List Nat :=
  (rowsOf t.m slot).flatMap fun r => (rangeFrom 0 t.p2).map fun c => elemAt t.acc t.m r (16 * t.p1 + c) (elemBytes t.fmt t.iv)

/-- TSTR's unit. -/
def storeUnit (t : TileOp) : UnitOut :=
  let e := elemBytes t.fmt t.iv
  .writes (t.regs.flatMap fun p => (moveElems t p.1).zipIdx.map fun a =>
    (a.1, ((p.2.drop (a.2 * (e / 4))).take (e / 4)).flatMap fun (v : W32) => bytesOf 4 v.toNat))

/-! ## The queue carried out -/

/-- The head of a core's queue. -/
def State.tileHead (s : State) (core : Nat) : Option TileRef := (s.core core).queue.head?

def State.popTile (s : State) (core : Nat) : State := s.modCore core fun c => { c with queue := c.queue.drop 1 }

/-- A tile operation changed in its entry. -/
def State.modTile (s : State) (id : EntryId) (f : TileOp → TileOp) : State :=
  s.modSkein id.gang id.skein fun sk => sk.modEntry id.seq fun e => { e with tile := e.tile.map f }

/-- Fusing marks (R269): the same slot, format, shape and mode. -/
def fuseKey (t : TileOp) : Option (Nat × Nat × Nat × Nat × Nat × Bool) :=
  if t.fuse then some (t.slot, t.fmt, t.m, t.n16, t.kcnt, t.iv) else none

/-- The earlier stores of the issuing skein to scratch are performed (R276). -/
def tileReady (sk : Skein) (e : Entry) : Bool :=
  sk.record.all fun x => e.seq ≤ x.seq || !storeLike x.kind || x.ops.all fun o =>
    o.performed || o.parts.all fun p => match p.home with | .scratch _ => false | _ => true

/-- The operations behind a started one that fuse with it. -/
def State.startGroup (s : State) (key : Nat × Nat × Nat × Nat × Nat × Bool) : List TileRef → State
  | .op id :: r =>
    match s.located id with
    | some (_, sk, e) =>
      if (e.tile.bind fuseKey) == some key && tileReady sk e then
        State.startGroup (s.modTile id fun t => { t with started := true }) key r
      else s
    | none => s
  | _ => s

/-- TILE_OP_START: the next element of a core's queue starts; a release empties its slot's bytes at once; an element whose
gang is gone leaves the queue. -/
def State.startTile (s : State) (core : Nat) : State :=
  match s.tileHead core with
  | none => s
  | some (.release n k) => (s.popTile core).modCore core fun c => c.dropFill n k
  | some (.op id) =>
    match s.located id with
    | none => s.popTile core
    | some (_, sk, e) =>
      match e.tile with
      | none => s.popTile core
      | some t =>
        if t.started || !tileReady sk e then s
        else
          let s1 := s.modTile id fun t => { t with started := true }
          match fuseKey t with
          | some k => s1.startGroup k ((s1.core core).queue.drop 1)
          | none => s1

/-- The core of a name, for tile operations. -/
def tileCore (c : CoreId) : Nat := coreNumber c.cluster c.core

/-- TILE_OP_START. -/
def execTileOpStart (c : CoreId) (s : State) : Host.Outcome State Fault Refusal := .next (s.startTile (tileCore c)).clearTried

/-- An operation over: its contributors' parts are done, T falls, the queue moves on. -/
def State.endTile (s : State) (core : Nat) (id : EntryId) : State :=
  let s1 := s.modSkein id.gang id.skein fun sk =>
    sk.modEntry id.seq fun e => { e with ops := e.ops.map fun o => { o with stage := if o.complete then o.stage else .done } }
  (s1.popTile core).closeId id

/-- The quarters of one interval MMA: when all are decided, the contributors of those that met an empty C fault together at
the instruction (R267, spec/19 R417). -/
def State.settleMma (s : State) (gk k first : Nat) : State :=
  match s.skein gk k with
  | none => s
  | some sk =>
    let es := sk.record.filter fun e => e.kind == 0x18 && e.dst == first
    let failed := es.filter fun e => e.ops.any fun o => match o.stage with | .failed _ => true | _ => false
    if failed.isEmpty || es.any (fun e => e.ops.any fun o => !o.complete) then s
    else
      let rs := failed.flatMap fun e => e.ops.map fun o => (e, o)
      let s1 := rs.foldl (fun (s : State) p =>
        s.modSkein gk k fun y => y.modUid p.2.uid fun x =>
          { x with pc := p.1.pc, iopx := p.1.iopx, pidx := BitVec.ofNat 32 p.1.prog }) s
      let s2 := failed.foldl (fun (s : State) e => s.modSkein gk k fun y => y.dropEntry e.seq) s1
      s2.takeFaults gk k (BitVec.ofNat 64 ((failed.head?.map (·.aux)).getD 0)) (rs.map fun p => ⟨p.2.slot, .emptyInterval, 0, false⟩)

/-- An operation that ends with an imprecise record; the other quarters of its MMA may be decided by it. -/
def State.failTile (s : State) (core : Nat) (id : EntryId) (g : Gang) (e : Entry) (code : FaultCode) (addr : W64) : State :=
  let s1 := (s.writeRecord (s.impreciseRecord g id.skein e code addr e.mask (srcWord 2 g.cluster g.core 0 0))).endTile core id
  if e.kind = 0x18 then s1.settleMma id.gang id.skein e.dst else s1

/-- An empty C element: the quarter's contributors fault, its earlier panels stay. -/
def State.emptyTile (s : State) (core : Nat) (id : EntryId) (e : Entry) : State :=
  let s1 := s.modSkein id.gang id.skein fun sk =>
    (sk.modEntry id.seq fun x => { x with ops := x.ops.map fun o => { o with stage := .failed .emptyInterval } }).releaseCount id.seq
  (s1.popTile core).settleMma id.gang id.skein e.dst

/-- One contributor's TGET: its registers written, or its part failed until a consumer comes (spec/19 R424). -/
def State.getSlot (s : State) (c : Nat) (id : EntryId) (t : TileOp) (o : SlotOp) : State :=
  let e := elemBytes t.fmt t.iv
  match (moveElems t o.slot).mapM fun a => s.readScratch c a e with
  | some bss =>
    (s.modSkein id.gang id.skein fun sk => sk.modUid o.uid fun x =>
      x.wrPlaces o.dst (bss.flatMap fun bs => wordsOf (e / 4) (ofBytes bs))).putOp id { o with stage := .done }
  | none => s.putOp id { o with stage := .failed .eccUncorr }

/-- The chunks of a sealed object opened under the world's model key: the plaintext, or the first chunk that fails (R270). -/
def openChunks (key : BitVec 128) (va : Nat) (ct tags : List Byte) : Nat → Nat → Except Nat (List Byte)
  | 0, _ => .ok []
  | n + 1, i =>
    match gcmOpen key.toNat ((va + 4096 * i) % 2 ^ 56 * 2 ^ 40) [] ((ct.drop (4096 * i)).take 4096) ((tags.drop (16 * i)).take 16) with
    | none => .error i
    | some pt =>
      match openChunks key va ct tags n (i + 1) with
      | .error j => .error j
      | .ok r => .ok (pt ++ r)

/-- A sealed image opened; without a model key nothing authenticates. -/
def State.openSealed (s : State) (w va len : Nat) (bs : List Byte) : Except Nat (List Byte) :=
  match (s.world w).modelKey with
  | none => .error 0
  | some key => openChunks key va (bs.take len) (bs.drop len) (len / 4096) 0

/-- A range of any length read by an agent; the first failure ends it. -/
def State.readRange (s : State) (v : Access) : Nat → Nat → Nat → Checked (List Byte)
  | 0, _, _ => .ok [] s
  | fuel + 1, a, n =>
    if n = 0 then .ok [] s else
    let k := firstLen a n
    match s.agentRead v a k with
    | .ok bs s1 =>
      match State.readRange s1 v fuel ((a + k) % 2 ^ 64) (n - k) with
      | .ok r s2 => .ok (bs ++ r) s2
      | x => x
    | x => x

/-- A sealed object of a resumed gang decrypted again from its global image (R272); it waits for a host translation. -/
def State.reopen (s : State) (g : Gang) (f : SlotFill) : State :=
  match f.data, f.origin with
  | none, some (a, len) =>
    if f.bad then s else
    let put (s : State) (f : SlotFill) : State := s.modCore (coreNumber g.cluster g.core) fun c => c.putFill f
    match s.readRange ⟨g.ctx, s.worldOf g, s.featvecOf g, g.cluster, 5⟩ 4 a.toNat (len + len / 256) with
    | .ok bs s1 =>
      match s1.openSealed (s.worldOf g) a.toNat len bs with
      | .ok d => put s1 { f with data := some d }
      | .error _ => put s1 { f with bad := true }
    | .fault _ _ s1 => put s1 { f with bad := true }
    | .wait s1 => s1
  | _, _ => s

/-- One unit of the operation at the head of a core's queue. -/
def State.tileUnit (s : State) (core : Nat) : State :=
  match s.tileHead core with
  | some (.op id) =>
    match s.located id with
    | none => s
    | some (g, _, e) =>
      match e.tile with
      | none => s
      | some t =>
        if !t.started || e.kind = 0x19 then s
        else if e.kind = 0x1C then
          let s1 := e.ops.foldl (fun (s : State) o => s.getSlot g.cluster id t o) s
          let s2 : State :=
            match s1.skein id.gang id.skein with
            | some sk => s1.reportUnconsumed g id.skein sk ((e.ops.filter fun o => !sk.live.any fun p => p.2.uid == o.uid).map (·.uid))
            | none => s1
          (s2.popTile core).closeId id
        else
          let s := match if e.kind = 0x18 then (s.core core).fill t.slot g.key else none with
            | some f => s.reopen g f
            | none => s
          let fill := (s.core core).fill t.slot g.key
          if e.kind = 0x18 ∧ (t.dead || fill.any (·.bad)) = true then s.failTile core id g e .macFail (BitVec.ofNat 64 t.acc)
          else if e.kind = 0x18 ∧ fill.any (·.data.isNone) = true then s
          else
            let out :=
              if e.kind = 0x18 then s.mmaUnit g.cluster t ((fill.bind (·.data)).getD []) e.prog
              else if e.kind = 0x1A then zeroUnit t e.prog
              else if e.kind = 0x1B then s.cvtUnit g.cluster t e.prog
              else storeUnit t
            match out with
            | .empty => s.emptyTile core id e
            | .bad => s.failTile core id g e .eccUncorr (BitVec.ofNat 64 t.acc)
            | .writes ws =>
              let passes := if e.kind = 0x18 then 2 ^ t.m * t.kcnt * (if t.iv && fwAf t.fmt ≤ 3 && fwAf t.fmt != 2 then 2 else 1) else 0
              let s1 := (s.writeScratchAll g.cluster ws).modSkein id.gang id.skein fun sk =>
                sk.modEntry id.seq fun x => { x with prog := x.prog + 1 }
              let s2 := if passes = 0 then s1 else s1.addCounter g 18 passes
              if e.prog + 1 < t.n16 then s2
              else if e.kind = 0x18 then (s2.endTile core id).settleMma id.gang id.skein e.dst
              else s2.endTile core id
  | _ => s

/-- TILE_PANEL_UNIT. -/
def execTilePanelUnit (c : CoreId) (s : State) : Host.Outcome State Fault Refusal := .next (s.tileUnit (tileCore c)).clearTried

/-! ## Filling a slot -/

/-- The MMAs queued behind a failed load of a slot, up to the slot's next load or release. -/
def State.deadBehind (s : State) (slot : Nat) : List TileRef → List EntryId
  | [] => []
  | .release n _ :: r => if n = slot then [] else State.deadBehind s slot r
  | .op id :: r =>
    match (s.located id).bind fun q => q.2.2.tile.map fun t => (q.2.2.kind, t.slot) with
    | some (kind, n) =>
      if n = slot ∧ kind = 0x19 then []
      else if n = slot ∧ kind = 0x18 then id :: State.deadBehind s slot r
      else State.deadBehind s slot r
    | none => State.deadBehind s slot r

/-- The slot is loaded or released again by what is queued behind. -/
def State.slotTaken (s : State) (slot : Nat) (q : List TileRef) : Bool :=
  q.any fun r =>
    match r with
    | .release n _ => n == slot
    | .op id => ((s.located id).bind fun q => q.2.2.tile.map fun t => q.2.2.kind == 0x19 && t.slot == slot).getD false

/-- LDSTAT_FILL_DONE: the head of the queue, an LDSTAT that has started, fills its slot; a chunk that fails empties it. -/
def State.fillSlot (s : State) (core : Nat) : State :=
  match s.tileHead core with
  | some (.op id) =>
    match s.located id with
    | none => s
    | some (g, _, e) =>
      match e.tile with
      | none => s
      | some t =>
        if !t.started || e.kind != 0x19 then s
        else
          let n := if t.iv then t.p2 + t.p2 / 256 else t.p2
          match s.readScratch g.cluster t.p0 n with
          | none => s.failTile core id g e .eccUncorr (BitVec.ofNat 64 t.p0)
          | some bs =>
            let put (d : List Byte) : State :=
              (s.modCore core fun c => c.putFill ⟨t.slot, g.key, some d, if t.iv then some (BitVec.ofNat 64 t.p1, t.p2) else none, false⟩).endTile core id
            if !t.iv then put bs
            else
              match s.openSealed (s.worldOf g) t.p1 t.p2 bs with
              | .ok d => put d
              | .error i =>
                let behind := (s.core core).queue.drop 1
                let s1 := (s.deadBehind t.slot behind).foldl (fun (s : State) j => s.modTile j fun t => { t with dead := true }) s
                let s2 := s1.modCore core fun c =>
                  let c := c.dropFill t.slot g.key
                  if s.slotTaken t.slot behind then c
                  else { c with slots := modifyAt c.slots t.slot fun x => if x.holder = some g.key then .reset else x }
                s2.failTile core id g e .macFail (BitVec.ofNat 64 (t.p1 + 4096 * i))
  | _ => s

/-- LDSTAT_FILL_DONE. -/
def execLdstatFillDone (c : CoreId) (s : State) : Host.Outcome State Fault Refusal := .next (s.fillSlot (tileCore c)).clearTried

end Sys2Proof.Machine
end

