-- ==== Sys2Proof/Machine/Copy.lean ====
section
/-! DEFINITION. The copy engine: copy commands, layout records, bursts and stamps; and the cluster event queue (spec/10 R278
to R287, spec/20 R435, spec/15 R385). -/

namespace Sys2Proof.Machine

/-! ## Layout records (R278, R279) -/

/-- Bytes of an element of a format code (spec/04 R72). -/
def fmtBytes (c : Nat) : Nat :=
  if c = 1 ∨ c = 9 ∨ c = 10 then 8 else if c = 0 ∨ c = 7 ∨ c = 8 then 4 else if c = 2 ∨ c = 3 ∨ c = 11 ∨ c = 12 then 2 else 1

/-- A layout record as read. -/
structure Layout where
  base : Nat
  efmt : Nat
  rank : Nat
  swz : Nat
  sealf : Bool
  cvten : Bool
  oobm : Nat
  cvtf : Nat
  ovr : Nat
  lpitch : Nat
  oobv : Nat
  sizes : List Nat
  strides : List Nat
  boxes : List Nat
  /-- Every reserved field is zero. -/
  clean : Bool

def Layout.ofBytes (bs : List Byte) : Layout :=
  let flags := fieldAt bs 0x0B 1
  let cv := fieldAt bs 0x0C 1
  { base := fieldAt bs 0 8, efmt := fieldAt bs 8 1 % 16, rank := fieldAt bs 9 1, swz := fieldAt bs 0x0A 1 % 8,
    sealf := bitOf flags 0, cvten := bitOf flags 1, oobm := bitsOf flags 3 2, cvtf := cv % 16, ovr := bitsOf cv 6 4,
    lpitch := fieldAt bs 0x10 4, oobv := fieldAt bs 0x14 4,
    sizes := (rangeFrom 0 8).map fun d => fieldAt bs (0x18 + 4 * d) 4
    strides := (rangeFrom 0 8).map fun d => fieldAt bs (0x38 + 5 * d) 5
    boxes := (rangeFrom 0 8).map fun d => fieldAt bs (0x60 + 2 * d) 2
    clean := fieldAt bs 8 1 < 16 && fieldAt bs 0x0A 1 < 8 && flags < 16 && cv < 128 && fieldAt bs 0x0D 3 == 0
      && fieldAt bs 0x70 16 == 0 }

/-- The landed format and its element size. -/
def Layout.landed (r : Layout) : Nat := if r.cvten then r.cvtf else r.efmt
def Layout.lsize (r : Layout) : Nat := fmtBytes r.landed
def Layout.box0 (r : Layout) : Nat := r.boxes.getD 0 0
def Layout.pitch (r : Layout) : Nat := if r.lpitch = 0 then r.box0 * r.lsize else r.lpitch
def Layout.rows (r : Layout) : Nat := ((r.boxes.take r.rank).drop 1).foldl (· * ·) 1
def Layout.payload (r : Layout) : Nat := r.rows * r.pitch

/-- The record passes R279's checks for landings at the addresses given. -/
def Layout.ok (r : Layout) (landings : List Nat) : Bool :=
  r.clean && 1 ≤ r.rank && r.rank ≤ 8 && r.efmt != 6 && r.efmt != 15 && r.oobm != 3
    && !(r.oobm == 1 && 7 ≤ r.landed)
    && ((rangeFrom 0 8).all fun d =>
      let size := r.sizes.getD d 0
      let box := r.boxes.getD d 0
      let stride := r.strides.getD d 0
      if d < r.rank then size != 0 && box != 0 && stride % fmtBytes r.efmt == 0 else size == 0 && box == 0 && stride == 0)
    && (!r.cvten || (r.efmt ≤ 5 && r.cvtf ≤ 5))
    && (r.lpitch == 0 || r.box0 * r.lsize ≤ r.lpitch)
    && (landings.all fun a => swizzleOk r.swz a r.pitch)
    && (!r.sealf || (r.efmt == 14 && r.rank == 1 && !r.cvten && r.swz == 0 && r.oobm == 0 && r.box0 % 4096 == 0))

/-! ## Issue (R280 to R282, R285) -/

/-- The flags of a copy word, bits 12:5 of it. -/
def copyFlags (f : XF) : Nat := f.bits 12 1
def flagStamp (x : Nat) : Bool := bitOf x 11
def flagAcq (x : Nat) : Bool := bitOf x 10
def flagRel (x : Nat) : Bool := bitOf x 9
/-- `DIR` of COPY, or the source space of COPYL. -/
def flagOut (x : Nat) : Bool := bitOf x 5
/-- The destination space of COPYL and CFILL. -/
def flagDst (x : Nat) : Bool := bitOf x 4

/-- A command as captured at issue. -/
def copyCmd (b : Batch) (t : Nat) (x : Fibre) (a c : W64) (stamp : W64) (n : Nat) : CopyCmd :=
  { slot := t, uid := x.uid, a := a, b := c, stamp := stamp, n := n, pattern := 0, coords := [], receivers := [],
    stampsDone := [], seed := x.srseed, fib := b.fibid t, rmode := x.rmode, record := [], started := false, prog := 0,
    ended := false, burst := [], landed := [] }

/-- Commands issued: one entry, C raised once, the commands waiting for channels in order. -/
def State.issueCopies (s : State) (b : Batch) (kind : Nat) (f : XF) (mk : Nat → Fibre → Except (FaultCode × W64) CopyCmd) : Result :=
  match b.run with
  | [] => .done [] s
  | (_, x0) :: _ =>
    if !b.sk.room kind 1 then .held .none s
    else
      let made := b.run.map fun p => (p, mk p.1 p.2)
      let good := made.filterMap fun q => match q.2 with | .ok c => some (q.1, c) | .error _ => none
      let outs := made.map fun q => match q.2 with
        | .ok _ => (q.1.1, Out.next q.1.2)
        | .error e => (q.1.1, Out.fault e.1 e.2)
      if good.isEmpty then .done outs s
      else
        let flags := copyFlags f
        let n := if b.g.kind = .handle then s.takeCsn b.g else (0, s)
        let t := if flagStamp flags then n.2.takeTag b.g else ((0 : W64), n.2)
        let e := { b.entry kind x0 with
          aop := n.1, scope := f.bits 9 7, acquire := flagAcq flags, release := flagRel flags, mask := maskOf (good.map (·.1.1)),
          tag := t.1, aux := flags, rnd := x0.rmode,
          ops := good.map fun q => slotOp q.1.1 q.1.2 0 q.2.a [] 0 0
          copies := good.map (·.2) }
        let id : EntryId := ⟨b.g.key, b.k, b.sk.nextSeq⟩
        .done outs ((t.2.addEntry b e).modCluster b.g.cluster fun c =>
          { c with copyWait := c.copyWait ++ good.map fun q => .entry id q.1.1 })

/-- The coordinates of COPY and COPYM. -/
def copyCoords (f : XF) (x : Fibre) : List W32 := x.rdGroup f.b.toNat 8

/-- A record address is a multiple of 128 (R285). -/
def recordAligned (a : W64) : Bool := a.toNat % 128 == 0

/-- COPY (R280). -/
def execCopy (f : XF) (s : State) : Host.Outcome State Fault Refusal :=
  s.issueWith (.copy f) fun b s =>
    s.issueCopies b 0x10 f fun t x =>
      let a := x.pair f.a.toNat
      if !recordAligned a then .error (.align, a)
      else
        .ok { copyCmd b t x a (BitVec.ofNat 64 (x.rd (f.bits 20 13)).toNat) (x.pair f.c.toNat) (x.rd (f.bits 20 13)).toNat with
          coords := copyCoords f x, receivers := [(b.g.key, 0)] }

/-- The gangs that a core mask names; none where a bit names none (R281). -/
def State.maskGangs (s : State) (g : Gang) (mask : Nat) : Option (List Nat) :=
  let gs := (s.spanGangs g).filter fun h => h.cluster == g.cluster
  ((rangeFrom 0 16).filter fun i => bitOf mask i).mapM fun i => (gs.find? fun h => h.core == i).map (·.key)

/-- COPYM (R281). -/
def execCopym (f : XF) (s : State) : Host.Outcome State Fault Refusal :=
  s.issueWith (.copym f) fun b s =>
    s.issueCopies b 0x11 f fun t x =>
      let a := x.pair f.a.toNat
      let mask := (x.rd (f.bits 20 13 + 1)).toNat
      if !recordAligned a then .error (.align, a)
      else
        match if mask = 0 ∨ 65536 ≤ mask then none else s.maskGangs b.g mask with
        | none => .error (.perm, BitVec.ofNat 64 mask)
        | some gs =>
          .ok { copyCmd b t x a (x.pair (f.bits 20 13)) (x.pair f.c.toNat) (x.rd (f.bits 20 13)).toNat with
            coords := copyCoords f x, receivers := gs.map fun k => (k, 0) }

/-- COPYL (R282). -/
def execCopyl (f : XF) (s : State) : Host.Outcome State Fault Refusal :=
  s.issueWith (.copyl f) fun b s =>
    s.issueCopies b 0x12 f fun t x =>
      .ok (copyCmd b t x (x.pair f.a.toNat) (x.pair f.b.toNat) (x.pair f.c.toNat) (x.rd (f.bits 20 13)).toNat)

/-- CFILL (R282). -/
def execCfill (f : XF) (s : State) : Host.Outcome State Fault Refusal :=
  s.issueWith (.cfill f) fun b s =>
    s.issueCopies b 0x13 f fun t x =>
      .ok { copyCmd b t x 0 (x.pair f.a.toNat) (x.pair f.c.toNat) (x.rd (f.bits 20 13)).toNat with pattern := x.rd f.b.toNat }

/-! ## Scratch as the engine sees it -/

/-- A scratch range of a world: beyond the space XLATE at its end, outside the world's banks PERM (R435). -/
def State.engineScratch (s : State) (c w a n : Nat) : Option (FaultCode × W64) :=
  if n = 0 then none
  else if 2 ^ 24 < a + n then some (.xlate, BitVec.ofNat 64 (max a (2 ^ 24)))
  else (s.scratchBad c w a n).map fun x => (.perm, BitVec.ofNat 64 x)

/-- n bytes of a space. -/
def State.spaceRead (s : State) (v : Access) (scratch : Bool) (a n : Nat) : Checked (List Byte) :=
  if !scratch then s.agentRead v a n
  else
    match s.engineScratch v.cluster v.world a n with
    | some e => .fault e.1 e.2 s
    | none =>
      match s.readScratch v.cluster a n with
      | some bs => .ok bs s
      | none => .fault .eccUncorr (BitVec.ofNat 64 a) s

/-- A range read in pieces of at most a page. -/
def State.readLong (s : State) (v : Access) (scratch : Bool) : Nat → Nat → Nat → Checked (List Byte)
  | 0, _, _ => .ok [] s
  | fuel + 1, a, n =>
    if n = 0 then .ok [] s else
    let k := firstLen a n
    match s.spaceRead v scratch a k with
    | .fault _ _ s1 => .ok [] s1
    | .wait s1 => .wait s1
    | .ok bs s1 =>
      match State.readLong s1 v scratch fuel (a + k) (n - k) with
      | .ok r s2 => .ok (bs ++ r) s2
      | x => x

/-- Pieces of scratch written in a gang's cluster, after all of them are checked. -/
def State.landPieces (s : State) (c w : Nat) (ws : List (Nat × List Byte)) : Except (FaultCode × W64) State :=
  match ws.findSome? fun p => s.engineScratch c w p.1 p.2.length with
  | some e => .error e
  | none => .ok (s.writeScratchAll c ws)

/-- Writes to a space. -/
def State.spaceWrites (s : State) (v : Access) (scratch : Bool) (ws : List (Nat × List Byte)) : Checked (Option W64) :=
  if !scratch then s.agentWrites v ws
  else
    match s.landPieces v.cluster v.world ws with
    | .ok s1 => .ok none s1
    | .error e => .fault e.1 e.2 s

/-- The page of an address is sealed. -/
def State.sealedPage (s : State) (ctx va : Nat) : Bool :=
  match s.leafOf ctx va with
  | .ok (t, _) => leafSeal t.bits
  | .error _ => false

/-- The first byte of a range, by its pages, whose page's `SEAL` is not the one wanted. -/
def State.sealMismatch (s : State) (ctx va n : Nat) (want : Bool) : Option Nat :=
  ((cutAt (2 ^ 18) 3 va n).find? fun p => s.sealedPage ctx p.1 != want).map (·.1)

/-- The first byte that a copy of n bytes would take from a sealed page to one that is not (R282), as an address of the destination. -/
def State.unseals (s : State) (ctx src dst n : Nat) : Option Nat :=
  let starts := 0 :: ((cutAt (2 ^ 18) 3 src n).map fun p => p.1 - src) ++ (cutAt (2 ^ 18) 3 dst n).map fun p => p.1 - dst
  let bad := starts.filter fun i => i < n && s.sealedPage ctx (src + i) && !s.sealedPage ctx (dst + i)
  bad.head?.map fun i => dst + bad.foldl min i

/-! ## Bursts (R280, R284) -/

/-- The elements of burst j: row and index within the row; the first byte of each lies in the burst. -/
def Layout.elements (r : Layout) (j : Nat) : List (Nat × Nat) :=
  let p := r.pitch
  let z := r.lsize
  let first := 256 * j / p
  (rangeFrom first ((256 * j + 255) / p + 1 - first)).flatMap fun row =>
    if r.rows ≤ row then []
    else
      let lo := (256 * j - row * p + (z - 1)) / z
      let hi := min r.box0 ((256 * j + 256 - row * p + (z - 1)) / z)
      (rangeFrom lo (hi - lo)).map fun i => (row, i)

/-- The box indices of an element, first dimension first. -/
def unravel : List Nat → Nat → List Nat
  | [], _ => []
  | b :: r, n => n % b :: unravel r (n / b)

/-- The global address of an element, where it lies within the tensor. -/
def Layout.source (r : Layout) (coords : List W32) (row i0 : Nat) : Option Nat :=
  let idx := i0 :: unravel ((r.boxes.take r.rank).drop 1) row
  let xs := (idx.zip coords).map fun p => (p.2.toInt + p.1 : Int)
  let ok := (xs.zip r.sizes).all fun p => 0 ≤ p.1 && p.1 < p.2
  if ok then some ((r.base + ((xs.zip r.strides).map fun p => p.1.toNat * p.2).sum) % 2 ^ 64) else none

/-- An element converted between two formats, with the command's rounding (R280). -/
def Layout.cvt (r : Layout) (c : CopyCmd) (dst src row i0 v : Nat) : Nat :=
  if !r.cvten then v
  else
    let mode := Rnd.ofCode (roundCode r.ovr c.rmode) (stochRandom c.seed.toNat c.fib (row * r.box0 + i0))
    convert mode Fmode.clear dst src false false false v

/-- What fills an element outside the tensor. -/
def Layout.fill (r : Layout) : Nat :=
  if r.oobm = 1 then ((codeFloat r.landed).map FloatFmt.nanBits).getD 0 else if r.oobm = 2 then r.oobv % 2 ^ (8 * r.lsize) else 0

/-- The landed bytes of a burst's elements, in order (DIR 0). -/
def State.gather (s : State) (v : Access) (r : Layout) (c : CopyCmd) : List (Nat × Nat) → Checked (List ((Nat × Nat) × List Byte))
  | [] => .ok [] s
  | (row, i0) :: es =>
    let one : Checked (List Byte) :=
      match r.source c.coords row i0 with
      | none => .ok (bytesOf r.lsize r.fill) s
      | some a =>
        match s.agentRead v a (fmtBytes r.efmt) with
        | .ok bs s1 =>
          match s1.sealMismatch v.ctx a (fmtBytes r.efmt) r.sealf with
          | some x => .fault .perm (BitVec.ofNat 64 x) s1
          | none => .ok (bytesOf r.lsize (r.cvt c r.cvtf r.efmt row i0 (ofBytes bs))) s1
        | x => x
    match one with
    | .fault e a s1 => .fault e a s1
    | .wait s1 => .wait s1
    | .ok bs s1 =>
      match State.gather s1 v r c es with
      | .ok q s2 => .ok (((row, i0), bs) :: q) s2
      | .fault e a s2 => .fault e a s2
      | .wait s2 => .wait s2

/-- Where an element lies in scratch. -/
def Layout.landAt (r : Layout) (landing row i0 : Nat) : Nat := swizzleAt r.swz landing r.pitch row (i0 * r.lsize)

/-- A burst landed at receivers. -/
def State.landAll (s : State) (w : Nat) (r : Layout) (els : List ((Nat × Nat) × List Byte)) :
    List (Nat × Nat) → Except (FaultCode × W64) State
  | [] => .ok s
  | (gk, landing) :: rest =>
    match s.gang gk with
    | none => State.landAll s w r els rest
    | some h =>
      match s.landPieces h.cluster w (els.map fun e => (r.landAt landing e.1.1 e.1.2, e.2)) with
      | .error e => .error e
      | .ok s1 => State.landAll s1 w r els rest

/-- The global writes of a burst (DIR 1). -/
def State.scatter (s : State) (v : Access) (r : Layout) (c : CopyCmd) (landing : Nat) :
    List (Nat × Nat) → Except (FaultCode × W64) (List (Nat × List Byte))
  | [] => .ok []
  | (row, i0) :: es =>
    let at_ := r.landAt landing row i0
    match s.engineScratch v.cluster v.world at_ r.lsize with
    | some e => .error e
    | none =>
      match s.readScratch v.cluster at_ r.lsize with
      | none => .error (.eccUncorr, BitVec.ofNat 64 at_)
      | some bs =>
        match State.scatter s v r c landing es with
        | .error e => .error e
        | .ok q =>
          match r.source c.coords row i0 with
          | none => .ok q
          | some a => .ok ((a, bytesOf (fmtBytes r.efmt) (r.cvt c r.efmt r.cvtf row i0 (ofBytes bs))) :: q)

/-- How many bursts a command has. -/
def cmdBursts (kind : Nat) (c : CopyCmd) : Nat :=
  if kind ≤ 0x11 then ((Layout.ofBytes c.record).payload + 255) / 256 else (c.n + 255) / 256

/-- Receivers, by number, at which the burst under way is still to land; one that has its stamp has had its last (R284). -/
def CopyCmd.unlanded (c : CopyCmd) : List (Nat × Nat) :=
  (c.receivers.zipIdx.filter fun p => !c.landed.contains p.2 && !c.stampsDone.contains p.2).map (·.1)

/-- The elements of the burst under way: as they were read, or read now; each source element is read once (R281). -/
def State.burstData (s : State) (v : Access) (c : CopyCmd) : Checked (List ((Nat × Nat) × List Byte)) :=
  let r := Layout.ofBytes c.record
  if c.burst.isEmpty then s.gather v r c (r.elements c.prog) else .ok c.burst s

/-- One burst of a command, or what is left of it. -/
def State.burst (s : State) (v : Access) (kind flags : Nat) (c : CopyCmd) : Checked (Option W64) :=
  if kind ≤ 0x11 then
    let r := Layout.ofBytes c.record
    let els := r.elements c.prog
    if flagOut flags then
      match s.scatter v r c ((c.receivers.head?.map (·.2)).getD 0) els with
      | .error e => .fault e.1 e.2 s
      | .ok ws => s.agentWrites v ws
    else
      match s.burstData v c with
      | .fault e a s1 => .fault e a s1
      | .wait s1 => .wait s1
      | .ok q s1 =>
        match s1.landAll v.world r q c.unlanded with
        | .ok s2 => .ok none s2
        | .error e => .fault e.1 e.2 s1
  else
    let off := 256 * c.prog
    let n := min 256 (c.n - off)
    let dst := (c.b.toNat + off) % 2 ^ 64
    if kind = 0x13 then
      s.spaceWrites v (flagDst flags) [(dst, (rangeFrom off n).map fun j => BitVec.ofNat 8 (c.pattern.toNat / 256 ^ (j % 4)))]
    else
      let src := (c.a.toNat + off) % 2 ^ 64
      let held := (c.record.drop off).take n
      let data : Checked (List Byte) := if held.length = n then .ok held s else s.spaceRead v (flagOut flags) src n
      match data with
      | .fault e a s1 => .fault e a s1
      | .wait s1 => .wait s1
      | .ok bs s1 =>
        match if flagOut flags || flagDst flags then none else s1.unseals v.ctx src dst n with
        | some x => .fault .perm (BitVec.ofNat 64 x) s1
        | none => s1.spaceWrites v (flagDst flags) [(dst, bs)]

/-! ## Commands started and ended -/

/-- A command of an entry. -/
def Entry.copy (e : Entry) (slot : Nat) : Option CopyCmd := e.copies.find? fun c => c.slot == slot

def State.modCopy (s : State) (id : EntryId) (slot : Nat) (f : CopyCmd → CopyCmd) : State :=
  s.modSkein id.gang id.skein fun sk => sk.modEntry id.seq fun e =>
    { e with copies := e.copies.map fun c => if c.slot = slot then f c else c }

/-- What a command accesses memory under. -/
def State.copyAccess (s : State) (g : Gang) (e : Entry) : Access :=
  ⟨g.ctx, s.worldOf g, s.featvecOf g, g.cluster, e.scope⟩

/-- A command ends: its channel is free, and C falls with the issue's last command. -/
def State.endCopy (s : State) (id : EntryId) (slot cluster : Nat) : State :=
  let s1 := (s.modCopy id slot fun c => { c with ended := true }).modSkein id.gang id.skein fun sk =>
    sk.modEntry id.seq fun e => { e with ops := e.ops.map fun o => if o.slot = slot then { o with stage := .done } else o }
  (s1.modCluster cluster fun c =>
    { c with channels := c.channels.filter fun p => p.2 != .entry id slot
             copyWait := c.copyWait.filter fun r => r != .entry id slot }).closeId id

/-- A command ends with an imprecise record (R285). -/
def State.failCopy (s : State) (id : EntryId) (slot cluster channel : Nat) (g : Gang) (e : Entry) (code : FaultCode) (addr : W64) : State :=
  (s.writeRecord (s.impreciseRecord g id.skein e code addr (maskOf [slot]) (srcWord 1 cluster channel 0 0))).endCopy id slot cluster

/-- A free channel. -/
def Cluster.freeChannel (c : Cluster) : Option Nat := (rangeFrom 0 16).find? fun n => (tget c.channels n).isNone

/-- The command reads scratch: COPY out, or a COPYL whose source lies there. -/
def readsScratch (e : Entry) : Bool := (e.kind ≤ 0x11 || e.kind == 0x12) && flagOut e.aux

/-- A command may start: its acquire has nothing to wait for (spec/05 R131), and where it reads scratch the earlier stores of the skein to
scratch are performed (R276). -/
def copyReady (sk : Skein) (e : Entry) (c : CopyCmd) : Bool :=
  (!e.acquire || sk.settled e.seq c.uid) && (!readsScratch e || tileReady sk e)

/-- A command put on a channel: its record read, as far as it is not read yet, and checked, its landings computed (R435). -/
def State.beginCopy (s : State) (id : EntryId) (slot cluster channel : Nat) (g : Gang) (e : Entry) (c : CopyCmd) : State :=
  let v := s.copyAccess g e
  let put (s : State) (rec_ : List Byte) (rs : List (Nat × Nat)) : State :=
    (s.modCopy id slot fun c => { c with started := true, record := rec_, receivers := rs }).modCluster cluster fun k =>
      { k with channels := tset k.channels channel (.entry id slot), copyWait := k.copyWait.filter fun r => r != .entry id slot }
  if e.kind ≤ 0x11 then
    match s.agentRead v (c.a.toNat + c.record.length) (128 - c.record.length) with
    | .wait s1 => s1
    | .fault code a s1 => s1.failCopy id slot cluster channel g e code a
    | .ok rest s1 =>
      let bs := c.record ++ rest
      let rs := c.receivers.map fun r => (r.1, (((s1.gang r.1).map (·.lbase)).getD 0 + c.n) % 2 ^ 24)
      if (Layout.ofBytes bs).ok (rs.map (·.2)) then put s1 bs rs
      else s1.failCopy id slot cluster channel g e .tlrBad c.a
  else if e.kind = 0x12 then
    match s.readLong v (flagOut e.aux) (c.n / 2 ^ 18 + 2) c.a.toNat c.n with
    | .ok bs s1 => put s1 bs []
    | .wait s1 => s1
    | .fault _ _ s1 => s1
  else put s [] []

/-- Two commands are of one skein. -/
def sameSkein : CopyRef → CopyRef → Bool
  | .entry a _, .entry b _ => a.gang == b.gang && a.skein == b.skein
  | _, _ => false

/-- The first waiting command that can start: none earlier of its skein is passed over (R283). -/
def State.startable (s : State) : List CopyRef → List CopyRef → Option CopyRef
  | _, [] => none
  | passed, r :: rest =>
    let ok :=
      match r with
      | .packet _ _ _ _ _ _ => true
      | .entry id slot =>
        !passed.any (sameSkein r) &&
          match s.located id with
          | none => false
          | some (_, sk, e) => (e.copy slot).any (copyReady sk e)
    if ok then some r else State.startable s (r :: passed) rest

/-- COPY_COMMAND_START in a cluster. -/
def State.startCopy (s : State) (cluster : Nat) : State :=
  let k := s.cluster cluster
  match k.freeChannel, s.startable [] k.copyWait with
  | some n, some (.entry id slot) =>
    match s.located id with
    | none => s
    | some (g, _, e) =>
      match e.copy slot with
      | some c => s.beginCopy id slot cluster n g e c
      | none => s
  | some n, some (.packet w q num src dst count) =>
    s.modCluster cluster fun k =>
      { k with
        channels := tset k.channels n (.packet w q num src dst count)
        copyWait := k.copyWait.filter fun r => r != .packet w q num src dst count
        packetProg := k.packetProg ++ [(w, q, num, 0)] }
  | _, _ => s

/-- A 16-byte unit of the record of the command that starts next is read before the others: the engine reads eight of them, one by one
(R435). -/
def State.recordUnit (s : State) (cluster : Nat) : State :=
  let k := s.cluster cluster
  match k.freeChannel, s.startable [] k.copyWait with
  | some _, some (.entry id slot) =>
    match s.located id with
    | none => s
    | some (g, _, e) =>
      match e.copy slot with
      | none => s
      | some c =>
        if 0x11 < e.kind ∨ 112 ≤ c.record.length then s
        else
          match s.agentRead (s.copyAccess g e) (c.a.toNat + c.record.length) 16 with
          | .ok bs s1 => s1.modCopy id slot fun x => { x with record := x.record ++ bs }
          | _ => s
  | _, _ => s

/-- COPY_COMMAND_START. -/
def execCopyCommandStart (cluster : Nat) (s : State) : Host.Outcome State Fault Refusal := .next (s.startCopy cluster).clearTried

/-- Where each receiver's stamp lies: its number, the access, whether in scratch, and the address (R280, R282). -/
def State.stampPlaces (s : State) (v : Access) (e : Entry) (c : CopyCmd) : List (Nat × Access × Bool × Nat) :=
  if e.kind ≤ 0x11 then
    c.receivers.zipIdx.map fun p =>
      (p.2, { v with cluster := ((s.gang p.1.1).map (·.cluster)).getD v.cluster }, true, roundUpTo 8 (p.1.2 + (Layout.ofBytes c.record).payload))
  else [(0, v, flagDst e.aux, roundUpTo 8 (c.b.toNat + c.n) % 2 ^ 64)]

/-- The home of a stamp's tag; a stamp in host memory has none. -/
def State.stampHome (s : State) (v : Access) (scratch : Bool) (a : Nat) : Option (Nat × Nat) :=
  if scratch then some (1, v.cluster)
  else
    match s.checkOnce v.ctx v.world v.fv .engineWrite a 8 1 with
    | .ok r _ => (r.2.head?).bind fun p => if p.home == .host then none else some (s.tagPlace p)
    | _ => none

/-- One receiver's stamp, written once: its tag says whether it was (R284); a home that is full holds it (spec/13 R336). -/
def State.stampOne (s : State) (id : EntryId) (e : Entry) (c : CopyCmd) (p : Nat × Access × Bool × Nat) : Checked (Option W64) :=
  let n := p.1
  let v := p.2.1
  let a := p.2.2.2
  let done (s : State) : State := s.modCopy id c.slot fun c => { c with stampsDone := n :: c.stampsDone }
  if c.stampsDone.contains n then .ok none s
  else if (findTag s.tags e.tag c.slot (BitVec.ofNat 64 a)).isSome then .ok none (done s)
  else
    let home := s.stampHome v p.2.2.1 a
    let s0 := match home with
      | some h => s.evictTags h 1
      | none => s
    if home.any fun h => !s0.tagRoom h 1 then .wait s0 else
    match s0.spaceWrites v p.2.2.1 [(a, bytesOf 8 c.stamp.toNat)] with
    | .ok w s1 =>
      .ok w (match home with
        | some h => { done s1 with tags := s1.tags ++ [⟨e.tag, c.slot, BitVec.ofNat 64 a, h.1, 0, h.2, false⟩] }
        | none => done s1)
    | x => x

/-- The stamps that a command still owes, receiver by receiver; the first watched address hit, if any. -/
def State.stampAll (s : State) (id : EntryId) (e : Entry) (c : CopyCmd) : List (Nat × Access × Bool × Nat) → Checked (Option W64)
  | [] => .ok none s
  | p :: r =>
    match s.stampOne id e c p with
    | .ok h s1 =>
      match State.stampAll s1 id e c r with
      | .ok h' s2 => .ok (h.or h') s2
      | x => x
    | x => x

/-- A page that an address lies on is reached through a port. -/
def State.atPort (s : State) (ctx a : Nat) : Bool :=
  (findTlb s.tlb ctx (bitsOf a 55 18)).any fun t => leafHost t.bits || leafRem t.bits

/-- `ACKC` raised for what the engine writes to host or fabric memory; once, until its acknowledgement returns (spec/03 R64). -/
def State.oweAck (s : State) (id : EntryId) (ctx a n : Nat) : State :=
  if n != 0 && (s.atPort ctx a || s.atPort ctx (a + n - 1)) then
    s.modSkein id.gang id.skein fun sk =>
      match sk.entry id.seq with
      | some e => if e.acked then { sk.modEntry id.seq fun x => { x with acked := false } with ackc := sk.ackc + 1 } else sk
      | none => sk
  else s

/-- A stamp: a release of what the gang and its engine did; where it lies is not followed. -/
def State.ordStamp (s : State) (g : Gang) : State := s.ordering g fun x => x.publish g [(8, 0, 0)]

/-! ## The order checker's view of a command (spec/15 R386) -/

/-- The granules of device memory that a range of a context's addresses lies in, through the translations held. -/
def State.ordRange (s : State) (ctx w a n : Nat) : List (Nat × Nat) :=
  (rangeFrom (a / 16) ((a + n - 1) / 16 + 1 - a / 16)).filterMap fun j =>
    match findTlb s.tlb ctx (bitsOf (16 * j) 55 18) with
    | some t =>
      if leafHost t.bits || leafRem t.bits || (leafOrd t.bits == 2 && !leafDev t.bits) then none
      else some (ordHome .dev * 2 ^ 60 + absAddr (partOfWorld w) (t.pa + (bitsOf (16 * j) 55 0 - t.page * 2 ^ 18)) / 16, 16 * j)
    | none => none

/-- What a burst touches in global memory: address, bytes, and whether it writes. -/
def State.burstTouches (s : State) (v : Access) (kind flags : Nat) (c : CopyCmd) : List (Nat × Nat × Bool) :=
  if kind ≤ 0x11 then
    let r := Layout.ofBytes c.record
    let els := r.elements c.prog
    if flagOut flags then
      match s.scatter v r c ((c.receivers.head?.map (·.2)).getD 0) els with
      | .ok ws => ws.map fun p => (p.1, p.2.length, true)
      | .error _ => []
    else els.filterMap fun p => (r.source c.coords p.1 p.2).map fun a => (a, fmtBytes r.efmt, false)
  else
    let off := 256 * c.prog
    let n := min 256 (c.n - off)
    (if flagDst flags then [] else [((c.b.toNat + off) % 2 ^ 64, n, true)])
      ++ (if kind = 0x13 ∨ flagOut flags = true then [] else [((c.a.toNat + off) % 2 ^ 64, n, false)])

/-- A burst's accesses checked and entered. -/
def State.ordBurst (s : State) (g : Gang) (e : Entry) (c : CopyCmd) : State :=
  if s.checking (s.partOfCluster g.cluster) then
    (s.burstTouches (s.copyAccess g e) e.kind e.aux c).foldl (fun (s : State) t =>
      if t.2.1 = 0 then s
      else s.ordPerform g (s.ordAccess g e c.uid t.2.2 false) (!t.2.2) false false (s.ordRange g.ctx (s.worldOf g) t.1 t.2.1) true) s
  else s

/-- A command whose bursts have all landed: stamps, and the end.  Its release waits at system scope for every acknowledgement of the skein's
earlier operations and of its own writes (spec/05 R131, R133). -/
def State.finishCopy (s : State) (id : EntryId) (slot cluster channel : Nat) : State :=
  match s.located id with
  | none => s
  | some (g, sk, e) =>
    match e.copy slot with
    | none => s
    | some c =>
      if c.prog < cmdBursts e.kind c then s
      else if !flagStamp e.aux then s.endCopy id slot cluster
      else if e.release && ((e.scope == 5 && !(sk.acked e.seq && e.acked)) || (4 ≤ e.scope && s.dirtyHeld cluster)) then s
      else
        let s0 := (if e.release && 4 ≤ e.scope then s.writeBackAll cluster else s).ordStamp g
        let ps := s0.stampPlaces (s0.copyAccess g e) e c
        match s0.stampAll id e c ps with
        | .wait s1 => s1
        | .fault code a s1 => s1.failCopy id slot cluster channel g e code a
        | .ok none s1 => (ps.foldl (fun s p => if p.2.2.1 then s else s.oweAck id g.ctx p.2.2.2 8) s1).endCopy id slot cluster
        | .ok (some a) s1 => s1.failCopy id slot cluster channel g e .watch a

/-- `ACKC` for what a burst wrote. -/
def State.ackBurst (s : State) (id : EntryId) (g : Gang) (e : Entry) (c : CopyCmd) : State :=
  (s.burstTouches (s.copyAccess g e) e.kind e.aux c).foldl (fun s t => if t.2.2 then s.oweAck id g.ctx t.1 t.2.1 else s) s

/-- One burst of a command on a channel. -/
def State.copyStep (s : State) (id : EntryId) (slot cluster channel : Nat) : State :=
  match s.located id with
  | none => s
  | some (g, sk, e) =>
    match e.copy slot with
    | none => s
    | some c =>
      if c.prog < cmdBursts e.kind c then
        if e.acked && 1023 ≤ sk.ackc then s else
        match s.burst (s.copyAccess g e) e.kind e.aux c with
        | .wait s1 => s1
        | .fault code a s1 => s1.failCopy id slot cluster channel g e code a
        | .ok (some a) s1 => (s1.ackBurst id g e c).failCopy id slot cluster channel g e .watch a
        | .ok none s1 =>
          (((s1.ordBurst g e c).ackBurst id g e c).modCopy id slot fun c =>
            { c with prog := c.prog + 1, burst := [], landed := [] }).finishCopy id slot cluster channel
      else s.finishCopy id slot cluster channel

/-- The burst under way on a channel lands at one receiver before the others, whose own stamp follows its last one where the command has no
release (R281, spec/05 R140). -/
def State.landOne (s : State) (cluster channel receiver : Nat) : State :=
  match tget (s.cluster cluster).channels channel with
  | some (.entry id slot) =>
    match s.located id with
    | none => s
    | some (g, _, e) =>
      match e.copy slot with
      | none => s
      | some c =>
        let r := Layout.ofBytes c.record
        let v := s.copyAccess g e
        if 0x11 < e.kind || flagOut e.aux || cmdBursts e.kind c ≤ c.prog || c.landed.contains receiver || c.stampsDone.contains receiver then s
        else
          match c.receivers[receiver]?, s.burstData v c with
          | none, _ => s
          | _, .wait s1 => s1
          | _, .fault code a s1 => s1.failCopy id slot cluster channel g e code a
          | some dest, .ok q s1 =>
            match s1.landAll v.world r q [dest] with
            | .error x => s1.failCopy id slot cluster channel g e x.1 x.2
            | .ok s2 =>
              let s3 := s2.modCopy id slot fun c => { c with burst := q, landed := receiver :: c.landed }
              if c.prog + 1 = cmdBursts e.kind c && flagStamp e.aux && !e.release then
                match s3.stampAll id e c ((s3.stampPlaces v e c).filter fun p => p.1 == receiver) with
                | .ok _ s4 => s4
                | _ => s3
              else s3
  | _ => s

/-- A queue's COPY packet leaves its channel. -/
def State.forgetPacketCopy (s : State) (cluster channel w q num : Nat) : State :=
  s.modCluster cluster fun k =>
    { k with channels := tdel k.channels channel
             packetProg := k.packetProg.filter fun p => !(p.1 == w && p.2.1 == q && p.2.2.1 == num) }

/-- It completes; a completion counter whose translation is still to come keeps it on the channel. -/
def State.endPacketCopy (s : State) (cluster channel w q num : Nat) (add : Bool) : State :=
  let r := s.completePacket w q num add
  if r.1 then r.2.forgetPacketCopy cluster channel w q num else r.2

/-- It ends with an imprecise record (R285). -/
def State.failPacketCopy (s : State) (cluster channel w q num : Nat) (code : FaultCode) (a : W64) : State :=
  match (s.queue w q).live.find? fun p => p.number == num with
  | some p =>
    (s.writeRecord
      { code := code, imp := true, stake := false, guest := false, iopx := 0, term := false, world := w, skg := 0xF0, eqid := 0,
        pc := p.addr, pc2 := 0, fmask := 0, amask := srcWord 1 cluster channel 0 0, addr := a, hcpc := p.hcpc,
        csn := p.csn, ctx := s.worldCtx w, cluster := cluster }).endPacketCopy cluster channel w q num false
  | none => s.forgetPacketCopy cluster channel w q num

/-- A packet's copy as a command, prog bursts done. -/
def packetCmd (src dst : W64) (count prog : Nat) : CopyCmd :=
  { slot := 0, uid := 0, a := src, b := dst, stamp := 0, n := count, pattern := 0, coords := [], receivers := [], stampsDone := [],
    seed := 0, fib := 0, rmode := 0, record := [], started := true, prog := prog, ended := false, burst := [], landed := [] }

/-- Bursts of a packet's copy that are done. -/
def Cluster.packetBursts (k : Cluster) (w q num : Nat) : Nat :=
  (k.packetProg.findSome? fun p => if p.1 = w ∧ p.2.1 = q ∧ p.2.2.1 = num then some p.2.2.2 else none).getD 0

/-- One burst of a queue's COPY packet (spec/12 R313). -/
def State.packetStep (s : State) (cluster channel w q num : Nat) (src dst : W64) (count : Nat) : State :=
  let prog := (s.cluster cluster).packetBursts w q num
  if 256 * prog < count then
    match s.burst (s.worldAccess w cluster) 0x12 0 (packetCmd src dst count prog) with
    | .wait s1 => s1
    | .fault code a s1 => s1.failPacketCopy cluster channel w q num code a
    | .ok (some a) s1 => s1.failPacketCopy cluster channel w q num .watch a
    | .ok none s1 =>
      let s2 := s1.modCluster cluster fun k =>
        { k with packetProg := k.packetProg.map fun p =>
            if p.1 = w ∧ p.2.1 = q ∧ p.2.2.1 = num then (w, q, num, prog + 1) else p }
      if 256 * (prog + 1) < count then s2 else s2.endPacketCopy cluster channel w q num true
  else s.endPacketCopy cluster channel w q num true

/-- COPY_BURST on a channel of a cluster. -/
def execCopyBurst (cluster channel : Nat) (s : State) : Host.Outcome State Fault Refusal :=
  .next (match tget (s.cluster cluster).channels channel with
    | some (.entry id slot) => s.copyStep id slot cluster channel
    | some (.packet w q num src dst count) => s.packetStep cluster channel w q num src dst count
    | none => s).clearTried

/-! ## The cluster event queue (R286, R287) -/

/-- The source word of a fibre's post. -/
def eventSource (g : Gang) (k slot : Nat) : W32 :=
  if g.kind = .handle then BitVec.ofNat 32 (packFields [(4, g.core), (1, 1)])
  else BitVec.ofNat 32 (packFields [(4, g.core), (1, 0), (4, g.gangid), (4, k), (6, slot)])

/-- EVPOST: the batch waits for room, behind the world's held posts; a release at cluster scope. -/
def execEvpost (f : XF) (s : State) : Host.Outcome State Fault Refusal :=
  s.issueWith (.evpost f) fun b s =>
    let w := s.worldB b
    let c := s.cluster b.g.cluster
    if b.run.isEmpty then .done [] s
    else if !b.releasing then .held .none s
    else if c.heldOf w != 0 || !c.eventRoom w b.run.length then .held .evpost s
    else
      .done (b.each fun _ x => .next x) ((s.modCluster b.g.cluster fun c =>
        { c with events := c.events ++ b.run.map fun p =>
            ⟨w, p.2.rd f.b.toNat, eventSource b.g b.k p.1, p.2.pair f.a.toNat⟩ }).ordering b.g fun x => x.publish b.g [(7, 0, 0)])

/-- The oldest n events of a world, and the queue without them. -/
def takeEvents (w : Nat) : Nat → List Event → List Event × List Event
  | 0, es => ([], es)
  | _, [] => ([], [])
  | n + 1, e :: r =>
    if e.world = w then
      let q := takeEvents w n r
      (e :: q.1, q.2)
    else
      let q := takeEvents w (n + 1) r
      (q.1, e :: q.2)

/-- EVPOP (R286). -/
def execEvpop (f : XF) (s : State) : Host.Outcome State Fault Refusal :=
  s.issueWith (.evpop f) fun b s =>
    let w := s.worldB b
    let c := s.cluster b.g.cluster
    if b.run.isEmpty then .done [] s
    else if eventsOf w c.events < b.run.length then .held .evpop s
    else
      let q := takeEvents w b.run.length c.events
      .done ((b.run.zip q.1).map fun p =>
          (p.1.1, .next (p.1.2.wrGroup f.a.toNat [p.2.tag, p.2.source, BitVec.ofNat 32 p.2.payload.toNat,
            BitVec.ofNat 32 (p.2.payload.toNat / 2 ^ 32)])))
        ((s.modCluster b.g.cluster fun c => { c with events := q.2 }).ordering b.g fun x => x.obtain b.g fun k => k == (7, 0, 0))

/-- The world's oldest held post enters the queue when there is room, and the EVENT packet that made it completes (R287, spec/12 R313). -/
def State.enterHeld (s : State) (cluster w : Nat) : State :=
  let c := s.cluster cluster
  if !c.eventRoom w 1 then s
  else
    match c.held.find? fun e => e.world == w with
    | none => s
    | some e =>
      let s1 := s.modCluster cluster fun c => { c with events := c.events ++ [e.toEvent], held := c.held.erase e }
      match e.packet with
      | some p => s1.closePacket w p.1 p.2
      | none => s1

/-- HELD_POST_ENTER. -/
def execHeldPostEnter (cluster world : Nat) (s : State) : Host.Outcome State Fault Refusal :=
  .next (s.enterHeld cluster world).clearTried

end Sys2Proof.Machine
end

