-- ==== Sys2Proof/Machine/Launch.lean ====
section
/-! DEFINITION. Launches: descriptors and equivalence tables, the grid queue, the placement of spans, refills from spawn
pools, the end of grids (spec/12 R315 to R319, spec/10 R288, spec/02 R42 to R44, R55, spec/11 R291, R302, R308). -/

namespace Sys2Proof.Machine

/-! ## The descriptor (R315) -/

def LaunchDesc.ofBytes (bs : List Byte) : LaunchDesc :=
  let f := fieldAt bs
  let flags := f 0x22 1
  { rimg := BitVec.ofNat 64 (f 0x00 8), simg := BitVec.ofNat 64 (f 0x08 8), eqtab := BitVec.ofNat 64 (f 0x10 8),
    eqcnt := f 0x18 4, width := f 0x1C 1, rregs := f 0x1D 1, sregs := f 0x1E 1, pers := f 0x1F 1 % 16, gangsk := f 0x20 1,
    spang := f 0x21 1, start := bitOf flags 0, det := bitOf flags 1, gprio := bitsOf flags 3 2, fibs := f 0x24 4,
    gx := f 0x28 4, gy := f 0x2C 4, gz := f 0x30 4, scrfp := f 0x34 4, scrbase := f 0x38 4, spcap := f 0x3C 4,
    spbase := f 0x40 8, argp := BitVec.ofNat 64 (f 0x48 8) }

/-- Spans of the grid; the kind and registers it starts with; the bytes of a span's footprint and the banks it covers. -/
def LaunchDesc.spans (d : LaunchDesc) : Nat := d.gx * d.gy * d.gz
def LaunchDesc.kind (d : LaunchDesc) : CoreKind := if d.start then .stake else .rand
def LaunchDesc.regs (d : LaunchDesc) : Nat := if d.start then d.sregs else d.rregs
def LaunchDesc.footBytes (d : LaunchDesc) : Nat := d.spang * d.scrfp
def LaunchDesc.footBanks (d : LaunchDesc) : List Nat :=
  if d.footBytes = 0 then []
  else rangeFrom (d.scrbase / 2 ^ 18) ((d.scrbase + d.footBytes - 1) / 2 ^ 18 + 1 - d.scrbase / 2 ^ 18)

/-- A register count within the limits of an image. -/
def regsOk (n most : Nat) : Bool := 8 ≤ n && n ≤ most && n % 8 == 0

/-- Reserved bytes and the limits that R315 and R317 state for the fields by themselves. -/
def LaunchDesc.fieldsOk (d : LaunchDesc) (bs : List Byte) : Bool :=
  fieldAt bs 0x1F 1 < 16 && fieldAt bs 0x22 1 < 16 && fieldAt bs 0x23 1 == 0 && ((bs.drop 0x50).all (· == 0))
    && d.eqtab.toNat % 8 == 0 && d.eqcnt ≤ 4096 && (d.width == 32 || d.width == 64) && regsOk d.rregs 64
    && (if d.simg = 0 then d.sregs == 0 && !d.start && d.eqcnt == 0 else regsOk d.sregs 240)
    && 1 ≤ d.gangsk && d.gangsk ≤ 16 && 1 ≤ d.spang && d.spang ≤ 12 && (!d.start || d.spang ≤ 4)
    && 1 ≤ d.fibs && d.fibs ≤ d.gangsk * d.width
    && 1 ≤ d.gx && d.gx ≤ 2 ^ 24 && 1 ≤ d.gy && d.gy ≤ 2 ^ 24 && 1 ≤ d.gz && d.gz ≤ 65536
    && d.scrfp % 8 == 0 && d.scrbase % 8 == 0 && d.scrbase < 2 ^ 24 && d.scrbase + d.footBytes ≤ 2 ^ 24
    && d.spbase % 16 == 0 && d.gangsk ≤ residencyLimit d.kind && d.gangsk * d.width * d.regs ≤ 131072

/-- The table of a personality bound to a world in a cluster; the canonical personality needs none (R291, spec/08 R238). -/
def State.boundTable (s : State) (c w pers : Nat) : Option WeaveTable :=
  if (s.cluster c).bindings.contains (pers, w) then s.weaveTable c pers else none

/-- The cluster can run the personality at the width (R291, R302). -/
def State.admits (s : State) (c w pers width : Nat) : Bool :=
  pers == 0 || (s.boundTable c w pers).any fun t => t.field 0x06 1 == 0 || t.field 0x06 1 == width

/-- What R317 asks of the world: its features (R308), its bank limits (spec/05 R114), and a cluster that can take the grid. -/
def State.launchable (s : State) (w fv : Nat) (d : LaunchDesc) : Bool :=
  (!d.start || bitOf fv 3) && (d.pers == 0 || bitOf fv 4) && (!d.det || bitOf fv 7)
    && d.footBanks.length ≤ bitsOf (s.world w).banklim.toNat 6 0 && d.footBanks.length ≤ 56
    && (s.clustersOf (partOfWorld w)).any fun c => s.admits c w d.pers d.width

/-! ## The equivalence table (R316) -/

/-- A map entry is in range and aligned for its kind. -/
def mapOk (d : LaunchDesc) (m : Nat) : Bool :=
  let k := bitsOf m 17 16
  let n := 2 ^ k
  let r := m % 256
  let t := bitsOf m 15 8
  m < 2 ^ 18 && k != 3 && r % n == 0 && t % n == 0 && r + n ≤ d.rregs && t + n ≤ d.sregs

/-- Map entries of an equivalence point; none where one breaks R317. -/
def mapsOf (d : LaunchDesc) : List Byte → Nat → Option (List (Nat × Nat × Nat))
  | _, 0 => some []
  | bs, n + 1 =>
    let m := ofBytes (bs.take 4)
    if mapOk d m then (mapsOf d (bs.drop 4) n).map fun r => (m % 256, bitsOf m 15 8, bitsOf m 17 16) :: r else none

/-- One equivalence point; none where it breaks R316 or R317. -/
def State.readPoint (s : State) (v : Access) (d : LaunchDesc) (i : Nat) : Checked (Option EqPoint) :=
  let base := d.eqtab.toNat
  match s.readRange v 2 ((base + 32 * i) % 2 ^ 64) 32 with
  | .fault c a s1 => .fault c a s1
  | .wait s1 => .wait s1
  | .ok bs s1 =>
    let f := fieldAt bs
    let n := f 4 2
    match s1.readRange v 3 ((base + f 0x18 4) % 2 ^ 64) (4 * n) with
    | .fault c a s2 => .fault c a s2
    | .wait s2 => .wait s2
    | .ok ms s2 =>
      let clean := f 0 4 < 2 ^ 26 && f 6 2 == 0 && f 0x1C 4 == 0
      .ok ((mapsOf d ms n).bind fun maps =>
        if clean then some ⟨f 0 4, BitVec.ofNat 64 (f 8 8), BitVec.ofNat 64 (f 0x10 8), maps⟩ else none) s2

/-- n equivalence points from point i on. -/
def State.readPoints (s : State) (v : Access) (d : LaunchDesc) : Nat → Nat → Checked (List (Option EqPoint))
  | 0, _ => .ok [] s
  | n + 1, i =>
    match s.readPoint v d i with
    | .fault c a s1 => .fault c a s1
    | .wait s1 => .wait s1
    | .ok p s1 =>
      match State.readPoints s1 v d n (i + 1) with
      | .ok r s2 => .ok (p :: r) s2
      | x => x

/-- Strictly ascending ids. -/
def ascending : List EqPoint → Bool
  | a :: b :: r => a.eqid < b.eqid && ascending (b :: r)
  | _ => true

/-- A launch read and checked (R317): the code of a failing read, LAUNCH_BAD, or the descriptor and its table. -/
def State.readLaunch (s : State) (v : Access) (a : Nat) : Checked (LaunchDesc × List EqPoint) :=
  match s.readRange v 2 a 256 with
  | .fault c x s1 => .fault c x s1
  | .wait s1 => .wait s1
  | .ok bs s1 =>
    let d := LaunchDesc.ofBytes bs
    if !d.fieldsOk bs || !s1.launchable v.world v.fv d then .fault .launchBad (BitVec.ofNat 64 a) s1
    else
      match s1.readPoints v d d.eqcnt 0 with
      | .fault c x s2 => .fault c x s2
      | .wait s2 => .wait s2
      | .ok ps s2 =>
        match ps.mapM id with
        | some eq => if ascending eq then .ok (d, eq) s2 else .fault .launchBad (BitVec.ofNat 64 a) s2
        | none => .fault .launchBad (BitVec.ofNat 64 a) s2

/-! ## The grid queue (R313, R318) -/

/-- Grids of a world with spans still to be placed. -/
def State.queuedGrids (s : State) (w : Nat) : Nat := (s.grids.filter fun g => g.world == w && g.placed.length < g.desc.spans).length

/-- A grid enters its world's queue.  Its replay log and its order checking are as the world's registers stand (spec/15 R386,
R387). -/
def State.acceptGrid (s : State) (w ctx : Nat) (d : LaunchDesc) (eq : List EqPoint) (hcpc : W64) (csn : Nat) (l : Launcher) : State :=
  let (key, s1) := s.takeKey
  let x := s.world w
  let mode := x.rlog.toNat % 4
  let s2 : State := { s1 with
    grids := s1.grids ++ [{
      key := key, world := w, ctx := ctx, desc := d, eq := eq, gridid := BitVec.ofNat 32 key, hcpc := hcpc, csn := csn, stepcnt := 0,
      placed := [], launcher := l, ordchk := bitOf x.ordchk.toNat 0,
      log := (if d.det && mode != 3 then mode else 0, bitsOf x.rlog.toNat 51 12 * 4096, x.rlcap.toNat), done := false }] }
  s2.ordLaunch (partOfWorld w) key

/-- The 64-byte parts of a descriptor at `a` read before a failure at an address; all four where its equivalence table failed. -/
def partsRead (a x : Nat) : Nat := if a ≤ x then min 4 ((x - a) / 64) else 4

/-- LAUNCH (spec/10 R288): the thread's next `CSN`, the checks, and the grid in its world's queue, which it waits for with what it has read;
`PIDX` counts the parts of the descriptor. -/
def execLaunch (f : XF) (s : State) : Host.Outcome State Fault Refusal :=
  s.issueWith (.launch f) fun b s =>
    match b.run with
    | [] => .done [] s
    | (t, x) :: _ =>
      let a := x.pair f.a.toNat
      let w := s.worldB b
      let v : Access := ⟨b.g.ctx, w, s.featvecOf b.g, b.g.cluster, 5⟩
      let accept (csn : Nat) (d : LaunchDesc) (eq : List EqPoint) (s : State) : Result :=
        if 256 ≤ s.queuedGrids w then
          .held .none ((s.modGang b.g.key fun g => { g with work := ⟨[], some (csn, d, eq), false⟩ }).modSkein b.g.key b.k fun sk =>
            sk.mapFibres fun _ y => { y with pidx := 4 })
        else
          .done [(t, .next x)] ((s.modGang b.g.key fun g => { g with work := ⟨[], none, false⟩ }).acceptGrid w b.g.ctx d eq x.pc csn
            (.thread b.g.cluster b.g.core))
      match b.g.work.launch with
      | some (csn, d, eq) => accept csn d eq s
      | none =>
        if a.toNat % 256 ≠ 0 then .done [(t, .fault .align a)] (s.takeCsn b.g).2
        else
          match s.readLaunch v a.toNat with
          | .wait s1 => .held .none s1
          | .fault c e s1 =>
            .done [(t, .fault c (if c = .launchBad then a else e))] ((s1.takeCsn b.g).2.modSkein b.g.key b.k fun sk =>
              sk.mapFibres fun _ y => { y with pidx := BitVec.ofNat 32 (if c = .launchBad then 4 else partsRead a.toNat e.toNat) })
          | .ok (d, eq) s1 => let n := s1.takeCsn b.g; accept n.1 d eq n.2

/-! ## Placing a span (R318, R319) -/

/-- A bank that the footprint may take. -/
def footprintBank (w : Nat) (b : Bank) : Bool := b.foot.isNone && (b.mode == .cache || (b.mode == .scratch && b.world == w))

/-- A dirty line that some banks of a cluster hold lies in a frozen frame. -/
def State.waysStuck (s : State) (c : Nat) (banks : List Nat) : Bool :=
  (s.cluster c).cache.any fun x => banks.contains x.way && s.lineStuck x

/-- The lines that some banks of a cluster hold written back and dropped. -/
def State.leaveWays (s : State) (c : Nat) (banks : List Nat) : State :=
  let mine := (s.cluster c).cache.filter fun x => banks.contains x.way
  if mine.isEmpty then s
  else (mine.foldl (fun s x => s.writeDirty x) s).modCluster c fun k => { k with cache := k.cache.filter fun x => !banks.contains x.way }

/-- A core that can take one gang: its kind, not reserved by a grant, with residencies and runs. -/
def State.coreFits (s : State) (c : Nat) (d : LaunchDesc) (core : Nat) : Bool :=
  kindOfIndex core == d.kind && core < 16 && !s.reserved c core && (s.roomFor c core d.gangsk d.width d.regs).isSome

/-- A gang's linear number in its grid (spec/02 R42). -/
def LaunchDesc.linear (d : LaunchDesc) (span g : Nat) : Nat := d.spang * span + g

/-- Spans of the grid may be placed at all now. -/
def State.placing (s : State) (gr : Grid) : Bool :=
  gr.placed.length < gr.desc.spans && !gr.done && (s.part (partOfWorld gr.world)).pscur == 0 && !(s.world gr.world).frozen
    && ((s.ctx gr.ctx).map fun x => x.st == .running).getD false

/-- The cluster meets the conditions of R318 for a span of the grid, but for the cores. -/
def State.clusterFits (s : State) (gr : Grid) (c : Nat) : Bool :=
  s.admits c gr.world gr.desc.pers gr.desc.width
    && (gr.desc.footBanks.all fun b => footprintBank gr.world ((s.cluster c).bank b))

/-- A span of the grid can be placed somewhere. -/
def State.placeableNow (s : State) (gr : Grid) : Bool :=
  s.placing gr && (s.clustersOf (partOfWorld gr.world)).any fun c =>
    s.clusterFits gr c && gr.desc.spang ≤ ((coresOf gr.desc.kind).filter (s.coreFits c gr.desc)).length

/-- The order of a world's grid queue: `GPRIO`, highest first, then acceptance (R318). -/
def Grid.before (a b : Grid) : Bool :=
  a.world == b.world && (b.desc.gprio < a.desc.gprio || (a.desc.gprio == b.desc.gprio && a.key < b.key))

/-- The cluster and cores meet the conditions of R318 for the span, and its turn has come: spans in linear order, and no grid before it in
the queue has a span that can be placed.  All spans of a grid need the same, so one that waits holds back none that could go. -/
def State.placeable (s : State) (gr : Grid) (span c : Nat) (cores : List Nat) : Bool :=
  let d := gr.desc
  span < d.spans && !gr.placed.contains span && (rangeFrom 0 span).all gr.placed.contains
    && s.placing gr && (s.clustersOf (partOfWorld gr.world)).contains c && s.clusterFits gr c
    && cores.length == d.spang && cores.Nodup && cores.all (s.coreFits c d)
    && (s.grids.all fun h => !h.before gr || !s.placeableNow h)
    && !s.waysStuck c d.footBanks

/-- The footprint's banks turned to scratch for the world, contents zero, and marked. -/
def State.takeFootprint (s : State) (c w grid span : Nat) (banks : List Nat) : State :=
  banks.foldl (fun s b =>
    if ((s.cluster c).bank b).mode == .scratch then s.modBank c b fun x => { x with foot := some (grid, span), turned := false, byCfg := false }
    else
      (s.setBankMode c w b .scratch).modBank c b fun x => { x with foot := some (grid, span), turned := true, byCfg := false }) (s.leaveWays c banks)

/-- The residency numbers of a core that are free, lowest first. -/
def State.freeResidencies (s : State) (c core n : Nat) : List Nat :=
  let used := (s.residents c core).flatMap fun g => g.skeins.map (·.residency)
  ((rangeFrom 0 (residencyLimit (kindOfIndex core))).filter fun i => !used.contains i).take n

/-- Skeins of the core's active set. -/
def State.activeCount (s : State) (c core : Nat) : Nat :=
  ((s.residents c core).map fun g => (g.skeins.filter (·.active)).length).sum

/-- The fibres of a launch in one skein: the numbers first to first + width − 1 below `FIBS`. -/
def launchFibres (d : LaunchDesc) (unit legacy key first : Nat) : List Fibre :=
  (rangeFrom first (min d.width (d.fibs - first))).map fun n =>
    let entry := if d.start then d.simg else d.rimg
    { Fibre.fresh (key + n) d.regs entry d.pers legacy d.argp with
      gpc := if d.pers = 0 then 0 else BitVec.ofNat 64 (entry.toNat / unit) }

/-- One gang placed on a core (R319, spec/03 R61, R67). -/
def State.placeGang (s : State) (gr : Grid) (span c gi core : Nat) : State :=
  let d := gr.desc
  let (key, s1) := s.takeKey
  let base := s1.nextKey
  let s2 := { s1 with nextKey := base + d.fibs }
  let runs := (s2.roomFor c core d.gangsk d.width d.regs).getD []
  let res := s2.freeResidencies c core d.gangsk
  let act := s2.activeCount c core
  let unit := ((s2.weaveTable c d.pers).map WeaveTable.unit).getD 1
  let linear := d.linear span gi
  let g : Gang :=
    { Gang.fresh key d.kind c core gr.ctx gr.key d.regs with
      gangid := gi, spanid := span, linear := linear, det := d.det, hcpc := gr.hcpc, csn := gr.csn
      poolBase := (d.spbase + linear * (16 + d.spcap * gr.poolEntrySize)) % 2 ^ 64, poolCap := d.spcap
      stepCount := gr.stepcnt
      log := ⟨gr.log.1, gr.log.2.1 + 16 * gr.log.2.2 * linear, gr.log.2.2, 0⟩
      skeins := (rangeFrom 0 d.gangsk).map fun k =>
        { Skein.fresh d.width (runs.getD k 0) 0 (act + k < 8) (launchFibres d unit (s2.legacyOf c d.pers) base (k * d.width)) with
          residency := res.getD k 0, readyFrom := s2.movesEnd c core } }
  let s3 := { s2 with gangs := s2.gangs ++ [g] }
  if d.spcap = 0 then s3
  else
    match s3.writeGlobal gr.ctx gr.world g.poolBase (bytesOf 16 0) with
    | .ok s4 => s4
    | .error (code, a) =>
      (s3.writeRecord
        { code := code, imp := true, stake := d.start, guest := false, iopx := 0, term := false, world := gr.world, skg := rskg g 0,
          eqid := 0, pc := 0, pc2 := 0, fmask := 0, amask := srcWord 7 c 0 0 0, addr := BitVec.ofNat 64 a, hcpc := gr.hcpc,
          csn := gr.csn, ctx := gr.ctx, cluster := c }).modGang key fun y => { y with poolCap := 0 }

/-- SPAN_PLACEMENT: nothing happens where the conditions do not hold. -/
def State.placeSpan (s : State) (grid span c : Nat) (cores : List Nat) : State :=
  match s.grid grid with
  | none => s
  | some gr =>
    if !s.placeable gr span c cores then s
    else
      let order := (rangeFrom 0 16).filter cores.contains
      let s1 := s.takeFootprint c gr.world grid span gr.desc.footBanks
      let s2 := (rangeFrom 0 order.length).foldl (fun s i => s.placeGang gr span c i (order.getD i 0)) s1
      (s2.modGrid grid fun y => { y with placed := y.placed ++ [span] }).modCluster c fun k => { k with idle := false }

/-- SPAN_PLACEMENT. -/
def execSpanPlacement (grid span cluster : Nat) (cores : List Nat) (s : State) : Host.Outcome State Fault Refusal :=
  .next (s.placeSpan grid span cluster cores).clearTried

/-! ## Refills (spec/02 R43, R44, spec/12 R319) -/

/-- A fibre from a pool entry's bytes (spec/02 R42).  DEDUCED (notes/assumptions/17): the entry has no bit for a handler or an emulation
routine, so it comes back in neither, and its `EQID` is 0. -/
def fibreOfEntry (uid n legacy : Nat) (bs : List Byte) : Fibre :=
  let f := fieldAt bs
  let words (off k : Nat) : List W32 := (rangeFrom 0 k).map fun i => BitVec.ofNat 32 (f (off + 4 * i) 4)
  let x := Fibre.fresh uid n (BitVec.ofNat 64 (f 0 8)) (f 0x16 1 % 16) legacy 0
  { x with gpc := BitVec.ofNat 64 (f 8 8), wshift := f 0x14 2, e := words 0x20 8, regs := words 0x40 n }

/-- An imprecise record about a gang's spawn pool. -/
def State.poolRecord (s : State) (g : Gang) (code : FaultCode) (addr : Nat) : State :=
  s.writeRecord
    { code := code, imp := true, stake := g.image = 1, guest := false, iopx := 0, term := false, world := s.worldOf g,
      skg := rskg g 0, eqid := 0, pc := 0, pc2 := 0, fmask := 0, amask := srcWord 7 g.cluster 0 0 0,
      addr := BitVec.ofNat 64 addr, hcpc := g.hcpc, csn := g.csn, ctx := g.ctx, cluster := g.cluster }

/-- The entry at `HEAD` takes the lowest free slot; what cannot be read or is bad is recorded, and ends a gang without live
fibres (notes/assumptions/21). -/
def State.refill (s : State) (key : Nat) : State :=
  match s.gang key with
  | none => s
  | some g =>
    if g.ended || g.frozen || g.poolCap = 0 || g.poolBad then s else
    let fail (s : State) (code : FaultCode) (a : Nat) : State :=
      let s1 := s.poolRecord g code a
      if g.anyLive then s1 else s1.endGang key
    match s.readGlobal g.ctx (s.worldOf g) g.poolBase 16 with
    | .error (c, _) => fail s c g.poolBase
    | .ok (bs, s1) =>
      let head := fieldAt bs 0 4
      let count := fieldAt bs 4 4
      if g.poolCap < count || g.poolCap ≤ head then fail (s1.modGang key fun x => { x with poolBad := true }) .spawnFull g.poolBase
      else if count = 0 then s1
      else
        let size := ((s1.grid g.grid).map Grid.poolEntrySize).getD 64
        match s1.readGlobalLong g.ctx (s1.worldOf g) 3 (g.poolBase + 16 + head * size) size with
        | .error (c, _) => fail s1 c g.poolBase
        | .ok (es, s2) =>
          let width := ((g.skeins.head?).map (·.width)).getD 32
          match g.freeSlot (fieldAt es 0x18 4 / width) with
          | none => s2
          | some (k, t) =>
            let (uid, s3) := s2.takeKey
            let x := fibreOfEntry uid g.nregs (s3.legacyOf g.cluster (fieldAt es 0x16 1 % 16)) es
            let y := x.wr 0 (BitVec.ofNat 32 (fieldAt es 0x10 4))
            (s3.setFibre key k t (some y)).setPool g ((head + 1) % g.poolCap) (count - 1)

/-- SPAWN_REFILL. -/
def execSpawnRefill (gang : Nat) (s : State) : Host.Outcome State Fault Refusal := .next (s.refill gang).clearTried

/-! ## The end of a grid (R313, spec/10 R287, R288) -/

/-- Every span is placed, every gang has ended, and nothing of them is outstanding. -/
def State.gridOver (s : State) (gr : Grid) : Bool :=
  gr.placed.length == gr.desc.spans
    && (s.allGangs.filter fun g => g.kind != .handle && g.grid == gr.key).all fun g =>
      g.ended && g.skeins.all fun sk => sk.record.isEmpty && sk.ackc == 0

/-- GRID_COMPLETE: the launching packet completes, or an entry is posted for the launching thread; the grid is gone.  It waits
while the world's held posts are full, and where the counter's translation is still to come. -/
def State.completeGrid (s : State) (grid : Nat) : State :=
  match s.grid grid with
  | none => s
  | some gr =>
    if !s.gridOver gr then s else
    let cs := ((s.gangs.filter fun g => g.grid == grid && g.kind != .handle).map (·.cluster)).dedup
    if cs.any s.anyHeld then s else
    let s1 := cs.foldl (fun s c => s.flushAll c) s
    let gone (s : State) : State :=
      let s2 := cs.foldl (fun s c => s.releaseFootprints c) s
      { s2 with
        grids := s2.grids.filter fun g => g.key != grid
        gangs := s2.gangs.filter fun g => g.kind == .handle || g.grid != grid }
    match gr.launcher with
    | .packet w q n => let r := s1.completePacket w q n true; if r.1 then gone r.2 else r.2
    | .thread c t =>
      if s1.canPost c gr.world then
        gone (s1.postEvent c ⟨gr.world, BitVec.ofNat 32 (0x80000000 + t), schedSource, BitVec.ofNat 64 gr.csn⟩)
      else s1

/-- GRID_COMPLETE. -/
def execGridComplete (grid : Nat) (s : State) : Host.Outcome State Fault Refusal := .next (s.completeGrid grid).clearTried

end Sys2Proof.Machine
end

