-- ==== Sys2Proof/Machine/Weave.lean ====
section
/-! DEFINITION. Personalities: weave tables and their checks, WVLOAD and WVBIND, the decoding of guest instructions, the
decoded-operation cache and the expanded-image store (spec/11 R289 to R306, spec/08 R237, R238). -/

namespace Sys2Proof.Machine

/-! ## Fields of a table (R292 to R295) -/

def weaveMax : Nat := 2 ^ 18
/-- Bytes before the template directory. -/
def dirAt : Nat := 0xA300

/-- Extraction field j of pattern p. -/
def extractionAt (bs : List Byte) (p j : Nat) : Nat := fieldAt bs (0x100 + 32 * p + 4 * j) 4

/-- The value of an extraction field on the guest bits g (R293). -/
def extractValue (d g : Nat) : Nat :=
  if !bitOf d 31 then 0
  else
    let w := bitsOf d 11 7 + 1
    let v := g / 2 ^ bitsOf d 6 0 % 2 ^ w
    let v := if bitOf d 12 then wrapInt 32 (toSigned w v) else v
    v * 2 ^ bitsOf d 17 13 % 2 ^ 32

/-- Match entry e of plane q: mask, value, result (R294). -/
def matchAt (bs : List Byte) (q e : Nat) : Nat × Nat × Nat :=
  let a := 0x300 + 40 * (256 * q + e)
  (fieldAt bs a 16, fieldAt bs (a + 0x10) 16, fieldAt bs (a + 0x20) 2)

/-- A template: its words, and each word's four descriptors (R295). -/
def templateAt (bs : List Byte) (t : Nat) : List (Nat × List Nat) :=
  let d := fieldAt bs (dirAt + 4 * t) 4
  let off := bitsOf d 23 0
  let n := bitsOf d 26 24 + 1
  (rangeFrom 0 n).map fun i =>
    (fieldAt bs (off + 8 * i) 8, (rangeFrom 0 4).map fun k => fieldAt bs (off + 8 * n + 16 * i + 4 * k) 4)

/-- A descriptor applied to a word (R295). -/
def substitute (rbase : Nat) (value : Nat → Nat) (w d : Nat) : Nat :=
  if !bitOf d 31 then w
  else
    let n := bitsOf d 11 6 + 1
    let lo := bitsOf d 5 0
    let x : Int := (value (bitsOf d 14 12) : Int) + toSigned 8 (bitsOf d 23 16) + (if bitOf d 24 then (rbase : Int) else 0)
    let old := w / 2 ^ lo % 2 ^ n
    let new := if bitOf d 15 then wrapInt n ((old : Int) + x) else wrapInt n x
    (w - old * 2 ^ lo + new * 2 ^ lo) % 2 ^ 64

/-! ## The template rules (R297) -/

/-- The bits that a word's descriptors target. -/
def targeted (ds : List Nat) : Nat :=
  ds.foldl (fun m d => if bitOf d 31 then Nat.lor m ((2 ^ (bitsOf d 11 6 + 1) - 1) * 2 ^ bitsOf d 5 0) else m) 0

/-- None of the bits hi to lo is targeted. -/
def known (m hi lo : Nat) : Bool := bitsOf m hi lo == 0

/-- Registers that an LD (`MOP` 0) or LDIV (2) of a `SIZE` writes (spec/06 R156); 0 where there is none. -/
def loadRegs (mop size : Nat) : Nat :=
  if mop = 0 then (if size ≤ 2 then 1 else if size = 3 then 2 else if size = 4 then 4 else 0)
  else if mop = 2 then (if size = 2 ∨ size = 3 ∨ size = 5 then 2 else if size = 4 then 4 else 0)
  else 0

/-- The values of a field that its targeted bits leave open. -/
def fieldValues (w m hi lo : Nat) : List Nat :=
  (rangeFrom 0 (2 ^ (hi + 1 - lo))).filter fun v => Nat.lor v (bitsOf m hi lo) == Nat.lor (bitsOf w hi lo) (bitsOf m hi lo)

/-- A word that may stand before the last: an arithmetic word to an e-register other than a compare, or a load whose group lies in the
e-registers, of every size it may become; what a descriptor targets is not known. -/
def innerWord (w m : Nat) : Bool :=
  let form := bitsOf w 62 60
  let op := bitsOf w 59 54
  let dst := bitsOf w 44 37
  known m 44 37 && 248 ≤ dst &&
    (((form == 0 || form == 1) && known m 59 54 && op != 11 && op != 50)
      || (form == 2 && known m 59 57 &&
        let ns := (fieldValues w m 54 52).map (loadRegs (bitsOf w 59 57))
        ns.any (· != 0) && ns.all fun n => dst + n ≤ 256))

/-- Words that no template ends with: EMRET, ERET, MIGRATE, WVLOAD, WVBIND, SWAPCTX, LAUNCH. -/
def barredLast : List Nat := [0x535, 0x533, 0x30C, 0x539, 0x53A, 0x53B, 0x40E]

/-- The last word is none of the barred ones, whatever its targeted bits become. -/
def lastWord (w m : Nat) : Bool :=
  let op := bitsOf w 62 52
  let free := bitsOf m 62 52
  barredLast.all fun b => Nat.xor b op - Nat.land (Nat.xor b op) free != 0

/-- A descriptor's own rules. -/
def descriptorOk (d : Nat) : Bool :=
  if !bitOf d 31 then d == 0 else bitsOf d 30 25 == 0 && bitsOf d 5 0 + bitsOf d 11 6 ≤ 59

/-- The rules on a template's words with their descriptors. -/
def wordsOk : List (Nat × List Nat) → Bool
  | [] => false
  | [(w, ds)] => ds.all descriptorOk && bitOf w 63 && lastWord w (targeted ds)
  | (w, ds) :: r => ds.all descriptorOk && !bitOf w 63 && innerWord w (targeted ds) && wordsOk r

/-! ## The checks of a load (R296) -/

/-- An address in canonical form and a multiple of 8. -/
def codeAddress (a : Nat) : Bool := a % 8 == 0 && canonical a

/-- The header is well formed for the id, above the generation of the resident table. -/
def headerOk (bs : List Byte) (id gen : Nat) : Bool :=
  let f := fieldAt bs
  let lsel := f 0x0B 1
  let n := f 0x0C 2
  let tlen := f 0x1C 4
  f 0 4 == 0x56414557 && f 4 1 == 1 && f 5 1 == id && (f 6 1 == 0 || f 6 1 == 32 || f 6 1 == 64) && f 7 1 < 64 && f 8 1 ≤ 239
    && f 9 1 ≤ 2 && f 0x0A 1 == 16 && lsel < 64 && lsel % 16 + lsel / 16 ≤ 15 && n ≤ 1024 && f 0x0E 1 < 16 && f 0x0F 1 == 0
    && codeAddress (f 0x10 8) && f 0x18 4 != 0 && gen < f 0x18 4
    && tlen % 256 == 0 && dirAt + 4 * n ≤ tlen && tlen ≤ weaveMax && (((bs.drop 0x40).take 0x40).all (· == 0))

/-- The digest matches. -/
def hashOk (bs : List Byte) : Bool :=
  sm3 (bs.take 0x20 ++ List.replicate 32 0 ++ bs.drop 0x40) == (bs.drop 0x20).take 32

/-- The structure is well formed. -/
def structureOk (bs : List Byte) : Bool :=
  let n := fieldAt bs 0x0C 2
  let tlen := fieldAt bs 0x1C 4
  let unit := 2 ^ fieldAt bs 9 1
  ((rangeFrom 0 16).all fun i => let l := fieldAt bs (0x80 + i) 1; 1 ≤ l && l ≤ 8 && 2 * l % unit == 0)
    && (((bs.drop 0x90).take 112).all (· == 0))
    && ((rangeFrom 0 16).all fun p => (rangeFrom 0 8).all fun j =>
      let d := extractionAt bs p j
      bitsOf d 30 18 == 0 && (!bitOf d 31 || bitsOf d 6 0 + bitsOf d 11 7 ≤ 127))
    && ((rangeFrom 0 4).all fun q => (rangeFrom 0 256).all fun e =>
      let r := (matchAt bs q e).2.2
      fieldAt bs (0x300 + 40 * (256 * q + e) + 0x22) 6 == 0 && r / 2 ^ 14 != 3 && !(r / 2 ^ 14 == 1 && n ≤ r % 1024))
    && ((rangeFrom 0 n).all fun t =>
      let d := fieldAt bs (dirAt + 4 * t) 4
      let off := bitsOf d 23 0
      d < 2 ^ 27 && off % 8 == 0 && dirAt + 4 * n ≤ off && off + 24 * (bitsOf d 26 24 + 1) ≤ tlen && wordsOk (templateAt bs t))

/-- The table fits the weave store beside the others. -/
def Cluster.storeFits (k : Cluster) (id tlen : Nat) : Bool :=
  ((k.weave.filter fun p => p.1 != id).map fun p => roundUpTo 4096 (p.2.field 0x1C 4)).sum + roundUpTo 4096 tlen ≤ 2 ^ 21

/-- `STATUS` of a load of a table into a cluster, given the bytes as far as the header asks for them. -/
def State.tableStatus (s : State) (c id : Nat) (bs : List Byte) : Nat :=
  let k := s.cluster c
  if !headerOk bs id (((tget k.weave id).map (·.gen)).getD 0) then 3
  else if !hashOk bs then 4
  else if !structureOk bs then 3
  else if !k.storeFits id (fieldAt bs 0x1C 4) then 5
  else 0

/-- The table resident for the id in a cluster; decoded lines of the personality no longer hit (R304). -/
def State.putTable (s : State) (c id : Nat) (bs : List Byte) : State :=
  s.modCluster c fun k =>
    { k with weave := tset k.weave id ⟨fieldAt bs 0x18 4, bs⟩, doc := k.doc.filter fun l => l.pers != id }

/-! ## WVLOAD and WVBIND (spec/08 R237, R238) -/

/-- Unit n of 256 bytes of a table, read as a thread's load. -/
def State.readUnit (s : State) (g : Gang) (a n : Nat) : Checked (List Byte) :=
  let at_ := (a + 256 * n) % 2 ^ 64
  match s.checkGlobal g.ctx (s.worldOf g) (s.featvecOf g) .load at_ 256 1 with
  | .wait s1 => .wait s1
  | .fault c x s1 => .fault c x s1
  | .ok ps s1 =>
    if ps.any (s1.portLost (s.worldOf g)) then .fault .linkDown (BitVec.ofNat 64 at_) s1
    else
      match s1.readParts g.via (s.worldOf g) 4 ps with
      | .error c => .fault c (BitVec.ofNat 64 at_) s1
      | .ok (bs, s2) => .ok bs s2

/-- The units that a WVLOAD of the fibre has read, where it has begun: as many as `PIDX` counts. -/
def Gang.unitsRead (g : Gang) (x : Fibre) : Nat := if g.work.bytes.length = 256 * x.pidx.toNat then x.pidx.toNat else 0

/-- What is held of a long instruction of a thread, and its `PIDX`. -/
def State.setWork (s : State) (b : Batch) (w : Work) (pidx : Nat) : State :=
  (s.modGang b.g.key fun g => { g with work := w }).modSkein b.g.key b.k fun sk =>
    sk.mapFibres fun _ y => { y with pidx := BitVec.ofNat 32 pidx }

/-- WVLOAD: one unit of 256 bytes after another; `PIDX` counts those read, and the load goes on there after a freeze, also where `WVLD` has
been set since (spec/01 R25). -/
def execWvload (f : SF) (s : State) : Host.Outcome State Fault Refusal :=
  s.issueWith (.wvload f) fun b s =>
    match b.run with
    | [] => .done [] s
    | (t, x) :: _ =>
      let id := f.imm.toNat % 16
      let a := (x.pair f.sa.toNat).toNat
      let c := b.g.cluster
      let n := b.g.unitsRead x
      let answer (v : Nat) (s : State) : Result :=
        .done [(t, .next (x.wr f.dst.toNat (BitVec.ofNat 32 v)))] (s.modGang b.g.key fun g => { g with work := ⟨[], none, false⟩ })
      if id = 0 then answer 1 s
      else if n = 0 && bitOf (s.part (s.partOfCluster c)).dutycfg.toNat 3 then answer 2 s
      else
        match s.readUnit b.g a n with
        | .wait s1 => .held .none s1
        | .fault q e s1 => .done [(t, .fault q e)] s1
        | .ok u s1 =>
          let bs := (if n = 0 then [] else b.g.work.bytes) ++ u
          if n = 0 && !headerOk bs id (((tget (s.cluster c).weave id).map (·.gen)).getD 0) then answer 3 s1
          else if 256 * (n + 1) < fieldAt bs 0x1C 4 then .again (s1.setWork b ⟨bs, none, false⟩ (n + 1))
          else
            let st := s1.tableStatus c id bs
            if st = 0 then answer (fieldAt bs 0x18 2 * 2 ^ 16) (s1.putTable c id bs) else answer st s1

/-- WVBIND. -/
def execWvbind (f : SF) (s : State) : Host.Outcome State Fault Refusal :=
  s.issueWith (.wvbind f) fun b s =>
    match b.run with
    | [] => .done [] s
    | (t, x) :: _ =>
      let p := (f.imm.toNat % 16, (x.rd f.sa.toNat).toNat % 256)
      .done [(t, .next x)] (s.modCluster b.g.cluster fun k =>
        { k with bindings := if k.bindings.contains p then k.bindings else k.bindings ++ [p] })

/-! ## Loads by the physical function (R290), and where the expanded-image store lies (R305) -/

/-- A register write by the physical function of a partition, or by hypervisor code as it. -/
def writerPart (w : RegWrite) : Option Nat := if w.page.isNone && w.by_ % 64 == 0 then some (w.by_ / 64) else none

/-- The partition that a register write reaches: none before the boot ends, in the recovery function set, and in PS3 (spec/01 R19, R28). -/
def State.writer (s : State) (w : RegWrite) : Option Nat := if s.boot = 1 then writerPart w else none

/-- A table read at a device physical address under the physical function's keys; none where it cannot be read. -/
def State.readTable (s : State) (p pa n : Nat) : Option (List Byte) :=
  match s.deviceHome p pa n with
  | some .dev =>
    match s.readDev (64 * p) (absAddr p pa) n with
    | .ok bs => some bs
    | .error _ => none
  | _ => none

/-- One cluster's load. -/
def State.loadTable (s : State) (p c id pa : Nat) : Nat × State :=
  match s.readTable p pa 256 with
  | none => (3, s)
  | some h =>
    if id = 0 then (1, s)
    else if !headerOk h id (((tget (s.cluster c).weave id).map (·.gen)).getD 0) then (3, s)
    else
      match s.readTable p pa (fieldAt h 0x1C 4) with
      | none => (3, s)
      | some bs => let st := s.tableStatus c id bs; if st = 0 then (0, s.putTable c id bs) else (st, s)

/-- The load in every cluster of the mask; the code of the lowest-numbered one that failed. -/
def State.loadTables (s : State) (p id pa : Nat) : List Nat → Nat × State
  | [] => (0, s)
  | c :: r =>
    let q := s.loadTable p c id pa
    let t := State.loadTables q.2 p id pa r
    (if q.1 = 0 then t.1 else q.1, t.2)

/-- WVHCTL_GO: ignored while `WVLD` is 0; the loads are done when the step ends, and `GO` reads 0 again. -/
def State.wvhctlWrite (s : State) (p v : Nat) : State :=
  let stored (status : Nat) (s : State) : State := s.modPart p fun x =>
    { x with wvhctl := BitVec.ofNat 64 (packFields [(32, v), (4, bitsOf v 35 32), (3, status)]) }
  if !bitOf (s.part p).dutycfg.toNat 3 then s
  else if !bitOf v 63 then stored (bitsOf (s.part p).wvhctl.toNat 38 36) s
  else
    let r := s.loadTables p (bitsOf v 35 32) (bitsOf (s.part p).wvhaddr.toNat 51 8 * 256) ((s.clustersOf p).filter fun c => bitOf v c)
    stored r.1 r.2

/-- WVHCTL_GO. -/
def execWvhctlGo (w : RegWrite) (s : State) : Host.Outcome State Fault Refusal :=
  .next (match s.writer w with
    | some p => s.wvhctlWrite p w.v.toNat
    | none => s)

/-- EISCFG_WRITE: reserved bits are dropped, a size out of range is stored as 0, and decoded lines stop hitting (R304, R305). -/
def State.eiscfgWrite (s : State) (p v : Nat) : State :=
  let n := v % 32
  let s1 := s.modPart p fun x =>
    { x with eiscfg := BitVec.ofNat 64 (bitsOf v 51 12 * 4096 + (if 10 ≤ n ∧ n ≤ 24 then n else 0)) }
  (s1.clustersOf p).foldl (fun s c => s.modCluster c fun k => { k with doc := [] }) s1

/-- EISCFG_WRITE. -/
def execEiscfgWrite (w : RegWrite) (s : State) : Host.Outcome State Fault Refusal :=
  .next (match s.writer w with
    | some p => s.eiscfgWrite p w.v.toNat
    | none => s)

/-! ## Decoding a guest instruction (R298 to R301) -/

/-- n parcels fetched from a guest byte address on: the parcels, and the physical address of the first. -/
def State.fetchParcels (s : State) (g : Gang) (x : Fibre) : Nat → Nat → Checked (List Nat × Nat)
  | 0, _ => .ok ([], 0) s
  | n + 1, a =>
    match s.checkGlobal g.ctx (s.worldOf g) (s.featvecOf g) (.fetch x.pers) a 2 1 with
    | .fault c e s1 => .fault c e s1
    | .wait s1 => .wait s1
    | .ok ps s1 =>
      match s1.readParts g.via (s1.worldOf g) 4 ps with
      | .error c => .fault c (BitVec.ofNat 64 a) s1
      | .ok (bs, s2) =>
        match State.fetchParcels s2 g x n ((a + 2) % 2 ^ 64) with
        | .ok (r, _) s3 => .ok (ofBytes bs :: r, ((ps.head?).map (·.addr)).getD 0) s3
        | y => y

/-- The guest bits of parcels. -/
def guestBits : List Nat → Nat
  | [] => 0
  | p :: r => p + 2 ^ 16 * guestBits r

/-- What a guest instruction becomes: words and length in parcels, or the emulation routine with a pattern, the guest bits and
the low half of `FADDR`. -/
inductive Decoded where
  | words (ws : List W64) (len : Nat)
  | emulate (pat g faddr len : Nat)

/-- The first match entry that hits: plane, entry and result. -/
def firstHit (bs : List Byte) (g : Nat) : Option (Nat × Nat × Nat) :=
  (rangeFrom 0 4).findSome? fun q => (rangeFrom 0 256).findSome? fun e =>
    let m := matchAt bs q e
    if m.2.2 / 2 ^ 14 ≠ 0 ∧ Nat.land g m.1 = m.2.1 then some (q, e, m.2.2) else none

/-- Steps 5 and 6 of R298. -/
def decodeGuest (bs : List Byte) (g len : Nat) : Decoded :=
  match firstHit bs g with
  | some (q, e, r) =>
    let pat := bitsOf r 13 10
    if r / 2 ^ 14 = 1 then
      let value (j : Nat) : Nat := extractValue (extractionAt bs pat j) g
      .words ((templateAt bs (r % 1024)).map fun p => BitVec.ofNat 64 (p.2.foldl (substitute (fieldAt bs 8 1) value) p.1)) len
    else .emulate pat g (packFields [(4, len), (4, 0), (8, 1), (2, q), (8, e)]) len
  | none => .emulate (fieldAt bs 0x0E 1 % 16) g (packFields [(4, len)]) len

/-- A line of the decoded-operation cache that hits (R303). -/
def Cluster.docLine (k : Cluster) (w pers gen pa : Nat) (va : W64) : Option DocLine :=
  k.doc.find? fun l => l.world == w && l.pers == pers && l.gen == gen && l.va == va && l.pa == pa

/-- A line filled; its set keeps four. -/
def Cluster.fillDoc (k : Cluster) (l : DocLine) : Cluster :=
  let set (x : DocLine) : Nat := bitsOf x.va.toNat 10 1
  let others := k.doc.filter fun x => set x == set l
  let old := others.take (others.length - 3)
  { k with doc := (k.doc.filter fun x => !old.contains x) ++ [l] }

/-- The expanded-image store's entry for a guest instruction, where it hits (R306). -/
def State.storeHit (s : State) (g : Gang) (x : Fibre) (gen pa a : Nat) : Option (List W64 × Nat) :=
  let w := s.worldOf g
  let p := partOfWorld w
  let cfg := (s.part p).eiscfg.toNat
  let n := cfg % 32
  if n = 0 || !bitOf (s.featvecOf g) 5 then none
  else
    match s.readTable p (bitsOf cfg 51 12 * 4096 + 128 * (pa / 2 % 2 ^ n)) 128 with
    | none => none
    | some bs =>
      let f := fieldAt bs
      let len := f 0x0A 1
      let words := (rangeFrom 0 (f 9 1)).map fun i => f (0x40 + 8 * i) 8
      if f 9 1 = 0 || 8 < f 9 1 || f 0 8 != pa % 2 ^ 52 || f 8 1 != x.pers || f 0x0C 4 != gen || !bitOf (f 0x20 32) w
          || len = 0 || 8 < len || !wordsOk (words.map fun v => (v, [])) then none
      else
        match s.fetchParcels g x len a with
        | .ok (ps, _) _ => if guestBits ps = f 0x10 16 then some (words.map (BitVec.ofNat 64), len) else none
        | _ => none

/-- One guest instruction decoded for a fibre (R298), with the counter it raises. -/
def State.weave (s : State) (g : Gang) (x : Fibre) : Checked (Decoded × Nat) :=
  match s.weaveTable g.cluster x.pers with
  | none => .fault .illegalOp 0 s
  | some t =>
    let a := (x.gpc.toNat * t.unit) % 2 ^ 64
    match s.fetchParcels g x 1 a with
    | .fault c e s1 => .fault c e s1
    | .wait s1 => .wait s1
    | .ok (p0, pa) s1 =>
      let va := BitVec.ofNat 64 a
      let w := s.worldOf g
      let fill (s : State) (ws : List W64) (len : Nat) (eis : Bool) : State :=
        s.modCluster g.cluster fun k => k.fillDoc ⟨w, x.pers, t.gen, va, pa, ws, len, eis⟩
      match (s1.cluster g.cluster).docLine w x.pers t.gen pa va with
      | some l => .ok (.words l.words l.len, 20) s1
      | none =>
        match s1.storeHit g x t.gen pa a with
        | some (ws, len) => .ok (.words ws len, 21) (fill s1 ws len true)
        | none =>
          let lsel := t.field 0x0B 1
          let first := p0.headD 0
          let len := t.field (0x80 + first / 2 ^ (lsel % 16) % 2 ^ (lsel / 16 % 4 + 1)) 1
          match s1.fetchParcels g x len a with
          | .fault c e s2 => .fault c e s2
          | .wait s2 => .wait s2
          | .ok (ps, _) s2 =>
            match decodeGuest t.bytes (guestBits ps) len with
            | .words ws n => .ok (.words ws n, 22) (fill s2 ws n false)
            | e => .ok (e, 22) s2

/-- A fibre that goes on with the words, or into the emulation routine (R301). -/
def Fibre.woven (x : Fibre) (t : WeaveTable) : Decoded → Fibre
  | .words ws len => { x with expansion := some ⟨ws, 2 * len / t.unit, t.unit⟩, iopx := 0 }
  | .emulate pat g faddr len =>
    let value (j : Nat) : W32 := BitVec.ofNat 32 (extractValue (extractionAt t.bytes pat j) g)
    { x with
      e := [BitVec.ofNat 32 g, BitVec.ofNat 32 (g / 2 ^ 32), value 0, value 1, value 2, value 3, value 4, value 5]
      poison := x.poison.filter fun r => r < 1000
      faddr := BitVec.ofNat 64 faddr, emul := true, fglen := len, pc := BitVec.ofNat 64 (t.field 0x10 8), iopx := 0
      expansion := some ⟨[], 2 * len / t.unit, t.unit⟩ }

/-- GUEST_DECODE: the batch's fibres get the words to issue; a fetch that fails, or a personality without a table, faults them
at the guest instruction. -/
def execGuestDecode (s : State) : Host.Outcome State Fault Refusal :=
  match s.batch with
  | none => .fault .noBatch
  | some (b, ready) =>
    let s := { s with issue := none }
    match b.all with
    | [] => .next s
    | (_, x) :: _ =>
      match s.weave b.g x with
      | .wait s1 => .next (s1.holdBatch b .none)
      | .fault c a s1 => .next (s1.finish b ready (faultAll b.all c a))
      | .ok (d, n) s1 =>
        match s1.weaveTable b.g.cluster x.pers with
        | none => .next s1
        | some t =>
          let s2 := s1.modSkein b.g.key b.k fun sk => sk.mapFibres fun slot y =>
            if b.all.any (fun p => p.1 == slot) then y.woven t d else y
          let s3 := (s2.addCounter b.g n 1).clearTried
          .next (match d with
            | .words _ _ => s3
            | .emulate _ _ _ _ => s3.traceBatch b.g b.k 7 x (maskOf (b.all.map (·.1))) 0)

end Sys2Proof.Machine
end

