-- ==== Sys2Proof/Machine/Save.lean ====
section
/-! DEFINITION. The bytes of a context save area (spec/13 R330 to R332, R342 to R345, spec/10 R272). -/

namespace Sys2Proof.Machine

/-! ## Record entries and captures (R330 to R332) -/

/-- Capture bytes per fibre of an operation. -/
def captureSize (kind size : Nat) (t : Option TileOp) : Nat :=
  match kind with
  | 0x03 | 0x04 | 0x05 | 0x07 => if size ≤ 8 then 16 else 24
  | 0x06 => 24
  | 0x0B => 16
  | 0x10 | 0x11 | 0x12 | 0x13 => 64
  | 0x18 | 0x19 | 0x1A | 0x1B | 0x1C => 24
  | 0x1D => 24 + 4 * ((t.map fun t => 2 ^ t.m * t.p2 * (elemBytes t.fmt t.iv / 4)).getD 0)
  | _ => 8

/-- A list cut or filled with zero bytes to n. -/
def padTo (n : Nat) (bs : List Byte) : List Byte := (bs ++ List.replicate n 0).take n

/-- The bytes of words. -/
def wordBytes (ws : List W32) : List Byte := ws.flatMap fun w => bytesOf 4 w.toNat

/-- What a copy command captured. -/
def CopyCmd.capture (c : CopyCmd) (kind : Nat) : List Byte :=
  let stamp := bytesOf 8 c.stamp.toNat
  if kind ≤ 0x11 then bytesOf 8 c.a.toNat ++ bytesOf 8 c.b.toNat ++ stamp ++ bytesOf 8 0 ++ wordBytes c.coords
  else if kind = 0x12 then bytesOf 8 c.a.toNat ++ bytesOf 8 c.b.toNat ++ stamp ++ bytesOf 8 c.n
  else bytesOf 8 0 ++ bytesOf 8 c.b.toNat ++ stamp ++ bytesOf 4 c.n ++ bytesOf 4 c.pattern.toNat

/-- What a tile operation captured of a contributor. -/
def TileOp.capture (t : TileOp) (kind slot : Nat) : List Byte :=
  if kind = 0x19 then bytesOf 4 t.p0 ++ bytesOf 4 0 ++ bytesOf 8 t.p1
  else
    let head := bytesOf 4 t.acc ++ bytesOf 4 t.fmt
    if kind = 0x18 then
      head ++ (t.rows.filter fun r => (rowsOf t.m slot).contains r.1).flatMap fun r => bytesOf 4 r.2.1
    else if kind = 0x1B then head ++ bytesOf 4 t.p0 ++ bytesOf 4 t.p1
    else if kind = 0x1D then padTo 24 head ++ ((t.regs.filter fun r => r.1 == slot).flatMap fun r => wordBytes r.2)
    else head

/-- One slot's capture; zero for a slot that took no part. -/
def Entry.captureOf (e : Entry) (slot : Nat) : List Byte :=
  match e.ops.find? fun o => o.slot == slot with
  | none => []
  | some o =>
    if 0x18 ≤ e.kind ∧ e.kind ≤ 0x1D then ((e.tile.map fun t => t.capture e.kind slot).getD [])
    else if 0x10 ≤ e.kind ∧ e.kind ≤ 0x13 then
      ((e.copies.find? fun c => c.slot == slot).map fun c => c.capture e.kind).getD []
    else if e.kind = 0x0C then bytesOf 4 o.data ++ bytesOf 4 o.cmp
    else if e.kind = 0x20 then []
    else if e.kind = 0x06 then bytesOf 8 o.va.toNat ++ bytesOf 8 o.data ++ bytesOf 8 o.cmp
    else bytesOf 8 o.va.toNat ++ bytesOf 16 o.data

/-- The capture block of an entry in a skein of W slots. -/
def Entry.capture (e : Entry) (w : Nat) : List Byte :=
  let n := captureSize e.kind e.size e.tile
  (rangeFrom 0 w).flatMap fun t => padTo n (e.captureOf t)

/-- Progress units of an entry: a tile operation's panels, or the least of its commands' bursts. -/
def Entry.progress (e : Entry) : Nat :=
  if e.kind = 0x0C then 0
  else if e.copies.isEmpty then e.prog
  else
    match (e.copies.filter fun c => !c.ended).map (·.prog) with
    | [] => 0
    | p :: r => r.foldl min p

/-- The 32 bytes of an entry (R330). -/
def Entry.bytes (e : Entry) : List Byte :=
  let port := e.portacc && e.ops.any fun o => o.parts.any Part.port
  let long := 0x10 ≤ e.kind && e.kind ≤ 0x1D
  bytesOf 1 e.kind
    ++ bytesOf 1 (packFields [(2, e.cls), (1, boolNat long), (1, boolNat e.cmpl), (3, e.iopx)])
    ++ bytesOf 1 (packFields [(3, e.scope), (2, boolNat e.acquire + 2 * boolNat e.release), (3, e.rnd)])
    ++ bytesOf 1 (packFields [(1, boolNat e.acquire), (1, boolNat e.release),
        (1, boolNat (e.copies.any fun c => !c.stampsDone.isEmpty)), (1, boolNat port)])
    ++ bytesOf 4 e.progress ++ bytesOf 8 e.pc.toNat ++ bytesOf 8 e.mask.toNat ++ bytesOf 8 e.tag.toNat

/-! ## Fibres and skeins (R345) -/

/-- The code of a wait kind. -/
def Wait.code : Wait → Nat
  | .none => 0 | .rjoin => 1 | .barw => 2 | .sbar => 3 | .mwait => 4 | .arrwait => 5 | .qpop => 6 | .qpush => 7
  | .evpop => 8 | .evpost => 9 | .migrate => 10 | .waitc => 11

def Wait.ofCode (n : Nat) : Wait :=
  match n with
  | 1 => .rjoin | 2 => .barw | 3 => .sbar | 4 => .mwait | 5 => .arrwait | 6 => .qpop | 7 => .qpush
  | 8 => .evpop | 9 => .evpost | 10 => .migrate | 11 => .waitc | _ => .none

/-- The 64 bytes of a fibre state. -/
def Fibre.stateBytes (x : Fibre) : List Byte :=
  bytesOf 8 x.pc.toNat ++ bytesOf 8 x.gpc.toNat ++ bytesOf 8 x.fpc.toNat ++ bytesOf 8 x.faddr.toNat
    ++ bytesOf 4 x.pidx.toNat ++ bytesOf 4 x.srseed.toNat ++ bytesOf 4 x.eqid.toNat
    ++ bytesOf 2 x.wshift ++ bytesOf 2 x.pass ++ bytesOf 2 x.barIn
    ++ bytesOf 1 (packFields [(1, 1), (1, boolNat x.parked), (1, boolNat x.emul), (1, boolNat x.stepIn), (4, x.wait.code)])
    ++ bytesOf 1 x.pers ++ bytesOf 1 x.fmode ++ bytesOf 1 x.rmode ++ bytesOf 1 x.iopx ++ bytesOf 1 x.fcode.toNat
    ++ bytesOf 1 x.fglen ++ bytesOf 7 0

/-- The registers of a slot: its allocation, then e0 to e7. -/
def Fibre.regBytes (x : Fibre) : List Byte := wordBytes x.regs ++ wordBytes x.e

/-- A skein block at an offset of the area; `more` says whether another skein follows. -/
def Skein.bytes (sk : Skein) (k nregs image off : Nat) (more : Bool) : List Byte :=
  let caps := sk.record.flatMap fun e => e.capture sk.width
  let body :=
    (sk.slots.flatMap fun o => padTo 64 ((o.map Fibre.stateBytes).getD []))
      ++ (sk.slots.flatMap fun o => padTo (4 * (nregs + 8)) ((o.map Fibre.regBytes).getD []))
      ++ (sk.record.flatMap Entry.bytes) ++ caps
  let next := if more then off + 64 + body.length else 0
  bytesOf 1 sk.width ++ bytesOf 1 k ++ bytesOf 1 nregs ++ bytesOf 1 image ++ bytesOf 4 sk.outcnt
    ++ (sk.arrive.flatMap fun a => bytesOf 2 a) ++ bytesOf 2 sk.record.length ++ bytesOf 2 0 ++ bytesOf 4 caps.length
    ++ bytesOf 8 next ++ bytesOf 32 0 ++ body

/-- Skein blocks one after another from an offset. -/
def skeinBlocks (nregs image : Nat) : Nat → Nat → List Skein → List Byte
  | _, _, [] => []
  | k, off, sk :: r =>
    let bs := sk.bytes k nregs image off (!r.isEmpty)
    bs ++ skeinBlocks nregs image (k + 1) (off + bs.length) r

/-! ## Gangs and grids (R343, R344) -/

/-- The sealed object whose place a slot's image gives. -/
def SavedSlot.object (x : SavedSlot) : Option (W64 × Nat) :=
  match x.fill with
  | some f => f.origin
  | none => x.held.bind (·.sealed)

/-- The image of a stationary slot. -/
def SavedSlot.image (x : SavedSlot) : List Byte :=
  match x.object with
  | some (a, n) => bytesOf 8 a.toNat ++ bytesOf 4 n ++ bytesOf 4 0
  | none =>
    let data := (x.fill.bind (·.data)).getD []
    padTo (roundUpTo 256 (max ((x.held.map (·.len)).getD 0) data.length)) data

/-- A gang block at an offset; `gridx` is its grid's index and `span` its `SPANIX`. -/
def Gang.bytes (g : Gang) (slots : List SavedSlot) (gridx span off : Nat) (more : Bool) : List Byte :=
  let body := skeinBlocks g.nregs g.image 0 (off + 128) g.skeins ++ slots.flatMap SavedSlot.image
  let held := (slots.map fun x => 2 ^ x.slot).sum
  let sealed_ := ((slots.filter fun x => x.object.isSome).map fun x => 2 ^ x.slot).sum
  bytesOf 2 gridx ++ bytesOf 1 g.gangid ++ bytesOf 1 g.core ++ bytesOf 1 g.cluster ++ bytesOf 1 g.image
    ++ bytesOf 1 g.skeins.length ++ bytesOf 1 (held + 16 * sealed_) ++ bytesOf 8 span ++ bytesOf 4 g.lbase
    ++ bytesOf 4 g.sbarPhase ++ bytesOf 8 g.stepCount ++ (g.barPhase.flatMap fun p => bytesOf 1 p)
    ++ bytesOf 4 g.stepPhase ++ bytesOf 4 0 ++ bytesOf 8 (if more then off + 128 + body.length else 0) ++ bytesOf 64 0 ++ body

/-- Gang blocks one after another. -/
def gangBlocks (grids : List Grid) (slots : List SavedSlot) : Nat → List Gang → List Byte
  | _, [] => []
  | off, g :: r =>
    let gi := (grids.findIdx? fun x => x.key == g.grid).getD 0
    let span := ((findGrid grids g.grid).map fun x => spanIndex x.desc.gx x.desc.gy g.spanid).getD 0
    let mine := slots.filter fun x => x.gang == g.key
    let bs := g.bytes mine gi span off (!r.isEmpty)
    bs ++ gangBlocks grids slots (off + bs.length) r

/-- Bytes 0x00 to 0x4F of a launch descriptor (spec/12 R315). -/
def LaunchDesc.bytes (d : LaunchDesc) : List Byte :=
  bytesOf 8 d.rimg.toNat ++ bytesOf 8 d.simg.toNat ++ bytesOf 8 d.eqtab.toNat ++ bytesOf 4 d.eqcnt ++ bytesOf 1 d.width
    ++ bytesOf 1 d.rregs ++ bytesOf 1 d.sregs ++ bytesOf 1 d.pers ++ bytesOf 1 d.gangsk ++ bytesOf 1 d.spang
    ++ bytesOf 1 (packFields [(1, boolNat d.start), (1, boolNat d.det), (2, d.gprio)]) ++ bytesOf 1 0 ++ bytesOf 4 d.fibs
    ++ bytesOf 4 d.gx ++ bytesOf 4 d.gy ++ bytesOf 4 d.gz ++ bytesOf 4 d.scrfp ++ bytesOf 4 d.scrbase ++ bytesOf 4 d.spcap
    ++ bytesOf 8 d.spbase ++ bytesOf 8 d.argp.toNat

/-- A grid entry. -/
def Grid.bytes (g : Grid) : List Byte :=
  g.desc.bytes ++ bytesOf 4 g.gridid.toNat ++ bytesOf 4 0 ++ bytesOf 8 g.hcpc.toNat ++ bytesOf 8 g.csn ++ bytesOf 8 g.stepcnt
    ++ bytesOf 16 0

end Sys2Proof.Machine
end

