-- ==== Sys2Proof/Machine/Rebuild.lean ====
section
/-! DEFINITION. Gangs made again from the bytes of a save area alone: what the area has no place for is found from the word at
an operation's PC, or starts afresh (spec/13 R330 to R332, R339, R343 to R346; notes/assumptions/33). -/

namespace Sys2Proof.Machine

/-! ## Grids and fibres -/

/-- A grid of the context, found by its `GRIDID`, or made from its entry with every span placed; none for an entry that no grid has (R5,
R342, R343). -/
def State.rebuildGrid (s : State) (ctx world : Nat) (bs : List Byte) : Option (Grid × State) :=
  let gid := fieldAt bs 0x50 4
  let step := fieldAt bs 0x68 8
  let db := padTo 256 (bs.take 0x50)
  let d := LaunchDesc.ofBytes db
  if fieldAt bs 0x54 4 != 0 || fieldAt bs 0x70 16 != 0 || !d.fieldsOk db then none else
  some <|
  match s.grids.find? fun g => g.ctx == ctx && g.gridid.toNat == gid with
  | some g => ({ g with stepcnt := step }, s)
  | none =>
    let (key, s1) := s.takeKey
    let v : Access := ⟨ctx, world, 0x103FF, 0, 5⟩
    let q : List EqPoint × State :=
      match s1.readPoints v d d.eqcnt 0 with
      | .ok ps s2 => ((ps.mapM id).getD [], s2)
      | _ => ([], s1)
    ({ key := key, world := world, ctx := ctx, desc := d, eq := q.1, gridid := BitVec.ofNat 32 gid,
       hcpc := BitVec.ofNat 64 (fieldAt bs 0x58 8), csn := fieldAt bs 0x60 8, stepcnt := step, placed := rangeFrom 0 d.spans,
       launcher := .packet world 64 0, ordchk := false, log := (0, 0, 0), done := false }, q.2)

def State.rebuildGrids (s : State) (ctx world : Nat) (bs : List Byte) (off : Nat) : Nat → Option (List Grid × State)
  | 0 => some ([], s)
  | n + 1 =>
    match s.rebuildGrid ctx world ((bs.drop off).take 128) with
    | none => none
    | some q => (State.rebuildGrids q.2 ctx world bs (off + 128) n).map fun r => (q.1 :: r.1, r.2)

/-- The words in bytes. -/
def wordsIn (bs : List Byte) (n : Nat) : List W32 := (rangeFrom 0 n).map fun i => BitVec.ofNat 32 (fieldAt bs (4 * i) 4)

/-- A fibre state whose reserved bits are zero and whose fields have values that R345 gives them; all of it is zero where the slot is not
live (R5). -/
def fibreStateOk (st : List Byte) : Bool :=
  let f := fieldAt st
  let fst := f 0x32 1
  if !bitOf fst 0 then fst == 0
  else fst / 16 < 12 && f 0x33 1 < 16 && f 0x34 1 < 64 && f 0x35 1 < 8 && f 0x36 1 < 8 && f 0x38 1 < 16 && f 0x39 7 == 0

/-- A fibre from its state and its registers; none in a slot that is not live. -/
def fibreOfState (uid n unit : Nat) (st rg : List Byte) : Option Fibre :=
  let f := fieldAt st
  let w64 (o : Nat) : W64 := BitVec.ofNat 64 (f o 8)
  let w32 (o : Nat) : W32 := BitVec.ofNat 32 (f o 4)
  let fst := f 0x32 1
  if !bitOf fst 0 then none
  else
    let emul := bitOf fst 2
    some { Fibre.fresh uid n (w64 0) (f 0x33 1) (f 0x34 1 % 64) 0 with
      regs := wordsIn rg n, e := wordsIn (rg.drop (4 * n)) 8
      gpc := w64 8, fpc := w64 0x10, faddr := w64 0x18, pidx := w32 0x20, srseed := w32 0x24, eqid := w32 0x28, longPc := w64 0x10
      wshift := f 0x2C 2, pass := f 0x2E 2, barIn := f 0x30 2, parked := bitOf fst 1, emul := emul, stepIn := bitOf fst 3
      wait := Wait.ofCode (fst / 16), rmode := f 0x35 1 % 8, fcode := BitVec.ofNat 32 (f 0x37 1), fglen := f 0x38 1 % 16
      expansion := if emul then some ⟨[], 2 * (f 0x38 1 % 16) / unit, unit⟩ else none }

/-- What a waiting fibre waits on, from the word it stands at (R345). -/
def State.rewait (s : State) (g : Gang) (x : Fibre) : Fibre :=
  if x.wait.retries then { x with wait := .none }
  else
    match s.fetched g { x with wait := .none }, x.wait with
    | .instr (.rjoin f) _, .rjoin => { x with wmask := x.pair f.ca.toNat, wmoment := s.nextKey }
    | .instr (.bar f) _, .barw => { x with waitArg := f.cb.toNat }
    | .instr (.barw f) _, .barw => { x with waitArg := f.cb.toNat }
    | .instr (.bara f) _, .barw => { x with waitArg := f.cb.toNat + 16 }
    | .instr (.migrate f) _, .migrate => { x with waitArg := f.off.toNat + 2 ^ 26 * f.cfl.toNat + 2 ^ 29 * f.ca.toNat }
    | _, .mwait => x
    | _, .sbar => { x with sbarIn := true }
    | _, _ => { x with wait := .none }

/-! ## Record entries -/

/-- An entry's bytes whose reserved bits are zero and whose kind, class and scope R330 and R331 list (R5). -/
def entryOk (bs : List Byte) : Bool :=
  let f := fieldAt bs
  [1, 2, 3, 4, 5, 6, 7, 8, 9, 0x0A, 0x0B, 0x0C, 0x10, 0x11, 0x12, 0x13, 0x18, 0x19, 0x1A, 0x1B, 0x1C, 0x1D, 0x20].contains (f 0 1)
    && f 1 1 % 4 < 3 && f 1 1 < 128 && f 2 1 % 8 < 6 && f 2 1 / 32 < 7 && f 3 1 < 16

/-- The fields of an entry's 32 bytes; a write that its port has accepted still waits for its acknowledgement (spec/03 R65). -/
def entryOfBytes (seq : Nat) (bs : List Byte) : Entry :=
  let f := fieldAt bs
  let cls := f 1 1
  let so := f 2 1
  let flg := f 3 1
  { seq := seq, kind := f 0 1, cls := cls % 4, iopx := bitsOf cls 6 4, scope := so % 8, acquire := bitOf flg 0, release := bitOf flg 1,
    rnd := so / 32, stampw := bitOf flg 2, portacc := bitOf flg 3, one := false, cmpl := bitOf cls 3
    acked := !((cls % 4 == 2 || bitOf flg 3) && storeLike (f 0 1)), prog := f 4 4,
    pc := BitVec.ofNat 64 (f 8 8), mask := BitVec.ofNat 64 (f 0x10 8), tag := BitVec.ofNat 64 (f 0x18 8), dst := 0, size := 0,
    aop := 0, aux := 0, ops := [], copies := [], tile := none }

/-- The word at an entry's PC: a canonical word, or the word of a guest instruction's expansion. -/
def State.wordOf (s : State) (g : Gang) (x : Fibre) (e : Entry) : Option Instr :=
  if x.isGuest && !x.parked then
    let y := { x with gpc := BitVec.ofNat 64 (e.pc.toNat / s.unitOf g.cluster x), pc := e.pc, expansion := none }
    match s.weave g y with
    | .ok (.words ws _, _) _ => (ws[e.iopx]?).bind fun w => match decode w with | .ok i => some i | .error _ => none
    | _ => none
  else
    match s.fetchWord g e.pc with
    | .ok w _ => match decode w with | .ok i => some i | .error _ => none
    | _ => none

/-- A gang's shape as its block says it, for the messages of others of its span. -/
structure Peer where
  key : Nat
  grid : Nat
  span : Nat
  core : Nat

/-- What the operations of an entry are made from: the gang, its peers, its skein, and the capture of a slot. -/
structure Remake where
  g : Gang
  peers : List Peer
  k : Nat
  sk : Skein
  cap : Nat → List Byte

/-- The lowest fibre of a mask that still lives, or a fibre of zeros. -/
def Remake.low (r : Remake) (m : W64) : Nat × Fibre :=
  ((r.sk.live.find? fun p => inMask m p.1).getD (((slotsOf m).head?).getD 0, Fibre.fresh 0 r.g.nregs 0 0 0 0))

/-- One slot's operation. -/
def Remake.op (r : Remake) (t : Nat) (dst : Fibre → Nat) (parts : W64 → List Part) (data cmp : Nat) : SlotOp :=
  let va := BitVec.ofNat 64 (fieldAt (r.cap t) 0 8)
  let x := r.sk.fibre t
  .new t ((x.map (·.uid)).getD 0) ((x.map dst).getD 0) va (parts va) data cmp

/-- Scratch parts are known; those of pages are translated at the replay. -/
def Remake.spaceParts (r : Remake) (space : Space) (n : Nat) (va : W64) : List Part :=
  match space with
  | .scratch => [.plain (.scratch r.g.cluster) va.toNat n]
  | _ => []

/-- A memory operation remade. -/
def Remake.mem (r : Remake) (e : Entry) (space : Space) (n aop regs : Nat) (dst : Fibre → Nat) : Entry :=
  let wide := if n ≤ 8 then 8 else 16
  let op1 (t : Nat) : SlotOp :=
    r.op t dst (r.spaceParts space n) (if e.kind ≤ 2 then 0 else fieldAt (r.cap t) 8 wide % 2 ^ (8 * n))
      (if e.kind = 6 then fieldAt (r.cap t) 16 8 else 0)
  { e with size := n, aop := aop, aux := regs, ops := (slotsOf e.mask).map op1 }

/-- A copy command remade. -/
def Remake.copyOf (r : Remake) (e : Entry) (t : Nat) : CopyCmd :=
  let f := fieldAt (r.cap t)
  let x := r.sk.fibre t
  let low := f 8 4
  let mask := f 12 4
  let receivers :=
    if e.kind = 0x10 then [(r.g.key, 0)]
    else if e.kind = 0x11 then
      (r.peers.filter fun p => p.grid == r.g.grid && p.span == r.g.spanid && bitOf mask p.core).map fun p => (p.key, 0)
    else []
  { slot := t, uid := (x.map (·.uid)).getD 0, a := BitVec.ofNat 64 (f 0 8), b := BitVec.ofNat 64 (f 8 8), stamp := BitVec.ofNat 64 (f 16 8),
    n := if e.kind ≤ 0x11 then low else if e.kind = 0x12 then f 24 8 else f 24 4,
    pattern := if e.kind = 0x13 then BitVec.ofNat 32 (f 28 4) else 0,
    coords := if e.kind ≤ 0x11 then wordsIn ((r.cap t).drop 32) 8 else [], receivers := receivers, stampsDone := [],
    seed := (x.map (·.srseed)).getD 0, fib := r.k * r.sk.width + t, rmode := e.rnd, record := [], started := false, prog := e.prog,
    ended := false, burst := [], landed := [] }

def Remake.copies (r : Remake) (e : Entry) (f : XF) : Entry :=
  { e with
    aux := copyFlags f, copies := (slotsOf e.mask).map (r.copyOf e)
    ops := (slotsOf e.mask).map fun t => r.op t (fun _ => 0) (fun _ => []) 0 0 }

/-- A tile operation remade: its quarter, the captured tile address and format word. -/
def Remake.tile (r : Remake) (e : Entry) (n : Fibre → Nat) (dst : Fibre → Nat) (mk : TileOp → TileOp) : Entry :=
  let low := r.low e.mask
  let t0 := ((slotsOf e.mask).head?).getD 0
  let f := fieldAt (r.cap t0)
  let b := { blankTile (t0 / 8) low.2 (r.k * r.sk.width + t0) (f 4 4) with acc := f 0 4, rnd := e.rnd }
  { e with
    dst := e.seq, aux := e.mask.toNat, tile := some (mk b)
    ops := (slotsOf e.mask).map fun t => { r.op t dst (fun _ => []) 0 ((r.sk.fibre t).map n |>.getD 0) with va := BitVec.ofNat 64 (f 0 4) } }

/-- The rows of the mask's slots, with their A row addresses for an MMA. -/
def Remake.rows (r : Remake) (m : Nat) (mma : Bool) (mask : W64) : List (Nat × Nat × Nat) :=
  (slotsOf mask).flatMap fun t => (rowsOf m t).zipIdx.map fun q => (q.1, if mma then fieldAt (r.cap t) (8 + 4 * q.2) 4 else 0, 0)

/-- The registers that a slot's TSTR captured. -/
def Remake.stored (r : Remake) (t : Nat) : List W32 := wordsIn ((r.cap t).drop 24) (((r.cap t).length - 24) / 4)

/-- An entry of a word; none where the word is not of the entry's kind. -/
def Remake.entry (r : Remake) (e : Entry) (i : Instr) : Option Entry :=
  let when (k : Nat) (x : Entry) : Option Entry := if e.kind = k then some x else none
  match i with
  | .ld f => when 1 { r.mem e f.space (sizeBytes f.size) 0 (sizeRegs f.size) fun x => x.place f.data.toNat with one := f.ua }
  | .ldiv f => when 2 { r.mem e f.space (sizeBytes f.size) f.size.toNat (if f.size = 4 then 4 else 2) fun x => x.place f.data.toNat with one := f.ua }
  | .st f => when 3 { r.mem e f.space (sizeBytes f.size) 0 0 fun _ => 0 with one := f.ua }
  | .stiv f => when 4 { r.mem e f.space (sizeBytes f.size) 0 0 fun _ => 0 with one := f.ua }
  | .atom f => when 5 { r.mem e f.space (sizeBytes f.size) f.aop (sizeRegs f.size) fun x => x.place f.data.toNat with one := f.ua }
  | .atomc f => when 6 { r.mem e f.space (sizeBytes f.size) 16 (sizeRegs f.size) fun x => x.place f.data.toNat with one := f.ua }
  | .red f => when 7 { r.mem e f.space (sizeBytes f.size) f.aop 0 fun _ => 0 with one := f.ua }
  | .cacheCwb f => when 8 (r.mem e f.space 128 0 0 fun _ => 0)
  | .cacheCinv f => when 9 (r.mem e f.space 128 0 0 fun _ => 0)
  | .cachePref f => when 0x0A (r.mem e f.space 128 0 0 fun _ => 0)
  | .mwait f =>
    let m := monForm f
    when 0x0B (r.mem e m.space m.bytes m.cond 0 fun _ => f.dst.toNat % 16)
  | .mtest f =>
    let m := monForm f
    when 0x0B (r.mem e m.space m.bytes m.cond 1 fun _ => f.dst.toNat % 16)
  | .rwrite f =>
    let tgt := fieldAt (r.cap (((slotsOf e.mask).head?).getD 0)) 4 4
    (r.peers.find? fun p => p.grid == r.g.grid && p.span == r.g.spanid && p.core == tgt % 16).bind fun p =>
      when 0x0C { e with
        dst := f.imm.toNat % 256, size := bitsOf f.imm.toNat 9 8, aop := tgt / 16, aux := p.key, prog := 0
        ops := (slotsOf e.mask).map fun t => { r.op t (fun _ => 0) (fun _ => []) (fieldAt (r.cap t) 0 4) tgt with va := 0 } }
  | .copy f => when 0x10 (r.copies e f)
  | .copym f => when 0x11 (r.copies e f)
  | .copyl f => when 0x12 (r.copies e f)
  | .cfill f => when 0x13 (r.copies e f)
  | .mma f =>
    when 0x18 (r.tile e (fun _ => 0) (fun _ => 0) fun b =>
      { b with n16 := f.bits 20 15, m := f.bits 14 13, nega := f.bits 12 12 == 1, negb := f.bits 11 11 == 1, zc := f.bits 10 10 == 1,
               iv := f.bits 9 9 == 1, slot := f.bits 8 6, kcnt := f.bits 5 2 + 1, fuse := f.bits 1 1 == 1,
               rows := r.rows (f.bits 14 13) true e.mask })
  | .ldstat f =>
    let c := r.cap (((slotsOf e.mask).head?).getD 0)
    when 0x19 (r.tile e (fun _ => 0) (fun _ => 0) fun b =>
      { b with acc := 0, slot := f.bits 8 6, iv := f.bits 9 9 == 1, p0 := fieldAt c 0 4, p1 := fieldAt c 8 8, p2 := (f.bits 20 15 + 1) * 1024 })
  | .tzero f =>
    when 0x1A (r.tile e (fun _ => 0) (fun _ => 0) fun b =>
      { b with n16 := f.bits 20 15, m := f.bits 14 13, iv := f.bits 9 9 == 1, rows := r.rows (f.bits 14 13) false e.mask })
  | .tcvt f =>
    let c := r.cap (((slotsOf e.mask).head?).getD 0)
    when 0x1B (r.tile e (fun _ => 0) (fun _ => 0) fun b =>
      { b with n16 := f.bits 20 15, m := f.bits 14 13, rows := r.rows (f.bits 14 13) false e.mask, p0 := fieldAt c 8 4,
               p1 := fieldAt c 12 4, p2 := f.bits 4 2 })
  | .tget f =>
    when 0x1C (r.tile e (fun x => (spanGroup f false x).n) (fun x => x.place f.b.toNat) fun b =>
      { b with m := f.bits 14 13, iv := f.bits 9 9 == 1, n16 := 1, rows := r.rows (f.bits 14 13) false e.mask, p0 := f.b.toNat,
               p1 := f.bits 20 15, p2 := f.bits 5 2 + 1 })
  | .tstr f =>
    when 0x1D (r.tile e (fun x => (spanGroup f true x).n) (fun x => x.place f.b.toNat) fun b =>
      { b with m := f.bits 14 13, iv := f.bits 9 9 == 1, n16 := 1, rows := r.rows (f.bits 14 13) false e.mask, p0 := f.b.toNat,
               p1 := f.bits 20 15, p2 := f.bits 5 2 + 1, regs := (slotsOf e.mask).map fun t => (t, r.stored t) })
  | .sbar _ => when 0x20 { e with ops := (slotsOf e.mask).map fun t => r.op t (fun _ => 0) (fun _ => []) 0 0 }
  | _ => none

/-- The capture bytes per fibre of an entry's word: TSTR's span is the word's. -/
def captureOfWord (kind : Nat) (fw : Nat) (i : Instr) : Nat :=
  match i with
  | .st f | .red f | .atom f | .stiv f => captureSize kind (sizeBytes f.size) none
  | .tstr f => 24 + 4 * (2 ^ f.bits 14 13 * (f.bits 5 2 + 1) * tileWords fw (f.bits 9 9 == 1))
  | _ => captureSize kind 0 none

/-- A skein's entries remade, each with its capture block; none where the area is malformed. -/
def State.rebuildRecord (s : State) (g : Gang) (peers : List Peer) (k : Nat) (sk : Skein) (seq : Nat) :
    List (List Byte) → List Byte → Option (List Entry)
  | [], _ => some []
  | eb :: r, caps =>
    if !entryOk eb then none else
    let e := entryOfBytes seq eb
    let low := (({ g := g, peers := peers, k := k, sk := sk, cap := fun _ => [] } : Remake).low e.mask).2
    match s.wordOf g low e with
    | none => none
    | some i =>
      let t0 := ((slotsOf e.mask).head?).getD 0
      -- the format word of a TSTR lies in its first slot's capture, whose place needs no more than the slots before it
      let guess := captureOfWord e.kind 0 i
      let n :=
        if e.kind = 0x1D then captureOfWord e.kind (fieldAt caps (guess * t0 + 4) 4) i else guess
      let rm : Remake := ⟨g, peers, k, sk, fun t => (caps.drop (n * t)).take n⟩
      match rm.entry e i, State.rebuildRecord s g peers k sk (seq + 1) r (caps.drop (n * sk.width)) with
      | some x, some q => some (x :: q)
      | _, _ => none

/-! ## Skeins and gangs -/

/-- A skein block's header, fibres and registers; its record entries, captures, and the block's length. -/
def skeinOfBytes (uid unit : Nat) (bs : List Byte) : Option (Skein × Nat × Nat × List (List Byte) × List Byte × Nat) :=
  let f := fieldAt bs
  let w := f 0 1
  let n := f 2 1
  let nrec := f 0x10 2
  let capb := f 0x14 4
  let regs := 64 + 64 * w
  let recs := regs + w * (n + 8) * 4
  let len := recs + 32 * nrec + capb
  if (w != 32 && w != 64) || n = 0 || bs.length < len || f 3 1 > 1 || f 0x12 2 != 0 || f 0x20 32 != 0
      || !((rangeFrom 0 w).all fun t => fibreStateOk ((bs.drop (64 + 64 * t)).take 64)) then none
  else
    let slots := (rangeFrom 0 w).map fun t =>
      fibreOfState (uid + t) n unit ((bs.drop (64 + 64 * t)).take 64) ((bs.drop (regs + t * (n + 8) * 4)).take ((n + 8) * 4))
    let sk := { Skein.fresh w 0 0 true [] with slots := slots, arrive := (rangeFrom 0 4).map fun i => f (8 + 2 * i) 2 }
    some (sk, n, f 3 1, (rangeFrom 0 nrec).map fun i => (bs.drop (recs + 32 * i)).take 32, (bs.drop (recs + 32 * nrec)).take capb, len)

/-- Skein blocks one after another: the skeins, their records still as bytes, and what follows. -/
def skeinsOfBytes (uid unit : Nat) : Nat → List Byte →
    Option (List (Skein × Nat × Nat × List (List Byte) × List Byte) × List Byte)
  | 0, bs => some ([], bs)
  | n + 1, bs =>
    match skeinOfBytes uid unit bs with
    | none => none
    | some (sk, r, img, es, caps, len) =>
      (skeinsOfBytes (uid + 64) unit n (bs.drop len)).map fun q => ((sk, r, img, es, caps) :: q.1, q.2)

/-- Images of a gang's stationary slots: sealed ones 16 bytes; plain ones share the rest equally (the area does not give each length). -/
def slotImages (key held sealed_ : Nat) (bs : List Byte) : List SavedSlot :=
  let hs := (rangeFrom 0 4).filter (bitOf held)
  let plain := (hs.filter fun i => !bitOf sealed_ i).length
  let each := (bs.length - 16 * (hs.length - plain)) / max plain 1
  let slot (i len : Nat) (obj : Option (W64 × Nat)) (data : Option (List Byte)) : SavedSlot :=
    ⟨key, i, some ⟨some key, len, obj⟩, some ⟨i, key, data, obj, false⟩⟩
  let rec go : List Nat → List Byte → List SavedSlot
    | [], _ => []
    | i :: r, b =>
      if bitOf sealed_ i then
        slot i (fieldAt b 8 4) (some (BitVec.ofNat 64 (fieldAt b 0 8), fieldAt b 8 4)) none :: go r (b.drop 16)
      else slot i each none (some (b.take each)) :: go r (b.drop each)
  go hs bs

/-- A gang's block read but for its records; `ends` is where the next block begins, or the area's end. -/
structure GangBlock where
  g : Gang
  skeins : List (Skein × Nat × Nat × List (List Byte) × List Byte)
  slots : List SavedSlot
  next : Nat

/-- A gang block at an offset. -/
def State.gangOfBytes (s : State) (ctx : Nat) (grids : List Grid) (key : Nat) (bs : List Byte) (off ends : Nat) : Option GangBlock :=
  let b := bs.drop off
  let f := fieldAt b
  if f 2 1 > 11 || f 3 1 > 15 || f 5 1 > 1 || f 0x34 4 != 0 || f 0x40 64 != 0 then none else
  match grids[f 0 2]? with
  | none => none
  | some gr =>
    let d := gr.desc
    let stake := f 5 1 == 1
    let cluster := f 4 1
    let unit := ((s.weaveTable cluster d.pers).map WeaveTable.unit).getD 1
    let next := f 0x38 8
    let stop := if next = 0 then ends else next
    match skeinsOfBytes (key + 1) unit (f 6 1) ((b.take (stop - off)).drop 128) with
    | none => none
    | some (sks, rest) =>
      let ix := f 8 8
      let span := bitsOf ix 23 0 + d.gx * (bitsOf ix 47 24 + d.gy * bitsOf ix 63 48)
      let linear := d.linear span (f 2 1)
      let n := (sks.head?.map (·.2.1)).getD 8
      let g : Gang :=
        { Gang.fresh key (if stake then .stake else .rand) cluster (f 3 1) ctx gr.key n with
          gangid := f 2 1, spanid := span, linear := linear, image := boolNat stake, det := d.det, lbase := f 0x10 4, sbarPhase := f 0x14 4
          stepCount := f 0x18 8, barPhase := (rangeFrom 0 16).map fun i => f (0x20 + i) 1, stepPhase := f 0x30 4
          poolBase := (d.spbase + linear * (16 + d.spcap * gr.poolEntrySize)) % 2 ^ 64, poolCap := d.spcap, hcpc := gr.hcpc, csn := gr.csn
          skeins := sks.map (·.1) }
      some ⟨g, sks, slotImages key (f 7 1 % 16) (f 7 1 / 16) rest, next⟩

/-- The gang blocks of an area, following `NEXTG`. -/
def State.gangsOfBytes (s : State) (ctx : Nat) (grids : List Grid) (bs : List Byte) (ends : Nat) : Nat → Nat → Nat → Option (List GangBlock)
  | 0, _, _ => some []
  | n + 1, key, off =>
    match s.gangOfBytes ctx grids key bs off ends with
    | none => none
    | some b => (State.gangsOfBytes s ctx grids bs ends n (key + 1025) b.next).map fun r => b :: r

/-- A gang's records remade: counters set to the entries of each class (spec/03 R65), waits taken up again. -/
def State.finishGang (s : State) (peers : List Peer) (b : GangBlock) : Option Gang :=
  (b.skeins.zipIdx.mapM fun q =>
    (s.rebuildRecord b.g peers q.2 q.1.1 0 q.1.2.2.2.1 q.1.2.2.2.2).map fun es =>
      let sk := es.foldl (fun (sk : Skein) e =>
        let sk1 := if e.portacc then sk else sk.raise e.kind 1
        { sk1 with ackc := sk1.ackc + (if e.acked then 0 else 1) }) { q.1.1 with record := es, nextSeq := es.length }
      let standing (x : Fibre) : Bool := es.any fun e => e.kind == 0x20 && e.ops.any fun o => o.uid == x.uid
      sk.mapFibres fun _ x => let y := s.rewait b.g x; if standing y then { y with sbarIn := false } else y).map fun sks =>
  { b.g with skeins := sks }

/-- Everything an area holds, made again: gangs, their slots, and the context's grids; none where it is malformed. -/
def State.rebuild (s : State) (c : Context) (h : AreaHeader) (bs : List Byte) :
    Option (List Gang × List SavedSlot × State) :=
  match s.rebuildGrids c.key c.world bs h.gridoff h.ngrid with
  | none => none
  | some r =>
  let grids := r.1
  let s1 := { r.2 with grids := (r.2.grids.filter fun (g : Grid) => !grids.any fun x => x.key == g.key) ++ grids }
  let key := s1.nextKey
  let s2 := { s1 with nextKey := key + 1025 * h.ngang }
  let ends := if h.gangoff < h.spilloff then h.spilloff else h.size
  match s2.gangsOfBytes c.key grids bs ends h.ngang key h.gangoff with
  | none => none
  | some blocks =>
    let peers := blocks.map fun b => (⟨b.g.key, b.g.grid, b.g.spanid, b.g.core⟩ : Peer)
    (blocks.mapM (s2.finishGang peers)).map fun gs =>
      (gs, blocks.flatMap (·.slots), s2)

end Sys2Proof.Machine
end

