-- ==== Sys2Proof/Machine/Queue.lean ====
section
/-! DEFINITION. Command queues: doorbells, the parser, and what each packet does (spec/12 R309 to R314, R326, spec/02 R52). -/

namespace Sys2Proof.Machine

/-! ## The registers of a queue (R309) -/

/-- `2^LOGSZ` packets. -/
def Queue.size (q : Queue) : Nat := 2 ^ bitsOf q.ctl.toNat 18 14
def Queue.enabled (q : Queue) : Bool := bitOf q.ctl.toNat 0
def Queue.weight (q : Queue) : Nat := bitsOf q.ctl.toNat 13 10
def Queue.prio (q : Queue) : Nat := bitsOf q.ctl.toNat 9 8
/-- The address of packet i. -/
def Queue.packetAt (q : Queue) (i : Nat) : Nat := (q.qbase.toNat + 64 * (i % q.size)) % 2 ^ 64

/-- `QCTL` with `ERR` set and `EN` cleared. -/
def Queue.stopped (q : Queue) (err : Nat) : Queue :=
  { q with ctl := BitVec.ofNat 64 (q.ctl.toNat % 2 ^ 24 / 2 * 2 + err * 2 ^ 24) }

/-- Doorbells of the world are served: its interface is open or runs (spec/14 R363), and the device computes (spec/01 R19, R28). -/
def State.doorbellsOn (s : State) (w : Nat) : Bool :=
  s.boot == 1 && ((s.world w).tdisp == .unlocked || (s.world w).tdisp == .run)

/-- The partition leaves PS2 (spec/01 R20). -/
def State.wake (s : State) (p : Nat) : State :=
  if (s.part p).pscur = 2 then s.modPart p fun x => { x with psexit := true } else s

/-- A doorbell of a world wakes its partition from PS2 and is served when the exit ends (spec/01 R20); none where it is not served so. -/
def State.bellHeld (s : State) (bounce : Bool) (w n v : Nat) : Option State :=
  let p := partOfWorld w
  if s.doorbellsOn w && (s.part p).pscur == 2 then
    some ((s.modPart p fun x => { x with psbells := x.psbells ++ [(bounce, w, n, v)] }).wake p)
  else none

/-- A doorbell served: `QWR` written; beyond the ring it stops the queue (R309). -/
def State.ringDoorbell (s : State) (w q v : Nat) : State :=
  let x := s.queue w q
  let n := v % 2 ^ 32
  if !s.doorbellsOn w then s
  else if x.size < (n + 2 ^ 32 - x.qrd) % 2 ^ 32 then
    (s.modQueue w q fun y => y.stopped 5).writeRecord
      { code := .perm, imp := true, stake := false, guest := false, iopx := 0, term := false, world := w, skg := 0xF0, eqid := 0,
        pc := 0, pc2 := 0, fmask := 0, amask := srcWord 3 (s.homeCluster w q) 0 0 0, addr := BitVec.ofNat 64 n, hcpc := 0, csn := 0,
        ctx := s.worldCtx w, cluster := s.homeCluster w q }
  else s.modQueue w q fun y => { y with qwr := n }

/-! ## Which queue is served (R311, R313) -/

/-- The next packet's bytes, to look at. -/
def State.peekPacket (s : State) (w q : Nat) : Option (List Byte) :=
  match s.agentRead (s.worldAccess w (s.homeCluster w q)) ((s.queue w q).packetAt (s.queue w q).qrd) 64 with
  | .ok bs _ => some bs
  | _ => none

/-- The packet may not start while earlier ones of its queue are live. -/
def packetWaits (bs : List Byte) (live : Bool) : Bool := live && (bitOf (fieldAt bs 1 1) 0 || fieldAt bs 0 1 == 4)

/-- The queue is ready: enabled, with a packet that is not blocked. -/
def State.queueReady (s : State) (w q : Nat) : Bool :=
  let x := s.queue w q
  x.enabled && x.qrd != x.qwr && x.fence.isNone && !((s.peekPacket w q).any fun bs => packetWaits bs (!x.live.isEmpty))

/-- The queue's world and partition are such that it is parsed. -/
def State.queueServable (s : State) (w q : Nat) : Bool :=
  s.doorbellsOn w && (s.part (partOfWorld w)).pscur == 0 && s.queueReady w q

/-- The ready queues that a cluster is home of, by world and number. -/
def State.readyQueues (s : State) (c : Nat) : List (Nat × Nat) :=
  s.worlds.flatMap fun p => (p.2.queues.filter fun q => s.homeCluster p.1 q.1 == c && s.queueServable p.1 q.1).map fun q => (p.1, q.1)

/-- The first queue after the one that had its turn, round about. -/
def nextTurn (last : Nat × Nat) (qs : List (Nat × Nat)) : Option (Nat × Nat) :=
  (qs.find? fun p => last.1 < p.1 || (last.1 == p.1 && last.2 < p.2)).or qs.head?

/-- The queue that the parser of a cluster serves now. -/
def State.served (s : State) (c : Nat) : Option (Nat × Nat) :=
  let rs := s.readyQueues c
  let top := (rs.map fun p => (s.queue p.1 p.2).prio).foldl max 0
  let qs := rs.filter fun p => (s.queue p.1 p.2).prio == top
  match tget (s.cluster c).turns top with
  | some (w, q, n) => if qs.contains (w, q) && n ≤ (s.queue w q).weight then some (w, q) else nextTurn (w, q) qs
  | none => qs.head?

/-- A packet of the queue has been parsed in its turn. -/
def State.countTurn (s : State) (w q : Nat) : State :=
  let c := s.homeCluster w q
  s.modCluster c fun k =>
    let p := (s.queue w q).prio
    let n := match tget k.turns p with
      | some (tw, tq, n) => if tw = w ∧ tq = q ∧ n ≤ (s.queue w q).weight then n + 1 else 1
      | none => 1
    { k with turns := tset k.turns p (w, q, n) }

/-- Turns of queues that are no longer ready end: such a queue waits for its next turn (R311). -/
def State.endTurns (s : State) (c : Nat) : State :=
  s.modCluster c fun k =>
    { k with turns := k.turns.map fun t =>
        let (w, q, n) := t.2
        (t.1, (w, q, if s.queueReady w q then n else (s.queue w q).weight + 1)) }

/-- QUEUE_DOORBELL: a queue that it leaves without a packet ends its turn. -/
def execQueueDoorbell (world queue : Nat) (v : BitVec 64) (s : State) : Host.Outcome State Fault Refusal :=
  .next (match s.bellHeld false world queue v.toNat with
    | some t => t
    | none => ((s.ringDoorbell world queue v.toNat).endTurns (s.homeCluster world queue)).clearTried)

/-- `LOGSZ` as stored. -/
def logszStored (n : Nat) : Nat := if 4 ≤ n ∧ n ≤ 20 then n else 4

/-- `QCTL` after a write: `LOGSZ` and `HOMECL` stay while `EN` is 1; setting `EN` clears `ERR` (R309, R310). -/
def qctlAfter (old v : Nat) : Nat :=
  let keep := bitOf old 0
  packFields [(1, v), (7, 0), (2, bitsOf v 9 8), (4, bitsOf v 13 10),
    (5, if keep then bitsOf old 18 14 else logszStored (bitsOf v 18 14)), (5, if keep then bitsOf old 23 19 else bitsOf v 23 19),
    (3, if bitOf v 0 then 0 else bitsOf old 26 24)]

/-- QCTL_WRITE: a queue that it disables ends its turn. -/
def execQctlWrite (world queue : Nat) (v : BitVec 64) (s : State) : Host.Outcome State Fault Refusal :=
  .next (if s.boot = 1 then
      ((s.modQueue world queue fun y =>
        { y with ctl := BitVec.ofNat 64 (qctlAfter y.ctl.toNat v.toNat), waiting := if bitOf v.toNat 0 then y.waiting else none }).endTurns
          (s.homeCluster world queue)).clearTried
    else s)

/-! ## Parsing (R310, R312) -/

/-- Thread 0 of the home cluster's handle core parses (R311, R326). -/
def State.threadParses (s : State) (w : Nat) : Bool := bitOf (s.part (partOfWorld w)).dutycfg.toNat 0

/-- The launch site of a packet that is parsed (R311, spec/02 R52): its address with bit 0 set and the queue's count; or the handle PC and the
count of thread 0.  Where thread 0's firmware stands is a free value (notes/assumptions/114). -/
def State.packetSite (s : State) (w q at_ : Nat) : W64 × Nat :=
  if s.threadParses w then
    (BitVec.ofNat 64 (8 * Config.freeValue s.free), (s.cluster (s.homeCluster w q)).csns.getD 0 1)
  else (BitVec.ofNat 64 at_ ||| 1, (s.queue w q).csn)

/-- The number of a parsed packet has been given. -/
def State.takePacketCsn (s : State) (w q : Nat) : State :=
  if s.threadParses w then
    s.draw.modCluster (s.homeCluster w q) fun c => { c with csns := modifyAt c.csns 0 nextCsn }
  else s.modQueue w q fun y => { y with csn := nextCsn y.csn }

/-- The packet at `QRD` as parsed. -/
structure Parsed where
  bytes : List Byte
  addr : W64
  hcpc : W64
  csn : Nat
  number : Nat

/-- A field of the packet. -/
def Parsed.field (p : Parsed) (off n : Nat) : Nat := fieldAt p.bytes off n

/-- The packet refused: the queue stops at it, with a record (R310). -/
def State.refusePacket (s : State) (w q : Nat) (p : Parsed) (err : Nat) (code : FaultCode) (addr : W64) : State :=
  (s.modQueue w q fun y => { y.stopped err with waiting := none }).packetRecord w q p.addr p.hcpc p.csn code addr

/-- The packet has started: `QRD` goes past it, and it is live until it completes. -/
def State.startPacket (s : State) (w q : Nat) (p : Parsed) (caddr cinc : Nat) : State :=
  let k : Packet :=
    { number := p.number, addr := p.addr, hcpc := p.hcpc, typ := p.field 0 1, intr := bitOf (p.field 1 1) 1, vec := p.field 2 2,
      caddr := BitVec.ofNat 64 caddr, cinc := BitVec.ofNat 64 cinc, csn := p.csn }
  (s.modQueue w q fun y => { y with qrd := (y.qrd + 1) % 2 ^ 32, live := y.live ++ [k], waiting := none }).tracePacket w q 8 k

/-- Bytes of the packet that are zero. -/
def zeros (bs : List Byte) (off n : Nat) : Bool := fieldAt bs off n == 0

/-- Reserved fields are zero: the header's, and the body's by type (R312). -/
def packetClean (bs : List Byte) : Bool :=
  let t := fieldAt bs 0 1
  let n := fieldAt bs 4 1
  fieldAt bs 1 1 < 4 && zeros bs 5 3 && (if t = 3 then 1 ≤ n && n ≤ 12 else n == 0) &&
  match t with
  | 0 => zeros bs 8 56
  | 1 => zeros bs 0x20 32
  | 2 => fieldAt bs 0x18 8 < 2 ^ 40 && zeros bs 0x30 16
  | 3 => ((rangeFrom 0 n).all fun i => fieldAt bs (0x10 + 4 * i) 4 < 3 * 2 ^ 30) && zeros bs (0x10 + 4 * n) (48 - 4 * n)
  | 4 => fieldAt bs 0x18 1 ≤ 1 && zeros bs 0x19 39
  | 5 => zeros bs 0x15 43
  | 6 => zeros bs 0x19 39
  | _ => true

/-- The parser reads the packet at `QRD` of the queue it serves; a packet of the right type that can start is handed to `body`,
which answers an error where it has to wait (R310, R313). -/
def State.parse (s : State) (w q : Nat) (want : Nat → Bool) (body : State → Parsed → Except State State) : State :=
  if s.served (s.homeCluster w q) != some (w, q) then s else
  let c := s.homeCluster w q
  let x := s.queue w q
  let at_ := x.packetAt x.qrd
  let site := s.packetSite w q at_
  let next (s : State) : State := (s.takePacketCsn w q).countTurn w q
  let made (bs : List Byte) : Parsed := ⟨bs, BitVec.ofNat 64 at_, site.1, site.2, x.qrd⟩
  match (s.acquireSync c).agentRead (s.worldAccess w c) at_ 64 with
  | .wait s1 => s1
  | .fault code a s1 => ((next s1).refusePacket w q (made []) 4 code a).endTurns c
  | .ok bs s1 =>
    if !want (fieldAt bs 0 1) then s
    else if 7 ≤ fieldAt bs 0 1 then ((next s1).refusePacket w q (made bs) 1 .illegalOp 0).endTurns c
    else if !packetClean bs then ((next s1).refusePacket w q (made bs) 2 .illegalOp 0).endTurns c
    else
      match body s1 (made bs) with
      | .ok s2 => (next s2).endTurns c
      | .error s2 => s2

/-- PACKET_UNKNOWN_TYPE. -/
def execPacketUnknownType (world queue : Nat) (s : State) : Host.Outcome State Fault Refusal :=
  .next (s.parse world queue (fun t => 7 ≤ t) fun s _ => .ok s).clearTried

/-! ## The packets (R313) -/

/-- PACKET_NOP. -/
def execPacketNop (world queue : Nat) (s : State) : Host.Outcome State Fault Refusal :=
  .next (s.parse world queue (· == 0) fun s p => .ok ((s.startPacket world queue p 0 0).closePacket world queue p.number)).clearTried

/-- PACKET_LAUNCH: refused with `ERR` 3, or started; or it waits for the grid queue with what it has read, which is read once (R317). -/
def State.packetLaunch (s : State) (w q : Nat) (p : Parsed) : Except State State :=
  let v := s.worldAccess w (s.homeCluster w q)
  let desc := p.field 8 8
  if desc % 256 ≠ 0 then .ok (s.refusePacket w q p 3 .launchBad (BitVec.ofNat 64 desc))
  else
    match match (s.queue w q).waiting with | some x => Checked.ok x s | none => s.readLaunch v desc with
    | .wait s1 => .error s1
    | .fault c a s1 => .ok (s1.refusePacket w q p 3 c a)
    | .ok (d, eq) s1 =>
      if 256 ≤ s1.queuedGrids w then .error (s1.modQueue w q fun y => { y with waiting := some (d, eq) })
      else
        .ok ((s1.startPacket w q p (p.field 0x10 8) (p.field 0x18 8)).acceptGrid w v.ctx d eq p.hcpc p.csn (.packet w q p.number))

/-- PACKET_LAUNCH. -/
def execPacketLaunch (world queue : Nat) (s : State) : Host.Outcome State Fault Refusal :=
  .next (s.parse world queue (· == 1) fun s p => s.packetLaunch world queue p).clearTried

/-- PACKET_COPY: handed to the home cluster's engine. -/
def execPacketCopy (world queue : Nat) (s : State) : Host.Outcome State Fault Refusal :=
  .next (s.parse world queue (· == 2) fun s p =>
    .ok ((s.startPacket world queue p (p.field 0x20 8) (p.field 0x28 8)).modCluster (s.homeCluster world queue) fun k =>
      { k with copyWait := k.copyWait ++ [.packet world queue p.number (BitVec.ofNat 64 (p.field 8 8)) (BitVec.ofNat 64 (p.field 0x10 8))
          (p.field 0x18 8)] })).clearTried

/-! ### FENCE (R314) -/

/-- The counter c satisfies the entry. -/
def fenceMet (entry c : Nat) : Bool :=
  let val := entry % 2 ^ 20
  let c := c % 2 ^ 20
  match bitsOf entry 31 30 with
  | 0 => (c + 2 ^ 20 - val) % 2 ^ 20 < 2 ^ 19
  | 1 => c == val
  | _ => c != val

/-- The entries whose counters are not satisfied yet. -/
def State.fenceLeft (s : State) (v : Access) (cbase : Nat) : List Nat → Checked (List Nat)
  | [] => .ok [] s
  | e :: r =>
    match s.agentRead v ((cbase + 8 * bitsOf e 29 20) % 2 ^ 64) 8 with
    | .fault c a s1 => .fault c a s1
    | .wait s1 =>
      match State.fenceLeft s1 v cbase r with
      | .ok q s2 => .ok (e :: q) s2
      | x => x
    | .ok bs s1 =>
      match State.fenceLeft s1 v cbase r with
      | .ok q s2 => .ok (if fenceMet e (ofBytes bs) then q else e :: q) s2
      | x => x

/-- The counters of the FENCE that the queue waits at, read and compared: it completes, goes on waiting, or stops the queue with
`QRD` at it where a counter cannot be read. -/
def State.wakeFence (s : State) (w q : Nat) : State :=
  let x := s.queue w q
  let c := s.homeCluster w q
  match x.fence, x.live.find? fun p => p.typ == 3 with
  | some es, some p =>
    let stop (s : State) (code : FaultCode) (a : W64) : State :=
      (s.modQueue w q fun y =>
        { y.stopped 4 with qrd := p.number, fence := none, live := y.live.filter fun k => k.number != p.number }).packetRecord w q
          p.addr p.hcpc p.csn code a
    if p.caddr.toNat % 8 ≠ 0 then stop s .align p.caddr
    else
      match (s.acquireSync c).fenceLeft (s.worldAccess w c) p.caddr.toNat es with
      | .fault code a s1 => stop s1 code a
      | .wait s1 => s1
      | .ok [] s1 => (s1.modQueue w q fun y => { y with fence := none }).closePacket w q p.number
      | .ok left s1 => s1.modQueue w q fun y => { y with fence := some left }
  | _, _ => s

/-- PACKET_FENCE: the counters are compared at once, and the queue waits at the others. -/
def execPacketFence (world queue : Nat) (s : State) : Host.Outcome State Fault Refusal :=
  .next (s.parse world queue (· == 3) fun s p =>
    let s1 := s.startPacket world queue p (p.field 8 8) 0
    let es := (rangeFrom 0 (p.field 4 1)).map fun i => p.field (0x10 + 4 * i) 4
    .ok ((s1.modQueue world queue fun y => { y with fence := some es }).wakeFence world queue)).clearTried

/-- FENCE_COUNTER_WAKE. -/
def execFenceCounterWake (world queue : Nat) (s : State) : Host.Outcome State Fault Refusal :=
  .next (s.wakeFence world queue).clearTried

/-! ### SIGNAL, EVENT, HANDLE -/

/-- PACKET_SIGNAL: a write or an add, a release at system scope; one that fails leaves a record, and the packet completes. -/
def State.packetSignal (s : State) (w q : Nat) (p : Parsed) : Except State State :=
  let c := s.homeCluster w q
  let v := s.worldAccess w c
  let a := p.field 8 8
  let done (s : State) : State := (s.startPacket w q p 0 0).closePacket w q p.number
  if s.dirtyHeld c then .error s
  else if a % 8 ≠ 0 then .ok (done (s.packetRecord w q p.addr p.hcpc p.csn .align (BitVec.ofNat 64 a)))
  else
    let s0 := s.writeBackAll c
    let r : Checked Unit :=
      if p.field 0x18 1 = 0 then
        match s0.agentWrites v [(a, bytesOf 8 (p.field 0x10 8))] with
        | .ok _ s1 => .ok () s1
        | .fault c x s1 => .fault c x s1
        | .wait s1 => .wait s1
      else s0.agentUpdate v a fun x => x + p.field 0x10 8
    match r with
    | .ok _ s1 => .ok (done s1)
    | .fault code x s1 => .ok (done (s1.packetRecord w q p.addr p.hcpc p.csn code x))
    | .wait s1 => .error s1

/-- PACKET_SIGNAL. -/
def execPacketSignal (world queue : Nat) (s : State) : Host.Outcome State Fault Refusal :=
  .next (s.parse world queue (· == 4) fun s p => s.packetSignal world queue p).clearTried

/-- `CLUST` as a cluster of the world's partition. -/
def State.namedCluster (s : State) (w n : Nat) : Option Nat :=
  if n < 32 / s.partitions then some (partOfWorld w * (32 / s.partitions) + n) else none

/-- PACKET_EVENT: not started while the world's held posts leave no room (spec/10 R287); it completes when its entry is in the queue. -/
def execPacketEvent (world queue : Nat) (s : State) : Host.Outcome State Fault Refusal :=
  .next (s.parse world queue (· == 5) fun s p =>
    match s.namedCluster world (p.field 0x14 1) with
    | none => .ok (s.refusePacket world queue p 3 .launchBad 0)
    | some c =>
      if !s.canPost c world then .error s
      else
        let s1 := (s.startPacket world queue p 0 0).postFor c
          ⟨world, BitVec.ofNat 32 (p.field 0x10 4), schedSource, BitVec.ofNat 64 (p.field 8 8)⟩ (some (queue, p.number))
        .ok (if (s.cluster c).postNow world then s1.closePacket world queue p.number else s1)).clearTried

/-- The lowest free user handle thread of a cluster. -/
def State.freeThread (s : State) (c : Nat) : Option Nat :=
  (rangeFrom 2 6).find? fun t => !s.gangs.any fun g => g.kind == .handle && g.cluster == c && g.core == t && !g.ended

/-- A routine started on a thread: one canonical fibre of the packet's world (R326). -/
def State.startRoutine (s : State) (w q c t : Nat) (p : Parsed) : State :=
  let (key, s1) := s.takeKey
  let (uid, s2) := s1.takeKey
  let g : Gang :=
    { Gang.fresh key .handle c t (s.worldCtx w) 0 64 with
      hcpc := p.hcpc, csn := p.csn, routine := some (w, q, p.number)
      skeins := [Skein.fresh 32 0 0 true [Fibre.fresh uid 64 (BitVec.ofNat 64 (p.field 8 8)) 0 0 (BitVec.ofNat 64 (p.field 0x10 8))]] }
  { s2 with gangs := (s2.gangs.filter fun h =>
    !(h.kind == .handle && h.cluster == c && h.core == t && h.skeins.all fun sk => sk.record.isEmpty)) ++ [g] }

/-- PACKET_HANDLE: taken by a free thread, for which it waits. -/
def execPacketHandle (world queue : Nat) (s : State) : Host.Outcome State Fault Refusal :=
  .next (s.parse world queue (· == 6) fun s p =>
    match s.namedCluster world (p.field 0x18 1) with
    | none => .ok (s.refusePacket world queue p 3 .launchBad 0)
    | some c =>
      match s.freeThread c, (s.ctx (s.worldCtx world)).map Context.st with
      | some t, some CtxState.running => .ok ((s.startPacket world queue p 0 0).startRoutine world queue c t p)
      | _, _ => .error s).clearTried

end Sys2Proof.Machine
end

