-- ==== Sys2Proof/Machine/Sched.lean ====
section
/-! DEFINITION. The two-level core scheduler, register compaction and migration between core kinds (spec/12 R320 to R323, R325,
spec/02 R45 to R50). -/

namespace Sys2Proof.Machine

/-! ## The active set (R320) -/

/-- A resident skein of a core: its gang, its number and itself. -/
structure Resident where
  gang : Gang
  k : Nat
  sk : Skein

/-- The resident skeins of a core by residency. -/
def State.coreSkeins (s : State) (c : CoreId) : List Resident :=
  let all := (s.residents c.cluster c.core).flatMap fun g => g.skeins.zipIdx.map fun p => (⟨g, p.2, p.1⟩ : Resident)
  (rangeFrom 0 32).flatMap fun i => all.filter fun r => r.sk.residency == i

/-- It has a ready batch. -/
def State.residentReady (s : State) (r : Resident) : Bool :=
  !r.gang.frozen && !r.sk.replaying && !s.compacting r.gang r.sk && s.hasBatch r.gang r.sk

/-- The wait is one of those for which a skein moves out (R320). -/
def Wait.movesOut : Wait → Bool
  | .rjoin | .barw | .sbar | .mwait | .arrwait | .qpop | .evpop | .migrate | .waitc => true
  | _ => false

/-- The fibre waits as R320 means it: at one of those instructions, or on a pending load result. -/
def State.waitsOut (s : State) (g : Gang) (sk : Skein) (x : Fibre) : Bool :=
  x.wait.movesOut || sk.heldByHost x ||
    match s.fetched g x with
    | .instr i _ => sk.holds i x
    | _ => false

/-- An active skein that moves out: no ready batch, and all its live fibres wait. -/
def State.movesOut (s : State) (r : Resident) : Bool :=
  r.sk.active && !s.residentReady r && r.sk.live.all fun p => s.waitsOut r.gang r.sk p.2

/-- The one of greatest ready age, the lower residency first. -/
def eldest : List Resident → Option Resident
  | [] => none
  | a :: r =>
    match eldest r with
    | none => some a
    | some b => if a.sk.age < b.sk.age then some b else some a

/-- The one of smallest ready age, the lower residency first. -/
def youngest : List Resident → Option Resident
  | [] => none
  | a :: r =>
    match youngest r with
    | none => some a
    | some b => if b.sk.age < a.sk.age then some b else some a

/-- A skein moved into the active set, from which it issues 2 clocks later at the earliest, or out of it. -/
def State.setActive (s : State) (r : Resident) (on : Bool) : State :=
  let now := (s.core r.gang.coreNo).clocks
  s.modSkein r.gang.key r.k fun sk =>
    if on then { sk with active := true, issued := false, readyFrom := max sk.readyFrom (now + 2) } else { sk with active := false }

/-- The pending skein that would move in. -/
def State.nextIn (s : State) (c : CoreId) : Option Resident :=
  eldest ((s.coreSkeins c).filter fun r => !r.sk.active && s.residentReady r)

/-- A ready pending skein takes a free active place, or that of an active skein whose fibres all wait. -/
def State.moveIn (s : State) (c : CoreId) : State :=
  match s.nextIn c with
  | none => s
  | some r =>
    if s.activeCount c.cluster c.core < 8 then s.setActive r true
    else
      match (s.coreSkeins c).find? s.movesOut with
      | some a => (s.setActive a false).setActive r true
      | none => s

/-- SKEIN_MOVE_IN. -/
def execSkeinMoveIn (c : CoreId) (s : State) : Host.Outcome State Fault Refusal := .next (s.moveIn c).clearTried

/-- A pending skein of ready age 256 or more replaces an active one, which has issued since it moved in; at most one in eight
clocks. -/
def State.rotate (s : State) (c : CoreId) : State :=
  let n := coreNumber c.cluster c.core
  if s.activeCount c.cluster c.core < 8 || (s.core n).clocks < (s.core n).rotated then s
  else
    match s.nextIn c with
    | none => s
    | some r =>
      if r.sk.age < 256 then s
      else
        let acts := (s.coreSkeins c).filter fun a => a.sk.active && a.sk.issued
        match (acts.find? fun a => !s.residentReady a).or (youngest acts) with
        | some a => ((s.setActive a false).setActive r true).modCore n fun k => { k with rotated := k.clocks + 8 }
        | none => s

/-- FORCED_ROTATION. -/
def execForcedRotation (c : CoreId) (s : State) : Host.Outcome State Fault Refusal := .next (s.rotate c).clearTried

/-! ## Compaction (R322) -/

/-- The grid has a span that waits on the core for a run alone: its kind, not reserved, with residencies and blocks enough. -/
def State.wantsRun (s : State) (c : CoreId) (g : Grid) : Bool :=
  let used := s.runsUsed c.cluster c.core
  let n := runLength g.desc.width g.desc.regs
  s.partOfCluster c.cluster == partOfWorld g.world && g.placed.length < g.desc.spans && kindOfIndex c.core == g.desc.kind
    && !s.reserved c.cluster c.core && s.skeinsHeld c.cluster c.core + g.desc.gangsk ≤ residencyLimit g.desc.kind
    && g.desc.gangsk * n ≤ 512 - (used.map (·.2)).sum && (takeRuns g.desc.gangsk n used).isNone

/-- The grids with a placement that waits on a core for a run, and since when each has waited: kept with every step. -/
def State.wantingOn (s : State) (n : Nat) (k : Core) : Tbl Nat :=
  match s.gangs.find? fun g => !g.ended && g.coreNo == n with
  | none => []
  | some g => (s.grids.filter (s.wantsRun ⟨g.cluster, g.core⟩)).map fun r => (r.key, (tget k.wanting r.key).getD k.clocks)

/-- The grids with a placement that has waited 4,096 clocks of the core for a run. -/
def State.runsWanted (s : State) (c : CoreId) : List Grid :=
  let k := s.core (coreNumber c.cluster c.core)
  s.grids.filter fun g => s.wantsRun c g && (tget k.wanting g.key).any fun t => t + 4096 ≤ k.clocks

/-- A skein's run. -/
def Resident.run (r : Resident) : Nat × Nat := (r.sk.block, runLength r.sk.width r.gang.nregs)

/-- Skeins moved one after another to the lowest free position below their run; the runs in use after, the moves (gang, skein,
new block) and the clocks they take. -/
def moveDown : List Resident → List (Nat × Nat) → List (Nat × Nat) × List (Resident × Nat) × Nat
  | [], used => (used, [], 0)
  | r :: rs, used =>
    let others := used.erase r.run
    match freeRun others r.run.2 with
    | some b =>
      if b < r.run.1 then
        let q := moveDown rs ((b, r.run.2) :: others)
        (q.1, (r, b) :: q.2.1, r.sk.width * r.gang.nregs / 8 + q.2.2)
      else moveDown rs used
    | none => moveDown rs used

/-- How many runs of n blocks are free together, up to a bound. -/
def runsFree (used : List (Nat × Nat)) (n bound : Nat) : Nat :=
  ((rangeFrom 1 bound).filter fun k => (takeRuns k n used).isSome).length

/-- The choices of consecutive skeins in block order, with their cost, whose move opens a run of n blocks that was not free before. -/
def openings (used : List (Nat × Nat)) (rs : List Resident) (n : Nat) : List (Nat × List (Resident × Nat)) :=
  (rs.tails.flatMap fun t => t.inits).filterMap fun xs =>
    let q := moveDown xs used
    if q.2.1.isEmpty || runsFree q.1 n 16 ≤ runsFree used n 16 then none else some (q.2.2, q.2.1)

/-- The cheapest choice. -/
def cheapest : List (Nat × List (Resident × Nat)) → Option (Nat × List (Resident × Nat))
  | [] => none
  | a :: r =>
    match cheapest r with
    | none => some a
    | some b => if b.1 < a.1 then some b else some a

/-- The register file compacted once: the chosen skeins are pending and do not issue for the clocks the moves take, and only the first
blocks of their runs change.  It may run again after a further 4,096 clocks. -/
def State.compact (s : State) (c : CoreId) : State :=
  match s.runsWanted c with
  | [] => s
  | g :: _ =>
    let rs := (rangeFrom 0 512).flatMap fun b => (s.coreSkeins c).filter fun r => r.sk.block == b
    let s0 := s.modCore (coreNumber c.cluster c.core) fun k => { k with wanting := tset k.wanting g.key k.clocks }
    match cheapest (openings (s.runsUsed c.cluster c.core) rs (runLength g.desc.width g.desc.regs)) with
    | none => s0
    | some (cost, moves) =>
      let done := (s.core (coreNumber c.cluster c.core)).clocks + cost
      let s1 := moves.foldl (fun s m => s.modSkein m.1.gang.key m.1.k fun sk => { sk with active := false, block := m.2, moving := done }) s0
      s1.modCore (coreNumber c.cluster c.core) fun k =>
        { k with h := counted (counted k.h 26 moves.length) 27 cost }

/-- COMPACTION. -/
def execCompaction (c : CoreId) (s : State) : Host.Outcome State Fault Refusal := .next (s.compact c).clearTried

/-! ## Migration (spec/02 R45, R49, R50) -/

/-- The other image's registers of a fibre: mapped ones copied, the rest 0; pw is carried (R49). -/
def mapRegs (p : EqPoint) (fromRand : Bool) (n : Nat) (old : List W32) : List W32 :=
  let moved := p.maps.foldl (fun (rs : List W32) m =>
    let a := if fromRand then m.1 else m.2.1
    let b := if fromRand then m.2.1 else m.1
    (rangeFrom 0 (2 ^ m.2.2)).foldl (fun rs i => setAt rs (b + i) (old.getD (a + i) 0)) rs) (List.replicate n 0)
  setAt moved 0 (old.getD 0 0)

/-- Registers that hold uncorrectable data, carried the same way; e-registers stay. -/
def mapPoison (p : EqPoint) (fromRand : Bool) (n : Nat) (old : List Nat) : List Nat :=
  (old.filter fun r => 1000 ≤ r || r == 0) ++ (rangeFrom 1 (n - 1)).filter fun t =>
    p.maps.foldl (fun (bad : Bool) m =>
      let a := if fromRand then m.1 else m.2.1
      let b := if fromRand then m.2.1 else m.1
      if b ≤ t ∧ t < b + 2 ^ m.2.2 then old.contains (a + (t - b)) else bad) false

/-- The RMARK moments of pairs, carried with their low registers. -/
def mapMarks (p : EqPoint) (fromRand : Bool) (n : Nat) (old : List (Nat × Nat)) : List (Nat × Nat) :=
  old.flatMap fun m => (mapPoison p fromRand n [m.1]).map fun r => (r, m.2)

/-- A fibre on the other image, with the result of its MIGRATE; the moment of the move is kept (spec/02 R38). -/
def Fibre.moved (x : Fibre) (p : EqPoint) (fromRand : Bool) (n moment : Nat) : Fibre :=
  let y := x.late.foldl (fun (z : Fibre) l => z.wrPlaces l.1 l.2) x
  let z := { y with
    regs := mapRegs p fromRand n y.regs
    poison := mapPoison p fromRand n y.poison
    late := [], redo := none, marks := mapMarks p fromRand n y.marks, movedAt := moment, wait := .none, waitArg := 0
    pc := if fromRand then p.spc else p.rpc }
  z.wr (migrateReg x) 1

/-- Nothing of the gang that the move waits for is outstanding: L and T are 0, and no deposit is on its way to it. -/
def State.moveReady (s : State) (g : Gang) : Bool :=
  (g.skeins.all fun sk => sk.l == 0 && sk.t == 0)
    && s.gangs.all fun h => h.skeins.all fun sk => sk.record.all fun e => !(e.kind == 0x0C && e.aux == g.key)

/-- The gang moved to its target core; what a stake core's private cache holds goes to the cluster's, where the gang finds it (spec/05
R123). -/
def State.moveGang (s : State) (g : Gang) (gr : Grid) (p : EqPoint) (core : Nat) : State :=
  let shed (s : State) (core : Nat) : State :=
    s.shedPrivate ⟨g.cluster, if kindOfIndex core = .stake then some (coreNumber g.cluster core) else none⟩ fun _ => true
  let s := shed (shed s g.core) core
  let n := gr.otherRegs g
  let width := ((g.skeins.head?).map (·.width)).getD 32
  match s.roomFor g.cluster core g.skeins.length width n with
  | none => s
  | some runs =>
    let res := s.freeResidencies g.cluster core g.skeins.length
    let act := s.activeCount g.cluster core
    let ends := s.movesEnd g.cluster core
    let fromRand := g.image == 0
    let s1 := (s.addCounter g 24 1).trace g.cluster g.ctx
      { kind := 5, src := traceSrc g, skein := 0, leaf := 0, world := s.worldOf g, hcpc := g.hcpc, csn := g.csn,
        pc := ((g.live.head?).map (·.pc)).getD 0, pc2 := 0, mask := 0, data := 1 }
    let (moment, s1) := s1.takeKey
    let s2 := s1.modGang g.key fun y =>
      { y with
        kind := otherKind y.kind, core := core, image := 1 - y.image, nregs := n, target := none
        moves := y.moves ++ [(g.core, p.eqid)]
        skeins := y.skeins.zipIdx.map fun q =>
          { q.1.mapFibres (fun _ x => x.moved p fromRand n moment) with
            block := runs.getD q.2 0, residency := res.getD q.2 0, active := decide (act + q.2 < 8), age := 0, readyFrom := ends, moving := 0, issued := false } }
    s2.dropView g.coreNo g.ctx

/-- A granted gang moves once it may; while it waits for a target, the requests of its cluster are served in arrival order (R323, spec/02
R55). -/
def State.migrate (s : State) (key : Nat) : State :=
  match s.gang key with
  | none => s
  | some g =>
    match g.target, s.grid g.grid with
    | some core, some gr =>
      match gr.eq.find? fun p => some p.eqid == (g.live.head?).map migrateId with
      | some p => if g.frozen || !s.moveReady g then s else s.moveGang g gr p core
      | none => s
    | none, _ => (s.resolveMigrate key).serveRequests g.cluster s.gangs.length
    | _, _ => s

/-- MIGRATION_MOVE. -/
def execMigrationMove (gang : Nat) (s : State) : Host.Outcome State Fault Refusal := .next (s.migrate gang).clearTried

/-! ## Forwarding entries (R325) -/

/-- FORWARD_EXPIRY: the oldest forwarding entry of the cluster ends. -/
def execForwardExpiry (cluster : Nat) (s : State) : Host.Outcome State Fault Refusal :=
  .next (s.modCluster cluster fun k => { k with forwards := k.forwards.drop 1 }).clearTried

end Sys2Proof.Machine
end

