-- ==== Sys2Proof/Machine/Freeze.lean ====
section
/-! DEFINITION. Freezing a context without draining it, saving it, loading it and replaying its record (spec/13 R328 to R346, R354,
spec/05 R134, spec/10 R268, R272, R284, spec/22 R455 to R460). -/

namespace Sys2Proof.Machine

/-! ## Stopping (R328) -/

/-- A fibre at its freeze point: it stands at the multi-clock instruction that it issued last, to compute it again from its sources, and an
expansion whose final word has not issued starts again (spec/11 R300).  Older multi-clock results, past whose instructions the fibre has
issued others, are written (notes/assumptions/41). -/
def Fibre.stopped (x : Fibre) : Fibre :=
  let ls := if x.redo.isSome then x.late.dropLast else x.late
  let y := ls.foldl (fun (z : Fibre) l => z.wrPlaces l.1 l.2) x
  let z := { y with late := [], tried := false, pc := x.redo.getD x.pc, redo := none }
  if z.inTemplate then { z with iopx := 0, expansion := none, pend := [] } else z

/-- A gang at its freeze point; a migration granted and not made is asked for again. -/
def Gang.stopped (g : Gang) : Gang :=
  { g.mapLive Fibre.stopped with target := none, frozen := true }

/-- The gangs of a context that a save holds: all but those that have ended with nothing outstanding. -/
def State.gangsIn (s : State) (ctx : Nat) : List Gang :=
  s.gangs.filter fun g => g.kind != .handle && g.ctx == ctx && !(g.ended && g.skeins.all fun sk => sk.record.isEmpty)

/-- Tagged writes of a gang that have left and not arrived (R335). -/
def Gang.lateCount (g : Gang) : Nat :=
  (g.skeins.map fun sk => (sk.record.map fun e => if e.cls = 1 then (e.ops.filter fun o => lateOp sk e o).length else 0).sum).sum

/-- Every write of a gang that has left and not arrived: entry and slot. -/
def Gang.lateOps (g : Gang) : List (EntryId × Nat) :=
  g.skeins.zipIdx.flatMap fun p => p.1.record.flatMap fun e =>
    (e.ops.filter fun o => lateOp p.1 e o).map fun o => (⟨g.key, p.2, e.seq⟩, o.slot)

/-- The record holds nothing that a port still serves (R342 `PORTFREE`). -/
def Gang.portFree (g : Gang) : Bool :=
  g.skeins.all fun sk => sk.record.all fun e =>
    e.cls != 2 && !(e.portacc && e.ops.any fun o => o.parts.any Part.port) && (e.acked || e.copies.isEmpty)

/-- Stores that their cluster sees already are performed for all: what other agents see of memory from a freeze on they see too (spec/05
R134, R135). -/
def State.settleNear (s : State) (keys : List Nat) : State :=
  let near : List (EntryId × Nat) := (s.gangs.filter fun g => keys.contains g.key).flatMap fun g => g.skeins.zipIdx.flatMap fun p =>
    p.1.record.flatMap fun e => (e.ops.filter fun o => o.near && o.stage == .sent).map fun o => (⟨g.key, p.2, e.seq⟩, o.slot)
  near.foldl (fun s p =>
    match s.located p.1 with
    | none => s
    | some (g, _, e) =>
      match e.op p.2 with
      | none => s
      | some o =>
        match (s.makeTagRoom e o).performOp p.1 g e o with
        | .ok (v, s1) => (s1.putOp p.1 { o with stage := .done, val := v }).closeId p.1
        | .error c => s.failOp p.1 p.2 c) s

/-- The dirty lines of a cluster written to memory, those in frozen frames where the shadow pool has room for them. -/
def State.flushFrozen (s : State) (c : Nat) : State :=
  let dirty := ((s.cluster c).cache ++ (stakesOf c).flatMap fun n => (s.core n).cache).filter CacheLine.isDirty
  let s1 := dirty.foldl (fun s x => s.shadowRange (x.line * 128) 128) s
  if s1.anyHeld c then s1 else s1.flushAll c

/-- The caches of a cluster for gangs that come to it: nothing stale is kept. -/
def State.freshCaches (s : State) (c : Nat) : State :=
  ((stakesOf c).foldl (fun s n => s.shedPrivate ⟨c, some n⟩ fun _ => true) s).acquireSync c

/-- The clusters of some gangs. -/
def clustersOfGangs (gs : List Gang) : List Nat := (gs.map (·.cluster)).dedup

/-- A reference to one of some gangs' operations. -/
def refersTo (keys : List Nat) : CopyRef → Bool
  | .entry id _ => keys.contains id.gang
  | .packet _ _ _ _ _ _ => false

def tileRefersTo (keys : List Nat) : TileRef → Bool
  | .op id => keys.contains id.gang
  | .release _ k => keys.contains k

/-- Some gangs' operations leave the queues they share: tile queues, copy engines, FIFO banks (spec/21 R450: they stay
registered as producers). -/
def State.unqueue (s : State) (keys : List Nat) : State :=
  { s with
    cores := s.cores.map fun p => (p.1, { p.2 with queue := p.2.queue.filter fun r => !tileRefersTo keys r })
    clusters := s.clusters.map fun p => (p.1, { p.2 with
      copyWait := p.2.copyWait.filter fun r => !refersTo keys r
      channels := p.2.channels.filter fun q => !refersTo keys q.2
      banks := p.2.banks.map fun q => (q.1, { q.2 with waiters := q.2.waiters.filter fun w => !keys.contains w.1 }) }) }

/-- The stationary slots that a gang holds, or in which its tile operations still find bytes; a sealed object's bytes stay in the core. -/
def State.slotsHeld (s : State) (g : Gang) : List SavedSlot :=
  let c := s.core (coreNumber g.cluster g.core)
  (rangeFrom 0 4).filterMap fun n =>
    let held := (c.slots[n]?).bind fun x => if x.holder = some g.key then some x else none
    let fill := (c.fill n g.key).map fun f => if f.origin.isSome then { f with data := none, bad := false } else f
    if held.isNone && fill.isNone then none else some ⟨g.key, n, held, fill⟩

/-- The slots that some gangs hold, and their contents, gone from every core. -/
def State.dropSlots (s : State) (keys : List Nat) : State :=
  { s with cores := s.cores.map fun p => (p.1, { p.2 with
      slots := p.2.slots.map fun x => if keys.any (fun k => x.holder == some k) then StatSlot.reset else x
      fills := p.2.fills.filter fun f => !keys.contains f.gang }) }

/-- The sequence base: one more than any core has given for the context (R333). -/
def State.seqNext (s : State) (ctx base : Nat) : Nat :=
  (s.cores.filterMap fun p => tget p.2.seqs ctx).foldl max base

/-- A context's tags leave their homes for its spill region, what does not fit pinned (R335, R455). -/
def State.spillTags (s : State) (c : Context) : State :=
  let mine := s.tags.filter fun t => tagOf c.world c.ctxid t.tag && t.space != 3
  mine.foldl (fun s t => s.addSpill c { t with pinned := false }) { s with tags := s.tags.filter fun t => !mine.contains t }

/-! ## Saving (R328, R342 to R346, R457) -/

/-- What the save writes from the grid table on, for the table at an offset. -/
def saveImage (grids : List Grid) (gs : List Gang) (slots : List SavedSlot) (off : Nat) : List Byte :=
  (grids.flatMap Grid.bytes) ++ gangBlocks grids slots (off + 128 * grids.length) gs

/-- Where the image lies: before the spill region where it fits, else after it (notes/assumptions/34). -/
def AreaHeader.imageAt (h : AreaHeader) (len : Nat) : Nat :=
  if 256 + len ≤ h.spilloff then 256 else roundUpTo 256 (h.spilloff + 32 * h.spillcap)

/-- Bytes of the area from an offset up to the spill region or the end. -/
def AreaHeader.roomAt (h : AreaHeader) (off : Nat) : Nat := (if off < h.spilloff then h.spilloff else h.size) - off

/-- Compaction moves of the gangs' skeins finish, for which the clocks of their cores pass (spec/22 R460). -/
def State.endMoves (s : State) (keys : List Nat) : State :=
  (s.gangs.filter fun g => keys.contains g.key).foldl (fun s g =>
    s.modCore g.coreNo fun k => { k with clocks := (g.skeins.map (·.moving)).foldl max k.clocks }) s

/-- A context frozen and its area written: `hyp` by `WFREEZE`, `out` with its gangs taken off their cores by a SWAPCTX, which writes the image
itself, `ck` as part of a cut, `st` its `STATE` afterwards. -/
def State.saveCtx (s : State) (key : Nat) (hyp out ck : Bool) (st : Nat) : State :=
  match s.ctx key with
  | none => s
  | some c =>
    let keys := (s.gangsIn key).map (·.key)
    let s := (s.settleNear keys).endMoves keys
    let gs0 := s.gangsIn key
    let s := (clustersOfGangs gs0).foldl (fun s c => s.flushFrozen c) s
    let gs := gs0.map Gang.stopped
    let slots := gs0.flatMap s.slotsHeld
    let late := (gs0.map Gang.lateCount).sum
    let grids := s.grids.filter fun g => g.ctx == key
    let seq := s.seqNext key c.seqBase % 2 ^ 31
    let h := s.areaHeader c
    let off := h.imageAt (saveImage grids gs slots 256).length
    let image := saveImage grids gs slots off
    let c' := { c with st := .frozen hyp, saved := gs, slots := slots, image := image, late := late, lates := gs0.flatMap Gang.lateOps, seqBase := seq }
    let s1 := (s.unqueue keys).modCtx key fun _ => c'
    let s2 := { s1 with
      cores := s1.cores.map fun p => (p.1, { p.2 with seqs := tdel p.2.seqs key })
      gangs := if out then s1.gangs.filter fun g => !keys.contains g.key
        else s1.gangs.map fun g => (findGang gs g.key).getD g }
    let s3 : State := if out then gs0.foldl (fun s g => s.dropView g.coreNo key) (s2.dropSlots keys) else s2
    let s4 := (if out then s3 else s3.writeArea c off (image.take (h.roomAt off))).writeHeader c
      { h with
        magic := 0x41535643, ver := 1, state := st, world := c.world, ctxid := c.ctxid, ngang := gs.length
        flags := packFields [(1, boolNat (late == 0)), (1, boolNat ck), (1, boolNat (gs.all Gang.portFree))]
        xroot := c.xroot, featvec := c.featvec.toNat, devid := s.fabricId, ngrid := grids.length, gridoff := off
        gangoff := off + 128 * grids.length, spillcnt := 0, late := late, seq := seq }
    s4.spillTags c'

/-! ## Replay (R338, R339) -/

/-- The operation is not sent again: a parked one, one whose entry stands for an acknowledgement alone, or a load whose value a replay log
gave. -/
def State.keepsResult (s : State) (g : Gang) (e : Entry) (o : SlotOp) : Bool :=
  e.cls == 2 || e.finished || (g.log.mode == 2 && (e.kind == 1 || e.kind == 2) && s.logsLoad (s.worldOf g) o.va o.parts)

/-- One memory operation sent again; without its host translation it waits for it. -/
def State.replayOp (s : State) (id : EntryId) (slot : Nat) : State :=
  match s.located id with
  | none => s
  | some (g, _, e) =>
    match e.op slot with
    | none => s
    | some o =>
      if s.keepsResult g e o then s
      else
        let o := { o with stage := .sent, got := [], near := false }
        match s.askReplay g e o with
        | .ok ps s1 =>
          let s2 := s1.putOp id { o with parts := ps }
          if 8 ≤ e.kind ∧ e.kind ≤ 0x0A ∧ ps.isEmpty = true then (s2.putOp id { o with stage := .done, parts := [] }).closeId id else s2
        | .fault c _ s1 => (s1.putOp id o).failOp id slot c
        | .wait s1 => (s1.putOp id { o with parts := [] }).modSkein id.gang id.skein fun sk => { sk with replaying := true }

/-- A write that now ends at a port waits for its acknowledgement (spec/03 R64). -/
def State.reack (s : State) (id : EntryId) : State :=
  s.modSkein id.gang id.skein fun sk =>
    match sk.entry id.seq with
    | some e =>
      if needsAck e.kind e.ops && e.acked && !e.portacc then
        { sk.modEntry id.seq fun x => { x with acked := false } with ackc := sk.ackc + 1 }
      else sk
    | none => sk

/-- One entry of a record replayed by its class. -/
def State.replayEntry (s : State) (id : EntryId) : State :=
  match s.located id with
  | none => s
  | some (g, _, e) =>
    let slots := e.ops.map (·.slot)
    if e.kind ≤ 0x0A then (slots.foldl (fun s t => s.replayOp id t) s).reack id
    else if e.kind = 0x0B then slots.foldl (fun s t => s.reread id t) s
    else if 0x10 ≤ e.kind ∧ e.kind ≤ 0x13 then
      let again := (e.copies.filter fun c => !c.ended).map (·.slot)
      let s1 := s.modSkein id.gang id.skein fun sk => sk.modEntry id.seq fun x =>
        { x with copies := x.copies.map fun c => if c.ended then c else { c with started := false, record := [], burst := [], landed := [] } }
      s1.modCluster g.cluster fun k => { k with copyWait := k.copyWait ++ again.map fun t => .entry id t }
    else if 0x18 ≤ e.kind ∧ e.kind ≤ 0x1D then
      if e.ops.all SlotOp.complete then s
      else (s.modTile id fun t => { t with started := false }).pushTile g (.op id)
    else s

/-- A replay's slots counted: the beats of the entry's mask (spec/15 R376). -/
def State.countReplay (s : State) (g : Gang) (e : Entry) : State :=
  s.mapCounters g fun t => charged t 3 (beatsOf g.kind (slotsOf e.mask))

/-- A gang's records replayed in order. -/
def State.replayGang (s : State) (key : Nat) : State :=
  match s.gang key with
  | none => s
  | some g =>
    g.skeins.zipIdx.foldl (fun s p => p.1.record.foldl (fun s e => (s.replayEntry ⟨key, p.2, e.seq⟩).countReplay g e) s) s

/-- The operations that waited for a host translation tried again; the skein goes on when none waits any more (R339). -/
def State.replayWaiting (s : State) (key k : Nat) : State :=
  match s.skein key k with
  | none => s
  | some sk =>
    if !sk.replaying then s else
    let waits (sk : Skein) : List (Nat × Nat) :=
      sk.record.flatMap fun e => if e.kind ≤ 0x0A && e.cls != 2 then (e.ops.filter fun o => o.parts.isEmpty && o.stage == .sent).map fun o => (e.seq, o.slot) else []
    let s1 := (waits sk).foldl (fun s p => (s.replayOp ⟨key, k, p.1⟩ p.2).reack ⟨key, k, p.1⟩) s
    s1.modSkein key k fun y => { y with replaying := !(waits y).isEmpty }

/-! ## Parked completions (R338) -/

/-- The parked operation of a completion among the resident gangs. -/
def State.findParked (s : State) (c : Completion) : Option (EntryId × Gang × Entry × SlotOp) :=
  s.gangs.findSome? fun g =>
    if g.frozen then none else
    g.skeins.zipIdx.findSome? fun p =>
      p.1.record.findSome? fun e =>
        if e.cls = 2 ∧ e.tag = c.tag then (e.ops.find? fun o => o.slot == c.slot).map fun o => (⟨g.key, p.2, e.seq⟩, g, e, o) else none

/-- A completion delivered to its parked entry: an atomic's or a load's value, or a write's acknowledgement; any other status as
spec/21 R447 and R453 say. -/
def State.deliverParked (s : State) (c : Completion) : State :=
  match s.findParked c with
  | none => s
  | some (id, g, e, o) =>
    if hostAtom e o then s.completeAtom id g e o c.status (c.value.toNat % 2 ^ (8 * e.size))
    else if loadLike e.kind then
      if c.status = 0 then s.deliver id g e o (c.value.toNat % 2 ^ (8 * e.size)) else s.failOp id o.slot .timeout
    else
      let s1 := if c.status = 0 then s else s.writeRecord (s.impreciseRecord g id.skein e .timeout o.va (maskOf [o.slot]) (s.portSource g o .timeout))
      let s2 := s1.putOp id { o with stage := .done }
      if (s2.located id).any (fun q => q.2.2.finished) then (s2.modSkein id.gang id.skein fun y => y.ackEntry id.seq).closeId id else s2

/-- The ring's entries for a context consumed, and then the completions held at the port for it (R338). -/
def State.matchParked (s : State) (c : Context) : State :=
  let mine (d : Completion) : Bool := tagOf c.world c.ctxid d.tag
  let s1 : State :=
    match s.parkArea c.world with
    | .error _ => s
    | .ok a =>
      let all := s.parked a
      if all.any mine then (all.filter mine).foldl (fun s d => s.deliverParked d) (s.keepParked c.world a (all.filter fun d => !mine d))
      else s
  let held := (s1.world c.world).held
  let s2 := (held.filter mine).foldl (fun s d => s.deliverParked d) (s1.modWorld c.world fun x => { x with held := held.filter fun d => !mine d })
  if (s2.world c.world).held.isEmpty then s2.modWorld c.world fun x => { x with heldReported := false } else s2

/-- PARKED_COMPLETION: appended for a frozen context, delivered to a resident one. -/
def execParkedCompletion (c : Completion) (s : State) : Host.Outcome State Fault Refusal :=
  .next (match s.findParked c with
    | some _ => (s.deliverParked c).clearTried
    | none => s.parkFor c)

/-! ## Loading (R335, R339, R346) -/

/-- A gang put back on its core: runs, residencies and places in the active set are given anew; `AMASK` and `FMASK` are the parked
sub-skein (R345).  None where the core has no room. -/
def State.seatGang (s : State) (ctx : Nat) (g : Gang) : Option State :=
  match s.roomFor g.cluster g.core g.skeins.length (((g.skeins.head?).map (·.width)).getD 32) g.nregs with
  | none => none
  | some runs =>
    let res := s.freeResidencies g.cluster g.core g.skeins.length
    let act := s.activeCount g.cluster g.core
    let seat (q : Skein × Nat) : Skein :=
      let parked := maskOf ((q.1.live.filter fun p => p.2.parked).map (·.1))
      { q.1.mapFibres (fun _ x => if x.parked then { x with amask := parked, fmask := parked } else x) with
        block := runs.getD q.2 0, residency := res.getD q.2 0, active := decide (act + q.2 < 8), age := 0, readyFrom := s.movesEnd g.cluster g.core, moving := 0, issued := false, replaying := false }
    some ({ s with gangs := s.gangs ++ [{ g with ctx := ctx, frozen := false, skeins := g.skeins.zipIdx.map seat }] }.modCluster g.cluster fun k =>
      { k with idle := false })

/-- A saved slot put back: held as it was, plain bytes as saved, a sealed object decrypted again from its global image (spec/10 R272). -/
def State.seatSlot (s : State) (x : SavedSlot) : State :=
  match s.gang x.gang with
  | none => s
  | some g =>
    let s1 := match x.held with
      | some h => s.setStat g x.slot { h with holder := some x.gang }
      | none => s
    match x.fill with
    | none => s1
    | some f => (s1.modCore (coreNumber g.cluster g.core) fun c => c.putFill f).reopen g f

/-- Once the tile operations of resumed gangs stand in their queues again: what a slot that a gang no longer holds has for it goes when
they are done (spec/10 R271). -/
def State.requeueReleases (s : State) (slots : List SavedSlot) : State :=
  (slots.filter fun x => x.held.isNone).foldl (fun s x =>
    match s.gang x.gang with
    | some g => s.pushTile g (.release x.slot x.gang)
    | none => s) s

/-- A slot that a gang is to hold again is held by another on its core. -/
def State.slotTakenBy (s : State) (gs : List Gang) (x : SavedSlot) : Bool :=
  x.held.isSome && gs.any fun g => g.key == x.gang &&
    (((s.core (coreNumber g.cluster g.core)).slots[x.slot]?).bind (·.holder)).any fun k => !gs.any fun h => h.key == k

/-- Where a spill entry belongs on this device: the slice of its address, the cluster or the core of its tag's issuer (R335;
notes/assumptions/77). -/
def State.spillHome (s : State) (c : Context) (t : TagEntry) : Nat :=
  let core := bitsOf t.tag.toNat 39 31
  match t.space with
  | 0 =>
    match s.leafOf c.key t.addr.toNat with
    | .ok (l, _) =>
      (s.tagPlace (.plain .dev (absAddr (partOfWorld c.world) (l.pa + (t.addr.toNat % 2 ^ 56 - l.page * 2 ^ 18))) 1)).2
    | .error _ => 0
  | 1 => if core < 384 then core / 12 else (core - 384) / 4
  | _ => core

/-- Spill entries of an area, as entries of this device's homes. -/
def State.spillsOf (s : State) (c : Context) (h : AreaHeader) (bs : List Byte) : List TagEntry :=
  (rangeFrom 0 h.spillcnt).map fun i =>
    let t := spillOfBytes ((bs.drop (32 * i)).take 32)
    { t with home := s.spillHome c t }

/-- The reserved bytes and values of spill entries are as they must be (R335). -/
def spillsClean (n : Nat) (bs : List Byte) : Bool :=
  (rangeFrom 0 n).all fun i => fieldAt bs (32 * i + 0x12) 6 == 0 && fieldAt bs (32 * i + 0x11) 1 < 3 && fieldAt bs (32 * i + 0x10) 1 < 64

/-- What an area holds, as the save left it where the bytes are the save's own, or made again from the bytes. -/
def State.areaGangs (s : State) (c : Context) (h : AreaHeader) : Except (FaultCode × Nat) (Option (List Gang × List SavedSlot × State)) :=
  match s.readArea c 0 h.size with
  | .error e => .error e
  | .ok bs =>
    let n := min c.image.length (h.roomAt h.gridoff)
    if !h.shaped || !spillsClean h.spillcnt (bs.drop h.spilloff) then .ok none
    else if h.ngang == c.saved.length && (bs.drop h.gridoff).take n == c.image.take n && n != 0 then .ok (some (c.saved, c.slots, s))
    else if h.ngang = 0 ∧ h.ngrid = 0 then .ok (some ([], [], s))
    else .ok (s.rebuild c h bs)

/-- What becomes of a load. -/
inductive Loading where
  | done (s : State)
  /-- A core has no room yet. -/
  | full
  /-- The area is malformed, or a line of it cannot be read. -/
  | bad (why : Option (FaultCode × Nat))

/-- A frozen context put back on its cores: gangs, slots, tags, then the replay and the parked completions; its header says it is
resident (R346). -/
def State.loadCtx (s : State) (key : Nat) : Loading :=
  match s.ctx key with
  | none => .bad none
  | some c =>
    let h := s.areaHeader c
    let placed : Option (List Gang × List SavedSlot × State) ⊕ Loading :=
      if c.frames.isEmpty then .inl (some (c.saved, c.slots, s))
      else
        match s.areaGangs c h with
        | .error e => .inr (.bad (some e))
        | .ok none => .inr (.bad none)
        | .ok (some q) => .inl (some q)
    match placed with
    | .inr l => l
    | .inl none => .bad none
    | .inl (some (gs, slots, s1)) =>
      let old := c.saved.map (·.key)
      let s1 := s1.dropSlots old
      let off := { s1 with
        gangs := s1.gangs.filter fun g => !(g.frozen && (old.contains g.key || gs.any fun x => x.key == g.key))
        far := s1.far.filter fun f => !old.contains f.op.gang || gs.any fun x => x.key == f.op.gang }
      if slots.any (off.slotTakenBy gs) then .full else
      match gs.foldl (fun (o : Option State) g => o.bind fun s => s.seatGang key g) (some off) with
      | none => .full
      | some s2 =>
        let s2 := (clustersOfGangs gs).foldl (fun s c => s.freshCaches c) s2
        let spills := match s2.readArea c h.spilloff (32 * h.spillcnt) with | .ok bs => s2.spillsOf c h bs | .error _ => []
        let s3 := { s2 with tags := (s2.tags.map fun (t : TagEntry) => if tagOf c.world c.ctxid t.tag then { t with pinned := false } else t) ++ spills }
        let s4 := slots.foldl (fun s x => s.seatSlot x) s3
        let s5 := s4.modCtx key fun x => { x with st := .running, saved := [], slots := [], image := [], late := 0, lates := [] }
        let s6 := s5.writeHeader c { h with state := 2, featvec := c.featvec.toNat, spillcnt := 0, ngang := 0, ngrid := 0, late := 0 }
        let s7 := (gs.foldl (fun s g => s.replayGang g.key) s6).requeueReleases slots
        let s8 := s7.matchParked c
        .done ((gs.foldl (fun s g => s.settleGang g.key) s8).clearTried)

/-! ## `WFREEZE` (R329) -/

/-- The frames of an area of n bytes: every page of it translated for writing; none where a page is not device memory. -/
def State.areaFrames (s : State) (v : Access) : Nat → Nat → Nat → Checked (Option (List Nat))
  | 0, _, _ => .ok (some []) s
  | fuel + 1, va, n =>
    if n = 0 then .ok (some []) s else
    let k := firstLen va n
    match s.checkGlobal v.ctx v.world v.fv .engineWrite va k 1 with
    | .fault c a s1 => .fault c a s1
    | .wait s1 => .wait s1
    | .ok ps s1 =>
      match ps with
      | [p] =>
        if p.home != .dev then .ok none s1
        else
          match State.areaFrames s1 v fuel ((va + k) % 2 ^ 64) (n - k) with
          | .ok r s2 => .ok (r.map fun fs => (p.addr - va % 2 ^ 18) :: fs) s2
          | x => x
      | _ => .ok none s1

/-- The area of a context translated again and its frames recorded (spec/22 R457): in the context itself, as no thread's stands for it; where
a page of it does not translate, the frames of the load stand (notes/assumptions/129). -/
def State.rerecord (s : State) (c : Context) : State :=
  if c.frames.isEmpty then s
  else
    let n := (s.areaHeader c).size
    match s.areaFrames ⟨c.key, c.world, c.featvec.toNat, 0, 5⟩ (n / 2 ^ 18 + 2) c.area.toNat n with
    | .ok (some frames) s1 => s1.modCtx c.key fun x => { x with frames := frames }
    | _ => s

/-- Threads of a world stop or go on with their world's contexts (R329, R240). -/
def State.holdThreads (s : State) (w : Nat) (on : Bool) : State :=
  { s with gangs := s.gangs.map fun g => if g.kind = .handle ∧ s.worldOf g = w then { g with frozen := on } else g }

def wfreezeBusy (v : Nat) : Bool := bitOf v 63

/-- WFREEZE_GO: the world's scheduling stops, and `BUSY` stands until each of its contexts has been frozen. -/
def State.startFreeze (s : State) (p v : Nat) : State :=
  let w := v % 256
  if wfreezeBusy (s.part p).wfreeze || bitOf v 9 then s
  else
    let busy := w / 64 = p ∧ (s.ctxs.any fun c => c.world == w && c.st == .running) = true
    let s1 := s.modPart p fun x => { x with wfreeze := w + (if busy then 2 ^ 63 else 0) }
    if w / 64 = p then (s1.modWorld w fun x => { x with frozen := true }).holdThreads w true else s1

/-- WFREEZE_GO. -/
def execWfreezeGo (w : RegWrite) (s : State) : Host.Outcome State Fault Refusal :=
  .next (match s.writer w with
    | some p => s.startFreeze p w.v.toNat
    | none => s)

/-- FREEZE_POINT: one context of the world that `WFREEZE` names is frozen and saved; with the last of them `BUSY` clears. -/
def State.freezePoint (s : State) (key : Nat) : State :=
  match s.ctx key with
  | none => s
  | some c =>
    let p := partOfWorld c.world
    let v := (s.part p).wfreeze
    if c.st != .running || !wfreezeBusy v || v % 256 != c.world then s
    else
      let s1 := s.saveCtx key true false false 1
      if s1.ctxs.any fun x => x.world == c.world && x.st == .running then s1
      else s1.modPart p fun x => { x with wfreeze := c.world }

/-- FREEZE_POINT. -/
def execFreezePoint (ctx : Nat) (s : State) : Host.Outcome State Fault Refusal := .next (s.freezePoint ctx).clearTried

/-- A record that a resume cannot bring a context back (spec/22 R458). -/
def State.resumeRecord (s : State) (w : Nat) (code : FaultCode) (line : Nat) : State :=
  let pf := 64 * partOfWorld w
  s.writeRecord
    { code := code, imp := true, stake := false, guest := false, iopx := 0, term := false, world := pf, skg := 0xF0, eqid := 0,
      pc := 0, pc2 := 0, fmask := 0, amask := srcWord 7 0 0 0 0, addr := BitVec.ofNat 64 (line * 128 % 2 ^ 52), hcpc := 0, csn := 0,
      ctx := s.worldCtx pf, cluster := 0 }

/-- One context that `WFREEZE` froze resumed; one whose area cannot be read stays frozen. -/
def State.resumeCtx (s : State) (c : Context) : State :=
  match s.loadCtx c.key with
  | .done s1 => s1
  | .full => s
  | .bad none => s
  | .bad (some (code, line)) => s.resumeRecord c.world code line

/-- WFREEZE_RESUME. -/
def State.resumeWorld (s : State) (p v : Nat) : State :=
  let w := v % 256
  if wfreezeBusy (s.part p).wfreeze || bitOf v 8 then s
  else
    let s1 := s.modPart p fun x => { x with wfreeze := w }
    if w / 64 ≠ p then s1
    else
      let s2 := (s1.modWorld w fun x => { x with frozen := false }).holdThreads w false
      (s2.ctxs.filter fun c => c.world == w && c.st == .frozen true).foldl (fun s c => (s.rerecord c).resumeCtx c) s2

/-- WFREEZE_RESUME. -/
def execWfreezeResume (w : RegWrite) (s : State) : Host.Outcome State Fault Refusal :=
  .next (match s.writer w with
    | some p => (s.resumeWorld p w.v.toNat).clearTried
    | none => s)

end Sys2Proof.Machine
end

