-- ==== Sys2Proof/Machine/Swap.lean ====
section
/-! DEFINITION. SWAPCTX, switch requests, and the relocation of a span between clusters (spec/08 R239, R240, spec/12 R324, R325,
R327, spec/13 R354, spec/11 R307, spec/22 R457 to R459, R464 to R466). -/

namespace Sys2Proof.Machine

/-! ## The checks (phase 0) -/

/-- The device's features as a world sees them: `WVER` is not masked (spec/11 R307). -/
def State.worldFeatures (s : State) (w : Nat) : W64 := (0x103FF : W64) &&& ((s.world w).featmsk ||| 0xFF0000)

/-- The context that an area is or was loaded from. -/
def State.ctxAt (s : State) (w : Nat) (area : W64) : Option Context := s.ctxs.find? fun c => c.world == w && c.area == area && c.frames != []

/-- The context of a number. -/
def State.ctxNamed (s : State) (w ctxid : Nat) : Option Context := s.ctxs.find? fun c => c.world == w && c.ctxid == ctxid

/-- What an area saved elsewhere must meet (spec/13 R354, spec/22 R464). -/
def State.portable (s : State) (w : Nat) (h : AreaHeader) : Bool :=
  h.devid == s.fabricId || h.isNew ||
    (h.featvec == (s.worldFeatures w).toNat && h.settled && h.portfree && h.spillcnt != h.spillcap)

/-- `STATUS` of the checks on the incoming and outgoing headers. -/
def State.swapStatus (s : State) (w : Nat) (a : W64) (inH : AreaHeader) (outH : Option AreaHeader) : Nat :=
  if inH.world != w || outH.any (fun h => h.world != w) then 1
  else if !inH.shaped || outH.any (fun h => !h.shaped) || !s.portable w inH then 2
  else if inH.state != 1 || outH.any (fun h => h.state == 3)
      || (s.ctxNamed w inH.ctxid).any (fun c => c.st == .running || c.st == .swapping) then 3
  else if outH.isSome && !(s.ctxAt w a).any (fun c => c.st == .running) then 4
  else 0

/-! ## The swap -/

/-- How far a swap has come. -/
inductive Swap where
  | ended (status : Nat) (s : State)
  /-- Ended with `STATUS` 2 after its checks, with so many units of the incoming area read (spec/22 R458). -/
  | failed (units : Nat) (s : State)
  | fault (code : FaultCode) (addr : W64) (s : State)
  /-- Still checking: nothing has happened. -/
  | wait (s : State)
  /-- A unit is done: the phase, and the units done in it. -/
  | going (phase units : Nat) (s : State)
  /-- It waits there. -/
  | hold (phase units : Nat) (s : State)

/-- `STATE` of a context's area written. -/
def State.setAreaState (s : State) (c : Context) (st : Nat) : State := s.writeHeader c { s.areaHeader c with state := st }

/-- The keys of an unprotected world are made at its first load (spec/14 R368). -/
def State.makeKeys (s : State) (w : Nat) : State :=
  if (s.world w).key = 0 && !s.isProtected w then s.modWorld w fun x => { x with key := 1 } else s

/-- Phase 0: the checks; then both areas stand in the swap, and the outgoing context is frozen. -/
def State.swapCheck (s : State) (v : Access) (a c : W64) : Swap :=
  let w := v.world
  if c.toNat % 4096 ≠ 0 ∨ a.toNat % 4096 ≠ 0 then .ended 2 s
  else
    match s.agentRead v c.toNat 256 with
    | .fault e x s1 => .fault e x s1
    | .wait s1 => .wait s1
    | .ok inB s1 =>
      match if a = 0 then .ok [] s1 else s1.agentRead v a.toNat 256 with
      | .fault e x s2 => .fault e x s2
      | .wait s2 => .wait s2
      | .ok outB s2 =>
        let inH := AreaHeader.ofBytes inB
        let st := s2.swapStatus w a inH (if a = 0 then none else some (AreaHeader.ofBytes outB))
        if st ≠ 0 then .ended st s2
        else
          match s2.areaFrames v (inH.size / 2 ^ 18 + 2) c.toNat inH.size with
          | .fault e x s3 => .fault e x s3
          | .wait s3 => .wait s3
          | .ok none s3 => .ended 2 s3
          | .ok (some frames) s3 =>
            let n := s3.takeKey
            let old := s3.ctxNamed w inH.ctxid
            let x : Context :=
              match old with
              | some o => { o with area := c, frames := frames, st := .swapping }
              | none => ⟨n.1, inH.ctxid, w, inH.xroot, s3.worldFeatures w, c, frames, inH.seq, .swapping, [], [], [], 0, []⟩
            let s4 : State := match old with
              | some o => s3.modCtx o.key fun _ => x
              | none => { n.2 with ctxs := n.2.ctxs ++ [x] }
            let s5 := s4.setAreaState x 3
            match if a = 0 then none else s5.ctxAt w a with
            | some o => .going 1 0 (s5.saveCtx o.key false true false 3)
            | none => .going 2 0 s5

/-- Phase 1: one unit of 256 bytes of the outgoing context's image written. -/
def State.swapSave (s : State) (w : Nat) (a : W64) (n : Nat) : Swap :=
  match s.ctxAt w a with
  | none => .going 2 0 s
  | some o =>
    let h := s.areaHeader o
    let image := o.image.take (h.roomAt h.gridoff)
    if 256 * n < image.length then .going 1 (n + 1) (s.writeArea o (h.gridoff + 256 * n) ((image.drop (256 * n)).take 256))
    else .going 2 0 s

/-- The swap's areas left as its end leaves them: the outgoing one saved, the incoming one as it was where it could not be loaded. -/
def State.swapClose (s : State) (w : Nat) (a : W64) : State :=
  match if a = 0 then none else s.ctxAt w a with
  | some o => s.setAreaState o 1
  | none => s

def State.swapFail (s : State) (w : Nat) (a : W64) (x : Context) (n : Nat) : Swap :=
  .failed n (((s.setAreaState x 1).modCtx x.key fun y => { y with st := .frozen false }).swapClose w a)

/-- The context that a swap loads. -/
def State.incoming? (s : State) (w : Nat) (c : W64) : Option Context := (s.ctxAt w c).filter fun x => x.st == .swapping

/-- Phase 2: once the incoming area is settled, one unit of 256 bytes of it read. -/
def State.swapRead (s : State) (w : Nat) (a c : W64) (n : Nat) : Swap :=
  match s.incoming? w c with
  | none => .failed n s
  | some x =>
    let s1 := s.makeKeys w
    match s1.readArea x 0 256 with
    | .error _ => s1.swapFail w a x n
    | .ok bs =>
      let h := AreaHeader.ofBytes bs
      if !h.shaped || h.world != w then s1.swapFail w a x n
      else if !h.isNew && !h.settled then .hold 2 n s1
      else if h.size ≤ 256 * n then .going 3 0 s1
      else
        match s1.readArea x (256 * n) (min 256 (h.size - 256 * n)) with
        | .error _ => s1.swapFail w a x n
        | .ok _ => .going 2 (n + 1) s1

/-- Phase 3: the incoming context put on its cores, once they have room. -/
def State.swapStart (s : State) (w : Nat) (a c : W64) : Swap :=
  match s.incoming? w c with
  | none => .failed 0 s
  | some x =>
    let h := s.areaHeader x
    let s2 := { s.modCtx x.key fun y => { y with ctxid := h.ctxid, xroot := h.xroot, featvec := s.worldFeatures w, seqBase := h.seq } with
      tlb := s.tlb.filter fun t => t.ctx != x.key }
    match s2.loadCtx x.key with
    | .done s3 => .ended 0 (s3.swapClose w a)
    | .full => .hold 3 0 s
    | .bad _ => s.swapFail w a x ((h.size + 255) / 256)

/-- One step of a swap from where it stands. -/
def State.swapStep (s : State) (v : Access) (a c : W64) (phase n : Nat) : Swap :=
  match phase with
  | 0 => s.swapCheck v a c
  | 1 => s.swapSave v.world a n
  | 2 => s.swapRead v.world a c n
  | _ => s.swapStart v.world a c

/-- The value of `PIDX` (R239). -/
def swapIndex (phase n : Nat) : W32 := BitVec.ofNat 32 (2 ^ 30 * phase + n)

/-- SWAPCTX (R239, R240): one unit after another, from where `PIDX` says; a thread whose last swap has ended starts with the checks. -/
def execSwapctx (f : SF) (s : State) : Host.Outcome State Fault Refusal :=
  s.issueWith (.swapctx f) fun b s =>
    match b.run with
    | [] => .done [] s
    | (t, x) :: _ =>
      let a := x.pair f.sa.toNat
      let c := x.pair f.sb.toNat
      let w := s.worldB b
      let at_ := if b.g.work.swap then x.pidx.toNat else 0
      let mark (on : Bool) (p : W32) (s : State) : State :=
        (s.modGang b.g.key fun g => { g with work := { g.work with swap := on } }).modSkein b.g.key b.k fun sk =>
          sk.mapFibres fun _ y => { y with pidx := p }
      match s.swapStep ⟨b.g.ctx, w, s.featvecOf b.g, b.g.cluster, 5⟩ a c (at_ / 2 ^ 30) (at_ % 2 ^ 30) with
      | .ended st s1 => .done [(t, .next (x.wr f.dst.toNat (BitVec.ofNat 32 st)))] (mark false 0 s1)
      | .failed n s1 =>
        .done [(t, .stay { x.wr f.dst.toNat 2 with pidx := swapIndex 2 n, wait := .none, waitArg := 0 }.advance)] (mark false 0 s1)
      | .fault e q s1 => .done [(t, .fault e q)] s1
      | .wait s1 => .held .none s1
      | .going p n s1 => .again (mark true (swapIndex p n) s1)
      | .hold p n s1 => .held .none (mark true (swapIndex p n) s1)

/-! ## Switch requests (spec/12 R327) -/

/-- CSWCTL_GO: a request joins those of its cluster. -/
def State.requestSwitch (s : State) (w v : Nat) : State :=
  if (s.world w).cswbusy then s
  else
    let cl := bitsOf v 7 3
    let go := bitOf v 63
    let s1 := s.modWorld w fun x => { x with cswcl := cl, cswbusy := go }
    if go then
      s1.modCluster (partOfWorld w * (32 / s.partitions) + cl % (32 / s.partitions)) fun k => { k with switches := k.switches ++ [w] }
    else s1

/-- CSWCTL_GO; the register answers once the boot has ended. -/
def execCswctlGo (world : Nat) (v : BitVec 64) (s : State) : Host.Outcome State Fault Refusal :=
  .next (if s.boot = 1 then s.requestSwitch world v.toNat else s)

/-- A request ends: its status, and the event for the world. -/
def State.endSwitch (s : State) (cluster w status : Nat) : State :=
  let s1 := s.modWorld w fun x => { x with cswst := status, cswbusy := false, cswbegun := false }
  (s1.modCluster cluster fun k => { k with switches := k.switches.drop 1 }).postEvent cluster
    ⟨w, BitVec.ofNat 32 (0x83000000 + w), schedSource, BitVec.ofNat 64 status⟩

/-- A swap carried on until it ends or waits. -/
def State.swapRun (s : State) (v : Access) (a c : W64) : Nat → Nat → Nat → Swap
  | 0, p, n => .hold p n s
  | fuel + 1, p, n =>
    match s.swapStep v a c p n with
    | .going q m s1 => State.swapRun s1 v a c fuel q m
    | r => r

/-- SWITCH_REQUEST_SERVE: the oldest request of a cluster, in its own world; a freeze of the world holds it. -/
def State.serveSwitch (s : State) (cluster : Nat) : State :=
  match (s.cluster cluster).switches with
  | [] => s
  | w :: _ =>
    let x := s.world w
    let began (s : State) : State := s.modWorld w fun y => { y with cswbegun := true }
    if x.frozen then s
    else
      match s.swapRun (s.worldAccess w cluster) x.cswout x.cswin (2 ^ 32) (if x.cswbegun then 2 else 0) 0 with
      | .ended st s1 => s1.endSwitch cluster w st
      | .failed _ s1 => s1.endSwitch cluster w 2
      | .wait s1 => s1
      | .going _ _ s1 => began s1
      | .hold _ _ s1 => began s1
      | .fault code addr s1 =>
        (s1.writeRecord
          { code := code, imp := true, stake := false, guest := false, iopx := 0, term := false, world := w, skg := 0xF1, eqid := 0,
            pc := 0, pc2 := 0, fmask := 0, amask := srcWord 7 cluster 0 0 0, addr := addr, hcpc := 0, csn := 0,
            ctx := s1.worldCtx w, cluster := cluster }).endSwitch cluster w 2

/-- SWITCH_REQUEST_SERVE. -/
def execSwitchRequestServe (cluster : Nat) (s : State) : Host.Outcome State Fault Refusal := .next (s.serveSwitch cluster).clearTried

/-! ## Relocation (spec/12 R324, R325) -/

/-- The target cluster can hold the span on the same core indices, and the old one has a forwarding entry free. -/
def State.relocatable (s : State) (gr : Grid) (gs : List Gang) (old new : Nat) : Bool :=
  let d := gr.desc
  let p := partOfWorld gr.world
  old != new && (s.clustersOf p).contains new && !gs.isEmpty
    && !(s.gangs.any fun h => h.ended && h.kind != .handle && h.cluster == old && h.grid == gr.key && h.skeins.any fun sk => !sk.record.isEmpty) && (gs.all fun g => g.cluster == old && !g.frozen && g.target.isNone)
    && ((s.ctx gr.ctx).map fun c => c.st == .running).getD false && (s.part p).pscur == 0 && !(s.world gr.world).frozen
    && s.admits new gr.world d.pers d.width
    && (gs.all fun g => !s.reserved new g.core
        && (s.roomFor new g.core g.skeins.length (((g.skeins.head?).map (·.width)).getD 32) g.nregs).isSome)
    && (d.footBanks.all fun b => footprintBank gr.world ((s.cluster new).bank b))
    && !s.waysStuck new d.footBanks && !s.anyHeld old
    && (gs.all fun g => (s.slotsHeld g).all fun x =>
        x.held.isNone || (((s.core (coreNumber new g.core)).slots[x.slot]?).bind (·.holder)).isNone)
    && (s.cluster old).forwards.length < 64

/-- The footprint's bytes streamed to the same addresses of the new cluster, poison kept (spec/22 R465). -/
def State.streamFootprint (s : State) (old new a n : Nat) : State :=
  let bytes := (s.cluster old).scratch.readBytes a n
  let bad := (s.cluster old).scratchPoison.filter fun x => a ≤ x && x < a + n
  s.modCluster new fun k => { k with scratch := k.scratch.writeBytes a bytes, scratchPoison := k.scratchPoison ++ bad }

/-- The old cluster's footprint banks let go. -/
def State.dropFootprint (s : State) (c grid span : Nat) : State :=
  s.modCluster c fun k =>
    let mine := fun (p : Nat × Bank) => p.2.foot == some (grid, span)
    let back := (k.banks.filter fun p => mine p && p.2.turned && !p.2.byCfg).map (·.1)
    { k with
      banks := k.banks.map fun p => if mine p then (p.1, p.2.leaveFootprint) else p
      scratch := back.foldl (fun m n => m.clear (n * 2 ^ 18) (2 ^ 18)) k.scratch
      scratchPoison := k.scratchPoison.filter fun a => !back.contains (a / 2 ^ 18) }

/-- What the old cluster has seen of host and peer memory, the new one sees (spec/05 R123). -/
def State.seeAs (s : State) (old new : Nat) : State :=
  { s with far := s.far.map fun f => if f.seen.contains old && !f.seen.contains new then { f with seen := f.seen ++ [new] } else f }

/-- RELOCATION: a span frozen without draining, its footprint streamed, and its gangs resumed on the same core indices of another
cluster, where their records replay; what the old cluster's caches hold goes to memory first, and the new one's keep nothing stale; nothing
happens where it cannot be. -/
def State.relocate (s : State) (grid span new : Nat) : State :=
  match s.grid grid with
  | none => s
  | some gr =>
    let mine (s : State) : List Gang := s.gangs.filter fun g => g.kind != .handle && g.grid == grid && g.spanid == span && !g.ended
    let old := (((mine s).head?).map (·.cluster)).getD 0
    if !s.relocatable gr (mine s) old new then s
    else
      let keys := (mine s).map (·.key)
      let s0 := s.settleNear keys
      let gs := mine s0
      let slots := gs.flatMap s0.slotsHeld
      let s1 := (((s0.unqueue keys).flushAll old).freshCaches new).seeAs old new
      let s2 := s1.takeFootprint new gr.world grid span gr.desc.footBanks
      let s3 := (s2.streamFootprint old new gr.desc.scrbase gr.desc.footBytes).dropFootprint old grid span
      let s4 := { s3.dropSlots keys with gangs := s3.gangs.filter fun g => !keys.contains g.key }
      let s5 := gs.foldl (fun s g => s.dropView g.coreNo g.ctx) s4
      match gs.foldl (fun (o : Option State) g => o.bind fun s => s.seatGang g.ctx { g.stopped with cluster := new }) (some s5) with
      | none => s
      | some s6 =>
        let s7 := s6.modCluster old fun k => { k with forwards := k.forwards ++ [⟨gr.world, grid, span, new⟩] }
        let s8 := slots.foldl (fun s x => s.seatSlot x) s7
        let s9 := (gs.foldl (fun s g => s.replayGang g.key) s8).requeueReleases slots
        gs.foldl (fun s g => s.settleGang g.key) s9

/-- RELOCATION. -/
def execRelocation (grid span cluster : Nat) (s : State) : Host.Outcome State Fault Refusal :=
  .next (s.relocate grid span cluster).clearTried

end Sys2Proof.Machine
end

