-- ==== Sys2Proof/Machine/Ckpt.lean ====
section
/-! DEFINITION. Device checkpoints: requests, the cut, shadow copies, the drain, and what aborts it (spec/13 R347 to R353, spec/05 R106,
spec/08 R236, spec/22 R461 to R463). -/

namespace Sys2Proof.Machine

/-! ## Requests (R347, spec/08 R236) -/

def Partition.ckptOn (p : Partition) : Bool := bitOf p.ckptcfg.toNat 63
def Partition.fallback (p : Partition) : Bool := p.shadowFrames == 0

def State.modCkpt (s : State) (p : Nat) (f : Checkpoint → Checkpoint) : State := s.modPart p fun x => { x with ckpt := f x.ckpt }

/-- CKPT: from a fibre at the next rise of its grid's `STEPCNT`, from a handle thread at once. -/
def State.askCut (s : State) (g : Gang) : State :=
  let p := s.partOfCluster g.cluster
  let c := (s.part p).ckpt
  if !(s.part p).ckptOn || c.phase == 1 || c.phase == 2 then s
  else if g.kind = .handle then s.beginCut p
  else s.modCkpt p fun c => { c with wants := if c.wants.contains g.grid then c.wants else c.wants ++ [g.grid] }

/-- CKPT. -/
def execCkpt (f : SF) (s : State) : Host.Outcome State Fault Refusal :=
  s.issueWith (.ckpt f) fun b s => .done (b.each fun _ x => .next x) (if b.run.isEmpty then s else s.askCut b.g)

/-- CHECKPOINT_TIMER: a cut is asked for at the next step boundary. -/
def execCheckpointTimer (partition : Nat) (s : State) : Host.Outcome State Fault Refusal :=
  let x := s.part partition
  .next (if x.ckptOn && bitsOf x.ckptcfg.toNat 55 32 != 0 && x.ckpt.phase != 1 && x.ckpt.phase != 2 then
      s.modCkpt partition fun c => { c with timer := true }
    else s)

/-! ## The cut (R348, R351) -/

/-- Extension frames that a drain streams: those marked as written. -/
def insertFrame (f : Nat) : List Nat → List Nat
  | [] => [f]
  | x :: r => if f < x then f :: x :: r else if f = x then x :: r else x :: insertFrame f r

def sortFrames (fs : List Nat) : List Nat := fs.foldr insertFrame []

/-- Every skein of the partition has `ACKC` zero. -/
def State.acksIn (s : State) (p : Nat) : Bool :=
  (s.gangs.filter fun g => s.partOfCluster g.cluster == p).all fun g => g.skeins.all fun sk => sk.ackc == 0

/-- The contexts of a partition that run. -/
def State.runningIn (s : State) (p : Nat) : List Context := s.ctxs.filter fun c => partOfWorld c.world == p && c.st == .running

/-- The contexts of a partition that are frozen already, with their areas. -/
def State.savedIn (s : State) (p : Nat) : List Context :=
  s.ctxs.filter fun c => partOfWorld c.world == p && (c.st == .frozen true || c.st == .frozen false) && !c.frames.isEmpty

/-- `CKIMG` set in an area that was written before the cut. -/
def State.markImage (s : State) (c : Context) : State :=
  let h := s.areaHeader c
  s.writeHeader c { h with flags := Nat.lor h.flags 2 }

/-- CHECKPOINT_CUT: the contexts are frozen and saved, the frames frozen, and the contexts resumed, or kept under the fall-back. -/
def State.cut (s : State) (p : Nat) : State :=
  let x := s.part p
  if x.ckpt.phase ≠ 1 || !s.acksIn p then s
  else
    let cs := s.runningIn p
    let s1 := (s.clustersOf p).foldl (fun s c => s.flushAll c) s
    let s2 := (s1.savedIn p).foldl (fun s c => s.markImage c) (cs.foldl (fun s c => s.saveCtx c.key false false true 1) s1)
    let base := frameOf (absAddr p 0)
    let ext := sortFrames (s2.part p).ckpt.bitmap
    let s3 := s2.modCkpt p fun c =>
      { c with phase := 2, lo := base, hi := base + s2.hbmBytes / 2 ^ 18, ext := ext, extAll := ext, thawed := [], shadow := [], streamed := [],
               opened := false, tgt := x.ckpttgt, adr := x.ckptadr, pull := bitOf x.dutycfg.toNat 4
               heldContexts := if x.fallback then cs.map (·.key) else [] }
    let s4 := s3.markLeaves p (fun f => (s3.part p).ckpt.holds f) true
    if x.fallback then s4 else (cs.foldl (fun s c => s.resumeCtx ((s.ctx c.key).getD c)) s4).clearTried

/-- CHECKPOINT_CUT. -/
def execCheckpointCut (partition : Nat) (s : State) : Host.Outcome State Fault Refusal := .next (s.cut partition)

/-- SHADOW_COPY: the first write to a frozen frame has it copied to the shadow pool; a full pool makes the write wait (R349). -/
def execShadowCopy (partition frame : Nat) (s : State) : Host.Outcome State Fault Refusal :=
  .next (if (s.part partition).ckpt.holds frame && frame * 2 ^ 18 / 2 ^ 52 == partition then (s.shadowFrame frame).clearTried else s)

/-! ## The end of a drain (R351, R352, R461, R462) -/

/-- Frames still to stream (`LEFT`). -/
def Checkpoint.left (c : Checkpoint) : Nat :=
  if c.pull then (c.hi - c.lo) + c.extAll.length - c.streamed.length else (c.hi - c.lo) + c.ext.length

/-- Contexts kept frozen under the fall-back resumed. -/
def State.resumeHeld (s : State) (p : Nat) : State :=
  let keys := (s.part p).ckpt.heldContexts
  let s1 := s.modCkpt p fun c => { c with heldContexts := [] }
  (keys.foldl (fun s k => match s.ctx k with | some c => s.resumeCtx c | none => s) s1).clearTried

/-- Every frame unfrozen. -/
def State.thawAll (s : State) (p : Nat) : State :=
  (s.markLeaves p (fun f => (s.part p).ckpt.holds f || (s.part p).ckpt.thawed.contains f) false).modCkpt p fun c =>
    { c with lo := 0, hi := 0, ext := [], thawed := [], shadow := [] }

/-- A cut or drain aborted: the effects of R462 in order. -/
def State.abortCut (s : State) (p : Nat) : State :=
  let c := (s.part p).ckpt
  if c.phase ≠ 1 ∧ c.phase ≠ 2 then s
  else
    let again := c.streamed.filter fun f => c.extAll.contains f
    let s1 := s.thawAll p
    let s2 := s1.modCkpt p fun c => { c with phase := 4, bitmap := c.bitmap ++ again.filter fun f => !c.bitmap.contains f }
    s2.resumeHeld p

/-- The record of an abort (R461). -/
def State.abortRecord (s : State) (p : Nat) (code : FaultCode) (addr : Nat) : State :=
  s.writeRecord
    { code := code, imp := true, stake := false, guest := false, iopx := 0, term := false, world := 64 * p, skg := 0xF0, eqid := 0,
      pc := 0, pc2 := 0, fmask := 0, amask := srcWord 6 0 0 0 (bitsOf (s.part p).ckpt.tgt.toNat 61 42), addr := BitVec.ofNat 64 addr,
      hcpc := 0, csn := 0, ctx := s.worldCtx (64 * p), cluster := 0 }

/-- The drain is over: `CSEQ` counts the cut, and contexts kept frozen go on. -/
def State.endDrain (s : State) (p : Nat) : State :=
  ((s.thawAll p).modCkpt p fun c => { c with phase := 3, cseq := (c.cseq + 1) % 2 ^ 29 }).resumeHeld p

/-! ## The tier (R350, R353, R461, R463) -/

/-- What a write to the tier comes to. -/
inductive Tiered where
  | ok (s : State)
  | wait (s : State)
  | fail (code : FaultCode) (addr : Nat) (s : State)

/-- Bytes written at host memory under the physical function, page by page. -/
def State.tierHost (s : State) (w : Nat) : Nat → Nat → List Byte → Tiered
  | 0, _, _ => .ok s
  | fuel + 1, a, bs =>
    if bs.isEmpty then .ok s
    else
      let n := min bs.length (4096 - a % 4096)
      if !bitOf (s.world w).wpasid.toNat 20 then .fail .xlate a s
      else if s.portLost w (.plain .host 0 1) then .fail .linkDown a s
      else
        match s.hostFrame w a true with
        | .wait s1 => .wait s1
        | .fault c _ s1 => .fail c a s1
        | .ok ha s1 => State.tierHost (s1.putNow .host ha (bs.take n)) w fuel (a + n) (bs.drop n)

/-- Bytes written at an offset of the image. -/
def State.tierWrite (s : State) (p off : Nat) (bs : List Byte) : Tiered :=
  let c := (s.part p).ckpt
  let a := c.adr.toNat / 4096 * 4096 + off
  if bitsOf c.tgt.toNat 63 62 = 2 then s.tierHost (64 * p) (bs.length / 4096 + 2) a bs
  else
    let d := bitsOf c.tgt.toNat 61 42
    if s.peerGone p d then .fail .linkDown a s
    else if !s.rosterOk (64 * p) d .store then .fail .roster a s
    else .ok (s.putNow (.peer d) a bs)

/-- Where an extension frame's record and data lie in the image: `IXOFF`, and the data of frame i after the records (notes/assumptions/35). -/
def imageRecords (hbm : Nat) : Nat := 0x1000 + hbm
def imageFrame (hbm n i : Nat) : Nat := roundUpTo 4096 (imageRecords hbm + 16 * n) + i * 2 ^ 18

/-- The image's header (R353). -/
def State.imageHeader (s : State) (p : Nat) : List Byte :=
  let c := (s.part p).ckpt
  padTo 4096 (bytesOf 4 0x504B4347 ++ bytesOf 4 1 ++ bytesOf 4 s.fabricId ++ bytesOf 1 s.partitions ++ bytesOf 1 p ++ bytesOf 2 0
    ++ bytesOf 8 0x103FF ++ bytesOf 8 (c.cseq + 1) ++ bytesOf 8 s.hbmBytes ++ bytesOf 8 c.extAll.length ++ bytesOf 8 (imageRecords s.hbmBytes))

/-- The bytes of a frame at the cut: its shadow copy, or the frame itself. -/
def State.frameBytes (s : State) (p frame : Nat) : List Byte :=
  match (s.part p).ckpt.shadow.find? fun x => x.1 == frame with
  | some x => x.2.readBytes (frame * 2 ^ 18) (2 ^ 18)
  | none => s.mem.readBytes (frame * 2 ^ 18) (2 ^ 18)

/-- A frame streamed: unfrozen, its shadow copy free, its bit clear. -/
def State.frameStreamed (s : State) (p frame : Nat) : State :=
  let held := (s.part p).ckpt.holds frame
  let s1 := s.modCkpt p fun c =>
    { c with
      lo := if frame = c.lo && frame < c.hi then c.lo + 1 else c.lo
      ext := c.ext.filter (· != frame)
      thawed := c.thawed.filter (· != frame)
      shadow := c.shadow.filter fun x => x.1 != frame
      bitmap := if held then c.bitmap.filter (· != frame) else c.bitmap
      streamed := if c.extAll.contains frame then c.streamed ++ [frame] else c.streamed }
  if held then s1.markLeaves p (· == frame) false else s1

/-- The next step of the drain engine's image: break the header, a frame, or at the end the whole header. -/
def State.drainStep (s : State) (p : Nat) : Tiered :=
  let c := (s.part p).ckpt
  if !c.opened then
    match s.tierWrite p 0 (bytesOf 4 0) with
    | .ok s1 => .ok (s1.modCkpt p fun c => { c with opened := true })
    | x => x
  else if c.lo < c.hi then
    match s.tierWrite p (0x1000 + (c.lo * 2 ^ 18 - absAddr p 0)) (s.frameBytes p c.lo) with
    | .ok s1 => .ok (s1.frameStreamed p c.lo)
    | x => x
  else
    match c.ext with
    | f :: _ =>
      let i := c.extAll.findIdx (· == f)
      let at_ := imageFrame s.hbmBytes c.extAll.length i
      match s.tierWrite p (imageRecords s.hbmBytes + 16 * i) (bytesOf 8 (f * 2 ^ 18 % 2 ^ 52) ++ bytesOf 8 at_) with
      | .ok s1 =>
        match s1.tierWrite p at_ (s1.frameBytes p f) with
        | .ok s2 => .ok (s2.frameStreamed p f)
        | x => x
      | x => x
    | [] =>
      match s.tierWrite p 0 (s.imageHeader p) with
      | .ok s1 => .ok (s1.endDrain p)
      | x => x

/-- DRAIN_FRAME: one step of the drain engine; a failure named by its code (a timeout, a refusal by the buddy) aborts it. -/
def State.drain (s : State) (p : Nat) (failure : Option Nat) : State :=
  let c := (s.part p).ckpt
  if c.phase ≠ 2 || c.pull then s
  else
    match failure with
    | some n =>
      let code : FaultCode := if n = 0x17 then .linkDown else if n = 0x06 then .xlate else if n = 0x09 then .roster else if n = 0x07 then .perm else .timeout
      (s.abortRecord p code (c.adr.toNat / 4096 * 4096)).abortCut p
    | none =>
      match s.drainStep p with
      | .ok s1 => s1
      | .wait s1 => s1
      | .fail code a s1 => (s1.abortRecord p code a).abortCut p

/-- DRAIN_FRAME. -/
def execDrainFrame (partition : Nat) (failure : Option (BitVec 8)) (s : State) : Host.Outcome State Fault Refusal :=
  .next (s.drain partition (failure.map (·.toNat))).clearTried

/-! ## Registers -/

/-- CKPTCFG_WRITE: reserved bits stay zero; clearing `EN` during a cut or drain aborts it. -/
def State.ckptcfgWrite (s : State) (p v : Nat) : State :=
  let s1 := s.modPart p fun x => { x with ckptcfg := BitVec.ofNat 64 (packFields [(32, v), (24, bitsOf v 55 32), (6, 0), (2, bitsOf v 63 62)]) }
  if bitOf v 63 then s1 else s1.abortCut p

/-- CKPTCFG_WRITE. -/
def execCkptcfgWrite (w : RegWrite) (s : State) : Host.Outcome State Fault Refusal :=
  .next (match s.writer w with
    | some p => (s.ckptcfgWrite p w.v.toNat).clearTried
    | none => s)

/-- CKPTACK: the host has taken the frame at a physical address (R350). -/
def State.ackFrame (s : State) (p pa : Nat) : State :=
  let c := (s.part p).ckpt
  let f := frameOf (absAddr p (pa % 2 ^ 52))
  let mine := (c.lo ≤ f && f < c.hi) || c.extAll.contains f
  if c.phase ≠ 2 || !c.pull || !mine || c.streamed.contains f then s
  else
    let held := c.holds f
    let s1 := s.modCkpt p fun c =>
      { c with thawed := if c.thawed.contains f then c.thawed else c.thawed ++ [f], shadow := c.shadow.filter fun x => x.1 != f
               bitmap := if held then c.bitmap.filter (· != f) else c.bitmap, streamed := c.streamed ++ [f] }
    let s2 := if held then s1.markLeaves p (· == f) false else s1
    if (s2.part p).ckpt.left = 0 then s2.endDrain p else s2

/-- CKPTACK. -/
def execCkptack (w : RegWrite) (s : State) : Host.Outcome State Fault Refusal :=
  .next (match s.writer w with
    | some p => (s.ackFrame p w.v.toNat).clearTried
    | none => s)

end Sys2Proof.Machine
end

