-- ==== Sys2Proof/Machine/Ports.lean ====
section
/-! DEFINITION. What the ports do: host translations and page requests, requests that fail or lose their link, requests that arrive
(spec/14 R359 to R361, R366, R367, spec/15 R385, spec/21 R441 to R445, R452 to R454, R491). -/

namespace Sys2Proof.Machine

/-! ## Host translations (spec/14 R359 to R361, spec/21 R441 to R443) -/

/-- Skeins whose replay waits for host translations try again. -/
def State.retryReplays (s : State) : State :=
  s.gangs.foldl (fun s g =>
    if g.frozen then s else (rangeFrom 0 g.skeins.length).foldl (fun s k => s.replayWaiting g.key k) s) s

/-- Every context of the world is frozen, and no drain of its partition works under it: a response has no effect (R443). -/
def State.asleep (s : State) (w : Nat) : Bool :=
  let cs := s.ctxs.filter fun c => c.world == w
  !cs.isEmpty && cs.all (fun c => c.st == .frozen true || c.st == .frozen false)
    && !(w % 64 == 0 && (s.part (partOfWorld w)).ckpt.phase == 2)

/-- Entries of a partition's translation cache, and Invalidation Requests that wait in it (spec/14 R357). -/
def atsEntries : Nat := 16384

def invalDepth : Nat := 32

/-- A translation held for an I/O page in place of what was held; in a full cache that of the partition's held the longest gives way
(notes/assumptions/127). -/
def State.holdTranslation (s : State) (x : AtsEntry) : State :=
  let kept := s.ats.filter fun (y : AtsEntry) => !(y.world == x.world && y.page == x.page)
  let own (y : AtsEntry) : Bool := partOfWorld y.world == partOfWorld x.world
  { s with ats := (if kept.countP own < atsEntries then kept else kept.eraseP own) ++ [x] }

/-- A translation returned: dropped where its request is stale or its world frozen, else held. -/
def State.translated (s : State) (w page frame : Nat) (rd wr : Bool) : State :=
  let p := partOfWorld w
  let left := (s.part p).atsReqs.erase (w, page)
  if !(s.part p).atsReqs.contains (w, page) then s
  else
    let s1 := s.modPart p fun x => { x with atsReqs := left }
    if left.contains (w, page) || s.asleep w then s1
    else
      let before := ((s.ats.find? fun x => x.world == w && x.page == page).map (·.fails)).getD 0
      s1.holdTranslation ⟨w, page, frame, rd, wr, if rd && wr then 0 else min 3 (before + 1)⟩

/-- ATS_TRANSLATION_COMPLETION. -/
def execAtsTranslationCompletion (world page frame : Nat) (rd wr : Bool) (s : State) : Host.Outcome State Fault Refusal :=
  .next ((s.translated world page frame rd wr).retryReplays).clearTried

/-- A page request's response: the translation is requested again, or the waiting fibres fault XLATE at their next try. -/
def State.pageAnswer (s : State) (w page : Nat) (ok : Bool) : State :=
  let p := partOfWorld w
  if !(s.part p).pageReqs.contains (w, page) then s
  else
    let s1 := s.modPart p fun x => { x with pageReqs := x.pageReqs.erase (w, page) }
    if s.asleep w then s1
    else if ok then
      s1.modPart p fun x => { x with atsReqs := if x.atsReqs.contains (w, page) then x.atsReqs else x.atsReqs ++ [(w, page)] }
    else
      match s1.ats.find? fun x => x.world == w && x.page == page with
      | some x => s1.holdTranslation { x with fails := 3 }
      | none => s1.holdTranslation ⟨w, page, 0, false, false, 3⟩

/-- PAGE_REQUEST_RESPONSE. -/
def execPageRequestResponse (world page : Nat) (ok : Bool) (s : State) : Host.Outcome State Fault Refusal :=
  .next ((s.pageAnswer world page ok).retryReplays).clearTried

/-- A request answered: port, status and bytes. -/
def State.answer (s : State) (port status : Nat) (bs : List Byte) : State := { s with answers := s.answers ++ [(port, status, bs)] }

/-- A load of a page of the range is not bound, or a write to one is not sent. -/
def State.rangeBusy (s : State) (w first last : Nat) : Bool :=
  s.gangs.any fun g => !g.frozen && s.worldOf g == w && g.skeins.any fun sk => sk.record.any fun e =>
    (e.kind == 1 || e.kind == 2 || ((e.kind == 3 || e.kind == 4 || e.kind == 7) && !e.portacc))
      && e.ops.any fun o => o.stage == .sent && o.parts.any fun p => p.home == .host && first ≤ p.io / 4096 && p.io / 4096 ≤ last

/-- The Invalidation Completion sent once nothing that used a removed entry is left (R361). -/
def State.completeInval (s : State) (w first last : Nat) : State :=
  if s.rangeBusy w first last then s
  else
    (s.modPart (partOfWorld w) fun x => { x with invals := x.invals.erase (w, first, last) }).answer
      ((s.pciePorts (partOfWorld w)).headD 24) 0 []

/-- An Invalidation Request: its entries removed and the outstanding requests of its range made again, then completed, at once or
when the event comes again.  While the queue is full it is not taken (spec/14 R357). -/
def State.invalidateAts (s : State) (w first last : Nat) : State :=
  let p := partOfWorld w
  if (s.part p).invals.contains (w, first, last) then s.completeInval w first last
  else if invalDepth ≤ (s.part p).invals.length then s
  else
    let named (page : Nat) : Bool := first ≤ page && page ≤ last
    let s1 : State := { s with ats := s.ats.filter fun (x : AtsEntry) => !(x.world == w && named x.page) }
    let s2 := s1.modPart p fun x =>
      { x with
        atsReqs := x.atsReqs ++ (x.atsReqs.filter fun q => q.1 == w && named q.2).eraseDups
        invals := x.invals ++ [(w, first, last)] }
    s2.completeInval w first last

/-- ATS_INVALIDATION. -/
def execAtsInvalidation (world first last : Nat) (s : State) : Host.Outcome State Fault Refusal :=
  .next (s.invalidateAts world first last).clearTried

/-! ## `XINV` (spec/05 R107, spec/14 R366) -/

/-- The world that a write of `XINV` acts on. -/
def xinvWorld (w : RegWrite) : Nat := if w.by_ % 64 = 0 then bitsOf w.v.toNat 63 56 else w.by_

/-- XINV_GO: the named translations are dropped, with the decoded operations of their pages (spec/11 R304), and `GO` reads 1 until nothing that used one is left.  A world of another partition
has none here. -/
def State.startXinv (s : State) (w : RegWrite) : State :=
  let p := partOfWorld w.by_
  let x := xinvWorld w
  let v := w.v.toNat
  if (s.part p).xinvBusy then s
  else
    let kept := packFields [(1, 0), (1, bitsOf v 1 1), (16, 0), (38, bitsOf v 55 18), (8, x)]
    let s1 := s.modPart p fun y => { y with xinv := BitVec.ofNat 64 kept, xinvBusy := bitOf v 0 }
    let page := bitsOf v 55 18
    let gone := s1.tlb.filter fun (t : TlbEntry) => t.world == x && (bitOf v 1 || (t.page ≤ page && page < t.page + t.pages))
    let covered (n : Nat) : Bool := bitOf v 1 || n == page || gone.any fun t => t.page ≤ n && n < t.page + t.pages
    let stale (d : DocLine) : Bool := d.world == x && (covered (bitsOf d.va.toNat 55 18) || covered (bitsOf (d.va.toNat + max 1 d.len - 1) 55 18))
    if bitOf v 0 && partOfWorld x == p then
      { s1 with
        tlb := s1.tlb.filter fun (t : TlbEntry) => !gone.contains t
        clusters := s1.clusters.map fun c => (c.1, { c.2 with doc := c.2.doc.filter fun d => !stale d }) }
    else s1

/-- XINV_GO. -/
def execXinvGo (w : RegWrite) (s : State) : Host.Outcome State Fault Refusal :=
  .next (if w.page.isNone ∧ s.boot = 1 then (s.startXinv w).clearTried else s)

/-- An atomic parked for a frozen context has no completion yet. -/
def State.unanswered (s : State) (c : Context) : Bool :=
  let ring := match s.parkArea c.world with
    | .ok a => s.parked a
    | .error _ => []
  c.saved.any fun g => g.skeins.any fun sk => sk.record.any fun e => e.cls == 2 && e.ops.any fun o =>
    hostAtom e o && o.stage == .sent && !(ring ++ (s.world c.world).held).any fun d => d.tag == e.tag && d.slot == o.slot

/-- An access of the world that has been translated is still to be performed. -/
def State.worldBusy (s : State) (w : Nat) : Bool :=
  (s.gangs.any fun g => !g.frozen && s.worldOf g == w && g.skeins.any fun sk => sk.record.any fun e =>
      e.kind ≤ 0x0A && e.ops.any fun o => o.stage == .sent && !o.parts.isEmpty && o.parts.all fun p => p.home != .scratch g.cluster)
    || s.ctxs.any fun c => c.world == w && c.st != .running && (!c.lates.isEmpty || s.unanswered c)

/-- XINV_COMPLETE: `GO` reads 0; with `ALL` the ports take the world's roster as it stands. -/
def State.endXinv (s : State) (p : Nat) : State :=
  let v := (s.part p).xinv.toNat
  let w := bitsOf v 63 56
  if !(s.part p).xinvBusy || s.worldBusy w then s
  else
    let s1 := s.modPart p fun x => { x with xinvBusy := false }
    if bitOf v 1 && partOfWorld w == p then s1.modWorld w fun x => { x with roster := some (s1.rosterInMemory w) } else s1

/-- XINV_COMPLETE. -/
def execXinvComplete (partition : Nat) (s : State) : Host.Outcome State Fault Refusal := .next (s.endXinv partition).clearTried

/-! ## Requests that fail (spec/21 R447, R453, R491) -/

/-- The acknowledgement of a write that has been performed is lost. -/
def State.loseAck (s : State) (id : EntryId) (g : Gang) (e : Entry) (o : SlotOp) (code : FaultCode) : State :=
  if !e.finished then s
  else
    let mask := maskOf ((e.ops.filter fun q => q.parts.any Part.port).map (·.slot))
    ((s.writeRecord (s.impreciseRecord g id.skein e code o.va mask (s.portSource g o code))).modSkein id.gang id.skein fun y =>
      (y.releaseCount id.seq).ackEntry id.seq).closeId id

/-- The acknowledgement of what a copy command wrote is lost. -/
def State.loseCopyAck (s : State) (id : EntryId) (g : Gang) (e : Entry) (code : FaultCode) : State :=
  let parts := (s.far.filter fun f => f.op == id).map fun f => Part.plain f.home f.addr f.old.length
  let va := ((e.copies.head?).map (·.b)).getD 0
  let src := s.portSource g (.new 0 0 0 va parts 0 0) code
  ((s.writeRecord (s.impreciseRecord g id.skein e code va e.mask src)).modSkein id.gang id.skein fun y => y.ackEntry id.seq).closeId id

/-- One outstanding request ends without its answer. -/
def State.endRequest (s : State) (id : EntryId) (slot : Nat) (code : FaultCode) : State :=
  match s.located id with
  | none => s
  | some (g, _, e) =>
    match e.op slot with
    | none => s
    | some o =>
      if !e.copies.isEmpty then (if e.acked then s else s.loseCopyAck id g e code)
      else if !o.parts.any Part.port then s
      else if e.kind = 0x0B then
        (if o.complete then s else s.failMonitor id o code o.va)
      else if !o.complete && !(loadLike e.kind && o.stage == .performed) then s.failOp id slot code
      else if storeLike e.kind && !loadLike e.kind && !e.acked then s.loseAck id g e o code
      else s

/-- The page is a host or remote page of the context. -/
def State.portPage (s : State) (ctx va : Nat) : Bool :=
  match s.leafOf ctx va with
  | .ok (t, _) => leafHost t.bits || leafRem t.bits
  | .error _ => false

/-- An instruction fetch from a host or remote page: the batch that would issue next faults at the word. -/
def State.failFetch (s : State) (id : EntryId) (slot : Nat) (code : FaultCode) : State :=
  match s.gang id.gang, s.skein id.gang id.skein with
  | some g, some sk =>
    match sk.fibre slot with
    | none => s
    | some x =>
      let ts := s.nextBatch g sk
      if g.frozen || id.seq != sk.nextSeq || x.inTemplate || !ts.contains slot || !s.portPage g.ctx x.pc.toNat then s
      else
        let s1 := { s with issue := some ⟨id.gang, id.skein, ts⟩ }
        match s1.batch with
        | some (b, ready) => ({ s1 with issue := none }).finish b ready (faultAll b.all code x.pc)
        | none => s
  | _, _ => s

/-- The global addresses that a burst reads or writes first. -/
def burstPlaces (kind flags : Nat) (c : CopyCmd) : List Nat :=
  if kind ≤ 0x11 then
    let r := Layout.ofBytes c.record
    ((r.elements c.prog).findSome? fun e => r.source c.coords e.1 e.2).toList
  else
    let off := 256 * c.prog
    (if kind = 0x13 ∨ flagOut flags then [] else [(c.a.toNat + off) % 2 ^ 64])
      ++ (if flagDst flags then [] else [(c.b.toNat + off) % 2 ^ 64])

/-- A burst of a copy channel that goes to a port: the command ends (R285). -/
def State.failBurst (s : State) (cluster channel : Nat) (code : FaultCode) : State :=
  match tget (s.cluster cluster).channels channel with
  | some (.entry id slot) =>
    match s.located id with
    | none => s
    | some (g, _, e) =>
      match e.copy slot with
      | none => s
      | some c =>
        match (burstPlaces e.kind e.aux c).find? fun a => s.portPage g.ctx a with
        | some a => s.failCopy id slot cluster channel g e code (BitVec.ofNat 64 a)
        | none => s
  | some (.packet w q num src dst count) =>
    let c := packetCmd src dst count ((s.cluster cluster).packetBursts w q num)
    match (burstPlaces 0x12 0 c).find? fun a => s.portPage (s.worldCtx w) a with
    | some a => s.failPacketCopy cluster channel w q num code (BitVec.ofNat 64 a)
    | none => s
  | none => s

/-- The parser's read of a ring on a host or remote page: the queue it serves stops (spec/12 R310). -/
def State.failRing (s : State) (cluster : Nat) (code : FaultCode) : State :=
  match s.served cluster with
  | none => s
  | some (w, q) =>
    let x := s.queue w q
    let at_ := x.packetAt x.qrd
    if s.portPage (s.worldCtx w) at_ then
      let site := s.packetSite w q at_
      (((s.takePacketCsn w q).modQueue w q fun y => { y.stopped 4 with waiting := none }).packetRecord w q (BitVec.ofNat 64 at_) site.1 site.2 code
        (BitVec.ofNat 64 at_)).endTurns cluster
    else s

/-- A request named by its entry and slot; by the number of the skein's next entry, the fetch of its next batch; by gang 0, which no gang
is, the burst of a cluster's channel (below 16) or its parser's read (notes/assumptions/36). -/
def State.failRequest (s : State) (id : EntryId) (slot : Nat) (code : FaultCode) : State :=
  if id.gang = 0 then (if id.seq < 16 then s.failBurst id.skein id.seq code else s.failRing id.skein code)
  else if (s.located id).isSome then s.endRequest id slot code
  else s.failFetch id slot code

/-- A posted write to a host page has no completion that could fail (R491). -/
def State.postedToHost (s : State) (id : EntryId) (slot : Nat) : Bool :=
  match s.located id with
  | some (_, _, e) => (e.kind == 3 || e.kind == 4 || e.kind == 7) && (e.op slot).any fun o => o.parts.any fun p => p.home == .host
  | none => false

/-- COMPLETER_ERROR: handled as a timeout. -/
def execCompleterError (e : EntryId) (slot : Nat) (s : State) : Host.Outcome State Fault Refusal :=
  .next (if s.postedToHost e slot then s else (s.failRequest e slot .timeout).clearTried)

/-- A write that has timed out may have been performed: a free choice (notes/assumptions/7). -/
def State.perhapsPerformed (s : State) (id : EntryId) (slot : Nat) : State :=
  match s.located id with
  | none => s
  | some (g, _, e) =>
    match e.op slot with
    | none => s
    | some o =>
      if (e.kind == 3 || e.kind == 4 || e.kind == 7) && o.stage == .sent && Config.freeValue s.free % 2 == 1 then
        match s.draw.performOp id g e o with
        | .ok (_, s1) => s1
        | .error _ => s.draw
      else s.draw

/-- REQUEST_TIMEOUT. -/
def execRequestTimeout (e : EntryId) (slot : Nat) (s : State) : Host.Outcome State Fault Refusal :=
  .next ((s.perhapsPerformed e slot).failRequest e slot .timeout).clearTried

/-! ## Ports and peers that go down (spec/14 R365, spec/21 R452 to R454) -/

/-- Every outstanding request of resident gangs with a part of some kind ends; of a copy command, what it has written that way. -/
def State.endRequests (s : State) (mine : Gang → Part → Bool) (code : FaultCode) : State :=
  let hits := s.gangs.flatMap fun g =>
    if g.frozen then [] else
    g.skeins.zipIdx.flatMap fun p => p.1.record.flatMap fun e =>
      let id : EntryId := ⟨g.key, p.2, e.seq⟩
      if e.copies.isEmpty then (e.ops.filter fun o => o.parts.any (mine g)).map fun o => (id, o.slot)
      else if s.far.any fun f => f.op == id && mine g { Part.plain f.home f.addr f.old.length with io := f.addr } then
        ((e.ops.head?).map fun o => (id, o.slot)).toList
      else []
  hits.foldl (fun s h => s.endRequest h.1 h.2 code) s

/-- The ports of a partition to a peer: all it has until the routing table names some. -/
def State.routeOf (s : State) (p id : Nat) : List Nat :=
  ((tget (s.part 0).routing id).getD (rangeFrom 0 24)).filter fun n => n / (24 / s.partitions) == p

/-- PEER_UNREACHABLE: every port of the routing set is down. -/
def State.losePeer (s : State) (p id : Nat) : State :=
  if (s.routeOf p id).any s.portUp then s
  else
    ({ s with unreachable := if s.peerGone p id then s.unreachable else s.unreachable ++ [p * 2 ^ 20 + id] }).endRequests
      (fun g q => s.partOfCluster g.cluster == p && q.home == Home.peer id) .linkDown

/-- PEER_UNREACHABLE. -/
def execPeerUnreachable (partition peer : Nat) (s : State) : Host.Outcome State Fault Refusal :=
  .next (s.losePeer partition peer).clearTried

def State.setPort (s : State) (n : Nat) (up : Bool) : State :=
  { s with ports := tset s.ports n { (tget s.ports n).getD ⟨true, 0⟩ with up := up } }

/-- The partitions that a PCIe port serves (spec/01 R22). -/
def State.portPartitions (s : State) (port : Nat) : List Nat := (rangeFrom 0 s.partitions).filter fun p => (s.pciePorts p).contains port

/-- Operations parked for frozen contexts of a partition end, those that travelled on the port: their completions say so (spec/21 R447). -/
def State.parkLost (s : State) (p : Nat) (pick : Part → Bool) : State :=
  let ops := (s.ctxs.filter fun c => partOfWorld c.world == p && c.st != .running).flatMap fun c => c.saved.flatMap fun g =>
    g.skeins.flatMap fun sk => (sk.record.filter fun e => e.cls == 2).flatMap fun e =>
      (e.ops.filter fun o => (o.stage == .sent || !e.acked) && o.parts.any fun q => q.home == .host && pick q).map fun o => (e.tag, o.slot)
  ops.foldl (fun s q => s.parkFor ⟨q.1, q.2, 1, 0⟩) s

/-- A PCIe link-down for one partition: outstanding host requests end, its translation cache is empty, and the fibres that wait for a page
request fault LINK_DOWN at their next try.  `pick` says which requests travelled on the port. -/
def State.loseHost (s : State) (p : Nat) (pick : Part → Bool) : State :=
  let mine (w : Nat) : Bool := partOfWorld w == p
  let waiting := (s.part p).pageReqs
  let s1 : State := { s with ats := s.ats.filter fun (x : AtsEntry) => !mine x.world }
  let s2 := s1.modPart p fun x => { x with pageReqs := [], atsReqs := [] }
  let s3 := waiting.foldl (fun s q => s.holdTranslation ⟨q.1, q.2, 0, false, false, 4⟩) s2
  let s4 := s3.endRequests (fun g q => s.partOfCluster g.cluster == p && q.home == .host && pick q) .linkDown
  s4.parkLost p pick

/-- PCIE_LINK_DOWN. -/
def State.pcieDown (s : State) (port : Nat) (pick : Part → Bool) : State :=
  if port = 24 ∨ port = 25 then
    ((s.portPartitions port).foldl (fun s p => s.loseHost p pick) (s.setPort port false)).retryReplays
  else s

/-- PCIE_LINK_DOWN. -/
def execPcieLinkDown (port : Nat) (s : State) : Host.Outcome State Fault Refusal :=
  .next (s.pcieDown port fun _ => true).clearTried

/-- PORT_DOWN: a Tvedton port's traffic moves to the rest of its routing sets; a PCIe port's link-down is that of R454. -/
def execPortDown (port : Nat) (s : State) : Host.Outcome State Fault Refusal :=
  .next (if port < 24 then s.setPort port false else s.pcieDown port fun _ => true).clearTried

/-- LINK_RETRAINED: the port carries traffic again, and the peers it leads to are reachable. -/
def execLinkRetrained (port : Nat) (s : State) : Host.Outcome State Fault Refusal :=
  let s1 := s.setPort port true
  .next ({ s1 with unreachable := s1.unreachable.filter fun n => !(s1.routeOf (n / 2 ^ 20) (n % 2 ^ 20)).any s1.portUp }).clearTried

/-- LINK_SESSION_REKEY: a Tvedton link goes on under its next session key (spec/14 R367). -/
def execLinkSessionRekey (port : Nat) (s : State) : Host.Outcome State Fault Refusal :=
  .next (if port < 24 then
      { s with ports := tset s.ports port { (tget s.ports port).getD ⟨true, 0⟩ with session := ((tget s.ports port).getD ⟨true, 0⟩).session + 1 } }
    else s)

/-! ## Requests that arrive (spec/14 R357, R366, spec/15 R385, spec/01 R20) -/

/-- The port belongs to the partition of the world named. -/
def State.portServes (s : State) (r : PortRequest) : Bool :=
  let p := partOfWorld r.world
  p < s.partitions && (if r.port < 24 then r.port / (24 / s.partitions) == p else (s.pciePorts p).contains r.port)

/-- What the roster of the receiving world must allow. -/
def portAcc : PortOp → Acc
  | .read => .load
  | .write => .store
  | .atomicAdd => .atomic false

/-- A hit of a watchpoint by a request from a port: cluster, world to tell, and the first watched address. -/
def State.portHits (s : State) (r : PortRequest) : List (Nat × Nat × Nat) :=
  (s.clustersOf (partOfWorld r.world)).flatMap fun c =>
    (s.cluster c).watch.filterMap fun w =>
      ((rangeFrom 0 r.bytes.length).find? fun i => watchHits w true (r.addr + i) 1).map fun i => (c, bitsOf w.2.toNat 25 18, r.addr + i)

/-- The report of a hit (R385). -/
def State.reportHit (s : State) (r : PortRequest) (h : Nat × Nat × Nat) : State :=
  let a := BitVec.ofNat 64 h.2.2
  let s1 : State :=
    if partOfWorld h.2.1 = partOfWorld r.world then
      s.writeRecord
        { code := .watch, imp := true, stake := false, guest := false, iopx := 0, term := false, world := h.2.1, skg := 0xF0, eqid := 0,
          pc := 0, pc2 := 0, fmask := 0, amask := srcWord 5 0 0 r.port r.source.toNat, addr := a, hcpc := 0, csn := r.csn.toNat,
          ctx := s.worldCtx h.2.1, cluster := h.1 }
    else s
  s1.trace h.1 (s1.worldCtx r.world)
    { kind := 10, src := 0x20, skein := 0, leaf := 0, world := r.world, hcpc := 0, csn := r.csn.toNat, pc := 0, pc2 := 0, mask := 0, data := a }

/-- A line that the request cannot use: counted, and recorded for the receiving world where something was to be written, and for the physical
function (spec/19 R425, spec/21 R444). -/
def State.portBad (s : State) (r : PortRequest) (code : FaultCode) : State :=
  let p := partOfWorld r.world
  let line := ((s.firstBadLine r.world (linesOf (absAddr p r.addr) r.bytes.length)).map (·.1)).getD 0
  let report (w kind : Nat) : Record :=
    { code := code, imp := true, stake := false, guest := false, iopx := 0, term := false, world := w, skg := 0xF0, eqid := 0, pc := 0,
      pc2 := 0, fmask := 0, amask := srcWord kind 0 0 r.port r.source.toNat, addr := BitVec.ofNat 64 r.addr, hcpc := 0, csn := r.csn.toNat,
      ctx := s.worldCtx w, cluster := 0 }
  let s1 := if r.op = .read ∨ r.world = 64 * p then s else s.writeRecord (report r.world 5)
  (s1.countUncorr line).writeRecord (report (64 * p) 6)

/-- The bytes that a write or an atomic leaves, with what it answers. -/
def State.portResult (s : State) (r : PortRequest) (a : Nat) : Except FaultCode (List Byte × List Byte) :=
  let n := r.bytes.length
  match r.op with
  | .atomicAdd => (s.readDev r.world a n).map fun old => (bytesOf n ((ofBytes old + ofBytes r.bytes) % 2 ^ (8 * n)), old)
  | _ => .ok (r.bytes, [])

/-- A request for HBM or extension memory performed at its home under the world named; none where a frozen frame holds it back (spec/13
R349). -/
def State.portMemory (s : State) (r : PortRequest) : Option State :=
  let a := absAddr (partOfWorld r.world) r.addr
  let n := r.bytes.length
  if r.op = .read then
    match s.readDev r.world a n with
    | .ok bs => some (s.answer r.port 0 bs)
    | .error c => some ((s.portBad r c).answer r.port 1 [])
  else
    let s1 := s.shadowRange a n
    if s1.frameHeld a n then none
    else
      match s1.portResult r a with
      | .error c => some ((s1.portBad r c).answer r.port 1 [])
      | .ok (bs, old) =>
        match s1.writeDev r.world a bs with
        | .error c => some ((s1.portBad r c).answer r.port 1 [])
        | .ok s2 =>
          let s3 := (s2.markExt a).markExt (a + n - 1)
          some (((s3.portHits r).foldl (fun s h => s.reportHit r h) s3).answer r.port 0 old)

/-- A request served: refused where the device is not up, the port or the address is not the world's, or the roster does not admit the source
(status 3); status 2 is Unsupported Request, 1 an abort (notes/assumptions/37). -/
def State.servePort (s : State) (r : PortRequest) : Option State :=
  let n := r.bytes.length
  if s.boot ≠ 1 ∨ s.portServes r = false ∨ n = 0 then some (s.answer r.port 2 [])
  else if r.op = .atomicAdd ∧ (24 ≤ r.port ∨ (n ≠ 4 ∧ n ≠ 8) ∨ r.addr % n ≠ 0) then some (s.answer r.port 2 [])
  else if r.port < 24 && !s.rosterOk r.world r.source.toNat (portAcc r.op) then some (s.answer r.port 3 [])
  else
    match s.deviceHome (partOfWorld r.world) r.addr n with
    | some .dev => s.portMemory r
    | some .devreg =>
      if r.op = .write then some (s.answer r.port 0 [])
      else some (s.draw.answer r.port 0 ((rangeFrom r.addr n).map (Config.freeByte s.free)))
    | _ => some (s.answer r.port 2 [])

/-- A request arrives; a partition in PS2 leaves it first (spec/01 R20).  One that a frozen frame holds back stays at the port. -/
def State.incoming (s : State) (r : PortRequest) : State :=
  let p := partOfWorld r.world
  if (s.part p).pscur = 2 then s.modPart p fun x => { x with psheld := x.psheld ++ [r], psexit := true }
  else (s.servePort r).getD s

/-- INCOMING_PORT_REQUEST. -/
def execIncomingPortRequest (r : PortRequest) (s : State) : Host.Outcome State Fault Refusal := .next (s.incoming r).clearTried

end Sys2Proof.Machine
end

