-- ==== Sys2Proof/Machine/Bounce.lean ====
section
/-! DEFINITION. Bounce channels: doorbells, landings and resyncs (spec/14 R370, R371, spec/21 R449). -/

namespace Sys2Proof.Machine

def State.channel (s : State) (w c : Nat) : Bounce := (tget (s.world w).bounce c).getD .reset
def State.modChannel (s : State) (w c : Nat) (f : Bounce → Bounce) : State :=
  s.modWorld w fun x => { x with bounce := tset x.bounce c (f ((tget x.bounce c).getD .reset)) }

/-- Slots of the ring, and bytes of a slot. -/
def Bounce.slots (b : Bounce) : Nat := 2 ^ bitsOf b.ctl.toNat 4 0
def Bounce.slotBytes (b : Bounce) : Nat := 2 ^ bitsOf b.ctl.toNat 12 8

/-- The channel is enabled, with sizes in range. -/
def Bounce.usable (b : Bounce) : Bool :=
  bitOf b.ctl.toNat 63 && 1 ≤ bitsOf b.ctl.toNat 4 0 && bitsOf b.ctl.toNat 4 0 ≤ 16 && 6 ≤ bitsOf b.ctl.toNat 12 8
    && bitsOf b.ctl.toNat 12 8 ≤ 20

/-- A count lies between `BCONS` and `BCONS` + slots. -/
def Bounce.admits (b : Bounce) (n : Nat) : Bool := (n + 2 ^ 64 - b.cons) % 2 ^ 64 ≤ b.slots

/-- Where the next slot is read and where it lands, and the count word after the ring's last slot. -/
def Bounce.from_ (b : Bounce) : Nat := (b.src.toNat + b.slotBytes * (b.cons % b.slots)) % 2 ^ 64
def Bounce.to_ (b : Bounce) : Nat := (b.dst.toNat + b.slotBytes * (b.cons % b.slots)) % 2 ^ 64
def Bounce.countAt (b : Bounce) : Nat := (b.dst.toNat + b.slotBytes * b.slots) % 2 ^ 64

/-- The cluster whose copy engine serves the world's channels: the first of its partition (notes/assumptions/38). -/
def State.bounceCluster (s : State) (w : Nat) : Nat := (s.clustersOf (partOfWorld w)).headD 0

def State.bounceAccess (s : State) (w : Nat) : Access := s.worldAccess w (s.bounceCluster w)

/-- The channel becomes mismatched: the count word holds `BCONS`, and a record names the cause (R449). -/
def State.mismatch (s : State) (w c : Nat) (code : FaultCode) (addr : W64) : State :=
  let b := s.channel w c
  let s1 := s.modChannel w c fun x => { x with mism := true, staged := none }
  let s2 : State :=
    match s1.agentWrites (s.bounceAccess w) [(b.countAt, bytesOf 8 b.cons)] with
    | .ok _ t => t
    | _ => s1
  s2.writeRecord
    { code := code, imp := true, stake := false, guest := false, iopx := 0, term := false, world := w, skg := 0xF0, eqid := 0, pc := 0,
      pc2 := 0, fmask := 0, amask := srcWord 1 (s.bounceCluster w) c 0 0, addr := addr, hcpc := 0, csn := 0, ctx := s.worldCtx w,
      cluster := s.bounceCluster w }

/-- BOUNCE_DOORBELL: accepted, staged while mismatched, or the cause of a mismatch. -/
def State.ringBounce (s : State) (w c v : Nat) : State :=
  let b := s.channel w c
  if !s.doorbellsOn w || 16 ≤ c then s
  else if b.mism then s.modChannel w c fun x => { x with staged := some v }
  else if !b.usable then s
  else if b.admits v then s.modChannel w c fun x => { x with prod := v }
  else s.mismatch w c .perm (BitVec.ofNat 64 v)

/-- BOUNCE_DOORBELL. -/
def execBounceDoorbell (world channel : Nat) (v : BitVec 64) (s : State) : Host.Outcome State Fault Refusal :=
  .next (((s.bellHeld true world channel v.toNat).getD (s.ringBounce world channel v.toNat)).clearTried)

/-- BOUNCE_RESYNC: a staged count in range and a generation other than `BGEN` start the channel again. -/
def State.resync (s : State) (w c v : Nat) : State :=
  let b := s.channel w c
  match b.staged with
  | none => s
  | some n =>
    if b.mism && v % 2 ^ 32 != b.gen && b.admits n then
      s.modChannel w c fun x => { x with gen := v % 2 ^ 32, mism := false, staged := none, prod := n }
    else s

/-- BOUNCE_RESYNC. -/
def execBounceResync (world channel : Nat) (v : BitVec 64) (s : State) : Host.Outcome State Fault Refusal :=
  .next (if s.boot = 1 then (s.resync world channel v.toNat).clearTried else s)

/-- A range cut where pages end. -/
def pagePieces : Nat → Nat → Nat → List (Nat × Nat)
  | 0, _, _ => []
  | fuel + 1, a, n =>
    if n = 0 then [] else (a, firstLen a n) :: pagePieces fuel ((a + firstLen a n) % 2 ^ 64) (n - firstLen a n)

/-- Bytes put on the pieces of their range. -/
def pieceWrites : List (Nat × Nat) → List Byte → List (Nat × List Byte)
  | [], _ => []
  | (a, n) :: r, bs => (a, bs.take n) :: pieceWrites r (bs.drop n)

/-- An abandoned landing leaves the slot's bytes undefined (R449): free values (notes/assumptions/7). -/
def State.scribble (s : State) (v : Access) : List (Nat × Nat) → State
  | [] => s
  | (a, n) :: r =>
    match s.draw.agentWrites v [(a, (rangeFrom a n).map (Config.freeByte s.free))] with
    | .ok _ t => State.scribble t v r
    | _ => State.scribble s v r

/-- BOUNCE_SLOT_LAND: the next slot is landed, the count word written after it, and the slot consumed. -/
def State.landSlot (s : State) (w c : Nat) : State :=
  let b := s.channel w c
  if !b.usable || b.mism || b.cons == b.prod || !s.doorbellsOn w || (s.part (partOfWorld w)).pscur != 0 then s
  else
    let v := s.bounceAccess w
    let pieces := pagePieces 8 b.to_ b.slotBytes
    let next := (b.cons + 1) % 2 ^ 64
    match s.readRange v 8 b.from_ b.slotBytes with
    | .wait s1 => s1
    | .fault code a s1 => (s1.scribble v pieces).mismatch w c code a
    | .ok bs s1 =>
      match s1.agentWrites v (pieceWrites pieces bs ++ [(b.countAt, bytesOf 8 next)]) with
      | .wait s2 => s2
      | .fault code a s2 => (s2.scribble v pieces).mismatch w c code a
      | .ok (some a) s2 => s2.mismatch w c .watch a
      | .ok none s2 => s2.modChannel w c fun x => { x with cons := next, last := next }

/-- BOUNCE_SLOT_LAND. -/
def execBounceSlotLand (world channel : Nat) (s : State) : Host.Outcome State Fault Refusal :=
  .next (s.landSlot world channel).clearTried

end Sys2Proof.Machine
end

