-- ==== Sys2Proof/Machine/Reset.lean ====
section
/-! DEFINITION. Resets, boot, and the states of power and clocks that the firmware sets (spec/01 R17, R19, R26 to R28). -/

namespace Sys2Proof.Machine

/-! ## The end of a world's contexts (R26) -/

/-- A world's keys are gone: nothing that was written under them can be read (spec/14 R368, R490). -/
def State.wipeKeys (s : State) (w : Nat) : State :=
  let s1 := s.modWorld w fun x => { x with key := 0, modelKey := none }
  { s1 with owners := s1.owners.filter fun o => o.2.world != w }

/-- A world's packets on a cluster's copy engine, its switch requests, and its lines in the caches, dropped. -/
def Cluster.dropWorld (k : Cluster) (w : Nat) : Cluster :=
  let mine : CopyRef → Bool
    | .packet x _ _ _ _ _ => x == w
    | .entry _ _ => false
  { k with
    copyWait := k.copyWait.filter fun r => !mine r
    channels := k.channels.filter fun q => !mine q.2
    packetProg := k.packetProg.filter fun p => p.1 != w
    cache := k.cache.filter fun x => x.world != w
    code := k.code.filter fun x => x.world != w
    doc := k.doc.filter fun x => x.world != w
    switches := k.switches.filter (· != w) }

/-- A world's held posts and its bindings dropped (spec/10 R287, spec/08 R238). -/
def Cluster.forgetWorld (k : Cluster) (w : Nat) : Cluster :=
  { k with held := k.held.filter fun e => e.world != w, bindings := k.bindings.filter fun b => b.2 != w }

/-- What a core keeps of some gangs, contexts and their world dropped. -/
def Core.dropGangs (c : Core) (keys ctxs : List Nat) (w : Nat) : Core :=
  { c with
    cache := c.cache.filter fun x => x.world != w
    code := c.code.filter fun x => x.world != w
    g := c.g.filter fun p => !ctxs.contains p.1
    seqs := c.seqs.filter fun p => !ctxs.contains p.1
    slots := c.slots.map fun x => if keys.any (fun k => x.holder == some k) then StatSlot.reset else x
    fills := c.fills.filter fun f => !keys.contains f.gang }

/-- The partition's part in it: outstanding port requests, a freeze in progress, a checkpoint that keeps contexts frozen. -/
def Partition.dropWorld (p : Partition) (w : Nat) (ctxs grids : List Nat) : Partition :=
  { p with
    pageReqs := p.pageReqs.filter fun q => q.1 != w
    atsReqs := p.atsReqs.filter fun q => q.1 != w
    psheld := p.psheld.filter fun r => r.world != w
    psbells := p.psbells.filter fun r => r.2.1 != w
    wfreeze := if p.wfreeze % 256 = w then w else p.wfreeze
    ckpt := { p.ckpt with
      heldContexts := p.ckpt.heldContexts.filter fun k => !ctxs.contains k
      wants := p.ckpt.wants.filter fun k => !grids.contains k } }

/-- A world's contexts end with their gangs, in-flight records, tag-table entries, parked completions and queues; what is still at the port
finds no one. -/
def State.endContexts (s : State) (w : Nat) : State :=
  let all := s.allGangs.filter fun g => s.worldOf g == w
  let keys := all.map (·.key)
  let ctxs := (s.ctxs.filter fun c => c.world == w).map (·.key)
  let grids := (s.grids.filter fun g => g.world == w).map (·.key)
  let s1 : State :=
    match s.parkArea w with
    | .ok a => s.keepParked w a []
    | .error _ => s
  let s2 := all.foldl (fun s g => s.leaveBanks g) (s1.unqueue keys)
  let s3 : State := { s2 with
    gangs := s2.gangs.filter fun g => !keys.contains g.key
    ctxs := s2.ctxs.filter fun c => c.world != w
    grids := s2.grids.filter fun g => g.world != w
    tags := s2.tags.filter fun (t : TagEntry) => bitsOf t.tag.toNat 63 56 != w
    tlb := s2.tlb.filter fun (t : TlbEntry) => t.world != w
    far := s2.far.filter fun (f : FarWrite) => !keys.contains f.op.gang
    cores := s2.cores.map fun p => (p.1, p.2.dropGangs keys ctxs w)
    clusters := s2.clusters.map fun p => (p.1, p.2.dropWorld w) }
  let s4 := s3.modWorld w fun x => { x with queues := [], held := [], heldReported := false, cswbusy := false, cswbegun := false }
  let s5 := s4.modPart (partOfWorld w) fun p => p.dropWorld w ctxs grids
  (s5.clusters.map (·.1)).foldl (fun s c => s.releaseFootprints c) s5

/-- Function-level reset of a world. -/
def State.resetWorld (s : State) (w : Nat) : State :=
  let s1 := (s.endContexts w).wipeKeys w
  { s1 with clusters := s1.clusters.map fun p => (p.1, p.2.forgetWorld w) }

/-- The partition's functions do not answer configuration requests but with Request Retry Status: before the boot ends, and while the partition
leaves PS2 (spec/01 R20, R28). -/
def State.retries (s : State) (p : Nat) : Bool := s.boot != 1 || (s.part p).psexit

/-- Request Retry Status, as the answer 4 on the partition's port; in PS3 nothing answers. -/
def State.retryStatus (s : State) (p : Nat) : State := if s.boot = 3 then s else s.answer ((s.pciePorts p).headD 24) 4 []

/-- FUNCTION_LEVEL_RESET: a virtual function's, by a configuration request. -/
def execFunctionLevelReset (world : Nat) (s : State) : Host.Outcome State Fault Refusal :=
  .next (if world % 64 = 0 then s
    else if s.retries (partOfWorld world) then s.retryStatus (partOfWorld world)
    else (s.resetWorld world).clearTried)

/-! ## Partition, warm and cold resets (R26) -/

/-- The cluster of a core's number (R13). -/
def clusterOfCore (n : Nat) : Nat := if n < 384 then n / 12 else if n < 512 then (n - 384) / 4 else n - 512

/-- A cluster reset: its registers in the partition control block stay. -/
def Cluster.cleared (k : Cluster) : Cluster :=
  { Cluster.reset with watch := k.watch, trace := { k.trace with owner := 0, dropped := 0 } }

/-- What a partition reset leaves of the partition's block. -/
def Partition.cleared (p : Partition) (clock ticks : Nat) : Partition :=
  { p with
    fwdlate := 0, clock0 := clock, slots0 := ticks, psheld := [], psbells := [], psexit := false, ckpt := .reset, pageReqs := [], atsReqs := [], invals := []
    xinvBusy := false, wfreeze := p.wfreeze % 256, ordHist := [], ordClocks := [] }

/-- A partition reset: its worlds' contexts, queues and keys, its cores, SRAM and caches; memory keeps its bytes, which no key reads. -/
def State.resetPartition (s : State) (p : Nat) : State :=
  let s1 := (rangeFrom (64 * p) 64).foldl (fun s w => s.resetWorld w) s
  let here (c : Nat) : Bool := s1.partOfCluster c == p
  { s1.modPart p fun x => x.cleared s1.clock s1.ticks with
    gangs := s1.gangs.filter fun g => !here g.cluster
    clusters := s1.clusters.map fun q => if here q.1 then (q.1, q.2.cleared) else q
    cores := s1.cores.filter fun q => !here (clusterOfCore q.1)
    ats := s1.ats.filter fun (x : AtsEntry) => partOfWorld x.world != p }

/-- PARTITION_RESET. -/
def execPartitionReset (partition : Nat) (s : State) : Host.Outcome State Fault Refusal :=
  .next (if partition < s.partitions ∧ s.boot ≠ 3 then (s.resetPartition partition).clearTried else s)

/-- What no reset of the device touches: the model's own fields, memory outside the device, and what the host has been told. -/
def State.outside (s : State) : State :=
  { State.reset with
    ticks := s.ticks, free := s.free, nextKey := s.nextKey, agenda := s.agenda, host := s.host, peers := s.peers, msix := s.msix
    answers := s.answers, security := { Security.reset with nonce := s.security.nonce + 1, image := s.security.image + 1 }
    parts := [(0, { Partition.reset 3200 with slots0 := s.ticks })] }

/-- COLD_RESET: everything but the fuses. -/
def execColdReset (s : State) : Host.Outcome State Fault Refusal := .next s.outside

/-- A warm reset: a pending partition count applies, and extension memory keeps its bytes unless the request asks for scrubbing. -/
def State.warm (s : State) (scrub : Bool) : State :=
  let next := (s.part 0).pnext
  let n := 2 ^ next
  { s.outside with
    clock := s.clock
    fabricId := s.fabricId
    partitions := n
    parts := (rangeFrom 0 n).map fun p =>
      (p, { Partition.reset (3200 / n) with clock0 := s.clock, slots0 := s.ticks, pnext := if p = 0 then next else 0 })
    mem := if scrub then [] else s.mem.filter fun c => extBase ≤ c.1 % 2 ^ 52 && c.1 % 2 ^ 52 < regBase }

/-- WARM_RESET: PS3 is left by a cold reset alone (R19). -/
def execWarmReset (scrub : Bool) (s : State) : Host.Outcome State Fault Refusal := .next (if s.boot = 3 then s else s.warm scrub)

/-- PCIE_D3COLD: all rails off (PS3), until a cold reset (R19). -/
def execPcieD3cold (s : State) : Host.Outcome State Fault Refusal := .next { s.outside with boot := 3 }

/-- Requests in flight on PCIe port 1 of a device of one partition end as at a link-down, and the port is down until it retrains (R27). -/
def State.resetSecondPort (s : State) : State :=
  let n := s.free
  let on (w io : Nat) : Bool := partOfWorld w == 0 && Config.secondPort n io
  let lost := (s.part 0).pageReqs.filter fun q => on q.1 (4096 * q.2)
  let s1 := (s.draw.setPort 25 false).modPart 0 fun x =>
    { x with
      pageReqs := x.pageReqs.filter fun q => !lost.contains q
      atsReqs := x.atsReqs.filter fun q => !on q.1 (4096 * q.2) }
  let s2 := lost.foldl (fun s q => s.holdTranslation ⟨q.1, q.2, 0, false, false, 4⟩) s1
  ((s2.endRequests (fun _ q => q.home == Home.host && Config.secondPort n q.io) .linkDown).parkLost 0 fun q => Config.secondPort n q.io).retryReplays

/-- PCIE_HOT_RESET, by port and partition count (R27). -/
def State.hotReset (s : State) (port : Nat) : State :=
  if (port ≠ 24 ∧ port ≠ 25) ∨ s.boot = 3 then s
  else if s.partitions = 1 then (if port = 24 then s.warm false else s.resetSecondPort)
  else ((s.portPartitions port).foldl (fun s p => s.resetPartition p) s).pcieDown port fun _ => true

/-- PCIE_HOT_RESET. -/
def execPcieHotReset (port : Nat) (s : State) : Host.Outcome State Fault Refusal := .next (s.hotReset port).clearTried

/-- BOOT_COMPLETE: the device is ready, or answers in a recovery function set only (R28); the firmware gives it its fabric id once after a
cold reset (spec/14 R365; a free value, notes/assumptions/7). -/
def execBootComplete (firmwareOk : Bool) (s : State) : Host.Outcome State Fault Refusal :=
  .next (if s.boot ≠ 0 then s
    else if !firmwareOk then { s with boot := 2 }
    else if s.fabricId ≠ 0 then { s with boot := 1 }
    else { s.draw with boot := 1, fabricId := 1 + Config.freeValue s.free % 0xFFFFE })

/-! ## Power states and clocks (R17, R19, R20) -/

/-- A context of the partition is resident, or saved in SRAM: its gangs stand on its cores. -/
def State.holdsContext (s : State) (p : Nat) : Bool :=
  (s.ctxs.any fun c => partOfWorld c.world == p && (c.st == .running || c.st == .swapping))
    || s.gangs.any fun g => s.partOfCluster g.cluster == p && (!g.ended || g.skeins.any fun sk => !sk.record.isEmpty)

/-- A cluster power-gated: scratch and FIFO contents are lost, and every bank is in cache mode; handle-local memory is lost (spec/05 R98). -/
def Cluster.gated (k : Cluster) : Cluster := { k with banks := [], scratch := [], scratchPoison := [], cache := [], code := [], local_ := [] }

/-- PS2_REQUEST: granted where no context is resident or saved in SRAM; caches are written back first. -/
def State.enterPs2 (s : State) (p : Nat) : State :=
  if (s.part p).pscur = 2 then s
  else if s.holdsContext p then s.modPart p fun x => { x with psref := true }
  else
    let s1 := (s.clustersOf p).foldl (fun s c => (s.flushAll c).modCluster c Cluster.gated) s
    let s2 : State := { s1 with
      cores := s1.cores.map fun q => if s1.partOfCluster (clusterOfCore q.1) = p then (q.1, { q.2 with cache := [], code := [] }) else q }
    s2.modPart p fun x => { x with pscur := 2, psref := false, psexit := false }

/-- PS2_REQUEST. -/
def execPs2Request (w : RegWrite) (s : State) : Host.Outcome State Fault Refusal :=
  .next (match s.writer w with
    | some p => if w.v.toNat % 4 = 1 then s.enterPs2 p else s
    | none => s)

/-- PS0_REQUEST: the partition starts to leave PS2. -/
def execPs0Request (w : RegWrite) (s : State) : Host.Outcome State Fault Refusal :=
  .next (match s.writer w with
    | some p => if w.v.toNat % 4 = 2 then s.wake p else s
    | none => s)

/-- PS2_EXIT: the partition is in PS0 again, and the doorbells and requests that waited for it are served. -/
def State.leavePs2 (s : State) (p : Nat) : State :=
  let x := s.part p
  if !x.psexit then s
  else
    let s0 := s.modPart p fun y => { y with pscur := 0, psexit := false, psheld := [], psbells := [] }
    let s1 := x.psbells.foldl (fun s d => if d.1 then s.ringBounce d.2.1 d.2.2.1 d.2.2.2 else s.ringDoorbell d.2.1 d.2.2.1 d.2.2.2) s0
    x.psheld.foldl (fun s r =>
      match s.servePort r with
      | some t => t
      | none => s.modPart p fun y => { y with psexit := true, psheld := y.psheld ++ [r] }) s1

/-- PS2_EXIT. -/
def execPs2Exit (partition : Nat) (s : State) : Host.Outcome State Fault Refusal := .next (s.leavePs2 partition).clearTried

/-- PS1_ENTRY: a cluster without a resident gang is clock-gated; it keeps its contents. -/
def execPs1Entry (cluster : Nat) (s : State) : Host.Outcome State Fault Refusal :=
  .next (if s.gangs.any fun g => g.cluster == cluster && !g.ended then s else s.modCluster cluster fun k => { k with idle := true })

/-- The fastest clock of a core kind in MHz (R14), and its place in the table of clocks. -/
def clockLimit : CoreKind → Nat
  | .rand => 2400 | .stake => 3200 | .handle => 2400

def clockIndex (die : Nat) : CoreKind → Nat
  | .rand => 3 * die | .stake => 3 * die + 1 | .handle => 3 * die + 2

/-- CLOCK_RELOCK: a die's clock of one core kind changes; no result depends on it. -/
def execClockRelock (die : Nat) (kind : CoreKind) (mhz : Nat) (s : State) : Host.Outcome State Fault Refusal :=
  .next (if die < 4 ∧ 0 < mhz ∧ mhz ≤ clockLimit kind then { s with clocks := tset s.clocks (clockIndex die kind) mhz } else s)

end Sys2Proof.Machine
end

