-- ==== Sys2Proof/Machine/Trust.lean ====
section
/-! DEFINITION. The security engine: TDISP states, model keys, measurements, debug unlocks (spec/14 R363, R369, R373 to R375). -/

namespace Sys2Proof.Machine

/-! ## TDISP (R363, R368, R374) -/

/-- An unlock attempt is in progress, or debug is open. -/
def State.debugOpen (s : State) : Bool := 1 ≤ s.security.dstate && s.security.dstate ≤ 3

/-- A message of the TSM: the state it leads to; none where the engine refuses it. -/
def State.tdispNext (s : State) (w : Nat) (m : TdispMsg) : Option Tdisp :=
  if w % 64 = 0 then none
  else
    match m, (s.world w).tdisp with
    | .lock, .unlocked => if s.debugOpen then none else some .locked
    | .start, .locked => some .run
    | .stop, .locked => some .unlocked
    | .stop, .run => some .unlocked
    | .stop, .error => some .unlocked
    | .error, _ => some .error
    | _, _ => none

/-- The interface in its new state: memory keys are made when it leaves CONFIG_UNLOCKED, and an error ends every context of the world and
wipes its keys. -/
def State.tdispMove (s : State) (w : Nat) (t : Tdisp) : State :=
  let was := (s.world w).tdisp
  let s1 := s.modWorld w fun x => { x with tdisp := t, key := if was = .unlocked ∧ t = .locked then x.key + 1 else x.key }
  if t = .error then s1.resetWorld w else s1

/-- TDISP_MESSAGE, answered at the port of the function set: 0 done, 1 refused. -/
def execTdispMessage (world : Nat) (m : TdispMsg) (s : State) : Host.Outcome State Fault Refusal :=
  let port := (s.pciePorts (partOfWorld world)).headD 24
  .next (match s.tdispNext world m with
    | some t => ((s.tdispMove world t).answer port 0 []).clearTried
    | none => s.answer port 1 [])

/-- MODEL_KEY_DELIVERY: accepted while the interface is locked or runs (R369). -/
def execModelKeyDelivery (world : Nat) (key : BitVec 128) (s : State) : Host.Outcome State Fault Refusal :=
  .next (if s.isProtected world then s.modWorld world fun x => { x with modelKey := some key } else s)

/-! ## Measurements (R373) -/

/-- `HASH` of the tables bound to the world, by personality, one for each table that differs. -/
def State.boundHashes (s : State) (w : Nat) : List Byte :=
  ((rangeFrom 1 15).flatMap fun id =>
    ((s.clustersOf (partOfWorld w)).filterMap fun c =>
      if (s.cluster c).bindings.contains (id, w) then ((tget (s.cluster c).weave id).map fun t => (t.bytes.drop 0x20).take 32) else none).eraseDups).flatten

/-- What measurement 3 covers. -/
def State.configValues (s : State) (w : Nat) : List Nat :=
  let x := s.world w
  [s.partitions, (s.part (partOfWorld w)).dutycfg.toNat, x.featmsk.toNat, x.wcfg.toNat, x.wpasid.toNat, x.haq.toNat, x.banklim.toNat,
    x.parkbase.toNat]

/-- A measurement as it stands now. -/
def State.measurement (s : State) (w : Nat) : Nat → Option (List Byte)
  | 1 => some (Config.imageDigest 1)
  | 2 => some (Config.imageDigest (2 + s.security.image))
  | 3 => some (Config.configDigest (s.configValues w))
  | 4 => some s.security.debugMeas
  | 5 => some (sm3 (s.boundHashes w))
  | _ => none

/-- SPDM_REQUEST: a measurement of the function's own interface. -/
def execSpdmRequest (world index : Nat) (s : State) : Host.Outcome State Fault Refusal :=
  let port := (s.pciePorts (partOfWorld world)).headD 24
  .next (match s.measurement world index with
    | some bs => s.answer port 0 bs
    | none => s.answer port 1 [])

/-! ## Debug unlock (R374, R375) -/

/-- `LIFE`. -/
def lifeCycle : Nat := Config.life.toNat % 8

/-- `DBGNONCE`. -/
def State.dbgNonce (s : State) : W64 := Config.dbgNonce s.security.nonce

/-- Why an attempt on the token in the mailbox is refused, if it is: the checks in their order. -/
def State.dbgRefusal (s : State) : Option Nat :=
  let t := s.security.mailbox
  let f := fieldAt t
  if s.worlds.any fun p => p.2.tdisp == .locked || p.2.tdisp == .run then some 4
  else if !Config.sm2Verify 1 (t.take 64) (t.drop 64) || f 0 4 != 0x4E4B4244 then some 5
  else if f 8 8 != Config.dbgId.toNat || f 0x10 4 != lifeCycle || lifeCycle == 4 then some 6
  else if f 0x18 8 != s.dbgNonce.toNat then some 7
  else none

/-- Every key held for tenants wiped. -/
def State.wipeAll (s : State) : State :=
  { s with
    worlds := s.worlds.map fun p => (p.1, { p.2 with key := 0, modelKey := none })
    owners := []
    ports := s.ports.map fun p => (p.1, { p.2 with session := p.2.session + 1 })
    security := { s.security with wipes := s.security.wipes + 1 } }

/-- DBGGO: an attempt, which renews the nonce; debug that is open stays open. -/
def State.dbgGo (s : State) : State :=
  let e := s.security
  if e.dstate = 1 ∨ e.dstate = 2 then s
  else
    match s.dbgRefusal with
    | some n => { s with security := { e with dstate := if e.dstate = 3 then 3 else n, nonce := e.nonce + 1 } }
    | none => ({ s with security := { e with dstate := 2, nonce := e.nonce + 1, token := e.mailbox } }).wipeAll

/-- DBGGO: written by the physical function of partition 0. -/
def execDbggo (w : RegWrite) (s : State) : Host.Outcome State Fault Refusal :=
  .next (if s.boot = 1 ∧ w.by_ = 0 ∧ w.page = none ∧ w.v.toNat % 2 = 1 then s.dbgGo.clearTried else s)

/-- DEBUG_SCRUB_DONE: memory is zero under fresh keys and no cache holds what was in it, measurement 4 is extended by the token, and the ports that the token names are open. -/
def execDebugScrubDone (s : State) : Host.Outcome State Fault Refusal :=
  let e := s.security
  .next (if e.dstate ≠ 2 then s
    else
      { s with
        mem := [], owners := [], poisoned := []
        clusters := s.clusters.map fun p => (p.1, { p.2 with cache := [], code := [], doc := [] })
        cores := s.cores.map fun p => (p.1, { p.2 with cache := [], code := [] })
        security := { e with
          dstate := 3, scope := Nat.lor e.scope (fieldAt e.token 6 2 % 8), debugMeas := sm3 (e.debugMeas ++ sm3 e.token) } })

end Sys2Proof.Machine
end

