-- ==== Sys2Proof/Machine/Observe.lean ====
section
/-! DEFINITION. Trace ownership, samples, and the counter window (spec/15 R380 to R383, spec/22 R467). -/

namespace Sys2Proof.Machine

/-- The number under which a party owns a trace unit: the hypervisor, or a world. -/
def partyNumber : Option Nat → Nat
  | none => 1
  | some w => w + 2

/-- The record of a revocation: what was dropped for lack of room, then kind 14. -/
def State.revokeRecords (s : State) (cluster w : Nat) : List (List Byte) :=
  let time := s.clockOf (s.partOfCluster cluster)
  let bytes (kind : Nat) (data : Nat) : List Byte :=
    ({ kind := kind, src := 0, skein := 0, leaf := 0, world := w, hcpc := 0, csn := 0, pc := 0, pc2 := 0, mask := 0,
       data := BitVec.ofNat 64 data } : TraceRec).bytes time
  let n := (s.cluster cluster).trace.dropped
  (if n = 0 then [] else [bytes 13 n]) ++ [bytes 14 0]

/-- Records owed to a guest written while its ring has room. -/
def State.payOwed (s : State) (cluster w : Nat) : Nat → State
  | 0 => s
  | fuel + 1 =>
    match (s.traceRegs cluster (w + 2)).owed with
    | [] => s
    | bs :: r =>
      match s.putTrace cluster (w + 2) (s.worldCtx w) bs with
      | some s1 => State.payOwed (s1.modTraceRegs cluster (w + 2) fun x => { x with owed := r }) cluster w fuel
      | none => s

/-- A guest loses the unit to the hypervisor. -/
def State.revoke (s : State) (cluster w : Nat) : State :=
  let s1 := s.modTraceRegs cluster (w + 2) fun x => { x with state := 2, owed := s.revokeRecords cluster w }
  let s2 := s1.payOwed cluster w 2
  s2.postEvent cluster
    ⟨w, BitVec.ofNat 32 (0x81000000 + cluster), schedSource, BitVec.ofNat 64 (s2.traceRegs cluster (w + 2)).wr⟩

/-- The unit takes samples of its cluster's cores, in periods (spec/15 R381). -/
def State.inPeriod (s : State) (cluster : Nat) : Bool :=
  let owner := (s.cluster cluster).trace.owner
  owner != 0 && 10 ≤ (s.traceRegs cluster owner).smpn

/-- `DUTYCFG.SAMPLE` of the cluster's partition. -/
def State.sampleBit (s : State) (cluster : Nat) : Bool := bitOf (s.part (s.partOfCluster cluster)).dutycfg.toNat 5

/-- The host polls the counters of the cluster: `SAMPLE`, from the start of the next sampling period on (spec/01 R25). -/
def State.polls (s : State) (cluster : Nat) : Bool :=
  if s.inPeriod cluster then (s.cluster cluster).trace.polling else s.sampleBit cluster

/-- Where no period is under way the next one is in the mode that `SAMPLE` says. -/
def State.startPeriod (s : State) (cluster : Nat) : State :=
  if s.inPeriod cluster then s
  else s.modCluster cluster fun k => { k with trace := { k.trace with polling := s.sampleBit cluster } }

/-- A party comes to own the unit, or nobody does. -/
def State.ownTrace (s : State) (cluster owner : Nat) : State :=
  (s.startPeriod cluster).modCluster cluster fun k => { k with trace := { k.trace with owner := owner, dropped := 0 } }

/-- TRACE_CLAIM (R382). -/
def State.claimTrace (s : State) (cluster : Nat) (party : Option Nat) : State :=
  let owner := (s.cluster cluster).trace.owner
  match party with
  | some w =>
    if owner = 0 ∧ (s.traceRegs cluster (w + 2)).state ≠ 2 ∧ partOfWorld w = s.partOfCluster cluster then s.ownTrace cluster (w + 2) else s
  | none =>
    if owner = 1 then s
    else if owner = 0 then s.ownTrace cluster 1
    else (s.revoke cluster (owner - 2)).ownTrace cluster 1

/-- TRACE_CLAIM. -/
def execTraceClaim (cluster : Nat) (party : Option Nat) (s : State) : Host.Outcome State Fault Refusal :=
  .next (if s.boot = 1 then (s.claimTrace cluster party).clearTried else s)

/-- TRACE_RELEASE: by the owner, or a revoked guest's acknowledgement. -/
def State.releaseTrace (s : State) (cluster : Nat) (party : Option Nat) : State :=
  let me := partyNumber party
  if (s.cluster cluster).trace.owner = me then s.ownTrace cluster 0
  else if me ≠ 1 ∧ (s.traceRegs cluster me).state = 2 then s.modTraceRegs cluster me fun x => { x with state := 0 }
  else s

/-- TRACE_RELEASE. -/
def execTraceRelease (cluster : Nat) (party : Option Nat) (s : State) : Host.Outcome State Fault Refusal :=
  .next (if s.boot = 1 then (s.releaseTrace cluster party).clearTried else s)

/-- The skein that a slot of a core is charged to: the one that would issue next among those of the owner's view. -/
def State.sampled (s : State) (c : CoreId) (owner : Nat) : Option Resident :=
  let mine := (s.coreSkeins c).filter fun r => owner == 1 || s.worldOf r.gang + 2 == owner
  let active := mine.filter fun r => r.sk.active
  ((eldest (active.filter s.residentReady)).or (eldest active)).or (eldest mine)

/-- A sample of a slot charged to a leaf (R381, R383): the batch that would issue next of the skein it is charged to; none where the period that
ends was one of host polling. -/
def State.takeSample (s : State) (c : CoreId) (leaf : Nat) : State :=
  let owner := (s.cluster c.cluster).trace.owner
  if s.polls c.cluster then s
  else
    match s.sampled c owner with
    | none =>
      s.trace c.cluster 0
        { kind := 1, src := c.core, skein := 0, leaf := leaf, world := owner - 2, hcpc := 0, csn := 0, pc := 0, pc2 := 0, mask := 0, data := 0 }
    | some r =>
      let g := r.gang
      let ts := s.nextBatch g r.sk
      let low := (((ts.head?).bind fun t => r.sk.fibre t).or ((r.sk.live.head?).map (·.2)))
      let bare := leaf = 12 ∨ leaf = 13
      s.trace c.cluster g.ctx
        { kind := 1, src := c.core, skein := r.k, leaf := leaf, world := s.worldOf g, hcpc := g.hcpc, csn := g.csn
          pc := if bare then 0 else (low.map (·.pc)).getD 0
          pc2 := if bare then 0 else (low.map fun x => (s.recordPcs g x).2).getD 0
          mask := if bare then 0 else maskOf ts, data := 0 }

/-- A sampling period ends with its sample, and the next one is in the mode that `SAMPLE` says (spec/01 R25). -/
def State.sample (s : State) (c : CoreId) (leaf : Nat) : State :=
  if !s.inPeriod c.cluster || leaf = 0 || 13 < leaf || 16 ≤ c.core then s
  else
    let s1 := s.takeSample c leaf
    if (s1.cluster c.cluster).trace.polling = s.sampleBit c.cluster then s1
    else s1.modCluster c.cluster fun k => { k with trace := { k.trace with polling := s.sampleBit c.cluster } }

/-- TRACE_SAMPLE. -/
def execTraceSample (c : CoreId) (leaf : Nat) (s : State) : Host.Outcome State Fault Refusal := .next (s.sample c leaf)

/-- CTRSEL_WRITE: the window shows counters of the core and view selected. -/
def execCtrselWrite (w : RegWrite) (s : State) : Host.Outcome State Fault Refusal :=
  .next (match s.writer w with
    | some p => s.modPart p fun x => { x with ctrsel := BitVec.ofNat 64 (w.v.toNat % 2 ^ 26) }
    | none => s)

end Sys2Proof.Machine
end

