-- ==== Sys2Proof/Machine/Idle.lean ====
section
/-! DEFINITION. Issue slots in which a core issues nothing, and the leaves that they are charged to (spec/15 R376 to R379): how many pass is
free (notes/assumptions/97), and the rule charges them. -/

namespace Sys2Proof.Machine

/-- Slots that passed from a step on, over a number of steps. -/
def idleSum (core : Nat) : Nat → Nat → Nat
  | _, 0 => 0
  | start, n + 1 => idleSum core start n + Config.idleSlots (start + n) core

/-- The slots that passed on a core since it last had a resident skein, all charged to 'no ready skein'. -/
def State.quiet (s : State) (n : Nat) (c : Core) : Nat :=
  let start := max c.idleFrom (s.part (s.partOfCluster (if n < 384 then n / 12 else if n < 512 then (n - 384) / 4 else n - 512))).slots0
  idleSum n start (s.ticks - start)

/-- A gang's skein on a core. -/
structure OnCore where
  gang : Gang
  sk : Skein

/-- The skeins on a core. -/
def State.onCore (s : State) (n : Nat) : List OnCore :=
  (s.gangs.filter fun g => !g.ended && g.coreNo == n).flatMap fun g => g.skeins.map fun sk => ⟨g, sk⟩

/-- The skein is stopped by a freeze, by a checkpoint's cut, or by its compaction move. -/
def State.stoppedSkein (s : State) (r : OnCore) : Bool :=
  let c := (s.part (s.partOfCluster r.gang.cluster)).ckpt
  s.compacting r.gang r.sk || r.gang.frozen || c.phase == 1 || !c.heldContexts.isEmpty

/-- Which of two active skeins would issue first (spec/12 R320): the greater ready age, then the lower residency. -/
def nextUp : List OnCore → Option OnCore
  | [] => none
  | a :: r =>
    match nextUp r with
    | none => some a
    | some b => if a.sk.age < b.sk.age ∨ (a.sk.age = b.sk.age ∧ b.sk.residency < a.sk.residency) then some b else some a

/-- The leaf of an instruction that could not issue: the counter that it waits for or is at its limit, a full tile queue, a barrier. -/
def heldLeaf (sk : Skein) (i : Instr) : Nat :=
  match i with
  | .waitc f => if f.l.toNat < sk.l ∨ f.s.toNat < sk.s then 8 else if f.c.toNat < sk.c then 10 else 9
  | .copy _ | .copym _ | .copyl _ | .cfill _ => 10
  | .mma _ | .ldstat _ | .statrel _ | .tzero _ | .tcvt _ | .tget _ | .tstr _ => 9
  | .bar _ | .bara _ | .sbar _ | .rjoin _ | .mwait _ | .arrwait _ | .qpush _ | .qpop _ | .evpost _ | .evpop _ | .migrate _ => 11
  | _ => 8

/-- Why a fibre does not issue: what it waits for, the scoreboard, memory, or the front end, which is looking its guest word up, substituting,
or fetching a canonical word. -/
def State.fibreLeaf (s : State) (g : Gang) (sk : Skein) (x : Fibre) : Nat :=
  match x.wait with
  | .rjoin | .barw | .sbar | .mwait | .arrwait | .qpop | .qpush | .evpop | .evpost | .migrate => 11
  | _ =>
    if sk.heldByHost x then 8
    else if sk.heldByMma x then 9
    else
      match s.fetched g x with
      | .wait _ => 8
      | .guest => 4
      | .instr i _ => if sk.holds i x then 7 else if x.tried || x.wait != .none then heldLeaf sk i else if x.inTemplate then 5 else 6
      | _ => 6

/-- The leaf of a slot without an issue in a view of the skeins of a core (R376): frozen, no ready skein, or why the skein that would issue
next has no batch, judged at the fibre that would lead it. -/
def State.viewLeaf (s : State) (rs : List OnCore) : Nat :=
  if !rs.isEmpty && rs.all s.stoppedSkein then 13
  else
    match nextUp (rs.filter fun r => r.sk.active) with
    | none => 12
    | some r =>
      if r.sk.replaying then 8
      else
        match chooseFibre (match s.readyFibres r.gang r.sk with | [] => r.sk.live | l => l) with
        | some x => s.fibreLeaf r.gang r.sk x
        | none => 11

/-- A core with resident skeins during a step: its slots without an issue charged to bank H and to every view (R377), and the L2 accesses,
misses and displaced lines of each context counted (R378, R379). -/
def State.idleCore (s : State) (n : Nat) (c : Core) : Core :=
  let rs := s.onCore n
  let slots := Config.idleSlots s.ticks n
  let ctxs := (rs.map fun r => r.gang.ctx).eraseDups
  let l2 (ctx : Nat) (t : Tbl Nat) : Tbl Nat :=
    let acc := Config.l2Count s.ticks n ctx 0
    counted (counted t 32 acc) 33 (min acc (Config.l2Count s.ticks n ctx 1))
  let c1 := { c with
    h := ctxs.foldl (fun t ctx => l2 ctx t) (charged (charged c.h 12 (s.quiet n c)) (s.viewLeaf rs) slots)
    idleFrom := s.ticks + 1
    clocks := c.clocks + Config.coreClocks s.ticks n }
  ctxs.foldl (fun c ctx => c.mapView ctx fun t =>
    counted (l2 ctx (charged t (s.viewLeaf (rs.filter fun r => r.gang.ctx == ctx)) slots)) 34 (Config.l2Count s.ticks n ctx 2)) c1

/-- Every core that has resident skeins, so charged. -/
def State.idled (s : State) : Tbl Core :=
  (((s.gangs.filter fun g => !g.ended).map Gang.coreNo).eraseDups).foldl (fun t n => tset t n (s.idleCore n ((tget t n).getD .reset))) s.cores

/-- Every slot of a view is charged to one leaf: counters 1 to 13 make counter 0 (R376). -/
abbrev slotsAgree (t : Tbl Nat) : Prop := ((rangeFrom 1 13).map (counterIn t)).sum % 2 ^ 64 = counterIn t 0 % 2 ^ 64

/-- So in every view of a core. -/
def Core.slotsAgree (c : Core) : Prop := Machine.slotsAgree c.h ∧ ∀ v ∈ c.g, Machine.slotsAgree v.2

end Sys2Proof.Machine
end

