-- ==== Sys2Proof/Machine/Registers.lean ====
section
/-! DEFINITION. Writes of registers by the host, and what registers read as (spec/00 R5, spec/01 R20 to R25, and the rules named at each
register). -/

namespace Sys2Proof.Machine

/-! ## Registers with a behaviour of their own -/

/-- A number held within bounds. -/
def clamp (lo hi n : Nat) : Nat := max lo (min hi n)

/-- DUTYCFG_WRITE (spec/01 R24, R25). -/
def execDutycfgWrite (w : RegWrite) (s : State) : Host.Outcome State Fault Refusal :=
  .next (match s.writer w with
    | some p => (s.modPart p fun x => { x with dutycfg := BitVec.ofNat 32 (w.v.toNat % 64) }).clearTried
    | none => s)

/-- PWRLIM_WRITE: `DEVW` in partition 0 alone, and the partition's `SHAREW` (spec/01 R20). -/
def State.pwrlimWrite (s : State) (p v : Nat) : State :=
  let devw := if p = 0 then clamp 1600 3200 (bitsOf v 47 32) else s.devw
  { s with devw := devw }.modPart p fun x => { x with sharew := clamp (1600 / s.partitions) devw (v % 2 ^ 16) }

/-- PWRLIM_WRITE. -/
def execPwrlimWrite (w : RegWrite) (s : State) : Host.Outcome State Fault Refusal :=
  .next (match s.writer w with
    | some p => s.pwrlimWrite p w.v.toNat
    | none => s)

/-- The code of a partition count. -/
def partCode (n : Nat) : Nat := if n = 1 then 0 else if n = 2 then 1 else 2

/-- PARTCFG_WRITE: `PNEXT`, by the physical function of partition 0; 11 is stored as `PCUR` (spec/01 R22, R23). -/
def execPartcfgWrite (w : RegWrite) (s : State) : Host.Outcome State Fault Refusal :=
  .next (match s.writer w with
    | some 0 =>
      let v := w.v.toNat % 4
      s.modPart 0 fun x => { x with pnext := if v = 3 then partCode s.partitions else v }
    | _ => s)

/-- ECCCNT_CLEAR: writing 1 to any bit of a field clears it (spec/19 R425). -/
def execEcccntClear (w : RegWrite) (s : State) : Host.Outcome State Fault Refusal :=
  .next (match s.writer w with
    | some p => s.modPart p fun x =>
        let old := x.ecc.toNat
        { x with
          ecc := BitVec.ofNat 64 ((if w.v.toNat / 2 ^ 32 = 0 then old / 2 ^ 32 else 0) * 2 ^ 32
            + (if w.v.toNat % 2 ^ 32 = 0 then old % 2 ^ 32 else 0)) }
    | none => s)

/-! ## Registers that hold what is written (R5) -/

/-- A trace register of a party: `TRCCTL`, `TRCBASE`, `TRCSZ`; `owned` while the party owns the unit (spec/15 R381, spec/22 R467). -/
def TraceRegs.write (x : TraceRegs) (owned : Bool) (n v : Nat) : TraceRegs :=
  if n = 0 then (if x.state = 2 then x else { x with kinds := bitsOf v 47 32, smpn := bitsOf v 31 27 })
  else if n = 1 then (if owned then x else { x with base := BitVec.ofNat 64 (v / 4096 * 4096) })
  else if n = 2 then { x with size := if owned then x.size else v % 32, rd := v / 2 ^ 32 % 2 ^ 32 }
  else x

/-- A trace register written; room in a revoked guest's ring lets the records owed to it be written. -/
def State.traceWrite (s : State) (cluster : Nat) (party : Option Nat) (n v : Nat) : State :=
  let me := partyNumber party
  let owned := (s.cluster cluster).trace.owner == me
  let s1 := (s.startPeriod cluster).modTraceRegs cluster me fun x => x.write owned n v
  match party with
  | some w => s1.payOwed cluster w 2
  | none => s1

/-- A world's registers of the partition control block that its TDISP state locks (spec/14 R363). -/
def World.lockedWrite (x : World) (bank n v : Nat) : World :=
  if x.tdisp != .unlocked then x
  else
    match bank, n with
    | 0, _ => { x with banklim := BitVec.ofNat 32 (packFields [(7, min 56 (bitsOf v 6 0)), (1, 0), (7, min 56 (bitsOf v 14 8))]) }
    | 1, _ => { x with featmsk := BitVec.ofNat 64 v }
    | 2, _ => { x with parkbase := BitVec.ofNat 64 v }
    | 3, 0 => { x with haq := BitVec.ofNat 64 (v / 4096 * 4096 + v % 32) }
    | 4, 0 => { x with wcfg := BitVec.ofNat 64 (v % 2 ^ 52) }
    | 4, 1 => { x with wpasid := BitVec.ofNat 64 (v % 2 ^ 21) }
    | _, _ => x

/-- A world's registers of the order checker and the replay log (spec/15 R386, R387). -/
def World.checkerWrite (x : World) (bank n v : Nat) : World :=
  match bank, n with
  | 0, 0 => { x with ordchk := BitVec.ofNat 64 (bitsOf v 51 12 * 4096 + v % 2) }
  | 0, 1 => { x with ordlen := BitVec.ofNat 64 v }
  | 1, 0 => { x with rlog := BitVec.ofNat 64 (bitsOf v 51 12 * 4096 + v % 4) }
  | 1, 1 => { x with rlcap := BitVec.ofNat 64 v }
  | _, _ => x

/-- `FABTMO` as stored (spec/21 R452). -/
def fabtmoStored (v : Nat) : Nat := packFields [(24, clamp 100 16000000 (v % 2 ^ 24)), (8, max 1 (bitsOf v 31 24))]

/-- A register of the partition that holds what is written. -/
def Partition.regWrite (x : Partition) (off v : Nat) : Partition :=
  if off = 0x44 then { x with migdis := v % 2 == 1 }
  else if off = 0xA0 then { x with wfreeze := if bitOf x.wfreeze 63 then x.wfreeze else v % 256 }
  else if off = 0x90 then { x with wvhaddr := BitVec.ofNat 64 (bitsOf v 51 8 * 256) }
  else if off = 0xB0 then { x with ckptshd := BitVec.ofNat 64 (v / 2 ^ 30 * 2 ^ 30) }
  else if off = 0xB8 then { x with ckpttgt := BitVec.ofNat 64 (v / 2 ^ 42 * 2 ^ 42) }
  else if off = 0xC8 then { x with ckptadr := BitVec.ofNat 64 (v / 4096 * 4096) }
  else if off = 0xF0 then { x with fabtmo := BitVec.ofNat 64 (fabtmoStored v) }
  else x

/-- A register of a table at `base`, n bytes for each entry: the entry, and the 8-byte word within it. -/
def tableSlot (base n count off : Nat) : Option (Nat × Nat) :=
  if base ≤ off ∧ off < base + n * count ∧ off % 8 = base % 8 then some ((off - base) / n, (off - base) % n / 8) else none

/-- A write of a register of a partition control block by its physical function. -/
def State.blockWrite (s : State) (p off v : Nat) : State :=
  let world (w : Nat) (f : World → World) : State := if partOfWorld w = p then s.modWorld w f else s
  let here (c : Nat) (t : State) : State := if s.partOfCluster c = p then t else s
  if 0x100 ≤ off ∧ off < 0x500 ∧ off % 4 = 0 then world ((off - 0x100) / 4) fun x => x.lockedWrite 0 0 v
  else if off % 8 ≠ 0 then s.modPart p fun x => x.regWrite off v
  else
    match tableSlot 0x800 8 256 off, tableSlot 0x2000 8 256 off, tableSlot 0x2800 16 256 off, tableSlot 0x3800 16 256 off with
    | some (w, _), _, _, _ => world w fun x => x.lockedWrite 1 0 v
    | _, some (w, _), _, _ => world w fun x => x.lockedWrite 2 0 v
    | _, _, some (w, n), _ => world w fun x => x.lockedWrite 3 n v
    | _, _, _, some (w, n) => world w fun x => x.lockedWrite 4 n v
    | none, none, none, none =>
      match tableSlot 0x4800 32 32 off, tableSlot 0x4C00 32 128 off, tableSlot 0x6000 16 256 off, tableSlot 0x7000 16 256 off with
      | some (c, n), _, _, _ => here c (s.traceWrite c none n v)
      | _, some (i, 0), _, _ => here (i / 4) (s.modCluster (i / 4) fun k =>
          { k with watch := modifyAt k.watch (i % 4) fun x => (BitVec.ofNat 64 (bitsOf v 51 4 * 16), x.2) })
      | _, some (i, 1), _, _ => here (i / 4) (s.modCluster (i / 4) fun k =>
          { k with watch := modifyAt k.watch (i % 4) fun x => (x.1, BitVec.ofNat 64 (v % 2 ^ 26)) })
      | _, _, some (w, n), _ => world w fun x => x.checkerWrite 0 n v
      | _, _, _, some (w, n) => world w fun x => x.checkerWrite 1 n v
      | _, _, _, _ =>
        if p = 0 ∧ 0x640 ≤ off ∧ off < 0x6C0 then
          { s with security := { s.security with
              mailbox := s.security.mailbox.take (off - 0x640) ++ bytesOf 8 v ++ s.security.mailbox.drop (off - 0x640 + 8) } }
        else s.modPart p fun x => x.regWrite off v

/-- A register of a bounce channel; fixed while `EN` is 1 (spec/14 R370). -/
def Bounce.write (b : Bounce) (n v : Nat) : Bounce :=
  if bitOf b.ctl.toNat 63 then b
  else if n = 0 then { b with src := BitVec.ofNat 64 (v / 4096 * 4096) }
  else if n = 1 then { b with dst := BitVec.ofNat 64 (v / 4096 * 4096) }
  else if n = 2 then { b with ctl := BitVec.ofNat 64 (bitsOf v 63 63 * 2 ^ 63 + bitsOf v 12 8 * 256 + v % 32) }
  else b

/-- A register of a doorbell page that stands alone (spec/14 R362, spec/19 R414, R415, spec/12 R327). -/
def World.pageWrite (x : World) (off v : Nat) : World :=
  if off = 0x2408 then { x with havec := BitVec.ofNat 64 (v % 2 ^ 11) }
  else if off = 0x2800 then { x with fhvec := BitVec.ofNat 64 (v / 8 * 8) }
  else if off = 0x2808 then { x with frbase := BitVec.ofNat 64 (v / 4096 * 4096) }
  else if off = 0x2810 then
    { x with frctl := BitVec.ofNat 64 (packFields [(5, v), (3, 0), (13, bitsOf v 20 8), (11, 0), (32, bitsOf v 63 32)]) }
  else if off = 0x2A00 then (if x.cswbusy then x else { x with cswout := BitVec.ofNat 64 v })
  else if off = 0x2A08 then (if x.cswbusy then x else { x with cswin := BitVec.ofNat 64 v })
  else x

/-- A write of a register of a world's doorbell page. -/
def State.pageWrite (s : State) (w off v : Nat) : State :=
  match tableSlot 0x1000 32 64 off, tableSlot 0x2000 64 16 off, tableSlot 0x3000 32 32 off with
  | some (q, 0), _, _ =>
    s.modQueue w q fun x => if x.enabled then x else { x with qbase := BitVec.ofNat 64 (v / 4096 * 4096) }
  | some _, _, _ => s
  | _, some (c, n), _ => s.modChannel w c fun b => b.write n v
  | _, _, some (c, n) => if s.partOfCluster c = partOfWorld w then s.traceWrite c (some w) n v else s
  | none, none, none => s.modWorld w fun x => x.pageWrite off v

/-- REGISTER_WRITE: a doorbell page is written by its world and by the partition's physical function (spec/14 R356, spec/19 R414), a
partition control block by the physical function. -/
def State.registerWrite (s : State) (w : RegWrite) : State :=
  match w.page with
  | some x => if s.boot = 1 ∧ (w.by_ = x ∨ w.by_ = 64 * partOfWorld x) then s.pageWrite x w.off w.v.toNat else s
  | none =>
    match s.writer w with
    | some p => s.blockWrite p w.off w.v.toNat
    | none => s

/-- REGISTER_WRITE. -/
def execRegisterWrite (w : RegWrite) (s : State) : Host.Outcome State Fault Refusal := .next (s.registerWrite w).clearTried

/-! ## What registers read as -/

/-- `PWRLIM` of a partition (spec/01 R20). -/
def State.pwrlim (s : State) (p : Nat) : Nat :=
  let sum := ((rangeFrom 0 s.partitions).map fun q => (s.part q).sharew).sum
  let share := (s.part p).sharew
  packFields [(16, share), (16, if s.devw < sum then share * s.devw / sum else share), (16, s.devw)]

/-- `PWRCTL` (R20). -/
def Partition.pwrctl (x : Partition) : Nat := packFields [(8, 0), (2, x.pscur), (2, 0), (1, boolNat x.psref)]

/-- `PARTCFG` of a partition (R23). -/
def State.partcfg (s : State) (p : Nat) : Nat :=
  packFields [(2, (s.part 0).pnext), (4, 0), (2, p), (2, partCode s.partitions)]

/-- `CKPTSTAT` (spec/13 R352). -/
def Partition.ckptstat (x : Partition) : Nat :=
  packFields [(32, min x.ckpt.left (2 ^ 32 - 1)), (29, x.ckpt.cseq), (3, x.ckpt.phase)]

/-- A tagged write of the partition waits at a home that has no room for its entry (spec/13 R336). -/
def State.tagsWait (s : State) (p : Nat) : Bool :=
  s.gangs.any fun g => !g.frozen && s.partOfCluster g.cluster == p && g.skeins.any fun sk => sk.record.any fun e =>
    e.cls == 1 && e.ops.any fun o => o.stage == .sent && sk.mayGo e o && !(s.makeTagRoom e o).tagsFit e o

/-- `TAGPIN` (spec/22 R456); the context that has held pinned entries longest is that of the oldest pinned entry. -/
def State.tagpin (s : State) (p : Nat) : Nat :=
  let pinned := s.tags.filter fun (t : TagEntry) => t.pinned && bitsOf t.tag.toNat 63 56 / 64 == p
  let first := ((pinned.head?).map fun (t : TagEntry) => t.tag.toNat).getD 0
  packFields [(32, min pinned.length (2 ^ 32 - 1)), (1, boolNat (s.tagsWait p)), (7, 0), (16, bitsOf first 55 40), (8, bitsOf first 63 56)]

/-- The counters of a view of a core (spec/15 R377, R380): bank H, or the sum of a world's views. -/
def State.counterOf (s : State) (core : Nat) (bankH : Bool) (w n : Nat) : Nat :=
  let c := s.core core
  if bankH then ((tget c.h n).getD 0 + if n = 0 ∨ n = 12 then s.quiet core c else 0) % 2 ^ 64
  else ((c.g.filter fun v => s.worldOfCtx v.1 == w).map fun v => (tget v.2 n).getD 0).sum % 2 ^ 64

/-- `CTRVAL0` to `CTRVAL15` (spec/15 R380). -/
def State.ctrval (s : State) (p i : Nat) : Nat :=
  let x := s.part p
  let v := x.ctrsel.toNat
  let core := v % 512
  if !s.polls (clusterOfCore core) || s.partOfCluster (clusterOfCore core) != p then 0
  else s.counterOf core (bitOf v 9) (bitsOf v 17 10) (bitsOf v 25 18 + i)

/-- `TRCCTL` of a party (spec/15 R381, R382). -/
def State.trcctl (s : State) (cluster : Nat) (party : Option Nat) : Nat :=
  let me := partyNumber party
  let owner := (s.cluster cluster).trace.owner
  let x := s.traceRegs cluster me
  let st := if x.state = 2 then 2 else if owner = me then 1 else if owner = 0 then 0 else 3
  packFields [(27, 0), (5, x.smpn), (16, x.kinds), (14, 0), (2, st)]

/-- `DBGSTAT` (spec/14 R375). -/
def State.dbgstat (s : State) : Nat := packFields [(3, s.security.dstate), (5, 0), (3, lifeCycle)]

/-- `BSTAT` of a bounce channel (spec/14 R370). -/
def Bounce.bstat (b : Bounce) : Nat := packFields [(1, boolNat b.mism), (31, 0), (32, b.gen)]

/-- `FRWR` of a world (spec/19 R415). -/
def World.frwr (x : World) : Nat := packFields [(32, x.fridx), (32, x.frlost)]

/-- `CSWCTL` of a world (spec/12 R327). -/
def World.cswctl (x : World) : Nat := packFields [(3, x.cswst), (5, x.cswcl), (54, 0), (1, boolNat x.cswbusy)]

/-- `XINV` of a partition (spec/05 R107). -/
def Partition.xinvReads (x : Partition) : Nat := x.xinv.toNat / 2 * 2 + boolNat x.xinvBusy

/-- A register of a world's tables in the control block, as written (spec/05 R114, spec/11 R307, spec/13 R337, spec/14 R356 to R362, spec/15
R386, R387). -/
def World.blockRead (x : World) (bank n : Nat) : Nat :=
  match bank, n with
  | 1, _ => x.featmsk.toNat
  | 2, _ => x.parkbase.toNat
  | 3, 0 => x.haq.toNat
  | 4, 0 => x.wcfg.toNat
  | 4, 1 => x.wpasid.toNat
  | 5, 0 => x.ordchk.toNat
  | 5, 1 => x.ordlen.toNat
  | 6, 0 => x.rlog.toNat
  | 6, 1 => x.rlcap.toNat
  | _, _ => 0

/-- `TRCSZ` and its neighbours as a party reads them (spec/15 R381). -/
def State.traceRead (s : State) (cluster : Nat) (party : Option Nat) (n : Nat) : Nat :=
  let x := s.traceRegs cluster (partyNumber party)
  if n = 0 then s.trcctl cluster party
  else if n = 1 then x.base.toNat
  else if n = 2 then x.size + x.rd * 2 ^ 32
  else x.wr

/-- The tables of a partition control block, by worlds and clusters of the partition. -/
def State.tableRead (s : State) (p off : Nat) : Nat :=
  let world (w bank n : Nat) : Nat := if partOfWorld w = p then (s.world w).blockRead bank n else 0
  if 0x100 ≤ off ∧ off < 0x500 ∧ off % 4 = 0 then
    (if partOfWorld ((off - 0x100) / 4) = p then (s.world ((off - 0x100) / 4)).banklim.toNat else 0)
  else
    match tableSlot 0x800 8 256 off, tableSlot 0x2000 8 256 off, tableSlot 0x2800 16 256 off, tableSlot 0x3800 16 256 off with
    | some (w, n), _, _, _ => world w 1 n
    | _, some (w, n), _, _ => world w 2 n
    | _, _, some (w, n), _ => world w 3 n
    | _, _, _, some (w, n) => world w 4 n
    | none, none, none, none =>
      match tableSlot 0x4800 32 32 off, tableSlot 0x4C00 32 128 off, tableSlot 0x6000 16 256 off, tableSlot 0x7000 16 256 off with
      | some (c, n), _, _, _ => if s.partOfCluster c = p then s.traceRead c none n else 0
      | _, some (i, n), _, _ =>
        let x := (s.cluster (i / 4)).watch.getD (i % 4) (0, 0)
        if s.partOfCluster (i / 4) = p then (if n = 0 then x.1.toNat else if n = 1 then x.2.toNat else 0) else 0
      | _, _, some (w, n), _ => world w 5 n
      | _, _, _, some (w, n) => world w 6 n
      | _, _, _, _ =>
        if p = 0 ∧ 0x640 ≤ off ∧ off < 0x6C0 ∧ off % 8 = 0 then fieldAt s.security.mailbox (off - 0x640) 8 else 0

/-- A register of a partition control block as the physical function reads it; a virtual function reads all but `XINV` as zero. -/
def State.blockRead (s : State) (by_ off : Nat) : Nat :=
  let p := by_ / 64
  let x := s.part p
  if by_ % 64 ≠ 0 then (if off = 0x60 then x.xinvReads else 0)
  else if off = 0 then s.partcfg p
  else if off = 8 then 0x103FF
  else if off = 0x10 then s.pwrlim p
  else if off = 0x18 then x.pwrctl
  else if off = 0x40 then x.dutycfg.toNat
  else if off = 0x44 then boolNat x.migdis
  else if off = 0x48 then x.fwdlate
  else if off = 0x60 then x.xinvReads
  else if off = 0x80 then x.eiscfg.toNat
  else if off = 0x90 then x.wvhaddr.toNat
  else if off = 0x98 then x.wvhctl.toNat
  else if off = 0xA0 then x.wfreeze
  else if off = 0xA8 then x.ckptcfg.toNat
  else if off = 0xB0 then x.ckptshd.toNat
  else if off = 0xB8 then x.ckpttgt.toNat
  else if off = 0xC0 then x.ckptstat
  else if off = 0xC8 then x.ckptadr.toNat
  else if off = 0xE0 then x.ecc.toNat
  else if off = 0xE8 then x.eccLast.toNat
  else if off = 0xF0 then x.fabtmo.toNat
  else if off = 0xF8 then s.tagpin p
  else if p = 0 ∧ off = 0x600 then Config.dbgId.toNat
  else if p = 0 ∧ off = 0x608 then s.dbgstat
  else if p = 0 ∧ off = 0x610 then s.dbgNonce.toNat
  else if off = 0x8000 then x.ctrsel.toNat
  else if 0x8008 ≤ off ∧ off ≤ 0x8080 ∧ off % 8 = 0 then s.ctrval p ((off - 0x8008) / 8)
  else s.tableRead p off

end Sys2Proof.Machine
end

