-- ==== Sys2Proof/Machine/Dispatch.lean ====
section
/-! DEFINITION. The dispatcher: one arm for each constructor of `Instr`. -/

namespace Sys2Proof.Machine

/-- What a step of the machine does: the batch at issue carries out an instruction word, or an agent around the cores
moves. -/
def exec (i : Instr) (s : State) : Host.Outcome State Fault Refusal :=
  match i with
  | .iadd ty f => Sys2Proof.Machine.execIadd ty f s
  | .iaddImm ty f => Sys2Proof.Machine.execIaddImm ty f s
  | .isub ty f => Sys2Proof.Machine.execIsub ty f s
  | .isubImm ty f => Sys2Proof.Machine.execIsubImm ty f s
  | .imul ty f => Sys2Proof.Machine.execImul ty f s
  | .imulImm ty f => Sys2Proof.Machine.execImulImm ty f s
  | .imulh ty f => Sys2Proof.Machine.execImulh ty f s
  | .imulhImm ty f => Sys2Proof.Machine.execImulhImm ty f s
  | .imad ty f => Sys2Proof.Machine.execImad ty f s
  | .imadImm ty f => Sys2Proof.Machine.execImadImm ty f s
  | .imadw ty f => Sys2Proof.Machine.execImadw ty f s
  | .idiv ty f => Sys2Proof.Machine.execIdiv ty f s
  | .idivImm ty f => Sys2Proof.Machine.execIdivImm ty f s
  | .irem ty f => Sys2Proof.Machine.execIrem ty f s
  | .iremImm ty f => Sys2Proof.Machine.execIremImm ty f s
  | .imin ty f => Sys2Proof.Machine.execImin ty f s
  | .iminImm ty f => Sys2Proof.Machine.execIminImm ty f s
  | .imax ty f => Sys2Proof.Machine.execImax ty f s
  | .imaxImm ty f => Sys2Proof.Machine.execImaxImm ty f s
  | .lea ty f => Sys2Proof.Machine.execLea ty f s
  | .leaImm ty f => Sys2Proof.Machine.execLeaImm ty f s
  | .icmp ty f => Sys2Proof.Machine.execIcmp ty f s
  | .icmpImm ty f => Sys2Proof.Machine.execIcmpImm ty f s
  | .and ty f => Sys2Proof.Machine.execAnd ty f s
  | .andImm ty f => Sys2Proof.Machine.execAndImm ty f s
  | .or ty f => Sys2Proof.Machine.execOr ty f s
  | .orImm ty f => Sys2Proof.Machine.execOrImm ty f s
  | .xor ty f => Sys2Proof.Machine.execXor ty f s
  | .xorImm ty f => Sys2Proof.Machine.execXorImm ty f s
  | .andn ty f => Sys2Proof.Machine.execAndn ty f s
  | .andnImm ty f => Sys2Proof.Machine.execAndnImm ty f s
  | .orn ty f => Sys2Proof.Machine.execOrn ty f s
  | .ornImm ty f => Sys2Proof.Machine.execOrnImm ty f s
  | .shl ty f => Sys2Proof.Machine.execShl ty f s
  | .shlImm ty f => Sys2Proof.Machine.execShlImm ty f s
  | .shr ty f => Sys2Proof.Machine.execShr ty f s
  | .shrImm ty f => Sys2Proof.Machine.execShrImm ty f s
  | .sar ty f => Sys2Proof.Machine.execSar ty f s
  | .sarImm ty f => Sys2Proof.Machine.execSarImm ty f s
  | .rotl ty f => Sys2Proof.Machine.execRotl ty f s
  | .rotlImm ty f => Sys2Proof.Machine.execRotlImm ty f s
  | .fshl ty f => Sys2Proof.Machine.execFshl ty f s
  | .bfx ty f => Sys2Proof.Machine.execBfx ty f s
  | .bfxImm ty f => Sys2Proof.Machine.execBfxImm ty f s
  | .bfi ty f => Sys2Proof.Machine.execBfi ty f s
  | .bfiImm ty f => Sys2Proof.Machine.execBfiImm ty f s
  | .popc ty f => Sys2Proof.Machine.execPopc ty f s
  | .clz ty f => Sys2Proof.Machine.execClz ty f s
  | .ctz ty f => Sys2Proof.Machine.execCtz ty f s
  | .brev ty f => Sys2Proof.Machine.execBrev ty f s
  | .bperm ty f => Sys2Proof.Machine.execBperm ty f s
  | .bpermImm ty f => Sys2Proof.Machine.execBpermImm ty f s
  | .mov ty f => Sys2Proof.Machine.execMov ty f s
  | .movImm ty f => Sys2Proof.Machine.execMovImm ty f s
  | .movh ty f => Sys2Proof.Machine.execMovh ty f s
  | .sel3 ty f => Sys2Proof.Machine.execSel3 ty f s
  | .fadd ty f => Sys2Proof.Machine.execFadd ty f s
  | .faddImm ty f => Sys2Proof.Machine.execFaddImm ty f s
  | .fmul ty f => Sys2Proof.Machine.execFmul ty f s
  | .fmulImm ty f => Sys2Proof.Machine.execFmulImm ty f s
  | .ffma ty f => Sys2Proof.Machine.execFfma ty f s
  | .ffmaImm ty f => Sys2Proof.Machine.execFfmaImm ty f s
  | .fmin ty f => Sys2Proof.Machine.execFmin ty f s
  | .fminImm ty f => Sys2Proof.Machine.execFminImm ty f s
  | .fmax ty f => Sys2Proof.Machine.execFmax ty f s
  | .fmaxImm ty f => Sys2Proof.Machine.execFmaxImm ty f s
  | .fdiv ty f => Sys2Proof.Machine.execFdiv ty f s
  | .fdivImm ty f => Sys2Proof.Machine.execFdivImm ty f s
  | .fsqrt ty f => Sys2Proof.Machine.execFsqrt ty f s
  | .frcp ty f => Sys2Proof.Machine.execFrcp ty f s
  | .frsq ty f => Sys2Proof.Machine.execFrsq ty f s
  | .fex2 ty f => Sys2Proof.Machine.execFex2 ty f s
  | .flg2 ty f => Sys2Proof.Machine.execFlg2 ty f s
  | .fsinp ty f => Sys2Proof.Machine.execFsinp ty f s
  | .fcosp ty f => Sys2Proof.Machine.execFcosp ty f s
  | .frnd ty f => Sys2Proof.Machine.execFrnd ty f s
  | .fscale ty f => Sys2Proof.Machine.execFscale ty f s
  | .fscaleImm ty f => Sys2Proof.Machine.execFscaleImm ty f s
  | .fclass ty f => Sys2Proof.Machine.execFclass ty f s
  | .fmant ty f => Sys2Proof.Machine.execFmant ty f s
  | .fexpo ty f => Sys2Proof.Machine.execFexpo ty f s
  | .fcmp ty f => Sys2Proof.Machine.execFcmp ty f s
  | .fcmpImm ty f => Sys2Proof.Machine.execFcmpImm ty f s
  | .cvt f => Sys2Proof.Machine.execCvt f s
  | .cvtb f => Sys2Proof.Machine.execCvtb f s
  | .pack2 ty f => Sys2Proof.Machine.execPack2 ty f s
  | .unpk ty f => Sys2Proof.Machine.execUnpk ty f s
  | .ivmk ty f => Sys2Proof.Machine.execIvmk ty f s
  | .ivmid ty f => Sys2Proof.Machine.execIvmid ty f s
  | .ivwid ty f => Sys2Proof.Machine.execIvwid ty f s
  | .ivhull ty f => Sys2Proof.Machine.execIvhull ty f s
  | .ivisect ty f => Sys2Proof.Machine.execIvisect ty f s
  | .ivsplit ty f => Sys2Proof.Machine.execIvsplit ty f s
  | .ivmag ty f => Sys2Proof.Machine.execIvmag ty f s
  | .ivmig ty f => Sys2Proof.Machine.execIvmig ty f s
  | .ld f => Sys2Proof.Machine.execLd f s
  | .st f => Sys2Proof.Machine.execSt f s
  | .ldiv f => Sys2Proof.Machine.execLdiv f s
  | .stiv f => Sys2Proof.Machine.execStiv f s
  | .atom f => Sys2Proof.Machine.execAtom f s
  | .atomc f => Sys2Proof.Machine.execAtomc f s
  | .red f => Sys2Proof.Machine.execRed f s
  | .cachePref f => Sys2Proof.Machine.execCachePref f s
  | .cacheCinv f => Sys2Proof.Machine.execCacheCinv f s
  | .cacheCwb f => Sys2Proof.Machine.execCacheCwb f s
  | .bra f => Sys2Proof.Machine.execBra f s
  | .brx f => Sys2Proof.Machine.execBrx f s
  | .brdec f => Sys2Proof.Machine.execBrdec f s
  | .call f => Sys2Proof.Machine.execCall f s
  | .callx f => Sys2Proof.Machine.execCallx f s
  | .ret f => Sys2Proof.Machine.execRet f s
  | .rmark f => Sys2Proof.Machine.execRmark f s
  | .rjoin f => Sys2Proof.Machine.execRjoin f s
  | .fnew f => Sys2Proof.Machine.execFnew f s
  | .fend f => Sys2Proof.Machine.execFend f s
  | .exit f => Sys2Proof.Machine.execExit f s
  | .ivfork f => Sys2Proof.Machine.execIvfork f s
  | .migrate f => Sys2Proof.Machine.execMigrate f s
  | .bar f => Sys2Proof.Machine.execBar f s
  | .bara f => Sys2Proof.Machine.execBara f s
  | .barw f => Sys2Proof.Machine.execBarw f s
  | .sbar f => Sys2Proof.Machine.execSbar f s
  | .mma f => Sys2Proof.Machine.execMma f s
  | .ldstat f => Sys2Proof.Machine.execLdstat f s
  | .statrel f => Sys2Proof.Machine.execStatrel f s
  | .tzero f => Sys2Proof.Machine.execTzero f s
  | .tcvt f => Sys2Proof.Machine.execTcvt f s
  | .tget f => Sys2Proof.Machine.execTget f s
  | .tstr f => Sys2Proof.Machine.execTstr f s
  | .copy f => Sys2Proof.Machine.execCopy f s
  | .copym f => Sys2Proof.Machine.execCopym f s
  | .copyl f => Sys2Proof.Machine.execCopyl f s
  | .cfill f => Sys2Proof.Machine.execCfill f s
  | .evpost f => Sys2Proof.Machine.execEvpost f s
  | .evpop f => Sys2Proof.Machine.execEvpop f s
  | .launch f => Sys2Proof.Machine.execLaunch f s
  | .nop f => Sys2Proof.Machine.execNop f s
  | .pand f => Sys2Proof.Machine.execPand f s
  | .por f => Sys2Proof.Machine.execPor f s
  | .pnot f => Sys2Proof.Machine.execPnot f s
  | .pxor f => Sys2Proof.Machine.execPxor f s
  | .pres f => Sys2Proof.Machine.execPres f s
  | .pmov f => Sys2Proof.Machine.execPmov f s
  | .shfl f => Sys2Proof.Machine.execShfl f s
  | .ballot f => Sys2Proof.Machine.execBallot f s
  | .vote f => Sys2Proof.Machine.execVote f s
  | .rdx f => Sys2Proof.Machine.execRdx f s
  | .scan f => Sys2Proof.Machine.execScan f s
  | .elect f => Sys2Proof.Machine.execElect f s
  | .fence f => Sys2Proof.Machine.execFence f s
  | .mwait f => Sys2Proof.Machine.execMwait f s
  | .mtest f => Sys2Proof.Machine.execMtest f s
  | .rwrite f => Sys2Proof.Machine.execRwrite f s
  | .arrwait f => Sys2Proof.Machine.execArrwait f s
  | .qpush f => Sys2Proof.Machine.execQpush f s
  | .qpop f => Sys2Proof.Machine.execQpop f s
  | .rdctr f => Sys2Proof.Machine.execRdctr f s
  | .bankcfg f => Sys2Proof.Machine.execBankcfg f s
  | .gets f => Sys2Proof.Machine.execGets f s
  | .sets f => Sys2Proof.Machine.execSets f s
  | .trap f => Sys2Proof.Machine.execTrap f s
  | .eret f => Sys2Proof.Machine.execEret f s
  | .bkpt f => Sys2Proof.Machine.execBkpt f s
  | .emret f => Sys2Proof.Machine.execEmret f s
  | .yield f => Sys2Proof.Machine.execYield f s
  | .step f => Sys2Proof.Machine.execStep f s
  | .ckpt f => Sys2Proof.Machine.execCkpt f s
  | .wvload f => Sys2Proof.Machine.execWvload f s
  | .wvbind f => Sys2Proof.Machine.execWvbind f s
  | .swapctx f => Sys2Proof.Machine.execSwapctx f s
  | .waitc f => Sys2Proof.Machine.execWaitc f s
  | .guestDecode => Sys2Proof.Machine.execGuestDecode s
  | .notAnInstruction w => Sys2Proof.Machine.execNotAnInstruction w s
  | .instructionFetchFault code addr => Sys2Proof.Machine.execInstructionFetchFault code addr s
  | .packetUnknownType world queue => Sys2Proof.Machine.execPacketUnknownType world queue s
  | .ldstatFillDone c => Sys2Proof.Machine.execLdstatFillDone c s
  | .multiClockResultWritten gang skein slot => Sys2Proof.Machine.execMultiClockResultWritten gang skein slot s
  | .loadComplete e slots => Sys2Proof.Machine.execLoadComplete e slots s
  | .storePerformed e slots => Sys2Proof.Machine.execStorePerformed e slots s
  | .portAccept e => Sys2Proof.Machine.execPortAccept e s
  | .writeAck e => Sys2Proof.Machine.execWriteAck e s
  | .tagRetire tag => Sys2Proof.Machine.execTagRetire tag s
  | .tileOpStart c => Sys2Proof.Machine.execTileOpStart c s
  | .tilePanelUnit c => Sys2Proof.Machine.execTilePanelUnit c s
  | .copyCommandStart cluster => Sys2Proof.Machine.execCopyCommandStart cluster s
  | .copyBurst cluster channel => Sys2Proof.Machine.execCopyBurst cluster channel s
  | .rwriteArrival e => Sys2Proof.Machine.execRwriteArrival e s
  | .sbarArrival e => Sys2Proof.Machine.execSbarArrival e s
  | .monitorWake e slot => Sys2Proof.Machine.execMonitorWake e slot s
  | .monitorReread e slot => Sys2Proof.Machine.execMonitorReread e slot s
  | .migrationMove gang => Sys2Proof.Machine.execMigrationMove gang s
  | .queueDoorbell world queue v => Sys2Proof.Machine.execQueueDoorbell world queue v s
  | .qctlWrite world queue v => Sys2Proof.Machine.execQctlWrite world queue v s
  | .packetNop world queue => Sys2Proof.Machine.execPacketNop world queue s
  | .packetLaunch world queue => Sys2Proof.Machine.execPacketLaunch world queue s
  | .packetCopy world queue => Sys2Proof.Machine.execPacketCopy world queue s
  | .packetFence world queue => Sys2Proof.Machine.execPacketFence world queue s
  | .packetSignal world queue => Sys2Proof.Machine.execPacketSignal world queue s
  | .packetEvent world queue => Sys2Proof.Machine.execPacketEvent world queue s
  | .packetHandle world queue => Sys2Proof.Machine.execPacketHandle world queue s
  | .fenceCounterWake world queue => Sys2Proof.Machine.execFenceCounterWake world queue s
  | .gridComplete grid => Sys2Proof.Machine.execGridComplete grid s
  | .spanPlacement grid span cluster cores => Sys2Proof.Machine.execSpanPlacement grid span cluster cores s
  | .spawnRefill gang => Sys2Proof.Machine.execSpawnRefill gang s
  | .skeinMoveIn c => Sys2Proof.Machine.execSkeinMoveIn c s
  | .forcedRotation c => Sys2Proof.Machine.execForcedRotation c s
  | .compaction c => Sys2Proof.Machine.execCompaction c s
  | .relocation grid span cluster => Sys2Proof.Machine.execRelocation grid span cluster s
  | .forwardExpiry cluster => Sys2Proof.Machine.execForwardExpiry cluster s
  | .heldPostEnter cluster world => Sys2Proof.Machine.execHeldPostEnter cluster world s
  | .switchRequestServe cluster => Sys2Proof.Machine.execSwitchRequestServe cluster s
  | .cswctlGo world v => Sys2Proof.Machine.execCswctlGo world v s
  | .freezePoint ctx => Sys2Proof.Machine.execFreezePoint ctx s
  | .wfreezeGo w => Sys2Proof.Machine.execWfreezeGo w s
  | .wfreezeResume w => Sys2Proof.Machine.execWfreezeResume w s
  | .parkedCompletion c => Sys2Proof.Machine.execParkedCompletion c s
  | .checkpointTimer partition => Sys2Proof.Machine.execCheckpointTimer partition s
  | .checkpointCut partition => Sys2Proof.Machine.execCheckpointCut partition s
  | .shadowCopy partition frame => Sys2Proof.Machine.execShadowCopy partition frame s
  | .drainFrame partition failure => Sys2Proof.Machine.execDrainFrame partition failure s
  | .ckptcfgWrite w => Sys2Proof.Machine.execCkptcfgWrite w s
  | .ckptack w => Sys2Proof.Machine.execCkptack w s
  | .atsTranslationCompletion world page frame rd wr => Sys2Proof.Machine.execAtsTranslationCompletion world page frame rd wr s
  | .pageRequestResponse world page ok => Sys2Proof.Machine.execPageRequestResponse world page ok s
  | .atsInvalidation world first last => Sys2Proof.Machine.execAtsInvalidation world first last s
  | .atomicopCompletion c => Sys2Proof.Machine.execAtomicopCompletion c s
  | .hostAtomicDone world v => Sys2Proof.Machine.execHostAtomicDone world v s
  | .completerError e slot => Sys2Proof.Machine.execCompleterError e slot s
  | .requestTimeout e slot => Sys2Proof.Machine.execRequestTimeout e slot s
  | .peerUnreachable partition peer => Sys2Proof.Machine.execPeerUnreachable partition peer s
  | .pcieLinkDown port => Sys2Proof.Machine.execPcieLinkDown port s
  | .incomingPortRequest r => Sys2Proof.Machine.execIncomingPortRequest r s
  | .linkSessionRekey port => Sys2Proof.Machine.execLinkSessionRekey port s
  | .bounceDoorbell world channel v => Sys2Proof.Machine.execBounceDoorbell world channel v s
  | .bounceResync world channel v => Sys2Proof.Machine.execBounceResync world channel v s
  | .bounceSlotLand world channel => Sys2Proof.Machine.execBounceSlotLand world channel s
  | .xinvGo w => Sys2Proof.Machine.execXinvGo w s
  | .xinvComplete partition => Sys2Proof.Machine.execXinvComplete partition s
  | .wvhctlGo w => Sys2Proof.Machine.execWvhctlGo w s
  | .eiscfgWrite w => Sys2Proof.Machine.execEiscfgWrite w s
  | .dutycfgWrite w => Sys2Proof.Machine.execDutycfgWrite w s
  | .pwrlimWrite w => Sys2Proof.Machine.execPwrlimWrite w s
  | .ps2Request w => Sys2Proof.Machine.execPs2Request w s
  | .ps0Request w => Sys2Proof.Machine.execPs0Request w s
  | .ps2Exit partition => Sys2Proof.Machine.execPs2Exit partition s
  | .ps1Entry cluster => Sys2Proof.Machine.execPs1Entry cluster s
  | .partcfgWrite w => Sys2Proof.Machine.execPartcfgWrite w s
  | .ecccntClear w => Sys2Proof.Machine.execEcccntClear w s
  | .ctrselWrite w => Sys2Proof.Machine.execCtrselWrite w s
  | .traceClaim cluster party => Sys2Proof.Machine.execTraceClaim cluster party s
  | .traceRelease cluster party => Sys2Proof.Machine.execTraceRelease cluster party s
  | .traceSample c leaf => Sys2Proof.Machine.execTraceSample c leaf s
  | .dbggo w => Sys2Proof.Machine.execDbggo w s
  | .debugScrubDone => Sys2Proof.Machine.execDebugScrubDone s
  | .tdispMessage world m => Sys2Proof.Machine.execTdispMessage world m s
  | .modelKeyDelivery world key => Sys2Proof.Machine.execModelKeyDelivery world key s
  | .spdmRequest world index => Sys2Proof.Machine.execSpdmRequest world index s
  | .clockRelock die kind mhz => Sys2Proof.Machine.execClockRelock die kind mhz s
  | .coldReset => Sys2Proof.Machine.execColdReset s
  | .warmReset scrub => Sys2Proof.Machine.execWarmReset scrub s
  | .partitionReset partition => Sys2Proof.Machine.execPartitionReset partition s
  | .functionLevelReset world => Sys2Proof.Machine.execFunctionLevelReset world s
  | .pcieHotReset port => Sys2Proof.Machine.execPcieHotReset port s
  | .pcieD3cold => Sys2Proof.Machine.execPcieD3cold s
  | .bootComplete firmwareOk => Sys2Proof.Machine.execBootComplete firmwareOk s
  | .registerWrite w => Sys2Proof.Machine.execRegisterWrite w s
  | .linkRetrained port => Sys2Proof.Machine.execLinkRetrained port s
  | .portDown port => Sys2Proof.Machine.execPortDown port s

end Sys2Proof.Machine
end

