-- ==== Sys2Proof/Machine/Policy.lean ====
section
/-! DEFINITION. Which agent moves next when the agenda names none (notes/assumptions/1, 14): a skein that can issue, oldest first, else a
step around the cores that is due; and what passes with each step, time and issue slots. -/

namespace Sys2Proof.Machine

/-- The skein is one that its core may issue from (spec/12 R320, R322, spec/13 R339, R348). -/
def State.mayIssue (s : State) (g : Gang) (sk : Skein) : Bool :=
  let c := (s.part (s.partOfCluster g.cluster)).ckpt
  !g.frozen && !g.ended && sk.active && !sk.replaying && c.phase != 1 && c.heldContexts.isEmpty
    && (g.kind == .handle || (sk.readyFrom ≤ (s.core g.coreNo).clocks && !s.compacting g sk))

/-- Among two skeins with ready batches the core takes the first: the greater ready age, ties to the lower residency (R320). -/
def Skein.firstOf (a b : Skein) : Bool := b.age < a.age || (b.age == a.age && a.residency ≤ b.residency)

/-- The core takes the skein k of the gang: no other that may issue and has a ready batch comes before it (R320).  Handle threads keep
no active set. -/
def State.takes (s : State) (g : Gang) (k : Nat) (sk : Skein) : Bool :=
  g.kind == .handle || s.gangs.all fun h =>
    h.kind == .handle || h.coreNo != g.coreNo || h.skeins.zipIdx.all fun p =>
      (h.key == g.key && p.2 == k) || !s.mayIssue h p.1 || !s.hasBatch h p.1 || sk.firstOf p.1

/-- The skein's next batch may go on: it waited as issued, or the core takes the skein. -/
def State.mayGo (s : State) (g : Gang) (k : Nat) (sk : Skein) : Bool := !sk.resumables.isEmpty || s.takes g k sk

/-- The skeins of a gang that have a batch to go on with. -/
def State.issuers (s : State) (g : Gang) : List (Nat × Nat) :=
  (g.skeins.zipIdx.filter fun p => s.mayIssue g p.1 && !(s.nextBatch g p.1).isEmpty && s.mayGo g p.2 p.1).map fun p => (g.key, p.2)

/-- The issue that comes next when the agenda names nothing. -/
def State.defaultIssue (s : State) : Option Action :=
  ((s.gangs.flatMap s.issuers).head?).map fun p => .issue p.1 p.2

/-- The ready age of a skein that issues is 0 (spec/12 R320); one whose batch goes on after a wait issues nothing. -/
def State.aged (s : State) (g : Gang) (k : Nat) : State :=
  s.modSkein g.key k fun sk => if sk.resumables.isEmpty then { sk with age := 0 } else sk

/-- Ready ages after a step: they grow by the clocks that pass while the skein has a ready batch (spec/12 R320). -/
def State.grown (s : State) : List Gang :=
  s.gangs.map fun g =>
    if g.kind == .handle || g.ended || g.frozen then g
    else
      { g with skeins := g.skeins.map fun sk =>
          { sk with age := if s.hasBatch g sk then sk.age + Config.coreClocks s.ticks g.coreNo else 0 } }

/-- What the skein's next batch issues: the instruction to carry out, and the state with the batch at issue. -/
def State.issueNext (s : State) (gk k : Nat) : Option (Instr × State) :=
  match s.gang gk with
  | none => none
  | some g =>
    match g.skeins[k]? with
    | none => none
    | some sk =>
      if !s.mayIssue g sk || !s.mayGo g k sk then none
      else
        match s.nextBatch g sk with
        | [] => none
        | t :: r =>
          match sk.fibre t with
          | none => none
          | some x =>
            let put (s : State) : State := { s.aged g k with issue := some ⟨gk, k, t :: r⟩ }
            match s.fetched g x with
            | .instr i s' => some (i, put s')
            | .bad w s' => some (.notAnInstruction w, put s')
            | .fault c a s' => some (.instructionFetchFault c a, put s')
            | .guest => some (.guestDecode, put s)
            | .wait _ => none

/-- The cores as time passes, with the placements that wait on them for a run. -/
def State.waiting (s : State) : Tbl Core := s.idled.map fun q => (q.1, { q.2 with wanting := s.wantingOn q.1 q.2 })

/-- Time passes, ready ages grow, slots without an issue are charged, and the agenda moves on (notes/assumptions/1, 3, 97). -/
def State.tick (s : State) : State :=
  { s with ticks := s.ticks + 1, clock := s.clock + Config.clockDelta s.ticks, agenda := s.agenda.drop 1, cores := s.waiting, gangs := s.grown }

/-- The host or a peer writes to its own memory; every cluster sees it. -/
def State.outsideWrite (s : State) (a : Nat) (bs : List Byte) : State := s.putNow .host a bs

def State.peerWriteAt (s : State) (id a : Nat) (bs : List Byte) : State := s.putNow (.peer id) a bs

/-- The routing table's entry of an id, and a partition's `NumVFs` (spec/14 R355, R365). -/
def State.setRoute (s : State) (id : Nat) (ports : List Nat) : State :=
  s.modPart 0 fun x => { x with routing := tset x.routing id ports }

def State.setNumVfs (s : State) (p n : Nat) : State := s.modPart p fun x => { x with numvfs := min 63 n }

/-! ## Events that are due (notes/assumptions/14) -/

/-- The steps that an entry's operations may be due for. -/
def dueOf (id : EntryId) (e : Entry) : List Instr :=
  let slots := BitVec.ofNat 64 ((e.ops.filter fun o => !o.complete).foldl (fun m o => m + 2 ^ o.slot) 0)
  [.loadComplete id slots, .portAccept id, .storePerformed id slots, .writeAck id, .rwriteArrival id, .sbarArrival id]
    ++ (if e.kind = 0x0B then e.ops.map fun o => .monitorReread id o.slot else [])

/-- The steps that a gang may be due for. -/
def dueGang (g : Gang) : List Instr :=
  (g.skeins.zipIdx.flatMap fun p =>
    (p.1.live.filter fun q => !q.2.late.isEmpty).map (fun q => Instr.multiClockResultWritten g.key p.2 q.1)
      ++ p.1.record.flatMap fun e => dueOf ⟨g.key, p.2, e.seq⟩ e) ++ [.migrationMove g.key, .spawnRefill g.key]

/-- A core's. -/
def dueCore (cluster core : Nat) : List Instr :=
  [.ldstatFillDone ⟨cluster, core⟩, .tilePanelUnit ⟨cluster, core⟩, .tileOpStart ⟨cluster, core⟩, .skeinMoveIn ⟨cluster, core⟩,
    .forcedRotation ⟨cluster, core⟩, .compaction ⟨cluster, core⟩]

/-- A cluster's: cores, copy engine, held posts, the parser, switch requests. -/
def State.dueCluster (s : State) (c : Nat) : List Instr :=
  ((rangeFrom 0 16).flatMap (dueCore c)) ++ (rangeFrom 0 16).map (fun n => .copyBurst c n) ++ [.copyCommandStart c]
    ++ (match s.served c with
      | some (w, q) =>
        [.packetNop w q, .packetLaunch w q, .packetCopy w q, .packetFence w q, .packetSignal w q, .packetEvent w q, .packetHandle w q,
          .packetUnknownType w q]
      | none => [])
    ++ (s.cluster c).held.map (fun e => .heldPostEnter c e.world) ++ [.switchRequestServe c]

/-- A grid's: its next span in the first cluster that has room, on the lowest cores, and its completion. -/
def State.dueGrid (s : State) (g : Grid) : List Instr :=
  let span := ((rangeFrom 0 g.desc.spans).find? fun n => !g.placed.contains n).getD 0
  ((s.clustersOf (partOfWorld g.world)).map fun c =>
    .spanPlacement g.key span c (((coresOf g.desc.kind).filter (s.coreFits c g.desc)).take g.desc.spang)) ++ [.gridComplete g.key]

/-- Every step that may be due, fences and bounce channels among them. -/
def State.due (s : State) : List Instr :=
  s.gangs.flatMap dueGang ++ ((s.clusters.map (·.1)).flatMap s.dueCluster) ++ s.grids.flatMap s.dueGrid
    ++ s.worlds.flatMap fun p =>
      (p.2.queues.filter fun q => q.2.fence.isSome).map (fun q => .fenceCounterWake p.1 q.1)
        ++ p.2.bounce.map fun b => .bounceSlotLand p.1 b.1

/-! ## A program put in place (notes/assumptions/2) -/

/-- Where `withFetchWord` puts the word. -/
def bootPc : Nat := 0x10000

/-- The word is one that handle cores alone carry out (spec/20 R429). -/
def handleOnly (w : Nat) : Bool :=
  match decode (BitVec.ofNat 64 w) with
  | .ok i => (needOf i).kinds == 4
  | .error _ => false

/-- A gang of one fibre that stands at `bootPc`. -/
def bootGang (key : Nat) (handle : Bool) : Gang :=
  { Gang.fresh key (if handle then .handle else .rand) 0 (if handle then 1 else 0) key 0 64 with
    skeins := [Skein.fresh (if handle then 1 else 32) 0 0 true [Fibre.fresh (key + 1) 64 (BitVec.ofNat 64 bootPc) 0 0 0]] }

/-- A context of world 0 whose first page is held as a translation for reading, writing and fetching. -/
def bootContext (key : Nat) : Context :=
  { key := key, ctxid := 1, world := 0, xroot := 0, featvec := 0x103FF, area := 0, frames := [], seqBase := 0, st := .running,
    saved := [], slots := [], image := [], late := 0, lates := [] }

/-- The word at `bootPc`, its page, and one fibre whose issue is the next step. -/
def State.placeWord (s : State) (w : Nat) : State :=
  let key := s.nextKey
  { s with
    nextKey := key + 2
    mem := s.mem.writeBytes bootPc (bytesOf 8 w)
    owners := tset s.owners (bootPc / 128) ⟨0, s.keyOf 0⟩
    clusters := s.clusters.map fun p => if p.1 = 0 then (p.1, { p.2 with cache := lessLine p.2.cache (bootPc / 128) 0 }) else p
    ctxs := bootContext key :: s.ctxs
    tlb := ⟨0, key, 0, 1, 0, 0x17D, 0, 0⟩ :: s.tlb
    gangs := bootGang key (handleOnly w) :: s.gangs
    agenda := [.issue key 0] }

end Sys2Proof.Machine
end

