-- ==== Sys2Proof/Machine/Drive.lean ====
section
/-! DEFINITION. Which agent moves next, and what its move is. -/

namespace Sys2Proof.Machine

/-- The step does something here. -/
def State.useful (s : State) (i : Instr) : Bool :=
  match exec i s with
  | .next t => t != s && t != s.clearTried
  | _ => false

/-- The agent that moves: as the agenda names it; else a skein that can issue; else a step around the cores that is due and does
something (notes/assumptions/14). -/
def State.nextAction (s : State) : Option Action :=
  match s.agenda with
  | a :: _ => some a
  | [] =>
    match s.defaultIssue with
    | some a => some a
    | none => (s.due.find? s.useful).map .event

/-- The step is one of the gangs' own operations, which the order checker follows by itself (notes/assumptions/39). -/
def ofGangs : Instr → Bool
  | .loadComplete _ _ | .storePerformed _ _ | .portAccept _ | .writeAck _ | .rwriteArrival _ | .sbarArrival _ | .monitorWake _ _
  | .monitorReread _ _ | .multiClockResultWritten _ _ _ | .copyCommandStart _ | .copyBurst _ _ | .heldPostEnter _ _
  | .spanPlacement _ _ _ _ | .skeinMoveIn _ | .forcedRotation _ | .migrationMove _ | .spawnRefill _ | .tilePanelUnit _
  | .tileOpStart _ | .ldstatFillDone _ | .tagRetire _ => true
  | _ => false

/-- The action carried out: a step around the cores as it is named, the next batch of a skein, an outside write, a line's way
out of a cache, a part of an operation or of a layout record, what a cluster comes to see, a burst's landing at one receiver, or a configuration write that spec/
gives no place. -/
def runAction (a : Action) (s : State) : Host.Outcome State Fault Refusal :=
  match a with
  | .event i => exec i (if ofGangs i then s else s.ordOutside)
  | .issue g k =>
    match s.issueNext g k with
    | some (i, s') => exec i s'
    | none => .next s
  | .hostWrite a bs => .next (s.ordOutside.outsideWrite a bs)
  | .peerWrite d a bs => .next (s.ordOutside.peerWriteAt d a bs)
  | .clean c l w => .next (s.cleanOne c l w).clearTried
  | .cleanPrivate n l w => .next (s.cleanPrivate n l w).clearTried
  | .dropCode c n l w => .next (s.dropCode c n l w)
  | .piece e t i => .next (s.performPart e t i).clearTried
  | .near e t => .next (s.performNear e t).clearTried
  | .see i c => .next (s.seeFar i c)
  | .unit c => .next (s.recordUnit c).clearTried
  | .land c n g => .next (s.landOne c n g).clearTried
  | .route id ports => .next (s.setRoute id ports)
  | .numVfs p n => .next (if s.retries p then s.retryStatus p else s.setNumVfs p n)

end Sys2Proof.Machine
end

