-- ==== Sys2Proof/Machine/Step.lean ====
section
/-! DEFINITION. One step of the machine: the agent whose turn it is moves. -/

namespace Sys2Proof.Machine

/-- One step: time passes, and the agent whose turn it is moves; with nothing to do only time passes. -/
def step (s : State) : Host.Outcome State Fault Refusal :=
  match s.nextAction with
  | some a => runAction a s.tick
  | none => .next s.tick

/-- s with the word put where the next step fetches it (notes/assumptions/2). -/
def State.withFetchWord (s : State) (_nbits w : Nat) : State := s.placeWord w

end Sys2Proof.Machine
end

