-- ==== Sys2Proof/Safety.lean ====
section
/-! DEFINITION. What counts as a safe step and a safe run. -/

namespace Sys2Proof.Machine

/-- The step from s answers a next state. -/
def StepsTo (s t : State) : Prop := step s = .next t

/-- The machine goes on from s: its next step is neither a fault nor a refusal. -/
def GoesOn (s : State) : Prop := ∃ t, step s = .next t

/-- An invariant that every step keeps. -/
def Kept (inv : State → Prop) : Prop := ∀ s t, inv s → step s = .next t → inv t

/-- The states that runs from s reach. -/
inductive Reaches (s : State) : State → Prop where
  | here : Reaches s s
  | step {t u : State} : Reaches s t → step t = .next u → Reaches s u

/-! ## When an instruction issues -/

/-- The fibres of a batch whose guard passes (spec/06 R145). -/
def Batch.passing (b : Batch) (i : Instr) : List (Nat × Fibre) := b.all.filter fun p => (needOf i).h.g.passes p.2.pw

/-- The batch with the fibres that carry the instruction out. -/
def Batch.taking (b : Batch) (i : Instr) : Batch := { b with run := b.passing i }

/-- The state as an instruction's effect finds it. -/
def State.atIssue (s : State) : State := { s with issue := none }

/-- Batch b, with the ready fibres of its skein beside it, is at issue; the word is an instruction for it (stage 1 of spec/20 R426);
no fibre consumes a failed operation (spec/19 R424) or reads an uncorrectable register (spec/19 R423). -/
structure Ready (s : State) (i : Instr) (b : Batch) (ready : List Nat) : Prop where
  batch : s.batch = some (b, ready)
  legal : s.stage1All b (needOf i) = none
  settled : ∀ p ∈ b.passing i, b.sk.consumes i p.2 = []
  sound : ∀ p ∈ b.passing i, poisonedSource (needOf i) (b.low p.2) p.2 = none

/-- Every passing fibre is carried out as f says, on to its next instruction. -/
def Batch.eachNext (b : Batch) (i : Instr) (f : Nat → Fibre → Fibre) : List (Nat × Out) :=
  (b.passing i).map fun p => (p.1, .next (f p.1 p.2))

/-- Every passing fibre has an outcome of its own. -/
def Batch.eachOut (b : Batch) (i : Instr) (f : Nat → Fibre → Out) : List (Nat × Out) := (b.passing i).map fun p => (p.1, f p.1 p.2)

/-- The fibre that stands in a slot. -/
def State.fibreAt (s : State) (g k t : Nat) : Option Fibre := (s.skein g k).bind fun sk => sk.fibre t

end Sys2Proof.Machine
end

