-- ==== Sys2Proof/Certificates/Slice0/Obligations.lean ====
section
/-! DEFINITION. The statements for the provers: what spec/ says the machine does. -/

section

open Sys2Proof Sys2Proof.Machine

/-! ## How statements about an instruction word are put -/

namespace Sys2Proof.Says

/-- In every state where nothing stops it, the word is carried out: the step answers a next state, in which each fibre whose
guard passes has become what f says, on to its next instruction, and the fibres whose guard fails have only gone on. -/
def Effect (i : Instr) (f : Batch → Nat → Fibre → Fibre) : Prop :=
  ∀ s b ready, Ready s i b ready → exec i s = .next (s.atIssue.finish b ready (b.eachNext i (f b)))

/-- The fibre that supplies source B (spec/02 R37). -/
def supplier (b : Batch) (x : Fibre) (ub : Bool) : Fibre := if ub then ((b.all.head?).map (·.2)).getD x else x

/-- The value of a class I source: absolute value first, then negation, modulo 2^N (spec/06 R150). -/
def intIn (ty : IntTy) (neg abs : Bool) (v : Nat) : Int :=
  let p := BitVec.ofNat (intBits ty) v
  let q := if abs then p.abs else p
  let r := if neg then -q else q
  match ty with
  | .s32 | .s64 => r.toInt
  | .n32 | .n64 => r.toNat

/-- `CLAMP` saturates to the type's range, else the result keeps its low N bits (spec/06 R151). -/
def intOut (ty : IntTy) (clamp : Bool) (v : Int) : Nat :=
  let w := if clamp && decide (v < intMin ty) then intMin ty else if clamp && decide (intMax ty < v) then intMax ty else v
  (w % 2 ^ intBits ty).toNat

/-- `IMM24`, sign-extended for s types and zero-extended for n types (spec/06 R153). -/
def intImm : IntTy → BitVec 24 → Int
  | .s32, i | .s64, i => i.toInt
  | .n32, i | .n64, i => i.toNat

/-- Registers of a type of class I. -/
def intRegs : IntTy → Nat
  | .s32 | .n32 => 1
  | .s64 | .n64 => 2

/-- A V3 word of class I writes the finished value of an exact operation on A, B and C. -/
def IntV3 (i : Instr) (ty : IntTy) (f : V3) (op : Int → Int → Int → Int) : Prop :=
  Effect i fun b _ x =>
    let k := intRegs ty
    x.wrVal f.dst.toNat k (intOut ty f.clamp (op (intIn ty f.nega f.absa (x.rdVal f.sa.toNat k))
      (intIn ty f.negb f.absb ((supplier b x f.ub).rdVal f.sb.toNat k)) (intIn ty f.negc f.absc (x.rdVal f.sc.toNat k))))

/-- A VI word of class I: B is the immediate and C the destination. -/
def IntVI (i : Instr) (ty : IntTy) (f : VI) (op : Int → Int → Int → Int) : Prop :=
  Effect i fun _ _ x =>
    let k := intRegs ty
    x.wrVal f.dst.toNat k (intOut ty f.clamp (op (intIn ty f.nega f.absa (x.rdVal f.sa.toNat k)) (intImm ty f.imm)
      (intIn ty false false (x.rdVal f.dst.toNat k))))

/-- The same with a result that is written later, at MULTI_CLOCK_RESULT_WRITTEN (spec/03 R66): it is noted as pending. -/
def pending (x : Fibre) (r : Reg) (words : List W32) : Fibre :=
  { x with late := x.late ++ [(if r.toNat < 248 then x.wshift + r.toNat else 1000 + r.toNat, words)] }

/-- The words of a value, the least significant first. -/
def words : Nat → Nat → List W32
  | 0, _ => []
  | k + 1, v => BitVec.ofNat 32 v :: words k (v / 2 ^ 32)

/-- The value of a class B source. -/
def bitIn (ty : BitTy) (x : Fibre) (r : Reg) : BitVec (bitBits ty) := BitVec.ofNat _ (x.rdVal r.toNat (bitBits ty / 32))

/-- A class B result written. -/
def bitOut (ty : BitTy) (x : Fibre) (r : Reg) (v : BitVec (bitBits ty)) : Fibre := x.wrVal r.toNat (bitBits ty / 32) v.toNat

/-- A V3 word of class B with two sources of the type's width. -/
def BitV3 (i : Instr) (ty : BitTy) (f : V3) (op : BitVec (bitBits ty) → BitVec (bitBits ty) → BitVec (bitBits ty)) : Prop :=
  Effect i fun b _ x => bitOut ty x f.dst (op (bitIn ty x f.sa) (bitIn ty (supplier b x f.ub) f.sb))

/-- A VI word of class B: the immediate is zero-extended. -/
def BitVI (i : Instr) (ty : BitTy) (f : VI) (op : BitVec (bitBits ty) → BitVec (bitBits ty) → BitVec (bitBits ty)) : Prop :=
  Effect i fun _ _ x => bitOut ty x f.dst (op (bitIn ty x f.sa) (BitVec.ofNat _ f.imm.toNat))

/-- A V3 word of class B whose B is one 32-bit register, a count. -/
def CountV3 (i : Instr) (ty : BitTy) (f : V3) (op : BitVec (bitBits ty) → Nat → BitVec (bitBits ty)) : Prop :=
  Effect i fun b _ x => bitOut ty x f.dst (op (bitIn ty x f.sa) ((supplier b x f.ub).rd f.sb.toNat).toNat)

/-- Its VI form: the count is the immediate. -/
def CountVI (i : Instr) (ty : BitTy) (f : VI) (op : BitVec (bitBits ty) → Nat → BitVec (bitBits ty)) : Prop :=
  Effect i fun _ _ x => bitOut ty x f.dst (op (bitIn ty x f.sa) f.imm.toNat)

/-- Bit j of the field that a BFX selector names of a (spec/07 R185). -/
def fieldBit (w : Nat) (a : BitVec w) (sel j : Nat) : Bool :=
  let pos := sel % 256
  let len := min (sel / 256 % 256) w
  if len = 0 ∨ w ≤ pos then false
  else if j < len then a.getLsbD (pos + j)
  else sel.testBit 16 && a.getLsbD (pos + len - 1)

/-- Bit j of what BFI makes of c (spec/07 R185). -/
def insertBit (w : Nat) (a c : BitVec w) (sel j : Nat) : Bool :=
  let pos := sel % 256
  let len := min (sel / 256 % 256) w
  if pos ≤ j ∧ j < pos + len then a.getLsbD (j - pos) else c.getLsbD j

/-- Byte k of what BPERM makes of a (spec/07 R187). -/
def permByte (w : Nat) (a : BitVec w) (sel k : Nat) : Nat :=
  let nib := sel / 16 ^ k % 16
  let byte (n : Nat) : Nat := a.toNat / 256 ^ n % 256
  if nib.testBit 3 then 0
  else if w = 64 then byte (nib % 8)
  else if nib.testBit 2 then (if (byte (nib % 4)).testBit 7 then 255 else 0)
  else byte (nib % 4)

/-- Every byte of r is as BPERM says. -/
def Permuted (w : Nat) (a : BitVec w) (sel : Nat) (r : BitVec w) : Prop :=
  ∀ k, k < w / 8 → r.toNat / 256 ^ k % 256 = permByte w a sel k

end Sys2Proof.Says

open Sys2Proof Sys2Proof.Machine Sys2Proof.Says

/-! ## Integers, bits and moves -/

/-- spec/07 R179, R181: IADD, ISUB, IMUL, IMULH, IMAD, IMIN, IMAX and LEA in both forms. -/
def Obligations.IntegerArithmetic : Prop :=
  ∀ ty : IntTy,
    (∀ f, IntV3 (.iadd ty f) ty f fun a b _ => a + b) ∧ (∀ f, IntVI (.iaddImm ty f) ty f fun a b _ => a + b) ∧
    (∀ f, IntV3 (.isub ty f) ty f fun a b _ => a - b) ∧ (∀ f, IntVI (.isubImm ty f) ty f fun a b _ => a - b) ∧
    (∀ f, IntV3 (.imul ty f) ty f fun a b _ => a * b) ∧ (∀ f, IntVI (.imulImm ty f) ty f fun a b _ => a * b) ∧
    (∀ f, IntV3 (.imulh ty f) ty f fun a b _ => Int.fdiv (a * b) (2 ^ intBits ty)) ∧
    (∀ f, IntVI (.imulhImm ty f) ty f fun a b _ => Int.fdiv (a * b) (2 ^ intBits ty)) ∧
    (∀ f, IntV3 (.imad ty f) ty f fun a b c => a * b + c) ∧ (∀ f, IntVI (.imadImm ty f) ty f fun a b c => a * b + c) ∧
    (∀ f, IntV3 (.imin ty f) ty f fun a b _ => if a ≤ b then a else b) ∧
    (∀ f, IntVI (.iminImm ty f) ty f fun a b _ => if a ≤ b then a else b) ∧
    (∀ f, IntV3 (.imax ty f) ty f fun a b _ => if a ≤ b then b else a) ∧
    (∀ f, IntVI (.imaxImm ty f) ty f fun a b _ => if a ≤ b then b else a) ∧
    (∀ f, Effect (.lea ty f) fun b _ x =>
      let k := intRegs ty
      let v := BitVec.ofNat 32 ((supplier b x f.ub).rd f.sb.toNat).toNat
      let narrow : IntTy := match ty with | .s32 | .s64 => .s32 | .n32 | .n64 => .n32
      x.wrVal f.dst.toNat k (intOut ty f.clamp
        (intIn ty f.nega f.absa (x.rdVal f.sa.toNat k) + intIn narrow f.negb f.absb v.toNat * 2 ^ f.sc.toNat))) ∧
    (∀ f, IntVI (.leaImm ty f) ty f fun a b _ => a + b) ∧
    -- the shift of LEA is three bits of `SC`; `CLAMP` is reserved where the rule says so
    (∀ f, (Instr.lea ty f).wf = true → f.sc.toNat < 8) ∧
    (∀ f, ((Instr.imulh ty f).wf = true ∨ (Instr.imin ty f).wf = true ∨ (Instr.imax ty f).wf = true) → f.clamp = false) ∧
    (∀ f, ((Instr.imulhImm ty f).wf = true ∨ (Instr.iminImm ty f).wf = true ∨ (Instr.imaxImm ty f).wf = true) → f.clamp = false)

/-- spec/07 R180, spec/03 R66: IDIV and IREM leave their result pending, with truncation toward zero and the results of a zero
divisor that the rule gives. -/
def Obligations.DivisionLeavesPendingResult : Prop :=
  ∀ ty : IntTy,
    let quotient (a b : Int) : Int :=
      if b = 0 then (match ty with
        | .n32 | .n64 => 2 ^ intBits ty - 1
        | .s32 | .s64 => if 0 ≤ a then 2 ^ (intBits ty - 1) - 1 else -(2 ^ (intBits ty - 1)))
      else Int.sign a * Int.sign b * (a.natAbs / b.natAbs : Nat)
    let remainder (a b : Int) : Int := if b = 0 then a else Int.sign a * (a.natAbs % b.natAbs : Nat)
    let v3 (i : Instr) (f : V3) (op : Int → Int → Int) : Prop := Effect i fun b _ x =>
      let k := intRegs ty
      pending x f.dst (words k (intOut ty f.clamp (op (intIn ty f.nega f.absa (x.rdVal f.sa.toNat k))
        (intIn ty f.negb f.absb ((supplier b x f.ub).rdVal f.sb.toNat k)))))
    let vi (i : Instr) (f : VI) (op : Int → Int → Int) : Prop := Effect i fun _ _ x =>
      let k := intRegs ty
      pending x f.dst (words k (intOut ty f.clamp (op (intIn ty f.nega f.absa (x.rdVal f.sa.toNat k)) (intImm ty f.imm))))
    (∀ f, v3 (.idiv ty f) f quotient) ∧ (∀ f, vi (.idivImm ty f) f quotient) ∧
    (∀ f, v3 (.irem ty f) f remainder) ∧ (∀ f, vi (.iremImm ty f) f remainder) ∧
    (∀ f, (Instr.irem ty f).wf = true → f.clamp = false) ∧ (∀ f, (Instr.iremImm ty f).wf = true → f.clamp = false)

/-- spec/07 R182, R183, R188, R189: IMADW, ICMP, MOV, MOVH and SEL3. -/
def Obligations.WideMultiplyCompareMoveSelect : Prop :=
  (∀ (ty : IntTy) (f : V3), Effect (.imadw ty f) fun b _ x =>
    let wide : IntTy := match ty with | .s32 | .s64 => .s64 | .n32 | .n64 => .n64
    let k := intRegs ty
    x.wrVal f.dst.toNat 2 (intOut wide f.clamp (intIn ty f.nega f.absa (x.rdVal f.sa.toNat k) *
      intIn ty f.negb f.absb ((supplier b x f.ub).rdVal f.sb.toNat k) + intIn wide f.negc f.absc (x.rdVal f.sc.toNat 2)))) ∧
  (∀ (ty : IntTy) (f : V3), ∃ holds : Int → Int → Bool, (Effect (.icmp ty f) fun b _ x =>
      let k := intRegs ty
      x.wrPred f.dst.toNat (Tri.ofBool (holds (intIn ty f.nega f.absa (x.rdVal f.sa.toNat k))
        (intIn ty f.negb f.absb ((supplier b x f.ub).rdVal f.sb.toNat k))))) ∧
    ∀ a b, (f.sc = 0 → holds a b = decide (a = b)) ∧ (f.sc = 1 → holds a b = decide (a ≠ b)) ∧ (f.sc = 2 → holds a b = decide (a < b)) ∧
      (f.sc = 3 → holds a b = decide (a ≤ b)) ∧ (f.sc = 4 → holds a b = decide (b < a)) ∧ (f.sc = 5 → holds a b = decide (b ≤ a))) ∧
  (∀ (ty : IntTy) (f : VI), ∃ holds : Int → Int → Bool, (Effect (.icmpImm ty f) fun _ _ x =>
      x.wrPred (f.dst.toNat % 16) (Tri.ofBool (holds (intIn ty f.nega f.absa (x.rdVal f.sa.toNat (intRegs ty))) (intImm ty f.imm)))) ∧
    ∀ a b, (f.dst.toNat / 16 = 0 → holds a b = decide (a = b)) ∧ (f.dst.toNat / 16 = 1 → holds a b = decide (a ≠ b)) ∧
      (f.dst.toNat / 16 = 2 → holds a b = decide (a < b)) ∧ (f.dst.toNat / 16 = 3 → holds a b = decide (a ≤ b)) ∧
      (f.dst.toNat / 16 = 4 → holds a b = decide (b < a)) ∧ (f.dst.toNat / 16 = 5 → holds a b = decide (b ≤ a))) ∧
  (∀ (ty : IntTy) (f : V3), Effect (.mov ty f) fun _ _ x =>
    x.wrVal f.dst.toNat (intRegs ty) (intOut ty false (intIn ty f.nega f.absa (x.rdVal f.sa.toNat (intRegs ty))))) ∧
  (∀ (ty : IntTy) (f : VI), Effect (.movImm ty f) fun _ _ x =>
    x.wrVal f.dst.toNat (intRegs ty) (intOut ty false (intImm ty f.imm))) ∧
  (∀ (ty : IntTy) (f : VI), Effect (.movh ty f) fun _ _ x =>
    x.wrVal f.dst.toNat 1 (f.imm ++ (x.rd f.dst.toNat).setWidth 8 : BitVec 32).toNat) ∧
  (∀ (ty : BitTy) (f : V3), Effect (.sel3 ty f) fun b _ x =>
    bitOut ty x f.dst (match (x.rd 0).toNat / 4 ^ f.sc.toNat % 4 with
      | 0 => bitIn ty (supplier b x f.ub) f.sb
      | 1 => bitIn ty x f.sa
      | _ => bitIn ty x f.dst))

/-- spec/07 R184: AND, OR, XOR, ANDN and ORN in both forms. -/
def Obligations.LogicOperations : Prop :=
  ∀ ty : BitTy,
    (∀ f, BitV3 (.and ty f) ty f fun a b => a &&& b) ∧ (∀ f, BitVI (.andImm ty f) ty f fun a b => a &&& b) ∧
    (∀ f, BitV3 (.or ty f) ty f fun a b => a ||| b) ∧ (∀ f, BitVI (.orImm ty f) ty f fun a b => a ||| b) ∧
    (∀ f, BitV3 (.xor ty f) ty f fun a b => a ^^^ b) ∧ (∀ f, BitVI (.xorImm ty f) ty f fun a b => a ^^^ b) ∧
    (∀ f, BitV3 (.andn ty f) ty f fun a b => a &&& ~~~b) ∧ (∀ f, BitVI (.andnImm ty f) ty f fun a b => a &&& ~~~b) ∧
    (∀ f, BitV3 (.orn ty f) ty f fun a b => a ||| ~~~b) ∧ (∀ f, BitVI (.ornImm ty f) ty f fun a b => a ||| ~~~b)

/-- spec/07 R184: SHL, SHR, SAR and ROTL in both forms, counts of the width and more included. -/
def Obligations.ShiftsAndRotates : Prop :=
  ∀ ty : BitTy,
    (∀ f, CountV3 (.shl ty f) ty f fun a n => a <<< n) ∧ (∀ f, CountVI (.shlImm ty f) ty f fun a n => a <<< n) ∧
    (∀ f, CountV3 (.shr ty f) ty f fun a n => a >>> n) ∧ (∀ f, CountVI (.shrImm ty f) ty f fun a n => a >>> n) ∧
    (∀ f, CountV3 (.sar ty f) ty f fun a n => a.sshiftRight n) ∧ (∀ f, CountVI (.sarImm ty f) ty f fun a n => a.sshiftRight n) ∧
    (∀ f, CountV3 (.rotl ty f) ty f fun a n => a.rotateLeft (n % bitBits ty)) ∧
    (∀ f, CountVI (.rotlImm ty f) ty f fun a n => a.rotateLeft (n % bitBits ty))

/-- spec/07 R185, R187: FSHL, BFX, BFI and BPERM, bit by bit and byte by byte. -/
def Obligations.FieldAndByteOperations : Prop :=
  ∀ ty : BitTy,
    let w := bitBits ty
    (∀ f, Effect (.fshl ty f) fun b _ x =>
      bitOut ty x f.dst (((bitIn ty x f.sa ++ bitIn ty (supplier b x f.ub) f.sb) <<< ((x.rd f.sc.toNat).toNat % w)).extractLsb' w w)) ∧
    (∃ op : BitVec w → Nat → BitVec w,
      (∀ f, CountV3 (.bfx ty f) ty f op) ∧ (∀ f, CountVI (.bfxImm ty f) ty f op) ∧
        ∀ a sel j, j < w → (op a sel).getLsbD j = fieldBit w a sel j) ∧
    (∃ op : BitVec w → BitVec w → Nat → BitVec w,
      (∀ f, Effect (.bfi ty f) fun b _ x =>
        bitOut ty x f.dst (op (bitIn ty x f.sa) (bitIn ty x f.sc) ((supplier b x f.ub).rd f.sb.toNat).toNat)) ∧
      (∀ f, Effect (.bfiImm ty f) fun _ _ x => bitOut ty x f.dst (op (bitIn ty x f.sa) (bitIn ty x f.dst) f.imm.toNat)) ∧
        ∀ a c sel j, j < w → (op a c sel).getLsbD j = insertBit w a c sel j) ∧
    (∃ op : BitVec w → Nat → BitVec w,
      (∀ f, CountV3 (.bperm ty f) ty f op) ∧ (∀ f, CountVI (.bpermImm ty f) ty f op) ∧ ∀ a sel, Permuted w a sel (op a sel))

/-- spec/07 R186: POPC, CLZ, CTZ and BREV. -/
def Obligations.BitCountsAndReversal : Prop :=
  ∀ ty : BitTy,
    let w := bitBits ty
    (∀ f, Effect (.popc ty f) fun _ _ x =>
      x.wr f.dst.toNat (BitVec.ofNat 32 ((List.range w).countP fun j => (bitIn ty x f.sa).getLsbD j))) ∧
    (∀ f, Effect (.clz ty f) fun _ _ x =>
      x.wr f.dst.toNat (BitVec.ofNat 32 ((List.range w).takeWhile fun j => !(bitIn ty x f.sa).getMsbD j).length)) ∧
    (∀ f, Effect (.ctz ty f) fun _ _ x =>
      x.wr f.dst.toNat (BitVec.ofNat 32 ((List.range w).takeWhile fun j => !(bitIn ty x f.sa).getLsbD j).length)) ∧
    (∀ f, Effect (.brev ty f) fun _ _ x => bitOut ty x f.dst (bitIn ty x f.sa).reverse)

/-! ## Floating point -/

namespace Sys2Proof.Says

/-- The same, where each fibre has an outcome of its own: a next instruction, or a fault it raises precisely. -/
def Outcome (i : Instr) (f : Batch → Nat → Fibre → Out) : Prop :=
  ∀ s b ready, Ready s i b ready → exec i s = .next (s.atIssue.finish b ready (b.eachOut i (f b)))

/-- A point source (spec/06 R150, spec/04 R85): flushed under `FTZIN` where that applies, then absolute value, then negation, both of
the sign bit alone. -/
def floatIn (fmt : FloatFmt) (fm : Fmode) (neg abs : Bool) (v : Nat) : FV :=
  let p := fmt.flushIn fm (v % 2 ^ fmt.width)
  fmt.read (p % 2 ^ fmt.magBits + (if (p.testBit fmt.magBits && !abs) != neg then 2 ^ fmt.magBits else 0))

/-- An interval source: nothing when it is empty. -/
def ivIn (fmt : FloatFmt) (x : Fibre) (r : Reg) (neg abs : Bool) : Option Iv :=
  (fmt.readIv (x.rdVal r.toNat (fmtRegs fmt)) (x.rdVal (r.toNat + fmtRegs fmt) (fmtRegs fmt))).map (Iv.modify neg abs)

/-- The rounding in force, for element j (spec/04 R82 to R84). -/
def rounding (b : Batch) (t j : Nat) (x : Fibre) (override : Nat) : Rnd :=
  Rnd.ofCode (if override = 0 then x.rmode else override - 1) (stochRandom x.srseed.toNat (b.fibid t) j)

/-- A result written at once, or left pending by a multi-clock operation. -/
def result (late : Bool) (x : Fibre) (r : Reg) (k v : Nat) : Fibre := if late then pending x r (words k v) else x.wrVal r.toNat k v

/-- The two bounds in a group, the lower bound first. -/
def bounds (fmt : FloatFmt) (v : Nat × Nat) : Nat := v.1 + 2 ^ (32 * fmtRegs fmt) * v.2

/-- What an operation makes of points: the NaN candidates in order, and the exact value under a rounding. -/
abbrev OnPoints := FloatFmt → Fmode → Rnd → FV → FV → FV → List FV × Ex

/-- What it makes of intervals: nothing outside its domain. -/
abbrev OnIntervals := Iv → Iv → Iv → Option Iv

/-- A V3 word of class F that reads n sources (1, 2 or 3): the point form is the exact value, scaled, rounded once, flushed and
clamped; the interval form rounds both bounds outward, and an empty operand or result faults EMPTY_INTERVAL in its fibre. -/
def FloatV3 (i : Instr) (ty : FTy) (f : V3) (n : Nat) (late : Bool) (pt : OnPoints) (iv : OnIntervals) : Prop :=
  let fmt := fFmt ty
  let k := fmtRegs fmt
  Outcome i fun b t x =>
    let y := supplier b x f.ub
    if f.i then
      match ivIn fmt x f.sa f.nega f.absa, (if 2 ≤ n then ivIn fmt y f.sb f.negb f.absb else some Iv.entire),
        (if 3 ≤ n then ivIn fmt x f.sc f.negc f.absc else some Iv.entire) with
      | some p, some q, some r =>
        match iv p q r with
        | some v => .next (result late x f.dst (2 * k) (bounds fmt (fmt.finishIv x.fm f.scale.toInt f.clamp v)))
        | none => .fault .emptyInterval 0
      | _, _, _ => .fault .emptyInterval 0
    else
      let m := rounding b t 0 x 0
      let v := pt fmt x.fm m (floatIn fmt x.fm f.nega f.absa (x.rdVal f.sa.toNat k)) (floatIn fmt x.fm f.negb f.absb (y.rdVal f.sb.toNat k))
        (floatIn fmt x.fm f.negc f.absc (x.rdVal f.sc.toNat k))
      .next (result late x f.dst k (fmt.finish m x.fm f.scale.toInt f.clamp v.1 v.2))

/-- The VI form: the immediate is B, as a point or as the point interval, and the destination is C. -/
def FloatVI (i : Instr) (ty : FTy) (f : VI) (n : Nat) (late : Bool) (pt : OnPoints) (iv : OnIntervals) : Prop :=
  let fmt := fFmt ty
  let k := fmtRegs fmt
  let imm := match ty with
    | .f32 => f.imm.toNat * 2 ^ 8 | .f64 => f.imm.toNat * 2 ^ 40 | .f16 => f.imm.toNat % 2 ^ 16 | .bf16 => f.imm.toNat % 2 ^ 16
  Outcome i fun b t x =>
    if f.i then
      match ivIn fmt x f.sa f.nega f.absa, fmt.readIv imm imm,
        (if 3 ≤ n then ivIn fmt x f.dst false false else some Iv.entire) with
      | some p, some q, some r =>
        match iv p q r with
        | some v => .next (result late x f.dst (2 * k) (bounds fmt (fmt.finishIv x.fm 0 f.clamp v)))
        | none => .fault .emptyInterval 0
      | _, _, _ => .fault .emptyInterval 0
    else
      let m := rounding b t 0 x 0
      let v := pt fmt x.fm m (floatIn fmt x.fm f.nega f.absa (x.rdVal f.sa.toNat k)) (fmt.read (fmt.flushIn x.fm imm))
        (floatIn fmt x.fm false false (x.rdVal f.dst.toNat k))
      .next (result late x f.dst k (fmt.finish m x.fm 0 f.clamp v.1 v.2))

/-- The smaller (or larger) of two points, −0 below +0; NaNs under `MINNUM` (spec/07 R192, spec/04 R85). -/
def extreme (small : Bool) (fm : Fmode) (a b : FV) : Ex :=
  match a, b with
  | .nan _ _, .nan _ _ => .nan
  | .nan _ _, y => if fm.minnum then y.ex else .nan
  | x, .nan _ _ => if fm.minnum then x.ex else .nan
  | x, y =>
    let neg (v : FV) : Bool := match v with | .nan n _ => n | .inf n => n | .fin n _ _ => n
    let below := match x.er, y.er with
      | some p, some q => p.lt q || (p.eq q && (neg x || !neg y))
      | _, _ => true
    if below = small then x.ex else y.ex

/-- The integral value of a finite value under a rounding (spec/07 R195). -/
def integral (m : Rnd) (a : FV) : Ex :=
  match a.ex with
  | .fin neg n d => .fin neg (m.nat neg n d) 1
  | v => v

/-- The approximate function of A ends with its result pending: the step answers the next state in which every fibre of the point form, and
of the interval form every fibre whose operand is not empty and not wholly outside the function's domain (`outside`), goes on with the
function's bits, and the others fault EMPTY_INTERVAL; the bits are fixed functions of operand, format, `FMODE`, scale and clamp (spec/07
R177), with the special values of R194 on points. -/
def Approximates (fn : AFn) (i : FTy → V3 → Instr) (special : FV → Option Ex) (outside : Iv → Bool) : Prop :=
  (∀ ty f, let fmt := fFmt ty; let k := fmtRegs fmt
    Outcome (i ty f) fun _ _ x =>
      if f.i then
        match ivIn fmt x f.sa f.nega f.absa with
        | none => .fault .emptyInterval 0
        | some a =>
          if outside a then .fault .emptyInterval 0
          else .next (pending x f.dst (words (2 * k) (bounds fmt
            ((fn.interval fmt x.fm f.scale.toInt f.clamp (x.rdVal f.sa.toNat (2 * k)) a).getD (0, 0)))))
      else
        .next (pending x f.dst (words k (fn.point fmt x.fm f.scale.toInt f.clamp
          (modFloat fmt f.nega f.absa (fmt.flushIn x.fm (x.rdVal f.sa.toNat k % 2 ^ fmt.width))))))) ∧
  (∀ ty fm scale clamp bits a, (fn.interval (fFmt ty) fm scale clamp bits a = none) = (outside a = true)) ∧
  (∀ ty fm scale clamp v r, special ((fFmt ty).read v) = some r →
    fn.point (fFmt ty) fm scale clamp v = (fFmt ty).finish .ne fm scale clamp [(fFmt ty).read v] r)

/-- A class FI word that reads one interval and writes a point. -/
def PointOf (i : IvTy → V3 → Instr) (pt : FloatFmt → Iv → Nat) : Prop :=
  ∀ ty f, Outcome (i ty f) fun _ _ x =>
    match ivIn (ivFmt ty) x f.sa f.nega f.absa with
    | none => .fault .emptyInterval 0
    | some a => .next (x.wrVal f.dst.toNat (fmtRegs (ivFmt ty)) (pt (ivFmt ty) a))

/-- Both bounds written to a group. -/
def ivOut (fmt : FloatFmt) (x : Fibre) (r : Reg) (v : Nat × Nat) : Fibre :=
  (x.wrVal r.toNat (fmtRegs fmt) v.1).wrVal (r.toNat + fmtRegs fmt) (fmtRegs fmt) v.2

end Sys2Proof.Says

/-- spec/07 R190, R191, R202: FADD, FMUL, FFMA, FDIV and FSQRT, point and interval, in every form they have; that no
interval written has both bounds at one infinity is the model's choice (notes/assumptions/110). -/
def Obligations.FloatArithmetic : Prop :=
  let add : OnPoints := fun _ _ m a b _ => ([a, b], a.ex.add m b.ex)
  let mul : OnPoints := fun _ _ _ a b _ => ([a, b], a.ex.mul b.ex)
  let fma : OnPoints := fun fmt fm m a b c =>
    let p := a.ex.mul b.ex
    ([a, b, c], (if fm.unfmad = true ∧ p ≠ .nan then (fmt.read (fmt.roundEx m p)).ex else p).add m c.ex)
  let div : OnPoints := fun _ _ _ a b _ => ([a, b], a.ex.div b.ex)
  let sqrt : OnPoints := fun _ _ _ a _ _ => ([a], a.ex.sqrt)
  let addI : OnIntervals := fun a b _ => some ⟨a.lo.add b.lo, a.hi.add b.hi⟩
  let mulI : OnIntervals := fun a b _ => some ((a.mul b).getD Iv.entire)
  let fmaI : OnIntervals := fun a b c => some (match a.mul b with | some p => ⟨p.lo.add c.lo, p.hi.add c.hi⟩ | none => Iv.entire)
  let divI : OnIntervals := fun a b _ => some (a.fdiv b)
  let sqrtI : OnIntervals := fun a _ _ => if a.hi.lt ER.zero then none else some ⟨(a.lo.max ER.zero).sqrt, a.hi.sqrt⟩
  ∀ ty : FTy,
    (∀ f, FloatV3 (.fadd ty f) ty f 2 false add addI) ∧ (∀ f, FloatVI (.faddImm ty f) ty f 2 false add addI) ∧
    (∀ f, FloatV3 (.fmul ty f) ty f 2 false mul mulI) ∧ (∀ f, FloatVI (.fmulImm ty f) ty f 2 false mul mulI) ∧
    (∀ f, FloatV3 (.ffma ty f) ty f 3 false fma fmaI) ∧ (∀ f, FloatVI (.ffmaImm ty f) ty f 3 false fma fmaI) ∧
    (∀ f, FloatV3 (.fdiv ty f) ty f 2 true div divI) ∧ (∀ f, FloatVI (.fdivImm ty f) ty f 2 true div divI) ∧
    (∀ f, FloatV3 (.fsqrt ty f) ty f 1 true sqrt sqrtI)

/-- spec/07 R192, R195, R202: FMIN, FMAX, FRND and FSCALE; notes/assumptions/110 of intervals at one infinity. -/
def Obligations.FloatExtremesIntegralsAndScaling : Prop :=
  let ext (small : Bool) : OnPoints := fun _ fm _ a b _ => ([a, b], extreme small fm a b)
  let minI : OnIntervals := fun a b _ => some ⟨a.lo.min b.lo, a.hi.min b.hi⟩
  let maxI : OnIntervals := fun a b _ => some ⟨a.lo.max b.lo, a.hi.max b.hi⟩
  let rnd : OnPoints := fun _ _ m a _ _ => ([a], integral m a)
  let rndI : OnIntervals := fun a _ _ => some ⟨a.lo.floor, a.hi.ceil⟩
  let scaled (ty : FTy) (i clamp neg abs : Bool) (dst sa : Reg) (n : Int) (b : Batch) (t : Nat) (x : Fibre) : Out :=
    let fmt := fFmt ty
    -- beyond ±5000 every value of every format has overflowed or vanished
    let n := if n < -5000 then -5000 else if 5000 < n then 5000 else n
    if i then
      match ivIn fmt x sa neg abs with
      | none => .fault .emptyInterval 0
      | some a => .next (ivOut fmt x dst (fmt.finishIv x.fm n clamp a))
    else
      let a := floatIn fmt x.fm neg abs (x.rdVal sa.toNat (fmtRegs fmt))
      .next (x.wrVal dst.toNat (fmtRegs fmt) (fmt.finish (rounding b t 0 x 0) x.fm n clamp [a] a.ex))
  ∀ ty : FTy,
    (∀ f, FloatV3 (.fmin ty f) ty f 2 false (ext true) minI) ∧ (∀ f, FloatVI (.fminImm ty f) ty f 2 false (ext true) minI) ∧
    (∀ f, FloatV3 (.fmax ty f) ty f 2 false (ext false) maxI) ∧ (∀ f, FloatVI (.fmaxImm ty f) ty f 2 false (ext false) maxI) ∧
    (∀ f, FloatV3 (.frnd ty f) ty f 1 false rnd rndI) ∧
    (∀ f, Outcome (.fscale ty f) fun b t x =>
      scaled ty f.i f.clamp f.nega f.absa f.dst f.sa
        (intIn .s32 f.negb f.absb ((supplier b x f.ub).rd f.sb.toNat).toNat + f.scale.toInt) b t x) ∧
    (∀ f, Outcome (.fscaleImm ty f) fun b t x => scaled ty f.i f.clamp f.nega f.absa f.dst f.sa f.imm.toInt b t x)

/-- spec/07 R193, R194, R203: FRCP, FRSQ, FEX2, FLG2, FSINP and FCOSP complete with a pending result, in the point form always and in the
interval form wherever the operand reaches into the domain; the special values are those of the table. -/
def Obligations.ApproximateFunctions : Prop :=
  let within (_ : Iv) : Bool := false
  let below (a : Iv) : Bool := a.hi.lt ER.zero
  Approximates .rcp .frcp (fun
    | .nan _ _ => some .nan | .inf n => some (.fin n 0 1) | .fin n m _ => if m = 0 then some (.inf n) else none) within ∧
  Approximates .rsq .frsq (fun
    | .nan _ _ => some .nan | .inf n => some (if n then .nan else .fin false 0 1)
    | .fin n m _ => if m = 0 then some (.inf n) else if n then some .nan else none) below ∧
  Approximates .ex2 .fex2 (fun
    | .nan _ _ => some .nan | .inf n => some (if n then .fin false 0 1 else .inf false)
    | .fin _ m _ => if m = 0 then some (.fin false 1 1) else none) within ∧
  Approximates .lg2 .flg2 (fun
    | .nan _ _ => some .nan | .inf n => some (if n then .nan else .inf false)
    | .fin n m _ => if m = 0 then some (.inf true) else if n then some .nan else none) below ∧
  Approximates .sinp .fsinp (fun
    | .nan _ _ => some .nan | .inf _ => some .nan
    | .fin n m e => if m * 2 ^ e.toNat % 2 ^ (-e).toNat = 0 then some (.fin n 0 1) else none) within ∧
  Approximates .cosp .fcosp (fun | .nan _ _ => some .nan | .inf _ => some .nan | .fin _ _ _ => none) within

/-- spec/07 R196, R197: FCLASS, FEXPO, FMANT and FCMP. -/
def Obligations.FloatInspectionAndComparison : Prop :=
  let truth (c : Nat) (a b : FV) : Tri :=
    match a.er, b.er with
    | some p, some q =>
      Tri.ofBool (match c with
        | 0 => p.eq q | 1 => !p.eq q | 2 => p.lt q | 3 => p.le q | 4 => q.lt p | 5 => q.le p | 6 => true | 7 => false
        | 8 => p.eq q | 9 => p.eq q | _ => !p.eq q)
    | _, _ => Tri.ofBool (c == 1 || c == 7)
  let truthI (c : Nat) (p q : Iv) : Tri := Iv.compare (FCond.ofCode c) p q
  (∀ (ty : FTy) (f : V3), Effect (.fclass ty f) fun _ _ x =>
    let fmt := fFmt ty
    let v := modFloat fmt f.nega f.absa (x.rdVal f.sa.toNat (fmtRegs fmt) % 2 ^ fmt.width)
    let neg := v.testBit fmt.magBits
    x.wr f.dst.toNat (BitVec.ofNat 32 (2 ^ (match fmt.read v with
      | .nan _ _ => if v.testBit (fmt.fbits - 1) then 1 else 0
      | .inf _ => if neg then 2 else 9
      | .fin _ m _ =>
        if m = 0 then (if neg then 5 else 6)
        else if v % 2 ^ fmt.magBits < 2 ^ fmt.fbits then (if neg then 4 else 7)
        else if neg then 3 else 8)))) ∧
  (∀ (ty : FTy) (f : V3), Effect (.fexpo ty f) fun _ _ x =>
    x.wr f.dst.toNat (match floatIn (fFmt ty) .clear f.nega f.absa (x.rdVal f.sa.toNat (fmtRegs (fFmt ty))) with
      | .nan _ _ => 0x7FFFFFFE | .inf _ => 0x7FFFFFFF
      | .fin _ m e => if m = 0 then 0x80000000 else BitVec.ofInt 32 (Nat.log2 m + e))) ∧
  (∀ (ty : FTy) (f : V3), Effect (.fmant ty f) fun b t x =>
    let fmt := fFmt ty
    let a := floatIn fmt .clear f.nega f.absa (x.rdVal f.sa.toNat (fmtRegs fmt))
    x.wrVal f.dst.toNat (fmtRegs fmt) (fmt.finish (rounding b t 0 x 0) x.fm f.scale.toInt f.clamp [a] (match a with
      | .fin neg m e => if m = 0 then .fin neg 0 1 else .fin neg m (2 ^ Nat.log2 m)
      | v => v.ex))) ∧
  (∀ (ty : FTy) (f : V3), f.sc.toNat ≤ 10 → Outcome (.fcmp ty f) fun b _ x =>
    let fmt := fFmt ty
    let y := supplier b x f.ub
    if f.i then
      match ivIn fmt x f.sa f.nega f.absa, ivIn fmt y f.sb f.negb f.absb with
      | some p, some q => .next (x.wrPred f.dst.toNat (truthI f.sc.toNat p q))
      | _, _ => .fault .emptyInterval 0
    else
      .next (x.wrPred f.dst.toNat (truth f.sc.toNat (floatIn fmt x.fm f.nega f.absa (x.rdVal f.sa.toNat (fmtRegs fmt)))
        (floatIn fmt x.fm f.negb f.absb (y.rdVal f.sb.toNat (fmtRegs fmt)))))) ∧
  (∀ (ty : FTy) (f : VI), f.dst.toNat / 16 ≤ 10 → Outcome (.fcmpImm ty f) fun _ _ x =>
    let fmt := fFmt ty
    let imm := match ty with
      | .f32 => f.imm.toNat * 2 ^ 8 | .f64 => f.imm.toNat * 2 ^ 40 | .f16 => f.imm.toNat % 2 ^ 16 | .bf16 => f.imm.toNat % 2 ^ 16
    if f.i then
      match ivIn fmt x f.sa f.nega f.absa, fmt.readIv imm imm with
      | some p, some q => .next (x.wrPred (f.dst.toNat % 16) (truthI (f.dst.toNat / 16) p q))
      | _, _ => .fault .emptyInterval 0
    else
      .next (x.wrPred (f.dst.toNat % 16) (truth (f.dst.toNat / 16)
        (floatIn fmt x.fm f.nega f.absa (x.rdVal f.sa.toNat (fmtRegs fmt))) (fmt.read (fmt.flushIn x.fm imm)))))

/-- spec/07 R198 to R201, spec/04 R74, R80, R81: CVT, CVTB, PACK2 and UNPK. -/
def Obligations.Conversions : Prop :=
  let floatCode (c : Nat) : Option FloatFmt :=
    [(0, fmtF32), (1, fmtF64), (2, fmtF16), (3, fmtBf16), (4, fmtE4m3), (5, fmtE5m2)].lookup c
  let intCode (c : Nat) : Option (Nat × Bool) :=
    [(7, 32, true), (8, 32, false), (9, 64, true), (10, 64, false), (11, 16, true), (12, 16, false), (13, 8, true), (14, 8, false)].lookup c
  let pairCode (c : Nat) : Nat := if c = 1 ∨ c = 9 ∨ c = 10 then 2 else 1
  let least (n : Nat) (sg : Bool) : Int := if sg then -(2 ^ (n - 1)) else 0
  let most (n : Nat) (sg : Bool) : Int := if sg then 2 ^ (n - 1) - 1 else 2 ^ n - 1
  let sat (n : Nat) (sg : Bool) (v : Int) : Int := max (least n sg) (min (most n sg) v)
  -- an integer in its register: narrow ones are extended to 32 bits (spec/04 R73)
  let fill (n : Nat) (sg : Bool) (v : Int) : Nat :=
    let p := BitVec.ofInt n v
    if n < 32 then (if sg then (p.signExtend 32).toNat else p.toNat) else p.toNat
  (∀ f : V3, Effect (.cvt f) fun b t x =>
    let d := f.sb.toNat / 16
    let s := f.sb.toNat % 16
    let m := rounding b t 0 x f.sc.toNat
    let v := x.rdVal f.sa.toNat (pairCode s)
    x.wrVal f.dst.toNat (pairCode d) (match floatCode s, intCode s, floatCode d, intCode d with
      | some sf, _, some df, _ => let a := floatIn sf x.fm f.nega f.absa v; df.finish m x.fm 0 false [a] a.ex
      | some sf, _, none, some (n, sg) =>
        (match (floatIn sf x.fm f.nega f.absa v).ex with
          | .nan => 0
          | .inf neg => fill n sg (if neg then least n sg else most n sg)
          | .fin neg p q => fill n sg (sat n sg (if neg then -(m.nat neg p q : Int) else m.nat neg p q)))
      | none, some (n, sg), some df, _ =>
        let a : Int := if sg then (BitVec.ofNat n v).toInt else (BitVec.ofNat n v).toNat
        df.finish m x.fm 0 false [] (.fin (decide (a < 0)) a.natAbs 1)
      | none, some (n, sg), none, some (n', sg') =>
        let a : Int := if sg then (BitVec.ofNat n v).toInt else (BitVec.ofNat n v).toNat
        fill n' sg' (if f.clamp then sat n' sg' a else a)
      | _, _, _, _ => 0)) ∧
  (∀ f : V3, Effect (.cvtb f) fun b t x =>
    let element (j : Nat) : FV :=
      match (b.passing (.cvtb f)).find? (fun p => p.1 == t / 32 * 32 + j), floatCode (f.sb.toNat % 16) with
      | some p, some fmt => floatIn fmt .clear f.nega f.absa (p.2.rdVal f.sa.toNat (fmtRegs fmt))
      | _, _ => .fin false 0 0
    let k := encodeBlock ((rangeFrom 0 32).map element)
    x.wr f.dst.toNat (BitVec.ofNat 32 (k.codes.getD (t % 32) 0 + k.scale * 2 ^ 8 + k.extra * 2 ^ 16))) ∧
  (∀ (ty : HTy) (f : V3), Effect (.pack2 ty f) fun b t x =>
    let half (y : Fibre) (r : Reg) (j : Nat) : Nat :=
      let a := floatIn fmtF32 x.fm false false (y.rdVal r.toNat 1)
      (hFmt ty).finish (rounding b t j x 0) x.fm 0 false [a] a.ex
    x.wr f.dst.toNat (BitVec.ofNat 32 (half x f.sa 0 + 2 ^ 16 * half (supplier b x f.ub) f.sb 1))) ∧
  (∀ (ty : HTy) (f : V3), Effect (.unpk ty f) fun _ _ x =>
    let v := (x.rd f.sa.toNat).toNat
    let pos := f.sb.toNat / 16
    x.wr f.dst.toNat (BitVec.ofNat 32 (match floatCode (f.sb.toNat % 16), intCode (f.sb.toNat % 16) with
      | some fmt, _ =>
        let e := v / 2 ^ (16 * pos) % 2 ^ 16
        (match fmt.read e with
          | .nan neg _ =>
            (if neg then 2 ^ 31 else 0) + (0xFF <<< 23) + ((e % 2 ^ fmt.fbits * 2 ^ (23 - fmt.fbits)) ||| 2 ^ 22)
          | a => fmtF32.roundEx .ne a.ex)
      | none, some (n, sg) => fill n sg (v / 2 ^ (n * pos) % 2 ^ n : Nat)
      | none, none => 0)))

/-- spec/07 R204 to R207, spec/04 R87, R91: IVMK, IVMID, IVWID, IVMAG, IVMIG, IVHULL, IVISECT and IVSPLIT; what
is written where both bounds would be one infinity is the model's choice (notes/assumptions/110). -/
def Obligations.IntervalOperations : Prop :=
  (∀ (ty : IvTy) (f : V3), Effect (.ivmk ty f) fun b _ x =>
    let dst := ivFmt ty
    let src := if f.sc = 1 then fmtF64 else dst
    ivOut dst x f.dst (match (floatIn src .clear f.nega f.absa (x.rdVal f.sa.toNat (fmtRegs src))).er,
        (floatIn src .clear f.negb f.absb ((supplier b x f.ub).rdVal f.sb.toNat (fmtRegs src))).er with
      | some p, some q => dst.writeIv x.fm ⟨if p.le q then p else q, if p.le q then q else p⟩
      | _, _ => (dst.infCode + 2 ^ dst.magBits, dst.infCode))) ∧
  PointOf .ivmid (fun fmt a => match a.lo, a.hi with
    | .fin p, .fin q => fmt.roundQ .ne ((p.add q).scale (-1))
    | .ninf, .fin _ => 2 ^ fmt.magBits + fmt.maxCode
    | .fin _, .pinf => fmt.maxCode
    | _, _ => 0) ∧
  PointOf .ivwid (fun fmt a => match a.lo, a.hi with
    | .fin p, .fin q => fmt.roundQ .up (q.sub p)
    | _, _ => fmt.infCode) ∧
  PointOf .ivmag (fun fmt a => fmt.roundER .ne (a.lo.abs.max a.hi.abs)) ∧
  PointOf .ivmig (fun fmt a => fmt.roundER .ne (if a.lo.le ER.zero && ER.zero.le a.hi then ER.zero else a.lo.abs.min a.hi.abs)) ∧
  (∀ (ty : IvTy) (f : V3), Outcome (.ivhull ty f) fun b _ x =>
    match ivIn (ivFmt ty) x f.sa f.nega f.absa, ivIn (ivFmt ty) (supplier b x f.ub) f.sb f.negb f.absb with
    | some p, some q => .next (ivOut (ivFmt ty) x f.dst ((ivFmt ty).writeIv x.fm ⟨p.lo.min q.lo, p.hi.max q.hi⟩))
    | _, _ => .fault .emptyInterval 0) ∧
  (∀ (ty : IvTy) (f : V3), Outcome (.ivisect ty f) fun b _ x =>
    match ivIn (ivFmt ty) x f.sa f.nega f.absa, ivIn (ivFmt ty) (supplier b x f.ub) f.sb f.negb f.absb with
    | some p, some q =>
      if (p.hi.min q.hi).lt (p.lo.max q.lo) then .fault .emptyInterval 0
      else .next (ivOut (ivFmt ty) x f.dst ((ivFmt ty).writeIv x.fm ⟨p.lo.max q.lo, p.hi.min q.hi⟩))
    | _, _ => .fault .emptyInterval 0) ∧
  (∀ (ty : IvTy) (f : V3), Outcome (.ivsplit ty f) fun _ _ x =>
    let fmt := ivFmt ty
    match ivIn fmt x f.sa f.nega f.absa with
    | none => .fault .emptyInterval 0
    | some a =>
      let v := fmt.writeIv x.fm a
      .next (ivOut fmt (ivOut fmt x f.dst (v.1, fmt.flushHi x.fm (fmt.ivMid a))) f.sb (fmt.flushLo x.fm (fmt.ivMid a), v.2)))

/-! ## Control, fibres, barriers -/

namespace Sys2Proof.Says

/-- A target taken from registers: outside templates it must be a multiple of 8, else ALIGN with the target in `FADDR`. -/
def goesTo (x y : Fibre) (t : W64) : Out :=
  if x.inTemplate = false ∧ t.toNat % 8 ≠ 0 then .fault .align t else .jump y t

/-- A target taken from an offset: words from the branch, or guest PC units from the guest instruction in a template. -/
def near (x : Fibre) (off : BitVec 26) : W64 := if x.inTemplate then x.gpc + off.signExtend 64 else x.pc + (off.signExtend 64) * 8

/-- What follows the instruction: the next word, or the next guest instruction. -/
def following (x : Fibre) : W64 :=
  match x.expansion with
  | some e => if x.inTemplate then x.gpc + BitVec.ofNat 64 e.len else x.pc + 8
  | none => x.pc + 8

/-- The window moved up by k registers, with the callee's predicate word, shift and return PC (spec/03 R60). -/
def called (x : Fibre) (k : Nat) : Fibre :=
  ((({ x with wshift := x.wshift + k } : Fibre).wr 0 (x.rd 0)).wr 1 (BitVec.ofNat 32 k)).wrVal 2 2 (following x).toNat

/-- Registers left in the window. -/
def window (x : Fibre) : Nat := x.regs.length - x.wshift

end Sys2Proof.Says

/-- spec/08 R210, R212, R213, spec/03 R60: BRA, BRX, BRDEC, CALL, CALLX and RET. -/
def Obligations.BranchesCallsAndReturns : Prop :=
  (∀ f, Outcome (.bra f) fun _ _ x => .jump x (near x f.off)) ∧
  (∀ f, Outcome (.brx f) fun _ _ x => goesTo x x (x.pair f.ca.toNat)) ∧
  (∀ f, Outcome (.brdec f) fun _ _ x =>
    let c := (x.rd f.ca.toNat).toNat
    if c = 0 then .next x
    else if c = 1 then .next (x.wr f.ca.toNat 0)
    else .jump (x.wr f.ca.toNat (x.rd f.ca.toNat - 1)) (near x f.off)) ∧
  (∀ f, Outcome (.call f) fun _ _ x =>
    let k := 8 * f.cb.toNat
    if window x ≤ k ∨ window x - k < 8 then .fault .regRange 0 else .jump (called x k) (near x f.off)) ∧
  (∀ f, Outcome (.callx f) fun _ _ x =>
    let k := 8 * f.cb.toNat
    if window x ≤ k ∨ window x - k < 8 then .fault .regRange 0 else goesTo x (called x k) (x.pair f.ca.toNat)) ∧
  (∀ f, Outcome (.ret f) fun _ _ x =>
    let k := (x.rd 1).toNat
    if k = 0 ∨ k % 8 ≠ 0 ∨ x.wshift < k then .fault .regRange 0 else goesTo x { x with wshift := x.wshift - k } (x.pair 2))

/-- spec/08 R214, R215: RMARK gives every passing fibre the same mask and keeps the moment of its issue; at RJOIN the passing fibres
wait, and those whose guard fails count as arrived; where every bit of every passing fibre's mask names a slot of the batch and
no fibre of the skein waits there already, all leave at once to the next instruction. -/
def Obligations.ReconvergenceMarksAndJoins : Prop :=
  (∀ (f : CF) s b ready, Ready s (.rmark f) b ready →
    exec (.rmark f) s = .next (({ s.atIssue with nextKey := s.nextKey + 1 } : State).finish b ready (b.eachNext (.rmark f) fun _ x =>
      let y := x.wrVal f.ca.toNat 2 (maskOf ((b.passing (.rmark f)).map (·.1))).toNat
      { y with marks := tset y.marks (x.place f.ca.toNat) s.nextKey, lastMark := s.nextKey }))) ∧
  (∀ (f : CF) s b ready, Ready s (.rjoin f) b ready →
    -- the slots whose guard fails count as arrived for the batch and for those that wait here already
    let off := maskOf ((b.all.filter fun p => !(b.passing (.rjoin f)).any fun q => q.1 == p.1).map (·.1))
    let here (y : Fibre) : Prop := ∃ p, b.all.head? = some p ∧ y.wait = .rjoin ∧ p.2.pc = y.pc ∧ p.2.parked = y.parked
    ∃ arrive : Fibre → Fibre, (∀ y, (here y → arrive y = { y with wmask := y.wmask &&& ~~~off }) ∧ (¬ here y → arrive y = y)) ∧
    exec (.rjoin f) s = .next ((s.atIssue.modSkein b.g.key b.k fun sk => sk.mapFibres fun _ y => arrive y).finish b ready
      (b.eachOut (.rjoin f) fun _ x =>
        .stay { x with
          wait := .rjoin, wmask := x.pair f.ca.toNat &&& ~~~off, wmoment := (tget x.marks (x.place f.ca.toNat)).getD x.lastMark }))) ∧
  (∀ (f : CF) s b ready, Ready s (.rjoin f) b ready → b.passing (.rjoin f) = b.all →
    (∀ p ∈ b.all, p.2.parked = false ∧ p.2.expansion = none ∧ p.2.pair f.ca.toNat &&& ~~~(maskOf (b.all.map (·.1))) = 0) →
    (∀ p ∈ b.all, ∀ q ∈ b.all, p.2.pc = q.2.pc) → (∀ p ∈ b.sk.live, p.2.wait ≠ .rjoin) →
    ∃ t, exec (.rjoin f) s = .next t ∧
      ∀ p ∈ b.all, ∃ y, t.fibreAt b.g.key b.k p.1 = some y ∧ y.wait = .none ∧ y.pc = p.2.pc + 8 ∧ y.regs = p.2.regs ∧ y.e = p.2.e)

/-- spec/08 R216 to R218, spec/02 R39, R40: FNEW and IVFORK put the child into the lowest free slot of the creator's skein; FEND ends
its fibres and EXIT the gang (on a handle thread, the routine). -/
def Obligations.FibreCreationAndEnd : Prop :=
  (∀ (f : CF) s b ready t x u, Ready s (.fnew f) b ready → b.passing (.fnew f) = [(t, x)] → b.sk.freeSlot = some u →
    ∃ child : Fibre,
      exec (.fnew f) s = .next ((({ s.atIssue with nextKey := s.nextKey + 1 } : State).modSkein b.g.key b.k fun sk => sk.setFibre u (some child)).finish
        b ready [(t, .next (x.wr f.ca.toNat (BitVec.ofNat 32 (b.k * b.sk.width + u))))]) ∧
      child.uid = s.nextKey ∧ child.wait = .none ∧ child.e = (x.wr f.ca.toNat (BitVec.ofNat 32 (b.fibid t))).e ∧
      child.regs = (x.wr f.ca.toNat (BitVec.ofNat 32 (b.fibid t))).regs ∧ child.rmode = 0 ∧ child.srseed = 0 ∧
      (x.expansion = none → child.pc = near x f.off)) ∧
  (∀ (f : CF) s b ready t x u a, Ready s (.ivfork f) b ready → b.passing (.ivfork f) = [(t, x)] → b.sk.freeSlot = some u →
    let fmt := if f.cfl = 1 then fmtF64 else fmtF32
    ivIn fmt x f.ca false false = some a →
    let v := fmt.writeIv .clear a
    let m := fmt.ivMid a
    ∃ child : Fibre,
      exec (.ivfork f) s = .next ((({ s.atIssue with nextKey := s.nextKey + 1 } : State).modSkein b.g.key b.k fun sk => sk.setFibre u (some child)).finish
        b ready [(t, .next ((ivOut fmt x f.ca (v.1, m)).wrPred f.cb.toNat .false_))]) ∧
      child.uid = s.nextKey ∧ child.regs = ((ivOut fmt x f.ca (m, v.2)).wrPred f.cb.toNat .true_).regs ∧
      (x.expansion = none → child.pc = x.pc + 8)) ∧
  (∀ f, Outcome (.fend f) fun _ _ _ => .gone) ∧
  (∀ (f : CF) s b ready, Ready s (.exit f) b ready → b.passing (.exit f) ≠ [] →
    exec (.exit f) s = .next ((if b.g.kind = .handle then s.atIssue.endRoutine b.g.key else s.atIssue.endGang b.g.key).finish b ready
      (b.eachOut (.exit f) fun _ _ => .gone)))

/-- spec/08 R219 to R222, R235: BARA, BARW and BAR, whose arrivals first wait for the fibre's earlier operations; SBAR's arrival goes to the
span barrier; MIGRATE outside handlers and emulation; STEP. -/
def Obligations.BarriersAndMigrationRequests : Prop :=
  let quiet (b : Batch) (i : Instr) : Prop := ∀ p ∈ b.passing i, b.sk.settled b.sk.nextSeq p.2.uid = true
  (∀ f s b ready, Ready s (.bara f) b ready → quiet b (.bara f) →
    exec (.bara f) s = .next (s.atIssue.finish b ready (b.eachOut (.bara f) fun _ x =>
      if x.barIn.testBit f.cb.toNat then .stay { x with wait := .barw, waitArg := f.cb.toNat + 16 }
      else .next { x with barIn := x.barIn ||| 2 ^ f.cb.toNat }))) ∧
  (∀ f, Outcome (.barw f) fun _ _ x =>
    if x.barIn.testBit f.cb.toNat then .stay { x with wait := .barw, waitArg := f.cb.toNat } else .next x) ∧
  (∀ f s b ready, Ready s (.bar f) b ready → quiet b (.bar f) →
    exec (.bar f) s = .next (s.atIssue.finish b ready (b.eachOut (.bar f) fun _ x =>
      if x.barIn.testBit f.cb.toNat then .stay { x with wait := .barw, waitArg := f.cb.toNat + 32 }
      else .stay { x with barIn := x.barIn ||| 2 ^ f.cb.toNat, wait := .barw, waitArg := f.cb.toNat }))) ∧
  (∀ f s b ready, Ready s (.sbar f) b ready → b.passing (.sbar f) ≠ [] → ∃ e : Entry,
    exec (.sbar f) s = .next ((s.atIssue.addEntry b e).finish b ready (b.eachOut (.sbar f) fun _ x => .stay { x with wait := .sbar })) ∧
      e.kind = 0x20 ∧ e.acked = true ∧ e.ops.map (fun o => (o.slot, o.uid)) = (b.passing (.sbar f)).map fun p => (p.1, p.2.uid)) ∧
  (∀ f s b ready, Ready s (.migrate f) b ready → (∀ p ∈ b.passing (.migrate f), p.2.parked = false ∧ p.2.emul = false) →
    exec (.migrate f) s = .next (s.atIssue.finish b ready (b.eachOut (.migrate f) fun _ x =>
      .stay { x with wait := .migrate, waitArg := f.off.toNat + 2 ^ 26 * f.cfl.toNat + 2 ^ 29 * f.ca.toNat }))) ∧
  (∀ f, Effect (.step f) fun _ _ x => { x with stepIn := true })

/-- spec/08 R220, spec/02 R38: a barrier whose phase every live fibre of the gang has reached advances by one; those that wait to depart
go on, and those that arrived late for it arrive at the next phase. -/
def Obligations.BarrierPhaseReleasesTheGang : Prop :=
  ∀ (g : Gang) (n k t : Nat) (sk : Skein) (x : Fibre), n < 16 → g.skeins[k]? = some sk → sk.fibre t = some x →
    (∀ y ∈ g.live, y.barIn.testBit n = true) → x.wait = .barw → x.waitArg = n → x.expansion = none →
    ∃ sk' y, (g.settleBarrier n 1).skeins[k]? = some sk' ∧ sk'.fibre t = some y ∧ y.wait = .none ∧ y.pc = x.pc + 8 ∧
      y.barIn.testBit n = false ∧ y.regs = x.regs ∧ (g.settleBarrier n 1).barPhase[n]? = g.barPhase[n]?.map fun p => (p + 1) % 256

/-! ## Predicates and the fibres of a batch -/

/-- The node of the reduction tree that covers 2^n slots from slot t on; a side without a contributor adds nothing (spec/08 R227). -/
def Sys2Proof.Says.treeNode (step : Nat → Nat → Nat) (leaves : Nat → Option Nat) : Nat → Nat → Option Nat
  | 0, t => leaves t
  | n + 1, t =>
    match treeNode step leaves n t, treeNode step leaves n (t + 2 ^ n) with
    | some a, some b => some (step a b)
    | some a, none => some a
    | none, b => b

/-- spec/08 R223, R229, R234: NOP, PAND, POR, PNOT, PXOR, PRES, PMOV, ELECT. -/
def Obligations.PredicateLogicAndElection : Prop :=
  let p (x : Fibre) (r : Reg) : Nat := (x.rd 0).toNat / 4 ^ r.toNat % 4
  -- codes: 0 false, 1 true, 2 undecided
  let put (x : Fibre) (r : Reg) (c : Nat) : Fibre := x.wrPred r.toNat (if c = 0 then .false_ else if c = 1 then .true_ else .undecided)
  (∀ f, Effect (.nop f) fun _ _ x => x) ∧
  (∀ f, Effect (.pand f) fun _ _ x =>
    put x f.dst (if p x f.sa = 0 ∨ p x f.sb = 0 then 0 else if p x f.sa = 1 ∧ p x f.sb = 1 then 1 else 2)) ∧
  (∀ f, Effect (.por f) fun _ _ x =>
    put x f.dst (if p x f.sa = 1 ∨ p x f.sb = 1 then 1 else if p x f.sa = 0 ∧ p x f.sb = 0 then 0 else 2)) ∧
  (∀ f, Effect (.pxor f) fun _ _ x =>
    put x f.dst (if 2 ≤ p x f.sa ∨ 2 ≤ p x f.sb then 2 else if p x f.sa = p x f.sb then 0 else 1)) ∧
  (∀ f, Effect (.pnot f) fun _ _ x => put x f.dst (if p x f.sa = 0 then 1 else if p x f.sa = 1 then 0 else 2)) ∧
  (∀ f, Effect (.pres f) fun _ _ x => put x f.dst (if p x f.sa = 0 then 0 else if p x f.sa = 1 then 1 else if f.sub = 1 then 1 else 0)) ∧
  (∀ f, Effect (.pmov f) fun _ _ x => put x f.dst (if p x f.sa = 0 then 0 else if p x f.sa = 1 then 1 else 2)) ∧
  (∀ f, Effect (.elect f) fun b t x =>
    x.wrPred f.dst.toNat (if ((b.passing (.elect f)).head?.map (·.1)) = some t then .true_ else .false_))

/-- spec/08 R224 to R226: SHFL, BALLOT and VOTE. -/
def Obligations.ShufflesBallotsAndVotes : Prop :=
  (∀ f : SF, Effect (.shfl f) fun (b : Batch) t x =>
    let k := if f.sub.toNat.testBit 2 then 2 else 1
    let n := (x.rd f.sb.toNat).toNat
    let from_ : Option Nat := match f.sub.toNat % 4 with
      | 0 => some n | 1 => if n ≤ t then some (t - n) else none | 2 => some (t + n) | _ => some (t ^^^ n)
    let y : Fibre := match from_ with
      | some u => ((b.all.find? fun p => p.1 == u).map (·.2)).getD x
      | none => x
    x.wrVal f.dst.toNat k (y.rdVal f.sa.toNat k)) ∧
  (∀ f, Effect (.ballot f) fun b _ x =>
    x.wrVal f.dst.toNat 2 (maskOf (((b.passing (.ballot f)).filter fun p =>
      (p.2.rd 0).toNat / 4 ^ f.sub.toNat % 4 == f.imm.toNat).map (·.1))).toNat) ∧
  (∀ f, Effect (.vote f) fun b _ x =>
    let cs := (b.passing (.vote f)).map fun p => predOf (p.2.rd 0) f.sub.toNat
    x.wrPred f.dst.toNat (match f.imm.toNat with
      | 0 => if ∀ c ∈ cs, c = .true_ then .true_ else if .false_ ∈ cs then .false_ else .undecided
      | 1 => if .true_ ∈ cs then .true_ else if ∀ c ∈ cs, c = .false_ then .false_ else .undecided
      | _ => if ∀ c ∈ cs, some c = cs.head? then .true_ else .false_)) ∧
  (∀ f, (Instr.shfl f).wf = true → f.sub.toNat < 8) ∧ (∀ f, (Instr.ballot f).wf = true → f.imm.toNat < 3)

/-- spec/08 R227, R228, spec/04 R76: RDX folds the passing fibres' values over a fixed tree of 64 leaves, SCAN one after another up to each
fibre; a signalling NaN counts as the quiet one. -/
def Obligations.ReductionsAndScans : Prop :=
  let regs (c : Nat) : Nat := if c = 1 ∨ c = 9 ∨ c = 10 then 2 else 1
  let leaf (c : Nat) (fm : Fmode) (r : Reg) (x : Fibre) : Nat :=
    let v := x.rdVal r.toNat (regs c)
    match codeFloat c with
    | some fmt => (match fmt.read v with | .nan _ _ => v % 2 ^ fmt.width ||| 2 ^ (fmt.fbits - 1) | _ => fmt.flushIn fm v)
    | none => v
  let fm (xs : List (Nat × Fibre)) : Fmode := match xs with | p :: _ => Fmode.ofNat (Prod.snd p).fmode | [] => .clear
  (∀ f, Effect (.rdx f) fun b _ x =>
    let xs := b.passing (.rdx f)
    let c := f.imm.toNat
    let leaves (t : Nat) : Option Nat := ((xs.find? fun p => p.1 == t).map (·.2)).map (leaf c (fm xs) f.sa)
    x.wrVal f.dst.toNat (regs c) ((treeNode (reduceStep (f.sub.toNat % 8) c (fm xs)) leaves 6 0).getD 0)) ∧
  (∀ f, Effect (.scan f) fun b t x =>
    let xs := b.passing (.scan f)
    let c := f.imm.toNat
    let vs := (xs.filter fun p => decide (if f.sub.toNat.testBit 3 then p.1 < t else p.1 ≤ t)).map fun p => leaf c (fm xs) f.sa p.2
    x.wrVal f.dst.toNat (regs c) (match vs with
      | [] => reduceIdentity (f.sub.toNat % 8) c
      | v :: r => r.foldl (reduceStep (f.sub.toNat % 8) c (fm xs)) v))

/-! ## Memory -/

namespace Sys2Proof.Says

/-- Bytes that `SIZE` stands for (spec/06 R156). -/
def bytes (f : MF) : Nat := match f.size.toNat with | 0 => 1 | 1 => 2 | 2 => 4 | 3 => 8 | 4 => 16 | 5 => 8 | 6 => 2 | _ => 4

/-- The address of a fibre's access (spec/09 R241): the base pair, the index register as a signed number scaled by the access size, and
the offset scaled by `unit`; with `UA` the batch's lowest fibre supplies the registers (spec/06 R158). -/
def address (f : MF) (indexed : Bool) (off : Int) (unit : Nat) (b : Batch) (x : Fibre) : W64 :=
  let y := supplier b x f.ua
  y.pair f.base.toNat + (if indexed = true ∧ f.index ≠ 0 then (y.rd f.index.toNat).signExtend 64 * BitVec.ofNat 64 (bytes f) else 0)
    + BitVec.ofInt 64 (off * unit)

/-- The data group of a store or atomic, read at issue. -/
def group (f : MF) (x : Fibre) (r : Reg) : Nat := x.rdVal r.toNat (max 1 (bytes f / 4)) % 256 ^ bytes f

/-- The scope of an entry (spec/05 R111, spec/09 R247): system for an atomic to a host page, at most cluster in scratch. -/
def scopeOf (sc : Scope) (sp : Space) (hostAtomic : Bool) : Nat :=
  let n := match sc with | .skein => 1 | .gang => 2 | .cluster => 3 | .device => 4 | .system => 5
  if hostAtomic then 5 else if sp = .global then n else min n 3

/-- What a memory word asks of a fibre, what it notes of it, and how the operation is performed. -/
structure Form where
  kind : Nat
  aop : Nat
  cas : Bool
  acc : Batch → Acc
  align : Nat
  dst : Fibre → Nat
  data : Fibre → Nat
  cmp : Fibre → Nat
  offset : Int
  indexed : Bool

/-- Where every passing fibre's access is checked without a fault (spec/09 R241). -/
def Asks (i : Instr) (f : MF) (m : Form) (s : State) (b : Batch) (oks : List (Nat × Fibre × List Part)) (s1 : State) : Prop :=
  s.atIssue.askAll (b.taking i)
    (fun _ x => ⟨f.space, m.acc b, address f m.indexed m.offset (bytes f) b x, bytes f, m.align, m.aop, m.cas, f.hint.toNat⟩)
    (b.passing i) = .done [] oks s1

/-- The words that a load writes for the bits it reads (spec/09 R244, R245). -/
def loaded (kind aop size v : Nat) : List W32 :=
  let point (f : FloatFmt) : List W32 := let q := ldivPoint f fmtF32 v; [BitVec.ofNat 32 q.1, BitVec.ofNat 32 q.2]
  if kind = 2 ∧ aop = 2 then point fmtF32 else if kind = 2 ∧ aop = 5 then point fmtF64 else words (max 1 (size / 4)) v

/-- A handle-local access (spec/05 R98): it raises no counter and makes no entry, and the next issue finds it performed. -/
def PerformsLocally (i : Instr) (f : MF) (m : Form) : Prop :=
  ∀ s b ready oks s1, Ready s i b ready → f.space = .localMem → (b.g.det = true → m.kind ≤ 4 ∨ f.scope = .skein ∨ f.scope = .gang) →
    Asks i f m s b oks s1 →
    (∃ (t : State) (outs : List (Nat × Out)), exec i s = .next (t.finish b ready outs) ∧ outs.map (·.1) = (b.passing i).map (·.1) ∧
      (∀ o ∈ outs, ∃ x, o.2 = .next x) ∧ t.gangs = s1.gangs ∧ t.mem = s1.mem ∧ t.host = s1.host) ∧
    ∀ n x ps, oks = [(n, x, ps)] →
      let a := (address f m.indexed m.offset (bytes f) b x).toNat
      let old := ofBytes ((s1.cluster b.g.cluster).local_.readBytes a (bytes f))
      let put (v : Nat) : State := s1.modCluster b.g.cluster fun k => { k with local_ := k.local_.writeBytes a (bytesOf (bytes f) v) }
      let new := atomNew m.aop (8 * bytes f) old (m.data x) (m.cmp x)
      exec i s = .next (match m.kind with
        | 1 | 2 => s1.finish b ready [(n, .next (x.wrPlaces (m.dst x) (loaded m.kind m.aop (bytes f) old)))]
        | 3 | 4 => (put (m.data x)).finish b ready [(n, .next x)]
        | 7 => (put new).finish b ready [(n, .next x)]
        | _ => (put new).finish b ready [(n, .next (x.wrPlaces (m.dst x) (words (max 1 (bytes f / 4)) old)))])

/-- The issue of a memory word (spec/09 R243 to R247, spec/13 R330 to R333, spec/03 R64): where every passing fibre's access is checked
without a fault, the skein's record gains one entry that holds each fibre's part, the counter of its kind rises by one, `ACKC` rises when a
write reaches a port, and the fibres go on.  An atomic to a host page leaves at once where nothing before it is outstanding. -/
def IssuesAccess (i : Instr) (f : MF) (m : Form) : Prop :=
  let load : Bool := m.kind == 1 || m.kind == 2 || m.kind == 5 || m.kind == 6
  PerformsLocally i f m ∧
  ∀ s b ready oks s1, Ready s i b ready → b.passing i ≠ [] → f.space ≠ .localMem → b.g.log.mode = 0 →
    (b.g.det = true → m.kind ≤ 4 ∨ f.scope = .skein ∨ f.scope = .gang) → (if load then b.sk.l < 63 else b.sk.s < 63) → Asks i f m s b oks s1 →
    let host : Bool := decide (5 ≤ m.kind) && oks.any fun o => o.2.2.any fun p => p.home == .host
    (m.kind ≤ 2 ∨ b.sk.ackc < 1023 ∧ (host = true → b.sk.record = [] ∧ (∀ o ∈ oks, ∀ p ∈ o.2.2, p.hat ≠ 2) ∧ oks.length = 1 ∧
      f.order ≠ .rel ∧ f.order ≠ .acqrel)) →
    ∃ (e : Entry) (t : State) (sk : Skein), exec i s = .next (t.finish b ready (b.eachNext i fun _ x => x)) ∧
      t.skein b.g.key b.k = some sk ∧ sk.slots = b.sk.slots ∧ sk.record = b.sk.record ++ [e] ∧
      sk.l = b.sk.l + (if load then 1 else 0) ∧ sk.s = b.sk.s + (if load then 0 else 1) ∧ sk.c = b.sk.c ∧ sk.t = b.sk.t ∧
      sk.ackc = b.sk.ackc + (if 3 ≤ m.kind ∧ ∃ o ∈ oks, ∃ p ∈ o.2.2, p.port = true then 1 else 0) ∧
      (e.acked = false ↔ 3 ≤ m.kind ∧ ∃ o ∈ oks, ∃ p ∈ o.2.2, p.port = true) ∧
      e.kind = m.kind ∧ e.seq = b.sk.nextSeq ∧ e.size = bytes f ∧ e.aop = m.aop ∧ e.scope = scopeOf f.scope f.space host ∧ e.one = f.ua ∧
      (e.acquire = true ↔ f.order = .acq ∨ f.order = .acqrel) ∧ (e.release = true ↔ f.order = .rel ∨ f.order = .acqrel) ∧
      (∀ p, b.all.head? = some p → e.pc = p.2.pc) ∧ oks.map (fun o => (o.1, o.2.1)) = b.passing i ∧
      e.ops = oks.map (fun o => .new o.1 o.2.1.uid (m.dst o.2.1) (address f m.indexed m.offset (bytes f) b o.2.1) o.2.2 (m.data o.2.1) (m.cmp o.2.1)) ∧
      t.mem = s1.mem ∧ t.host = s1.host ∧ t.peers = s1.peers ∧ t.clusters = s1.clusters ∧ t.worlds = s1.worlds ∧ t.ctxs = s1.ctxs

end Sys2Proof.Says

/-- spec/09 R241, R244, R245, spec/05 R98: LD and LDIV, with the checks each access passes. -/
def Obligations.LoadsIssue : Prop :=
  (∀ f, IssuesAccess (.ld f) f
    { kind := 1, aop := 0, cas := false, acc := fun _ => .load, align := 1, dst := fun x => x.place f.data.toNat, data := fun _ => 0,
      cmp := fun _ => 0, offset := f.off.toInt, indexed := true }) ∧
  (∀ f, IssuesAccess (.ldiv f) f
    { kind := 2, aop := f.size.toNat, cas := false, acc := fun _ => .load, align := bytes f, dst := fun x => x.place f.data.toNat,
      data := fun _ => 0, cmp := fun _ => 0, offset := f.off.toInt, indexed := true })

/-- spec/09 R244 to R247, spec/05 R98: ST, STIV, RED, ATOM and ATOMC; in deterministic mode an atomic of cluster scope or wider is not issued (spec/20
R439). -/
def Obligations.StoresAndAtomicsIssue : Prop :=
  (∀ f, IssuesAccess (.st f) f
    { kind := 3, aop := 0, cas := false, acc := fun _ => .store, align := 1, dst := fun _ => 0, data := fun x => group f x f.data,
      cmp := fun _ => 0, offset := f.off.toInt, indexed := true }) ∧
  (∀ f, IssuesAccess (.stiv f) f
    { kind := 4, aop := 0, cas := false, acc := fun _ => .store, align := bytes f, dst := fun _ => 0, data := fun x => group f x f.data,
      cmp := fun _ => 0, offset := f.off.toInt, indexed := true }) ∧
  (∀ f, IssuesAccess (.atom f) f
    { kind := 5, aop := f.off.toNat / 256, cas := false, acc := fun b => .atomic b.g.det, align := bytes f, dst := fun x => x.place f.data.toNat,
      data := fun x => group f x f.data, cmp := fun _ => 0, offset := (f.off.setWidth 8).toInt, indexed := true }) ∧
  (∀ f, IssuesAccess (.atomc f) f
    { kind := 6, aop := 16, cas := true, acc := fun b => .atomic b.g.det, align := bytes f, dst := fun x => x.place f.data.toNat,
      data := fun x => group f x f.data, cmp := fun x => group f x f.index, offset := f.off.toInt, indexed := false }) ∧
  (∀ f, IssuesAccess (.red f) f
    { kind := 7, aop := f.off.toNat / 256, cas := false, acc := fun b => .reduce b.g.det, align := bytes f, dst := fun _ => 0,
      data := fun x => group f x f.data, cmp := fun _ => 0, offset := (f.off.setWidth 8).toInt, indexed := true })

/-- spec/09 R248, spec/13 R331: CACHE.pref notes the lines of cached pages it asks for and changes no register, counter, memory or
translation; CWB and CINV note the lines of cached pages that they act on. -/
def Obligations.CacheLineOperations : Prop :=
  (∀ (f : MF) s b ready, Ready s (.cachePref f) b ready → ∃ (t : State) (sk : Skein) (es : List Entry),
    exec (.cachePref f) s = .next (t.finish b ready (b.eachNext (.cachePref f) fun _ x => x)) ∧
    t.skein b.g.key b.k = some sk ∧ sk.slots = b.sk.slots ∧ sk.record = b.sk.record ++ es ∧ sk.l = b.sk.l ∧ sk.s = b.sk.s ∧ sk.c = b.sk.c ∧
    sk.t = b.sk.t ∧ sk.ackc = b.sk.ackc ∧ (∀ e ∈ es, e.kind = 0x0A ∧ e.acked = true ∧ ∀ o ∈ e.ops, o.parts ≠ [] ∧
      (∀ p ∈ o.parts, p.home = .dev ∧ p.cached = true) ∧ ∃ p ∈ b.passing (.cachePref f), o.slot = p.1 ∧
        o.va = address f false f.off.toInt 128 b p.2) ∧
    t.mem = s.mem ∧ t.clusters = s.clusters ∧ t.tlb = s.tlb ∧ t.ctxs = s.ctxs ∧ t.grids = s.grids ∧ t.cores = s.cores ∧ t.tags = s.tags) ∧
  (let acts (i : Instr) (f : MF) (kind : Nat) (acc : Acc) : Prop := ∀ s b ready oks s1, Ready s i b ready → b.passing i ≠ [] →
      s.atIssue.askAll (b.taking i) (fun _ x => ⟨f.space, acc, address f false f.off.toInt 128 b x, 1, 1, 0, false, f.hint.toNat⟩) (b.passing i) = .done [] oks s1 →
      let lines (ps : List Part) : List Part := ps.filter fun p => p.home == .dev && p.cached
      let some_ := oks.filter fun o => !(lines o.2.2).isEmpty
      ∃ t : State, exec i s = .next (t.finish b ready (b.eachNext i fun _ x => x)) ∧ t.mem = s1.mem ∧ t.clusters = s1.clusters ∧
        (some_ = [] → t = s1) ∧
        (some_ ≠ [] → ∃ (e : Entry) (sk : Skein), t.skein b.g.key b.k = some sk ∧ sk.slots = b.sk.slots ∧ sk.record = b.sk.record ++ [e] ∧
          sk.l = b.sk.l ∧ sk.s = b.sk.s ∧ sk.ackc = b.sk.ackc ∧ e.kind = kind ∧ e.acked = true ∧
          e.ops = some_.map fun o => .new o.1 o.2.1.uid 0 (address f false f.off.toInt 128 b o.2.1) (lines o.2.2) 0 0)
   (∀ f, acts (.cacheCwb f) f 8 .cwb) ∧ (∀ f, acts (.cacheCinv f) f 9 .cinv))

/-- spec/09 R250, R251, spec/05 R129, R133, R135: a FENCE issues when what its fibres sent before is performed as far as its scope needs it,
and at system scope when every write is acknowledged; at device scope and wider a release leaves no dirty byte in the cluster's cache and an
acquire no clean line, and from cluster scope on the same holds of a stake core's own cache.  WAITC issues when the counters are at or below
its limits, and else the batch waits.  That an acquire at system scope waits for acknowledgements too is the reading of notes/assumptions/123. -/
def Obligations.FencesAndCounterWaits : Prop :=
  (∀ (f : SF) s b ready, Ready s (.fence f) b ready → b.passing (.fence f) ≠ [] →
    let acq := f.sub.toNat.testBit 0
    let rel := f.sub.toNat.testBit 1
    let scope := f.imm.toNat % 8
    let complete (o : SlotOp) : Prop := o.stage = .done ∨ ∃ c, o.stage = .failed c
    (∀ p ∈ b.passing (.fence f), ∀ e ∈ b.sk.record, ∀ o ∈ e.ops, o.uid = p.2.uid →
      (acq = true → e.kind ∈ [1, 2, 5, 6] → complete o) ∧
      (rel = true → (e.kind ∈ [1, 2, 5, 6] → complete o) ∧ (e.kind ∈ [3, 4, 7, 8, 9, 12] → o.stage ≠ .sent ∨
        e.kind ∈ [3, 4, 7] ∧ (o.near = true ∧ scope ≤ 3 ∨ (∃ p ∈ o.parts, p.port = true) ∧ scope < 5)))) →
    (scope = 5 → b.sk.ackc = 0) → (rel = true → s.releaseHeld b.g.via scope = false) →
    ∃ t : State, exec (.fence f) s = .next (t.finish b ready (b.eachNext (.fence f) fun _ x => x)) ∧ t.gangs = s.gangs ∧ t.ctxs = s.ctxs ∧ t.tags = s.tags ∧
      (scope < 3 ∨ scope < 4 ∧ b.g.kind ≠ .stake → t.mem = s.mem ∧ t.clusters = s.clusters) ∧
      (4 ≤ scope → rel = true → ((s.cluster b.g.cluster).cache.map fun y => (y.line, y.world)).Nodup →
        ∀ y ∈ (t.cluster b.g.cluster).cache, true ∉ y.dirty) ∧
      (4 ≤ scope → acq = true → ∀ y ∈ (t.cluster b.g.cluster).cache, true ∈ y.dirty) ∧
      (3 ≤ scope → b.g.kind = .stake → rel = true → ∀ y ∈ (t.core b.g.coreNo).cache, true ∉ y.dirty) ∧
      (3 ≤ scope → b.g.kind = .stake → acq = true → (t.core b.g.coreNo).cache = [])) ∧
  (∀ (f : WaitcF) s b ready, Ready s (.waitc f) b ready → b.passing (.waitc f) ≠ [] →
    let met : Prop := b.sk.l ≤ f.l.toNat ∧ b.sk.s ≤ f.s.toNat ∧ b.sk.c ≤ f.c.toNat ∧ b.sk.t ≤ f.t.toNat
    (met → ∃ t : State, exec (.waitc f) s = .next (t.finish b ready (b.eachNext (.waitc f) fun _ x => x)) ∧ t.gangs = s.gangs ∧
      (b.g.kind ≠ .stake → t = s.atIssue) ∧ (b.g.kind = .stake → (t.core b.g.coreNo).cache = [])) ∧
    (¬ met → (∀ e ∈ b.sk.record, ∀ o ∈ e.ops, ∀ c, o.stage ≠ .failed c) → exec (.waitc f) s = .next (s.atIssue.holdBatch b .waitc)))

/-- The condition of a monitor on the memory value m and the expected value e (spec/09 R253). -/
def Sys2Proof.Says.condition (code : Nat) (w : Nat) (m e : BitVec w) : Bool :=
  match code with | 0 => m == e | 1 => m != e | 2 => m.slt e | 3 => e.sle m | 4 => m.ult e | _ => e.ule m

/-- spec/09 R253, R254: a fibre at MWAIT goes on when its condition holds at an acquire read and else parks with its monitor noted; MTEST
outside deterministic mode writes the predicate. -/
def Obligations.MonitorsWaitAndTest : Prop :=
  ∀ (f : SF) (test : Bool) s b ready t x x' ps v s1 s2,
    let i : Instr := if test then .mtest f else .mwait f
    let n := if f.imm.toNat.testBit 3 then 8 else 4
    let scratch := f.imm.toNat.testBit 4
    let scope := if scratch then min 3 (f.imm.toNat % 8) else f.imm.toNat % 8
    let holds := condition (f.sub.toNat % 8) (8 * n) (BitVec.ofNat _ v) (BitVec.ofNat _ (x.rdVal f.sb.toNat (n / 4)))
    Ready s i b ready → b.passing i = [(t, x)] → (test = true → b.g.det = false) →
    s.atIssue.askAll (b.taking i) (fun _ y => ⟨if scratch then .scratch else .global, .load, y.pair f.sa.toNat, n, 1, 0, false, 0⟩)
      [(t, { x with waive := true })] = .done [] [(t, x', ps)] s1 →
    ps ≠ [] → (∀ p ∈ ps, p.port = false) → (∀ e ∈ b.sk.record, ∀ o ∈ e.ops, o.uid ≠ x.uid) →
    s1.monRead b.g scope ps = .ok (v, s2) → v < 256 ^ n →
    (test = true → exec i s = .next (s2.finish b ready [(t, .next (x.wrPred (f.dst.toNat % 16) (if holds then .true_ else .false_)))])) ∧
    (test = false → holds = true → exec i s = .next (s2.finish b ready [(t, .next x)])) ∧
    (test = false → holds = false → ∃ (u : State) (e : Entry) (sk : Skein),
      exec i s = .next (u.finish b ready [(t, .stay { x with wait := .mwait })]) ∧ u.mem = s2.mem ∧ u.clusters = s2.clusters ∧
        u.skein b.g.key b.k = some sk ∧ sk.slots = b.sk.slots ∧ sk.record = b.sk.record ++ [e] ∧ e.kind = 0x0B ∧ e.acquire = true ∧
        e.scope = scope ∧ e.size = n ∧ e.aop = f.sub.toNat % 8 ∧
        e.ops = [.new t x.uid (f.dst.toNat % 16) (x.pair f.sa.toNat) ps (x.rdVal f.sb.toNat (n / 4)) 0])

/-- spec/09 R256 to R259: RWRITE notes its deposits and raises S; ARRWAIT with enough arrivals takes them; QPUSH appends its values and QPOP
takes the oldest, each in one step. -/
def Obligations.DepositsArrivalsAndFifoBanks : Prop :=
  (∀ (f : SF) s b ready low (h : Gang) n, Ready s (.rwrite f) b ready → b.passing (.rwrite f) ≠ [] → b.all.head?.map (·.2) = some low →
    let tgt := (low.rd f.sb.toNat).toNat
    s.depositTarget b.g (tgt % 16) = some (h, n) → tgt < 512 → tgt / 16 < h.skeins.length → tgt % 16 ≠ b.g.core → b.sk.s < 63 →
    ∃ (t : State) (e : Entry) (sk : Skein), exec (.rwrite f) s = .next (t.finish b ready (b.eachNext (.rwrite f) fun _ x => x)) ∧
      t.skein b.g.key b.k = some sk ∧ sk.slots = b.sk.slots ∧ sk.record = b.sk.record ++ [e] ∧ sk.s = b.sk.s + 1 ∧ sk.ackc = b.sk.ackc ∧
      e.kind = 0x0C ∧ e.aux = h.key ∧ e.aop = tgt / 16 ∧ e.dst = f.imm.toNat % 256 ∧ e.size = f.imm.toNat / 256 % 4 ∧
      e.release = f.imm.toNat.testBit 10 ∧ e.ops.map (fun o => (o.slot, o.uid, o.data)) =
        (b.passing (.rwrite f)).map (fun p => (p.1, p.2.uid, (p.2.rd f.sa.toNat).toNat)) ∧ t.mem = s.mem ∧ t.clusters = s.clusters) ∧
  (∀ (f : SF) s b ready, Ready s (.arrwait f) b ready → b.passing (.arrwait f) ≠ [] → b.sk.arrq = [] →
    let k := f.sub.toNat % 4
    let n := f.imm.toNat
    n ≤ b.sk.arrive.getD k 0 → k < b.sk.arrive.length →
    ∃ (t : State) (sk : Skein), exec (.arrwait f) s = .next (t.finish b ready (b.eachNext (.arrwait f) fun _ x => x)) ∧
      t.skein b.g.key b.k = some sk ∧ sk.arrive = b.sk.arrive.set k (b.sk.arrive.getD k 0 - n) ∧ sk.slots = b.sk.slots ∧
      sk.record = b.sk.record ∧ (b.g.kind ≠ .stake → t.mem = s.mem ∧ t.clusters = s.clusters)) ∧
  (∀ (f : SF) s b ready, Ready s (.qpush f) b ready → b.passing (.qpush f) ≠ [] →
    let n := f.imm.toNat % 64
    let bank := (s.cluster b.g.cluster).bank n
    bank.mode = .fifo → bank.world = s.worldOf b.g → bank.waiters = [] → (b.g.det = true → ∀ k ∈ bank.producers, k = b.g.key) →
    bank.entries.length + (b.passing (.qpush f)).length ≤ 65536 →
    (∀ p ∈ b.passing (.qpush f), b.sk.settled b.sk.nextSeq p.2.uid = true) →
    ∃ t : State, exec (.qpush f) s = .next (t.finish b ready (b.eachNext (.qpush f) fun _ x => x)) ∧ t.gangs = s.gangs ∧
      (b.g.kind ≠ .stake → t.mem = s.mem) ∧ ((t.cluster b.g.cluster).bank n).entries = bank.entries ++ (b.passing (.qpush f)).map (fun p => p.2.rd f.sa.toNat) ∧
      b.g.key ∈ ((t.cluster b.g.cluster).bank n).producers ∧ (t.cluster b.g.cluster).scratch = (s.cluster b.g.cluster).scratch) ∧
  (∀ (f : SF) s b ready, Ready s (.qpop f) b ready → b.passing (.qpop f) ≠ [] →
    let n := f.imm.toNat % 64
    let bank := (s.cluster b.g.cluster).bank n
    let xs := b.passing (.qpop f)
    bank.mode = .fifo → bank.world = s.worldOf b.g → bank.waiters = [] → xs.length ≤ bank.entries.length →
    ∃ t : State, exec (.qpop f) s = .next (t.finish b ready ((xs.zip bank.entries).map fun q => (q.1.1, .next (q.1.2.wr f.dst.toNat q.2)))) ∧
      t.gangs = s.gangs ∧ (b.g.kind ≠ .stake → t.mem = s.mem) ∧ ((t.cluster b.g.cluster).bank n).entries = bank.entries.drop xs.length ∧
      ((t.cluster b.g.cluster).bank n).producers = bank.producers)

/-! ## State registers, counters, banks -/

/-- spec/03 R67, R71, spec/08 R230: what GETS reads of each register, outside deterministic mode. -/
def Obligations.StateRegistersRead : Prop :=
  let reads (sel k : Nat) (v : State → Batch → Nat → Fibre → Nat) : Prop :=
    ∀ f s b ready, Ready s (.gets f) b ready → b.g.det = false → f.imm.toNat % 256 = sel →
      exec (.gets f) s = .next (s.atIssue.finish b ready (b.eachNext (.gets f) fun t x => x.wrVal f.dst.toNat k (v s b t x)))
  let grid (s : State) (b : Batch) (f : Grid → Nat) : Nat := ((s.grid b.g.grid).map f).getD 0
  -- read as zero on a handle-core thread
  let fib (sel k : Nat) (v : State → Batch → Nat → Fibre → Nat) : Prop := reads sel k fun s b t x => if b.g.kind = .handle then 0 else v s b t x
  reads 0x00 1 (fun _ b t _ => if b.g.kind = .handle then b.g.core else b.k * b.sk.width + t) ∧
  fib 0x01 1 (fun _ b _ _ => b.k) ∧ fib 0x02 1 (fun _ b _ _ => b.g.gangid) ∧
  fib 0x03 2 (fun s b _ _ => grid s b fun r =>
    let gx := max r.desc.gx 1
    let gy := max r.desc.gy 1
    b.g.spanid % gx % 2 ^ 24 + 2 ^ 24 * (b.g.spanid / gx % gy % 2 ^ 24) + 2 ^ 48 * (b.g.spanid / (gx * gy) % 2 ^ 16)) ∧
  fib 0x04 1 (fun s b _ _ => grid s b fun r => r.gridid.toNat) ∧
  reads 0x05 1 (fun _ b t _ => t % (if b.g.kind = .stake then 32 else 16)) ∧
  reads 0x06 1 (fun _ b _ _ => match b.g.kind with
    | .handle => b.g.cluster
    | _ => if b.g.core < 12 then 12 * b.g.cluster + b.g.core else 384 + 4 * b.g.cluster + (b.g.core - 12)) ∧
  reads 0x07 1 (fun _ b _ _ => b.g.cluster) ∧
  reads 0x08 1 (fun _ b _ _ => match b.g.kind with | .rand => 0 | .stake => 1 | .handle => 2) ∧
  reads 0x10 1 (fun _ b _ x => 8 * b.sk.block + x.wshift) ∧ reads 0x11 1 (fun _ _ _ x => x.regs.length - x.wshift) ∧
  reads 0x18 1 (fun _ _ _ x => x.rmode) ∧ reads 0x19 1 (fun _ _ _ x => x.fmode) ∧ reads 0x1A 1 (fun _ _ _ x => x.srseed.toNat) ∧
  fib 0x20 1 (fun _ _ _ x => x.pidx.toNat) ∧ fib 0x21 2 (fun _ _ _ x => x.amask.toNat) ∧ fib 0x22 2 (fun _ _ _ x => x.fmask.toNat) ∧
  fib 0x23 1 (fun _ _ _ x => x.fcode.toNat) ∧ fib 0x24 2 (fun _ _ _ x => x.fpc.toNat) ∧ fib 0x25 2 (fun _ _ _ x => x.gpc.toNat) ∧
  fib 0x26 1 (fun _ _ _ x => x.eqid.toNat) ∧ fib 0x27 1 (fun _ _ _ x => x.iopx) ∧ fib 0x28 2 (fun _ _ _ x => x.faddr.toNat) ∧
  fib 0x29 1 (fun _ b _ _ => b.sk.l % 64 + 2 ^ 6 * (b.sk.s % 64) + 2 ^ 12 * (b.sk.c % 16) + 2 ^ 16 * (b.sk.t % 16) + 2 ^ 20 * (b.sk.ackc % 1024)) ∧
  fib 0x2A 1 (fun _ b _ _ => b.sk.arrive.getD 0 0) ∧ fib 0x2B 1 (fun _ b _ _ => b.sk.arrive.getD 1 0) ∧
  fib 0x2C 1 (fun _ b _ _ => b.sk.arrive.getD 2 0) ∧ fib 0x2D 1 (fun _ b _ _ => b.sk.arrive.getD 3 0) ∧
  reads 0x30 2 (fun _ b _ _ => b.g.csn) ∧ reads 0x31 2 (fun _ b _ _ => b.g.hcpc.toNat) ∧ reads 0x38 1 (fun _ b _ _ => b.g.lbase) ∧
  reads 0x39 2 (fun s b _ _ => grid s b fun r => r.stepcnt) ∧ reads 0x3A 1 (fun s b _ _ => s.worldOf b.g) ∧
  reads 0x3B 1 (fun _ _ _ x => x.pers) ∧ reads 0x3C 2 (fun s b _ _ => s.clock - (s.part (s.partOfCluster b.g.cluster)).clock0) ∧
  reads 0x3D 2 (fun s b _ _ => s.featvecOf b.g)

/-- spec/03 R68 to R70, spec/08 R230: what SETS writes: modes at once, or at the next guest boundary inside a template; FPC and GPC at once; LBASE of
the gang, from the batch's lowest fibre, with its low three bits zero. -/
def Obligations.StateRegistersWritten : Prop :=
  let sets (sel k : Nat) (g : Nat → Fibre → Fibre) : Prop :=
    ∀ f s b ready, Ready s (.sets f) b ready → f.imm.toNat % 256 = sel →
      exec (.sets f) s = .next (s.atIssue.finish b ready (b.eachNext (.sets f) fun _ x => g (x.rdVal f.sa.toNat k) x))
  let mode (sel : Nat) (g : Nat → Fibre → Fibre) : Prop := sets sel 1 fun v x => if x.inTemplate then { x with pend := x.pend ++ [(sel, v)] } else g v x
  mode 0x18 (fun v x => { x with rmode := if v % 8 = 7 then 0 else v % 8 }) ∧ mode 0x19 (fun v x => { x with fmode := v % 64 }) ∧
  mode 0x1A (fun v x => { x with srseed := BitVec.ofNat 32 v }) ∧
  sets 0x24 2 (fun v x => { x with fpc := BitVec.ofNat 64 v }) ∧ sets 0x25 2 (fun v x => { x with gpc := BitVec.ofNat 64 v }) ∧
  (∀ f s b ready p, Ready s (.sets f) b ready → f.imm.toNat % 256 = 0x38 → b.passing (.sets f) ≠ [] → b.all.head? = some p →
    exec (.sets f) s = .next ((s.atIssue.modGang b.g.key fun g => { g with lbase := (Prod.snd p |>.rd f.sa.toNat).toNat / 8 * 8 }).finish b ready
      (b.eachNext (.sets f) fun _ x => x)))

/-- spec/09 R260, spec/15 R376 to R378: RDCTR of bank G, and of bank H, which only handle threads 0 and 1 may read; what an issue counts; and
that the slots of a step, with an issue or without, leave counters 1 to 13 of every view with the sum in counter 0. -/
def Obligations.CountersAreRead : Prop :=
  (∀ f s b ready, Ready s (.rdctr f) b ready → b.g.det = false →
    let n := f.imm.toNat % 256
    let core := s.core (match b.g.kind with
      | .handle => 512 + b.g.cluster
      | _ => if b.g.core < 12 then 12 * b.g.cluster + b.g.core else 384 + 4 * b.g.cluster + (b.g.core - 12))
    let v : Nat :=
      if f.imm.toNat.testBit 8 then (if b.g.kind = .handle ∧ b.g.core < 2 then (tget core.h n).getD 0 else 0)
      else if n = 26 ∨ n = 27 then 0
      else match core.g.find? fun p => p.1 == b.g.ctx with | some p => (tget (Prod.snd p) n).getD 0 | none => 0
    exec (.rdctr f) s = .next (s.atIssue.finish b ready (b.eachNext (.rdctr f) fun _ x => x.wrVal f.dst.toNat 2 v))) ∧
  (∀ (s : State) b passed faulted n, let u := s.countIssue b passed faulted
    let slots := beatsOf b.g.kind (b.all.map (·.1))
    ((s.core n).slotsAgree → (u.core n).slotsAgree) ∧ (n ≠ b.g.coreNo → u.core n = s.core n) ∧
    ∀ k, let moved : Option Nat := if k = 0 ∨ (k = 1 ∧ passed ≠ 0) ∨ (k = 2 ∧ passed = 0) then some slots else if k = 16 then some 1
        else if k = 17 then some (passed - faulted) else none
      counterIn (u.core b.g.coreNo).h k = match moved with
        | some v => (counterIn (s.core b.g.coreNo).h k + v) % 2 ^ 64
        | none => counterIn (s.core b.g.coreNo).h k) ∧
  (∀ (s : State) n, (s.core n).slotsAgree → (s.tick.core n).slotsAgree)

/-- spec/09 R261, spec/05 R112 to R114, spec/13 R341: BANKCFG's result word, with the cause of a refusal, and the bank afterwards; while the
bank holds dirty lines of the cluster cache, `PIDX` counts those written back. -/
def Obligations.BankModesChange : Prop :=
  ∀ (f : SF) s b ready, Ready s (.bankcfg f) b ready → b.passing (.bankcfg f) ≠ [] →
    let c := b.g.cluster
    let w := s.worldOf b.g
    let n := f.imm.toNat % 64
    let k := s.cluster c
    let bank := k.bank n
    let mode : BankMode := match f.imm.toNat / 64 % 4 with | 0 => .cache | 1 => .scratch | _ => .fifo
    let code (m : BankMode) : Nat := match m with | .cache => 0 | .scratch => 1 | .fifo => 2
    let held (m : BankMode) : Nat := (k.banks.filter fun p => p.2.mode == m && p.2.world == w).length
    let other : Nat := (k.banks.filter fun p => p.2.mode != .cache).length
    let limit : Nat := match mode with
      | .cache => 64 | .scratch => (s.world w).banklim.toNat % 128 | .fifo => (s.world w).banklim.toNat / 256 % 128
    let status : Nat :=
      if (bank.mode != .cache && bank.world != w) = true then 1
      else if (bank.mode == mode) = true then 0
      else if bank.foot.isSome = true then 2
      else if (bank.mode == .fifo && (!bank.producers.isEmpty || bank.waiters.any fun x => x.2.2)) = true then 3
      else if (mode != .cache && decide (limit ≤ held mode)) = true then 4
      else if (bank.mode == .cache && mode != .cache && decide (56 ≤ other)) = true then 5
      else 0
    let changes : Prop := status = 0 ∧ bank.mode ≠ mode
    (∀ y, changes → s.bankQuiet c n = true → bank.mode = .cache → s.bankDirty c n = some y → s.lineStuck y = false →
      ∃ u : State, exec (.bankcfg f) s = .next u ∧ ((u.cluster c).bank n).mode = .cache ∧
        ∀ p ∈ b.passing (.bankcfg f), ∃ z, u.fibreAt b.g.key b.k p.1 = some z ∧ z.pc = p.2.pc ∧ z.pidx = p.2.pidx + 1 ∧ z.regs = p.2.regs) ∧
    ((changes → s.bankQuiet c n = true ∧ (bank.mode = .cache → s.bankDirty c n = none)) →
    ∃ t : State, exec (.bankcfg f) s = .next (t.finish b ready (b.eachNext (.bankcfg f) fun _ x =>
        x.wr f.dst.toNat (BitVec.ofNat 32 (status + 256 * code bank.mode + 1024 * n)))) ∧
      t.gangs = s.gangs ∧ t.ctxs = s.ctxs ∧
      (changes → ((t.cluster c).bank n).mode = mode ∧ (mode ≠ .cache → ((t.cluster c).bank n).world = w) ∧
        ∀ a, n * 2 ^ 18 ≤ a → a < (n + 1) * 2 ^ 18 → (t.cluster c).scratch.read a = 0) ∧
      (¬ changes → ((t.cluster c).bank n).mode = bank.mode ∧ ((t.cluster c).bank n).entries = bank.entries ∧
        (t.cluster c).scratch = (s.cluster c).scratch ∧ t.mem = s.mem))

/-! ## Exceptions, emulation, and what firmware does -/

/-- spec/08 R231: TRAP and BKPT raise their exception in every passing fibre, with the immediate as the faulting address. -/
def Obligations.TrapsAndBreakpointsFault : Prop :=
  (∀ f, Outcome (.trap f) fun _ _ _ => .trap (f.imm.zeroExtend 64)) ∧ (∀ f, Outcome (.bkpt f) fun _ _ _ => .fault .bkpt (f.imm.zeroExtend 64))

/-- spec/19 R417: what taking an exception writes in each faulting fibre, where the world has a handler and no fibre of the skein is in one;
every other fibre and every other gang stay. -/
def Obligations.ExceptionEntry : Prop :=
  ∀ (s : State) (key k : Nat) (g : Gang) (sk : Skein) (am : Mask) (rs : List Raised),
    s.gang key = some g → g.skeins[k]? = some sk → g.kind ≠ .handle → (s.world (s.worldOf g)).fhvec ≠ 0 → (∀ p ∈ sk.live, p.2.parked = false) →
    rs ≠ [] → (rs.map (·.slot)).Nodup → (∀ r ∈ rs, (sk.fibre r.slot).isSome = true) →
    (∀ r ∈ rs, ∀ x, sk.fibre r.slot = some x → ∃ y, (s.takeFaults key k am rs).fibreAt key k r.slot = some y ∧
      y.fcode = BitVec.ofNat 32 (faultNum r.code) ∧ y.faddr = r.addr ∧ y.amask = am ∧ y.fmask = maskOf (rs.map (·.slot)) ∧
      y.pc = (s.world (s.worldOf g)).fhvec ∧ y.pass = 0 ∧ y.parked = true ∧ y.iopx = x.iopx ∧
      -- canonical code: the faulting word, or after a TRAP the next one; guest code: the guest instruction, past it for a TRAP
      (x.pers = 0 ∨ x.emul = true → y.gpc = x.gpc ∧ y.fpc = (if r.trap then x.pc + 8 else x.pc)) ∧
      (x.pers ≠ 0 → x.emul = false → ∀ e, x.expansion = some e → x.inTemplate = true → sk.fibre (rs.head?.map (·.slot) |>.getD 0) = some x →
        y.gpc = (if r.trap then x.gpc + BitVec.ofNat 64 e.len else x.gpc) ∧ y.fpc = y.gpc * BitVec.ofNat 64 e.unit) ∧
      y.regs = x.regs ∧ y.e = x.e ∧ y.wshift = x.wshift ∧ y.pers = x.pers ∧ y.rmode = x.rmode ∧ y.fmode = x.fmode ∧ y.srseed = x.srseed ∧
      y.uid = x.uid ∧ y.eqid = x.eqid ∧ y.emul = x.emul) ∧
    (∀ t, t ∉ rs.map (·.slot) → (s.takeFaults key k am rs).fibreAt key k t = s.fibreAt key k t) ∧
    (∀ key' k', key' ≠ key ∨ k' ≠ k → (s.takeFaults key k am rs).skein key' k' = s.skein key' k')

/-- spec/08 R232, R233, spec/13 R341: ERET in a handler and EMRET in an emulation routine resume as they say; elsewhere they fault ILLEGAL_OP without
effect (EMRET in a handler: notes/assumptions/19). -/
def Obligations.ReturnsFromHandlersAndEmulation : Prop :=
  let toGuest (x : Fibre) (unit : Nat) (t : W64) : Fibre := { x.applyPend with gpc := t, pc := t * BitVec.ofNat 64 unit, iopx := 0, expansion := none }
  (∀ (f : SF) s b ready, Ready s (.eret f) b ready → (∀ p ∈ b.passing (.eret f), p.2.parked = true) →
    exec (.eret f) s = .next (s.atIssue.finish b ready (b.eachOut (.eret f) fun _ x =>
      -- `PIDX` stays where the fibre goes back to the instruction that it counts for
      let back (t : W64) : Fibre := { x with parked := false, pidx := if t = x.longPc then x.pidx else 0 }
      let unit := s.unitOf b.g.cluster x
      if x.pers ≠ 0 ∧ x.emul = false then .stay (toGuest (back (x.gpc * BitVec.ofNat 64 unit)) unit x.gpc)
      else if x.fpc.toNat % 8 ≠ 0 then .fault .align x.fpc
      else .stay { back x.fpc with pc := x.fpc }))) ∧
  (∀ (f : SF) s b ready, Ready s (.eret f) b ready → (∃ p ∈ b.passing (.eret f), p.2.parked = false) →
    exec (.eret f) s = .next (s.atIssue.finish b ready (b.eachOut (.eret f) fun _ _ => .fault .illegalOp 0))) ∧
  (∀ (f : SF) s b ready, Ready s (.emret f) b ready → (∀ p ∈ b.passing (.emret f), p.2.emul = true ∧ p.2.parked = false) →
    exec (.emret f) s = .next (s.atIssue.finish b ready (b.eachOut (.emret f) fun _ x =>
      let unit := s.unitOf b.g.cluster x
      let parcels := if f.imm = 0 then x.fglen else if f.imm = 0xFFFF then 0 else f.imm.toNat
      if 2 * parcels % unit = 0 then .stay (toGuest { x with emul := false } unit (x.gpc + BitVec.ofNat 64 (2 * parcels / unit)))
      else .fault .align 0))) ∧
  (∀ (f : SF) s b ready, Ready s (.emret f) b ready → (∃ p ∈ b.passing (.emret f), p.2.emul = false ∨ p.2.parked = true) →
    exec (.emret f) s = .next (s.atIssue.finish b ready (b.eachOut (.emret f) fun _ _ => .fault .illegalOp 0)))

/-- spec/08 R234, R236: YIELD changes at most whether its skein is in the active set; CKPT asks for a checkpoint: from a fibre at the grid's
next step, unless checkpoints are off or one is in progress. -/
def Obligations.YieldAndCheckpointRequests : Prop :=
  (∀ (f : SF) s b ready, Ready s (.yield f) b ready → ∃ t : State, exec (.yield f) s = .next (t.finish b ready (b.eachNext (.yield f) fun _ x => x)) ∧
    (t = s.atIssue ∨ t = s.atIssue.modSkein b.g.key b.k fun sk => { sk with active := false })) ∧
  (∀ (f : SF) s b ready, Ready s (.ckpt f) b ready → b.passing (.ckpt f) ≠ [] →
    let p := s.partOfCluster b.g.cluster
    let c := (s.part p).ckpt
    let on := (s.part p).ckptcfg.toNat.testBit 63
    ((on = false ∨ c.phase = 1 ∨ c.phase = 2) → exec (.ckpt f) s = .next (s.atIssue.finish b ready (b.eachNext (.ckpt f) fun _ x => x))) ∧
    (on = true → c.phase ≠ 1 → c.phase ≠ 2 → b.g.kind ≠ .handle → ∃ t : State,
      exec (.ckpt f) s = .next (t.finish b ready (b.eachNext (.ckpt f) fun _ x => x)) ∧ b.g.grid ∈ (t.part p).ckpt.wants ∧
        (t.part p).ckpt.phase = c.phase ∧ t.gangs = s.gangs ∧ t.mem = s.mem) ∧
    (on = true → c.phase ≠ 1 → c.phase ≠ 2 → b.g.kind = .handle → (s.part p).ckpttgt.toNat / 2 ^ 62 % 4 ∈ [1, 2] → ∃ t : State,
      exec (.ckpt f) s = .next (t.finish b ready (b.eachNext (.ckpt f) fun _ x => x)) ∧ (t.part p).ckpt.phase = 1 ∧ t.gangs = s.gangs ∧ t.mem = s.mem))

/-- spec/08 R237 to R239, spec/13 R341: WVLOAD's statuses, its units of 256 bytes, which `PIDX` counts, and the table of a load that passes
every check; WVBIND's binding; SWAPCTX's checks of its areas, the units it does, and a swap that ends.  The size
of a unit of SWAPCTX is the model's reading (notes/assumptions/44). -/
def Obligations.FirmwareLoadsBindsAndSwaps : Prop :=
  (∀ (f : SF) s b ready t x, Ready s (.wvload f) b ready → b.passing (.wvload f) = [(t, x)] →
    let id := f.imm.toNat % 16
    let c := b.g.cluster
    let a := (x.pair f.sa.toNat).toNat
    let n := b.g.unitsRead x
    let cleared (u : State) : State := u.modGang b.g.key fun g => { g with work := ⟨[], none, false⟩ }
    let answers (v : Nat) (u : State) : Prop :=
      exec (.wvload f) s = .next ((cleared u).finish b ready [(t, .next (x.wr f.dst.toNat (BitVec.ofNat 32 v)))])
    let locked : Bool := (s.part (s.partOfCluster c)).dutycfg.toNat.testBit 3
    (id = 0 → answers 1 s.atIssue) ∧
    (id ≠ 0 → n = 0 → locked = true → answers 2 s.atIssue) ∧
    (∀ q a' s1, id ≠ 0 → (n = 0 → locked = false) → s.atIssue.readUnit b.g a n = .fault q a' s1 →
      exec (.wvload f) s = .next (s1.finish b ready [(t, .fault q a')])) ∧
    (∀ u s1, id ≠ 0 → (n = 0 → locked = false) → s.atIssue.readUnit b.g a n = .ok u s1 →
      let bs := (if n = 0 then [] else b.g.work.bytes) ++ u
      let good : Bool := headerOk bs id (((tget (s.cluster c).weave id).map (·.gen)).getD 0)
      let long := fieldAt bs 0x1C 4
      (n = 0 → good = false → answers 3 s1) ∧
      ((n = 0 → good = true) → 256 * (n + 1) < long → ∃ (v : State) (g : Gang) (y : Fibre), exec (.wvload f) s = .next v ∧
        v.gang b.g.key = some g ∧ g.work.bytes = bs ∧ v.fibreAt b.g.key b.k t = some y ∧ y.pc = x.pc ∧ y.regs = x.regs ∧
        y.pidx = BitVec.ofNat 32 (n + 1) ∧ v.clusters = s1.clusters) ∧
      ((n = 0 → good = true) → long ≤ 256 * (n + 1) →
        (s1.tableStatus c id bs ≠ 0 → answers (s1.tableStatus c id bs) s1) ∧
        (s1.tableStatus c id bs = 0 → ∃ v : State, answers (fieldAt bs 0x18 2 * 2 ^ 16) v ∧
          tget (v.cluster c).weave id = some ⟨fieldAt bs 0x18 4, bs⟩ ∧ (∀ l ∈ (v.cluster c).doc, l.pers ≠ id) ∧ v.gangs = s.gangs)))) ∧
  (∀ (f : SF) s b ready t x, Ready s (.wvbind f) b ready → b.passing (.wvbind f) = [(t, x)] → ∃ u : State,
    exec (.wvbind f) s = .next (u.finish b ready [(t, .next x)]) ∧
    (∀ q, q ∈ (u.cluster b.g.cluster).bindings ↔ q ∈ (s.cluster b.g.cluster).bindings ∨
      q = (f.imm.toNat % 16, (x.rd f.sa.toNat).toNat % 256)) ∧ u.gangs = s.gangs ∧ u.mem = s.mem) ∧
  (∀ (f : SF) s b ready t x, Ready s (.swapctx f) b ready → b.passing (.swapctx f) = [(t, x)] →
    let a := x.pair f.sa.toNat
    let c := x.pair f.sb.toNat
    let w := s.worldOf b.g
    let v : Access := ⟨b.g.ctx, w, s.featvecOf b.g, b.g.cluster, 5⟩
    let at_ := if b.g.work.swap then x.pidx.toNat else 0
    let mark (on : Bool) (p : Nat) (u : State) : State :=
      (u.modGang b.g.key fun g => { g with work := { g.work with swap := on } }).modSkein b.g.key b.k fun sk =>
        sk.mapFibres fun _ y => { y with pidx := BitVec.ofNat 32 p }
    let ends (st : Nat) (u : State) : Prop :=
      exec (.swapctx f) s = .next ((mark false 0 u).finish b ready [(t, .next (x.wr f.dst.toNat (BitVec.ofNat 32 st)))])
    (b.g.work.swap = false → c.toNat % 4096 ≠ 0 ∨ a.toNat % 4096 ≠ 0 → ends 2 s.atIssue) ∧
    (∀ bs u, b.g.work.swap = false → c.toNat % 4096 = 0 → a = 0 → s.atIssue.agentRead v c.toNat 256 = .ok bs u →
      let h := AreaHeader.ofBytes bs
      (h.world ≠ w → ends 1 u) ∧ (h.world = w → h.shaped = false → ends 2 u) ∧
      (h.world = w → h.shaped = true → u.portable w h = true → h.state ≠ 1 → ends 3 u)) ∧
    (∀ st u, s.atIssue.swapStep v a c (at_ / 2 ^ 30) (at_ % 2 ^ 30) = .ended st u → ends st u) ∧
    (∀ p n u, s.atIssue.swapStep v a c (at_ / 2 ^ 30) (at_ % 2 ^ 30) = .going p n u →
      exec (.swapctx f) s = .next (mark true (2 ^ 30 * p + n) u).clearTried))

/-! ## Tile operations, copies, events, launches -/

namespace Sys2Proof.Says

/-- The number of a core (spec/01 R13). -/
def coreNo (g : Gang) : Nat := if g.core < 12 then 12 * g.cluster + g.core else 384 + 4 * g.cluster + (g.core - 12)

/-- The quarters of eight slots that have passing fibres: the quarter, its leader, its fibres (spec/10 R262). -/
def quarters (run : List (Nat × Fibre)) : List (Nat × Fibre × List (Nat × Fibre)) :=
  (List.range 8).filterMap fun q => match run.filter (fun p => p.1 / 8 == q) with
    | [] => none
    | p :: r => some (q, p.2, p :: r)

/-- Rows of a tile, and bytes of an element. -/
def tileRowCount (f : XF) : Nat := 8 * 2 ^ f.bits 14 13
def tileElement (f : XF) (w : Nat) : Nat := (if w / 2 ^ 8 % 16 = 1 then 8 else 4) * (if f.bits 9 9 = 1 then 2 else 1)

/-- n bytes of scratch from a on lie in scratch banks of the batch's world. -/
def inScratch (s : State) (b : Batch) (a n : Nat) : Prop :=
  ∀ i, a ≤ i → i < a + n → i < 2 ^ 24 ∧ s.bankOk b.g.cluster (s.worldOf b.g) (i / 2 ^ 18 * 2 ^ 18) = true

/-- A tile instruction enters one operation for each quarter, in order, into the core's tile queue (spec/10 R262, R269): where one legal
format word w stands in every passing fibre and each quarter's operation meets its conditions. -/
def EntersTiles (i : Instr) (f : XF) (kind : Nat) (legal : Nat → Bool)
    (fine : State → Batch → Nat → Fibre → List (Nat × Fibre) → Prop) (notes : Nat → Fibre → List (Nat × Fibre) → TileOp → Prop) : Prop :=
  ∀ s b ready w, Ready s i b ready → (∀ p ∈ b.passing i, (p.2.rd f.c.toNat).toNat = w) →
    w < 2 ^ 15 → w / 2 ^ 8 % 16 ≤ 1 → ((s.featvecOf b.g).testBit 2 = true ∨ w % 16 ≠ 6 ∧ w / 16 % 16 ≠ 6) → legal w = true →
    let qs := quarters (b.passing i)
    let queue := (s.core (coreNo b.g)).queue
    qs ≠ [] → b.sk.t + qs.length ≤ 15 → queue.length + qs.length ≤ 32 → (∀ q ∈ qs, fine s b w q.2.1 q.2.2) →
    ∃ (t : State) (sk : Skein) (es : List Entry),
      exec i s = .next (t.finish b ready (qs.flatMap fun q => q.2.2.map fun p => (p.1, .next p.2))) ∧
      t.skein b.g.key b.k = some sk ∧ sk.slots = b.sk.slots ∧ sk.record = b.sk.record ++ es ∧ sk.t = b.sk.t + qs.length ∧
      es.length = qs.length ∧
      (∀ (j : Nat) (q : Nat × Fibre × List (Nat × Fibre)) (e : Entry), qs[j]? = some q → es[j]? = some e → e.kind = kind ∧ e.ops.map (fun o => (o.slot, o.uid)) = q.2.2.map (fun p => (p.1, p.2.uid)) ∧
        ∃ o, e.tile = some o ∧ o.quarter = q.1 ∧ o.fmt = w ∧ notes w q.2.1 q.2.2 o) ∧
      (t.core (coreNo b.g)).queue = queue ++ es.map (fun e => .op ⟨b.g.key, b.k, e.seq⟩) ∧ t.mem = s.mem ∧ t.clusters = s.clusters

/-- The rows that a quarter's fibres own. -/
def ownRows (f : XF) (xs : List (Nat × Fibre)) : List Nat := xs.flatMap fun p => (List.range (2 ^ f.bits 14 13)).map fun j => p.1 % 8 * 2 ^ f.bits 14 13 + j

end Sys2Proof.Says

/-- spec/10 R262 to R269, R273 to R275: MMA, TZERO, TCVT, TGET and TSTR enter the tile queue. -/
def Obligations.TileOperationsEnter : Prop :=
  let acc (f : XF) (x : Fibre) : Nat := (x.rd f.a.toNat).toNat
  let size (f : XF) (w : Nat) : Nat := 16 * f.bits 20 15 * tileRowCount f * tileElement f w
  let place (f : XF) (x : Fibre) (o : TileOp) : Prop := o.acc = acc f x ∧ o.m = f.bits 14 13
  let only (w : Nat) : Bool := w % 256 == 0 && w / 2 ^ 12 % 8 == 0
  (∀ f, EntersTiles (.mma f) f 0x18 (fun w => (mmaShape w).isSome)
    (fun s b w x xs =>
      let kt := ((mmaShape w).map (·.1)).getD 0 * (f.bits 5 2 + 1)
      acc f x % 16 = 0 ∧ inScratch s b (acc f x) (size f w) ∧
      (∀ p ∈ xs, ∀ j < 2 ^ f.bits 14 13, (p.2.rd (f.b.toNat + j)).toNat % 16 = 0 ∧
        inScratch s b (p.2.rd (f.b.toNat + j)).toNat (packedBytes (w % 16) kt)) ∧
      ∃ y, (s.core (coreNo b.g)).slots[f.bits 8 6]? = some y ∧ y.holder = some b.g.key ∧ 16 * f.bits 20 15 * packedBytes (w / 16 % 16) kt ≤ y.len)
    (fun _ x xs o => place f x o ∧ o.n16 = f.bits 20 15 ∧ (o.nega = true ↔ f.bits 12 12 = 1) ∧ (o.negb = true ↔ f.bits 11 11 = 1) ∧
      (o.zc = true ↔ f.bits 10 10 = 1) ∧ (o.iv = true ↔ f.bits 9 9 = 1) ∧ o.slot = f.bits 8 6 ∧ o.kcnt = f.bits 5 2 + 1 ∧
      o.rows.map (·.1) = ownRows f xs ∧
      o.rows.map (·.2.1) = xs.flatMap fun p => (List.range (2 ^ f.bits 14 13)).map fun j => (p.2.rd (f.b.toNat + j)).toNat)) ∧
  (∀ f, EntersTiles (.tzero f) f 0x1A only (fun s b w x _ => acc f x % 16 = 0 ∧ inScratch s b (acc f x) (size f w))
    (fun _ x xs o => place f x o ∧ o.n16 = f.bits 20 15 ∧ (o.iv = true ↔ f.bits 9 9 = 1) ∧ o.rows.map (·.1) = ownRows f xs)) ∧
  (∀ f, EntersTiles (.tcvt f) f 0x1B (tcvtWord (f.bits 20 15))
    (fun s b w x xs =>
      let n := 16 * f.bits 20 15
      let code := (x.rd f.b.toNat).toNat
      let side := (x.rd (f.b.toNat + 1)).toNat
      let pitch := if w % 16 = 6 then n / 2 else n * codeBytes (w % 16)
      acc f x % 16 = 0 ∧ inScratch s b (acc f x) (n * tileRowCount f * (if w / 2 ^ 8 % 16 = 1 then 8 else 4)) ∧
      swizzleOk (f.bits 4 2) code pitch = true ∧
      (∀ r ∈ ownRows f xs, ∀ q ∈ swizzlePieces (f.bits 4 2) code pitch r 0 pitch, inScratch s b q.1 q.2) ∧
      (w % 16 = 6 → ∀ r ∈ ownRows f xs, inScratch s b (side + r * (n / 16)) (n / 16)))
    (fun _ x xs o => place f x o ∧ o.n16 = f.bits 20 15 ∧ o.p0 = (x.rd f.b.toNat).toNat ∧ o.p1 = (x.rd (f.b.toNat + 1)).toNat ∧
      o.p2 = f.bits 4 2 ∧ o.rows.map (·.1) = ownRows f xs)) ∧
  (let moves (i : Instr) (f : XF) (kind : Nat) (src : Bool) : Prop := EntersTiles i f kind only
      (fun s b w x xs => acc f x % 16 = 0 ∧
        inScratch s b (acc f x + f.bits 20 15 * (tileRowCount f * 16 * tileElement f w)) (tileRowCount f * 16 * tileElement f w) ∧
        ∀ p ∈ xs, spanFits (spanGroup f src p.2) b.g.kind p.2 = true)
      (fun _ x xs o => place f x o ∧ o.p1 = f.bits 20 15 ∧ o.p2 = f.bits 5 2 + 1 ∧ o.rows.map (·.1) = ownRows f xs ∧
        (src = true → o.regs = xs.map fun p => (p.1, p.2.rdGroup f.b.toNat (spanGroup f src p.2).n)))
   (∀ f, moves (.tget f) f 0x1C false) ∧ (∀ f, moves (.tstr f) f 0x1D true))

/-- spec/10 R265, R270, R271: LDSTAT holds its slot from its issue on and enters the tile queue; STATREL empties the slot at once and enters it
too. -/
def Obligations.StationarySlotsLoadAndRelease : Prop :=
  (∀ (f : XF) s b ready t x, Ready s (.ldstat f) b ready → (b.passing (.ldstat f)).head? = some (t, x) →
    let n := (f.bits 20 15 + 1) * 1024
    let sealed_ : Bool := f.bits 9 9 == 1
    let src := (x.rd f.a.toNat).toNat
    let g : W64 := if sealed_ then x.pair f.b.toNat else 0
    let core := s.core (coreNo b.g)
    core.slots.length = 4 → f.bits 8 6 < 4 → (∀ y, core.slots[f.bits 8 6]? = some y → y.holder = none ∨ y.holder = some b.g.key) →
    g.toNat % 4096 = 0 → src % 16 = 0 → inScratch s b src (if sealed_ then n + n / 256 else n) → b.sk.t < 15 → core.queue.length < 32 →
    ∃ (u : State) (sk : Skein) (e : Entry) (o : TileOp) (y : StatSlot),
      exec (.ldstat f) s = .next (u.finish b ready (b.eachNext (.ldstat f) fun _ z => z)) ∧ u.skein b.g.key b.k = some sk ∧
      sk.slots = b.sk.slots ∧ sk.record = b.sk.record ++ [e] ∧ sk.t = b.sk.t + 1 ∧ e.kind = 0x19 ∧ e.tile = some o ∧ o.slot = f.bits 8 6 ∧
      o.p0 = src ∧ o.p1 = g.toNat ∧ o.p2 = n ∧ (u.core (coreNo b.g)).queue = core.queue ++ [.op ⟨b.g.key, b.k, e.seq⟩] ∧
      (u.core (coreNo b.g)).slots[f.bits 8 6]? = some y ∧ y.holder = some b.g.key ∧ y.len = n ∧
      y.sealed = (if sealed_ then some (g, n) else none) ∧ u.mem = s.mem ∧ u.clusters = s.clusters) ∧
  (∀ (f : XF) s b ready y, Ready s (.statrel f) b ready → b.passing (.statrel f) ≠ [] →
    let core := s.core (coreNo b.g)
    core.slots[f.bits 8 6]? = some y → y.holder = some b.g.key → core.queue.length < 32 →
    ∃ (u : State) (z : StatSlot), exec (.statrel f) s = .next (u.finish b ready (b.eachNext (.statrel f) fun _ x => x)) ∧
      (u.core (coreNo b.g)).slots[f.bits 8 6]? = some z ∧ z.holder = none ∧ (u.core (coreNo b.g)).queue = core.queue ++ [.release (f.bits 8 6) b.g.key] ∧
      u.gangs = s.gangs ∧ u.mem = s.mem ∧ u.clusters = s.clusters)

/-- The passing fibres' commands of a copy word enter the record as one entry and wait for channels in order; a fibre whose operands are
refused faults (spec/10 R280 to R285). -/
def Sys2Proof.Says.EntersCopies (i : Instr) (f : XF) (kind : Nat) (ok : State → Batch → Fibre → Option (FaultCode × W64))
    (notes : State → Batch → Fibre → CopyCmd → Prop) : Prop :=
  ∀ s b ready, Ready s i b ready → (∃ p ∈ b.passing i, ok s b p.2 = none) → b.sk.c < 15 →
    let good := (b.passing i).filter fun p => (ok s b p.2).isNone
    ∃ (t : State) (sk : Skein) (e : Entry),
      exec i s = .next (t.finish b ready (b.eachOut i fun _ x => match ok s b x with | none => .next x | some q => .fault q.1 q.2)) ∧
      t.skein b.g.key b.k = some sk ∧ sk.slots = b.sk.slots ∧ sk.record = b.sk.record ++ [e] ∧ sk.c = b.sk.c + 1 ∧ sk.ackc = b.sk.ackc ∧
      e.kind = kind ∧ e.scope = f.bits 9 7 ∧ (e.acquire = true ↔ f.bits 11 11 = 1) ∧ (e.release = true ↔ f.bits 10 10 = 1) ∧
      e.copies.length = good.length ∧
      (∀ (j : Nat) (p : Nat × Fibre) (c : CopyCmd), good[j]? = some p → e.copies[j]? = some c → c.slot = p.1 ∧ c.uid = p.2.uid ∧
        c.stamp = p.2.pair f.c.toNat ∧ c.prog = 0 ∧ c.started = false ∧ notes s b p.2 c) ∧
      (t.cluster b.g.cluster).copyWait = (s.cluster b.g.cluster).copyWait ++ good.map (fun p => .entry ⟨b.g.key, b.k, e.seq⟩ p.1) ∧
      t.mem = s.mem ∧ (t.cluster b.g.cluster).scratch = (s.cluster b.g.cluster).scratch

/-- spec/10 R280 to R282, R285: COPY, COPYM, COPYL and CFILL. -/
def Obligations.CopyCommandsEnter : Prop :=
  let aligned (f : XF) (x : Fibre) : Option (FaultCode × W64) :=
    if (x.pair f.a.toNat).toNat % 128 ≠ 0 then some (.align, x.pair f.a.toNat) else none
  let n (f : XF) (x : Fibre) : Nat := (x.rd (f.bits 20 13)).toNat
  let coords (f : XF) (x : Fibre) : List W32 := (List.range 8).map fun j => x.rd (f.b.toNat + j)
  let named (s : State) (b : Batch) (j : Nat) : Option Gang := ((s.spanGangs b.g).filter fun h => h.cluster == b.g.cluster).find? fun h => h.core == j
  (∀ f, EntersCopies (.copy f) f 0x10 (fun _ _ x => aligned f x)
    (fun _ b x c => c.a = x.pair f.a.toNat ∧ c.n = n f x ∧ c.coords = coords f x ∧ c.receivers = [(b.g.key, 0)])) ∧
  (∀ f, EntersCopies (.copym f) f 0x11
    (fun s b x =>
      let mask := (x.rd (f.bits 20 13 + 1)).toNat
      match aligned f x with
      | some q => some q
      | none =>
        if mask = 0 ∨ 65536 ≤ mask ∨ ((List.range 16).any fun j => mask.testBit j && (named s b j).isNone) = true then
          some (.perm, BitVec.ofNat 64 mask) else none)
    (fun s b x c => c.a = x.pair f.a.toNat ∧ c.n = n f x ∧ c.coords = coords f x ∧
      c.receivers.map (·.1) = ((List.range 16).filter (x.rd (f.bits 20 13 + 1)).toNat.testBit).filterMap fun j => (named s b j).map (·.key))) ∧
  (∀ f, EntersCopies (.copyl f) f 0x12 (fun _ _ _ => none)
    (fun _ _ x c => c.a = x.pair f.a.toNat ∧ c.b = x.pair f.b.toNat ∧ c.n = n f x)) ∧
  (∀ f, EntersCopies (.cfill f) f 0x13 (fun _ _ _ => none)
    (fun _ _ x c => c.b = x.pair f.a.toNat ∧ c.n = n f x ∧ c.pattern = x.rd f.b.toNat))

/-- spec/10 R286 to R288: EVPOST appends an entry for each fibre, EVPOP takes the world's oldest ones; LAUNCH queues the grid it names. -/
def Obligations.EventsAndLaunches : Prop :=
  let source (b : Batch) (t : Nat) : Nat :=
    if b.g.kind = .handle then b.g.core % 16 + 16
    else b.g.core % 16 + 2 ^ 5 * (b.g.gangid % 16) + 2 ^ 9 * (b.k % 16) + 2 ^ 13 * (t % 64)
  (∀ (f : XF) s b ready, Ready s (.evpost f) b ready → b.passing (.evpost f) ≠ [] →
    let w := s.worldOf b.g
    let k := s.cluster b.g.cluster
    let xs := b.passing (.evpost f)
    (∀ p ∈ xs, b.sk.settled b.sk.nextSeq p.2.uid = true) → (∀ e ∈ k.held, e.world ≠ w) → k.events.length + xs.length ≤ 4096 →
    (k.events.filter fun e => e.world == w).length + xs.length ≤ 1024 →
    ∃ t : State, exec (.evpost f) s = .next (t.finish b ready (b.eachNext (.evpost f) fun _ x => x)) ∧ t.gangs = s.gangs ∧ t.mem = s.mem ∧
      (t.cluster b.g.cluster).events = k.events ++ xs.map (fun p => ⟨w, p.2.rd f.b.toNat, BitVec.ofNat 32 (source b p.1), p.2.pair f.a.toNat⟩)) ∧
  (∀ (f : XF) s b ready, Ready s (.evpop f) b ready → b.passing (.evpop f) ≠ [] →
    let w := s.worldOf b.g
    let k := s.cluster b.g.cluster
    let xs := b.passing (.evpop f)
    let mine := k.events.filter fun e => e.world == w
    xs.length ≤ mine.length →
    ∃ t : State, exec (.evpop f) s = .next (t.finish b ready ((xs.zip mine).map fun q =>
        (q.1.1, .next ((((q.1.2.wr f.a.toNat q.2.tag).wr (f.a.toNat + 1) q.2.source).wr (f.a.toNat + 2) (q.2.payload.setWidth 32)).wr (f.a.toNat + 3)
          ((q.2.payload >>> 32).setWidth 32))))) ∧
      t.gangs = s.gangs ∧ t.mem = s.mem ∧ ((t.cluster b.g.cluster).events.filter fun e => e.world == w) = mine.drop xs.length ∧
      ((t.cluster b.g.cluster).events.filter fun e => e.world != w) = k.events.filter fun e => e.world != w) ∧
  (∀ (f : XF) s b ready t x d eq s1, Ready s (.launch f) b ready → b.passing (.launch f) = [(t, x)] →
    let w := s.worldOf b.g
    let a := x.pair f.a.toNat
    b.g.work.launch = none → a.toNat % 256 = 0 → s.atIssue.readLaunch ⟨b.g.ctx, w, s.featvecOf b.g, b.g.cluster, 5⟩ a.toNat = .ok (d, eq) s1 →
    (s1.grids.filter fun g => g.world == w && g.placed.length < g.desc.spans).length < 256 →
    ∃ (u : State) (g : Grid), exec (.launch f) s = .next (u.finish b ready [(t, .next x)]) ∧ u.grids = s1.grids ++ [g] ∧
      g.world = w ∧ g.ctx = b.g.ctx ∧ g.desc = d ∧ g.eq = eq ∧ g.hcpc = x.pc ∧ g.csn = (s1.cluster b.g.cluster).csns.getD b.g.core 1 ∧
      g.placed = [] ∧ g.stepcnt = 0 ∧ g.launcher = .thread b.g.cluster b.g.core ∧
      u.gang b.g.key = (s1.gang b.g.key).map (fun h => { h with work := ⟨[], none, false⟩ }) ∧
      (∀ k, k ≠ b.g.key → u.gang k = s1.gang k) ∧ u.mem = s1.mem)

/-! ## Operations in flight -/

namespace Sys2Proof.Says

/-- The bytes of a home other than device register space. -/
def homeBytes (s : State) : Home → Memory
  | .dev => s.mem
  | .devreg => []
  | .scratch k => (s.cluster k).scratch
  | .handle k => (s.cluster k).local_
  | .host => s.host
  | .peer d => (tget s.peers d).getD []

/-- A set of one slot. -/
def oneSlot (t : Nat) : BitVec 64 := BitVec.twoPow 64 t

/-- The gang, skein and entry that a name stands for; the gang is not frozen. -/
def Named (s : State) (id : EntryId) (g : Gang) (sk : Skein) (e : Entry) : Prop :=
  s.gang id.gang = some g ∧ g.frozen = false ∧ g.skeins[id.skein]? = some sk ∧ sk.record.find? (fun e => e.seq == id.seq) = some e

/-- The same fibre, but that it is no longer marked as having tried to issue. -/
def untried (x : Fibre) : Fibre := { x with tried := false }

end Sys2Proof.Says

/-- spec/03 R64, spec/09 R244, R245, spec/06 R158: LOAD_COMPLETE writes the loaded value to the registers of the fibre whose load it was, and L
falls when the entry's last load completes; one access made for a whole batch binds the value for all of its fibres. -/
def Obligations.LoadsComplete : Prop :=
  ∀ s id (g : Gang) (sk : Skein) (e : Entry) t o v s1, Named s id g sk e → g.ended = false → t < 64 → e.kind = 1 ∨ e.kind = 2 → e.cls ≠ 1 →
    e.ops.find? (fun q => q.slot == t) = some o → o.stage = .sent → o.cmp = 0 → sk.mayPerform e o = true →
    (e.one = true → ∀ q ∈ e.ops, q.stage ≠ .sent ∨ sk.mayPerform e q = true) → s.heldByFrame g e o = false →
    s.performOp id g e o = .ok (v, s1) →
    ∃ (u : State) (sk' : Skein), exec (.loadComplete id (oneSlot t)) s = .next u ∧ u.skein id.gang id.skein = some sk' ∧
      (∀ n x, sk.fibre n = some x →
        sk'.fibre n = some (untried (if x.uid = o.uid then x.wrPlaces o.dst (loaded e.kind e.aop e.size v) else x))) ∧
      u.mem = s1.mem ∧ u.clusters = s1.clusters ∧
      (e.one = true → (e.ops.map (·.slot)).Nodup → ∀ q ∈ e.ops, q ≠ o → q.stage = .sent →
        ∃ e', sk'.record.find? (fun x => x.seq == id.seq) = some e' ∧ { q with stage := .performed, val := v } ∈ e'.ops) ∧
      ((∀ q ∈ e.ops, q ≠ o → q.stage = .done) → e.acked = true → e.portacc = false →
        sk'.l = sk.l - 1 ∧ sk'.s = sk.s ∧ ∀ q ∈ sk'.record, q.seq ≠ id.seq) ∧
      ((∃ q ∈ e.ops, q ≠ o ∧ q.slot ≠ t ∧ q.stage ≠ .done) → sk'.l = sk.l)

/-- spec/03 R64, spec/05 R109, spec/09 R244: STORE_PERFORMED writes the store's bytes at its home, the least significant first, and no other
byte there; S falls when the entry's last write is performed. -/
def Obligations.StoresArePerformed : Prop :=
  ∀ s id (g : Gang) (sk : Skein) (e : Entry) t o (p : Part), Named s id g sk e → g.ended = false → t < 64 →
    e.kind = 3 ∨ e.kind = 4 → e.ops.find? (fun q => q.slot == t) = some o → o.stage = .sent → o.got = [] → o.near = false →
    o.parts = [p] → p.len = e.size → 0 < e.size → p.home ≠ .devreg →
    (p.home = .dev → p.cached = false ∧ s.firstBadLine (s.worldOf g) (linesOf p.addr p.len) = none ∧
      (g.kind = .stake → (s.core g.coreNo).cache = [])) →
    (p.port = true → e.portacc = true ∧ s.portLost (s.worldOf g) p = false) → sk.mayPerform e o = true →
    (e.one = true → ∀ q ∈ e.ops, q.stage ≠ .sent ∨ sk.mayPerform e q = true) → s.heldByFrame g e o = false → s.tagsFit e o = true →
    (e.release = true ∨ e.acquire = true → e.scope < 4) → s.checking (s.partOfCluster g.cluster) = false →
    (e.cls = 1 → findTag s.tags e.tag t o.va = none) →
    (∀ c ∈ s.ctxs, c.st ≠ .running → findGang c.saved id.gang = none) → (homeBytes s p.home).wf = true →
    ∃ (u : State) (sk' : Skein), exec (.storePerformed id (oneSlot t)) s = .next u ∧ u.skein id.gang id.skein = some sk' ∧
      (∀ a, (homeBytes u p.home).read a =
        if p.addr ≤ a ∧ a < p.addr + p.len then BitVec.ofNat 8 (o.data / 256 ^ (a - p.addr)) else (homeBytes s p.home).read a) ∧
      (∀ n x, sk.fibre n = some x → sk'.fibre n = some (untried x)) ∧
      ((∀ q ∈ e.ops, q ≠ o → q.stage = .done) → e.acked = true → e.portacc = false →
        sk'.s = sk.s - 1 ∧ sk'.l = sk.l ∧ ∀ q ∈ sk'.record, q.seq ≠ id.seq)

/-- spec/03 R64, R66, spec/05 R133, spec/13 R331, R334: a port's acceptance lowers S once; an acknowledgement lowers ACKC and ends its entry; a
tag is retired when no entry carries it; a multi-clock result is written. -/
def Obligations.AcceptancesAcknowledgementsAndLateResults : Prop :=
  (∀ s id (g : Gang) (sk : Skein) (e : Entry), Named s id g sk e → e.kind = 3 ∨ e.kind = 4 ∨ e.kind = 7 → e.acked = false → e.portacc = false →
    (∀ o ∈ e.ops, if o.parts.any Part.port then o.stage ≠ .sent ∨ sk.mayPerform e o = true else o.stage = .done) →
    ∃ (u : State) (sk' : Skein), exec (.portAccept id) s = .next u ∧ u.skein id.gang id.skein = some sk' ∧ sk'.s = sk.s - 1 ∧ sk'.ackc = sk.ackc ∧
      (∀ q ∈ sk'.record, q.seq = id.seq → q.portacc = true) ∧ sk'.record.map (·.seq) = sk.record.map (·.seq) ∧ u.mem = s.mem ∧ u.host = s.host) ∧
  (∀ s id (g : Gang) (sk : Skein) (e : Entry), Named s id g sk e → e.acked = false → e.portacc = true → (∀ o ∈ e.ops, o.stage = .done) →
    ∃ (u : State) (sk' : Skein), exec (.writeAck id) s = .next u ∧ u.skein id.gang id.skein = some sk' ∧ sk'.ackc = sk.ackc - 1 ∧ sk'.s = sk.s ∧
      (∀ q ∈ sk'.record, q.seq ≠ id.seq) ∧ u.mem = s.mem) ∧
  (∀ (s : State) tag,
    ((∀ g ∈ s.allGangs, ∀ sk ∈ g.skeins, ∀ e ∈ sk.record, e.tag ≠ tag) → ∃ u, exec (.tagRetire tag) s = .next u ∧
      u.tags = s.tags.filter (fun x => x.tag != tag) ∧ u.gangs = s.gangs ∧ u.mem = s.mem) ∧
    ((∃ g ∈ s.allGangs, ∃ sk ∈ g.skeins, ∃ e ∈ sk.record, e.tag = tag) → exec (.tagRetire tag) s = .next s)) ∧
  (∀ s gk k t (x : Fibre) p ws r, s.fibreAt gk k t = some x → x.late = (p, ws) :: r → ∃ u, exec (.multiClockResultWritten gk k t) s = .next u ∧
    u.fibreAt gk k t = some (untried { x.wrPlaces p ws with late := r, redo := if r = [] then none else x.redo }) ∧ (∀ n, n ≠ t → u.fibreAt gk k n = (s.fibreAt gk k n).map untried) ∧
    u.mem = s.mem)

/-! ## Events around the cores -/

namespace Sys2Proof.Says

/-- The event leads to the state given, in which every fibre may try to issue again. -/
def Leads (i : Instr) (s t : State) : Prop := exec i s = .next t.clearTried

/-- The operations of an entry with one of them at another stage. -/
def restaged (e : Entry) (o : SlotOp) (st : Stage) : List SlotOp :=
  e.ops.map fun q => if q.slot = o.slot ∧ q.uid = o.uid then { o with stage := st } else q

/-- A field of an entry of a request ring, least significant byte first. -/
def ringField (bs : List Byte) (off n : Nat) : Nat := ofBytes ((bs.drop off).take n)

end Sys2Proof.Says

/-- spec/21 R446, R447, R453, spec/14 R362, spec/13 R337, R338: the completion of a host atomic writes the old value and ends its entry; a
completion that failed leaves the fault for the consumer; an entry handed back on the request ring is such a completion; an
acknowledgement of a parked write lowers ACKC; a completion that no operation waits for does nothing, and one that the parking area cannot
take is held at the port. -/
def Obligations.HostAtomicsAndFailedRequests : Prop :=
  (∀ s (c : Completion) id (g : Gang) (sk : Skein) (e : Entry) o, Named s id g sk e → s.findAtom c.tag c.slot = some (id, g, e, o) →
    c.status = 0 → e.kind = 5 ∨ e.kind = 6 → e.acked = false → e.portacc = false → (∀ q ∈ e.ops, q ≠ o → q.stage = .done) →
    ∃ (u : State) (sk' : Skein), exec (.atomicopCompletion c) s = .next u ∧ u.skein id.gang id.skein = some sk' ∧
      (∀ n x, sk.fibre n = some x → sk'.fibre n = some (untried (if x.uid = o.uid then
        x.wrPlaces o.dst (words (max 1 (e.size / 4)) (c.value.toNat % 2 ^ (8 * e.size))) else x))) ∧
      sk'.l = sk.l - 1 ∧ sk'.ackc = sk.ackc - 1 ∧ (∀ q ∈ sk'.record, q.seq ≠ id.seq) ∧ (e.acquire = false → u.mem = s.mem) ∧ u.host = s.host) ∧
  (∀ s (c : Completion) id (g : Gang) (sk : Skein) (e : Entry) o n x, Named s id g sk e → s.findAtom c.tag c.slot = some (id, g, e, o) →
    c.status = 1 → e.kind = 5 ∨ e.kind = 6 → e.ops.find? (fun q => q.slot == o.slot) = some o → sk.fibre n = some x → x.uid = o.uid →
    ∃ (u : State) (sk' : Skein), exec (.atomicopCompletion c) s = .next u ∧ u.skein id.gang id.skein = some sk' ∧
      (∃ e', sk'.record.find? (fun q => q.seq == id.seq) = some e' ∧ e'.ops = restaged e o (.failed .timeout)) ∧
      (∀ n x, sk.fibre n = some x → sk'.fibre n = some (untried x)) ∧ u.mem = s.mem ∧ u.host = s.host) ∧
  (∀ s (c : Completion), s.findAtom c.tag c.slot = none → s.parkedOp c.tag c.slot = none → exec (.atomicopCompletion c) s = .next s) ∧
  (∀ s w (v : BitVec 64) n base ha s1, s.requestRing w = some (n, base) → v.toNat < n →
    s.hostFrame w (base + 64 * v.toNat) false = .ok ha s1 →
    let bs := s1.host.readBytes ha 64
    let done : Completion := ⟨BitVec.ofNat 64 (ringField bs 0x28 8), ringField bs 0x30 1, if ringField bs 3 1 = 0 then 0 else 2,
      BitVec.ofNat 128 (ringField bs 0x20 8)⟩
    (ringField bs 0 1 = 1 → exec (.hostAtomicDone w v) s = .next s) ∧
    (∀ id (g : Gang) e o, ringField bs 0 1 ≠ 1 → s1.findAtom done.tag done.slot = some (id, g, e, o) → o.val = v.toNat →
      o.parts.any (fun p => p.hat == 2) = true → s1.worldOf g = w →
      ∃ u, exec (.hostAtomicDone w v) s = .next u ∧ exec (.atomicopCompletion done) s1 = .next u)) ∧
  (∀ s id (g : Gang) (sk : Skein) (e : Entry) t o n x i, i = .completerError id t ∨ i = .requestTimeout id t → Named s id g sk e →
    id.gang ≠ 0 → e.kind = 1 ∨ e.kind = 2 → e.copies = [] → e.acked = true → e.ops.find? (fun q => q.slot == t) = some o → o.stage = .sent →
    o.parts.any Part.port = true → sk.fibre n = some x → x.uid = o.uid →
    ∃ (u : State) (sk' : Skein), exec i s = .next u ∧ u.skein id.gang id.skein = some sk' ∧
      (∃ e', sk'.record.find? (fun q => q.seq == id.seq) = some e' ∧ e'.ops = restaged e o (.failed .timeout)) ∧
      (∀ n x, sk.fibre n = some x → sk'.fibre n = some (untried x)) ∧ sk'.l = sk.l ∧ u.mem = s.mem ∧ u.host = s.host) ∧
  (∀ s (c : Completion) id (g : Gang) (sk : Skein) (e : Entry) o, Named s id g sk e → s.findParked c = some (id, g, e, o) → c.status = 0 →
    e.kind = 3 ∨ e.kind = 4 → e.acked = false → e.portacc = true → (∀ q ∈ e.ops, q ≠ o → q.stage = .done) →
    ∃ (u : State) (sk' : Skein), exec (.parkedCompletion c) s = .next u ∧ u.skein id.gang id.skein = some sk' ∧ sk'.ackc = sk.ackc - 1 ∧
      sk'.s = sk.s ∧ (∀ q ∈ sk'.record, q.seq ≠ id.seq) ∧ u.mem = s.mem) ∧
  (∀ s (c : Completion), s.findParked c = none → s.parkedOp c.tag c.slot = none → exec (.parkedCompletion c) s = .next s) ∧
  (∀ s (c : Completion) w e o, s.findParked c = none → s.parkedOp c.tag c.slot = some (w, e, o) → (s.world w).held ≠ [] →
    (∀ a, s.parkArea w ≠ .ok a) → (∀ d ∈ (s.world w).held, d.tag ≠ c.tag ∨ d.slot ≠ c.slot) →
    exec (.parkedCompletion c) s = .next ((s.modWorld w fun x => { x with held := x.held ++ [c] }).markCmpl c.tag))

/-- spec/09 R253, R256, spec/08 R221, R222, spec/02 R45, R49, spec/10 R287, spec/11 R298, spec/20 R426, spec/08 R211: deposits land and are
counted, a fibre arrives at its span's barrier once its operations are performed, a monitor whose condition holds lets its fibre go on, a
granted gang moves to its target core, a held post enters the event queue, a guest instruction's words are taken up, and a batch whose word
is no instruction, or cannot be fetched, faults in every fibre. -/
def Obligations.ArrivalsWakesAndMoves : Prop :=
  (∀ s id (g : Gang) (sk : Skein) (e : Entry) (h : Gang) r, Named s id g sk e → e.kind = 0x0C → e.release = false → e.portacc = false →
    e.acked = true → s.gang e.aux = some h → e.aux ≠ id.gang → h.frozen = false → h.ended = false → h.moves.length ≤ e.prog →
    h.skeins[e.aop]? = some r → (∀ o ∈ e.ops, findTag s.tags e.tag o.slot (depositAddr e) = none) →
    s.tagRoom (2, coreNo h) e.ops.length = true → (e.ops.map (·.slot)).Nodup → e.size < r.arrive.length →
    ∃ (u : State) (r' sk' : Skein), exec (.rwriteArrival id) s = .next u ∧ u.skein e.aux e.aop = some r' ∧ u.skein id.gang id.skein = some sk' ∧
      (∀ n x, r.fibre n = some x → r'.fibre n = some (untried (match e.ops.find? (fun o => o.slot == n) with
        | some o => if 248 ≤ e.dst ∨ e.dst < min (kindRegs h.kind) x.wsize then x.wr e.dst (BitVec.ofNat 32 o.data) else x
        | none => x))) ∧
      r'.arrive.getD e.size 0 = (r.arrive.getD e.size 0 + 1) % 65536 ∧ sk'.s = sk.s - 1 ∧ (∀ q ∈ sk'.record, q.seq ≠ id.seq) ∧
      (∀ o ∈ e.ops, ∃ t ∈ u.tags, t.tag = e.tag ∧ t.slot = o.slot ∧ t.space = 2) ∧ u.mem = s.mem ∧ u.clusters = s.clusters) ∧
  (∀ s id (g : Gang) (sk : Skein) (e : Entry) n y, Named s id g sk e → e.kind = 0x20 → g.ended = false →
    (∀ o ∈ e.ops, sk.settled e.seq o.uid = true) → sk.fibre n = some y → y.sbarIn = false → (∀ o ∈ e.ops, o.uid ≠ y.uid) →
    ∃ (u : State) (sk' : Skein), exec (.sbarArrival id) s = .next u ∧ u.skein id.gang id.skein = some sk' ∧
      (∀ n x, sk.fibre n = some x → sk'.fibre n = some (untried (if ∃ o ∈ e.ops, o.uid = x.uid then { x with sbarIn := true } else x))) ∧
      (∀ q ∈ sk'.record, q.seq ≠ id.seq) ∧ (g.kind ≠ .stake → u.mem = s.mem ∧ u.clusters = s.clusters)) ∧
  (∀ s id (g : Gang) (sk : Skein) (e : Entry) t o n x ps s1 v s2 i, i = .monitorWake id t ∨ i = .monitorReread id t → Named s id g sk e →
    g.ended = false → e.kind = 0x0B → e.ops.find? (fun q => q.slot == t) = some o → o.stage = .sent → sk.fibre n = some x →
    x.uid = o.uid → x.wait = .mwait → s.askReplay g e o = .ok ps s1 → sk.mayPerform e { o with parts := ps } = true →
    s1.monRead g e.scope ps = .ok (v, s2) →
    v < 2 ^ (8 * e.size) → o.data < 2 ^ (8 * e.size) →
    let holds := condition e.aop (8 * e.size) (BitVec.ofNat _ v) (BitVec.ofNat _ o.data)
    ∃ (u : State) (sk' : Skein), exec i s = .next u ∧ u.skein id.gang id.skein = some sk' ∧ u.mem = s2.mem ∧ u.clusters = s2.clusters ∧
      (holds = false → sk'.record.map (·.seq) = sk.record.map (·.seq) ∧ ∀ n x, sk.fibre n = some x → sk'.fibre n = some (untried x)) ∧
      (holds = true → e.acked = true → (∀ q ∈ e.ops, q ≠ o → q.stage = .done) → (∀ q ∈ sk'.record, q.seq ≠ id.seq) ∧
        ∀ n x, sk.fibre n = some x → sk'.fibre n = some (untried (if x.uid = o.uid then
          (let y := { x with wait := .none, waitArg := 0 }
           (if e.aux = 1 then y.wrPred o.dst .true_ else y).advance) else x)))) ∧
  (∀ s key (g : Gang) core gr p runs, s.gang key = some g → g.frozen = false → g.target = some core → s.grid g.grid = some gr →
    gr.eq.find? (fun q => some q.eqid == (g.live.head?).map migrateId) = some p → s.moveReady g = true →
    s.roomFor g.cluster core g.skeins.length (((g.skeins.head?).map (·.width)).getD 32) (gr.otherRegs g) = some runs →
    ∃ (u : State) (g' : Gang), exec (.migrationMove key) s = .next u ∧ u.gang key = some g' ∧ g'.kind = otherKind g.kind ∧ g'.core = core ∧
      g'.image = 1 - g.image ∧ g'.nregs = gr.otherRegs g ∧ g'.target = none ∧ g'.grid = g.grid ∧ g'.moves = g.moves ++ [(g.core, p.eqid)] ∧
      ∀ (k : Nat) (sk : Skein) n x, g.skeins[k]? = some sk → sk.fibre n = some x → x.late = [] → ∃ (sk' : Skein) (z : Fibre), g'.skeins[k]? = some sk' ∧
        sk'.fibre n = some (untried (z.wr (migrateReg x) 1)) ∧ z.pc = (if g.image = 0 then p.spc else p.rpc) ∧ z.wait = .none ∧ z.e = x.e ∧
        z.uid = x.uid ∧ z.wshift = x.wshift ∧ z.regs.length = gr.otherRegs g ∧
        (0 < gr.otherRegs g → z.regs.getD 0 0 = x.regs.getD 0 0) ∧
        ∀ r, 1 ≤ r → r < gr.otherRegs g → z.regs.getD r 0 =
          match p.maps.reverse.find? (fun m => let b := if g.image = 0 then m.2.1 else m.1; b ≤ r && r < b + 2 ^ m.2.2) with
          | some m => x.regs.getD ((if g.image = 0 then m.1 else m.2.1) + (r - (if g.image = 0 then m.2.1 else m.1))) 0
          | none => 0) ∧
  (∀ (s : State) c w, ∃ u : State, exec (.heldPostEnter c w) s = .next u ∧
    ((∀ e ∈ (s.cluster c).held, e.packet = none) → u.mem = s.mem) ∧
    (∀ e, (s.cluster c).eventRoom w 1 = true → (s.cluster c).held.find? (fun e => e.world == w) = some e →
      (u.cluster c).events = (s.cluster c).events ++ [e.toEvent] ∧ (u.cluster c).held = (s.cluster c).held.erase e ∧
      ∀ q n, e.packet = some (q, n) → ∀ p ∈ (u.queue w q).live, p.number ≠ n) ∧
    ((s.cluster c).eventRoom w 1 = false ∨ (∀ e ∈ (s.cluster c).held, e.world ≠ w) → u.cluster c = s.cluster c)) ∧
  (∀ s b ready t x r s1 ws len n (tb : WeaveTable), s.batch = some (b, ready) → b.all = (t, x) :: r →
    s.atIssue.weave b.g x = .ok (.words ws len, n) s1 → s1.weaveTable b.g.cluster x.pers = some tb → s1.gangs = s.gangs →
    ∃ (u : State) (sk' : Skein), exec .guestDecode s = .next u ∧ u.mem = s1.mem ∧ u.skein b.g.key b.k = some sk' ∧
      sk'.record = b.sk.record ∧ ∀ m y, b.sk.fibre m = some y → sk'.fibre m = some (untried (if b.all.any (fun p => p.1 == m) = true then
        { y with expansion := some ⟨ws, 2 * len / tb.unit, tb.unit⟩, iopx := 0 } else y))) ∧
  (∀ s b ready, s.batch = some (b, ready) →
    (∀ w, exec (.notAnInstruction w) s = .next (s.atIssue.finish b ready (b.all.map fun p => (p.1, .fault .illegalOp 0)))) ∧
    ∀ code a, exec (.instructionFetchFault code a) s = .next (s.atIssue.finish b ready (b.all.map fun p => (p.1, .fault code a))))

/-- spec/10 R265, R269, R274, R280 to R285: the element at the head of a core's tile queue starts; TZERO's unit clears one panel of its
rows and ends the operation after the last; an LDSTAT of plain bytes fills its slot; a waiting command takes a free channel; a CFILL's burst
writes its pattern, and the command's end frees the channel. -/
def Obligations.TileAndCopyEngineSteps : Prop :=
  let core (c : CoreId) : Nat := if c.core < 12 then 12 * c.cluster + c.core else 384 + 4 * c.cluster + (c.core - 12)
  (∀ s (c : CoreId) id (g : Gang) (sk : Skein) (e : Entry) t, Named s id g sk e → (s.core (core c)).queue.head? = some (.op id) →
    e.tile = some t → t.started = false → t.fuse = false →
    (∀ q ∈ sk.record, q.seq < e.seq → storeLike q.kind = true → ∀ o ∈ q.ops, o.stage ≠ .sent ∨ ∀ p ∈ o.parts, ∀ k, p.home ≠ .scratch k) →
    Leads (.tileOpStart c) s (s.modSkein id.gang id.skein fun y => { y with record := y.record.map fun q =>
      if q.seq = id.seq then { q with tile := q.tile.map fun t => { t with started := true } } else q })) ∧
  (∀ s (c : CoreId) n k, (s.core (core c)).queue.head? = some (.release n k) → ∃ u : State, exec (.tileOpStart c) s = .next u ∧
    (u.core (core c)).queue = (s.core (core c)).queue.drop 1 ∧ (u.core (core c)).slots = (s.core (core c)).slots ∧
    (u.core (core c)).fills = (s.core (core c)).fills.filter (fun f => !(f.slot == n && f.gang == k)) ∧ u.mem = s.mem ∧
    u.clusters = s.clusters) ∧
  (∀ s (c : CoreId) id (g : Gang) (sk : Skein) (e : Entry) t, Named s id g sk e → g.ended = false → (s.core (core c)).queue.head? = some (.op id) →
    e.kind = 0x1A → e.tile = some t → t.started = true → (s.cluster g.cluster).scratch.wf = true →
    let row (r : Nat) : Nat := t.acc + (e.prog * (8 * 2 ^ t.m) + r) * 16 * elemBytes t.fmt t.iv
    ∃ (u : State) (sk' : Skein), exec (.tilePanelUnit c) s = .next u ∧ u.skein id.gang id.skein = some sk' ∧ u.mem = s.mem ∧
      (∀ a, ((∃ r ∈ t.rows, row r.1 ≤ a ∧ a < row r.1 + 16 * elemBytes t.fmt t.iv) → (u.cluster g.cluster).scratch.read a = 0) ∧
        ((∀ r ∈ t.rows, a < row r.1 ∨ row r.1 + 16 * elemBytes t.fmt t.iv ≤ a) →
          (u.cluster g.cluster).scratch.read a = (s.cluster g.cluster).scratch.read a)) ∧
      (e.prog + 1 < t.n16 → sk'.t = sk.t ∧ (u.core (core c)).queue = (s.core (core c)).queue ∧
        (sk'.record.find? fun q => q.seq == id.seq).map (·.prog) = some (e.prog + 1)) ∧
      (t.n16 ≤ e.prog + 1 → (u.core (core c)).queue = (s.core (core c)).queue.drop 1 ∧
        (e.acked = true → e.portacc = false → (∀ o ∈ e.ops, ∀ f, o.stage ≠ .failed f) → sk'.t = sk.t - 1 ∧ ∀ q ∈ sk'.record, q.seq ≠ id.seq))) ∧
  (∀ s (c : CoreId) id (g : Gang) (sk : Skein) (e : Entry) t bs, Named s id g sk e → (s.core (core c)).queue.head? = some (.op id) →
    e.kind = 0x19 → e.tile = some t → t.started = true → t.iv = false → s.readScratch g.cluster t.p0 t.p2 = some bs → e.acked = true →
    e.portacc = false → g.ended = false → (∀ o ∈ e.ops, ∀ f, o.stage ≠ .failed f) →
    ∃ (u : State) (sk' : Skein), exec (.ldstatFillDone c) s = .next u ∧ u.skein id.gang id.skein = some sk' ∧ sk'.t = sk.t - 1 ∧
      (∀ q ∈ sk'.record, q.seq ≠ id.seq) ∧ (u.core (core c)).queue = (s.core (core c)).queue.drop 1 ∧ u.mem = s.mem ∧ u.clusters = s.clusters ∧
      (u.core (core c)).slots = (s.core (core c)).slots ∧ (u.core (core c)).fills =
        ⟨t.slot, g.key, some bs, none, false⟩ :: (s.core (core c)).fills.filter fun f => !(f.slot == t.slot && f.gang == g.key)) ∧
  (∀ s cl n w q num src dst count r, (s.cluster cl).freeChannel = some n → (s.cluster cl).copyWait = .packet w q num src dst count :: r →
    Leads (.copyCommandStart cl) s (s.modCluster cl fun k => { k with
      channels := tset k.channels n (.packet w q num src dst count)
      copyWait := k.copyWait.filter fun x => x != .packet w q num src dst count
      packetProg := k.packetProg ++ [(w, q, num, 0)] })) ∧
  (∀ s cl n id slot (g : Gang) (sk : Skein) (e : Entry) c r, Named s id g sk e → (s.cluster cl).freeChannel = some n →
    (s.cluster cl).copyWait = .entry id slot :: r → e.copies.find? (fun c => c.slot == slot) = some c → e.kind = 0x13 → e.acquire = false →
    ∃ (u : State), exec (.copyCommandStart cl) s = .next u ∧ (u.cluster cl).channels = tset (s.cluster cl).channels n (.entry id slot) ∧
      (∀ x ∈ (u.cluster cl).copyWait, x ≠ .entry id slot) ∧ u.mem = s.mem ∧
      ∃ (sk' : Skein) (e' : Entry) (c' : CopyCmd), u.skein id.gang id.skein = some sk' ∧ sk'.record.find? (fun q => q.seq == id.seq) = some e' ∧
        e'.copies.find? (fun c => c.slot == slot) = some c' ∧ c' = { c with started := true, record := [], receivers := [] }) ∧
  (∀ s cl ch id slot (g : Gang) (sk : Skein) (e : Entry) c, Named s id g sk e → g.ended = false → (e.acked = true → sk.ackc < 1023) → tget (s.cluster cl).channels ch = some (.entry id slot) →
    e.copies.find? (fun c => c.slot == slot) = some c → e.kind = 0x13 → e.aux.testBit 4 = true → e.aux.testBit 11 = false →
    s.checking (s.partOfCluster g.cluster) = false → 256 * c.prog < c.n → (s.cluster g.cluster).scratch.wf = true →
    let n := min 256 (c.n - 256 * c.prog)
    let dst := (c.b.toNat + 256 * c.prog) % 2 ^ 64
    s.engineScratch g.cluster (s.worldOf g) dst n = none →
    ∃ (u : State) (sk' : Skein), exec (.copyBurst cl ch) s = .next u ∧ u.skein id.gang id.skein = some sk' ∧ u.mem = s.mem ∧
      (∀ a, (u.cluster g.cluster).scratch.read a =
        if dst ≤ a ∧ a < dst + n then BitVec.ofNat 8 (c.pattern.toNat / 256 ^ ((a - dst) % 4)) else (s.cluster g.cluster).scratch.read a) ∧
      (256 * (c.prog + 1) < c.n → sk'.c = sk.c ∧ ((sk'.record.find? fun q => q.seq == id.seq).bind fun q => q.copies.find? fun c => c.slot == slot) =
        some { c with prog := c.prog + 1, burst := [], landed := [] }) ∧
      (c.n ≤ 256 * (c.prog + 1) → (∀ x ∈ (u.cluster cl).channels, x.2 ≠ .entry id slot) ∧
        (e.acked = true → e.portacc = false → (∀ o ∈ e.ops, o.slot ≠ slot → o.stage = .done) →
          sk'.c = sk.c - 1 ∧ ∀ q ∈ sk'.record, q.seq ≠ id.seq)))

namespace Sys2Proof.Says

/-- Thread 0 of the home cluster parses the queues of the world's partition (spec/12 R311). -/
def threadParsing (s : State) (w : Nat) : Bool := (s.part (w / 64)).dutycfg.toNat.testBit 0

/-- The parser of the queue's home cluster, thread 0's firmware or not, serves the queue and has read the 64 bytes of its next packet, of
legal form and of a type; nobody traces the cluster (spec/12 R310 to R312). -/
def ParsesAs (thread0 : Bool) (s : State) (w q typ : Nat) (bs : List Byte) (s1 : State) : Prop :=
  let x := s.queue w q
  let c := s.homeCluster w q
  s.served c = some (w, q) ∧ threadParsing s w = thread0 ∧ threadParsing s1 w = thread0 ∧
    (s.acquireSync c).agentRead (s.worldAccess w c) ((x.qbase.toNat + 64 * (x.qrd % 2 ^ (x.ctl.toNat / 2 ^ 14 % 32))) % 2 ^ 64) 64 = .ok bs s1 ∧
    s1.worlds = s.worlds ∧ (s1.cluster c).trace.owner = 0 ∧ (∀ p ∈ x.live, p.number ≠ x.qrd) ∧ ringField bs 0 1 = typ ∧ (typ < 7 → packetClean bs = true)

/-- The same where the device parses. -/
abbrev Parses := ParsesAs false

/-- The queue has gone past its packet, which took the next command sequence number; `more` are live packets that it has gained. -/
def Past (s u : State) (w q : Nat) (more : List Packet) : Prop :=
  let x := s.queue w q
  let y := u.queue w q
  y.qrd = (x.qrd + 1) % 2 ^ 32 ∧ y.qwr = x.qwr ∧ y.qbase = x.qbase ∧ y.ctl = x.ctl ∧ y.csn = (if x.csn + 1 < 2 ^ 48 then x.csn + 1 else 1) ∧
    y.live = x.live ++ more

/-- The live packet that the bytes at `QRD` make. -/
def LivePacket (s : State) (w q : Nat) (bs : List Byte) (k : Packet) : Prop :=
  k.number = (s.queue w q).qrd ∧ k.csn = (s.queue w q).csn ∧ k.typ = ringField bs 0 1 ∧ k.hcpc = k.addr ||| 1 ∧ (k.intr = true ↔ (ringField bs 1 1).testBit 1 = true) ∧
    k.vec = ringField bs 2 2

/-- The interrupts that the completion of the packet adds, for a vector that the function has (spec/14 R357; that others add none is
notes/assumptions/128). -/
def interrupts (w : Nat) (bs : List Byte) : List (Nat × Nat) :=
  if (ringField bs 1 1).testBit 1 ∧ ringField bs 2 2 < (if w % 64 = 0 then 2048 else 64) then [(w, ringField bs 2 2)] else []

end Sys2Proof.Says

/-- spec/12 R309 to R314, R326, spec/02 R52, spec/01 R20: doorbells and `QCTL`; NOP, LAUNCH, COPY, FENCE, SIGNAL, EVENT and HANDLE packets, and
packets of no known type; a NOP that thread 0 parses (the handle PC is free, notes/assumptions/114). -/
def Obligations.QueuesAndPackets : Prop :=
  (∀ s w q (v : BitVec 64), s.doorbellsOn w = true → (s.part (w / 64)).pscur ≠ 2 →
    (v.toNat % 2 ^ 32 + 2 ^ 32 - (s.queue w q).qrd) % 2 ^ 32 ≤ 2 ^ ((s.queue w q).ctl.toNat / 2 ^ 14 % 32) →
    Leads (.queueDoorbell w q v) s ((s.modQueue w q fun y => { y with qwr := v.toNat % 2 ^ 32 }).endTurns (s.homeCluster w q))) ∧
  (∀ s w q (v : BitVec 64), s.doorbellsOn w = true → (s.part (w / 64)).pscur = 2 →
    exec (.queueDoorbell w q v) s = .next (s.modPart (w / 64) fun x =>
      { x with psbells := x.psbells ++ [(false, w, q, v.toNat)], psexit := true })) ∧
  (∀ s w q (v : BitVec 64), s.doorbellsOn w = true → (s.part (w / 64)).pscur ≠ 2 →
    2 ^ ((s.queue w q).ctl.toNat / 2 ^ 14 % 32) < (v.toNat % 2 ^ 32 + 2 ^ 32 - (s.queue w q).qrd) % 2 ^ 32 →
    ∃ u : State, exec (.queueDoorbell w q v) s = .next u ∧ (u.queue w q).ctl.toNat % 2 = 0 ∧ (u.queue w q).ctl.toNat / 2 ^ 24 = 5 ∧
      (u.queue w q).qrd = (s.queue w q).qrd ∧ (u.queue w q).qwr = (s.queue w q).qwr) ∧
  (∀ s w q (v : BitVec 64), s.boot = 1 → ∃ c : W64, Leads (.qctlWrite w q v) s ((s.modQueue w q fun y =>
      { y with ctl := c, waiting := if v.toNat % 2 = 1 then y.waiting else none }).endTurns (s.homeCluster w q)) ∧
    let old := (s.queue w q).ctl.toNat
    c.toNat % 2 = v.toNat % 2 ∧ c.toNat / 2 ^ 8 % 4 = v.toNat / 2 ^ 8 % 4 ∧ c.toNat / 2 ^ 10 % 16 = v.toNat / 2 ^ 10 % 16 ∧
    (old % 2 = 1 → c.toNat / 2 ^ 14 % 2 ^ 10 = old / 2 ^ 14 % 2 ^ 10) ∧
    (old % 2 = 0 → c.toNat / 2 ^ 19 % 32 = v.toNat / 2 ^ 19 % 32 ∧
      c.toNat / 2 ^ 14 % 32 = (if 4 ≤ v.toNat / 2 ^ 14 % 32 ∧ v.toNat / 2 ^ 14 % 32 ≤ 20 then v.toNat / 2 ^ 14 % 32 else 4)) ∧
    c.toNat / 2 ^ 24 = (if v.toNat % 2 = 1 then 0 else old / 2 ^ 24 % 8)) ∧
  (∀ s w q bs s1, Parses s w q 0 bs s1 → ∃ u : State, exec (.packetNop w q) s = .next u ∧ Past s u w q [] ∧
    u.msix = s1.msix ++ interrupts w bs ∧ u.mem = s1.mem ∧ u.grids = s.grids) ∧
  (∀ s w q bs s1, ParsesAs true s w q 0 bs s1 → ∃ u : State, exec (.packetNop w q) s = .next u ∧ (u.queue w q).csn = (s.queue w q).csn ∧
    (u.queue w q).qrd = ((s.queue w q).qrd + 1) % 2 ^ 32 ∧ (u.queue w q).live = (s.queue w q).live ∧
    (u.cluster (s.homeCluster w q)).csns = modifyAt (s1.cluster (s.homeCluster w q)).csns 0 (fun n => if n + 1 < 2 ^ 48 then n + 1 else 1) ∧
    u.mem = s1.mem) ∧
  (∀ s w q bs s1 d eq s2, Parses s w q 1 bs s1 → ringField bs 8 8 % 256 = 0 → (s.queue w q).waiting = none →
    s1.readLaunch (s1.worldAccess w (s.homeCluster w q)) (ringField bs 8 8) = .ok (d, eq) s2 → s2.worlds = s1.worlds →
    threadParsing s2 w = false → (s2.cluster (s.homeCluster w q)).trace.owner = 0 → s2.queuedGrids w < 256 →
    ∃ (u : State) (k : Packet) (gr : Grid), exec (.packetLaunch w q) s = .next u ∧ LivePacket s w q bs k ∧ Past s u w q [k] ∧
      k.caddr = BitVec.ofNat 64 (ringField bs 0x10 8) ∧ k.cinc = BitVec.ofNat 64 (ringField bs 0x18 8) ∧ u.grids = s.grids ++ [gr] ∧
      gr.world = w ∧ gr.desc = d ∧ gr.eq = eq ∧ gr.csn = (s.queue w q).csn ∧ gr.hcpc = k.addr ||| 1 ∧ gr.placed = [] ∧
      gr.launcher = .packet w q (s.queue w q).qrd ∧ gr.done = false ∧ u.mem = s2.mem) ∧
  (∀ s w q bs s1, Parses s w q 2 bs s1 → ∃ (u : State) (k : Packet), exec (.packetCopy w q) s = .next u ∧ LivePacket s w q bs k ∧
    Past s u w q [k] ∧ k.caddr = BitVec.ofNat 64 (ringField bs 0x20 8) ∧ k.cinc = BitVec.ofNat 64 (ringField bs 0x28 8) ∧
    (u.cluster (s.homeCluster w q)).copyWait = (s1.cluster (s.homeCluster w q)).copyWait ++ [.packet w q (s.queue w q).qrd
      (BitVec.ofNat 64 (ringField bs 8 8)) (BitVec.ofNat 64 (ringField bs 0x10 8)) (ringField bs 0x18 8)] ∧ u.mem = s1.mem) ∧
  (∀ s w q bs s1, Parses s w q 3 bs s1 → ringField bs 8 8 % 8 = 0 → (∀ p ∈ (s.queue w q).live, p.typ ≠ 3) →
    ∃ (u t : State) (k : Packet), exec (.packetFence w q) s = .next u ∧ LivePacket s w q bs k ∧ t.mem = s1.mem ∧ t.clusters = s1.clusters ∧
      (t.queue w q).fence = some ((List.range (ringField bs 4 1)).map fun i => ringField bs (0x10 + 4 * i) 4) ∧
      ∀ left s2, (t.acquireSync (s.homeCluster w q)).fenceLeft (t.worldAccess w (s.homeCluster w q))
          (ringField bs 8 8) ((List.range (ringField bs 4 1)).map fun i => ringField bs (0x10 + 4 * i) 4) = .ok left s2 →
        s2.worlds = t.worlds → threadParsing s2 w = false → (s2.cluster (s.homeCluster w q)).trace.owner = 0 →
        (u.queue w q).fence = (if left = [] then none else some left) ∧ Past s u w q (if left = [] then [] else [k]) ∧ u.mem = s2.mem) ∧
  (∀ s w q bs s1 a h s2, Parses s w q 4 bs s1 → s1.dirtyHeld (s.homeCluster w q) = false → a = ringField bs 8 8 → a % 8 = 0 →
    ringField bs 0x18 1 = 0 →
    (s1.writeBackAll (s.homeCluster w q)).agentWrites (s1.worldAccess w (s.homeCluster w q)) [(a, bytesOf 8 (ringField bs 0x10 8))] = .ok h s2 →
    s2.worlds = s1.worlds → threadParsing s2 w = false → (s2.cluster (s.homeCluster w q)).trace.owner = 0 →
    ∃ u : State, exec (.packetSignal w q) s = .next u ∧ Past s u w q [] ∧ u.mem = s2.mem ∧ u.host = s2.host ∧ u.msix = s2.msix ++ interrupts w bs) ∧
  (∀ s w q bs s1, Parses s w q 5 bs s1 → ringField bs 0x14 1 < 32 / s.partitions →
    let c := w / 64 * (32 / s.partitions) + ringField bs 0x14 1
    (s1.cluster c).heldOf w = 0 → (s1.cluster c).eventRoom w 1 = true →
    ∃ u : State, exec (.packetEvent w q) s = .next u ∧ Past s u w q [] ∧ u.mem = s1.mem ∧ u.msix = s1.msix ++ interrupts w bs ∧
      (u.cluster c).events = (s1.cluster c).events ++
        [⟨w, BitVec.ofNat 32 (ringField bs 0x10 4), 0x80000000, BitVec.ofNat 64 (ringField bs 8 8)⟩]) ∧
  (∀ s w q bs s1 t x, Parses s w q 6 bs s1 → ringField bs 0x18 1 < 32 / s.partitions →
    let c := w / 64 * (32 / s.partitions) + ringField bs 0x18 1
    s1.freeThread c = some t → s1.ctx (s1.worldCtx w) = some x → x.st = .running →
    ∃ (u : State) (k : Packet) (g : Gang) (sk : Skein) (y : Fibre), exec (.packetHandle w q) s = .next u ∧ LivePacket s w q bs k ∧
      Past s u w q [k] ∧ g ∈ u.gangs ∧ g.kind = .handle ∧ g.cluster = c ∧ g.core = t ∧ g.ctx = s1.worldCtx w ∧ g.hcpc = k.addr ||| 1 ∧
      g.csn = (s.queue w q).csn ∧ g.routine = some (w, q, (s.queue w q).qrd) ∧ g.skeins = [sk] ∧ sk.live = [(0, y)] ∧
      y.pc = BitVec.ofNat 64 (ringField bs 8 8) ∧ y.regs.getD 2 0 = BitVec.ofNat 32 (ringField bs 0x10 8) ∧
      y.regs.getD 3 0 = BitVec.ofNat 32 (ringField bs 0x10 8 / 2 ^ 32) ∧ u.mem = s1.mem) ∧
  (∀ s w q typ bs s1, Parses s w q typ bs s1 → 7 ≤ typ → ∃ u : State, exec (.packetUnknownType w q) s = .next u ∧
    (u.queue w q).ctl.toNat % 2 = 0 ∧ (u.queue w q).ctl.toNat / 2 ^ 24 = 1 ∧ (u.queue w q).qrd = (s.queue w q).qrd ∧
    (u.queue w q).live = (s.queue w q).live ∧ (u.queue w q).csn = (if (s.queue w q).csn + 1 < 2 ^ 48 then (s.queue w q).csn + 1 else 1)) ∧
  (∀ s w q es p left s1, (s.queue w q).fence = some es →
    (s.queue w q).live.find? (fun p => p.typ == 3) = some p → p.caddr.toNat % 8 = 0 →
    (s.acquireSync (s.homeCluster w q)).fenceLeft (s.worldAccess w (s.homeCluster w q)) p.caddr.toNat es = .ok left s1 → s1.worlds = s.worlds →
    ∃ u : State, exec (.fenceCounterWake w q) s = .next u ∧ (u.queue w q).fence = (if left = [] then none else some left) ∧
      (u.queue w q).live = (if left = [] then (s.queue w q).live.filter (fun k => k.number != p.number) else (s.queue w q).live) ∧
      (u.queue w q).qrd = (s.queue w q).qrd)

/-- spec/12 R313, R318 to R325, spec/02 R43, R44: a span is placed on the cores named; a pool's oldest entry takes a free slot; ready skeins
move into the active set; compaction moves register runs and no fibre; a span moves to another cluster; a finished grid is gone, and its
launcher learns of it. -/
def Obligations.GridsAndScheduling : Prop :=
  (∀ s grid gr span c cores, s.grid grid = some gr → s.placeable gr span c cores = true → gr.desc.spcap = 0 → 0 < gr.desc.width →
    let d := gr.desc
    let order := (List.range 16).filter cores.contains
    ∃ (u : State) (gr' : Grid), exec (.spanPlacement grid span c cores) s = .next u ∧ u.grid grid = some gr' ∧ gr'.placed = gr.placed ++ [span] ∧
      gr'.desc = d ∧ u.gangs.length = s.gangs.length + d.spang ∧ (u.cluster c).idle = false ∧
      ∀ (i core : Nat), order[i]? = some core → ∃ g ∈ u.gangs, g.grid = gr.key ∧ g.ctx = gr.ctx ∧ g.spanid = span ∧ g.gangid = i ∧
        g.linear = d.spang * span + i ∧ g.cluster = c ∧ g.core = core ∧ g.nregs = d.regs ∧ g.det = d.det ∧ g.csn = gr.csn ∧ g.hcpc = gr.hcpc ∧
        g.ended = false ∧ g.frozen = false ∧ g.stepCount = gr.stepcnt ∧ g.skeins.length = d.gangsk ∧
        ∀ (k : Nat) (sk : Skein), g.skeins[k]? = some sk → sk.width = d.width ∧ sk.record = [] ∧
          ∀ n, n < min d.width (d.fibs - k * d.width) → ∃ x, sk.fibre n = some x ∧ x.pc = (if d.start then d.simg else d.rimg) ∧ x.pers = d.pers ∧
            x.wait = .none ∧ x.parked = false) ∧
  (∀ s grid gr span c cores, s.grid grid = some gr → s.placeable gr span c cores = false → Leads (.spanPlacement grid span c cores) s s) ∧
  (∀ s key (g : Gang) bs s1 es s2 k t, s.gang key = some g → g.ended = false → g.frozen = false → g.poolCap ≠ 0 → g.poolBad = false →
    (∀ sk ∈ g.skeins, sk.slots.length = sk.width) → s.readGlobal g.ctx (s.worldOf g) g.poolBase 16 = .ok (bs, s1) →
    let head := ringField bs 0 4
    ringField bs 4 4 ≤ g.poolCap → head < g.poolCap → ringField bs 4 4 ≠ 0 →
    s1.readGlobalLong g.ctx (s1.worldOf g) 3 (g.poolBase + 16 + head * ((s1.grid g.grid).map Grid.poolEntrySize).getD 64)
      (((s1.grid g.grid).map Grid.poolEntrySize).getD 64) = .ok (es, s2) →
    g.freeSlot (ringField es 0x18 4 / ((g.skeins.head?).map (·.width)).getD 32) = some (k, t) →
    ∃ (u : State) (sk sk' : Skein) (y : Fibre), exec (.spawnRefill key) s = .next u ∧ g.skeins[k]? = some sk ∧ sk.fibre t = none ∧
      u.skein key k = some sk' ∧ sk'.fibre t = some y ∧ y.pc = BitVec.ofNat 64 (ringField es 0 8) ∧ y.gpc = BitVec.ofNat 64 (ringField es 8 8) ∧
      y.wshift = ringField es 0x14 2 ∧ y.pers = ringField es 0x16 1 % 16 ∧ y.wait = .none ∧ y.regs.length = g.nregs ∧
      (∀ r, r ≠ y.wshift → r < g.nregs → y.regs.getD r 0 = BitVec.ofNat 32 (ringField es (0x40 + 4 * r) 4)) ∧
      y.e = (List.range 8).map (fun i => BitVec.ofNat 32 (ringField es (0x20 + 4 * i) 4)) ∧
      ∀ n x, n ≠ t → sk.fibre n = some x → sk'.fibre n = some (untried x)) ∧
  (∀ s c r, s.nextIn c = some r →
    let put (s : State) (r : Resident) (on : Bool) : State := s.modSkein r.gang.key r.k fun sk =>
      if on then { sk with active := true, issued := false, readyFrom := max sk.readyFrom ((s.core r.gang.coreNo).clocks + 2) }
      else { sk with active := false }
    let n := coreNumber c.cluster c.core
    (s.activeCount c.cluster c.core < 8 → Leads (.skeinMoveIn c) s (put s r true)) ∧
    (∀ a, 8 ≤ s.activeCount c.cluster c.core → (s.coreSkeins c).find? s.movesOut = some a →
      Leads (.skeinMoveIn c) s (put (put s a false) r true)) ∧
    (∀ a, 8 ≤ s.activeCount c.cluster c.core → (s.core n).rotated ≤ (s.core n).clocks → 256 ≤ r.sk.age →
      ((s.coreSkeins c).filter fun a => a.sk.active && a.sk.issued).find? (fun a => !s.residentReady a) = some a →
      Leads (.forcedRotation c) s ((put (put s a false) r true).modCore n fun k => { k with rotated := k.clocks + 8 })) ∧
    (r.sk.age < 256 → Leads (.forcedRotation c) s s)) ∧
  (∀ s c, ∃ u : State, exec (.compaction c) s = .next u ∧ u.mem = s.mem ∧ u.clusters = s.clusters ∧
    (∀ gk k (sk : Skein), s.skein gk k = some sk → ∃ sk' : Skein, u.skein gk k = some sk' ∧ sk'.record = sk.record ∧
      ∀ n x, sk.fibre n = some x → sk'.fibre n = some (untried x)) ∧
    ∀ (w : Grid) l cost (r : Resident) at_, s.runsWanted c = w :: l →
      cheapest (openings (s.runsUsed c.cluster c.core) ((rangeFrom 0 512).flatMap fun b => (s.coreSkeins c).filter fun r => r.sk.block == b)
        (runLength w.desc.width w.desc.regs)) =
        some (cost, [(r, at_)]) → ∀ sk, s.skein r.gang.key r.k = some sk → ∃ sk' : Skein, u.skein r.gang.key r.k = some sk' ∧ sk'.block = at_ ∧
          sk'.active = false ∧ sk'.moving = (s.core (coreNumber c.cluster c.core)).clocks + cost) ∧
  (∀ s grid span new gr (g : Gang), s.grid grid = some gr →
    (s.gangs.filter fun g => g.kind != .handle && g.grid == grid && g.spanid == span && !g.ended) = [g] → s.relocatable gr [g] g.cluster new = true →
    gr.desc.footBanks = [] → s.slotsHeld g = [] → (∀ sk ∈ g.skeins, sk.record = []) → (s.gangs.map (·.key)).Nodup →
    ∃ (u : State) (g' : Gang), exec (.relocation grid span new) s = .next u ∧ u.gang g.key = some g' ∧ g'.cluster = new ∧ g'.core = g.core ∧
      (u.cluster g.cluster).forwards = (s.cluster g.cluster).forwards ++ [⟨gr.world, grid, span, new⟩]) ∧
  (∀ s cl, Leads (.forwardExpiry cl) s (s.modCluster cl fun k => { k with forwards := k.forwards.drop 1 })) ∧
  (∀ s grid gr, s.grid grid = some gr →
    (s.gridOver gr = false → Leads (.gridComplete grid) s s) ∧
    (∀ c t, s.gridOver gr = true → (∀ g ∈ s.gangs, g.grid = grid → g.kind ≠ .handle → s.anyHeld g.cluster = false) →
      gr.launcher = .thread c t → (s.cluster c).heldOf gr.world = 0 → (s.cluster c).eventRoom gr.world 1 = true →
      ∃ u : State, exec (.gridComplete grid) s = .next u ∧ u.grid grid = none ∧ (∀ g ∈ u.gangs, g.grid = grid → g.kind = .handle) ∧
        (u.cluster c).events = (s.cluster c).events ++
          [⟨gr.world, BitVec.ofNat 32 (0x80000000 + t), 0x80000000, BitVec.ofNat 64 gr.csn⟩]) ∧
    (∀ w q n p, s.gridOver gr = true → (∀ g ∈ s.gangs, g.grid = grid → g.kind ≠ .handle → s.anyHeld g.cluster = false) →
      gr.launcher = .packet w q n → (s.queue w q).live.find? (fun p => p.number == n) = some p → p.caddr = 0 →
      ∃ u : State, exec (.gridComplete grid) s = .next u ∧ u.grid grid = none ∧ (∀ g ∈ u.gangs, g.grid = grid → g.kind = .handle) ∧
        (∀ p ∈ (u.queue w q).live, p.number ≠ n)))

/-- spec/12 R327, spec/13 R328, R329, R346 to R353, spec/22 R461 to R463: switch requests, the freezing and resuming of a world, requests for
a checkpoint, the cut, shadow copies, the drain, and its registers.  That a write before the boot has ended changes nothing is the model's reading
(notes/assumptions/124). -/
def Obligations.ContextsAndCheckpoints : Prop :=
  (∀ s w (v : BitVec 64), (s.world w).cswbusy = true ∨ s.boot ≠ 1 → exec (.cswctlGo w v) s = .next s) ∧
  (∀ s w (v : BitVec 64), s.boot = 1 → (s.world w).cswbusy = false → v.toNat.testBit 63 = true →
    let cl := w / 64 * (32 / s.partitions) + v.toNat / 8 % 32 % (32 / s.partitions)
    ∃ u : State, exec (.cswctlGo w v) s = .next u ∧ (u.world w).cswbusy = true ∧ (u.world w).cswcl = v.toNat / 8 % 32 ∧
      (u.cluster cl).switches = (s.cluster cl).switches ++ [w] ∧ u.gangs = s.gangs ∧ u.ctxs = s.ctxs ∧ u.mem = s.mem) ∧
  (∀ s cl w l, (s.cluster cl).switches = w :: l → (s.world w).frozen = false →
    let swap := s.swapRun (s.worldAccess w cl) (s.world w).cswout (s.world w).cswin (2 ^ 32) (if (s.world w).cswbegun then 2 else 0) 0
    (∀ (st : Nat) (s1 : State), swap = .ended st s1 → (s1.cluster cl).heldOf w = 0 → (s1.cluster cl).eventRoom w 1 = true →
      ∃ u : State, exec (.switchRequestServe cl) s = .next u ∧ (u.world w).cswst = st ∧ (u.world w).cswbusy = false ∧
        (u.cluster cl).switches = (s1.cluster cl).switches.drop 1 ∧ u.ctxs = s1.ctxs ∧ u.mem = s1.mem ∧
        (u.cluster cl).events = (s1.cluster cl).events ++ [⟨w, BitVec.ofNat 32 (0x83000000 + w), 0x80000000, BitVec.ofNat 64 st⟩]) ∧
    (∀ (st : Nat) (s1 : State), swap = .ended st s1 → (s1.cluster cl).heldOf w ≠ 0 ∨ (s1.cluster cl).eventRoom w 1 = false →
      ∃ u : State, exec (.switchRequestServe cl) s = .next u ∧ (u.world w).cswst = st ∧ (u.world w).cswbusy = false ∧
        (u.cluster cl).switches = (s1.cluster cl).switches.drop 1 ∧ (u.cluster cl).events = (s1.cluster cl).events)) ∧
  (∀ s cl w l, (s.cluster cl).switches = w :: l → (s.world w).frozen = true → Leads (.switchRequestServe cl) s s) ∧
  (∀ s key c, s.ctx key = some c → c.st = .running → 2 ^ 63 ≤ (s.part (c.world / 64)).wfreeze → (s.part (c.world / 64)).wfreeze < 2 ^ 64 →
    (s.part (c.world / 64)).wfreeze % 256 = c.world →
    ∃ (u : State) (c' : Context), exec (.freezePoint key) s = .next u ∧ u.ctx key = some c' ∧ c'.st = .frozen true ∧ c'.ctxid = c.ctxid ∧
      ((∀ g ∈ s.gangs, ∀ sk ∈ g.skeins, ∀ e ∈ sk.record, ∀ o ∈ e.ops, o.near = false) →
        c'.saved.map (·.key) = ((s.gangs.filter fun g => g.kind != .handle && g.ctx == key &&
          !(g.ended && g.skeins.all fun sk => sk.record.isEmpty)).map (·.key))) ∧ (∀ g ∈ c'.saved, g.frozen = true) ∧
      ((∀ x ∈ s.ctxs, x.world = c.world → x.key ≠ key → x.st ≠ .running) → (u.part (c.world / 64)).wfreeze = c.world)) ∧
  (∀ s (r : RegWrite) p, s.boot = 1 → r.page = none → r.by_ = 64 * p → (s.part p).wfreeze < 2 ^ 63 → r.v.toNat.testBit 9 = false → r.v.toNat % 256 / 64 = p →
    let w := r.v.toNat % 256
    ∃ u : State, exec (.wfreezeGo r) s = .next u ∧ (u.world w).frozen = true ∧
      (u.part p).wfreeze = w + (if ∃ c ∈ s.ctxs, c.world = w ∧ c.st = .running then 2 ^ 63 else 0) ∧
      (∀ g ∈ u.gangs, g.kind = .handle → s.worldOf g = w → g.frozen = true) ∧ u.ctxs = s.ctxs ∧ u.mem = s.mem) ∧
  (∀ s (r : RegWrite) p c s3, s.boot = 1 → r.page = none → r.by_ = 64 * p → (s.part p).wfreeze < 2 ^ 63 → r.v.toNat.testBit 8 = false →
    r.v.toNat % 256 / 64 = p →
    let w := r.v.toNat % 256
    let s2 := ((s.modPart p fun x => { x with wfreeze := w }).modWorld w fun x => { x with frozen := false }).holdThreads w false
    (s.ctxs.filter fun c => c.world == w && c.st == .frozen true) = [c] → (s2.rerecord c).loadCtx c.key = .done s3 →
    ∃ (u : State) (c' : Context), exec (.wfreezeResume r) s = .next u ∧ u.ctx c.key = some c' ∧
      c'.st = .running ∧ c'.saved = []) ∧
  (∀ s p, let x := s.part p
    (x.ckptcfg.toNat.testBit 63 = true → x.ckptcfg.toNat / 2 ^ 32 % 2 ^ 24 ≠ 0 → x.ckpt.phase ≠ 1 → x.ckpt.phase ≠ 2 →
      exec (.checkpointTimer p) s = .next (s.modPart p fun x => { x with ckpt := { x.ckpt with timer := true } })) ∧
    (x.ckptcfg.toNat.testBit 63 = false ∨ x.ckptcfg.toNat / 2 ^ 32 % 2 ^ 24 = 0 ∨ x.ckpt.phase = 1 ∨ x.ckpt.phase = 2 →
      exec (.checkpointTimer p) s = .next s)) ∧
  (∀ s p, ((s.part p).ckpt.phase ≠ 1 → exec (.checkpointCut p) s = .next s) ∧
    ((s.part p).ckpt.phase = 1 → (∀ g ∈ s.gangs, s.partOfCluster g.cluster = p → ∀ sk ∈ g.skeins, sk.ackc = 0) →
      (s.part p).ckptcfg.toNat.testBit 62 = true →
      ∃ u : State, exec (.checkpointCut p) s = .next u ∧ (u.part p).ckpt.phase = 2 ∧ (u.part p).ckpt.lo = p * 2 ^ 52 / 2 ^ 18 ∧
        (u.part p).ckpt.hi = p * 2 ^ 52 / 2 ^ 18 + 768 * 2 ^ 30 / s.partitions / 2 ^ 18 ∧ (u.part p).ckpt.thawed = [] ∧
        (u.part p).ckpt.opened = false ∧ (u.part p).ckpt.adr = (s.part p).ckptadr ∧ (u.part p).ckpt.tgt = (s.part p).ckpttgt ∧
        (u.part p).ckpt.heldContexts = ((s.ctxs.filter fun c => c.world / 64 == p && c.st == .running).map (·.key)))) ∧
  (∀ s p f, ((s.part p).ckpt.holds f = false → exec (.shadowCopy p f) s = .next s) ∧
    ((s.part p).ckpt.holds f = true → f * 2 ^ 18 / 2 ^ 52 = p → (s.part p).ckpt.shadow.length < (s.part p).shadowFrames →
      ∃ u : State, exec (.shadowCopy p f) s = .next u ∧ (u.part p).ckpt.thawed = (s.part p).ckpt.thawed ++ [f] ∧
        ∃ m, (u.part p).ckpt.shadow = (s.part p).ckpt.shadow ++ [(f, m)] ∧ (s.mem.wf = true → ∀ a, a / 2 ^ 18 = f → m.read a = s.mem.read a))) ∧
  (∀ s p d, let c := (s.part p).ckpt
    c.phase = 2 → c.pull = false → c.tgt.toNat / 2 ^ 62 = 1 → d = c.tgt.toNat / 2 ^ 42 % 2 ^ 20 →
    s.peerGone p d = false → s.rosterOk (64 * p) d .store = true →
    ((c.opened = false → ∃ u : State, exec (.drainFrame p none) s = .next u ∧ (u.part p).ckpt.opened = true ∧ (u.part p).ckpt.phase = 2 ∧
        tget u.peers d = some (((tget s.peers d).getD []).writeBytes (c.adr.toNat / 4096 * 4096) [0, 0, 0, 0])) ∧
      (c.opened = true → c.lo < c.hi → ∃ u : State, exec (.drainFrame p none) s = .next u ∧ (u.part p).ckpt.lo = c.lo + 1 ∧
        (u.part p).ckpt.phase = 2 ∧ tget u.peers d = some (((tget s.peers d).getD []).writeBytes
          (c.adr.toNat / 4096 * 4096 + (0x1000 + (c.lo * 2 ^ 18 - p * 2 ^ 52))) (s.frameBytes p c.lo))))) ∧
  (∀ s p n, (s.part p).ckpt.phase = 2 → (s.part p).ckpt.pull = false → (s.part p).ckpt.heldContexts = [] →
    ∃ u : State, exec (.drainFrame p (some n)) s = .next u ∧ (u.part p).ckpt.phase = 4 ∧ (u.part p).ckpt.shadow = []) ∧
  (∀ s (r : RegWrite) p, s.boot = 1 → r.page = none → r.by_ = 64 * p →
    (∃ (u : State), exec (.ckptcfgWrite r) s = .next u ∧ ((s.part p).ckpt.heldContexts = [] →
      (u.part p).ckptcfg.toNat % 2 ^ 56 = r.v.toNat % 2 ^ 56 ∧ (u.part p).ckptcfg.toNat / 2 ^ 56 % 64 = 0 ∧
      (u.part p).ckptcfg.toNat / 2 ^ 62 = r.v.toNat / 2 ^ 62 ∧
      (r.v.toNat.testBit 63 = true → (u.part p).ckpt = (s.part p).ckpt) ∧
      (r.v.toNat.testBit 63 = false → (s.part p).ckpt.phase = 1 ∨ (s.part p).ckpt.phase = 2 → (u.part p).ckpt.phase = 4)))) ∧
  (∀ s (r : RegWrite) p, s.boot = 1 → r.page = none → r.by_ = 64 * p → let c := (s.part p).ckpt
    let f := (p * 2 ^ 52 + r.v.toNat % 2 ^ 52) / 2 ^ 18
    c.phase = 2 → c.pull = true → c.lo ≤ f → f < c.hi → f ∉ c.streamed → f ∉ c.thawed → 1 < c.left →
    ∃ u : State, exec (.ckptack r) s = .next u ∧ (u.part p).ckpt.streamed = c.streamed ++ [f] ∧ (u.part p).ckpt.thawed = c.thawed ++ [f] ∧
      (u.part p).ckpt.left = c.left - 1 ∧ (u.part p).ckpt.phase = 2)

/-- spec/05 R107, spec/14 R357 to R361, R365 to R367, R370, R371, spec/21 R441 to R443, R449, R452 to R454: host translations and their
invalidation, ports and peers that go down and come back, requests that arrive, and bounce channels; what a full translation cache drops, and
that a full invalidation queue takes no request, is notes/assumptions/127. -/
def Obligations.PortsLinksAndBounce : Prop :=
  let quiet (s : State) : Prop := ∀ g ∈ s.gangs, ∀ sk ∈ g.skeins, sk.replaying = false
  (∀ s w page frame, quiet s → (s.part (w / 64)).atsReqs.count (w, page) = 1 → s.asleep w = false →
    Leads (.atsTranslationCompletion w page frame true true) s
      (let t := s.modPart (w / 64) fun x => { x with atsReqs := x.atsReqs.erase (w, page) }
       let kept := s.ats.filter fun y => !(y.world == w && y.page == page)
       let own (y : AtsEntry) : Bool := y.world / 64 == w / 64
       { t with ats := (if kept.countP own < 16384 then kept else kept.eraseP own) ++ [⟨w, page, frame, true, true, 0⟩] })) ∧
  (∀ s w page frame rd wr, quiet s → (w, page) ∉ (s.part (w / 64)).atsReqs → Leads (.atsTranslationCompletion w page frame rd wr) s s) ∧
  (∀ s w page, quiet s → (w, page) ∈ (s.part (w / 64)).pageReqs → s.asleep w = false →
    (∃ u : State, exec (.pageRequestResponse w page true) s = .next u ∧ (w, page) ∈ (u.part (w / 64)).atsReqs ∧ u.ats = s.ats ∧
      (u.part (w / 64)).pageReqs = (s.part (w / 64)).pageReqs.erase (w, page)) ∧
    (∃ u : State, exec (.pageRequestResponse w page false) s = .next u ∧ (∃ x ∈ u.ats, x.world = w ∧ x.page = page ∧ x.fails = 3) ∧
      (u.part (w / 64)).pageReqs = (s.part (w / 64)).pageReqs.erase (w, page))) ∧
  (∀ s w first last, (w, first, last) ∉ (s.part (w / 64)).invals → 32 ≤ (s.part (w / 64)).invals.length →
    Leads (.atsInvalidation w first last) s s) ∧
  (∀ s w first last, (w, first, last) ∉ (s.part (w / 64)).invals → (s.part (w / 64)).invals.length < 32 → s.rangeBusy w first last = false →
    ∃ u : State, exec (.atsInvalidation w first last) s = .next u ∧
      u.ats = s.ats.filter (fun x => !(x.world == w && (first ≤ x.page && x.page ≤ last))) ∧ (u.part (w / 64)).invals = (s.part (w / 64)).invals ∧
      u.answers = s.answers ++ [((s.pciePorts (w / 64)).headD 24, 0, [])] ∧ u.mem = s.mem ∧ u.host = s.host) ∧
  (∀ s (r : RegWrite) x, s.boot = 1 → r.page = none → (s.part (r.by_ / 64)).xinvBusy = false → r.v.toNat.testBit 0 = true →
    x = (if r.by_ % 64 = 0 then r.v.toNat / 2 ^ 56 else r.by_) → x / 64 = r.by_ / 64 →
    ∃ u : State, exec (.xinvGo r) s = .next u ∧ (u.part (r.by_ / 64)).xinvBusy = true ∧ u.mem = s.mem ∧
      (r.v.toNat.testBit 1 = true → ∀ c, ∀ d ∈ (u.cluster c).doc, d.world ≠ x) ∧ ∀ t, t ∈ u.tlb ↔ t ∈ s.tlb ∧ (t.world ≠ x ∨ r.v.toNat.testBit 1 = false ∧
        ¬ (t.page ≤ r.v.toNat / 2 ^ 18 % 2 ^ 38 ∧ r.v.toNat / 2 ^ 18 % 2 ^ 38 < t.page + t.pages))) ∧
  (∀ s p, let w := (s.part p).xinv.toNat / 2 ^ 56
    ((s.part p).xinvBusy = true → s.worldBusy w = false → ∃ u : State, exec (.xinvComplete p) s = .next u ∧ (u.part p).xinvBusy = false ∧
      u.tlb = s.tlb ∧ u.mem = s.mem ∧ ((s.part p).xinv.toNat.testBit 1 = true → w / 64 = p → (u.world w).roster = some (s.rosterInMemory w))) ∧
    ((s.part p).xinvBusy = false ∨ s.worldBusy w = true → Leads (.xinvComplete p) s s)) ∧
  (∀ s p d, ((s.routeOf p d).any s.portUp = true → Leads (.peerUnreachable p d) s s) ∧
    ((∀ n ∈ s.routeOf p d, s.portUp n = false) → s.peerGone p d = false → (∀ g ∈ s.gangs, ∀ sk ∈ g.skeins, sk.record = []) →
      Leads (.peerUnreachable p d) s { s with unreachable := s.unreachable ++ [p * 2 ^ 20 + d] })) ∧
  (∀ s port, port = 24 ∨ port = 25 → quiet s → (∀ g ∈ s.gangs, ∀ sk ∈ g.skeins, sk.record = []) → (∀ c ∈ s.ctxs, c.saved = []) →
    ∃ u : State, exec (.pcieLinkDown port) s = .next u ∧ exec (.portDown port) s = .next u ∧ (tget u.ports port).map (·.up) = some false ∧
      u.mem = s.mem ∧ ∀ p, p < s.partitions → port ∈ s.pciePorts p → (u.part p).pageReqs = [] ∧ (u.part p).atsReqs = [] ∧
        ∀ x ∈ u.ats, x.world / 64 = p → x.fails = 4) ∧
  (∀ s port, port < 24 → let old : Port := (tget s.ports port).getD ⟨true, 0⟩
    Leads (.portDown port) s ({ s with ports := tset s.ports port ⟨false, old.session⟩ } : State) ∧
    exec (.linkSessionRekey port) s = .next { s with ports := tset s.ports port ⟨old.up, old.session + 1⟩ }) ∧
  (∀ s port, let old : Port := (tget s.ports port).getD ⟨true, 0⟩
    let t : State := { s with ports := tset s.ports port ⟨true, old.session⟩ }
    Leads (.linkRetrained port) s { t with unreachable := s.unreachable.filter (fun n => !(t.routeOf (n / 2 ^ 20) (n % 2 ^ 20)).any t.portUp) }) ∧
  (∀ s (r : PortRequest), s.boot = 1 → s.portServes r = true → r.bytes ≠ [] → 24 ≤ r.port → s.deviceHome (r.world / 64) r.addr r.bytes.length = some .dev →
    (∀ p f, (s.part p).ckpt.holds f = false) →
    let p := r.world / 64
    ((s.part p).pscur = 2 → Leads (.incomingPortRequest r) s (s.modPart p fun x => { x with psheld := x.psheld ++ [r], psexit := true })) ∧
    (∀ bs, (s.part p).pscur ≠ 2 → r.op = .read → s.readDev r.world (p * 2 ^ 52 + r.addr) r.bytes.length = .ok bs →
      Leads (.incomingPortRequest r) s { s with answers := s.answers ++ [(r.port, 0, bs)] }) ∧
    (∀ s2, (s.part p).pscur ≠ 2 → r.op = .write → s.writeDev r.world (p * 2 ^ 52 + r.addr) r.bytes = .ok s2 → s2.portHits r = [] →
      ∃ u : State, exec (.incomingPortRequest r) s = .next u ∧ u.mem = s2.mem ∧ u.answers = s2.answers ++ [(r.port, 0, [])])) ∧
  (∀ s w c (v : BitVec 64), s.doorbellsOn w = true → (s.part (w / 64)).pscur = 2 → Leads (.bounceDoorbell w c v) s
    (s.modPart (w / 64) fun x => { x with psbells := x.psbells ++ [(true, w, c, v.toNat)], psexit := true })) ∧
  (∀ s w c (v : BitVec 64), s.doorbellsOn w = true → c < 16 → (s.part (w / 64)).pscur ≠ 2 → let b := s.channel w c
    let put (b : Bounce) : State := s.modWorld w fun x => { x with bounce := tset x.bounce c b }
    (b.mism = true → Leads (.bounceDoorbell w c v) s (put { b with staged := some v.toNat })) ∧
    (b.mism = false → b.usable = true → (v.toNat + 2 ^ 64 - b.cons) % 2 ^ 64 ≤ 2 ^ (b.ctl.toNat % 32) →
      Leads (.bounceDoorbell w c v) s (put { b with prod := v.toNat }))) ∧
  (∀ s w c (v : BitVec 64), s.boot = 1 → let b := s.channel w c
    let put (b : Bounce) : State := s.modWorld w fun x => { x with bounce := tset x.bounce c b }
    (∀ n, b.staged = some n → b.mism = true → v.toNat % 2 ^ 32 ≠ b.gen → (n + 2 ^ 64 - b.cons) % 2 ^ 64 ≤ 2 ^ (b.ctl.toNat % 32) →
      Leads (.bounceResync w c v) s (put { b with gen := v.toNat % 2 ^ 32, mism := false, staged := none, prod := n })) ∧
    (b.staged = none ∨ b.mism = false ∨ v.toNat % 2 ^ 32 = b.gen → Leads (.bounceResync w c v) s s)) ∧
  (∀ s w c bs s1 s2, let b := s.channel w c
    let next := (b.cons + 1) % 2 ^ 64
    b.usable = true → b.mism = false → b.cons ≠ b.prod → s.doorbellsOn w = true → (s.part (w / 64)).pscur = 0 →
    s.readRange (s.bounceAccess w) 8 b.from_ b.slotBytes = .ok bs s1 →
    s1.agentWrites (s.bounceAccess w) (pieceWrites (pagePieces 8 b.to_ b.slotBytes) bs ++ [(b.countAt, bytesOf 8 next)]) = .ok none s2 →
    ∃ u : State, exec (.bounceSlotLand w c) s = .next u ∧ u.mem = s2.mem ∧ u.host = s2.host ∧
      tget (u.world w).bounce c = some { s2.channel w c with cons := next, last := next }) ∧
  (∀ s w c, let b := s.channel w c
    b.mism = true ∨ b.cons = b.prod → Leads (.bounceSlotLand w c) s s)

/-- spec/01 R14 to R25, spec/02 R48, spec/11 R290, R304, R305, spec/13 R337, spec/14 R363, spec/15 R380, spec/19 R414, R425, spec/21 R452:
what the host's writes of registers do, the power states of a partition and of a cluster, and a clock's change.  That a
write before the boot has ended changes nothing is the model's reading (notes/assumptions/124). -/
def Obligations.RegistersPowerAndClocks : Prop :=
  let own (s : State) (r : RegWrite) (p : Nat) : Prop := s.boot = 1 ∧ r.page = none ∧ r.by_ = 64 * p
  (∀ s r p c st s', own s r p → r.v.toNat.testBit 63 = true → (s.part p).dutycfg.toNat.testBit 3 = true → r.v.toNat % 2 ^ 32 = 2 ^ c →
    s.partitions = 1 ∨ s.partitions = 2 ∨ s.partitions = 4 → p < s.partitions → c / (32 / s.partitions) = p →
    s.loadTable p c (r.v.toNat / 2 ^ 32 % 16) ((s.part p).wvhaddr.toNat / 2 ^ 8 % 2 ^ 44 * 256) = (st, s') →
    ∃ u : State, exec (.wvhctlGo r) s = .next u ∧ u.clusters = s'.clusters ∧ u.mem = s'.mem ∧
      (u.part p).wvhctl.toNat % 2 ^ 36 = r.v.toNat % 2 ^ 36 ∧ (u.part p).wvhctl.toNat / 2 ^ 36 = st % 8) ∧
  (∀ s r p, own s r p → (s.part p).dutycfg.toNat.testBit 3 = false → exec (.wvhctlGo r) s = .next s) ∧
  (∀ s r p, own s r p → s.partitions = 1 ∨ s.partitions = 2 ∨ s.partitions = 4 → ∃ u : State, exec (.eiscfgWrite r) s = .next u ∧ u.mem = s.mem ∧
    (u.part p).eiscfg.toNat = r.v.toNat / 2 ^ 12 % 2 ^ 40 * 4096 + (if 10 ≤ r.v.toNat % 32 ∧ r.v.toNat % 32 ≤ 24 then r.v.toNat % 32 else 0) ∧
    ∀ c, s.partOfCluster c = p → (u.cluster c).doc = [] ∧ (u.cluster c).weave = (s.cluster c).weave) ∧
  (∀ s r p, own s r p → Leads (.dutycfgWrite r) s (s.modPart p fun x => { x with dutycfg := BitVec.ofNat 32 (r.v.toNat % 64) })) ∧
  (∀ s r p, own s r p → ∃ u : State, exec (.pwrlimWrite r) s = .next u ∧
    u.devw = (if p = 0 then max 1600 (min 3200 (r.v.toNat / 2 ^ 32 % 2 ^ 16)) else s.devw) ∧
    (u.part p).sharew = max (1600 / s.partitions) (min u.devw (r.v.toNat % 2 ^ 16)) ∧ u.mem = s.mem ∧ u.gangs = s.gangs) ∧
  (∀ s r p, own s r p → r.v.toNat % 4 = 1 → (s.part p).pscur ≠ 2 →
    (s.holdsContext p = true → exec (.ps2Request r) s = .next (s.modPart p fun x => { x with psref := true })) ∧
    (s.holdsContext p = false → s.partitions = 1 ∨ s.partitions = 2 ∨ s.partitions = 4 → ∃ u : State, exec (.ps2Request r) s = .next u ∧
      (u.part p).pscur = 2 ∧ (u.part p).psref = false ∧
      ∀ c, s.partOfCluster c = p → (u.cluster c).banks = [] ∧ (u.cluster c).scratch = [] ∧ (u.cluster c).cache = [] ∧
        (u.cluster c).local_ = [])) ∧
  (∀ s r p, own s r p → r.v.toNat % 4 = 2 → (s.part p).pscur = 2 →
    exec (.ps0Request r) s = .next (s.modPart p fun x => { x with psexit := true })) ∧
  (∀ s p, ((s.part p).psexit = false → Leads (.ps2Exit p) s s) ∧
    ((s.part p).psexit = true → (s.part p).psheld = [] → (s.part p).psbells = [] →
      Leads (.ps2Exit p) s (s.modPart p fun x => { x with pscur := 0, psexit := false, psheld := [], psbells := [] }))) ∧
  (∀ s c, (∀ g ∈ s.gangs, g.cluster = c → g.ended = true) → exec (.ps1Entry c) s = .next (s.modCluster c fun k => { k with idle := true })) ∧
  (∀ s c, (∃ g ∈ s.gangs, g.cluster = c ∧ g.ended = false) → exec (.ps1Entry c) s = .next s) ∧
  (∀ s r p, own s r p → (p ≠ 0 → exec (.partcfgWrite r) s = .next s) ∧ (p = 0 → exec (.partcfgWrite r) s = .next (s.modPart 0 fun x =>
    { x with pnext := if r.v.toNat % 4 = 3 then (if s.partitions = 1 then 0 else if s.partitions = 2 then 1 else 2) else r.v.toNat % 4 }))) ∧
  (∀ s r p, own s r p → ∃ u : State, exec (.ecccntClear r) s = .next u ∧ u.mem = s.mem ∧
    (u.part p).ecc.toNat % 2 ^ 32 = (if r.v.toNat % 2 ^ 32 = 0 then (s.part p).ecc.toNat % 2 ^ 32 else 0) ∧
    (u.part p).ecc.toNat / 2 ^ 32 = (if r.v.toNat / 2 ^ 32 = 0 then (s.part p).ecc.toNat / 2 ^ 32 else 0)) ∧
  (∀ s r p, own s r p → exec (.ctrselWrite r) s = .next (s.modPart p fun x => { x with ctrsel := BitVec.ofNat 64 (r.v.toNat % 2 ^ 26) })) ∧
  (∀ s r p, own s r p → r.off = 0x44 → Leads (.registerWrite r) s (s.modPart p fun x => { x with migdis := r.v.toNat.testBit 0 })) ∧
  (∀ s r p, own s r p → r.off = 0xF0 → ∃ u : State, exec (.registerWrite r) s = .next u ∧ u.mem = s.mem ∧
    (u.part p).fabtmo.toNat % 2 ^ 24 = max 100 (min 16000000 (r.v.toNat % 2 ^ 24)) ∧
    (u.part p).fabtmo.toNat / 2 ^ 24 = max 1 (r.v.toNat / 2 ^ 24 % 2 ^ 8)) ∧
  (∀ s r p w, own s r p → w < 256 → w / 64 = p → r.off = 0x2000 + 8 * w → ∃ u : State, exec (.registerWrite r) s = .next u ∧
    u.world w = (if (s.world w).tdisp = .unlocked then { s.world w with parkbase := r.v } else s.world w) ∧ u.mem = s.mem) ∧
  (∀ s (r : RegWrite) x, r.page = some x →
    (s.boot = 1 → r.by_ = x ∨ r.by_ = 64 * (x / 64) → r.off = 0x2800 →
      Leads (.registerWrite r) s (s.modWorld x fun y => { y with fhvec := BitVec.ofNat 64 (r.v.toNat / 8 * 8) })) ∧
    (r.by_ ≠ x → r.by_ ≠ 64 * (x / 64) → Leads (.registerWrite r) s s)) ∧
  (∀ s (r : RegWrite), s.boot ≠ 1 ∨ r.page = none ∧ r.by_ % 64 ≠ 0 → Leads (.registerWrite r) s s) ∧
  (∀ s r p, own s r p → r.off = 0xA0 → (s.part p).wfreeze < 2 ^ 63 →
    Leads (.registerWrite r) s (s.modPart p fun x => { x with wfreeze := r.v.toNat % 256 })) ∧
  (∀ s die kind mhz, let top := if kind = .stake then 3200 else 2400
    let n := match kind with | .rand => 0 | .stake => 1 | .handle => 2
    exec (.clockRelock die kind mhz) s = .next
      (if die < 4 ∧ 0 < mhz ∧ mhz ≤ top then { s with clocks := tset s.clocks (3 * die + n) mhz } else s))

/-- spec/14 R363, R368, R369, R373 to R375, spec/15 R381 to R383: who owns a cluster's trace unit, TDISP states and keys, measurements, and
debug unlocks. -/
def Obligations.TraceDebugAndTrust : Prop :=
  let now (s : State) (c owner : Nat) : State := s.modCluster c fun k => { k with trace := { k.trace with
    owner := owner, dropped := 0, polling := (s.part (s.partOfCluster c)).dutycfg.toNat.testBit 5 } }
  (∀ s c w, s.boot = 1 → (s.cluster c).trace.owner = 0 → (s.traceRegs c (w + 2)).state ≠ 2 → s.partOfCluster c = w / 64 →
    Leads (.traceClaim c (some w)) s (now s c (w + 2))) ∧
  (∀ s c, s.boot = 1 → (s.cluster c).trace.owner = 0 → Leads (.traceClaim c none) s (now s c 1)) ∧
  (∀ s c w, s.boot = 1 → (s.cluster c).trace.owner = w + 2 → ∃ u : State, exec (.traceClaim c none) s = .next u ∧ (u.cluster c).trace.owner = 1 ∧
    (u.traceRegs c (w + 2)).state = 2) ∧
  (∀ s c o, (s.cluster c).trace.owner ≠ 0 → Leads (.traceClaim c (some o)) s s) ∧
  (∀ s c o, s.boot = 1 → (s.cluster c).trace.owner = (match o with | none => 1 | some w => w + 2) →
    Leads (.traceRelease c o) s (if 10 ≤ (s.traceRegs c (s.cluster c).trace.owner).smpn
      then s.modCluster c fun k => { k with trace := { k.trace with owner := 0, dropped := 0 } } else now s c 0)) ∧
  (∀ s c w, s.boot = 1 → (s.cluster c).trace.owner ≠ w + 2 → (s.traceRegs c (w + 2)).state = 2 → ∃ u : State, exec (.traceRelease c (some w)) s = .next u ∧
    (u.traceRegs c (w + 2)).state = 0 ∧ (u.cluster c).trace.owner = (s.cluster c).trace.owner ∧ u.mem = s.mem) ∧
  (∀ s (c : CoreId) leaf, ∃ u : State, exec (.traceSample c leaf) s = .next u ∧ u.gangs = s.gangs ∧ u.ctxs = s.ctxs ∧ u.cores = s.cores ∧
    ((s.cluster c.cluster).trace.owner = 0 ∨ leaf = 0 ∨ 13 < leaf → u = s)) ∧
  (∀ s (r : RegWrite), s.boot = 1 → r.by_ = 0 → r.page = none → r.v.toNat % 2 = 1 →
    (s.security.dstate = 1 ∨ s.security.dstate = 2 → Leads (.dbggo r) s s) ∧
    (∀ n, s.security.dstate ≠ 1 → s.security.dstate ≠ 2 → s.dbgRefusal = some n → Leads (.dbggo r) s { s with security :=
      { s.security with dstate := if s.security.dstate = 3 then 3 else n, nonce := s.security.nonce + 1 } }) ∧
    (s.security.dstate ≠ 1 → s.security.dstate ≠ 2 → s.dbgRefusal = none → ∃ u : State, exec (.dbggo r) s = .next u ∧ u.security.dstate = 2 ∧
      u.security.nonce = s.security.nonce + 1 ∧ u.security.token = s.security.mailbox ∧ u.security.wipes = s.security.wipes + 1 ∧
      u.owners = [] ∧ ∀ w, (u.world w).key = 0 ∧ (u.world w).modelKey = none)) ∧
  (∀ s, (s.security.dstate ≠ 2 → exec .debugScrubDone s = .next s) ∧ (s.security.dstate = 2 → ∃ u : State, exec .debugScrubDone s = .next u ∧
    u.mem = [] ∧ u.owners = [] ∧ u.poisoned = [] ∧ u.security.dstate = 3 ∧ u.security.nonce = s.security.nonce ∧
    u.security.debugMeas = sm3 (s.security.debugMeas ++ sm3 s.security.token))) ∧
  (∀ s w m t, s.tdispNext w m = some t → t ≠ .error → ∃ u : State, exec (.tdispMessage w m) s = .next u ∧ (u.world w).tdisp = t ∧
    (u.world w).key = (if m = .lock then (s.world w).key + 1 else (s.world w).key) ∧
    u.answers = s.answers ++ [((s.pciePorts (w / 64)).headD 24, 0, [])] ∧ u.mem = s.mem ∧ ∀ x, x ≠ w → u.world x = s.world x) ∧
  (∀ s w m, s.tdispNext w m = none → exec (.tdispMessage w m) s = .next { s with answers := s.answers ++ [((s.pciePorts (w / 64)).headD 24, 1, [])] }) ∧
  (∀ (s : State) w, w % 64 ≠ 0 → s.tdispNext w .error = some .error ∧ s.tdispNext w .start = (if (s.world w).tdisp = .locked then some .run else none) ∧
    s.tdispNext w .stop = (if (s.world w).tdisp = .unlocked then none else some .unlocked) ∧
    s.tdispNext w .lock = (if (s.world w).tdisp = .unlocked ∧ ¬ (1 ≤ s.security.dstate ∧ s.security.dstate ≤ 3) then some .locked else none)) ∧
  (∀ s w, w % 64 ≠ 0 → ∃ u : State, exec (.tdispMessage w .error) s = .next u ∧ (u.world w).tdisp = .error ∧ (u.world w).key = 0 ∧
    (u.world w).modelKey = none ∧ (∀ c ∈ u.ctxs, c.world ≠ w) ∧ (∀ p ∈ u.owners, p.2.world ≠ w)) ∧
  (∀ s w key, exec (.modelKeyDelivery w key) s = .next (if (s.world w).tdisp = .locked ∨ (s.world w).tdisp = .run then
    s.modWorld w fun x => { x with modelKey := some key } else s)) ∧
  (∀ s w i, let port := (s.pciePorts (w / 64)).headD 24
    (i = 4 → exec (.spdmRequest w i) s = .next { s with answers := s.answers ++ [(port, 0, s.security.debugMeas)] }) ∧
    (i = 0 ∨ 5 < i → exec (.spdmRequest w i) s = .next { s with answers := s.answers ++ [(port, 1, [])] }) ∧
    (1 ≤ i → i ≤ 5 → ∃ bs, exec (.spdmRequest w i) s = .next { s with answers := s.answers ++ [(port, 0, bs)] }))

/-- spec/01 R19, R26 to R28, spec/13 R351, spec/14 R365: the resets, boot and power-off.  Where a register has no value of the spec's own
at reset it holds the model's (notes/assumptions/8): the first clause names only values that spec/ gives; and the fabric id that the firmware gives is a free value (notes/assumptions/7). -/
def Obligations.ResetsAndBoot : Prop :=
  (State.reset.gangs = [] ∧ State.reset.ctxs = [] ∧ State.reset.grids = [] ∧ State.reset.mem.wf = true ∧ State.reset.partitions = 1 ∧
    State.reset.devw = 3200 ∧ (State.reset.part 0).fabtmo.toNat = 20 * 2 ^ 24 + 10000 ∧
    ∀ w c k, (State.reset.world w).featmsk.toNat = 2 ^ 64 - 1 ∧ (k < 8 → (State.reset.cluster c).csns.getD k 0 = 1)) ∧
  (∀ s, ∃ u : State, exec .coldReset s = .next u ∧ u = { State.reset with
      ticks := s.ticks, free := s.free, nextKey := s.nextKey, agenda := s.agenda, host := s.host, peers := s.peers, msix := s.msix,
      answers := s.answers, security := u.security, parts := [(0, { Partition.reset 3200 with slots0 := s.ticks })] } ∧ u.security = { Security.reset with nonce := s.security.nonce + 1, image := s.security.image + 1 }) ∧
  (∀ s, ∃ u : State, exec .pcieD3cold s = .next u ∧ u.boot = 3 ∧ u.mem = [] ∧ u.gangs = [] ∧ u.host = s.host) ∧
  (∀ s scrub, s.boot = 3 → exec (.warmReset scrub) s = .next s) ∧
  (∀ s scrub, s.boot ≠ 3 → ∃ u : State, exec (.warmReset scrub) s = .next u ∧ u.gangs = [] ∧ u.ctxs = [] ∧ u.grids = [] ∧ u.tlb = [] ∧ u.owners = [] ∧
    u.worlds = [] ∧ u.boot = 0 ∧ u.clock = s.clock ∧ u.fabricId = s.fabricId ∧ u.host = s.host ∧ u.partitions = 2 ^ (s.part 0).pnext ∧
    (scrub = true → u.mem = []) ∧ (scrub = false → ∀ c, c ∈ u.mem ↔ c ∈ s.mem ∧ 0x0000100000000000 ≤ c.1 % 2 ^ 52 ∧ c.1 % 2 ^ 52 < 0x000F000000000000)) ∧
  (∀ s p, (s.partitions ≤ p ∨ s.boot = 3 → exec (.partitionReset p) s = .next s) ∧
    (p < s.partitions → s.boot ≠ 3 → ∃ u : State, exec (.partitionReset p) s = .next u ∧ (∀ g ∈ u.gangs, u.partOfCluster g.cluster ≠ p) ∧
      (∀ c ∈ u.ctxs, c.world / 64 ≠ p) ∧ (∀ g ∈ u.grids, g.world / 64 ≠ p) ∧ (∀ x ∈ u.ats, x.world / 64 ≠ p) ∧ (∀ o ∈ u.owners, o.2.world / 64 ≠ p) ∧
      (∀ w, w / 64 = p → (u.world w).key = 0 ∧ (u.world w).modelKey = none ∧ (u.world w).queues = []) ∧
      (u.part p).ckpt = .reset ∧ (u.part p).clock0 = s.clock ∧ u.partitions = s.partitions)) ∧
  (∀ s w, (w % 64 = 0 → exec (.functionLevelReset w) s = .next s) ∧
    (w % 64 ≠ 0 → s.boot = 0 ∨ s.boot = 2 ∨ s.boot = 1 ∧ (s.part (w / 64)).psexit = true →
      exec (.functionLevelReset w) s = .next { s with answers := s.answers ++ [((s.pciePorts (w / 64)).headD 24, 4, [])] }) ∧
    (w % 64 ≠ 0 → s.boot = 1 → (s.part (w / 64)).psexit = false → ∃ u : State, exec (.functionLevelReset w) s = .next u ∧
      (∀ c, ∀ b ∈ (u.cluster c).bindings, b.2 ≠ w) ∧ (∀ c, (u.cluster c).heldOf w = 0) ∧ (∀ c ∈ u.ctxs, c.world ≠ w) ∧ (∀ g ∈ u.grids, g.world ≠ w) ∧
      (∀ t ∈ u.tlb, t.world ≠ w) ∧ (∀ o ∈ u.owners, o.2.world ≠ w) ∧ (u.world w).key = 0 ∧ (u.world w).modelKey = none ∧ (u.world w).queues = [] ∧
      (u.world w).tdisp = (s.world w).tdisp ∧ ∀ x, x ≠ w → (u.world x).queues = (s.world x).queues ∧ (u.world x).key = (s.world x).key)) ∧
  (∀ s port, (port ≠ 24 ∧ port ≠ 25 ∨ s.boot = 3 → Leads (.pcieHotReset port) s s) ∧
    (port = 24 → s.boot ≠ 3 → s.partitions = 1 → ∃ u t : State, exec (.pcieHotReset port) s = .next u ∧ exec (.warmReset false) s = .next t ∧ u = t.clearTried) ∧
    (port = 25 → s.boot ≠ 3 → s.partitions = 1 → (∀ c ∈ s.ctxs, c.saved = []) → (∀ g ∈ s.gangs, ∀ sk ∈ g.skeins, sk.record = []) → (s.part 0).pageReqs = [] →
      ∃ u : State, exec (.pcieHotReset port) s = .next u ∧ (tget u.ports 25).map (·.up) = some false ∧ u.ctxs = s.ctxs ∧ u.mem = s.mem)) ∧
  (∀ s ok, (s.boot ≠ 0 → exec (.bootComplete ok) s = .next s) ∧
    (s.boot = 0 → exec (.bootComplete false) s = .next { s with boot := 2 }) ∧
    (s.boot = 0 → s.fabricId ≠ 0 → exec (.bootComplete true) s = .next { s with boot := 1 }) ∧
    (s.boot = 0 → s.fabricId = 0 → ∃ u : State, exec (.bootComplete true) s = .next u ∧ u.boot = 1 ∧ 1 ≤ u.fabricId ∧ u.fabricId < 0xFFFFF ∧
      u.mem = s.mem ∧ u.worlds = s.worlds))

/-! ## Words, steps and memory -/

/-- spec/06 R144 to R168: words written out field by field, from bit 63 down, and the instructions they are; the first two have bits 63:52
0x900 and 0x889, as spec/07 R175 says.  Then words that are not instructions: form 110, operations that no map holds, a `TYPE` outside its
class, guard mode 111, an index beside guard mode 000, reserved bits set, and address space 11. -/
def Obligations.DecodeWords : Prop :=
  decode 0b1_001_000000_00_000_0000_00000100_00000101_000000000000000000000111_0_0_0_0_0 = .ok (.iaddImm .s32 ⟨⟨true, ⟨.always, 0⟩⟩, 4, 5, 7, false, false, false, false⟩) ∧
  decode 0b1_000_100010_01_001_0011_00001000_00001010_00001100_00001110_1_0_0_0_0_1_0_111_0_1_0 = .ok (.ffma .f64 ⟨⟨true, ⟨.t, 3⟩⟩, 8, 10, 12, 14, true, false, false, false, false, true, false, 7, false, true⟩) ∧
  decode 0b1_000_001011_01_000_0000_00000010_00000110_00000111_00000010_0_0_0_0_0_0_0_000_0_0_0 = .ok (.icmp .n32 ⟨⟨true, ⟨.always, 0⟩⟩, 2, 6, 7, 2, false, false, false, false, false, false, false, 0, false, false⟩) ∧
  decode 0b0_000_001100_00_110_1111_00001001_00001010_00001011_00000000_0_0_0_0_0_0_0_000_0_0_0 = .ok (.and .b32 ⟨⟨false, ⟨.nu, 15⟩⟩, 9, 10, 11, 0, false, false, false, false, false, false, false, 0, false, false⟩) ∧
  decode 0b1_000_110111_00_000_0000_00010100_00010110_00010111_00000000_0_0_0_0_0_0_0_000_0_0_0 = .ok (.ivmk .f32 ⟨⟨true, ⟨.always, 0⟩⟩, 20, 22, 23, 0, false, false, false, false, false, false, false, 0, false, false⟩) ∧
  decode 0b1_010_000_00_011_000_0000_00001100_00001110_00010000_111111111110_10_100_01_1_0 = .ok (.ld ⟨⟨true, ⟨.always, 0⟩⟩, .global, 3, 12, 14, 16, 0xFFE, 2, .device, .acq, true⟩) ∧
  decode 0b1_010_100_01_010_010_0001_00001100_00001110_00010000_011011111111_00_011_11_0_0 = .ok (.atom ⟨⟨true, ⟨.f, 1⟩⟩, .scratch, 2, 12, 14, 16, 0x6FF, 0, .cluster, .acqrel, false⟩) ∧
  decode 0b1_010_111_00_010_000_0000_00000000_00001110_00000000_000000000001_00_100_00_0_0 = .ok (.cacheCwb ⟨⟨true, ⟨.always, 0⟩⟩, .global, 2, 0, 14, 0, 1, 0, .device, .plain, false⟩) ∧
  decode 0b1_011_00000000_100_0010_00000000_00000000_11111111111111111111111110_000 = .ok (.bra ⟨⟨true, ⟨.nt, 2⟩⟩, 0, 0, 0x3FFFFFE, 0⟩) ∧
  decode 0b1_011_00000011_000_0000_00000000_00000010_00000000000000000001100100_000 = .ok (.call ⟨⟨true, ⟨.always, 0⟩⟩, 0, 2, 100, 0⟩) ∧
  decode 0b1_011_00001100_000_0000_00001001_00000000_00000000000000000001001101_101 = .ok (.migrate ⟨⟨true, ⟨.always, 0⟩⟩, 9, 0, 77, 5⟩) ∧
  decode 0b1_100_00000000_000_0000_00011110_00100000_00100010_001000_10_1_0_1_0_011_1111_1_0 = .ok (.mma ⟨⟨true, ⟨.always, 0⟩⟩, 30, 32, 34, 0x22A7F⟩) ∧
  decode 0b1_100_00001000_101_0111_00101000_00101010_00101100_00110010_0_1_1_100_1_00000_0 = .ok (.copy ⟨⟨true, ⟨.nf, 7⟩⟩, 40, 42, 44, 0x32720⟩) ∧
  decode 0b1_101_00010000_011_1001_00000110_00000111_00001000_0000000000000000_00111 = .ok (.shfl ⟨⟨true, ⟨.u, 9⟩⟩, 6, 7, 8, 0, 7⟩) ∧
  decode 0b1_101_00100000_000_0000_00000000_00000000_00000000_0000000000000101_00011 = .ok (.fence ⟨⟨true, ⟨.always, 0⟩⟩, 0, 0, 0, 5, 3⟩) ∧
  decode 0b1_101_00100111_000_0000_00000000_00000000_00000000_111111_000001_1111_0010_0 = .ok (.waitc ⟨⟨true, ⟨.always, 0⟩⟩, 63, 1, 15, 2⟩) ∧
  decode 0b1_101_00110010_000_0000_00000000_00000000_00000000_1011111011101111_00000 = .ok (.trap ⟨⟨true, ⟨.always, 0⟩⟩, 0, 0, 0, 0xBEEF, 0⟩) ∧
  decode 0b1_110_000000000000000000000000000000000000000000000000000000000000 = .error .form ∧
  decode 0b1_000_111111_00_000_0000_00000000_00000000_00000000_00000000_0_0_0_0_0_0_0_000_0_0_0 = .error .operation ∧
  decode 0b1_011_00010001_000_0000_00000000_00000000_00000000000000000000000000_000 = .error .operation ∧
  decode 0b1_000_001100_10_000_0000_00001001_00001010_00001011_00000000_0_0_0_0_0_0_0_000_0_0_0 = .error .operation ∧
  decode 0b1_001_000000_00_111_0000_00000100_00000101_000000000000000000000111_0_0_0_0_0 = .error .guard ∧
  decode 0b1_001_000000_00_000_0001_00000100_00000101_000000000000000000000111_0_0_0_0_0 = .error .reserved ∧
  decode 0b1_000_000000_00_000_0000_00000100_00000101_00000110_00000000_0_0_0_0_0_0_0_000_0_0_1 = .error .reserved ∧
  decode 0b1_000_000000_00_000_0000_00000100_00000101_00000110_00001001_0_0_0_0_0_0_0_000_0_0_0 = .error .reserved ∧
  decode 0b1_010_000_11_010_000_0000_00001100_00001110_00000000_000000000000_00_100_00_0_0 = .error .reserved

/-- spec/06 R144 to R168: each well-formed instruction that is a word decodes from the word its fields make, and a word that decodes is the
word of the instruction it decodes to, so that no bit of it is dropped. -/
def Obligations.DecodeEncode : Prop :=
  (∀ i, i.wf = true → ((encode i).isSome = i.isWord)) ∧
  (∀ i w, i.wf = true → encode i = some w → decode w = .ok i) ∧
  (∀ i w, decode w = .ok i → i.wf = true ∧ i.isWord = true ∧ encode i = some w)

/-- spec/02 R34, R35, spec/05 R104, spec/11 R298: a step at which a skein issues.  The word at the program counter of the batch's fibres, or
the template's word for them, is decoded and carried out for the batch, in the state that the fetch left, with time and the agenda moved on
and the ready ages counted; a word that is no instruction, a fetch that faults, and a fibre at a guest instruction lead to the steps that
stand for them.  What is fetched at an address that is no multiple of 8 is the model's choice (notes/assumptions/112). -/
def Obligations.StepRunsDecoded : Prop :=
  ∀ (s : State) gk k g sk t r x, s.nextAction = some (.issue gk k) → s.tick.gang gk = some g → g.skeins[k]? = some sk →
    s.tick.mayIssue g sk = true → s.tick.mayGo g k sk = true → s.tick.nextBatch g sk = t :: r → sk.fibre t = some x →
    let at_ (u : State) : State := { u.aged g k with issue := some ⟨gk, k, t :: r⟩ }
    (x.atGuest = false → x.inTemplate = false → ∀ w u, s.tick.fetchWord g x.pc = .ok w u →
      (∀ i, decode w = .ok i → step s = exec i (at_ u)) ∧ (∀ e, decode w = .error e → step s = exec (.notAnInstruction w) (at_ u))) ∧
    (x.atGuest = false → x.inTemplate = false → ∀ c a u, s.tick.fetchWord g x.pc = .fault c a u →
      step s = exec (.instructionFetchFault c a) (at_ u)) ∧
    (x.atGuest = false → x.inTemplate = true → ∀ e w, x.expansion = some e → e.words[x.iopx]? = some w →
      (∀ i, decode w = .ok i → step s = exec i (at_ s.tick)) ∧ (∀ e, decode w = .error e → step s = exec (.notAnInstruction w) (at_ s.tick))) ∧
    (x.atGuest = true → step s = exec .guestDecode (at_ s.tick)) ∧
    s.tick.ticks = s.ticks + 1 ∧ s.tick.agenda = s.agenda.drop 1 ∧ s.tick.gangs = s.grown ∧ (∀ g' k' n, s.tick.fibreAt g' k' n = s.fibreAt g' k' n) ∧ s.tick.mem = s.mem ∧
    (∀ u : State, (u.aged g k).mem = u.mem ∧ (u.aged g k).clusters = u.clusters ∧ (u.aged g k).ctxs = u.ctxs ∧
      ∀ g' k' n, (u.aged g k).fibreAt g' k' n = u.fibreAt g' k' n)

/-- spec/00 R4, spec/14 R368, R490: bytes written to device memory are read back, the first at the lowest address, and bytes outside are as
before; a value written as bytes is read as that value modulo its width, the least significant byte first; a line that a world wrote
whole answers the world that holds its key and fails the check of its code for another. -/
def Obligations.MemoryReadBack : Prop :=
  (∀ (m : Memory) a bs, m.wf = true → (m.writeBytes a bs).wf = true ∧ (m.writeBytes a bs).readBytes a bs.length = bs ∧
    ∀ c, (c < a ∨ a + bs.length ≤ c) → (m.writeBytes a bs).read c = m.read c) ∧
  (∀ n v, ofBytes (bytesOf n v) = v % 256 ^ n ∧ (bytesOf n v).length = n) ∧
  (∀ (s : State) w l n bs, s.mem.wf = true → 0 < n → bs.length = 128 * n → ∃ t : State, s.writeDev w (128 * l) bs = .ok t ∧
    t.mem.wf = true ∧ t.readDev w (128 * l) (128 * n) = .ok bs ∧
    (∀ v, v ≠ w → t.readDev v (128 * l) (128 * n) = .error .macFail) ∧
    (∀ v a k, (a + k ≤ 128 * l ∨ 128 * l + 128 * n ≤ a) → (∀ j ∈ linesOf a k, j < l ∨ l + n ≤ j) → t.readDev v a k = s.readDev v a k))

/-- Memory in its canonical form (notes/assumptions/4): every step, whatever moves, keeps it. -/
def Obligations.MemoryFormKept : Prop := Kept fun s => s.mem.wf = true

/-! ## How an issue ends -/

namespace Sys2Proof.Says

/-- A fibre but for what tells of its arrivals at barriers. -/
def still (x : Fibre) : Fibre := { x with barIn := 0, stepIn := false, sbarIn := false }

/-- A fibre after an instruction that has made it y: it waits for nothing, has no progress kept outside a handler, and stands at the next
instruction; its pass count starts again, and `EQID` is the equivalence point it issued at, if it stood at one (spec/03 R67). -/
def landed (u : State) (g : Gang) (was y : Fibre) : Fibre :=
  let z := ({ y.endLong with wait := .none, waitArg := 0 } : Fibre).advance
  { z with pass := 0, tried := false, waive := false, eqid := (u.passPoint g was).eqid, redo := was.redoOf z }

/-- Some of a fibre's state that no settling of joins and barriers touches. -/
def keeps (x : Fibre) : Nat × List W32 × List W32 × List Nat × Bool := (x.uid, x.regs, x.e, x.poison, x.parked)

end Sys2Proof.Says

/-- spec/02 R34, R35, spec/03 R67, spec/06 R145: the end of an issue in which every fibre goes on.  Each fibre whose guard passed stands
as its outcome says at its next instruction, each other fibre of the batch as it was at its next instruction; the fibres outside the batch
keep their registers; and memory, the clusters and the registers of worlds are as the instruction left them, where tracing and
checkpoints are off.  `EQID` at a word that faults is the model's choice (notes/assumptions/112). -/
def Obligations.FinishLands : Prop :=
  ∀ (s u : State) b ready i f, s.batch = some (b, ready) → u.gangs = s.gangs → b.g.ended = false →
    let t := u.finish b ready (b.eachNext i f)
    (∀ p ∈ b.passing i, (t.fibreAt b.g.key b.k p.1).map still = some (still (landed u b.g p.2 (f p.1 p.2)))) ∧
    (∀ p ∈ b.all, p ∉ b.passing i → (t.fibreAt b.g.key b.k p.1).map still = some (still (landed u b.g p.2 p.2))) ∧
    (∀ g k n, (g ≠ b.g.key ∨ k ≠ b.k ∨ n ∉ b.all.map (·.1)) → (t.fibreAt g k n).map keeps = (s.fibreAt g k n).map keeps) ∧
    ((∃ p ∈ b.all, p.2.sbarIn = false ∧ (f p.1 p.2).sbarIn = false) → (u.cluster b.g.cluster).trace.owner = 0 → (∀ p, bitOf (u.part p).ckptcfg.toNat 63 = false) →
      t.mem = u.mem ∧ t.host = u.host ∧ t.peers = u.peers ∧ t.ctxs = u.ctxs ∧ t.tags = u.tags ∧ t.clusters = u.clusters ∧
      t.worlds = u.worlds ∧ t.owners = u.owners ∧ t.tlb = u.tlb ∧ t.msix = u.msix)

/-- spec/06 R145, R147, spec/20 R426, R427: a word that is no instruction where it stands (its core kind, guest boundary, feature,
registers or stationary slot) faults in every fibre of the batch before anything else is done; an instruction whose guard passes in no
fibre does nothing but let them go on.  RMARK, which counts its moment, and RJOIN, which takes the fibres that pass it by off the masks of
those that wait, are stated where their own effects are. -/
def Obligations.GuardsAndStageOne : Prop :=
  ∀ (s : State) i b ready, i.isWord = true → s.batch = some (b, ready) →
    (∀ c, s.stage1All b (needOf i) = some c → exec i s = .next (s.atIssue.finish b ready (b.all.map fun p => (p.1, .fault c 0)))) ∧
    (s.stage1All b (needOf i) = none → b.passing i = [] → (∀ f, i ≠ .rmark f ∧ i ≠ .rjoin f) → exec i s = .next (s.atIssue.finish b ready []))

end
end

