-- ==== Sys2Proof/Laws/State.lean ====
section
/-! SUPPORT. The small laws of tables, memory and the state: one per field and update. -/

namespace Sys2Proof.Machine

/-! ## Tables -/

@[simp] theorem tget_tset_same {α : Type} (t : Tbl α) (n : Nat) (x : α) : tget (tset t n x) n = some x := by
  induction t with
  | nil => simp [tset, tget]
  | cons p r ih =>
    obtain ⟨k, v⟩ := p
    simp only [tset]
    split
    · simp [tget]
    · split
      · simp [tget]
      · rename_i h1 h2
        simp [tget, ih, Ne.symm h2]

@[simp] theorem tget_tset_other {α : Type} (t : Tbl α) (n m : Nat) (x : α) (h : m ≠ n) : tget (tset t n x) m = tget t m := by
  induction t with
  | nil => simp [tset, tget, Ne.symm h]
  | cons p r ih =>
    obtain ⟨k, v⟩ := p
    simp only [tset]
    split
    · simp [tget, Ne.symm h]
    · split
      · rename_i h1 h2
        subst h2
        simp [tget, Ne.symm h]
      · simp only [tget, ih]

/-! ## Bytes -/

/-- A list in canonical form above a bound is in canonical form above every smaller one. -/
theorem Memory.wfFrom_mono : ∀ (m : Memory) (a b : Nat), b ≤ a → Memory.wfFrom a m = true → Memory.wfFrom b m = true
  | [], _, _, _, _ => rfl
  | (x, y) :: r, a, b, h, hw => by
    simp only [Memory.wfFrom, Bool.and_eq_true, decide_eq_true_eq] at hw ⊢
    exact ⟨⟨by omega, hw.1.2⟩, hw.2⟩

theorem Memory.tget_below : ∀ (m : Memory) (lo a : Nat), Memory.wfFrom lo m = true → a < lo → tget m a = none
  | [], _, _, _, _ => rfl
  | (x, y) :: r, lo, a, hw, h => by
    simp only [Memory.wfFrom, Bool.and_eq_true, decide_eq_true_eq] at hw
    have hx : x ≠ a := by omega
    simp only [tget, hx, if_false]
    exact Memory.tget_below r (x + 1) a hw.2 (by omega)

/-- A write keeps the canonical form. -/
theorem Memory.wfFrom_write : ∀ (m : Memory) (lo a : Nat) (b : Byte), Memory.wfFrom lo m = true → lo ≤ a →
    Memory.wfFrom lo (m.write a b) = true
  | [], lo, a, b, _, h => by
    simp only [Memory.write]
    split
    · rfl
    · rename_i hb
      simpa [Memory.wfFrom, h] using hb
  | (x, y) :: r, lo, a, b, hw, h => by
    have hw' := hw
    simp only [Memory.wfFrom, Bool.and_eq_true, decide_eq_true_eq] at hw'
    simp only [Memory.write]
    split
    · split
      · exact hw
      · rename_i h1 hb
        simp only [Memory.wfFrom, Bool.and_eq_true, decide_eq_true_eq]
        exact ⟨⟨h, by simpa using hb⟩, ⟨by omega, hw'.1.2⟩, hw'.2⟩
    · split
      · rename_i h1 h2
        split
        · exact Memory.wfFrom_mono r (x + 1) lo (by omega) hw'.2
        · rename_i hb
          simp only [Memory.wfFrom, Bool.and_eq_true, decide_eq_true_eq]
          exact ⟨⟨h, by simpa using hb⟩, h2 ▸ hw'.2⟩
      · simp only [Memory.wfFrom, Bool.and_eq_true, decide_eq_true_eq]
        exact ⟨hw'.1, Memory.wfFrom_write r (x + 1) a b hw'.2 (by omega)⟩

theorem Memory.wf_write (m : Memory) (a : Nat) (b : Byte) (h : m.wf = true) : (m.write a b).wf = true :=
  Memory.wfFrom_write m 0 a b h (Nat.zero_le a)

theorem Memory.wf_writeBytes : ∀ (bs : List Byte) (m : Memory) (a : Nat), m.wf = true → (m.writeBytes a bs).wf = true
  | [], _, _, h => h
  | b :: r, m, a, h => Memory.wf_writeBytes r (m.write a b) (a + 1) (Memory.wf_write m a b h)

theorem Memory.wfFrom_filter (p : Host.Cell → Bool) : ∀ (m : Memory) (lo : Nat), Memory.wfFrom lo m = true →
    Memory.wfFrom lo (m.filter p) = true
  | [], _, _ => rfl
  | (x, y) :: r, lo, hw => by
    simp only [Memory.wfFrom, Bool.and_eq_true, decide_eq_true_eq] at hw
    have ih := Memory.wfFrom_filter p r (x + 1) hw.2
    simp only [List.filter]
    split
    · simp only [Memory.wfFrom, Bool.and_eq_true, decide_eq_true_eq]
      exact ⟨hw.1, ih⟩
    · exact Memory.wfFrom_mono _ (x + 1) lo (by omega) ih

theorem Memory.wf_filter (p : Host.Cell → Bool) (m : Memory) (h : m.wf = true) : Memory.wf (m.filter p) = true :=
  Memory.wfFrom_filter p m 0 h

theorem Memory.wf_clear (m : Memory) (a n : Nat) (h : m.wf = true) : (m.clear a n).wf = true := Memory.wf_filter _ m h

/-- Reading a byte after it was written. -/
theorem Memory.read_write_same (m : Memory) (a : Nat) (b : Byte) (h : m.wf = true) : (m.write a b).read a = b := by
  have key : ∀ (m : Memory) (lo : Nat), Memory.wfFrom lo m = true → (tget (m.write a b) a).getD 0 = b := by
    intro m
    induction m with
    | nil =>
      intro lo _
      simp only [Memory.write]
      split
      · rename_i hb; simp [tget, hb]
      · simp [tget]
    | cons p r ih =>
      obtain ⟨x, y⟩ := p
      intro lo hw
      simp only [Memory.wfFrom, Bool.and_eq_true, decide_eq_true_eq] at hw
      simp only [Memory.write]
      split
      · rename_i h1
        split
        · rename_i hb
          have hx : x ≠ a := by omega
          simp [tget, hx, Memory.tget_below r (x + 1) a hw.2 (by omega), hb]
        · simp [tget]
      · split
        · rename_i h1 h2
          split
          · rename_i hb
            simp [Memory.tget_below r (x + 1) a hw.2 (by omega), hb]
          · simp [tget]
        · rename_i h1 h2
          have hx : x ≠ a := Ne.symm h2
          simp only [tget, hx, if_false]
          exact ih (x + 1) hw.2
  exact key m 0 h

/-- A write leaves every other byte alone. -/
theorem Memory.read_write_other (m : Memory) (a c : Nat) (b : Byte) (h : c ≠ a) : (m.write a b).read c = m.read c := by
  have key : tget (m.write a b) c = tget m c := by
    induction m with
    | nil =>
      simp only [Memory.write]
      split
      · rfl
      · simp [tget, Ne.symm h]
    | cons p r ih =>
      obtain ⟨x, y⟩ := p
      simp only [Memory.write]
      split
      · split
        · rfl
        · simp [tget, Ne.symm h]
      · split
        · rename_i h1 h2
          subst h2
          split
          · simp [tget, Ne.symm h]
          · simp [tget, Ne.symm h]
        · simp only [tget, ih]
  simp [Memory.read, key]

/-- Bytes written leave every byte outside them alone. -/
theorem Memory.read_writeBytes_other : ∀ (bs : List Byte) (m : Memory) (a c : Nat), (c < a ∨ a + bs.length ≤ c) →
    (m.writeBytes a bs).read c = m.read c
  | [], _, _, _, _ => rfl
  | b :: r, m, a, c, h => by
    simp only [List.length_cons] at h
    rw [Memory.writeBytes, Memory.read_writeBytes_other r (m.write a b) (a + 1) c (by omega),
      Memory.read_write_other m a c b (by omega)]

/-! ## Parts of the state by number -/

@[simp] theorem State.setWorld_ticks (s : State) (w : Nat) (x : World) : (s.setWorld w x).ticks = s.ticks := rfl
@[simp] theorem State.setWorld_free (s : State) (w : Nat) (x : World) : (s.setWorld w x).free = s.free := rfl
@[simp] theorem State.setWorld_nextKey (s : State) (w : Nat) (x : World) : (s.setWorld w x).nextKey = s.nextKey := rfl
@[simp] theorem State.setWorld_agenda (s : State) (w : Nat) (x : World) : (s.setWorld w x).agenda = s.agenda := rfl
@[simp] theorem State.setWorld_issue (s : State) (w : Nat) (x : World) : (s.setWorld w x).issue = s.issue := rfl
@[simp] theorem State.setWorld_clock (s : State) (w : Nat) (x : World) : (s.setWorld w x).clock = s.clock := rfl
@[simp] theorem State.setWorld_partitions (s : State) (w : Nat) (x : World) : (s.setWorld w x).partitions = s.partitions := rfl
@[simp] theorem State.setWorld_devw (s : State) (w : Nat) (x : World) : (s.setWorld w x).devw = s.devw := rfl
@[simp] theorem State.setWorld_boot (s : State) (w : Nat) (x : World) : (s.setWorld w x).boot = s.boot := rfl
@[simp] theorem State.setWorld_fabricId (s : State) (w : Nat) (x : World) : (s.setWorld w x).fabricId = s.fabricId := rfl
@[simp] theorem State.setWorld_parts (s : State) (w : Nat) (x : World) : (s.setWorld w x).parts = s.parts := rfl
@[simp] theorem State.setWorld_ctxs (s : State) (w : Nat) (x : World) : (s.setWorld w x).ctxs = s.ctxs := rfl
@[simp] theorem State.setWorld_grids (s : State) (w : Nat) (x : World) : (s.setWorld w x).grids = s.grids := rfl
@[simp] theorem State.setWorld_gangs (s : State) (w : Nat) (x : World) : (s.setWorld w x).gangs = s.gangs := rfl
@[simp] theorem State.setWorld_clusters (s : State) (w : Nat) (x : World) : (s.setWorld w x).clusters = s.clusters := rfl
@[simp] theorem State.setWorld_cores (s : State) (w : Nat) (x : World) : (s.setWorld w x).cores = s.cores := rfl
@[simp] theorem State.setWorld_clocks (s : State) (w : Nat) (x : World) : (s.setWorld w x).clocks = s.clocks := rfl
@[simp] theorem State.setWorld_mem (s : State) (w : Nat) (x : World) : (s.setWorld w x).mem = s.mem := rfl
@[simp] theorem State.setWorld_owners (s : State) (w : Nat) (x : World) : (s.setWorld w x).owners = s.owners := rfl
@[simp] theorem State.setWorld_poisoned (s : State) (w : Nat) (x : World) : (s.setWorld w x).poisoned = s.poisoned := rfl
@[simp] theorem State.setWorld_host (s : State) (w : Nat) (x : World) : (s.setWorld w x).host = s.host := rfl
@[simp] theorem State.setWorld_peers (s : State) (w : Nat) (x : World) : (s.setWorld w x).peers = s.peers := rfl
@[simp] theorem State.setWorld_far (s : State) (w : Nat) (x : World) : (s.setWorld w x).far = s.far := rfl
@[simp] theorem State.setWorld_tlb (s : State) (w : Nat) (x : World) : (s.setWorld w x).tlb = s.tlb := rfl
@[simp] theorem State.setWorld_ats (s : State) (w : Nat) (x : World) : (s.setWorld w x).ats = s.ats := rfl
@[simp] theorem State.setWorld_tags (s : State) (w : Nat) (x : World) : (s.setWorld w x).tags = s.tags := rfl
@[simp] theorem State.setWorld_ports (s : State) (w : Nat) (x : World) : (s.setWorld w x).ports = s.ports := rfl
@[simp] theorem State.setWorld_unreachable (s : State) (w : Nat) (x : World) : (s.setWorld w x).unreachable = s.unreachable := rfl
@[simp] theorem State.setWorld_security (s : State) (w : Nat) (x : World) : (s.setWorld w x).security = s.security := rfl
@[simp] theorem State.setWorld_msix (s : State) (w : Nat) (x : World) : (s.setWorld w x).msix = s.msix := rfl
@[simp] theorem State.setWorld_answers (s : State) (w : Nat) (x : World) : (s.setWorld w x).answers = s.answers := rfl
@[simp] theorem State.modWorld_ticks (s : State) (w : Nat) (f : World → World) : (s.modWorld w f).ticks = s.ticks := rfl
@[simp] theorem State.modWorld_free (s : State) (w : Nat) (f : World → World) : (s.modWorld w f).free = s.free := rfl
@[simp] theorem State.modWorld_nextKey (s : State) (w : Nat) (f : World → World) : (s.modWorld w f).nextKey = s.nextKey := rfl
@[simp] theorem State.modWorld_agenda (s : State) (w : Nat) (f : World → World) : (s.modWorld w f).agenda = s.agenda := rfl
@[simp] theorem State.modWorld_issue (s : State) (w : Nat) (f : World → World) : (s.modWorld w f).issue = s.issue := rfl
@[simp] theorem State.modWorld_clock (s : State) (w : Nat) (f : World → World) : (s.modWorld w f).clock = s.clock := rfl
@[simp] theorem State.modWorld_partitions (s : State) (w : Nat) (f : World → World) : (s.modWorld w f).partitions = s.partitions := rfl
@[simp] theorem State.modWorld_devw (s : State) (w : Nat) (f : World → World) : (s.modWorld w f).devw = s.devw := rfl
@[simp] theorem State.modWorld_boot (s : State) (w : Nat) (f : World → World) : (s.modWorld w f).boot = s.boot := rfl
@[simp] theorem State.modWorld_fabricId (s : State) (w : Nat) (f : World → World) : (s.modWorld w f).fabricId = s.fabricId := rfl
@[simp] theorem State.modWorld_parts (s : State) (w : Nat) (f : World → World) : (s.modWorld w f).parts = s.parts := rfl
@[simp] theorem State.modWorld_ctxs (s : State) (w : Nat) (f : World → World) : (s.modWorld w f).ctxs = s.ctxs := rfl
@[simp] theorem State.modWorld_grids (s : State) (w : Nat) (f : World → World) : (s.modWorld w f).grids = s.grids := rfl
@[simp] theorem State.modWorld_gangs (s : State) (w : Nat) (f : World → World) : (s.modWorld w f).gangs = s.gangs := rfl
@[simp] theorem State.modWorld_clusters (s : State) (w : Nat) (f : World → World) : (s.modWorld w f).clusters = s.clusters := rfl
@[simp] theorem State.modWorld_cores (s : State) (w : Nat) (f : World → World) : (s.modWorld w f).cores = s.cores := rfl
@[simp] theorem State.modWorld_clocks (s : State) (w : Nat) (f : World → World) : (s.modWorld w f).clocks = s.clocks := rfl
@[simp] theorem State.modWorld_mem (s : State) (w : Nat) (f : World → World) : (s.modWorld w f).mem = s.mem := rfl
@[simp] theorem State.modWorld_owners (s : State) (w : Nat) (f : World → World) : (s.modWorld w f).owners = s.owners := rfl
@[simp] theorem State.modWorld_poisoned (s : State) (w : Nat) (f : World → World) : (s.modWorld w f).poisoned = s.poisoned := rfl
@[simp] theorem State.modWorld_host (s : State) (w : Nat) (f : World → World) : (s.modWorld w f).host = s.host := rfl
@[simp] theorem State.modWorld_peers (s : State) (w : Nat) (f : World → World) : (s.modWorld w f).peers = s.peers := rfl
@[simp] theorem State.modWorld_far (s : State) (w : Nat) (f : World → World) : (s.modWorld w f).far = s.far := rfl
@[simp] theorem State.modWorld_tlb (s : State) (w : Nat) (f : World → World) : (s.modWorld w f).tlb = s.tlb := rfl
@[simp] theorem State.modWorld_ats (s : State) (w : Nat) (f : World → World) : (s.modWorld w f).ats = s.ats := rfl
@[simp] theorem State.modWorld_tags (s : State) (w : Nat) (f : World → World) : (s.modWorld w f).tags = s.tags := rfl
@[simp] theorem State.modWorld_ports (s : State) (w : Nat) (f : World → World) : (s.modWorld w f).ports = s.ports := rfl
@[simp] theorem State.modWorld_unreachable (s : State) (w : Nat) (f : World → World) : (s.modWorld w f).unreachable = s.unreachable := rfl
@[simp] theorem State.modWorld_security (s : State) (w : Nat) (f : World → World) : (s.modWorld w f).security = s.security := rfl
@[simp] theorem State.modWorld_msix (s : State) (w : Nat) (f : World → World) : (s.modWorld w f).msix = s.msix := rfl
@[simp] theorem State.modWorld_answers (s : State) (w : Nat) (f : World → World) : (s.modWorld w f).answers = s.answers := rfl
@[simp] theorem State.world_setWorld_same (s : State) (w : Nat) (x : World) : (s.setWorld w x).world w = x := by simp [State.world, State.setWorld]
@[simp] theorem State.world_setWorld_other (s : State) (w m : Nat) (x : World) (h : m ≠ w) : (s.setWorld w x).world m = s.world m := by
  simp [State.world, State.setWorld, h]
@[simp] theorem State.world_modWorld_same (s : State) (w : Nat) (f : World → World) : (s.modWorld w f).world w = f (s.world w) := by
  simp [State.modWorld]
@[simp] theorem State.world_modWorld_other (s : State) (w m : Nat) (f : World → World) (h : m ≠ w) : (s.modWorld w f).world m = s.world m := by
  simp [State.modWorld, h]
@[simp] theorem State.setCluster_ticks (s : State) (c : Nat) (x : Cluster) : (s.setCluster c x).ticks = s.ticks := rfl
@[simp] theorem State.setCluster_free (s : State) (c : Nat) (x : Cluster) : (s.setCluster c x).free = s.free := rfl
@[simp] theorem State.setCluster_nextKey (s : State) (c : Nat) (x : Cluster) : (s.setCluster c x).nextKey = s.nextKey := rfl
@[simp] theorem State.setCluster_agenda (s : State) (c : Nat) (x : Cluster) : (s.setCluster c x).agenda = s.agenda := rfl
@[simp] theorem State.setCluster_issue (s : State) (c : Nat) (x : Cluster) : (s.setCluster c x).issue = s.issue := rfl
@[simp] theorem State.setCluster_clock (s : State) (c : Nat) (x : Cluster) : (s.setCluster c x).clock = s.clock := rfl
@[simp] theorem State.setCluster_partitions (s : State) (c : Nat) (x : Cluster) : (s.setCluster c x).partitions = s.partitions := rfl
@[simp] theorem State.setCluster_devw (s : State) (c : Nat) (x : Cluster) : (s.setCluster c x).devw = s.devw := rfl
@[simp] theorem State.setCluster_boot (s : State) (c : Nat) (x : Cluster) : (s.setCluster c x).boot = s.boot := rfl
@[simp] theorem State.setCluster_fabricId (s : State) (c : Nat) (x : Cluster) : (s.setCluster c x).fabricId = s.fabricId := rfl
@[simp] theorem State.setCluster_parts (s : State) (c : Nat) (x : Cluster) : (s.setCluster c x).parts = s.parts := rfl
@[simp] theorem State.setCluster_worlds (s : State) (c : Nat) (x : Cluster) : (s.setCluster c x).worlds = s.worlds := rfl
@[simp] theorem State.setCluster_ctxs (s : State) (c : Nat) (x : Cluster) : (s.setCluster c x).ctxs = s.ctxs := rfl
@[simp] theorem State.setCluster_grids (s : State) (c : Nat) (x : Cluster) : (s.setCluster c x).grids = s.grids := rfl
@[simp] theorem State.setCluster_gangs (s : State) (c : Nat) (x : Cluster) : (s.setCluster c x).gangs = s.gangs := rfl
@[simp] theorem State.setCluster_cores (s : State) (c : Nat) (x : Cluster) : (s.setCluster c x).cores = s.cores := rfl
@[simp] theorem State.setCluster_clocks (s : State) (c : Nat) (x : Cluster) : (s.setCluster c x).clocks = s.clocks := rfl
@[simp] theorem State.setCluster_mem (s : State) (c : Nat) (x : Cluster) : (s.setCluster c x).mem = s.mem := rfl
@[simp] theorem State.setCluster_owners (s : State) (c : Nat) (x : Cluster) : (s.setCluster c x).owners = s.owners := rfl
@[simp] theorem State.setCluster_poisoned (s : State) (c : Nat) (x : Cluster) : (s.setCluster c x).poisoned = s.poisoned := rfl
@[simp] theorem State.setCluster_host (s : State) (c : Nat) (x : Cluster) : (s.setCluster c x).host = s.host := rfl
@[simp] theorem State.setCluster_peers (s : State) (c : Nat) (x : Cluster) : (s.setCluster c x).peers = s.peers := rfl
@[simp] theorem State.setCluster_far (s : State) (c : Nat) (x : Cluster) : (s.setCluster c x).far = s.far := rfl
@[simp] theorem State.setCluster_tlb (s : State) (c : Nat) (x : Cluster) : (s.setCluster c x).tlb = s.tlb := rfl
@[simp] theorem State.setCluster_ats (s : State) (c : Nat) (x : Cluster) : (s.setCluster c x).ats = s.ats := rfl
@[simp] theorem State.setCluster_tags (s : State) (c : Nat) (x : Cluster) : (s.setCluster c x).tags = s.tags := rfl
@[simp] theorem State.setCluster_ports (s : State) (c : Nat) (x : Cluster) : (s.setCluster c x).ports = s.ports := rfl
@[simp] theorem State.setCluster_unreachable (s : State) (c : Nat) (x : Cluster) : (s.setCluster c x).unreachable = s.unreachable := rfl
@[simp] theorem State.setCluster_security (s : State) (c : Nat) (x : Cluster) : (s.setCluster c x).security = s.security := rfl
@[simp] theorem State.setCluster_msix (s : State) (c : Nat) (x : Cluster) : (s.setCluster c x).msix = s.msix := rfl
@[simp] theorem State.setCluster_answers (s : State) (c : Nat) (x : Cluster) : (s.setCluster c x).answers = s.answers := rfl
@[simp] theorem State.modCluster_ticks (s : State) (c : Nat) (f : Cluster → Cluster) : (s.modCluster c f).ticks = s.ticks := rfl
@[simp] theorem State.modCluster_free (s : State) (c : Nat) (f : Cluster → Cluster) : (s.modCluster c f).free = s.free := rfl
@[simp] theorem State.modCluster_nextKey (s : State) (c : Nat) (f : Cluster → Cluster) : (s.modCluster c f).nextKey = s.nextKey := rfl
@[simp] theorem State.modCluster_agenda (s : State) (c : Nat) (f : Cluster → Cluster) : (s.modCluster c f).agenda = s.agenda := rfl
@[simp] theorem State.modCluster_issue (s : State) (c : Nat) (f : Cluster → Cluster) : (s.modCluster c f).issue = s.issue := rfl
@[simp] theorem State.modCluster_clock (s : State) (c : Nat) (f : Cluster → Cluster) : (s.modCluster c f).clock = s.clock := rfl
@[simp] theorem State.modCluster_partitions (s : State) (c : Nat) (f : Cluster → Cluster) : (s.modCluster c f).partitions = s.partitions := rfl
@[simp] theorem State.modCluster_devw (s : State) (c : Nat) (f : Cluster → Cluster) : (s.modCluster c f).devw = s.devw := rfl
@[simp] theorem State.modCluster_boot (s : State) (c : Nat) (f : Cluster → Cluster) : (s.modCluster c f).boot = s.boot := rfl
@[simp] theorem State.modCluster_fabricId (s : State) (c : Nat) (f : Cluster → Cluster) : (s.modCluster c f).fabricId = s.fabricId := rfl
@[simp] theorem State.modCluster_parts (s : State) (c : Nat) (f : Cluster → Cluster) : (s.modCluster c f).parts = s.parts := rfl
@[simp] theorem State.modCluster_worlds (s : State) (c : Nat) (f : Cluster → Cluster) : (s.modCluster c f).worlds = s.worlds := rfl
@[simp] theorem State.modCluster_ctxs (s : State) (c : Nat) (f : Cluster → Cluster) : (s.modCluster c f).ctxs = s.ctxs := rfl
@[simp] theorem State.modCluster_grids (s : State) (c : Nat) (f : Cluster → Cluster) : (s.modCluster c f).grids = s.grids := rfl
@[simp] theorem State.modCluster_gangs (s : State) (c : Nat) (f : Cluster → Cluster) : (s.modCluster c f).gangs = s.gangs := rfl
@[simp] theorem State.modCluster_cores (s : State) (c : Nat) (f : Cluster → Cluster) : (s.modCluster c f).cores = s.cores := rfl
@[simp] theorem State.modCluster_clocks (s : State) (c : Nat) (f : Cluster → Cluster) : (s.modCluster c f).clocks = s.clocks := rfl
@[simp] theorem State.modCluster_mem (s : State) (c : Nat) (f : Cluster → Cluster) : (s.modCluster c f).mem = s.mem := rfl
@[simp] theorem State.modCluster_owners (s : State) (c : Nat) (f : Cluster → Cluster) : (s.modCluster c f).owners = s.owners := rfl
@[simp] theorem State.modCluster_poisoned (s : State) (c : Nat) (f : Cluster → Cluster) : (s.modCluster c f).poisoned = s.poisoned := rfl
@[simp] theorem State.modCluster_host (s : State) (c : Nat) (f : Cluster → Cluster) : (s.modCluster c f).host = s.host := rfl
@[simp] theorem State.modCluster_peers (s : State) (c : Nat) (f : Cluster → Cluster) : (s.modCluster c f).peers = s.peers := rfl
@[simp] theorem State.modCluster_far (s : State) (c : Nat) (f : Cluster → Cluster) : (s.modCluster c f).far = s.far := rfl
@[simp] theorem State.modCluster_tlb (s : State) (c : Nat) (f : Cluster → Cluster) : (s.modCluster c f).tlb = s.tlb := rfl
@[simp] theorem State.modCluster_ats (s : State) (c : Nat) (f : Cluster → Cluster) : (s.modCluster c f).ats = s.ats := rfl
@[simp] theorem State.modCluster_tags (s : State) (c : Nat) (f : Cluster → Cluster) : (s.modCluster c f).tags = s.tags := rfl
@[simp] theorem State.modCluster_ports (s : State) (c : Nat) (f : Cluster → Cluster) : (s.modCluster c f).ports = s.ports := rfl
@[simp] theorem State.modCluster_unreachable (s : State) (c : Nat) (f : Cluster → Cluster) : (s.modCluster c f).unreachable = s.unreachable := rfl
@[simp] theorem State.modCluster_security (s : State) (c : Nat) (f : Cluster → Cluster) : (s.modCluster c f).security = s.security := rfl
@[simp] theorem State.modCluster_msix (s : State) (c : Nat) (f : Cluster → Cluster) : (s.modCluster c f).msix = s.msix := rfl
@[simp] theorem State.modCluster_answers (s : State) (c : Nat) (f : Cluster → Cluster) : (s.modCluster c f).answers = s.answers := rfl
@[simp] theorem State.cluster_setCluster_same (s : State) (c : Nat) (x : Cluster) : (s.setCluster c x).cluster c = x := by simp [State.cluster, State.setCluster]
@[simp] theorem State.cluster_setCluster_other (s : State) (c m : Nat) (x : Cluster) (h : m ≠ c) : (s.setCluster c x).cluster m = s.cluster m := by
  simp [State.cluster, State.setCluster, h]
@[simp] theorem State.cluster_modCluster_same (s : State) (c : Nat) (f : Cluster → Cluster) : (s.modCluster c f).cluster c = f (s.cluster c) := by
  simp [State.modCluster]
@[simp] theorem State.cluster_modCluster_other (s : State) (c m : Nat) (f : Cluster → Cluster) (h : m ≠ c) : (s.modCluster c f).cluster m = s.cluster m := by
  simp [State.modCluster, h]
@[simp] theorem State.setCore_ticks (s : State) (c : Nat) (x : Core) : (s.setCore c x).ticks = s.ticks := rfl
@[simp] theorem State.setCore_free (s : State) (c : Nat) (x : Core) : (s.setCore c x).free = s.free := rfl
@[simp] theorem State.setCore_nextKey (s : State) (c : Nat) (x : Core) : (s.setCore c x).nextKey = s.nextKey := rfl
@[simp] theorem State.setCore_agenda (s : State) (c : Nat) (x : Core) : (s.setCore c x).agenda = s.agenda := rfl
@[simp] theorem State.setCore_issue (s : State) (c : Nat) (x : Core) : (s.setCore c x).issue = s.issue := rfl
@[simp] theorem State.setCore_clock (s : State) (c : Nat) (x : Core) : (s.setCore c x).clock = s.clock := rfl
@[simp] theorem State.setCore_partitions (s : State) (c : Nat) (x : Core) : (s.setCore c x).partitions = s.partitions := rfl
@[simp] theorem State.setCore_devw (s : State) (c : Nat) (x : Core) : (s.setCore c x).devw = s.devw := rfl
@[simp] theorem State.setCore_boot (s : State) (c : Nat) (x : Core) : (s.setCore c x).boot = s.boot := rfl
@[simp] theorem State.setCore_fabricId (s : State) (c : Nat) (x : Core) : (s.setCore c x).fabricId = s.fabricId := rfl
@[simp] theorem State.setCore_parts (s : State) (c : Nat) (x : Core) : (s.setCore c x).parts = s.parts := rfl
@[simp] theorem State.setCore_worlds (s : State) (c : Nat) (x : Core) : (s.setCore c x).worlds = s.worlds := rfl
@[simp] theorem State.setCore_ctxs (s : State) (c : Nat) (x : Core) : (s.setCore c x).ctxs = s.ctxs := rfl
@[simp] theorem State.setCore_grids (s : State) (c : Nat) (x : Core) : (s.setCore c x).grids = s.grids := rfl
@[simp] theorem State.setCore_gangs (s : State) (c : Nat) (x : Core) : (s.setCore c x).gangs = s.gangs := rfl
@[simp] theorem State.setCore_clusters (s : State) (c : Nat) (x : Core) : (s.setCore c x).clusters = s.clusters := rfl
@[simp] theorem State.setCore_clocks (s : State) (c : Nat) (x : Core) : (s.setCore c x).clocks = s.clocks := rfl
@[simp] theorem State.setCore_mem (s : State) (c : Nat) (x : Core) : (s.setCore c x).mem = s.mem := rfl
@[simp] theorem State.setCore_owners (s : State) (c : Nat) (x : Core) : (s.setCore c x).owners = s.owners := rfl
@[simp] theorem State.setCore_poisoned (s : State) (c : Nat) (x : Core) : (s.setCore c x).poisoned = s.poisoned := rfl
@[simp] theorem State.setCore_host (s : State) (c : Nat) (x : Core) : (s.setCore c x).host = s.host := rfl
@[simp] theorem State.setCore_peers (s : State) (c : Nat) (x : Core) : (s.setCore c x).peers = s.peers := rfl
@[simp] theorem State.setCore_far (s : State) (c : Nat) (x : Core) : (s.setCore c x).far = s.far := rfl
@[simp] theorem State.setCore_tlb (s : State) (c : Nat) (x : Core) : (s.setCore c x).tlb = s.tlb := rfl
@[simp] theorem State.setCore_ats (s : State) (c : Nat) (x : Core) : (s.setCore c x).ats = s.ats := rfl
@[simp] theorem State.setCore_tags (s : State) (c : Nat) (x : Core) : (s.setCore c x).tags = s.tags := rfl
@[simp] theorem State.setCore_ports (s : State) (c : Nat) (x : Core) : (s.setCore c x).ports = s.ports := rfl
@[simp] theorem State.setCore_unreachable (s : State) (c : Nat) (x : Core) : (s.setCore c x).unreachable = s.unreachable := rfl
@[simp] theorem State.setCore_security (s : State) (c : Nat) (x : Core) : (s.setCore c x).security = s.security := rfl
@[simp] theorem State.setCore_msix (s : State) (c : Nat) (x : Core) : (s.setCore c x).msix = s.msix := rfl
@[simp] theorem State.setCore_answers (s : State) (c : Nat) (x : Core) : (s.setCore c x).answers = s.answers := rfl
@[simp] theorem State.modCore_ticks (s : State) (c : Nat) (f : Core → Core) : (s.modCore c f).ticks = s.ticks := rfl
@[simp] theorem State.modCore_free (s : State) (c : Nat) (f : Core → Core) : (s.modCore c f).free = s.free := rfl
@[simp] theorem State.modCore_nextKey (s : State) (c : Nat) (f : Core → Core) : (s.modCore c f).nextKey = s.nextKey := rfl
@[simp] theorem State.modCore_agenda (s : State) (c : Nat) (f : Core → Core) : (s.modCore c f).agenda = s.agenda := rfl
@[simp] theorem State.modCore_issue (s : State) (c : Nat) (f : Core → Core) : (s.modCore c f).issue = s.issue := rfl
@[simp] theorem State.modCore_clock (s : State) (c : Nat) (f : Core → Core) : (s.modCore c f).clock = s.clock := rfl
@[simp] theorem State.modCore_partitions (s : State) (c : Nat) (f : Core → Core) : (s.modCore c f).partitions = s.partitions := rfl
@[simp] theorem State.modCore_devw (s : State) (c : Nat) (f : Core → Core) : (s.modCore c f).devw = s.devw := rfl
@[simp] theorem State.modCore_boot (s : State) (c : Nat) (f : Core → Core) : (s.modCore c f).boot = s.boot := rfl
@[simp] theorem State.modCore_fabricId (s : State) (c : Nat) (f : Core → Core) : (s.modCore c f).fabricId = s.fabricId := rfl
@[simp] theorem State.modCore_parts (s : State) (c : Nat) (f : Core → Core) : (s.modCore c f).parts = s.parts := rfl
@[simp] theorem State.modCore_worlds (s : State) (c : Nat) (f : Core → Core) : (s.modCore c f).worlds = s.worlds := rfl
@[simp] theorem State.modCore_ctxs (s : State) (c : Nat) (f : Core → Core) : (s.modCore c f).ctxs = s.ctxs := rfl
@[simp] theorem State.modCore_grids (s : State) (c : Nat) (f : Core → Core) : (s.modCore c f).grids = s.grids := rfl
@[simp] theorem State.modCore_gangs (s : State) (c : Nat) (f : Core → Core) : (s.modCore c f).gangs = s.gangs := rfl
@[simp] theorem State.modCore_clusters (s : State) (c : Nat) (f : Core → Core) : (s.modCore c f).clusters = s.clusters := rfl
@[simp] theorem State.modCore_clocks (s : State) (c : Nat) (f : Core → Core) : (s.modCore c f).clocks = s.clocks := rfl
@[simp] theorem State.modCore_mem (s : State) (c : Nat) (f : Core → Core) : (s.modCore c f).mem = s.mem := rfl
@[simp] theorem State.modCore_owners (s : State) (c : Nat) (f : Core → Core) : (s.modCore c f).owners = s.owners := rfl
@[simp] theorem State.modCore_poisoned (s : State) (c : Nat) (f : Core → Core) : (s.modCore c f).poisoned = s.poisoned := rfl
@[simp] theorem State.modCore_host (s : State) (c : Nat) (f : Core → Core) : (s.modCore c f).host = s.host := rfl
@[simp] theorem State.modCore_peers (s : State) (c : Nat) (f : Core → Core) : (s.modCore c f).peers = s.peers := rfl
@[simp] theorem State.modCore_far (s : State) (c : Nat) (f : Core → Core) : (s.modCore c f).far = s.far := rfl
@[simp] theorem State.modCore_tlb (s : State) (c : Nat) (f : Core → Core) : (s.modCore c f).tlb = s.tlb := rfl
@[simp] theorem State.modCore_ats (s : State) (c : Nat) (f : Core → Core) : (s.modCore c f).ats = s.ats := rfl
@[simp] theorem State.modCore_tags (s : State) (c : Nat) (f : Core → Core) : (s.modCore c f).tags = s.tags := rfl
@[simp] theorem State.modCore_ports (s : State) (c : Nat) (f : Core → Core) : (s.modCore c f).ports = s.ports := rfl
@[simp] theorem State.modCore_unreachable (s : State) (c : Nat) (f : Core → Core) : (s.modCore c f).unreachable = s.unreachable := rfl
@[simp] theorem State.modCore_security (s : State) (c : Nat) (f : Core → Core) : (s.modCore c f).security = s.security := rfl
@[simp] theorem State.modCore_msix (s : State) (c : Nat) (f : Core → Core) : (s.modCore c f).msix = s.msix := rfl
@[simp] theorem State.modCore_answers (s : State) (c : Nat) (f : Core → Core) : (s.modCore c f).answers = s.answers := rfl
@[simp] theorem State.core_setCore_same (s : State) (c : Nat) (x : Core) : (s.setCore c x).core c = x := by simp [State.core, State.setCore]
@[simp] theorem State.core_setCore_other (s : State) (c m : Nat) (x : Core) (h : m ≠ c) : (s.setCore c x).core m = s.core m := by
  simp [State.core, State.setCore, h]
@[simp] theorem State.core_modCore_same (s : State) (c : Nat) (f : Core → Core) : (s.modCore c f).core c = f (s.core c) := by
  simp [State.modCore]
@[simp] theorem State.core_modCore_other (s : State) (c m : Nat) (f : Core → Core) (h : m ≠ c) : (s.modCore c f).core m = s.core m := by
  simp [State.modCore, h]
@[simp] theorem State.setPart_ticks (s : State) (p : Nat) (x : Partition) : (s.setPart p x).ticks = s.ticks := rfl
@[simp] theorem State.setPart_free (s : State) (p : Nat) (x : Partition) : (s.setPart p x).free = s.free := rfl
@[simp] theorem State.setPart_nextKey (s : State) (p : Nat) (x : Partition) : (s.setPart p x).nextKey = s.nextKey := rfl
@[simp] theorem State.setPart_agenda (s : State) (p : Nat) (x : Partition) : (s.setPart p x).agenda = s.agenda := rfl
@[simp] theorem State.setPart_issue (s : State) (p : Nat) (x : Partition) : (s.setPart p x).issue = s.issue := rfl
@[simp] theorem State.setPart_clock (s : State) (p : Nat) (x : Partition) : (s.setPart p x).clock = s.clock := rfl
@[simp] theorem State.setPart_partitions (s : State) (p : Nat) (x : Partition) : (s.setPart p x).partitions = s.partitions := rfl
@[simp] theorem State.setPart_devw (s : State) (p : Nat) (x : Partition) : (s.setPart p x).devw = s.devw := rfl
@[simp] theorem State.setPart_boot (s : State) (p : Nat) (x : Partition) : (s.setPart p x).boot = s.boot := rfl
@[simp] theorem State.setPart_fabricId (s : State) (p : Nat) (x : Partition) : (s.setPart p x).fabricId = s.fabricId := rfl
@[simp] theorem State.setPart_worlds (s : State) (p : Nat) (x : Partition) : (s.setPart p x).worlds = s.worlds := rfl
@[simp] theorem State.setPart_ctxs (s : State) (p : Nat) (x : Partition) : (s.setPart p x).ctxs = s.ctxs := rfl
@[simp] theorem State.setPart_grids (s : State) (p : Nat) (x : Partition) : (s.setPart p x).grids = s.grids := rfl
@[simp] theorem State.setPart_gangs (s : State) (p : Nat) (x : Partition) : (s.setPart p x).gangs = s.gangs := rfl
@[simp] theorem State.setPart_clusters (s : State) (p : Nat) (x : Partition) : (s.setPart p x).clusters = s.clusters := rfl
@[simp] theorem State.setPart_cores (s : State) (p : Nat) (x : Partition) : (s.setPart p x).cores = s.cores := rfl
@[simp] theorem State.setPart_clocks (s : State) (p : Nat) (x : Partition) : (s.setPart p x).clocks = s.clocks := rfl
@[simp] theorem State.setPart_mem (s : State) (p : Nat) (x : Partition) : (s.setPart p x).mem = s.mem := rfl
@[simp] theorem State.setPart_owners (s : State) (p : Nat) (x : Partition) : (s.setPart p x).owners = s.owners := rfl
@[simp] theorem State.setPart_poisoned (s : State) (p : Nat) (x : Partition) : (s.setPart p x).poisoned = s.poisoned := rfl
@[simp] theorem State.setPart_host (s : State) (p : Nat) (x : Partition) : (s.setPart p x).host = s.host := rfl
@[simp] theorem State.setPart_peers (s : State) (p : Nat) (x : Partition) : (s.setPart p x).peers = s.peers := rfl
@[simp] theorem State.setPart_far (s : State) (p : Nat) (x : Partition) : (s.setPart p x).far = s.far := rfl
@[simp] theorem State.setPart_tlb (s : State) (p : Nat) (x : Partition) : (s.setPart p x).tlb = s.tlb := rfl
@[simp] theorem State.setPart_ats (s : State) (p : Nat) (x : Partition) : (s.setPart p x).ats = s.ats := rfl
@[simp] theorem State.setPart_tags (s : State) (p : Nat) (x : Partition) : (s.setPart p x).tags = s.tags := rfl
@[simp] theorem State.setPart_ports (s : State) (p : Nat) (x : Partition) : (s.setPart p x).ports = s.ports := rfl
@[simp] theorem State.setPart_unreachable (s : State) (p : Nat) (x : Partition) : (s.setPart p x).unreachable = s.unreachable := rfl
@[simp] theorem State.setPart_security (s : State) (p : Nat) (x : Partition) : (s.setPart p x).security = s.security := rfl
@[simp] theorem State.setPart_msix (s : State) (p : Nat) (x : Partition) : (s.setPart p x).msix = s.msix := rfl
@[simp] theorem State.setPart_answers (s : State) (p : Nat) (x : Partition) : (s.setPart p x).answers = s.answers := rfl
@[simp] theorem State.modPart_ticks (s : State) (p : Nat) (f : Partition → Partition) : (s.modPart p f).ticks = s.ticks := rfl
@[simp] theorem State.modPart_free (s : State) (p : Nat) (f : Partition → Partition) : (s.modPart p f).free = s.free := rfl
@[simp] theorem State.modPart_nextKey (s : State) (p : Nat) (f : Partition → Partition) : (s.modPart p f).nextKey = s.nextKey := rfl
@[simp] theorem State.modPart_agenda (s : State) (p : Nat) (f : Partition → Partition) : (s.modPart p f).agenda = s.agenda := rfl
@[simp] theorem State.modPart_issue (s : State) (p : Nat) (f : Partition → Partition) : (s.modPart p f).issue = s.issue := rfl
@[simp] theorem State.modPart_clock (s : State) (p : Nat) (f : Partition → Partition) : (s.modPart p f).clock = s.clock := rfl
@[simp] theorem State.modPart_partitions (s : State) (p : Nat) (f : Partition → Partition) : (s.modPart p f).partitions = s.partitions := rfl
@[simp] theorem State.modPart_devw (s : State) (p : Nat) (f : Partition → Partition) : (s.modPart p f).devw = s.devw := rfl
@[simp] theorem State.modPart_boot (s : State) (p : Nat) (f : Partition → Partition) : (s.modPart p f).boot = s.boot := rfl
@[simp] theorem State.modPart_fabricId (s : State) (p : Nat) (f : Partition → Partition) : (s.modPart p f).fabricId = s.fabricId := rfl
@[simp] theorem State.modPart_worlds (s : State) (p : Nat) (f : Partition → Partition) : (s.modPart p f).worlds = s.worlds := rfl
@[simp] theorem State.modPart_ctxs (s : State) (p : Nat) (f : Partition → Partition) : (s.modPart p f).ctxs = s.ctxs := rfl
@[simp] theorem State.modPart_grids (s : State) (p : Nat) (f : Partition → Partition) : (s.modPart p f).grids = s.grids := rfl
@[simp] theorem State.modPart_gangs (s : State) (p : Nat) (f : Partition → Partition) : (s.modPart p f).gangs = s.gangs := rfl
@[simp] theorem State.modPart_clusters (s : State) (p : Nat) (f : Partition → Partition) : (s.modPart p f).clusters = s.clusters := rfl
@[simp] theorem State.modPart_cores (s : State) (p : Nat) (f : Partition → Partition) : (s.modPart p f).cores = s.cores := rfl
@[simp] theorem State.modPart_clocks (s : State) (p : Nat) (f : Partition → Partition) : (s.modPart p f).clocks = s.clocks := rfl
@[simp] theorem State.modPart_mem (s : State) (p : Nat) (f : Partition → Partition) : (s.modPart p f).mem = s.mem := rfl
@[simp] theorem State.modPart_owners (s : State) (p : Nat) (f : Partition → Partition) : (s.modPart p f).owners = s.owners := rfl
@[simp] theorem State.modPart_poisoned (s : State) (p : Nat) (f : Partition → Partition) : (s.modPart p f).poisoned = s.poisoned := rfl
@[simp] theorem State.modPart_host (s : State) (p : Nat) (f : Partition → Partition) : (s.modPart p f).host = s.host := rfl
@[simp] theorem State.modPart_peers (s : State) (p : Nat) (f : Partition → Partition) : (s.modPart p f).peers = s.peers := rfl
@[simp] theorem State.modPart_far (s : State) (p : Nat) (f : Partition → Partition) : (s.modPart p f).far = s.far := rfl
@[simp] theorem State.modPart_tlb (s : State) (p : Nat) (f : Partition → Partition) : (s.modPart p f).tlb = s.tlb := rfl
@[simp] theorem State.modPart_ats (s : State) (p : Nat) (f : Partition → Partition) : (s.modPart p f).ats = s.ats := rfl
@[simp] theorem State.modPart_tags (s : State) (p : Nat) (f : Partition → Partition) : (s.modPart p f).tags = s.tags := rfl
@[simp] theorem State.modPart_ports (s : State) (p : Nat) (f : Partition → Partition) : (s.modPart p f).ports = s.ports := rfl
@[simp] theorem State.modPart_unreachable (s : State) (p : Nat) (f : Partition → Partition) : (s.modPart p f).unreachable = s.unreachable := rfl
@[simp] theorem State.modPart_security (s : State) (p : Nat) (f : Partition → Partition) : (s.modPart p f).security = s.security := rfl
@[simp] theorem State.modPart_msix (s : State) (p : Nat) (f : Partition → Partition) : (s.modPart p f).msix = s.msix := rfl
@[simp] theorem State.modPart_answers (s : State) (p : Nat) (f : Partition → Partition) : (s.modPart p f).answers = s.answers := rfl
@[simp] theorem State.part_setPart_same (s : State) (p : Nat) (x : Partition) : (s.setPart p x).part p = x := by simp [State.part, State.setPart]
@[simp] theorem State.part_setPart_other (s : State) (p m : Nat) (x : Partition) (h : m ≠ p) : (s.setPart p x).part m = s.part m := by
  simp [State.part, State.setPart, h]
@[simp] theorem State.part_modPart_same (s : State) (p : Nat) (f : Partition → Partition) : (s.modPart p f).part p = f (s.part p) := by
  simp [State.modPart]
@[simp] theorem State.part_modPart_other (s : State) (p m : Nat) (f : Partition → Partition) (h : m ≠ p) : (s.modPart p f).part m = s.part m := by
  simp [State.modPart, h]
@[simp] theorem State.setGang_ticks (s : State) (g : Gang) : (s.setGang g).ticks = s.ticks := rfl
@[simp] theorem State.setGang_free (s : State) (g : Gang) : (s.setGang g).free = s.free := rfl
@[simp] theorem State.setGang_nextKey (s : State) (g : Gang) : (s.setGang g).nextKey = s.nextKey := rfl
@[simp] theorem State.setGang_agenda (s : State) (g : Gang) : (s.setGang g).agenda = s.agenda := rfl
@[simp] theorem State.setGang_issue (s : State) (g : Gang) : (s.setGang g).issue = s.issue := rfl
@[simp] theorem State.setGang_clock (s : State) (g : Gang) : (s.setGang g).clock = s.clock := rfl
@[simp] theorem State.setGang_partitions (s : State) (g : Gang) : (s.setGang g).partitions = s.partitions := rfl
@[simp] theorem State.setGang_devw (s : State) (g : Gang) : (s.setGang g).devw = s.devw := rfl
@[simp] theorem State.setGang_boot (s : State) (g : Gang) : (s.setGang g).boot = s.boot := rfl
@[simp] theorem State.setGang_fabricId (s : State) (g : Gang) : (s.setGang g).fabricId = s.fabricId := rfl
@[simp] theorem State.setGang_parts (s : State) (g : Gang) : (s.setGang g).parts = s.parts := rfl
@[simp] theorem State.setGang_worlds (s : State) (g : Gang) : (s.setGang g).worlds = s.worlds := rfl
@[simp] theorem State.setGang_ctxs (s : State) (g : Gang) : (s.setGang g).ctxs = s.ctxs := rfl
@[simp] theorem State.setGang_grids (s : State) (g : Gang) : (s.setGang g).grids = s.grids := rfl
@[simp] theorem State.setGang_clusters (s : State) (g : Gang) : (s.setGang g).clusters = s.clusters := rfl
@[simp] theorem State.setGang_cores (s : State) (g : Gang) : (s.setGang g).cores = s.cores := rfl
@[simp] theorem State.setGang_clocks (s : State) (g : Gang) : (s.setGang g).clocks = s.clocks := rfl
@[simp] theorem State.setGang_mem (s : State) (g : Gang) : (s.setGang g).mem = s.mem := rfl
@[simp] theorem State.setGang_owners (s : State) (g : Gang) : (s.setGang g).owners = s.owners := rfl
@[simp] theorem State.setGang_poisoned (s : State) (g : Gang) : (s.setGang g).poisoned = s.poisoned := rfl
@[simp] theorem State.setGang_host (s : State) (g : Gang) : (s.setGang g).host = s.host := rfl
@[simp] theorem State.setGang_peers (s : State) (g : Gang) : (s.setGang g).peers = s.peers := rfl
@[simp] theorem State.setGang_far (s : State) (g : Gang) : (s.setGang g).far = s.far := rfl
@[simp] theorem State.setGang_tlb (s : State) (g : Gang) : (s.setGang g).tlb = s.tlb := rfl
@[simp] theorem State.setGang_ats (s : State) (g : Gang) : (s.setGang g).ats = s.ats := rfl
@[simp] theorem State.setGang_tags (s : State) (g : Gang) : (s.setGang g).tags = s.tags := rfl
@[simp] theorem State.setGang_ports (s : State) (g : Gang) : (s.setGang g).ports = s.ports := rfl
@[simp] theorem State.setGang_unreachable (s : State) (g : Gang) : (s.setGang g).unreachable = s.unreachable := rfl
@[simp] theorem State.setGang_security (s : State) (g : Gang) : (s.setGang g).security = s.security := rfl
@[simp] theorem State.setGang_msix (s : State) (g : Gang) : (s.setGang g).msix = s.msix := rfl
@[simp] theorem State.setGang_answers (s : State) (g : Gang) : (s.setGang g).answers = s.answers := rfl
@[simp] theorem State.modGang_ticks (s : State) (k : Nat) (f : Gang → Gang) : (s.modGang k f).ticks = s.ticks := by
  unfold State.modGang; split <;> rfl
@[simp] theorem State.modGang_free (s : State) (k : Nat) (f : Gang → Gang) : (s.modGang k f).free = s.free := by
  unfold State.modGang; split <;> rfl
@[simp] theorem State.modGang_nextKey (s : State) (k : Nat) (f : Gang → Gang) : (s.modGang k f).nextKey = s.nextKey := by
  unfold State.modGang; split <;> rfl
@[simp] theorem State.modGang_agenda (s : State) (k : Nat) (f : Gang → Gang) : (s.modGang k f).agenda = s.agenda := by
  unfold State.modGang; split <;> rfl
@[simp] theorem State.modGang_issue (s : State) (k : Nat) (f : Gang → Gang) : (s.modGang k f).issue = s.issue := by
  unfold State.modGang; split <;> rfl
@[simp] theorem State.modGang_clock (s : State) (k : Nat) (f : Gang → Gang) : (s.modGang k f).clock = s.clock := by
  unfold State.modGang; split <;> rfl
@[simp] theorem State.modGang_partitions (s : State) (k : Nat) (f : Gang → Gang) : (s.modGang k f).partitions = s.partitions := by
  unfold State.modGang; split <;> rfl
@[simp] theorem State.modGang_devw (s : State) (k : Nat) (f : Gang → Gang) : (s.modGang k f).devw = s.devw := by
  unfold State.modGang; split <;> rfl
@[simp] theorem State.modGang_boot (s : State) (k : Nat) (f : Gang → Gang) : (s.modGang k f).boot = s.boot := by
  unfold State.modGang; split <;> rfl
@[simp] theorem State.modGang_fabricId (s : State) (k : Nat) (f : Gang → Gang) : (s.modGang k f).fabricId = s.fabricId := by
  unfold State.modGang; split <;> rfl
@[simp] theorem State.modGang_parts (s : State) (k : Nat) (f : Gang → Gang) : (s.modGang k f).parts = s.parts := by
  unfold State.modGang; split <;> rfl
@[simp] theorem State.modGang_worlds (s : State) (k : Nat) (f : Gang → Gang) : (s.modGang k f).worlds = s.worlds := by
  unfold State.modGang; split <;> rfl
@[simp] theorem State.modGang_ctxs (s : State) (k : Nat) (f : Gang → Gang) : (s.modGang k f).ctxs = s.ctxs := by
  unfold State.modGang; split <;> rfl
@[simp] theorem State.modGang_grids (s : State) (k : Nat) (f : Gang → Gang) : (s.modGang k f).grids = s.grids := by
  unfold State.modGang; split <;> rfl
@[simp] theorem State.modGang_clusters (s : State) (k : Nat) (f : Gang → Gang) : (s.modGang k f).clusters = s.clusters := by
  unfold State.modGang; split <;> rfl
@[simp] theorem State.modGang_cores (s : State) (k : Nat) (f : Gang → Gang) : (s.modGang k f).cores = s.cores := by
  unfold State.modGang; split <;> rfl
@[simp] theorem State.modGang_clocks (s : State) (k : Nat) (f : Gang → Gang) : (s.modGang k f).clocks = s.clocks := by
  unfold State.modGang; split <;> rfl
@[simp] theorem State.modGang_mem (s : State) (k : Nat) (f : Gang → Gang) : (s.modGang k f).mem = s.mem := by
  unfold State.modGang; split <;> rfl
@[simp] theorem State.modGang_owners (s : State) (k : Nat) (f : Gang → Gang) : (s.modGang k f).owners = s.owners := by
  unfold State.modGang; split <;> rfl
@[simp] theorem State.modGang_poisoned (s : State) (k : Nat) (f : Gang → Gang) : (s.modGang k f).poisoned = s.poisoned := by
  unfold State.modGang; split <;> rfl
@[simp] theorem State.modGang_host (s : State) (k : Nat) (f : Gang → Gang) : (s.modGang k f).host = s.host := by
  unfold State.modGang; split <;> rfl
@[simp] theorem State.modGang_peers (s : State) (k : Nat) (f : Gang → Gang) : (s.modGang k f).peers = s.peers := by
  unfold State.modGang; split <;> rfl
@[simp] theorem State.modGang_far (s : State) (k : Nat) (f : Gang → Gang) : (s.modGang k f).far = s.far := by
  unfold State.modGang; split <;> rfl
@[simp] theorem State.modGang_tlb (s : State) (k : Nat) (f : Gang → Gang) : (s.modGang k f).tlb = s.tlb := by
  unfold State.modGang; split <;> rfl
@[simp] theorem State.modGang_ats (s : State) (k : Nat) (f : Gang → Gang) : (s.modGang k f).ats = s.ats := by
  unfold State.modGang; split <;> rfl
@[simp] theorem State.modGang_tags (s : State) (k : Nat) (f : Gang → Gang) : (s.modGang k f).tags = s.tags := by
  unfold State.modGang; split <;> rfl
@[simp] theorem State.modGang_ports (s : State) (k : Nat) (f : Gang → Gang) : (s.modGang k f).ports = s.ports := by
  unfold State.modGang; split <;> rfl
@[simp] theorem State.modGang_unreachable (s : State) (k : Nat) (f : Gang → Gang) : (s.modGang k f).unreachable = s.unreachable := by
  unfold State.modGang; split <;> rfl
@[simp] theorem State.modGang_security (s : State) (k : Nat) (f : Gang → Gang) : (s.modGang k f).security = s.security := by
  unfold State.modGang; split <;> rfl
@[simp] theorem State.modGang_msix (s : State) (k : Nat) (f : Gang → Gang) : (s.modGang k f).msix = s.msix := by
  unfold State.modGang; split <;> rfl
@[simp] theorem State.modGang_answers (s : State) (k : Nat) (f : Gang → Gang) : (s.modGang k f).answers = s.answers := by
  unfold State.modGang; split <;> rfl
@[simp] theorem State.modSkein_ticks (s : State) (g k : Nat) (f : Skein → Skein) : (s.modSkein g k f).ticks = s.ticks := State.modGang_ticks ..
@[simp] theorem State.modSkein_free (s : State) (g k : Nat) (f : Skein → Skein) : (s.modSkein g k f).free = s.free := State.modGang_free ..
@[simp] theorem State.modSkein_nextKey (s : State) (g k : Nat) (f : Skein → Skein) : (s.modSkein g k f).nextKey = s.nextKey := State.modGang_nextKey ..
@[simp] theorem State.modSkein_agenda (s : State) (g k : Nat) (f : Skein → Skein) : (s.modSkein g k f).agenda = s.agenda := State.modGang_agenda ..
@[simp] theorem State.modSkein_issue (s : State) (g k : Nat) (f : Skein → Skein) : (s.modSkein g k f).issue = s.issue := State.modGang_issue ..
@[simp] theorem State.modSkein_clock (s : State) (g k : Nat) (f : Skein → Skein) : (s.modSkein g k f).clock = s.clock := State.modGang_clock ..
@[simp] theorem State.modSkein_partitions (s : State) (g k : Nat) (f : Skein → Skein) : (s.modSkein g k f).partitions = s.partitions := State.modGang_partitions ..
@[simp] theorem State.modSkein_devw (s : State) (g k : Nat) (f : Skein → Skein) : (s.modSkein g k f).devw = s.devw := State.modGang_devw ..
@[simp] theorem State.modSkein_boot (s : State) (g k : Nat) (f : Skein → Skein) : (s.modSkein g k f).boot = s.boot := State.modGang_boot ..
@[simp] theorem State.modSkein_fabricId (s : State) (g k : Nat) (f : Skein → Skein) : (s.modSkein g k f).fabricId = s.fabricId := State.modGang_fabricId ..
@[simp] theorem State.modSkein_parts (s : State) (g k : Nat) (f : Skein → Skein) : (s.modSkein g k f).parts = s.parts := State.modGang_parts ..
@[simp] theorem State.modSkein_worlds (s : State) (g k : Nat) (f : Skein → Skein) : (s.modSkein g k f).worlds = s.worlds := State.modGang_worlds ..
@[simp] theorem State.modSkein_ctxs (s : State) (g k : Nat) (f : Skein → Skein) : (s.modSkein g k f).ctxs = s.ctxs := State.modGang_ctxs ..
@[simp] theorem State.modSkein_grids (s : State) (g k : Nat) (f : Skein → Skein) : (s.modSkein g k f).grids = s.grids := State.modGang_grids ..
@[simp] theorem State.modSkein_clusters (s : State) (g k : Nat) (f : Skein → Skein) : (s.modSkein g k f).clusters = s.clusters := State.modGang_clusters ..
@[simp] theorem State.modSkein_cores (s : State) (g k : Nat) (f : Skein → Skein) : (s.modSkein g k f).cores = s.cores := State.modGang_cores ..
@[simp] theorem State.modSkein_clocks (s : State) (g k : Nat) (f : Skein → Skein) : (s.modSkein g k f).clocks = s.clocks := State.modGang_clocks ..
@[simp] theorem State.modSkein_mem (s : State) (g k : Nat) (f : Skein → Skein) : (s.modSkein g k f).mem = s.mem := State.modGang_mem ..
@[simp] theorem State.modSkein_owners (s : State) (g k : Nat) (f : Skein → Skein) : (s.modSkein g k f).owners = s.owners := State.modGang_owners ..
@[simp] theorem State.modSkein_poisoned (s : State) (g k : Nat) (f : Skein → Skein) : (s.modSkein g k f).poisoned = s.poisoned := State.modGang_poisoned ..
@[simp] theorem State.modSkein_host (s : State) (g k : Nat) (f : Skein → Skein) : (s.modSkein g k f).host = s.host := State.modGang_host ..
@[simp] theorem State.modSkein_peers (s : State) (g k : Nat) (f : Skein → Skein) : (s.modSkein g k f).peers = s.peers := State.modGang_peers ..
@[simp] theorem State.modSkein_far (s : State) (g k : Nat) (f : Skein → Skein) : (s.modSkein g k f).far = s.far := State.modGang_far ..
@[simp] theorem State.modSkein_tlb (s : State) (g k : Nat) (f : Skein → Skein) : (s.modSkein g k f).tlb = s.tlb := State.modGang_tlb ..
@[simp] theorem State.modSkein_ats (s : State) (g k : Nat) (f : Skein → Skein) : (s.modSkein g k f).ats = s.ats := State.modGang_ats ..
@[simp] theorem State.modSkein_tags (s : State) (g k : Nat) (f : Skein → Skein) : (s.modSkein g k f).tags = s.tags := State.modGang_tags ..
@[simp] theorem State.modSkein_ports (s : State) (g k : Nat) (f : Skein → Skein) : (s.modSkein g k f).ports = s.ports := State.modGang_ports ..
@[simp] theorem State.modSkein_unreachable (s : State) (g k : Nat) (f : Skein → Skein) : (s.modSkein g k f).unreachable = s.unreachable := State.modGang_unreachable ..
@[simp] theorem State.modSkein_security (s : State) (g k : Nat) (f : Skein → Skein) : (s.modSkein g k f).security = s.security := State.modGang_security ..
@[simp] theorem State.modSkein_msix (s : State) (g k : Nat) (f : Skein → Skein) : (s.modSkein g k f).msix = s.msix := State.modGang_msix ..
@[simp] theorem State.modSkein_answers (s : State) (g k : Nat) (f : Skein → Skein) : (s.modSkein g k f).answers = s.answers := State.modGang_answers ..

/-! ## Gangs, skeins, fibres -/

theorem findGang_putGang_same : ∀ (gs : List Gang) (g h : Gang), findGang gs g.key = some h → findGang (putGang gs g) g.key = some g
  | [], _, _, hf => by simp [findGang] at hf
  | x :: r, g, h, hf => by
    simp only [findGang] at hf
    simp only [putGang]
    split
    · simp [findGang]
    · rename_i hx
      simp only [hx, if_false] at hf
      simp [findGang, hx, findGang_putGang_same r g h hf]

theorem findGang_putGang_other : ∀ (gs : List Gang) (g : Gang) (k : Nat), k ≠ g.key → findGang (putGang gs g) k = findGang gs k
  | [], _, _, _ => rfl
  | x :: r, g, k, hk => by
    simp only [putGang]
    split
    · rename_i hx
      simp [findGang, hx, Ne.symm hk]
    · simp only [findGang, findGang_putGang_other r g k hk]

theorem findGang_key : ∀ (gs : List Gang) (k : Nat) (g : Gang), findGang gs k = some g → g.key = k
  | [], _, _, h => by simp [findGang] at h
  | x :: r, k, g, h => by
    simp only [findGang] at h
    split at h
    · rename_i hx; cases h; exact hx
    · exact findGang_key r k g h

theorem State.gang_key {s : State} {k : Nat} {g : Gang} (h : s.gang k = some g) : g.key = k := findGang_key s.gangs k g h

@[simp] theorem State.gang_modGang_same (s : State) (k : Nat) (f : Gang → Gang) :
    (s.modGang k f).gang k = (s.gang k).map fun g => { f g with key := k } := by
  unfold State.modGang
  cases h : s.gang k with
  | none => simp [h]
  | some g =>
    have := findGang_putGang_same s.gangs { f g with key := k } g h
    simpa [State.gang, State.setGang] using this

@[simp] theorem State.gang_modGang_other (s : State) (k j : Nat) (f : Gang → Gang) (h : j ≠ k) : (s.modGang k f).gang j = s.gang j := by
  unfold State.modGang
  split
  · exact findGang_putGang_other s.gangs _ j h
  · rfl

theorem modifyAt_getElem? {α : Type} (f : α → α) : ∀ (l : List α) (n m : Nat),
    (modifyAt l n f)[m]? = if m = n then l[m]?.map f else l[m]?
  | [], n, m => by simp [modifyAt]
  | x :: r, 0, 0 => by simp [modifyAt]
  | x :: r, 0, m + 1 => by simp [modifyAt]
  | x :: r, n + 1, 0 => by simp [modifyAt]
  | x :: r, n + 1, m + 1 => by simp [modifyAt, modifyAt_getElem? f r n m]

theorem setAt_getElem? {α : Type} (v : α) : ∀ (l : List α) (n m : Nat),
    (setAt l n v)[m]? = if m = n then l[m]?.map (fun _ => v) else l[m]?
  | [], n, m => by simp [setAt]
  | x :: r, 0, 0 => by simp [setAt]
  | x :: r, 0, m + 1 => by simp [setAt]
  | x :: r, n + 1, 0 => by simp [setAt]
  | x :: r, n + 1, m + 1 => by simp [setAt, setAt_getElem? v r n m]

theorem State.skein_modSkein_same (s : State) (g k : Nat) (f : Skein → Skein) :
    (s.modSkein g k f).skein g k = (s.skein g k).map f := by
  simp only [State.skein, State.modSkein, State.gang_modGang_same, Gang.modSkein]
  cases s.gang g <;> simp [modifyAt_getElem?]

theorem State.skein_modSkein_other (s : State) (g k g' k' : Nat) (f : Skein → Skein) (h : g' ≠ g ∨ k' ≠ k) :
    (s.modSkein g k f).skein g' k' = s.skein g' k' := by
  by_cases hg : g' = g
  · subst hg
    have hk : k' ≠ k := by simpa using h
    simp only [State.skein, State.modSkein, State.gang_modGang_same, Gang.modSkein]
    cases s.gang g' <;> simp [modifyAt_getElem?, hk]
  · simp [State.skein, State.modSkein, hg]

/-! ## Time -/

@[simp] theorem State.tick_ticks (s : State) : s.tick.ticks = s.ticks + 1 := rfl
@[simp] theorem State.tick_agenda (s : State) : s.tick.agenda = s.agenda.drop 1 := rfl
@[simp] theorem State.tick_free (s : State) : s.tick.free = s.free := rfl
@[simp] theorem State.tick_nextKey (s : State) : s.tick.nextKey = s.nextKey := rfl
@[simp] theorem State.tick_issue (s : State) : s.tick.issue = s.issue := rfl
@[simp] theorem State.tick_partitions (s : State) : s.tick.partitions = s.partitions := rfl
@[simp] theorem State.tick_devw (s : State) : s.tick.devw = s.devw := rfl
@[simp] theorem State.tick_boot (s : State) : s.tick.boot = s.boot := rfl
@[simp] theorem State.tick_fabricId (s : State) : s.tick.fabricId = s.fabricId := rfl
@[simp] theorem State.tick_parts (s : State) : s.tick.parts = s.parts := rfl
@[simp] theorem State.tick_worlds (s : State) : s.tick.worlds = s.worlds := rfl
@[simp] theorem State.tick_ctxs (s : State) : s.tick.ctxs = s.ctxs := rfl
@[simp] theorem State.tick_grids (s : State) : s.tick.grids = s.grids := rfl
@[simp] theorem State.tick_gangs (s : State) : s.tick.gangs = s.grown := rfl
@[simp] theorem State.tick_clusters (s : State) : s.tick.clusters = s.clusters := rfl
@[simp] theorem State.tick_clocks (s : State) : s.tick.clocks = s.clocks := rfl
@[simp] theorem State.tick_mem (s : State) : s.tick.mem = s.mem := rfl
@[simp] theorem State.tick_owners (s : State) : s.tick.owners = s.owners := rfl
@[simp] theorem State.tick_poisoned (s : State) : s.tick.poisoned = s.poisoned := rfl
@[simp] theorem State.tick_host (s : State) : s.tick.host = s.host := rfl
@[simp] theorem State.tick_peers (s : State) : s.tick.peers = s.peers := rfl
@[simp] theorem State.tick_far (s : State) : s.tick.far = s.far := rfl
@[simp] theorem State.tick_tlb (s : State) : s.tick.tlb = s.tlb := rfl
@[simp] theorem State.tick_ats (s : State) : s.tick.ats = s.ats := rfl
@[simp] theorem State.tick_tags (s : State) : s.tick.tags = s.tags := rfl
@[simp] theorem State.tick_ports (s : State) : s.tick.ports = s.ports := rfl
@[simp] theorem State.tick_unreachable (s : State) : s.tick.unreachable = s.unreachable := rfl
@[simp] theorem State.tick_security (s : State) : s.tick.security = s.security := rfl
@[simp] theorem State.tick_msix (s : State) : s.tick.msix = s.msix := rfl
@[simp] theorem State.tick_answers (s : State) : s.tick.answers = s.answers := rfl

theorem tget_map {α β : Type} (f : Nat → α → β) (n : Nat) : ∀ t : Tbl α, tget (t.map fun q => (q.1, f q.1 q.2)) n = (tget t n).map (f n)
  | [] => rfl
  | p :: r => by
    by_cases h : p.1 = n
    · subst h; simp [tget]
    · simpa [tget, h] using tget_map f n r

/-- A core after time has passed: as its slots were charged, with the placements that wait on it. -/
theorem State.tick_cores_get (s : State) (n : Nat) :
    tget s.tick.cores n = (tget s.idled n).map fun k => { k with wanting := s.wantingOn n k } :=
  tget_map (β := Core) (fun n (k : Core) => { k with wanting := s.wantingOn n k }) n s.idled

/-! ## Compaction moves that a freeze lets finish (spec/22 R460) -/

/-- Nothing but the clocks of cores passes. -/
theorem State.endMoves_eq (s : State) (keys : List Nat) : ∃ cs, s.endMoves keys = { s with cores := cs } := by
  have h (gs : List Gang) : ∀ s : State, ∃ cs, gs.foldl (fun (s : State) g =>
      s.modCore g.coreNo fun k => { k with clocks := (g.skeins.map (·.moving)).foldl max k.clocks }) s = { s with cores := cs } := by
    induction gs with
    | nil => exact fun s => ⟨s.cores, rfl⟩
    | cons g r ih =>
      intro s
      obtain ⟨cs, h⟩ := ih (s.modCore g.coreNo fun k => { k with clocks := (g.skeins.map (·.moving)).foldl max k.clocks })
      exact ⟨cs, h⟩
  exact h _ s

end Sys2Proof.Machine
end

