-- ==== Sys2Proof/Laws/Beside.lean ====
section
/-! SUPPORT. What the memory side, translation and reports leave alone: gangs, contexts, grids, cores but for their caches, and the model's own bookkeeping; and
that memory keeps its canonical form. -/

namespace Sys2Proof.Machine

/-- A core but for its caches. -/
def Core.bare (c : Core) : Core := { c with cache := [], code := [] }

/-- t is s but for memory and its owners, caches, translations, partitions' and worlds' registers, clusters, and what was raised; memory
in canonical form stays so. -/
structure Beside (s t : State) : Prop where
  ticks : t.ticks = s.ticks
  nextKey : t.nextKey = s.nextKey
  agenda : t.agenda = s.agenda
  issue : t.issue = s.issue
  clock : t.clock = s.clock
  partitions : t.partitions = s.partitions
  ctxs : t.ctxs = s.ctxs
  grids : t.grids = s.grids
  gangs : t.gangs = s.gangs
  cores : ∀ n, (t.core n).bare = (s.core n).bare
  tags : t.tags = s.tags
  wf : s.mem.wf = true → t.mem.wf = true

theorem Beside.refl (s : State) : Beside s s := ⟨rfl, rfl, rfl, rfl, rfl, rfl, rfl, rfl, rfl, fun _ => rfl, rfl, id⟩

theorem Beside.trans {s t u : State} (a : Beside s t) (b : Beside t u) : Beside s u :=
  ⟨b.ticks.trans a.ticks, b.nextKey.trans a.nextKey, b.agenda.trans a.agenda, b.issue.trans a.issue, b.clock.trans a.clock,
    b.partitions.trans a.partitions, b.ctxs.trans a.ctxs, b.grids.trans a.grids, b.gangs.trans a.gangs, fun n => (b.cores n).trans (a.cores n),
    b.tags.trans a.tags, fun h => b.wf (a.wf h)⟩

/-- A change of memory alone among what `Beside` names. -/
theorem Beside.of_mem {s t : State} (h1 : t.ticks = s.ticks) (h2 : t.nextKey = s.nextKey) (h3 : t.agenda = s.agenda)
    (h4 : t.issue = s.issue) (h5 : t.clock = s.clock) (h6 : t.partitions = s.partitions) (h7 : t.ctxs = s.ctxs) (h8 : t.grids = s.grids)
    (h9 : t.gangs = s.gangs) (h10 : t.cores = s.cores) (h11 : t.tags = s.tags) (h12 : s.mem.wf = true → t.mem.wf = true) : Beside s t :=
  ⟨h1, h2, h3, h4, h5, h6, h7, h8, h9, fun n => by simp [State.core, h10], h11, h12⟩

/-- A change of nothing that `Beside` names, memory untouched. -/
theorem Beside.of_eq {s t : State} (h1 : t.ticks = s.ticks) (h2 : t.nextKey = s.nextKey) (h3 : t.agenda = s.agenda)
    (h4 : t.issue = s.issue) (h5 : t.clock = s.clock) (h6 : t.partitions = s.partitions) (h7 : t.ctxs = s.ctxs) (h8 : t.grids = s.grids)
    (h9 : t.gangs = s.gangs) (h10 : t.cores = s.cores) (h11 : t.tags = s.tags) (h12 : t.mem = s.mem) : Beside s t :=
  .of_mem h1 h2 h3 h4 h5 h6 h7 h8 h9 h10 h11 fun h => by rw [h12]; exact h

theorem beside_modWorld (s : State) (w : Nat) (f : World → World) : Beside s (s.modWorld w f) :=
  Beside.of_eq rfl rfl rfl rfl rfl rfl rfl rfl rfl rfl rfl rfl
theorem beside_modCluster (s : State) (c : Nat) (f : Cluster → Cluster) : Beside s (s.modCluster c f) :=
  Beside.of_eq rfl rfl rfl rfl rfl rfl rfl rfl rfl rfl rfl rfl
/-- A change of a core's caches. -/
theorem beside_modCore (s : State) (c : Nat) {f : Core → Core} (h : ∀ k, (f k).bare = k.bare) : Beside s (s.modCore c f) :=
  ⟨rfl, rfl, rfl, rfl, rfl, rfl, rfl, rfl, rfl, fun n => by
    by_cases hn : n = c
    · subst hn; simp [h]
    · simp [hn], rfl, id⟩
theorem beside_modPart (s : State) (p : Nat) (f : Partition → Partition) : Beside s (s.modPart p f) :=
  Beside.of_eq rfl rfl rfl rfl rfl rfl rfl rfl rfl rfl rfl rfl
theorem beside_raise (s : State) (w v : Nat) : Beside s (s.raise w v) :=
  Beside.of_eq rfl rfl rfl rfl rfl rfl rfl rfl rfl rfl rfl rfl
theorem beside_draw (s : State) : Beside s s.draw :=
  Beside.of_eq rfl rfl rfl rfl rfl rfl rfl rfl rfl rfl rfl rfl

/-- A fold of changes. -/
theorem beside_foldl {α : Type} (f : State → α → State) (h : ∀ s a, Beside s (f s a)) : ∀ (l : List α) (s : State), Beside s (l.foldl f s)
  | [], s => Beside.refl s
  | a :: r, s => (h s a).trans (beside_foldl f h r (f s a))

/-- The state that a check answers with. -/
def Checked.st {α : Type} : Checked α → State
  | .ok _ s => s
  | .fault _ _ s => s
  | .wait s => s

/-! ## The memory side -/

theorem beside_writeDev {s t : State} {w a : Nat} {bs : List Byte} (h : s.writeDev w a bs = .ok t) : Beside s t := by
  unfold State.writeDev at h
  simp only at h
  split at h
  · exact absurd h (by simp)
  · cases h
    exact .of_mem rfl rfl rfl rfl rfl rfl rfl rfl rfl rfl rfl fun hw => Memory.wf_writeBytes bs s.mem a hw

theorem beside_markExt (s : State) (a : Nat) : Beside s (s.markExt a) := by
  unfold State.markExt
  split
  · exact beside_modPart ..
  · exact Beside.refl s

theorem beside_countUncorr (s : State) (line : Nat) : Beside s (s.countUncorr line) := by
  unfold State.countUncorr
  exact beside_modPart ..

theorem beside_writeDirty (s : State) (x : CacheLine) : Beside s (s.writeDirty x) := by
  unfold State.writeDirty
  split_ifs
  · split
    · rename_i h
      exact (beside_writeDev h).trans (beside_markExt ..)
    · exact Beside.refl s
  · exact Beside.refl s

theorem beside_writeBackLine (s : State) (c : Nat) (x : CacheLine) : Beside s (s.writeBackLine c x) := by
  unfold State.writeBackLine
  split
  · exact (beside_writeDirty ..).trans (beside_modCluster ..)
  · exact Beside.refl s

theorem beside_writeBackAll (s : State) (c : Nat) : Beside s (s.writeBackAll c) :=
  beside_foldl _ (fun s x => beside_writeBackLine s c x) _ s

theorem beside_acquireSync (s : State) (c : Nat) : Beside s (s.acquireSync c) := beside_modCluster ..

theorem beside_holdLine {s t : State} {c w r l : Nat} (h : s.holdLine c w r l = .ok t) : Beside s t := by
  unfold State.holdLine at h
  simp only at h
  split at h
  · cases h; exact beside_modCluster ..
  · split at h
    · exact absurd h (by simp)
    · split_ifs at h
      · cases h; exact Beside.refl s
      · split at h
        · cases h; exact beside_modCluster ..
        · split at h
          · cases h; exact Beside.refl s
          · cases h; exact (beside_writeDirty ..).trans (beside_modCluster ..)

theorem beside_holdLines {c w r : Nat} : ∀ (ls : List Nat) {s t : State}, s.holdLines c w r ls = .ok t → Beside s t
  | [], s, t, h => by cases h; exact Beside.refl s
  | l :: q, s, t, h => by
    unfold State.holdLines at h
    split at h
    · exact absurd h (by simp)
    · rename_i s' h'
      exact (beside_holdLine h').trans (beside_holdLines q h)

theorem beside_putCachedBytes (s : State) (c w a : Nat) (d : Bool) (bs : List Byte) : Beside s (s.putCachedBytes c w a d bs) :=
  beside_modCluster ..

theorem beside_writeThrough {c w : Nat} : ∀ (cuts : List (Nat × Nat)) {s t : State} {bs : List Byte},
    s.writeThrough c w cuts bs = .ok t → Beside s t
  | [], s, t, bs, h => by cases h; exact Beside.refl s
  | (x, n) :: r, s, t, bs, h => by
    unfold State.writeThrough at h
    simp only at h
    split_ifs at h
    · exact (beside_putCachedBytes ..).trans (beside_writeThrough r h)
    · split at h
      · exact absurd h (by simp)
      · rename_i s' h'
        exact ((beside_writeDev h').trans (beside_markExt ..)).trans (beside_writeThrough r h)

theorem beside_setPrivate (s : State) (n : Nat) (cs : List CacheLine) : Beside s (s.setPrivate n cs) := beside_modCore _ _ fun _ => rfl

theorem beside_pushLine (s : State) (c : Nat) (x : CacheLine) : Beside s (s.pushLine c x) := by
  unfold State.pushLine
  split_ifs
  · exact Beside.refl s
  · split
    · exact Beside.refl s
    · rename_i s1 h
      have b := beside_holdLine h
      split
      · exact b.trans (beside_modCluster ..)
      · exact b.trans (beside_writeDirty ..)

theorem beside_shedPrivate (s : State) (v : Via) (p : CacheLine → Bool) : Beside s (s.shedPrivate v p) := by
  unfold State.shedPrivate
  split
  · exact Beside.refl s
  · simp only
    split_ifs
    · exact (beside_foldl _ (fun s x => beside_pushLine s v.cluster x) _ s).trans (beside_setPrivate ..)
    · exact Beside.refl s

theorem beside_pushPrivate (s : State) (v : Via) : Beside s (s.pushPrivate v) := by
  unfold State.pushPrivate
  split
  · exact Beside.refl s
  · simp only
    split_ifs
    · exact (beside_foldl _ (fun s x => beside_pushLine s v.cluster x) _ s).trans (beside_setPrivate ..)
    · exact Beside.refl s

theorem beside_holdPrivate {s t : State} {v : Via} {n w r l : Nat} (h : s.holdPrivate v n w r l = .ok t) : Beside s t := by
  unfold State.holdPrivate at h
  simp only at h
  split at h
  · cases h; exact beside_modCore _ _ fun _ => rfl
  · split at h
    · exact absurd h (by simp)
    · rename_i s1 h1
      have b := beside_holdLine h1
      split_ifs at h
      · cases h; exact b
      · cases h; exact b.trans (beside_setPrivate ..)
      · split at h
        · cases h; exact b
        · cases h; exact (b.trans (beside_pushLine ..)).trans (beside_setPrivate ..)

theorem beside_holdPrivates {v : Via} {n w r : Nat} : ∀ (ls : List Nat) {s t : State}, s.holdPrivates v n w r ls = .ok t → Beside s t
  | [], s, t, h => by cases h; exact Beside.refl s
  | l :: q, s, t, h => by
    unfold State.holdPrivates at h
    split at h
    · exact absurd h (by simp)
    · rename_i s' h'
      exact (beside_holdPrivate h').trans (beside_holdPrivates q h)

theorem beside_writePrivate {v : Via} {n w : Nat} : ∀ (cuts : List (Nat × Nat)) {s t : State} {bs : List Byte},
    s.writePrivate v n w cuts bs = .ok t → Beside s t
  | [], s, t, bs, h => by cases h; exact Beside.refl s
  | (x, k) :: r, s, t, bs, h => by
    unfold State.writePrivate at h
    simp only at h
    split_ifs at h
    · exact (beside_modCore s n (f := fun k' => { k' with cache := putBytes k'.cache w x true (bs.take k) }) fun _ => rfl).trans
        (beside_writePrivate r h)
    · split at h
      · exact absurd h (by simp)
      · rename_i s' h'
        exact (beside_writeThrough _ h').trans (beside_writePrivate r h)

theorem beside_acquireCaches (s : State) (v : Via) (scope : Nat) : Beside s (s.acquireCaches v scope) := by
  have b : Beside s (if 3 ≤ scope then s.shedPrivate v fun _ => true else s) := by
    split_ifs
    · exact beside_shedPrivate ..
    · exact Beside.refl s
  unfold State.acquireCaches
  simp only
  generalize (if 3 ≤ scope then s.shedPrivate v fun _ => true else s) = s1 at b ⊢
  split_ifs
  · exact b.trans (beside_acquireSync ..)
  · exact b

theorem beside_releaseCaches (s : State) (v : Via) (scope : Nat) : Beside s (s.releaseCaches v scope) := by
  have b : Beside s (if 3 ≤ scope then s.pushPrivate v else s) := by
    split_ifs
    · exact beside_pushPrivate ..
    · exact Beside.refl s
  unfold State.releaseCaches
  simp only
  generalize (if 3 ≤ scope then s.pushPrivate v else s) = s1 at b ⊢
  split_ifs
  · exact b.trans (beside_writeBackAll ..)
  · exact b

theorem beside_cleanOne (s : State) (c l w : Nat) : Beside s (s.cleanOne c l w) := by
  unfold State.cleanOne
  split
  · split
    · exact Beside.refl s
    · exact beside_writeBackLine ..
  · exact Beside.refl s

theorem beside_dropLine (s : State) (c l w : Nat) : Beside s (s.dropLine c l w) := by
  unfold State.dropLine
  refine (beside_foldl _ (fun s n => ?_) _ s).trans (beside_modCluster ..)
  split
  · exact Beside.refl s
  · exact beside_modCore _ _ fun _ => rfl

theorem beside_publish (s : State) (c w : Nat) (ls : List Nat) : Beside s (s.publish c w ls) :=
  beside_foldl _ (fun s l => beside_cleanOne s c l w) ls s

theorem beside_refresh (s : State) (c w a n : Nat) : Beside s (s.refresh c w a n) := beside_modCluster ..

theorem beside_dropFar (s : State) (h : Home) (a n : Nat) : Beside s (s.dropFar h a n) :=
  Beside.of_eq rfl rfl rfl rfl rfl rfl rfl rfl rfl rfl rfl rfl

theorem beside_putPort (s : State) (h : Home) (a : Nat) (bs : List Byte) : Beside s (s.putPort h a bs) := by
  unfold State.putPort
  split <;> exact Beside.of_eq rfl rfl rfl rfl rfl rfl rfl rfl rfl rfl rfl rfl

theorem beside_putNow (s : State) (h : Home) (a : Nat) (bs : List Byte) : Beside s (s.putNow h a bs) :=
  (beside_putPort ..).trans (beside_dropFar ..)

theorem beside_readHome {s : State} {v : Via} {w scope : Nat} {p : Part} {r : List Byte × State} (h : s.readHome v w scope p = .ok r) :
    Beside s r.2 := by
  unfold State.readHome at h
  split at h
  · simp only at h
    split_ifs at h
    · split at h
      · exact absurd h (by simp)
      · rename_i h'
        cases h
        exact beside_holdPrivates _ h'
    · split at h
      · exact absurd h (by simp)
      · rename_i h'
        cases h
        exact (beside_shedPrivate ..).trans (beside_holdLines _ h')
    · split at h
      · exact absurd h (by simp)
      · cases h
        exact ((beside_shedPrivate ..).trans (beside_publish ..)).trans (beside_refresh ..)
  · cases h; exact beside_draw s
  · split at h
    · exact absurd h (by simp)
    · cases h; exact Beside.refl s
  · cases h; exact Beside.refl s
  · cases h; exact Beside.refl s

theorem beside_writeHome {s t : State} {v : Via} {w scope : Nat} {p : Part} {bs : List Byte} (h : s.writeHome v w scope p bs = .ok t) :
    Beside s t := by
  unfold State.writeHome at h
  split at h
  · simp only at h
    split_ifs at h
    · split at h
      · exact absurd h (by simp)
      · rename_i h'
        exact (beside_holdPrivates _ h').trans (beside_writePrivate _ h)
    · split at h
      · exact absurd h (by simp)
      · rename_i h'
        exact ((beside_shedPrivate ..).trans (beside_holdLines _ h')).trans (beside_writeThrough _ h)
    · split at h
      · exact absurd h (by simp)
      · rename_i s' h'
        cases h
        exact (((beside_shedPrivate ..).trans (beside_writeDev h')).trans (beside_markExt ..)).trans (beside_putCachedBytes ..)
  · cases h; exact Beside.refl s
  · cases h; exact beside_modCluster ..
  · cases h; exact beside_modCluster ..
  · cases h; exact beside_putNow ..

theorem beside_readParts {c : Via} {w scope : Nat} : ∀ (ps : List Part) {s : State} {r : List Byte × State},
    s.readParts c w scope ps = .ok r → Beside s r.2
  | [], s, r, h => by cases h; exact Beside.refl s
  | p :: q, s, r, h => by
    unfold State.readParts at h
    split at h
    · exact absurd h (by simp)
    · rename_i bs s' h'
      split at h
      · exact absurd h (by simp)
      · rename_i bs' s'' h''
        cases h
        have b1 : Beside s s' := beside_readHome h'
        have b2 : Beside s' s'' := beside_readParts q h''
        exact b1.trans b2

theorem beside_writeParts {c : Via} {w scope : Nat} : ∀ (ps : List Part) {s t : State} {bs : List Byte},
    s.writeParts c w scope ps bs = .ok t → Beside s t
  | [], s, t, bs, h => by cases h; exact Beside.refl s
  | p :: q, s, t, bs, h => by
    unfold State.writeParts at h
    split at h
    · exact absurd h (by simp)
    · rename_i s' h'
      exact (beside_writeHome h').trans (beside_writeParts q h)

/-! ## Translation -/

theorem beside_leafOf {s : State} {ctx va : Nat} {r : TlbEntry × State} (h : s.leafOf ctx va = .ok r) : Beside s r.2 := by
  unfold State.leafOf at h
  split at h
  · cases h; exact Beside.refl s
  · split at h
    · exact absurd h (by simp)
    · split at h
      · exact absurd h (by simp)
      · cases h; exact Beside.of_eq rfl rfl rfl rfl rfl rfl rfl rfl rfl rfl rfl rfl

theorem beside_writeFrz (s : State) (e v : Nat) (on : Bool) : Beside s (s.writeFrz e v on) := by
  unfold State.writeFrz
  generalize v - (if leafFrz v = true then 128 else 0) + (if on = true then 128 else 0) = n
  exact .of_mem rfl rfl rfl rfl rfl rfl rfl rfl rfl rfl rfl fun hw => Memory.wf_writeBytes _ s.mem _ hw

theorem beside_markLeaves (s : State) (p : Nat) (f : Nat → Bool) (on : Bool) : Beside s (s.markLeaves p f on) :=
  beside_foldl _ (fun s _ => beside_foldl _ (fun s _ => beside_writeFrz s _ _ _) _ s) _ s

theorem beside_shadowFrame (s : State) (f : Nat) : Beside s (s.shadowFrame f) := by
  unfold State.shadowFrame
  simp only
  split
  · exact (beside_modPart ..).trans (beside_markLeaves ..)
  · exact Beside.refl s

theorem beside_shadowRange (s : State) (a n : Nat) : Beside s (s.shadowRange a n) := by
  unfold State.shadowRange
  split
  · exact Beside.refl s
  · exact beside_foldl _ (fun s f => beside_shadowFrame s f) _ s

theorem beside_setAD {s t : State} {e : TlbEntry} {w : Bool} (h : s.setAD e w = some t) : Beside s t := by
  unfold State.setAD at h
  simp only at h
  generalize wantAD w = k at h
  have b := beside_shadowRange s e.entry 16
  generalize s.shadowRange e.entry 16 = s1 at b h
  split_ifs at h
  · cases h; exact Beside.refl s
  · cases h
    refine b.trans (Beside.trans ?_ (beside_markExt ..))
    exact .of_mem rfl rfl rfl rfl rfl rfl rfl rfl rfl rfl rfl fun hw => Memory.wf_writeBytes _ s1.mem _ hw

theorem beside_setLeaves {w : Bool} : ∀ (ls : List TlbEntry) {s t : State}, s.setLeaves w ls = some t → Beside s t
  | [], s, t, h => by cases h; exact Beside.refl s
  | e :: r, s, t, h => by
    unfold State.setLeaves at h
    split at h
    · rename_i s' h'
      exact (beside_setAD h').trans (beside_setLeaves r h)
    · exact absurd h (by simp)

theorem beside_hostFrame (s : State) (w ioa : Nat) (write : Bool) : Beside s (s.hostFrame w ioa write).st := by
  unfold State.hostFrame
  simp only
  repeat' split
  all_goals first
    | exact Beside.refl s
    | exact beside_modPart ..
    | exact Beside.of_eq rfl rfl rfl rfl rfl rfl rfl rfl rfl rfl rfl rfl

theorem beside_placeHost (w fv : Nat) (a : Acc) (t : TlbEntry) (va ioa : Nat) :
    ∀ (cs : List (Nat × Nat)) (s : State), Beside s (s.placeHost w fv a t va ioa cs).st
  | [], s => Beside.refl s
  | (x, len) :: r, s => by
    have hh := beside_hostFrame s w x a.writes
    unfold State.placeHost
    simp only
    split
    · rename_i h; rw [h] at hh; exact hh
    · rename_i h; rw [h] at hh; exact hh
    · rename_i s' h
      rw [h] at hh
      replace hh : Beside s s' := hh
      have hr := beside_placeHost w fv a t va ioa r s'
      split_ifs
      · exact hh
      · split
        · rename_i h2; rw [h2] at hr; exact hh.trans hr
        · exact hh.trans hr

theorem beside_place (s : State) (w fv : Nat) (a : Acc) (t : TlbEntry) (va len : Nat) : Beside s (s.place w fv a t va len).st := by
  unfold State.place
  simp only
  split_ifs
  · exact Beside.refl s
  · exact beside_placeHost ..
  · exact Beside.refl s
  · exact Beside.refl s
  · split <;> exact Beside.refl s

theorem beside_dropTlb (s : State) (p : TlbEntry → Bool) : Beside s { s with tlb := s.tlb.filter p } :=
  Beside.of_eq rfl rfl rfl rfl rfl rfl rfl rfl rfl rfl rfl rfl

theorem beside_translatePart (s : State) (ctx w : Nat) (a : Acc) (va : Nat) : Beside s (s.translatePart ctx w a va).st := by
  unfold State.translatePart
  split
  · exact Beside.refl s
  · split
    · exact Beside.refl s
    · rename_i t s1 h1
      have b1 := beside_leafOf h1
      split <;> exact b1

theorem beside_checkPage (s : State) (ctx w fv : Nat) (a : Acc) (va len : Nat) (al wh : Bool) (at_ : Nat) :
    Beside s (s.checkPage ctx w fv a va len al wh at_).st := by
  have b1 := beside_translatePart s ctx w a va
  unfold State.checkPage
  split
  · rename_i h; rw [h] at b1; exact b1
  · rename_i h; rw [h] at b1; exact b1
  · rename_i t s1 h
    rw [h] at b1
    replace b1 : Beside s s1 := b1
    have b2 := beside_place s1 w fv a t va len
    split_ifs
    · exact b1
    · exact b1
    · split
      all_goals (rename_i h2; rw [h2] at b2; exact b1.trans b2)

theorem beside_checkOnce (s : State) (ctx w fv : Nat) (a : Acc) (va n al : Nat) : Beside s (s.checkOnce ctx w fv a va n al).st := by
  have b1 := beside_checkPage s ctx w fv a va (firstLen va n) (va % al == 0) (va % n == 0) va
  unfold State.checkOnce
  simp only
  split
  · rename_i h; rw [h] at b1; exact b1
  · rename_i h; rw [h] at b1; exact b1
  · rename_i p1 s1 h
    rw [h] at b1
    replace b1 : Beside s s1 := b1
    split_ifs
    · exact b1
    · have b2 := beside_checkPage s1 ctx w fv a ((va + firstLen va n) % 2 ^ 64) (n - firstLen va n) true false va
      split
      all_goals (rename_i h2; rw [h2] at b2; exact b1.trans b2)

theorem beside_checkGlobal (s : State) (ctx w fv : Nat) (a : Acc) (va n al : Nat) : Beside s (s.checkGlobal ctx w fv a va n al).st := by
  have b1 := beside_checkOnce s ctx w fv a va n al
  unfold State.checkGlobal
  split
  · rename_i h; rw [h] at b1; exact b1
  · rename_i h; rw [h] at b1; exact b1
  · rename_i r s1 h
    rw [h] at b1
    replace b1 : Beside s s1 := b1
    split_ifs
    · exact b1
    · split
      · rename_i s2 h2
        exact b1.trans (beside_setLeaves _ h2)
      · have b2 := beside_checkOnce { s1 with tlb := s1.tlb.filter fun x => !r.1.contains x } ctx w fv a va n al
        have b3 := b1.trans (beside_dropTlb s1 fun x => !r.1.contains x)
        split
        · rename_i h2; rw [h2] at b2; exact b3.trans b2
        · rename_i h2; rw [h2] at b2; exact b3.trans b2
        · rename_i r' s2 h2
          rw [h2] at b2
          replace b2 : Beside s s2 := b3.trans b2
          show Beside s ((s2.setLeaves a.writes r'.1).getD s2)
          cases h4 : s2.setLeaves a.writes r'.1 with
          | none => exact b2
          | some s4 => exact b2.trans (beside_setLeaves _ h4)

theorem beside_checkScratch (s : State) (c w va n al : Nat) : Beside s (s.checkScratch c w va n al).st := by
  unfold State.checkScratch
  repeat' split
  all_goals exact Beside.refl s

theorem beside_checkLocal (s : State) (c th va n al : Nat) : Beside s (s.checkLocal c th va n al).st := by
  unfold State.checkLocal
  repeat' split
  all_goals exact Beside.refl s

theorem beside_readGlobal {s : State} {ctx w va n : Nat} {r : List Byte × State} (h : s.readGlobal ctx w va n = .ok r) :
    Beside s r.2 := by
  have b := beside_checkGlobal s ctx w 0x103FF .engineRead va n 1
  unfold State.readGlobal at h
  split at h
  · exact absurd h (by simp)
  · exact absurd h (by simp)
  · rename_i ps s' h1
    rw [h1] at b
    split at h
    · exact absurd h (by simp)
    · rename_i r' h2
      cases h
      exact Beside.trans b (beside_readParts ps h2)

theorem beside_writeGlobal {s t : State} {ctx w va : Nat} {bs : List Byte} (h : s.writeGlobal ctx w va bs = .ok t) : Beside s t := by
  have b := beside_checkGlobal s ctx w 0x103FF .engineWrite va bs.length 1
  unfold State.writeGlobal at h
  split at h
  · exact absurd h (by simp)
  · exact absurd h (by simp)
  · rename_i ps s1 h1
    rw [h1] at b
    have b2 : Beside s1 (ps.foldl (fun s p => if p.home == .dev then s.shadowRange p.addr p.len else s) s1) := by
      refine beside_foldl _ (fun s p => ?_) ps s1
      split
      · exact beside_shadowRange ..
      · exact Beside.refl s
    simp only at h
    split at h
    · exact absurd h (by simp)
    · rename_i r' h2
      cases h
      exact (Beside.trans b b2).trans (beside_writeParts ps h2)

/-! ## Reports -/

theorem beside_postEvent (s : State) (c : Nat) (e : Event) : Beside s (s.postEvent c e) := by
  unfold State.postEvent State.postFor
  exact beside_modCluster ..
theorem beside_dropRecord (s : State) (w : Nat) : Beside s (s.dropRecord w) := beside_modWorld ..

theorem beside_writeRecord (s : State) (r : Record) : Beside s (s.writeRecord r) := by
  unfold State.writeRecord
  simp only
  split
  · exact beside_dropRecord ..
  · split
    · exact beside_dropRecord ..
    · rename_i s1 h1
      have b := ((beside_writeGlobal h1).trans (beside_modWorld s1 r.world fun y => { y with fridx := (y.fridx + 1) % 2 ^ 32, loss := false })).trans
        (beside_raise _ r.world (bitsOf (s.world r.world).frctl.toNat 20 10))
      split
      · exact b.trans (beside_postEvent ..)
      · exact b

theorem beside_writeRecordEcc (s : State) (r : Record) (l : Nat) : Beside s (s.writeRecordEcc r l) := by
  unfold State.writeRecordEcc
  simp only
  split
  · exact (beside_writeRecord ..).trans (beside_countUncorr ..)
  · exact ((beside_writeRecord ..).trans (beside_countUncorr ..)).trans (beside_writeRecord ..)

theorem beside_modTraceRegs (s : State) (c o : Nat) (f : TraceRegs → TraceRegs) : Beside s (s.modTraceRegs c o f) := by
  unfold State.modTraceRegs
  split
  · exact beside_modCluster ..
  · exact beside_modWorld ..

theorem beside_putTrace {s t : State} {c o ctx : Nat} {bs : List Byte} (h : s.putTrace c o ctx bs = some t) : Beside s t := by
  unfold State.putTrace at h
  simp only at h
  split at h
  · exact absurd h (by simp)
  · rw [Option.map_eq_some_iff] at h
    obtain ⟨s', h1, h2⟩ := h
    subst h2
    refine Beside.trans ?_ (beside_modTraceRegs ..)
    split at h1
    · split at h1
      · rename_i h3
        cases h1
        exact beside_writeDev h3
      · exact absurd h1 (by simp)
    · split at h1
      · rename_i h3
        cases h1
        exact beside_writeGlobal h3
      · exact absurd h1 (by simp)

theorem beside_trace (s : State) (c ctx : Nat) (r : TraceRec) : Beside s (s.trace c ctx r) := by
  have put (s : State) (o : Nat) (bs : List Byte) (f : Cluster → Cluster) :
      Beside s (match s.putTrace c o ctx bs with | some s' => s' | none => s.modCluster c f) := by
    split
    · rename_i h; exact beside_putTrace h
    · exact beside_modCluster ..
  unfold State.trace
  simp only
  split
  · exact Beside.refl s
  · split
    · exact put ..
    · split
      · exact beside_modCluster ..
      · rename_i h
        exact ((beside_putTrace h).trans (beside_modCluster ..)).trans (put ..)

/-- A trace unit that nobody owns writes nothing. -/
theorem trace_free (s : State) (c ctx : Nat) (r : TraceRec) (h : (s.cluster c).trace.owner = 0) : s.trace c ctx r = s := by
  simp [State.trace, h]

/-! ## The order checker -/

theorem beside_ordering (s : State) (g : Gang) (f : Partition → Partition) : Beside s (s.ordering g f) := by
  unfold State.ordering
  simp only
  split
  · exact beside_modPart ..
  · exact Beside.refl s

theorem beside_ordOutside (s : State) : Beside s s.ordOutside := beside_foldl _ (fun s g => beside_ordering s g _) _ s

theorem beside_ordMeet (s : State) (gs : List Gang) : Beside s (s.ordMeet gs) :=
  (beside_foldl _ (fun s g => beside_ordering s g _) _ s).trans (beside_foldl _ (fun s g => beside_ordering s g _) _ _)

theorem beside_ordFence (s : State) (g : Gang) (o sc : Nat) : Beside s (s.ordFence g o sc) := beside_ordering ..

theorem beside_ordWrite (s : State) (w a : Nat) (bs : List Byte) : Beside s (s.ordWrite w a bs) := by
  unfold State.ordWrite
  split
  · rename_i h; exact beside_writeDev h
  · exact Beside.refl s

theorem beside_ordReport (s : State) (w va : Nat) (a b : OrdAccess) : Beside s (s.ordReport w va a b) := by
  unfold State.ordReport
  simp only
  split
  · exact beside_ordWrite ..
  · exact (beside_ordWrite ..).trans (beside_ordWrite ..)

theorem beside_ordCheck (s : State) (g : Gang) (w : Nat) (a : OrdAccess) (r : Bool) (p : Nat × Nat) : Beside s (s.ordCheck g w a r p) := by
  unfold State.ordCheck
  simp only
  refine Beside.trans ?_ (beside_ordering ..)
  split
  · exact beside_foldl _ (fun s b => beside_ordReport s _ _ _ _) _ s
  · exact Beside.refl s

theorem beside_ordPerform (s : State) (g : Gang) (a : OrdAccess) (r q l : Bool) (ps : List (Nat × Nat)) (tr : Bool) :
    Beside s (s.ordPerform g a r q l ps tr) := by
  unfold State.ordPerform
  simp only
  have step (s t : State) (h : Beside s t) : Beside s (if a.write then t.ordering g fun x => x.ordRelease g l a.scope (ps.map (·.1)) else t) := by
    split
    · exact h.trans (beside_ordering ..)
    · exact h
  apply step
  have b1 : Beside s (if r = true then s.ordering g fun x => x.ordAcquire g q a.scope (ps.map (·.1)) else s) := by
    split
    · exact beside_ordering ..
    · exact Beside.refl s
  generalize (if r = true then s.ordering g fun x => x.ordAcquire g q a.scope (ps.map (·.1)) else s) = s1 at b1 ⊢
  split
  · exact b1.trans (beside_foldl _ (fun s p => beside_ordCheck s ..) _ s1)
  · exact b1

end Sys2Proof.Machine
end

