-- ==== Sys2Proof/Laws/Issue.lean ====
section
/-! SUPPORT. What the issue of an instruction comes to when nothing stops it. -/

namespace Sys2Proof.Machine

theorem without_nil (xs : List (Nat × Fibre)) : without xs [] = xs := by simp [without]

theorem checkConsumers_clean (s : State) (b : Batch) (i : Instr) : ∀ xs : List (Nat × Fibre),
    (∀ p ∈ xs, b.sk.consumes i p.2 = []) → s.checkConsumers b i xs = ([], xs, s)
  | [], _ => rfl
  | (t, x) :: r, h => by
    have hx := h (t, x) (List.mem_cons_self ..)
    have ih := checkConsumers_clean s b i r fun p hp => h p (List.mem_cons_of_mem _ hp)
    simp only [State.checkConsumers]
    simp only at hx
    rw [hx]
    simp [ih]

theorem poison_clean (n : Need) (b : Batch) :
    ∀ xs : List (Nat × Fibre), (∀ p ∈ xs, poisonedSource n (b.low p.2) p.2 = none) → xs.filterMap (poisonFault n b) = []
  | [], _ => rfl
  | p :: r, h => by
    have hx := h p (List.mem_cons_self ..)
    simp [List.filterMap, poisonFault, hx, poison_clean n b r fun q hq => h q (List.mem_cons_of_mem _ hq)]

/-- An instruction that nothing stops does what its body says. -/
theorem Ready.issueChecked {s : State} {i : Instr} {b : Batch} {ready : List Nat} (h : Ready s i b ready)
    (pre : Batch → State → List (Nat × Out)) (body : Batch → State → Result) (hp : pre (b.taking i) s.atIssue = []) :
    s.issueChecked i pre body =
      match body (b.taking i) s.atIssue with
      | .done outs s2 => .next (s2.finish b ready outs)
      | .held w s2 => if w.issued && !b.waited then .next (s2.waitIssued b ready w []) else .next (s2.holdBatch b w)
      | .again s2 => .next s2.clearTried := by
  have h1 : s.atIssue.stage1All b (needOf i) = none := h.legal
  have h2 := checkConsumers_clean s.atIssue b i (b.passing i) h.settled
  have h3 := poison_clean (needOf i) b (b.passing i) h.sound
  unfold State.issueChecked
  rw [h.batch]
  simp only [State.atIssue, Batch.passing, Batch.taking] at *
  simp only [h1, h2, hp, without_nil, h3, List.append_nil, List.nil_append, List.isEmpty_nil, if_true] <;>
    (generalize body _ _ = r; cases r <;> rfl)

/-- The same without checks of its own. -/
theorem Ready.issueWith {s : State} {i : Instr} {b : Batch} {ready : List Nat} (h : Ready s i b ready) (body : Batch → State → Result) :
    s.issueWith i body =
      match body (b.taking i) s.atIssue with
      | .done outs s2 => .next (s2.finish b ready outs)
      | .held w s2 => if w.issued && !b.waited then .next (s2.waitIssued b ready w []) else .next (s2.holdBatch b w)
      | .again s2 => .next s2.clearTried := h.issueChecked _ body rfl

/-- An instruction whose effect in each fibre is by itself. -/
theorem Ready.perFibre {s : State} {i : Instr} {b : Batch} {ready : List Nat} (h : Ready s i b ready) (f : Batch → Nat → Fibre → Out) :
    s.perFibre i f = .next (s.atIssue.finish b ready (b.eachOut i (f (b.taking i)))) := by
  rw [State.perFibre, h.issueWith]
  rfl

/-- The state is the one before but for its register, when the effect is nothing. -/
@[simp] theorem Batch.taking_all (b : Batch) (i : Instr) : (b.taking i).all = b.all := rfl
@[simp] theorem Batch.taking_run (b : Batch) (i : Instr) : (b.taking i).run = b.passing i := rfl
@[simp] theorem Batch.taking_g (b : Batch) (i : Instr) : (b.taking i).g = b.g := rfl
@[simp] theorem Batch.taking_sk (b : Batch) (i : Instr) : (b.taking i).sk = b.sk := rfl
@[simp] theorem Batch.taking_k (b : Batch) (i : Instr) : (b.taking i).k = b.k := rfl

end Sys2Proof.Machine
end

