-- ==== Sys2Proof/Laws/Ask.lean ====
section
/-! SUPPORT. What a ready batch is in its state, and what the checks of its accesses leave as it was. -/

namespace Sys2Proof.Machine

/-- The gang and the skein of the batch at issue stand in the state. -/
theorem batch_gang {s : State} {b : Batch} {r : List Nat} (h : s.batch = some (b, r)) :
    s.gang b.g.key = some b.g ∧ b.g.skeins[b.k]? = some b.sk := by
  unfold State.batch at h
  split at h
  · cases h
  split at h
  · cases h
  rename_i g hg
  split at h
  · cases h
  rename_i sk hsk
  simp only at h
  split at h
  · cases h
  injection h with h
  injection h with h1 h2
  subst h1
  have hk := findGang_key _ _ _ hg
  simp only
  exact ⟨by rw [hk]; exact hg, hsk⟩

/-- So does the skein of a batch for which an instruction is ready. -/
theorem ready_skein {s i b r} (h : Ready s i b r) : s.atIssue.skein b.g.key b.k = some b.sk := by
  obtain ⟨h1, h2⟩ := batch_gang h.batch
  have : s.atIssue.gang b.g.key = some b.g := h1
  simp [State.skein, this, h2]

/-- The checks of one access change no gang, context, core or tag, and keep the form of memory. -/
theorem beside_checkAsk (s : State) (b : Batch) (x : Fibre) (q : MemAsk) : Beside s (s.checkAsk b x q).st := by
  obtain ⟨sp, acc, va, n, al, aop, cas, hint⟩ := q
  unfold State.checkAsk
  cases sp <;> dsimp only <;> split
  all_goals first
    | exact beside_checkGlobal ..
    | exact beside_checkScratch ..
    | exact beside_checkLocal ..
    | (rename_i ps s' h
       have hb : Beside s (Checked.ok ps s').st := by
         rw [← h]
         first | exact beside_checkGlobal .. | exact beside_checkScratch .. | exact beside_checkLocal ..
       split_ifs
       · exact .refl s
       · exact .refl s
       · exact beside_trace ..
       · exact hb
       · exact hb)

/-- Nor do those of every fibre's access. -/
theorem beside_askAll (b : Batch) (ask : Nat → Fibre → MemAsk) : ∀ (l : List (Nat × Fibre)) (s : State) {fs oks s1},
    s.askAll b ask l = .done fs oks s1 → Beside s s1
  | [], s, _, _, _, h => by
    simp only [State.askAll] at h
    injection h with _ _ h
    subst h
    exact .refl _
  | (t, x) :: r, s, fs, oks, s1, h => by
    have hb := beside_checkAsk s b x (ask t x)
    simp only [State.askAll] at h
    split at h
    · cases h
    · rename_i c a s' hc
      rw [hc] at hb
      split at h
      · cases h
      · rename_i fs' ops' s'' hs
        injection h with _ _ h
        subst h
        exact hb.trans (beside_askAll b ask r s' hs)
    · rename_i ps s' hc
      rw [hc] at hb
      split at h
      · cases h
      · rename_i fs' ops' s'' hs
        injection h with _ _ h
        subst h
        exact hb.trans (beside_askAll b ask r s' hs)

/-- Where every fibre's checks pass, each of them is listed with its parts. -/
theorem askAll_passing (b : Batch) (ask : Nat → Fibre → MemAsk) : ∀ (l : List (Nat × Fibre)) (s : State) {oks s1},
    s.askAll b ask l = .done [] oks s1 → oks.map (fun o => (o.1, o.2.1)) = l
  | [], s, _, _, h => by
    simp only [State.askAll] at h
    injection h with _ h _
    subst h
    rfl
  | (t, x) :: r, s, oks, s1, h => by
    simp only [State.askAll] at h
    split at h
    · cases h
    · split at h
      · cases h
      · injection h with h _ _
        cases h
    · split at h
      · cases h
      · rename_i hs
        injection h with h1 h2 _
        subst h1 h2
        simp [askAll_passing b ask r _ hs]

end Sys2Proof.Machine
end

