-- ==== Sys2Proof/Laws/Code.lean ====
section
/-! SUPPORT. Fields of a word put together and taken apart again, and what the decoder reads from each form's word. -/

namespace Sys2Proof

theorem packFields_lt : ∀ l : List (Nat × Nat), packFields l < 2 ^ (l.map (·.1)).sum
  | [] => by simp [packFields]
  | (w, v) :: r => by
    have h := packFields_lt r
    have hw : v % 2 ^ w < 2 ^ w := Nat.mod_lt _ (Nat.two_pow_pos w)
    simp only [packFields, List.map_cons, List.sum_cons, Nat.pow_add]
    calc v % 2 ^ w + 2 ^ w * packFields r < 2 ^ w * (packFields r + 1) := by rw [Nat.mul_add]; omega
      _ ≤ 2 ^ w * 2 ^ (r.map (·.1)).sum := Nat.mul_le_mul_left _ h

/-- Fields taken apart are the values that were put together, each cut to its width. -/
theorem unpackFields_packFields : ∀ l : List (Nat × Nat),
    unpackFields (l.map (·.1)) (packFields l) = l.map fun p => p.2 % 2 ^ p.1
  | [] => rfl
  | (w, v) :: r => by
    have hw : 0 < 2 ^ w := Nat.two_pow_pos w
    simp only [packFields, List.map_cons, unpackFields]
    rw [Nat.add_mul_mod_self_left, Nat.mod_mod, Nat.add_mul_div_left _ _ hw, Nat.div_eq_of_lt (Nat.mod_lt _ hw), Nat.zero_add,
      unpackFields_packFields r]

theorem ofNat_toNat_mod {n : Nat} (x : BitVec n) : BitVec.ofNat n (x.toNat % 2 ^ n) = x := by simp [Nat.mod_eq_of_lt x.isLt]

theorem bitField_boolNat (b : Bool) : bitField (boolNat b % 2) = b := by cases b <;> rfl

theorem GuardMode.ofCode_code (m : GuardMode) : GuardMode.ofCode (m.code % 8) = some m := by cases m <;> rfl
theorem IntTy.ofCode_code (t : IntTy) : IntTy.ofCode (t.code % 4) = some t := by cases t <;> rfl
theorem BitTy.ofCode_code (t : BitTy) : BitTy.ofCode (t.code % 4) = some t := by cases t <;> rfl
theorem FTy.ofCode_code (t : FTy) : FTy.ofCode (t.code % 4) = some t := by cases t <;> rfl
theorem IvTy.ofCode_code (t : IvTy) : IvTy.ofCode (t.code % 4) = some t := by cases t <;> rfl
theorem HTy.ofCode_code (t : HTy) : HTy.ofCode (t.code % 4) = some t := by cases t <;> rfl
theorem Space.ofCode_code (t : Space) : Space.ofCode (t.code % 4) = some t := by cases t <;> rfl
theorem Order.ofCode_code (t : Order) : Order.ofCode (t.code % 4) = some t := by cases t <;> rfl
theorem Scope.ofCode_code (t : Scope) : Scope.ofCode (t.code % 8) = some t := by cases t <;> rfl

/-- The header that the decoder builds from a word's fields. -/
theorem mkHdr_of (h : Hdr) : mkHdr (boolNat h.b % 2) (h.gm % 8) (h.gp % 16) = some h := by
  obtain ⟨b, ⟨m, p⟩⟩ := h
  have hp : BitVec.ofNat 4 (p.toNat % 16) = p := ofNat_toNat_mod p
  cases b <;> cases m <;> simp [mkHdr, Hdr.gm, Hdr.gp, GuardMode.code, GuardMode.ofCode, bitField, boolNat, hp]

/-- The bits 62:60 of a number of fields, the last four of which are the form and `B` (and an operation below). -/
theorem bitsOf_packFields (l : List (Nat × Nat)) (w v b : Nat) (hl : (l.map (·.1)).sum + w = 63) (hw : w = 3) (hv : v < 8) :
    bitsOf (packFields (l ++ [(w, v), (1, b)])) 62 60 = v := by
  subst hw
  have key : ∀ l : List (Nat × Nat), ∀ r : List (Nat × Nat), packFields (l ++ r) / 2 ^ (l.map (·.1)).sum = packFields r := by
    intro l
    induction l with
    | nil => intro r; simp
    | cons p l ih =>
      intro r
      obtain ⟨w, v⟩ := p
      have hw : 0 < 2 ^ w := Nat.two_pow_pos w
      simp only [List.cons_append, packFields, List.map_cons, List.sum_cons, Nat.pow_add]
      rw [← Nat.div_div_eq_div_mul, Nat.add_mul_div_left _ _ hw, Nat.div_eq_of_lt (Nat.mod_lt _ hw), Nat.zero_add, ih]
  have h60 : (l.map (·.1)).sum = 60 := by omega
  have h := key l [(3, v), (1, b)]
  rw [h60] at h
  simp only [bitsOf, h, packFields]
  omega

/-- A number of fields that are 64 bits in all is the word made of it. -/
theorem toNat_ofNat_packFields (l : List (Nat × Nat)) (h : (l.map (·.1)).sum = 64) :
    (BitVec.ofNat 64 (packFields l)).toNat = packFields l := by
  have := packFields_lt l
  rw [h] at this
  rw [BitVec.toNat_ofNat, Nat.mod_eq_of_lt this]

/-- A field of a number of fields. -/
theorem bitsOf_mid (full l : List (Nat × Nat)) (w v : Nat) (r : List (Nat × Nat)) (he : full = l ++ [(w, v)] ++ r)
    (hl : (l.map (·.1)).sum = 52) : bitsOf (packFields full) (52 + w - 1) 52 = v % 2 ^ w := by
  subst he
  have key : ∀ l : List (Nat × Nat), ∀ r : List (Nat × Nat), packFields (l ++ r) / 2 ^ (l.map (·.1)).sum = packFields r := by
    intro l
    induction l with
    | nil => intro r; simp
    | cons p l ih =>
      intro r
      obtain ⟨w, v⟩ := p
      have hw : 0 < 2 ^ w := Nat.two_pow_pos w
      simp only [List.cons_append, packFields, List.map_cons, List.sum_cons, Nat.pow_add]
      rw [← Nat.div_div_eq_div_mul, Nat.add_mul_div_left _ _ hw, Nat.div_eq_of_lt (Nat.mod_lt _ hw), Nat.zero_add, ih]
  have h := key l ([(w, v)] ++ r)
  rw [hl, ← List.append_assoc] at h
  have e : 52 + w - 1 + 1 - 52 = w ∨ w = 0 := by omega
  rcases e with e | e
  · rw [bitsOf, h, e]; simp [packFields]
  · subst e; simp [bitsOf, Nat.mod_one]

/-- A word of fields: its value, and its form. -/
theorem word_form (full l : List (Nat × Nat)) (v b : Nat) (he : full = l ++ [(3, v), (1, b)]) (h : (l.map (·.1)).sum = 60)
    (hv : v < 8) :
    (BitVec.ofNat 64 (packFields full)).toNat = packFields full ∧ bitsOf (packFields full) 62 60 = v := by
  subst he
  exact ⟨toNat_ofNat_packFields _ (by simp [h]), bitsOf_packFields l 3 v b (by omega) rfl hv⟩

/-- The decoder on a V3 word. -/
theorem decode_v3 (op ty : Nat) (f : V3) (ho : op < 64) (ht : ty < 4) : decode (V3.word op ty f) = finish (buildV3 op ty f) 0 := by
  have hf := word_form [(1, 0), (1, boolNat f.ub), (1, boolNat f.i), (3, f.scale.toNat),
    (1, boolNat f.clamp), (1, boolNat f.absc), (1, boolNat f.negc), (1, boolNat f.absb),
    (1, boolNat f.negb), (1, boolNat f.absa), (1, boolNat f.nega), (8, f.sc.toNat), (8, f.sb.toNat),
    (8, f.sa.toNat), (8, f.dst.toNat), (4, f.h.gp), (3, f.h.gm), (2, ty), (6, op), (3, 0), (1, boolNat f.h.b)] [(1, 0), (1, boolNat f.ub), (1, boolNat f.i), (3, f.scale.toNat),
    (1, boolNat f.clamp), (1, boolNat f.absc), (1, boolNat f.negc), (1, boolNat f.absb),
    (1, boolNat f.negb), (1, boolNat f.absa), (1, boolNat f.nega), (8, f.sc.toNat), (8, f.sb.toNat),
    (8, f.sa.toNat), (8, f.dst.toNat), (4, f.h.gp), (3, f.h.gm), (2, ty), (6, op)] 0 (boolNat f.h.b) rfl (by simp) (by decide)
  have hu : unpackFields v3Widths (packFields [(1, 0), (1, boolNat f.ub), (1, boolNat f.i), (3, f.scale.toNat),
    (1, boolNat f.clamp), (1, boolNat f.absc), (1, boolNat f.negc), (1, boolNat f.absb),
    (1, boolNat f.negb), (1, boolNat f.absa), (1, boolNat f.nega), (8, f.sc.toNat), (8, f.sb.toNat),
    (8, f.sa.toNat), (8, f.dst.toNat), (4, f.h.gp), (3, f.h.gm), (2, ty), (6, op), (3, 0), (1, boolNat f.h.b)]) = [(1, 0), (1, boolNat f.ub), (1, boolNat f.i), (3, f.scale.toNat),
    (1, boolNat f.clamp), (1, boolNat f.absc), (1, boolNat f.negc), (1, boolNat f.absb),
    (1, boolNat f.negb), (1, boolNat f.absa), (1, boolNat f.nega), (8, f.sc.toNat), (8, f.sb.toNat),
    (8, f.sa.toNat), (8, f.dst.toNat), (4, f.h.gp), (3, f.h.gm), (2, ty), (6, op), (3, 0), (1, boolNat f.h.b)].map (fun p => p.2 % 2 ^ p.1) :=
    unpackFields_packFields [(1, 0), (1, boolNat f.ub), (1, boolNat f.i), (3, f.scale.toNat),
    (1, boolNat f.clamp), (1, boolNat f.absc), (1, boolNat f.negc), (1, boolNat f.absb),
    (1, boolNat f.negb), (1, boolNat f.absa), (1, boolNat f.nega), (8, f.sc.toNat), (8, f.sb.toNat),
    (8, f.sa.toNat), (8, f.dst.toNat), (4, f.h.gp), (3, f.h.gm), (2, ty), (6, op), (3, 0), (1, boolNat f.h.b)]
  simp only [List.map_cons, List.map_nil] at hu
  have e0 : mkHdr (boolNat f.h.b % 2 ^ 1) (f.h.gm % 2 ^ 3) (f.h.gp % 2 ^ 4) = some f.h := mkHdr_of f.h
  have e1 : op % 2 ^ 6 = op := Nat.mod_eq_of_lt ho
  have e2 : ty % 2 ^ 2 = ty := Nat.mod_eq_of_lt ht
  have bb (b : Bool) : bitField (boolNat b % 2 ^ 1) = b := bitField_boolNat b
  unfold V3.word decode
  simp only [hf.1, hf.2]
  unfold decodeV3
  rw [hu]
  simp only [e0, e1, e2, bb, ofNat_toNat_mod]
  rfl

/-- The decoder on a VI word. -/
theorem decode_vi (op ty : Nat) (f : VI) (ho : op < 64) (ht : ty < 4) : decode (VI.word op ty f) = finish (buildVI op ty f) 0 := by
  have hf := word_form [(1, 0), (1, boolNat f.i), (1, boolNat f.clamp), (1, boolNat f.absa),
    (1, boolNat f.nega), (24, f.imm.toNat), (8, f.sa.toNat), (8, f.dst.toNat), (4, f.h.gp),
    (3, f.h.gm), (2, ty), (6, op), (3, 1), (1, boolNat f.h.b)] [(1, 0), (1, boolNat f.i), (1, boolNat f.clamp), (1, boolNat f.absa),
    (1, boolNat f.nega), (24, f.imm.toNat), (8, f.sa.toNat), (8, f.dst.toNat), (4, f.h.gp),
    (3, f.h.gm), (2, ty), (6, op)] 1 (boolNat f.h.b) rfl (by simp) (by decide)
  have hu : unpackFields viWidths (packFields [(1, 0), (1, boolNat f.i), (1, boolNat f.clamp), (1, boolNat f.absa),
    (1, boolNat f.nega), (24, f.imm.toNat), (8, f.sa.toNat), (8, f.dst.toNat), (4, f.h.gp),
    (3, f.h.gm), (2, ty), (6, op), (3, 1), (1, boolNat f.h.b)]) = [(1, 0), (1, boolNat f.i), (1, boolNat f.clamp), (1, boolNat f.absa),
    (1, boolNat f.nega), (24, f.imm.toNat), (8, f.sa.toNat), (8, f.dst.toNat), (4, f.h.gp),
    (3, f.h.gm), (2, ty), (6, op), (3, 1), (1, boolNat f.h.b)].map (fun p => p.2 % 2 ^ p.1) :=
    unpackFields_packFields [(1, 0), (1, boolNat f.i), (1, boolNat f.clamp), (1, boolNat f.absa),
    (1, boolNat f.nega), (24, f.imm.toNat), (8, f.sa.toNat), (8, f.dst.toNat), (4, f.h.gp),
    (3, f.h.gm), (2, ty), (6, op), (3, 1), (1, boolNat f.h.b)]
  simp only [List.map_cons, List.map_nil] at hu
  have e0 : mkHdr (boolNat f.h.b % 2 ^ 1) (f.h.gm % 2 ^ 3) (f.h.gp % 2 ^ 4) = some f.h := mkHdr_of f.h
  have e1 : op % 2 ^ 6 = op := Nat.mod_eq_of_lt ho
  have e2 : ty % 2 ^ 2 = ty := Nat.mod_eq_of_lt ht
  have bb (b : Bool) : bitField (boolNat b % 2 ^ 1) = b := bitField_boolNat b
  unfold VI.word decode
  simp only [hf.1, hf.2]
  unfold decodeVI
  rw [hu]
  simp only [e0, e1, e2, bb, ofNat_toNat_mod]
  rfl

/-- The decoder on a MF word. -/
theorem decode_m (op : Nat) (f : MF) (ho : op < 8) : decode (MF.word op f) = finish (buildM op f) 0 := by
  have hf := word_form [(1, 0), (1, boolNat f.ua), (2, f.order.code), (3, f.scope.code),
    (2, f.hint.toNat), (12, f.off.toNat), (8, f.index.toNat), (8, f.base.toNat), (8, f.data.toNat),
    (4, f.h.gp), (3, f.h.gm), (3, f.size.toNat), (2, f.space.code), (3, op), (3, 2), (1, boolNat f.h.b)] [(1, 0), (1, boolNat f.ua), (2, f.order.code), (3, f.scope.code),
    (2, f.hint.toNat), (12, f.off.toNat), (8, f.index.toNat), (8, f.base.toNat), (8, f.data.toNat),
    (4, f.h.gp), (3, f.h.gm), (3, f.size.toNat), (2, f.space.code), (3, op)] 2 (boolNat f.h.b) rfl (by simp) (by decide)
  have hu : unpackFields mWidths (packFields [(1, 0), (1, boolNat f.ua), (2, f.order.code), (3, f.scope.code),
    (2, f.hint.toNat), (12, f.off.toNat), (8, f.index.toNat), (8, f.base.toNat), (8, f.data.toNat),
    (4, f.h.gp), (3, f.h.gm), (3, f.size.toNat), (2, f.space.code), (3, op), (3, 2), (1, boolNat f.h.b)]) = [(1, 0), (1, boolNat f.ua), (2, f.order.code), (3, f.scope.code),
    (2, f.hint.toNat), (12, f.off.toNat), (8, f.index.toNat), (8, f.base.toNat), (8, f.data.toNat),
    (4, f.h.gp), (3, f.h.gm), (3, f.size.toNat), (2, f.space.code), (3, op), (3, 2), (1, boolNat f.h.b)].map (fun p => p.2 % 2 ^ p.1) :=
    unpackFields_packFields [(1, 0), (1, boolNat f.ua), (2, f.order.code), (3, f.scope.code),
    (2, f.hint.toNat), (12, f.off.toNat), (8, f.index.toNat), (8, f.base.toNat), (8, f.data.toNat),
    (4, f.h.gp), (3, f.h.gm), (3, f.size.toNat), (2, f.space.code), (3, op), (3, 2), (1, boolNat f.h.b)]
  simp only [List.map_cons, List.map_nil] at hu
  have e0 : mkHdr (boolNat f.h.b % 2 ^ 1) (f.h.gm % 2 ^ 3) (f.h.gp % 2 ^ 4) = some f.h := mkHdr_of f.h
  have e1 : op % 2 ^ 3 = op := Nat.mod_eq_of_lt ho
  have bb (b : Bool) : bitField (boolNat b % 2 ^ 1) = b := bitField_boolNat b
  have e3 : Space.ofCode (f.space.code % 2 ^ 2) = some f.space := Space.ofCode_code f.space
  have e4 : Scope.ofCode (f.scope.code % 2 ^ 3) = some f.scope := Scope.ofCode_code f.scope
  have e5 : Order.ofCode (f.order.code % 2 ^ 2) = some f.order := Order.ofCode_code f.order
  unfold MF.word decode
  simp only [hf.1, hf.2]
  unfold decodeM
  rw [hu]
  simp only [e0, e1, bb, e3, e4, e5, ofNat_toNat_mod]
  rfl

/-- The decoder on a CF word. -/
theorem decode_c (op : Nat) (f : CF) (ho : op < 256) : decode (CF.word op f) = finish (buildC op f) 0 := by
  have hf := word_form [(3, f.cfl.toNat), (26, f.off.toNat), (8, f.cb.toNat), (8, f.ca.toNat),
    (4, f.h.gp), (3, f.h.gm), (8, op), (3, 3), (1, boolNat f.h.b)] [(3, f.cfl.toNat), (26, f.off.toNat), (8, f.cb.toNat), (8, f.ca.toNat),
    (4, f.h.gp), (3, f.h.gm), (8, op)] 3 (boolNat f.h.b) rfl (by simp) (by decide)
  have hu : unpackFields cWidths (packFields [(3, f.cfl.toNat), (26, f.off.toNat), (8, f.cb.toNat), (8, f.ca.toNat),
    (4, f.h.gp), (3, f.h.gm), (8, op), (3, 3), (1, boolNat f.h.b)]) = [(3, f.cfl.toNat), (26, f.off.toNat), (8, f.cb.toNat), (8, f.ca.toNat),
    (4, f.h.gp), (3, f.h.gm), (8, op), (3, 3), (1, boolNat f.h.b)].map (fun p => p.2 % 2 ^ p.1) :=
    unpackFields_packFields [(3, f.cfl.toNat), (26, f.off.toNat), (8, f.cb.toNat), (8, f.ca.toNat),
    (4, f.h.gp), (3, f.h.gm), (8, op), (3, 3), (1, boolNat f.h.b)]
  simp only [List.map_cons, List.map_nil] at hu
  have e0 : mkHdr (boolNat f.h.b % 2 ^ 1) (f.h.gm % 2 ^ 3) (f.h.gp % 2 ^ 4) = some f.h := mkHdr_of f.h
  have e1 : op % 2 ^ 8 = op := Nat.mod_eq_of_lt ho
  unfold CF.word decode
  simp only [hf.1, hf.2]
  unfold decodeC
  rw [hu]
  simp only [e0, e1, ofNat_toNat_mod]

/-- The decoder on a XF word. -/
theorem decode_x (op : Nat) (f : XF) (ho : op < 256) : decode (XF.word op f) = finish (buildX op f) 0 := by
  have hf := word_form [(1, 0), (20, f.lo.toNat), (8, f.c.toNat), (8, f.b.toNat),
    (8, f.a.toNat), (4, f.h.gp), (3, f.h.gm), (8, op), (3, 4), (1, boolNat f.h.b)] [(1, 0), (20, f.lo.toNat), (8, f.c.toNat), (8, f.b.toNat),
    (8, f.a.toNat), (4, f.h.gp), (3, f.h.gm), (8, op)] 4 (boolNat f.h.b) rfl (by simp) (by decide)
  have hu : unpackFields xWidths (packFields [(1, 0), (20, f.lo.toNat), (8, f.c.toNat), (8, f.b.toNat),
    (8, f.a.toNat), (4, f.h.gp), (3, f.h.gm), (8, op), (3, 4), (1, boolNat f.h.b)]) = [(1, 0), (20, f.lo.toNat), (8, f.c.toNat), (8, f.b.toNat),
    (8, f.a.toNat), (4, f.h.gp), (3, f.h.gm), (8, op), (3, 4), (1, boolNat f.h.b)].map (fun p => p.2 % 2 ^ p.1) :=
    unpackFields_packFields [(1, 0), (20, f.lo.toNat), (8, f.c.toNat), (8, f.b.toNat),
    (8, f.a.toNat), (4, f.h.gp), (3, f.h.gm), (8, op), (3, 4), (1, boolNat f.h.b)]
  simp only [List.map_cons, List.map_nil] at hu
  have e0 : mkHdr (boolNat f.h.b % 2 ^ 1) (f.h.gm % 2 ^ 3) (f.h.gp % 2 ^ 4) = some f.h := mkHdr_of f.h
  have e1 : op % 2 ^ 8 = op := Nat.mod_eq_of_lt ho
  unfold XF.word decode
  simp only [hf.1, hf.2]
  unfold decodeX
  rw [hu]
  simp only [e0, e1, ofNat_toNat_mod]
  rfl

/-- The decoder on a SF word. -/
theorem decode_s (op : Nat) (f : SF) (ho : op < 256) (hw : op ≠ 0x27) : decode (SF.word op f) = finish (buildS op f) 0 := by
  have hf := word_form [(5, f.sub.toNat), (16, f.imm.toNat), (8, f.sb.toNat), (8, f.sa.toNat),
    (8, f.dst.toNat), (4, f.h.gp), (3, f.h.gm), (8, op), (3, 5), (1, boolNat f.h.b)] [(5, f.sub.toNat), (16, f.imm.toNat), (8, f.sb.toNat), (8, f.sa.toNat),
    (8, f.dst.toNat), (4, f.h.gp), (3, f.h.gm), (8, op)] 5 (boolNat f.h.b) rfl (by simp) (by decide)
  have ho52 : bitsOf (packFields [(5, f.sub.toNat), (16, f.imm.toNat), (8, f.sb.toNat), (8, f.sa.toNat),
    (8, f.dst.toNat), (4, f.h.gp), (3, f.h.gm), (8, op), (3, 5), (1, boolNat f.h.b)]) 59 52 = op % 256 :=
    bitsOf_mid [(5, f.sub.toNat), (16, f.imm.toNat), (8, f.sb.toNat), (8, f.sa.toNat),
    (8, f.dst.toNat), (4, f.h.gp), (3, f.h.gm), (8, op), (3, 5), (1, boolNat f.h.b)] [(5, f.sub.toNat), (16, f.imm.toNat), (8, f.sb.toNat), (8, f.sa.toNat),
    (8, f.dst.toNat), (4, f.h.gp), (3, f.h.gm)] 8 op [(3, 5), (1, boolNat f.h.b)] rfl (by simp)
  have hu : unpackFields sWidths (packFields [(5, f.sub.toNat), (16, f.imm.toNat), (8, f.sb.toNat), (8, f.sa.toNat),
    (8, f.dst.toNat), (4, f.h.gp), (3, f.h.gm), (8, op), (3, 5), (1, boolNat f.h.b)]) = [(5, f.sub.toNat), (16, f.imm.toNat), (8, f.sb.toNat), (8, f.sa.toNat),
    (8, f.dst.toNat), (4, f.h.gp), (3, f.h.gm), (8, op), (3, 5), (1, boolNat f.h.b)].map (fun p => p.2 % 2 ^ p.1) :=
    unpackFields_packFields [(5, f.sub.toNat), (16, f.imm.toNat), (8, f.sb.toNat), (8, f.sa.toNat),
    (8, f.dst.toNat), (4, f.h.gp), (3, f.h.gm), (8, op), (3, 5), (1, boolNat f.h.b)]
  simp only [List.map_cons, List.map_nil] at hu
  have e0 : mkHdr (boolNat f.h.b % 2 ^ 1) (f.h.gm % 2 ^ 3) (f.h.gp % 2 ^ 4) = some f.h := mkHdr_of f.h
  have e1 : op % 2 ^ 8 = op := Nat.mod_eq_of_lt ho
  unfold SF.word decode
  simp only [hf.1, hf.2, ho52, Nat.mod_eq_of_lt ho, if_neg hw]
  unfold decodeS
  rw [hu]
  simp only [e0, e1, ofNat_toNat_mod]

/-- The decoder on a WAITC word. -/
theorem decode_waitc (f : WaitcF) : decode (f.word) = finish (some (.waitc f)) 0 := by
  have hf := word_form [(1, 0), (4, f.t.toNat), (4, f.c.toNat), (6, f.s.toNat), (6, f.l.toNat),
    (8, 0), (8, 0), (8, 0), (4, f.h.gp), (3, f.h.gm), (8, 0x27), (3, 5), (1, boolNat f.h.b)] [(1, 0), (4, f.t.toNat), (4, f.c.toNat), (6, f.s.toNat), (6, f.l.toNat),
    (8, 0), (8, 0), (8, 0), (4, f.h.gp), (3, f.h.gm), (8, 0x27)] 5 (boolNat f.h.b) rfl (by simp) (by decide)
  have ho52 : bitsOf (packFields [(1, 0), (4, f.t.toNat), (4, f.c.toNat), (6, f.s.toNat), (6, f.l.toNat),
    (8, 0), (8, 0), (8, 0), (4, f.h.gp), (3, f.h.gm), (8, 0x27), (3, 5), (1, boolNat f.h.b)]) 59 52 = 0x27 % 256 :=
    bitsOf_mid [(1, 0), (4, f.t.toNat), (4, f.c.toNat), (6, f.s.toNat), (6, f.l.toNat),
    (8, 0), (8, 0), (8, 0), (4, f.h.gp), (3, f.h.gm), (8, 0x27), (3, 5), (1, boolNat f.h.b)] [(1, 0), (4, f.t.toNat), (4, f.c.toNat), (6, f.s.toNat), (6, f.l.toNat),
    (8, 0), (8, 0), (8, 0), (4, f.h.gp), (3, f.h.gm)] 8 0x27 [(3, 5), (1, boolNat f.h.b)] rfl (by simp)
  have hu : unpackFields waitcWidths (packFields [(1, 0), (4, f.t.toNat), (4, f.c.toNat), (6, f.s.toNat), (6, f.l.toNat),
    (8, 0), (8, 0), (8, 0), (4, f.h.gp), (3, f.h.gm), (8, 0x27), (3, 5), (1, boolNat f.h.b)]) = [(1, 0), (4, f.t.toNat), (4, f.c.toNat), (6, f.s.toNat), (6, f.l.toNat),
    (8, 0), (8, 0), (8, 0), (4, f.h.gp), (3, f.h.gm), (8, 0x27), (3, 5), (1, boolNat f.h.b)].map (fun p => p.2 % 2 ^ p.1) :=
    unpackFields_packFields [(1, 0), (4, f.t.toNat), (4, f.c.toNat), (6, f.s.toNat), (6, f.l.toNat),
    (8, 0), (8, 0), (8, 0), (4, f.h.gp), (3, f.h.gm), (8, 0x27), (3, 5), (1, boolNat f.h.b)]
  simp only [List.map_cons, List.map_nil] at hu
  have e0 : mkHdr (boolNat f.h.b % 2 ^ 1) (f.h.gm % 2 ^ 3) (f.h.gp % 2 ^ 4) = some f.h := mkHdr_of f.h
  unfold WaitcF.word decode
  simp only [hf.1, hf.2, ho52]
  simp only [if_true]
  unfold decodeWaitc
  rw [hu]
  simp only [e0, ofNat_toNat_mod]
  rfl

end Sys2Proof
end

