-- ==== Sys2Proof/Laws/Counters.lean ====
section
/-! SUPPORT. What counting and charging do to a table of counters (spec/15 R376 to R378), and which cores a step charges. -/

namespace Sys2Proof.Machine

@[simp] theorem counterIn_counted_same (t : Tbl Nat) (n v : Nat) : counterIn (counted t n v) n = (counterIn t n + v) % 2 ^ 64 := by
  simp [counterIn, counted]

theorem counterIn_counted_other (t : Tbl Nat) (n m v : Nat) (h : m ≠ n) : counterIn (counted t n v) m = counterIn t m := by
  simp [counterIn, counted, h]

/-- A counter outside the tree moves no slot. -/
theorem slotsAgree_counted {t : Tbl Nat} {n : Nat} (v : Nat) (hn : 13 < n) (h : slotsAgree t) : slotsAgree (counted t n v) := by
  have other (m : Nat) (hm : m ≤ 13) : counterIn (counted t n v) m = counterIn t m := counterIn_counted_other t n m v (by omega)
  unfold slotsAgree at *
  have hs : (rangeFrom 1 13).map (counterIn (counted t n v)) = (rangeFrom 1 13).map (counterIn t) :=
    List.map_congr_left fun m hm => other m (by simp [rangeFrom] at hm; omega)
  rw [hs, other 0 (by omega)]
  exact h

/-- A sum modulo the width when one of its terms moves up, as often as the term stands in it. -/
theorem sum_moved (f g : Nat → Nat) (k v : Nat) (l : List Nat) (hg : ∀ m ∈ l, g m = if m = k then (f m + v) % 2 ^ 64 else f m) :
    (l.map g).sum % 2 ^ 64 = ((l.map f).sum + v * l.count k) % 2 ^ 64 := by
  induction l with
  | nil => simp
  | cons a r ih =>
    have hr := ih fun m hm => hg m (List.mem_cons_of_mem _ hm)
    have ha := hg a (List.mem_cons_self ..)
    simp only [List.map_cons, List.sum_cons, List.count_cons]
    by_cases h : a = k
    · simp only [h, if_true, beq_self_eq_true] at ha ⊢
      rw [ha, Nat.mul_add, Nat.mul_one]
      omega
    · have hb : (a == k) = false := by simpa using h
      simp only [h, hb, if_false] at ha ⊢
      rw [ha]
      simp only [Bool.false_eq_true, if_false, Nat.add_zero]
      omega

/-- Charging a leaf of the tree keeps the sum. -/
theorem slotsAgree_charged {t : Tbl Nat} {leaf : Nat} (v : Nat) (h1 : 1 ≤ leaf) (h2 : leaf ≤ 13) (h : slotsAgree t) :
    slotsAgree (charged t leaf v) := by
  have h0 : counterIn (charged t leaf v) 0 = (counterIn t 0 + v) % 2 ^ 64 := by
    rw [charged, counterIn_counted_other _ _ _ _ (by omega), counterIn_counted_same]
  have hl (m : Nat) (hm : m ∈ rangeFrom 1 13) :
      counterIn (charged t leaf v) m = if m = leaf then (counterIn t m + v) % 2 ^ 64 else counterIn t m := by
    have hm1 : 1 ≤ m := by simp [rangeFrom] at hm; omega
    split
    · subst m
      rw [charged, counterIn_counted_same, counterIn_counted_other _ _ _ _ (by omega)]
    · rw [charged, counterIn_counted_other _ _ _ _ ‹_›, counterIn_counted_other _ _ _ _ (by omega)]
  have hc : (rangeFrom 1 13).count leaf = 1 := by
    have : ∀ k : Fin 14, 1 ≤ k.val → (rangeFrom 1 13).count k.val = 1 := by decide
    exact this ⟨leaf, by omega⟩ h1
  unfold slotsAgree at *
  rw [h0, sum_moved _ _ leaf v _ hl, hc, Nat.mul_one, Nat.mod_mod, Nat.add_mod, h, ← Nat.add_mod]

theorem heldLeaf_range (sk : Skein) (i : Instr) : 1 ≤ heldLeaf sk i ∧ heldLeaf sk i ≤ 13 := by
  unfold heldLeaf
  split <;> (try split) <;> (try split) <;> omega

theorem fibreLeaf_range (s : State) (g : Gang) (sk : Skein) (x : Fibre) : 1 ≤ s.fibreLeaf g sk x ∧ s.fibreLeaf g sk x ≤ 13 := by
  have h (i : Instr) := heldLeaf_range sk i
  unfold State.fibreLeaf
  repeat' (first | omega | exact h _ | split)

theorem viewLeaf_range (s : State) (rs : List OnCore) : 1 ≤ s.viewLeaf rs ∧ s.viewLeaf rs ≤ 13 := by
  unfold State.viewLeaf
  split
  · omega
  · split
    · omega
    · split
      · omega
      · rename_i r _ _
        have h (x : Fibre) := fibreLeaf_range s r.gang r.sk x
        cases chooseFibre (match s.readyFibres r.gang r.sk with | [] => r.sk.live | l => l) with
        | none => simp
        | some x => exact h x

/-- A view changed: the other views are as before, and one that does not exist starts empty. -/
theorem Core.mapView_slotsAgree {c : Core} {ctx : Nat} {f : Tbl Nat → Tbl Nat} (hf : ∀ t, Machine.slotsAgree t → Machine.slotsAgree (f t))
    (h : c.slotsAgree) : (c.mapView ctx f).slotsAgree := by
  refine ⟨h.1, fun v hv => ?_⟩
  simp only [Core.mapView] at hv
  split at hv
  · obtain ⟨p, hp, rfl⟩ := List.mem_map.1 hv
    split
    · exact hf _ (h.2 p hp)
    · exact h.2 p hp
  · rcases List.mem_append.1 hv with hp | hp
    · exact h.2 v hp
    · simp only [List.mem_singleton] at hp
      subst hp
      exact hf [] (by unfold Machine.slotsAgree; simp [rangeFrom, counterIn, tget])

end Sys2Proof.Machine
end

