-- ==== Sys2Proof/Laws/Exec.lean ====
section
/-! SUPPORT. Each arm of the dispatcher. -/

namespace Sys2Proof.Machine

theorem exec_iadd (ty : IntTy) (f : V3) (s : State) : exec (.iadd ty f) s = execIadd ty f s := rfl
theorem exec_iaddImm (ty : IntTy) (f : VI) (s : State) : exec (.iaddImm ty f) s = execIaddImm ty f s := rfl
theorem exec_isub (ty : IntTy) (f : V3) (s : State) : exec (.isub ty f) s = execIsub ty f s := rfl
theorem exec_isubImm (ty : IntTy) (f : VI) (s : State) : exec (.isubImm ty f) s = execIsubImm ty f s := rfl
theorem exec_imul (ty : IntTy) (f : V3) (s : State) : exec (.imul ty f) s = execImul ty f s := rfl
theorem exec_imulImm (ty : IntTy) (f : VI) (s : State) : exec (.imulImm ty f) s = execImulImm ty f s := rfl
theorem exec_imulh (ty : IntTy) (f : V3) (s : State) : exec (.imulh ty f) s = execImulh ty f s := rfl
theorem exec_imulhImm (ty : IntTy) (f : VI) (s : State) : exec (.imulhImm ty f) s = execImulhImm ty f s := rfl
theorem exec_imad (ty : IntTy) (f : V3) (s : State) : exec (.imad ty f) s = execImad ty f s := rfl
theorem exec_imadImm (ty : IntTy) (f : VI) (s : State) : exec (.imadImm ty f) s = execImadImm ty f s := rfl
theorem exec_imadw (ty : IntTy) (f : V3) (s : State) : exec (.imadw ty f) s = execImadw ty f s := rfl
theorem exec_idiv (ty : IntTy) (f : V3) (s : State) : exec (.idiv ty f) s = execIdiv ty f s := rfl
theorem exec_idivImm (ty : IntTy) (f : VI) (s : State) : exec (.idivImm ty f) s = execIdivImm ty f s := rfl
theorem exec_irem (ty : IntTy) (f : V3) (s : State) : exec (.irem ty f) s = execIrem ty f s := rfl
theorem exec_iremImm (ty : IntTy) (f : VI) (s : State) : exec (.iremImm ty f) s = execIremImm ty f s := rfl
theorem exec_imin (ty : IntTy) (f : V3) (s : State) : exec (.imin ty f) s = execImin ty f s := rfl
theorem exec_iminImm (ty : IntTy) (f : VI) (s : State) : exec (.iminImm ty f) s = execIminImm ty f s := rfl
theorem exec_imax (ty : IntTy) (f : V3) (s : State) : exec (.imax ty f) s = execImax ty f s := rfl
theorem exec_imaxImm (ty : IntTy) (f : VI) (s : State) : exec (.imaxImm ty f) s = execImaxImm ty f s := rfl
theorem exec_lea (ty : IntTy) (f : V3) (s : State) : exec (.lea ty f) s = execLea ty f s := rfl
theorem exec_leaImm (ty : IntTy) (f : VI) (s : State) : exec (.leaImm ty f) s = execLeaImm ty f s := rfl
theorem exec_icmp (ty : IntTy) (f : V3) (s : State) : exec (.icmp ty f) s = execIcmp ty f s := rfl
theorem exec_icmpImm (ty : IntTy) (f : VI) (s : State) : exec (.icmpImm ty f) s = execIcmpImm ty f s := rfl
theorem exec_and (ty : BitTy) (f : V3) (s : State) : exec (.and ty f) s = execAnd ty f s := rfl
theorem exec_andImm (ty : BitTy) (f : VI) (s : State) : exec (.andImm ty f) s = execAndImm ty f s := rfl
theorem exec_or (ty : BitTy) (f : V3) (s : State) : exec (.or ty f) s = execOr ty f s := rfl
theorem exec_orImm (ty : BitTy) (f : VI) (s : State) : exec (.orImm ty f) s = execOrImm ty f s := rfl
theorem exec_xor (ty : BitTy) (f : V3) (s : State) : exec (.xor ty f) s = execXor ty f s := rfl
theorem exec_xorImm (ty : BitTy) (f : VI) (s : State) : exec (.xorImm ty f) s = execXorImm ty f s := rfl
theorem exec_andn (ty : BitTy) (f : V3) (s : State) : exec (.andn ty f) s = execAndn ty f s := rfl
theorem exec_andnImm (ty : BitTy) (f : VI) (s : State) : exec (.andnImm ty f) s = execAndnImm ty f s := rfl
theorem exec_orn (ty : BitTy) (f : V3) (s : State) : exec (.orn ty f) s = execOrn ty f s := rfl
theorem exec_ornImm (ty : BitTy) (f : VI) (s : State) : exec (.ornImm ty f) s = execOrnImm ty f s := rfl
theorem exec_shl (ty : BitTy) (f : V3) (s : State) : exec (.shl ty f) s = execShl ty f s := rfl
theorem exec_shlImm (ty : BitTy) (f : VI) (s : State) : exec (.shlImm ty f) s = execShlImm ty f s := rfl
theorem exec_shr (ty : BitTy) (f : V3) (s : State) : exec (.shr ty f) s = execShr ty f s := rfl
theorem exec_shrImm (ty : BitTy) (f : VI) (s : State) : exec (.shrImm ty f) s = execShrImm ty f s := rfl
theorem exec_sar (ty : BitTy) (f : V3) (s : State) : exec (.sar ty f) s = execSar ty f s := rfl
theorem exec_sarImm (ty : BitTy) (f : VI) (s : State) : exec (.sarImm ty f) s = execSarImm ty f s := rfl
theorem exec_rotl (ty : BitTy) (f : V3) (s : State) : exec (.rotl ty f) s = execRotl ty f s := rfl
theorem exec_rotlImm (ty : BitTy) (f : VI) (s : State) : exec (.rotlImm ty f) s = execRotlImm ty f s := rfl
theorem exec_fshl (ty : BitTy) (f : V3) (s : State) : exec (.fshl ty f) s = execFshl ty f s := rfl
theorem exec_bfx (ty : BitTy) (f : V3) (s : State) : exec (.bfx ty f) s = execBfx ty f s := rfl
theorem exec_bfxImm (ty : BitTy) (f : VI) (s : State) : exec (.bfxImm ty f) s = execBfxImm ty f s := rfl
theorem exec_bfi (ty : BitTy) (f : V3) (s : State) : exec (.bfi ty f) s = execBfi ty f s := rfl
theorem exec_bfiImm (ty : BitTy) (f : VI) (s : State) : exec (.bfiImm ty f) s = execBfiImm ty f s := rfl
theorem exec_popc (ty : BitTy) (f : V3) (s : State) : exec (.popc ty f) s = execPopc ty f s := rfl
theorem exec_clz (ty : BitTy) (f : V3) (s : State) : exec (.clz ty f) s = execClz ty f s := rfl
theorem exec_ctz (ty : BitTy) (f : V3) (s : State) : exec (.ctz ty f) s = execCtz ty f s := rfl
theorem exec_brev (ty : BitTy) (f : V3) (s : State) : exec (.brev ty f) s = execBrev ty f s := rfl
theorem exec_bperm (ty : BitTy) (f : V3) (s : State) : exec (.bperm ty f) s = execBperm ty f s := rfl
theorem exec_bpermImm (ty : BitTy) (f : VI) (s : State) : exec (.bpermImm ty f) s = execBpermImm ty f s := rfl
theorem exec_mov (ty : IntTy) (f : V3) (s : State) : exec (.mov ty f) s = execMov ty f s := rfl
theorem exec_movImm (ty : IntTy) (f : VI) (s : State) : exec (.movImm ty f) s = execMovImm ty f s := rfl
theorem exec_movh (ty : IntTy) (f : VI) (s : State) : exec (.movh ty f) s = execMovh ty f s := rfl
theorem exec_sel3 (ty : BitTy) (f : V3) (s : State) : exec (.sel3 ty f) s = execSel3 ty f s := rfl
theorem exec_fadd (ty : FTy) (f : V3) (s : State) : exec (.fadd ty f) s = execFadd ty f s := rfl
theorem exec_faddImm (ty : FTy) (f : VI) (s : State) : exec (.faddImm ty f) s = execFaddImm ty f s := rfl
theorem exec_fmul (ty : FTy) (f : V3) (s : State) : exec (.fmul ty f) s = execFmul ty f s := rfl
theorem exec_fmulImm (ty : FTy) (f : VI) (s : State) : exec (.fmulImm ty f) s = execFmulImm ty f s := rfl
theorem exec_ffma (ty : FTy) (f : V3) (s : State) : exec (.ffma ty f) s = execFfma ty f s := rfl
theorem exec_ffmaImm (ty : FTy) (f : VI) (s : State) : exec (.ffmaImm ty f) s = execFfmaImm ty f s := rfl
theorem exec_fmin (ty : FTy) (f : V3) (s : State) : exec (.fmin ty f) s = execFmin ty f s := rfl
theorem exec_fminImm (ty : FTy) (f : VI) (s : State) : exec (.fminImm ty f) s = execFminImm ty f s := rfl
theorem exec_fmax (ty : FTy) (f : V3) (s : State) : exec (.fmax ty f) s = execFmax ty f s := rfl
theorem exec_fmaxImm (ty : FTy) (f : VI) (s : State) : exec (.fmaxImm ty f) s = execFmaxImm ty f s := rfl
theorem exec_fdiv (ty : FTy) (f : V3) (s : State) : exec (.fdiv ty f) s = execFdiv ty f s := rfl
theorem exec_fdivImm (ty : FTy) (f : VI) (s : State) : exec (.fdivImm ty f) s = execFdivImm ty f s := rfl
theorem exec_fsqrt (ty : FTy) (f : V3) (s : State) : exec (.fsqrt ty f) s = execFsqrt ty f s := rfl
theorem exec_frcp (ty : FTy) (f : V3) (s : State) : exec (.frcp ty f) s = execFrcp ty f s := rfl
theorem exec_frsq (ty : FTy) (f : V3) (s : State) : exec (.frsq ty f) s = execFrsq ty f s := rfl
theorem exec_fex2 (ty : FTy) (f : V3) (s : State) : exec (.fex2 ty f) s = execFex2 ty f s := rfl
theorem exec_flg2 (ty : FTy) (f : V3) (s : State) : exec (.flg2 ty f) s = execFlg2 ty f s := rfl
theorem exec_fsinp (ty : FTy) (f : V3) (s : State) : exec (.fsinp ty f) s = execFsinp ty f s := rfl
theorem exec_fcosp (ty : FTy) (f : V3) (s : State) : exec (.fcosp ty f) s = execFcosp ty f s := rfl
theorem exec_frnd (ty : FTy) (f : V3) (s : State) : exec (.frnd ty f) s = execFrnd ty f s := rfl
theorem exec_fscale (ty : FTy) (f : V3) (s : State) : exec (.fscale ty f) s = execFscale ty f s := rfl
theorem exec_fscaleImm (ty : FTy) (f : VI) (s : State) : exec (.fscaleImm ty f) s = execFscaleImm ty f s := rfl
theorem exec_fclass (ty : FTy) (f : V3) (s : State) : exec (.fclass ty f) s = execFclass ty f s := rfl
theorem exec_fmant (ty : FTy) (f : V3) (s : State) : exec (.fmant ty f) s = execFmant ty f s := rfl
theorem exec_fexpo (ty : FTy) (f : V3) (s : State) : exec (.fexpo ty f) s = execFexpo ty f s := rfl
theorem exec_fcmp (ty : FTy) (f : V3) (s : State) : exec (.fcmp ty f) s = execFcmp ty f s := rfl
theorem exec_fcmpImm (ty : FTy) (f : VI) (s : State) : exec (.fcmpImm ty f) s = execFcmpImm ty f s := rfl
theorem exec_cvt (f : V3) (s : State) : exec (.cvt f) s = execCvt f s := rfl
theorem exec_cvtb (f : V3) (s : State) : exec (.cvtb f) s = execCvtb f s := rfl
theorem exec_pack2 (ty : HTy) (f : V3) (s : State) : exec (.pack2 ty f) s = execPack2 ty f s := rfl
theorem exec_unpk (ty : HTy) (f : V3) (s : State) : exec (.unpk ty f) s = execUnpk ty f s := rfl
theorem exec_ivmk (ty : IvTy) (f : V3) (s : State) : exec (.ivmk ty f) s = execIvmk ty f s := rfl
theorem exec_ivmid (ty : IvTy) (f : V3) (s : State) : exec (.ivmid ty f) s = execIvmid ty f s := rfl
theorem exec_ivwid (ty : IvTy) (f : V3) (s : State) : exec (.ivwid ty f) s = execIvwid ty f s := rfl
theorem exec_ivhull (ty : IvTy) (f : V3) (s : State) : exec (.ivhull ty f) s = execIvhull ty f s := rfl
theorem exec_ivisect (ty : IvTy) (f : V3) (s : State) : exec (.ivisect ty f) s = execIvisect ty f s := rfl
theorem exec_ivsplit (ty : IvTy) (f : V3) (s : State) : exec (.ivsplit ty f) s = execIvsplit ty f s := rfl
theorem exec_ivmag (ty : IvTy) (f : V3) (s : State) : exec (.ivmag ty f) s = execIvmag ty f s := rfl
theorem exec_ivmig (ty : IvTy) (f : V3) (s : State) : exec (.ivmig ty f) s = execIvmig ty f s := rfl
theorem exec_ld (f : MF) (s : State) : exec (.ld f) s = execLd f s := rfl
theorem exec_st (f : MF) (s : State) : exec (.st f) s = execSt f s := rfl
theorem exec_ldiv (f : MF) (s : State) : exec (.ldiv f) s = execLdiv f s := rfl
theorem exec_stiv (f : MF) (s : State) : exec (.stiv f) s = execStiv f s := rfl
theorem exec_atom (f : MF) (s : State) : exec (.atom f) s = execAtom f s := rfl
theorem exec_atomc (f : MF) (s : State) : exec (.atomc f) s = execAtomc f s := rfl
theorem exec_red (f : MF) (s : State) : exec (.red f) s = execRed f s := rfl
theorem exec_cachePref (f : MF) (s : State) : exec (.cachePref f) s = execCachePref f s := rfl
theorem exec_cacheCinv (f : MF) (s : State) : exec (.cacheCinv f) s = execCacheCinv f s := rfl
theorem exec_cacheCwb (f : MF) (s : State) : exec (.cacheCwb f) s = execCacheCwb f s := rfl
theorem exec_bra (f : CF) (s : State) : exec (.bra f) s = execBra f s := rfl
theorem exec_brx (f : CF) (s : State) : exec (.brx f) s = execBrx f s := rfl
theorem exec_brdec (f : CF) (s : State) : exec (.brdec f) s = execBrdec f s := rfl
theorem exec_call (f : CF) (s : State) : exec (.call f) s = execCall f s := rfl
theorem exec_callx (f : CF) (s : State) : exec (.callx f) s = execCallx f s := rfl
theorem exec_ret (f : CF) (s : State) : exec (.ret f) s = execRet f s := rfl
theorem exec_rmark (f : CF) (s : State) : exec (.rmark f) s = execRmark f s := rfl
theorem exec_rjoin (f : CF) (s : State) : exec (.rjoin f) s = execRjoin f s := rfl
theorem exec_fnew (f : CF) (s : State) : exec (.fnew f) s = execFnew f s := rfl
theorem exec_fend (f : CF) (s : State) : exec (.fend f) s = execFend f s := rfl
theorem exec_exit (f : CF) (s : State) : exec (.exit f) s = execExit f s := rfl
theorem exec_ivfork (f : CF) (s : State) : exec (.ivfork f) s = execIvfork f s := rfl
theorem exec_migrate (f : CF) (s : State) : exec (.migrate f) s = execMigrate f s := rfl
theorem exec_bar (f : CF) (s : State) : exec (.bar f) s = execBar f s := rfl
theorem exec_bara (f : CF) (s : State) : exec (.bara f) s = execBara f s := rfl
theorem exec_barw (f : CF) (s : State) : exec (.barw f) s = execBarw f s := rfl
theorem exec_sbar (f : CF) (s : State) : exec (.sbar f) s = execSbar f s := rfl
theorem exec_mma (f : XF) (s : State) : exec (.mma f) s = execMma f s := rfl
theorem exec_ldstat (f : XF) (s : State) : exec (.ldstat f) s = execLdstat f s := rfl
theorem exec_statrel (f : XF) (s : State) : exec (.statrel f) s = execStatrel f s := rfl
theorem exec_tzero (f : XF) (s : State) : exec (.tzero f) s = execTzero f s := rfl
theorem exec_tcvt (f : XF) (s : State) : exec (.tcvt f) s = execTcvt f s := rfl
theorem exec_tget (f : XF) (s : State) : exec (.tget f) s = execTget f s := rfl
theorem exec_tstr (f : XF) (s : State) : exec (.tstr f) s = execTstr f s := rfl
theorem exec_copy (f : XF) (s : State) : exec (.copy f) s = execCopy f s := rfl
theorem exec_copym (f : XF) (s : State) : exec (.copym f) s = execCopym f s := rfl
theorem exec_copyl (f : XF) (s : State) : exec (.copyl f) s = execCopyl f s := rfl
theorem exec_cfill (f : XF) (s : State) : exec (.cfill f) s = execCfill f s := rfl
theorem exec_evpost (f : XF) (s : State) : exec (.evpost f) s = execEvpost f s := rfl
theorem exec_evpop (f : XF) (s : State) : exec (.evpop f) s = execEvpop f s := rfl
theorem exec_launch (f : XF) (s : State) : exec (.launch f) s = execLaunch f s := rfl
theorem exec_nop (f : SF) (s : State) : exec (.nop f) s = execNop f s := rfl
theorem exec_pand (f : SF) (s : State) : exec (.pand f) s = execPand f s := rfl
theorem exec_por (f : SF) (s : State) : exec (.por f) s = execPor f s := rfl
theorem exec_pnot (f : SF) (s : State) : exec (.pnot f) s = execPnot f s := rfl
theorem exec_pxor (f : SF) (s : State) : exec (.pxor f) s = execPxor f s := rfl
theorem exec_pres (f : SF) (s : State) : exec (.pres f) s = execPres f s := rfl
theorem exec_pmov (f : SF) (s : State) : exec (.pmov f) s = execPmov f s := rfl
theorem exec_shfl (f : SF) (s : State) : exec (.shfl f) s = execShfl f s := rfl
theorem exec_ballot (f : SF) (s : State) : exec (.ballot f) s = execBallot f s := rfl
theorem exec_vote (f : SF) (s : State) : exec (.vote f) s = execVote f s := rfl
theorem exec_rdx (f : SF) (s : State) : exec (.rdx f) s = execRdx f s := rfl
theorem exec_scan (f : SF) (s : State) : exec (.scan f) s = execScan f s := rfl
theorem exec_elect (f : SF) (s : State) : exec (.elect f) s = execElect f s := rfl
theorem exec_fence (f : SF) (s : State) : exec (.fence f) s = execFence f s := rfl
theorem exec_mwait (f : SF) (s : State) : exec (.mwait f) s = execMwait f s := rfl
theorem exec_mtest (f : SF) (s : State) : exec (.mtest f) s = execMtest f s := rfl
theorem exec_rwrite (f : SF) (s : State) : exec (.rwrite f) s = execRwrite f s := rfl
theorem exec_arrwait (f : SF) (s : State) : exec (.arrwait f) s = execArrwait f s := rfl
theorem exec_qpush (f : SF) (s : State) : exec (.qpush f) s = execQpush f s := rfl
theorem exec_qpop (f : SF) (s : State) : exec (.qpop f) s = execQpop f s := rfl
theorem exec_rdctr (f : SF) (s : State) : exec (.rdctr f) s = execRdctr f s := rfl
theorem exec_bankcfg (f : SF) (s : State) : exec (.bankcfg f) s = execBankcfg f s := rfl
theorem exec_gets (f : SF) (s : State) : exec (.gets f) s = execGets f s := rfl
theorem exec_sets (f : SF) (s : State) : exec (.sets f) s = execSets f s := rfl
theorem exec_trap (f : SF) (s : State) : exec (.trap f) s = execTrap f s := rfl
theorem exec_eret (f : SF) (s : State) : exec (.eret f) s = execEret f s := rfl
theorem exec_bkpt (f : SF) (s : State) : exec (.bkpt f) s = execBkpt f s := rfl
theorem exec_emret (f : SF) (s : State) : exec (.emret f) s = execEmret f s := rfl
theorem exec_yield (f : SF) (s : State) : exec (.yield f) s = execYield f s := rfl
theorem exec_step (f : SF) (s : State) : exec (.step f) s = execStep f s := rfl
theorem exec_ckpt (f : SF) (s : State) : exec (.ckpt f) s = execCkpt f s := rfl
theorem exec_wvload (f : SF) (s : State) : exec (.wvload f) s = execWvload f s := rfl
theorem exec_wvbind (f : SF) (s : State) : exec (.wvbind f) s = execWvbind f s := rfl
theorem exec_swapctx (f : SF) (s : State) : exec (.swapctx f) s = execSwapctx f s := rfl
theorem exec_waitc (f : WaitcF) (s : State) : exec (.waitc f) s = execWaitc f s := rfl
theorem exec_guestDecode (s : State) : exec (.guestDecode) s = execGuestDecode s := rfl
theorem exec_notAnInstruction (w : BitVec 64) (s : State) : exec (.notAnInstruction w) s = execNotAnInstruction w s := rfl
theorem exec_instructionFetchFault (code : FaultCode) (addr : BitVec 64) (s : State) : exec (.instructionFetchFault code addr) s = execInstructionFetchFault code addr s := rfl
theorem exec_packetUnknownType (world queue : Nat) (s : State) : exec (.packetUnknownType world queue) s = execPacketUnknownType world queue s := rfl
theorem exec_ldstatFillDone (c : CoreId) (s : State) : exec (.ldstatFillDone c) s = execLdstatFillDone c s := rfl
theorem exec_multiClockResultWritten (gang skein slot : Nat) (s : State) : exec (.multiClockResultWritten gang skein slot) s = execMultiClockResultWritten gang skein slot s := rfl
theorem exec_loadComplete (e : EntryId) (slots : BitVec 64) (s : State) : exec (.loadComplete e slots) s = execLoadComplete e slots s := rfl
theorem exec_storePerformed (e : EntryId) (slots : BitVec 64) (s : State) : exec (.storePerformed e slots) s = execStorePerformed e slots s := rfl
theorem exec_portAccept (e : EntryId) (s : State) : exec (.portAccept e) s = execPortAccept e s := rfl
theorem exec_writeAck (e : EntryId) (s : State) : exec (.writeAck e) s = execWriteAck e s := rfl
theorem exec_tagRetire (tag : BitVec 64) (s : State) : exec (.tagRetire tag) s = execTagRetire tag s := rfl
theorem exec_tileOpStart (c : CoreId) (s : State) : exec (.tileOpStart c) s = execTileOpStart c s := rfl
theorem exec_tilePanelUnit (c : CoreId) (s : State) : exec (.tilePanelUnit c) s = execTilePanelUnit c s := rfl
theorem exec_copyCommandStart (cluster : Nat) (s : State) : exec (.copyCommandStart cluster) s = execCopyCommandStart cluster s := rfl
theorem exec_copyBurst (cluster channel : Nat) (s : State) : exec (.copyBurst cluster channel) s = execCopyBurst cluster channel s := rfl
theorem exec_rwriteArrival (e : EntryId) (s : State) : exec (.rwriteArrival e) s = execRwriteArrival e s := rfl
theorem exec_sbarArrival (e : EntryId) (s : State) : exec (.sbarArrival e) s = execSbarArrival e s := rfl
theorem exec_monitorWake (e : EntryId) (slot : Nat) (s : State) : exec (.monitorWake e slot) s = execMonitorWake e slot s := rfl
theorem exec_monitorReread (e : EntryId) (slot : Nat) (s : State) : exec (.monitorReread e slot) s = execMonitorReread e slot s := rfl
theorem exec_migrationMove (gang : Nat) (s : State) : exec (.migrationMove gang) s = execMigrationMove gang s := rfl
theorem exec_queueDoorbell (world queue : Nat) (v : BitVec 64) (s : State) : exec (.queueDoorbell world queue v) s = execQueueDoorbell world queue v s := rfl
theorem exec_qctlWrite (world queue : Nat) (v : BitVec 64) (s : State) : exec (.qctlWrite world queue v) s = execQctlWrite world queue v s := rfl
theorem exec_packetNop (world queue : Nat) (s : State) : exec (.packetNop world queue) s = execPacketNop world queue s := rfl
theorem exec_packetLaunch (world queue : Nat) (s : State) : exec (.packetLaunch world queue) s = execPacketLaunch world queue s := rfl
theorem exec_packetCopy (world queue : Nat) (s : State) : exec (.packetCopy world queue) s = execPacketCopy world queue s := rfl
theorem exec_packetFence (world queue : Nat) (s : State) : exec (.packetFence world queue) s = execPacketFence world queue s := rfl
theorem exec_packetSignal (world queue : Nat) (s : State) : exec (.packetSignal world queue) s = execPacketSignal world queue s := rfl
theorem exec_packetEvent (world queue : Nat) (s : State) : exec (.packetEvent world queue) s = execPacketEvent world queue s := rfl
theorem exec_packetHandle (world queue : Nat) (s : State) : exec (.packetHandle world queue) s = execPacketHandle world queue s := rfl
theorem exec_fenceCounterWake (world queue : Nat) (s : State) : exec (.fenceCounterWake world queue) s = execFenceCounterWake world queue s := rfl
theorem exec_gridComplete (grid : Nat) (s : State) : exec (.gridComplete grid) s = execGridComplete grid s := rfl
theorem exec_spanPlacement (grid span cluster : Nat) (cores : List Nat) (s : State) : exec (.spanPlacement grid span cluster cores) s = execSpanPlacement grid span cluster cores s := rfl
theorem exec_spawnRefill (gang : Nat) (s : State) : exec (.spawnRefill gang) s = execSpawnRefill gang s := rfl
theorem exec_skeinMoveIn (c : CoreId) (s : State) : exec (.skeinMoveIn c) s = execSkeinMoveIn c s := rfl
theorem exec_forcedRotation (c : CoreId) (s : State) : exec (.forcedRotation c) s = execForcedRotation c s := rfl
theorem exec_compaction (c : CoreId) (s : State) : exec (.compaction c) s = execCompaction c s := rfl
theorem exec_relocation (grid span cluster : Nat) (s : State) : exec (.relocation grid span cluster) s = execRelocation grid span cluster s := rfl
theorem exec_forwardExpiry (cluster : Nat) (s : State) : exec (.forwardExpiry cluster) s = execForwardExpiry cluster s := rfl
theorem exec_heldPostEnter (cluster world : Nat) (s : State) : exec (.heldPostEnter cluster world) s = execHeldPostEnter cluster world s := rfl
theorem exec_switchRequestServe (cluster : Nat) (s : State) : exec (.switchRequestServe cluster) s = execSwitchRequestServe cluster s := rfl
theorem exec_cswctlGo (world : Nat) (v : BitVec 64) (s : State) : exec (.cswctlGo world v) s = execCswctlGo world v s := rfl
theorem exec_freezePoint (ctx : Nat) (s : State) : exec (.freezePoint ctx) s = execFreezePoint ctx s := rfl
theorem exec_wfreezeGo (w : RegWrite) (s : State) : exec (.wfreezeGo w) s = execWfreezeGo w s := rfl
theorem exec_wfreezeResume (w : RegWrite) (s : State) : exec (.wfreezeResume w) s = execWfreezeResume w s := rfl
theorem exec_parkedCompletion (c : Completion) (s : State) : exec (.parkedCompletion c) s = execParkedCompletion c s := rfl
theorem exec_checkpointTimer (partition : Nat) (s : State) : exec (.checkpointTimer partition) s = execCheckpointTimer partition s := rfl
theorem exec_checkpointCut (partition : Nat) (s : State) : exec (.checkpointCut partition) s = execCheckpointCut partition s := rfl
theorem exec_shadowCopy (partition frame : Nat) (s : State) : exec (.shadowCopy partition frame) s = execShadowCopy partition frame s := rfl
theorem exec_drainFrame (partition : Nat) (failure : Option (BitVec 8)) (s : State) : exec (.drainFrame partition failure) s = execDrainFrame partition failure s := rfl
theorem exec_ckptcfgWrite (w : RegWrite) (s : State) : exec (.ckptcfgWrite w) s = execCkptcfgWrite w s := rfl
theorem exec_ckptack (w : RegWrite) (s : State) : exec (.ckptack w) s = execCkptack w s := rfl
theorem exec_atsTranslationCompletion (world : Nat) (page : Nat) (frame : Nat) (rd wr : Bool) (s : State) : exec (.atsTranslationCompletion world page frame rd wr) s = execAtsTranslationCompletion world page frame rd wr s := rfl
theorem exec_pageRequestResponse (world : Nat) (page : Nat) (ok : Bool) (s : State) : exec (.pageRequestResponse world page ok) s = execPageRequestResponse world page ok s := rfl
theorem exec_atsInvalidation (world : Nat) (first last : Nat) (s : State) : exec (.atsInvalidation world first last) s = execAtsInvalidation world first last s := rfl
theorem exec_atomicopCompletion (c : Completion) (s : State) : exec (.atomicopCompletion c) s = execAtomicopCompletion c s := rfl
theorem exec_hostAtomicDone (world : Nat) (v : BitVec 64) (s : State) : exec (.hostAtomicDone world v) s = execHostAtomicDone world v s := rfl
theorem exec_completerError (e : EntryId) (slot : Nat) (s : State) : exec (.completerError e slot) s = execCompleterError e slot s := rfl
theorem exec_requestTimeout (e : EntryId) (slot : Nat) (s : State) : exec (.requestTimeout e slot) s = execRequestTimeout e slot s := rfl
theorem exec_peerUnreachable (partition peer : Nat) (s : State) : exec (.peerUnreachable partition peer) s = execPeerUnreachable partition peer s := rfl
theorem exec_pcieLinkDown (port : Nat) (s : State) : exec (.pcieLinkDown port) s = execPcieLinkDown port s := rfl
theorem exec_incomingPortRequest (r : PortRequest) (s : State) : exec (.incomingPortRequest r) s = execIncomingPortRequest r s := rfl
theorem exec_linkSessionRekey (port : Nat) (s : State) : exec (.linkSessionRekey port) s = execLinkSessionRekey port s := rfl
theorem exec_bounceDoorbell (world channel : Nat) (v : BitVec 64) (s : State) : exec (.bounceDoorbell world channel v) s = execBounceDoorbell world channel v s := rfl
theorem exec_bounceResync (world channel : Nat) (v : BitVec 64) (s : State) : exec (.bounceResync world channel v) s = execBounceResync world channel v s := rfl
theorem exec_bounceSlotLand (world channel : Nat) (s : State) : exec (.bounceSlotLand world channel) s = execBounceSlotLand world channel s := rfl
theorem exec_xinvGo (w : RegWrite) (s : State) : exec (.xinvGo w) s = execXinvGo w s := rfl
theorem exec_xinvComplete (partition : Nat) (s : State) : exec (.xinvComplete partition) s = execXinvComplete partition s := rfl
theorem exec_wvhctlGo (w : RegWrite) (s : State) : exec (.wvhctlGo w) s = execWvhctlGo w s := rfl
theorem exec_eiscfgWrite (w : RegWrite) (s : State) : exec (.eiscfgWrite w) s = execEiscfgWrite w s := rfl
theorem exec_dutycfgWrite (w : RegWrite) (s : State) : exec (.dutycfgWrite w) s = execDutycfgWrite w s := rfl
theorem exec_pwrlimWrite (w : RegWrite) (s : State) : exec (.pwrlimWrite w) s = execPwrlimWrite w s := rfl
theorem exec_ps2Request (w : RegWrite) (s : State) : exec (.ps2Request w) s = execPs2Request w s := rfl
theorem exec_ps0Request (w : RegWrite) (s : State) : exec (.ps0Request w) s = execPs0Request w s := rfl
theorem exec_ps2Exit (partition : Nat) (s : State) : exec (.ps2Exit partition) s = execPs2Exit partition s := rfl
theorem exec_ps1Entry (cluster : Nat) (s : State) : exec (.ps1Entry cluster) s = execPs1Entry cluster s := rfl
theorem exec_partcfgWrite (w : RegWrite) (s : State) : exec (.partcfgWrite w) s = execPartcfgWrite w s := rfl
theorem exec_ecccntClear (w : RegWrite) (s : State) : exec (.ecccntClear w) s = execEcccntClear w s := rfl
theorem exec_ctrselWrite (w : RegWrite) (s : State) : exec (.ctrselWrite w) s = execCtrselWrite w s := rfl
theorem exec_traceClaim (cluster : Nat) (party : Option Nat) (s : State) : exec (.traceClaim cluster party) s = execTraceClaim cluster party s := rfl
theorem exec_traceRelease (cluster : Nat) (party : Option Nat) (s : State) : exec (.traceRelease cluster party) s = execTraceRelease cluster party s := rfl
theorem exec_traceSample (c : CoreId) (leaf : Nat) (s : State) : exec (.traceSample c leaf) s = execTraceSample c leaf s := rfl
theorem exec_dbggo (w : RegWrite) (s : State) : exec (.dbggo w) s = execDbggo w s := rfl
theorem exec_debugScrubDone (s : State) : exec (.debugScrubDone) s = execDebugScrubDone s := rfl
theorem exec_tdispMessage (world : Nat) (m : TdispMsg) (s : State) : exec (.tdispMessage world m) s = execTdispMessage world m s := rfl
theorem exec_modelKeyDelivery (world : Nat) (key : BitVec 128) (s : State) : exec (.modelKeyDelivery world key) s = execModelKeyDelivery world key s := rfl
theorem exec_spdmRequest (world : Nat) (index : Nat) (s : State) : exec (.spdmRequest world index) s = execSpdmRequest world index s := rfl
theorem exec_clockRelock (die : Nat) (kind : CoreKind) (mhz : Nat) (s : State) : exec (.clockRelock die kind mhz) s = execClockRelock die kind mhz s := rfl
theorem exec_coldReset (s : State) : exec (.coldReset) s = execColdReset s := rfl
theorem exec_warmReset (scrub : Bool) (s : State) : exec (.warmReset scrub) s = execWarmReset scrub s := rfl
theorem exec_partitionReset (partition : Nat) (s : State) : exec (.partitionReset partition) s = execPartitionReset partition s := rfl
theorem exec_functionLevelReset (world : Nat) (s : State) : exec (.functionLevelReset world) s = execFunctionLevelReset world s := rfl
theorem exec_pcieHotReset (port : Nat) (s : State) : exec (.pcieHotReset port) s = execPcieHotReset port s := rfl
theorem exec_pcieD3cold (s : State) : exec (.pcieD3cold) s = execPcieD3cold s := rfl
theorem exec_bootComplete (firmwareOk : Bool) (s : State) : exec (.bootComplete firmwareOk) s = execBootComplete firmwareOk s := rfl
theorem exec_registerWrite (w : RegWrite) (s : State) : exec (.registerWrite w) s = execRegisterWrite w s := rfl
theorem exec_linkRetrained (port : Nat) (s : State) : exec (.linkRetrained port) s = execLinkRetrained port s := rfl
theorem exec_portDown (port : Nat) (s : State) : exec (.portDown port) s = execPortDown port s := rfl

end Sys2Proof.Machine
end

