-- ==== Sys2Proof/Laws/Finish.lean ====
section
/-! SUPPORT. What the end of an issue leaves of the batch's fibres: the outcome of each, and of what else only barrier and span
arrivals can change. -/

namespace Sys2Proof.Machine

/-- A fibre without its arrivals at barriers, the hidden step barrier and the span barrier. -/
def Fibre.bare (x : Fibre) : Fibre := { x with barIn := 0, stepIn := false, sbarIn := false }

/-! ## Fibres by slot -/

theorem liveFrom_mem : ∀ (l : List (Option Fibre)) (n t : Nat) (x : Fibre), (t, x) ∈ liveFrom n l ↔ n ≤ t ∧ l[t - n]? = some (some x)
  | [], n, t, x => by simp [liveFrom]
  | none :: r, n, t, x => by
    simp only [liveFrom, liveFrom_mem r (n + 1) t x]
    constructor
    · rintro ⟨h1, h2⟩
      refine ⟨by omega, ?_⟩
      have : t - n = (t - (n + 1)) + 1 := by omega
      rw [this]; simpa using h2
    · rintro ⟨h1, h2⟩
      have hne : t ≠ n := by rintro rfl; simp at h2
      refine ⟨by omega, ?_⟩
      have : t - n = (t - (n + 1)) + 1 := by omega
      rw [this] at h2; simpa using h2
  | some y :: r, n, t, x => by
    simp only [liveFrom, List.mem_cons, Prod.mk.injEq, liveFrom_mem r (n + 1) t x]
    constructor
    · rintro (⟨rfl, rfl⟩ | ⟨h1, h2⟩)
      · simp
      · refine ⟨by omega, ?_⟩
        have : t - n = (t - (n + 1)) + 1 := by omega
        rw [this]; simpa using h2
    · rintro ⟨h1, h2⟩
      by_cases hne : t = n
      · subst hne; left; simp at h2; exact ⟨rfl, h2.symm⟩
      · right
        refine ⟨by omega, ?_⟩
        have : t - n = (t - (n + 1)) + 1 := by omega
        rw [this] at h2; simpa using h2

theorem Skein.mem_live (sk : Skein) (t : Nat) (x : Fibre) : (t, x) ∈ sk.live ↔ sk.fibre t = some x := by
  rw [Skein.live, liveFrom_mem, Skein.fibre]
  simp only [Nat.zero_le, Nat.sub_zero, true_and]
  cases h : sk.slots[t]? with
  | none => simp
  | some o => simp

theorem liveFrom_nodup : ∀ (l : List (Option Fibre)) (n : Nat), ((liveFrom n l).map (·.1)).Nodup ∧ ∀ t ∈ (liveFrom n l).map (·.1), n ≤ t
  | [], n => by simp [liveFrom]
  | none :: r, n => by
    have := liveFrom_nodup r (n + 1)
    refine ⟨this.1, fun t ht => ?_⟩
    have := this.2 t ht; omega
  | some y :: r, n => by
    have ih := liveFrom_nodup r (n + 1)
    simp only [liveFrom, List.map_cons, List.nodup_cons, List.mem_cons]
    refine ⟨⟨fun h => ?_, ih.1⟩, ?_⟩
    · have := ih.2 n h; omega
    · rintro t (rfl | ht)
      · exact Nat.le_refl _
      · have := ih.2 t ht; omega

theorem Skein.live_nodup (sk : Skein) : (sk.live.map (·.1)).Nodup := (liveFrom_nodup sk.slots 0).1

theorem Skein.fibre_mapFibres (sk : Skein) (f : Nat → Fibre → Fibre) (t : Nat) : (sk.mapFibres f).fibre t = (sk.fibre t).map (f t) := by
  simp only [Skein.fibre, Skein.mapFibres, List.getElem?_map, List.getElem?_zipIdx]
  cases sk.slots[t]? <;> simp

theorem State.fibreAt_modSkein_same (s : State) (g k t : Nat) (f : Skein → Skein) :
    (s.modSkein g k f).fibreAt g k t = (s.skein g k).bind fun sk => (f sk).fibre t := by
  simp [State.fibreAt, State.skein_modSkein_same, Option.bind_map]

theorem State.fibreAt_modSkein_other (s : State) (g k g' k' t : Nat) (f : Skein → Skein) (h : g' ≠ g ∨ k' ≠ k) :
    (s.modSkein g k f).fibreAt g' k' t = s.fibreAt g' k' t := by
  simp [State.fibreAt, State.skein_modSkein_other s g k g' k' f h]

theorem State.fibreAt_gangs {s t : State} (h : t.gangs = s.gangs) (g k n : Nat) : t.fibreAt g k n = s.fibreAt g k n := by
  simp [State.fibreAt, State.skein, State.gang, h]

/-! ## A fibre that waits for nothing keeps its place while what waits is settled -/

/-- In slot t of a skein stands the fibre z, but for arrivals. -/
def Skein.Holds (sk : Skein) (t : Nat) (z : Fibre) : Prop := ∃ y, sk.fibre t = some y ∧ y.bare = z.bare

/-- In slot t of skein k of a gang. -/
def Gang.Holds (g : Gang) (k t : Nat) (z : Fibre) : Prop := ∃ sk, g.skeins[k]? = some sk ∧ sk.Holds t z

/-- In slot t of skein k of the gang with a key. -/
def State.Holds (s : State) (gk k t : Nat) (z : Fibre) : Prop := ∃ g, s.gang gk = some g ∧ g.Holds k t z

theorem bare_wait {x z : Fibre} (h : x.bare = z.bare) : x.wait = z.wait := by
  have := congrArg Fibre.wait h
  exact this

theorem Skein.Holds.mapFibres {sk : Skein} {t : Nat} {z : Fibre} (h : sk.Holds t z) (f : Nat → Fibre → Fibre)
    (hf : ∀ x, x.bare = z.bare → (f t x).bare = z.bare) : (sk.mapFibres f).Holds t z := by
  obtain ⟨y, h1, h2⟩ := h
  exact ⟨f t y, by rw [Skein.fibre_mapFibres, h1]; rfl, hf y h2⟩

theorem Skein.Holds.settleJoin {sk : Skein} {t : Nat} {z : Fibre} (h : sk.Holds t z) (hz : z.wait = .none) (pc : W64) (pk : Bool) :
    (sk.settleJoin pc pk).Holds t z := by
  unfold Skein.settleJoin
  simp only
  split
  · refine h.mapFibres _ fun x hx => ?_
    have : x.wait = .none := (bare_wait hx).trans hz
    simp [this, hx]
  · exact h

theorem Skein.Holds.settleJoins {sk : Skein} {t : Nat} {z : Fibre} (h : sk.Holds t z) (hz : z.wait = .none) : sk.settleJoins.Holds t z := by
  have key : ∀ (l : List (W64 × Bool)) (sk : Skein), sk.Holds t z → (l.foldl (fun sk k => sk.settleJoin k.1 k.2) sk).Holds t z := by
    intro l
    induction l with
    | nil => intro sk h; exact h
    | cons a r ih => intro sk h; exact ih _ (h.settleJoin hz a.1 a.2)
  exact key _ sk h

theorem Gang.Holds.mapSkeins {g : Gang} {k t : Nat} {z : Fibre} (h : g.Holds k t z) (f : Skein → Skein)
    (hf : ∀ sk, sk.Holds t z → (f sk).Holds t z) : ({ g with skeins := g.skeins.map f } : Gang).Holds k t z := by
  obtain ⟨sk, h1, h2⟩ := h
  exact ⟨f sk, by simp [h1], hf sk h2⟩

theorem Gang.Holds.mapLive {g : Gang} {k t : Nat} {z : Fibre} (h : g.Holds k t z) (f : Fibre → Fibre)
    (hf : ∀ x, x.bare = z.bare → (f x).bare = z.bare) : (g.mapLive f).Holds k t z :=
  h.mapSkeins _ fun _ hs => hs.mapFibres _ hf

theorem bare_phaseDone {x z : Fibre} (hx : x.bare = z.bare) (hz : z.wait = .none) (b : Nat) : (x.phaseDone b).bare = z.bare := by
  have hw : x.wait = .none := (bare_wait hx).trans hz
  have hn : (x.phaseDone b) = { x with barIn := x.barIn - (if bitOf x.barIn b then 2 ^ b else 0) } := by
    simp [Fibre.phaseDone, hw]
  rw [hn]
  exact hx

theorem Gang.Holds.settleBarrier {k t : Nat} {z : Fibre} (hz : z.wait = .none) (b : Nat) : ∀ (fuel : Nat) {g : Gang},
    g.Holds k t z → (g.settleBarrier b fuel).Holds k t z
  | 0, _, h => h
  | fuel + 1, g, h => by
    unfold Gang.settleBarrier
    split
    · apply Gang.Holds.settleBarrier hz b fuel
      exact h.mapLive _ fun x hx => bare_phaseDone hx hz b
    · exact h

theorem Gang.Holds.settleBarriers {g : Gang} {k t : Nat} {z : Fibre} (h : g.Holds k t z) (hz : z.wait = .none) :
    g.settleBarriers.Holds k t z := by
  have key : ∀ (l : List Nat) (g : Gang), g.Holds k t z → (l.foldl (fun g b => g.settleBarrier b 3) g).Holds k t z := by
    intro l
    induction l with
    | nil => intro g h; exact h
    | cons a r ih => intro g h; exact ih _ (h.settleBarrier hz a 3)
  exact key _ g h

theorem Gang.Holds.settleStep {g : Gang} {k t : Nat} {z : Fibre} (h : g.Holds k t z) : g.settleStep.Holds k t z := by
  unfold Gang.settleStep
  split
  · exact h.mapLive _ fun x hx => hx
  · exact h

theorem State.Holds.of_gangs {s u : State} {gk k t : Nat} {z : Fibre} (h : s.Holds gk k t z) (he : u.gangs = s.gangs) : u.Holds gk k t z := by
  obtain ⟨g, h1, h2⟩ := h
  exact ⟨g, by rw [State.gang, he]; exact h1, h2⟩

theorem State.Holds.modGang {s : State} {gk k t : Nat} {z : Fibre} (h : s.Holds gk k t z) (j : Nat) (f : Gang → Gang)
    (hf : ∀ g, g.Holds k t z → (f g).Holds k t z) : (s.modGang j f).Holds gk k t z := by
  obtain ⟨g, h1, h2⟩ := h
  by_cases hj : gk = j
  · subst hj
    exact ⟨{ f g with key := gk }, by simp [h1], hf g h2⟩
  · exact ⟨g, by rw [State.gang_modGang_other s j gk f hj]; exact h1, h2⟩

theorem State.Holds.foldl {α : Type} {gk k t : Nat} {z : Fibre} (f : State → α → State)
    (hf : ∀ s a, s.Holds gk k t z → (f s a).Holds gk k t z) : ∀ (l : List α) {s : State}, s.Holds gk k t z → (l.foldl f s).Holds gk k t z
  | [], _, h => h
  | a :: r, s, h => State.Holds.foldl f hf r (hf s a h)

theorem State.Holds.settleSpan {s : State} {gk k t : Nat} {z : Fibre} (h : s.Holds gk k t z) (hz : z.wait = .none) (g : Gang) :
    (s.settleSpan g).Holds gk k t z := by
  unfold State.settleSpan
  simp only
  split
  · refine State.Holds.foldl _ (fun s h' hs => ?_) _ (h.of_gangs
      ((beside_ordMeet ..).trans (beside_foldl _ (fun s (h : Gang) => beside_acquireCaches s h.via 3) _ _)).gangs)
    refine hs.modGang _ _ fun y hy => ?_
    have := hy.mapLive (fun x =>
      let x := { x with sbarIn := false }
      if x.wait = .sbar then { x with wait := .none }.advance else x) (fun x hx => by
        have hw : x.wait = .none := (bare_wait hx).trans hz
        have hn : ¬ x.wait = .sbar := by rw [hw]; decide
        simp only [if_neg hn]
        exact hx)
    exact this
  · exact h

theorem beside_beginCut (s : State) (p : Nat) : Beside s (s.beginCut p) := by
  unfold State.beginCut
  simp only
  split
  · exact Beside.refl s
  · split
    · exact beside_modPart ..
    · exact (beside_modPart ..).trans (beside_writeRecord ..)

theorem beside_stepBoundary (s : State) (p g a b : Nat) : Beside s (s.stepBoundary p g a b) := by
  unfold State.stepBoundary
  simp only
  split
  · exact beside_beginCut ..
  · exact Beside.refl s

/-- Only grids, and what a step boundary sets off, change when a grid's step count is looked at. -/
theorem gangs_settleGridStep (s : State) (grid : Nat) : (s.settleGridStep grid).gangs = s.gangs := by
  unfold State.settleGridStep
  simp only
  split
  · rfl
  · split
    · exact (beside_stepBoundary ..).gangs
    · rfl

theorem gangs_traceBatch (s : State) (g : Gang) (k kind : Nat) (x : Fibre) (m : Mask) (d : W64) :
    (s.traceBatch g k kind x m d).gangs = s.gangs := (beside_trace ..).gangs

theorem foldl_gangs {α : Type} (f : State → α → State) (hf : ∀ s a, (f s a).gangs = s.gangs) : ∀ (l : List α) (s : State),
    (l.foldl f s).gangs = s.gangs
  | [], _ => rfl
  | a :: r, s => (foldl_gangs f hf r (f s a)).trans (hf s a)

theorem gangs_traceJoins (s : State) (key : Nat) : (s.traceJoins key).gangs = s.gangs := by
  unfold State.traceJoins
  split
  · rfl
  · refine foldl_gangs _ (fun s k => ?_) _ s
    split
    · rfl
    · exact foldl_gangs _ (fun s p => gangs_traceBatch ..) _ s

theorem gangs_traceFlow (s : State) (b : Batch) (every : List (Nat × Out)) : (s.traceFlow b every).gangs = s.gangs := by
  unfold State.traceFlow
  split
  · rfl
  · simp only
    split
    · split
      · split
        · exact gangs_traceBatch ..
        · rfl
      · split
        · exact (gangs_traceBatch ..).trans (gangs_traceBatch ..)
        · exact gangs_traceBatch ..
    · split
      · exact gangs_traceBatch ..
      · rfl

theorem Gang.Holds.mem_live {g : Gang} {k t : Nat} {z : Fibre} (h : g.Holds k t z) : ∃ y ∈ g.live, y.bare = z.bare := by
  obtain ⟨sk, h1, y, h2, h3⟩ := h
  refine ⟨y, ?_, h3⟩
  rw [Gang.live, List.mem_flatMap]
  refine ⟨sk, List.mem_of_getElem? h1, ?_⟩
  rw [List.mem_map]
  exact ⟨(t, y), (sk.mem_live t y).2 h2, rfl⟩

theorem Gang.Holds.anyLive {g : Gang} {k t : Nat} {z : Fibre} (h : g.Holds k t z) : g.anyLive = true := by
  obtain ⟨sk, h1, y, h2, _⟩ := h
  rw [Gang.anyLive, List.any_eq_true]
  refine ⟨sk, List.mem_of_getElem? h1, ?_⟩
  have := (sk.mem_live t y).2 h2
  cases hl : sk.live with
  | nil => rw [hl] at this; simp at this
  | cons a r => rfl

/-- A gang with a fibre that waits for nothing makes no migration request. -/
theorem resolveMigrate_of_holds {s : State} {gk k t : Nat} {z : Fibre} (h : s.Holds gk k t z) (hz : z.wait = .none) :
    s.resolveMigrate gk = s := by
  obtain ⟨g, h1, h2⟩ := h
  obtain ⟨y, hy1, hy2⟩ := h2.mem_live
  have hw : y.wait = .none := (bare_wait hy2).trans hz
  have hall : g.live.all (fun x => x.wait == .migrate) = false := by
    rw [List.all_eq_false]
    exact ⟨y, hy1, by simp [hw]⟩
  unfold State.resolveMigrate
  simp [h1, hall]

theorem State.Holds.settleGang {s : State} {gk k t : Nat} {z : Fibre} (h : s.Holds gk k t z) (hz : z.wait = .none) :
    (s.settleGang gk).Holds gk k t z := by
  have h0 : (s.traceJoins gk).Holds gk k t z := h.of_gangs (gangs_traceJoins s gk)
  have h1 := h0.modGang gk (fun g => ({ g with skeins := g.skeins.map Skein.settleJoins } : Gang).settleBarriers.settleStep) fun g hg =>
    ((hg.mapSkeins _ fun sk hs => hs.settleJoins hz).settleBarriers hz).settleStep
  unfold State.settleGang
  simp only
  generalize (s.traceJoins gk).modGang gk (fun g => ({ g with skeins := g.skeins.map Skein.settleJoins } : Gang).settleBarriers.settleStep) = s1 at h1 ⊢
  have h1' := h1
  obtain ⟨g, hg, hh⟩ := h1'
  rw [hg]
  simp only
  have h2 : ((s1.settleSpan g).settleGridStep g.grid).Holds gk k t z := (h1.settleSpan hz g).of_gangs (gangs_settleGridStep ..)
  split
  · exact h2
  · rw [if_pos hh.anyLive, resolveMigrate_of_holds h2 hz]
    exact h2

end Sys2Proof.Machine
end

