-- ==== Sys2Proof/Laws/PerInstr.lean ====
section
/-! SUPPORT. The family `Codec`, instruction by instruction: a well-formed instruction's word decodes to it (spec/06 R144 to R164). -/

namespace Sys2Proof.Laws.Codec

/-- A well-formed instruction decodes from its word; a step that is no instruction word has none. -/
def Statement (i : Instr) : Prop := i.wf = true → ∀ w, encode i = some w → decode w = .ok i

theorem of_v3 (op ty : Nat) (f : V3) (i : Instr) (ho : op < 64) (ht : ty < 4) (hb : buildV3 op ty f = some i)
    (he : encode i = some (V3.word op ty f)) : Statement i := by
  intro hwf w hw
  rw [← Option.some.inj (he.symm.trans hw), decode_v3 op ty f ho ht, hb, finish, if_pos ⟨rfl, hwf⟩]

theorem of_vi (op ty : Nat) (f : VI) (i : Instr) (ho : op < 64) (ht : ty < 4) (hb : buildVI op ty f = some i)
    (he : encode i = some (VI.word op ty f)) : Statement i := by
  intro hwf w hw
  rw [← Option.some.inj (he.symm.trans hw), decode_vi op ty f ho ht, hb, finish, if_pos ⟨rfl, hwf⟩]

theorem of_m (op : Nat) (f : MF) (i : Instr) (ho : op < 8) (hb : i.wf = true → buildM op f = some i)
    (he : encode i = some (MF.word op f)) : Statement i := by
  intro hwf w hw
  rw [← Option.some.inj (he.symm.trans hw), decode_m op f ho, hb hwf, finish, if_pos ⟨rfl, hwf⟩]

theorem of_c (op : Nat) (f : CF) (i : Instr) (ho : op < 256) (hb : buildC op f = some i)
    (he : encode i = some (CF.word op f)) : Statement i := by
  intro hwf w hw
  rw [← Option.some.inj (he.symm.trans hw), decode_c op f ho, hb, finish, if_pos ⟨rfl, hwf⟩]

theorem of_x (op : Nat) (f : XF) (i : Instr) (ho : op < 256) (hb : buildX op f = some i)
    (he : encode i = some (XF.word op f)) : Statement i := by
  intro hwf w hw
  rw [← Option.some.inj (he.symm.trans hw), decode_x op f ho, hb, finish, if_pos ⟨rfl, hwf⟩]

theorem of_s (op : Nat) (f : SF) (i : Instr) (ho : op < 256) (hn : op ≠ 0x27) (hb : buildS op f = some i)
    (he : encode i = some (SF.word op f)) : Statement i := by
  intro hwf w hw
  rw [← Option.some.inj (he.symm.trans hw), decode_s op f ho hn, hb, finish, if_pos ⟨rfl, hwf⟩]

theorem of_event (i : Instr) (he : encode i = none) : Statement i := by
  intro _ w hw
  exact absurd (he.symm.trans hw) (by simp)

theorem iadd (ty : IntTy) (f : V3) : Statement (.iadd ty f) :=
  of_v3 0 ty.code f _ (by decide) (by cases ty <;> decide) (by cases ty <;> rfl) rfl

theorem iaddImm (ty : IntTy) (f : VI) : Statement (.iaddImm ty f) :=
  of_vi 0 ty.code f _ (by decide) (by cases ty <;> decide) (by cases ty <;> rfl) rfl

theorem isub (ty : IntTy) (f : V3) : Statement (.isub ty f) :=
  of_v3 1 ty.code f _ (by decide) (by cases ty <;> decide) (by cases ty <;> rfl) rfl

theorem isubImm (ty : IntTy) (f : VI) : Statement (.isubImm ty f) :=
  of_vi 1 ty.code f _ (by decide) (by cases ty <;> decide) (by cases ty <;> rfl) rfl

theorem imul (ty : IntTy) (f : V3) : Statement (.imul ty f) :=
  of_v3 2 ty.code f _ (by decide) (by cases ty <;> decide) (by cases ty <;> rfl) rfl

theorem imulImm (ty : IntTy) (f : VI) : Statement (.imulImm ty f) :=
  of_vi 2 ty.code f _ (by decide) (by cases ty <;> decide) (by cases ty <;> rfl) rfl

theorem imulh (ty : IntTy) (f : V3) : Statement (.imulh ty f) :=
  of_v3 3 ty.code f _ (by decide) (by cases ty <;> decide) (by cases ty <;> rfl) rfl

theorem imulhImm (ty : IntTy) (f : VI) : Statement (.imulhImm ty f) :=
  of_vi 3 ty.code f _ (by decide) (by cases ty <;> decide) (by cases ty <;> rfl) rfl

theorem imad (ty : IntTy) (f : V3) : Statement (.imad ty f) :=
  of_v3 4 ty.code f _ (by decide) (by cases ty <;> decide) (by cases ty <;> rfl) rfl

theorem imadImm (ty : IntTy) (f : VI) : Statement (.imadImm ty f) :=
  of_vi 4 ty.code f _ (by decide) (by cases ty <;> decide) (by cases ty <;> rfl) rfl

theorem imadw (ty : IntTy) (f : V3) : Statement (.imadw ty f) :=
  of_v3 5 ty.code f _ (by decide) (by cases ty <;> decide) (by cases ty <;> rfl) rfl

theorem idiv (ty : IntTy) (f : V3) : Statement (.idiv ty f) :=
  of_v3 6 ty.code f _ (by decide) (by cases ty <;> decide) (by cases ty <;> rfl) rfl

theorem idivImm (ty : IntTy) (f : VI) : Statement (.idivImm ty f) :=
  of_vi 6 ty.code f _ (by decide) (by cases ty <;> decide) (by cases ty <;> rfl) rfl

theorem irem (ty : IntTy) (f : V3) : Statement (.irem ty f) :=
  of_v3 7 ty.code f _ (by decide) (by cases ty <;> decide) (by cases ty <;> rfl) rfl

theorem iremImm (ty : IntTy) (f : VI) : Statement (.iremImm ty f) :=
  of_vi 7 ty.code f _ (by decide) (by cases ty <;> decide) (by cases ty <;> rfl) rfl

theorem imin (ty : IntTy) (f : V3) : Statement (.imin ty f) :=
  of_v3 8 ty.code f _ (by decide) (by cases ty <;> decide) (by cases ty <;> rfl) rfl

theorem iminImm (ty : IntTy) (f : VI) : Statement (.iminImm ty f) :=
  of_vi 8 ty.code f _ (by decide) (by cases ty <;> decide) (by cases ty <;> rfl) rfl

theorem imax (ty : IntTy) (f : V3) : Statement (.imax ty f) :=
  of_v3 9 ty.code f _ (by decide) (by cases ty <;> decide) (by cases ty <;> rfl) rfl

theorem imaxImm (ty : IntTy) (f : VI) : Statement (.imaxImm ty f) :=
  of_vi 9 ty.code f _ (by decide) (by cases ty <;> decide) (by cases ty <;> rfl) rfl

theorem lea (ty : IntTy) (f : V3) : Statement (.lea ty f) :=
  of_v3 10 ty.code f _ (by decide) (by cases ty <;> decide) (by cases ty <;> rfl) rfl

theorem leaImm (ty : IntTy) (f : VI) : Statement (.leaImm ty f) :=
  of_vi 10 ty.code f _ (by decide) (by cases ty <;> decide) (by cases ty <;> rfl) rfl

theorem icmp (ty : IntTy) (f : V3) : Statement (.icmp ty f) :=
  of_v3 11 ty.code f _ (by decide) (by cases ty <;> decide) (by cases ty <;> rfl) rfl

theorem icmpImm (ty : IntTy) (f : VI) : Statement (.icmpImm ty f) :=
  of_vi 11 ty.code f _ (by decide) (by cases ty <;> decide) (by cases ty <;> rfl) rfl

theorem and (ty : BitTy) (f : V3) : Statement (.and ty f) :=
  of_v3 12 ty.code f _ (by decide) (by cases ty <;> decide) (by cases ty <;> rfl) rfl

theorem andImm (ty : BitTy) (f : VI) : Statement (.andImm ty f) :=
  of_vi 12 ty.code f _ (by decide) (by cases ty <;> decide) (by cases ty <;> rfl) rfl

theorem or (ty : BitTy) (f : V3) : Statement (.or ty f) :=
  of_v3 13 ty.code f _ (by decide) (by cases ty <;> decide) (by cases ty <;> rfl) rfl

theorem orImm (ty : BitTy) (f : VI) : Statement (.orImm ty f) :=
  of_vi 13 ty.code f _ (by decide) (by cases ty <;> decide) (by cases ty <;> rfl) rfl

theorem xor (ty : BitTy) (f : V3) : Statement (.xor ty f) :=
  of_v3 14 ty.code f _ (by decide) (by cases ty <;> decide) (by cases ty <;> rfl) rfl

theorem xorImm (ty : BitTy) (f : VI) : Statement (.xorImm ty f) :=
  of_vi 14 ty.code f _ (by decide) (by cases ty <;> decide) (by cases ty <;> rfl) rfl

theorem andn (ty : BitTy) (f : V3) : Statement (.andn ty f) :=
  of_v3 15 ty.code f _ (by decide) (by cases ty <;> decide) (by cases ty <;> rfl) rfl

theorem andnImm (ty : BitTy) (f : VI) : Statement (.andnImm ty f) :=
  of_vi 15 ty.code f _ (by decide) (by cases ty <;> decide) (by cases ty <;> rfl) rfl

theorem orn (ty : BitTy) (f : V3) : Statement (.orn ty f) :=
  of_v3 16 ty.code f _ (by decide) (by cases ty <;> decide) (by cases ty <;> rfl) rfl

theorem ornImm (ty : BitTy) (f : VI) : Statement (.ornImm ty f) :=
  of_vi 16 ty.code f _ (by decide) (by cases ty <;> decide) (by cases ty <;> rfl) rfl

theorem shl (ty : BitTy) (f : V3) : Statement (.shl ty f) :=
  of_v3 17 ty.code f _ (by decide) (by cases ty <;> decide) (by cases ty <;> rfl) rfl

theorem shlImm (ty : BitTy) (f : VI) : Statement (.shlImm ty f) :=
  of_vi 17 ty.code f _ (by decide) (by cases ty <;> decide) (by cases ty <;> rfl) rfl

theorem shr (ty : BitTy) (f : V3) : Statement (.shr ty f) :=
  of_v3 18 ty.code f _ (by decide) (by cases ty <;> decide) (by cases ty <;> rfl) rfl

theorem shrImm (ty : BitTy) (f : VI) : Statement (.shrImm ty f) :=
  of_vi 18 ty.code f _ (by decide) (by cases ty <;> decide) (by cases ty <;> rfl) rfl

theorem sar (ty : BitTy) (f : V3) : Statement (.sar ty f) :=
  of_v3 19 ty.code f _ (by decide) (by cases ty <;> decide) (by cases ty <;> rfl) rfl

theorem sarImm (ty : BitTy) (f : VI) : Statement (.sarImm ty f) :=
  of_vi 19 ty.code f _ (by decide) (by cases ty <;> decide) (by cases ty <;> rfl) rfl

theorem rotl (ty : BitTy) (f : V3) : Statement (.rotl ty f) :=
  of_v3 20 ty.code f _ (by decide) (by cases ty <;> decide) (by cases ty <;> rfl) rfl

theorem rotlImm (ty : BitTy) (f : VI) : Statement (.rotlImm ty f) :=
  of_vi 20 ty.code f _ (by decide) (by cases ty <;> decide) (by cases ty <;> rfl) rfl

theorem fshl (ty : BitTy) (f : V3) : Statement (.fshl ty f) :=
  of_v3 21 ty.code f _ (by decide) (by cases ty <;> decide) (by cases ty <;> rfl) rfl

theorem bfx (ty : BitTy) (f : V3) : Statement (.bfx ty f) :=
  of_v3 22 ty.code f _ (by decide) (by cases ty <;> decide) (by cases ty <;> rfl) rfl

theorem bfxImm (ty : BitTy) (f : VI) : Statement (.bfxImm ty f) :=
  of_vi 22 ty.code f _ (by decide) (by cases ty <;> decide) (by cases ty <;> rfl) rfl

theorem bfi (ty : BitTy) (f : V3) : Statement (.bfi ty f) :=
  of_v3 23 ty.code f _ (by decide) (by cases ty <;> decide) (by cases ty <;> rfl) rfl

theorem bfiImm (ty : BitTy) (f : VI) : Statement (.bfiImm ty f) :=
  of_vi 23 ty.code f _ (by decide) (by cases ty <;> decide) (by cases ty <;> rfl) rfl

theorem popc (ty : BitTy) (f : V3) : Statement (.popc ty f) :=
  of_v3 24 ty.code f _ (by decide) (by cases ty <;> decide) (by cases ty <;> rfl) rfl

theorem clz (ty : BitTy) (f : V3) : Statement (.clz ty f) :=
  of_v3 25 ty.code f _ (by decide) (by cases ty <;> decide) (by cases ty <;> rfl) rfl

theorem ctz (ty : BitTy) (f : V3) : Statement (.ctz ty f) :=
  of_v3 26 ty.code f _ (by decide) (by cases ty <;> decide) (by cases ty <;> rfl) rfl

theorem brev (ty : BitTy) (f : V3) : Statement (.brev ty f) :=
  of_v3 27 ty.code f _ (by decide) (by cases ty <;> decide) (by cases ty <;> rfl) rfl

theorem bperm (ty : BitTy) (f : V3) : Statement (.bperm ty f) :=
  of_v3 28 ty.code f _ (by decide) (by cases ty <;> decide) (by cases ty <;> rfl) rfl

theorem bpermImm (ty : BitTy) (f : VI) : Statement (.bpermImm ty f) :=
  of_vi 28 ty.code f _ (by decide) (by cases ty <;> decide) (by cases ty <;> rfl) rfl

theorem mov (ty : IntTy) (f : V3) : Statement (.mov ty f) :=
  of_v3 29 ty.code f _ (by decide) (by cases ty <;> decide) (by cases ty <;> rfl) rfl

theorem movImm (ty : IntTy) (f : VI) : Statement (.movImm ty f) :=
  of_vi 29 ty.code f _ (by decide) (by cases ty <;> decide) (by cases ty <;> rfl) rfl

theorem movh (ty : IntTy) (f : VI) : Statement (.movh ty f) :=
  of_vi 30 ty.code f _ (by decide) (by cases ty <;> decide) (by cases ty <;> rfl) rfl

theorem sel3 (ty : BitTy) (f : V3) : Statement (.sel3 ty f) :=
  of_v3 31 ty.code f _ (by decide) (by cases ty <;> decide) (by cases ty <;> rfl) rfl

theorem fadd (ty : FTy) (f : V3) : Statement (.fadd ty f) :=
  of_v3 32 ty.code f _ (by decide) (by cases ty <;> decide) (by cases ty <;> rfl) rfl

theorem faddImm (ty : FTy) (f : VI) : Statement (.faddImm ty f) :=
  of_vi 32 ty.code f _ (by decide) (by cases ty <;> decide) (by cases ty <;> rfl) rfl

theorem fmul (ty : FTy) (f : V3) : Statement (.fmul ty f) :=
  of_v3 33 ty.code f _ (by decide) (by cases ty <;> decide) (by cases ty <;> rfl) rfl

theorem fmulImm (ty : FTy) (f : VI) : Statement (.fmulImm ty f) :=
  of_vi 33 ty.code f _ (by decide) (by cases ty <;> decide) (by cases ty <;> rfl) rfl

theorem ffma (ty : FTy) (f : V3) : Statement (.ffma ty f) :=
  of_v3 34 ty.code f _ (by decide) (by cases ty <;> decide) (by cases ty <;> rfl) rfl

theorem ffmaImm (ty : FTy) (f : VI) : Statement (.ffmaImm ty f) :=
  of_vi 34 ty.code f _ (by decide) (by cases ty <;> decide) (by cases ty <;> rfl) rfl

theorem fmin (ty : FTy) (f : V3) : Statement (.fmin ty f) :=
  of_v3 35 ty.code f _ (by decide) (by cases ty <;> decide) (by cases ty <;> rfl) rfl

theorem fminImm (ty : FTy) (f : VI) : Statement (.fminImm ty f) :=
  of_vi 35 ty.code f _ (by decide) (by cases ty <;> decide) (by cases ty <;> rfl) rfl

theorem fmax (ty : FTy) (f : V3) : Statement (.fmax ty f) :=
  of_v3 36 ty.code f _ (by decide) (by cases ty <;> decide) (by cases ty <;> rfl) rfl

theorem fmaxImm (ty : FTy) (f : VI) : Statement (.fmaxImm ty f) :=
  of_vi 36 ty.code f _ (by decide) (by cases ty <;> decide) (by cases ty <;> rfl) rfl

theorem fdiv (ty : FTy) (f : V3) : Statement (.fdiv ty f) :=
  of_v3 37 ty.code f _ (by decide) (by cases ty <;> decide) (by cases ty <;> rfl) rfl

theorem fdivImm (ty : FTy) (f : VI) : Statement (.fdivImm ty f) :=
  of_vi 37 ty.code f _ (by decide) (by cases ty <;> decide) (by cases ty <;> rfl) rfl

theorem fsqrt (ty : FTy) (f : V3) : Statement (.fsqrt ty f) :=
  of_v3 38 ty.code f _ (by decide) (by cases ty <;> decide) (by cases ty <;> rfl) rfl

theorem frcp (ty : FTy) (f : V3) : Statement (.frcp ty f) :=
  of_v3 39 ty.code f _ (by decide) (by cases ty <;> decide) (by cases ty <;> rfl) rfl

theorem frsq (ty : FTy) (f : V3) : Statement (.frsq ty f) :=
  of_v3 40 ty.code f _ (by decide) (by cases ty <;> decide) (by cases ty <;> rfl) rfl

theorem fex2 (ty : FTy) (f : V3) : Statement (.fex2 ty f) :=
  of_v3 41 ty.code f _ (by decide) (by cases ty <;> decide) (by cases ty <;> rfl) rfl

theorem flg2 (ty : FTy) (f : V3) : Statement (.flg2 ty f) :=
  of_v3 42 ty.code f _ (by decide) (by cases ty <;> decide) (by cases ty <;> rfl) rfl

theorem fsinp (ty : FTy) (f : V3) : Statement (.fsinp ty f) :=
  of_v3 43 ty.code f _ (by decide) (by cases ty <;> decide) (by cases ty <;> rfl) rfl

theorem fcosp (ty : FTy) (f : V3) : Statement (.fcosp ty f) :=
  of_v3 44 ty.code f _ (by decide) (by cases ty <;> decide) (by cases ty <;> rfl) rfl

theorem frnd (ty : FTy) (f : V3) : Statement (.frnd ty f) :=
  of_v3 45 ty.code f _ (by decide) (by cases ty <;> decide) (by cases ty <;> rfl) rfl

theorem fscale (ty : FTy) (f : V3) : Statement (.fscale ty f) :=
  of_v3 46 ty.code f _ (by decide) (by cases ty <;> decide) (by cases ty <;> rfl) rfl

theorem fscaleImm (ty : FTy) (f : VI) : Statement (.fscaleImm ty f) :=
  of_vi 46 ty.code f _ (by decide) (by cases ty <;> decide) (by cases ty <;> rfl) rfl

theorem fclass (ty : FTy) (f : V3) : Statement (.fclass ty f) :=
  of_v3 47 ty.code f _ (by decide) (by cases ty <;> decide) (by cases ty <;> rfl) rfl

theorem fmant (ty : FTy) (f : V3) : Statement (.fmant ty f) :=
  of_v3 48 ty.code f _ (by decide) (by cases ty <;> decide) (by cases ty <;> rfl) rfl

theorem fexpo (ty : FTy) (f : V3) : Statement (.fexpo ty f) :=
  of_v3 49 ty.code f _ (by decide) (by cases ty <;> decide) (by cases ty <;> rfl) rfl

theorem fcmp (ty : FTy) (f : V3) : Statement (.fcmp ty f) :=
  of_v3 50 ty.code f _ (by decide) (by cases ty <;> decide) (by cases ty <;> rfl) rfl

theorem fcmpImm (ty : FTy) (f : VI) : Statement (.fcmpImm ty f) :=
  of_vi 50 ty.code f _ (by decide) (by cases ty <;> decide) (by cases ty <;> rfl) rfl

theorem cvt (f : V3) : Statement (.cvt f) :=
  of_v3 51 0 f _ (by decide) (by decide) rfl rfl

theorem cvtb (f : V3) : Statement (.cvtb f) :=
  of_v3 52 0 f _ (by decide) (by decide) rfl rfl

theorem pack2 (ty : HTy) (f : V3) : Statement (.pack2 ty f) :=
  of_v3 53 ty.code f _ (by decide) (by cases ty <;> decide) (by cases ty <;> rfl) rfl

theorem unpk (ty : HTy) (f : V3) : Statement (.unpk ty f) :=
  of_v3 54 ty.code f _ (by decide) (by cases ty <;> decide) (by cases ty <;> rfl) rfl

theorem ivmk (ty : IvTy) (f : V3) : Statement (.ivmk ty f) :=
  of_v3 55 ty.code f _ (by decide) (by cases ty <;> decide) (by cases ty <;> rfl) rfl

theorem ivmid (ty : IvTy) (f : V3) : Statement (.ivmid ty f) :=
  of_v3 56 ty.code f _ (by decide) (by cases ty <;> decide) (by cases ty <;> rfl) rfl

theorem ivwid (ty : IvTy) (f : V3) : Statement (.ivwid ty f) :=
  of_v3 57 ty.code f _ (by decide) (by cases ty <;> decide) (by cases ty <;> rfl) rfl

theorem ivhull (ty : IvTy) (f : V3) : Statement (.ivhull ty f) :=
  of_v3 58 ty.code f _ (by decide) (by cases ty <;> decide) (by cases ty <;> rfl) rfl

theorem ivisect (ty : IvTy) (f : V3) : Statement (.ivisect ty f) :=
  of_v3 59 ty.code f _ (by decide) (by cases ty <;> decide) (by cases ty <;> rfl) rfl

theorem ivsplit (ty : IvTy) (f : V3) : Statement (.ivsplit ty f) :=
  of_v3 60 ty.code f _ (by decide) (by cases ty <;> decide) (by cases ty <;> rfl) rfl

theorem ivmag (ty : IvTy) (f : V3) : Statement (.ivmag ty f) :=
  of_v3 61 ty.code f _ (by decide) (by cases ty <;> decide) (by cases ty <;> rfl) rfl

theorem ivmig (ty : IvTy) (f : V3) : Statement (.ivmig ty f) :=
  of_v3 62 ty.code f _ (by decide) (by cases ty <;> decide) (by cases ty <;> rfl) rfl

theorem ld (f : MF) : Statement (.ld f) :=
  of_m 0 f _ (by decide) (fun _ => rfl) rfl

theorem st (f : MF) : Statement (.st f) :=
  of_m 1 f _ (by decide) (fun _ => rfl) rfl

theorem ldiv (f : MF) : Statement (.ldiv f) :=
  of_m 2 f _ (by decide) (fun _ => rfl) rfl

theorem stiv (f : MF) : Statement (.stiv f) :=
  of_m 3 f _ (by decide) (fun _ => rfl) rfl

theorem atom (f : MF) : Statement (.atom f) :=
  of_m 4 f _ (by decide) (fun _ => rfl) rfl

theorem atomc (f : MF) : Statement (.atomc f) :=
  of_m 5 f _ (by decide) (fun _ => rfl) rfl

theorem red (f : MF) : Statement (.red f) :=
  of_m 6 f _ (by decide) (fun _ => rfl) rfl

theorem cachePref (f : MF) : Statement (.cachePref f) :=
  of_m 7 f _ (by decide) (fun h => by
    have hs : f.size.toNat = 0 := by
      simp only [Instr.wf, MF.okCache, Bool.and_eq_true, beq_iff_eq] at h
      exact h.1.1.1.2
    simp [buildM, hs]) rfl

theorem cacheCinv (f : MF) : Statement (.cacheCinv f) :=
  of_m 7 f _ (by decide) (fun h => by
    have hs : f.size.toNat = 1 := by
      simp only [Instr.wf, MF.okCache, Bool.and_eq_true, beq_iff_eq] at h
      exact h.1.1.1.2
    simp [buildM, hs]) rfl

theorem cacheCwb (f : MF) : Statement (.cacheCwb f) :=
  of_m 7 f _ (by decide) (fun h => by
    have hs : f.size.toNat = 2 := by
      simp only [Instr.wf, MF.okCache, Bool.and_eq_true, beq_iff_eq] at h
      exact h.1.1.1.2
    simp [buildM, hs]) rfl

theorem bra (f : CF) : Statement (.bra f) :=
  of_c 0 f _ (by decide) rfl rfl

theorem brx (f : CF) : Statement (.brx f) :=
  of_c 1 f _ (by decide) rfl rfl

theorem brdec (f : CF) : Statement (.brdec f) :=
  of_c 2 f _ (by decide) rfl rfl

theorem call (f : CF) : Statement (.call f) :=
  of_c 3 f _ (by decide) rfl rfl

theorem callx (f : CF) : Statement (.callx f) :=
  of_c 4 f _ (by decide) rfl rfl

theorem ret (f : CF) : Statement (.ret f) :=
  of_c 5 f _ (by decide) rfl rfl

theorem rmark (f : CF) : Statement (.rmark f) :=
  of_c 6 f _ (by decide) rfl rfl

theorem rjoin (f : CF) : Statement (.rjoin f) :=
  of_c 7 f _ (by decide) rfl rfl

theorem fnew (f : CF) : Statement (.fnew f) :=
  of_c 8 f _ (by decide) rfl rfl

theorem fend (f : CF) : Statement (.fend f) :=
  of_c 9 f _ (by decide) rfl rfl

theorem exit (f : CF) : Statement (.exit f) :=
  of_c 10 f _ (by decide) rfl rfl

theorem ivfork (f : CF) : Statement (.ivfork f) :=
  of_c 11 f _ (by decide) rfl rfl

theorem migrate (f : CF) : Statement (.migrate f) :=
  of_c 12 f _ (by decide) rfl rfl

theorem bar (f : CF) : Statement (.bar f) :=
  of_c 13 f _ (by decide) rfl rfl

theorem bara (f : CF) : Statement (.bara f) :=
  of_c 14 f _ (by decide) rfl rfl

theorem barw (f : CF) : Statement (.barw f) :=
  of_c 15 f _ (by decide) rfl rfl

theorem sbar (f : CF) : Statement (.sbar f) :=
  of_c 16 f _ (by decide) rfl rfl

theorem mma (f : XF) : Statement (.mma f) :=
  of_x 0 f _ (by decide) rfl rfl

theorem ldstat (f : XF) : Statement (.ldstat f) :=
  of_x 1 f _ (by decide) rfl rfl

theorem statrel (f : XF) : Statement (.statrel f) :=
  of_x 2 f _ (by decide) rfl rfl

theorem tzero (f : XF) : Statement (.tzero f) :=
  of_x 3 f _ (by decide) rfl rfl

theorem tcvt (f : XF) : Statement (.tcvt f) :=
  of_x 4 f _ (by decide) rfl rfl

theorem tget (f : XF) : Statement (.tget f) :=
  of_x 5 f _ (by decide) rfl rfl

theorem tstr (f : XF) : Statement (.tstr f) :=
  of_x 6 f _ (by decide) rfl rfl

theorem copy (f : XF) : Statement (.copy f) :=
  of_x 8 f _ (by decide) rfl rfl

theorem copym (f : XF) : Statement (.copym f) :=
  of_x 9 f _ (by decide) rfl rfl

theorem copyl (f : XF) : Statement (.copyl f) :=
  of_x 10 f _ (by decide) rfl rfl

theorem cfill (f : XF) : Statement (.cfill f) :=
  of_x 11 f _ (by decide) rfl rfl

theorem evpost (f : XF) : Statement (.evpost f) :=
  of_x 12 f _ (by decide) rfl rfl

theorem evpop (f : XF) : Statement (.evpop f) :=
  of_x 13 f _ (by decide) rfl rfl

theorem launch (f : XF) : Statement (.launch f) :=
  of_x 14 f _ (by decide) rfl rfl

theorem nop (f : SF) : Statement (.nop f) :=
  of_s 0 f _ (by decide) (by decide) rfl rfl

theorem pand (f : SF) : Statement (.pand f) :=
  of_s 1 f _ (by decide) (by decide) rfl rfl

theorem por (f : SF) : Statement (.por f) :=
  of_s 2 f _ (by decide) (by decide) rfl rfl

theorem pnot (f : SF) : Statement (.pnot f) :=
  of_s 3 f _ (by decide) (by decide) rfl rfl

theorem pxor (f : SF) : Statement (.pxor f) :=
  of_s 4 f _ (by decide) (by decide) rfl rfl

theorem pres (f : SF) : Statement (.pres f) :=
  of_s 5 f _ (by decide) (by decide) rfl rfl

theorem pmov (f : SF) : Statement (.pmov f) :=
  of_s 6 f _ (by decide) (by decide) rfl rfl

theorem shfl (f : SF) : Statement (.shfl f) :=
  of_s 16 f _ (by decide) (by decide) rfl rfl

theorem ballot (f : SF) : Statement (.ballot f) :=
  of_s 17 f _ (by decide) (by decide) rfl rfl

theorem vote (f : SF) : Statement (.vote f) :=
  of_s 18 f _ (by decide) (by decide) rfl rfl

theorem rdx (f : SF) : Statement (.rdx f) :=
  of_s 19 f _ (by decide) (by decide) rfl rfl

theorem scan (f : SF) : Statement (.scan f) :=
  of_s 20 f _ (by decide) (by decide) rfl rfl

theorem elect (f : SF) : Statement (.elect f) :=
  of_s 21 f _ (by decide) (by decide) rfl rfl

theorem fence (f : SF) : Statement (.fence f) :=
  of_s 32 f _ (by decide) (by decide) rfl rfl

theorem mwait (f : SF) : Statement (.mwait f) :=
  of_s 33 f _ (by decide) (by decide) rfl rfl

theorem mtest (f : SF) : Statement (.mtest f) :=
  of_s 34 f _ (by decide) (by decide) rfl rfl

theorem rwrite (f : SF) : Statement (.rwrite f) :=
  of_s 35 f _ (by decide) (by decide) rfl rfl

theorem arrwait (f : SF) : Statement (.arrwait f) :=
  of_s 36 f _ (by decide) (by decide) rfl rfl

theorem qpush (f : SF) : Statement (.qpush f) :=
  of_s 37 f _ (by decide) (by decide) rfl rfl

theorem qpop (f : SF) : Statement (.qpop f) :=
  of_s 38 f _ (by decide) (by decide) rfl rfl

theorem rdctr (f : SF) : Statement (.rdctr f) :=
  of_s 40 f _ (by decide) (by decide) rfl rfl

theorem bankcfg (f : SF) : Statement (.bankcfg f) :=
  of_s 41 f _ (by decide) (by decide) rfl rfl

theorem gets (f : SF) : Statement (.gets f) :=
  of_s 48 f _ (by decide) (by decide) rfl rfl

theorem sets (f : SF) : Statement (.sets f) :=
  of_s 49 f _ (by decide) (by decide) rfl rfl

theorem trap (f : SF) : Statement (.trap f) :=
  of_s 50 f _ (by decide) (by decide) rfl rfl

theorem eret (f : SF) : Statement (.eret f) :=
  of_s 51 f _ (by decide) (by decide) rfl rfl

theorem bkpt (f : SF) : Statement (.bkpt f) :=
  of_s 52 f _ (by decide) (by decide) rfl rfl

theorem emret (f : SF) : Statement (.emret f) :=
  of_s 53 f _ (by decide) (by decide) rfl rfl

theorem yield (f : SF) : Statement (.yield f) :=
  of_s 54 f _ (by decide) (by decide) rfl rfl

theorem step (f : SF) : Statement (.step f) :=
  of_s 55 f _ (by decide) (by decide) rfl rfl

theorem ckpt (f : SF) : Statement (.ckpt f) :=
  of_s 56 f _ (by decide) (by decide) rfl rfl

theorem wvload (f : SF) : Statement (.wvload f) :=
  of_s 57 f _ (by decide) (by decide) rfl rfl

theorem wvbind (f : SF) : Statement (.wvbind f) :=
  of_s 58 f _ (by decide) (by decide) rfl rfl

theorem swapctx (f : SF) : Statement (.swapctx f) :=
  of_s 59 f _ (by decide) (by decide) rfl rfl

theorem waitc (f : WaitcF) : Statement (.waitc f) := by
  intro hwf w hw
  rw [← Option.some.inj hw, decode_waitc, finish, if_pos ⟨rfl, hwf⟩]

theorem guestDecode : Statement .guestDecode :=
  of_event _ rfl

theorem loadComplete (e : EntryId) (slots : BitVec 64) : Statement (.loadComplete e slots) :=
  of_event _ rfl

theorem storePerformed (e : EntryId) (slots : BitVec 64) : Statement (.storePerformed e slots) :=
  of_event _ rfl

theorem portAccept (e : EntryId) : Statement (.portAccept e) :=
  of_event _ rfl

theorem writeAck (e : EntryId) : Statement (.writeAck e) :=
  of_event _ rfl

theorem tagRetire (tag : BitVec 64) : Statement (.tagRetire tag) :=
  of_event _ rfl

theorem tileOpStart (c : CoreId) : Statement (.tileOpStart c) :=
  of_event _ rfl

theorem tilePanelUnit (c : CoreId) : Statement (.tilePanelUnit c) :=
  of_event _ rfl

theorem copyCommandStart (cluster : Nat) : Statement (.copyCommandStart cluster) :=
  of_event _ rfl

theorem copyBurst (cluster channel : Nat) : Statement (.copyBurst cluster channel) :=
  of_event _ rfl

theorem rwriteArrival (e : EntryId) : Statement (.rwriteArrival e) :=
  of_event _ rfl

theorem sbarArrival (e : EntryId) : Statement (.sbarArrival e) :=
  of_event _ rfl

theorem monitorWake (e : EntryId) (slot : Nat) : Statement (.monitorWake e slot) :=
  of_event _ rfl

theorem monitorReread (e : EntryId) (slot : Nat) : Statement (.monitorReread e slot) :=
  of_event _ rfl

theorem migrationMove (gang : Nat) : Statement (.migrationMove gang) :=
  of_event _ rfl

theorem queueDoorbell (world queue : Nat) (v : BitVec 64) : Statement (.queueDoorbell world queue v) :=
  of_event _ rfl

theorem qctlWrite (world queue : Nat) (v : BitVec 64) : Statement (.qctlWrite world queue v) :=
  of_event _ rfl

theorem packetNop (world queue : Nat) : Statement (.packetNop world queue) :=
  of_event _ rfl

theorem packetLaunch (world queue : Nat) : Statement (.packetLaunch world queue) :=
  of_event _ rfl

theorem packetCopy (world queue : Nat) : Statement (.packetCopy world queue) :=
  of_event _ rfl

theorem packetFence (world queue : Nat) : Statement (.packetFence world queue) :=
  of_event _ rfl

theorem packetSignal (world queue : Nat) : Statement (.packetSignal world queue) :=
  of_event _ rfl

theorem packetEvent (world queue : Nat) : Statement (.packetEvent world queue) :=
  of_event _ rfl

theorem packetHandle (world queue : Nat) : Statement (.packetHandle world queue) :=
  of_event _ rfl

theorem fenceCounterWake (world queue : Nat) : Statement (.fenceCounterWake world queue) :=
  of_event _ rfl

theorem gridComplete (grid : Nat) : Statement (.gridComplete grid) :=
  of_event _ rfl

theorem spanPlacement (grid span cluster : Nat) (cores : List Nat) : Statement (.spanPlacement grid span cluster cores) :=
  of_event _ rfl

theorem spawnRefill (gang : Nat) : Statement (.spawnRefill gang) :=
  of_event _ rfl

theorem skeinMoveIn (c : CoreId) : Statement (.skeinMoveIn c) :=
  of_event _ rfl

theorem forcedRotation (c : CoreId) : Statement (.forcedRotation c) :=
  of_event _ rfl

theorem compaction (c : CoreId) : Statement (.compaction c) :=
  of_event _ rfl

theorem relocation (grid span cluster : Nat) : Statement (.relocation grid span cluster) :=
  of_event _ rfl

theorem forwardExpiry (cluster : Nat) : Statement (.forwardExpiry cluster) :=
  of_event _ rfl

theorem heldPostEnter (cluster world : Nat) : Statement (.heldPostEnter cluster world) :=
  of_event _ rfl

theorem switchRequestServe (cluster : Nat) : Statement (.switchRequestServe cluster) :=
  of_event _ rfl

theorem cswctlGo (world : Nat) (v : BitVec 64) : Statement (.cswctlGo world v) :=
  of_event _ rfl

theorem freezePoint (ctx : Nat) : Statement (.freezePoint ctx) :=
  of_event _ rfl

theorem wfreezeGo (w : RegWrite) : Statement (.wfreezeGo w) :=
  of_event _ rfl

theorem wfreezeResume (w : RegWrite) : Statement (.wfreezeResume w) :=
  of_event _ rfl

theorem parkedCompletion (c : Completion) : Statement (.parkedCompletion c) :=
  of_event _ rfl

theorem checkpointTimer (partition : Nat) : Statement (.checkpointTimer partition) :=
  of_event _ rfl

theorem checkpointCut (partition : Nat) : Statement (.checkpointCut partition) :=
  of_event _ rfl

theorem shadowCopy (partition frame : Nat) : Statement (.shadowCopy partition frame) :=
  of_event _ rfl

theorem drainFrame (partition : Nat) (failure : Option (BitVec 8)) : Statement (.drainFrame partition failure) :=
  of_event _ rfl

theorem ckptcfgWrite (w : RegWrite) : Statement (.ckptcfgWrite w) :=
  of_event _ rfl

theorem ckptack (w : RegWrite) : Statement (.ckptack w) :=
  of_event _ rfl

theorem atsTranslationCompletion (world : Nat) (page : Nat) (frame : Nat) (rd wr : Bool) : Statement (.atsTranslationCompletion world page frame rd wr) :=
  of_event _ rfl

theorem pageRequestResponse (world : Nat) (page : Nat) (ok : Bool) : Statement (.pageRequestResponse world page ok) :=
  of_event _ rfl

theorem atsInvalidation (world : Nat) (first last : Nat) : Statement (.atsInvalidation world first last) :=
  of_event _ rfl

theorem atomicopCompletion (c : Completion) : Statement (.atomicopCompletion c) :=
  of_event _ rfl

theorem hostAtomicDone (world : Nat) (v : BitVec 64) : Statement (.hostAtomicDone world v) :=
  of_event _ rfl

theorem completerError (e : EntryId) (slot : Nat) : Statement (.completerError e slot) :=
  of_event _ rfl

theorem requestTimeout (e : EntryId) (slot : Nat) : Statement (.requestTimeout e slot) :=
  of_event _ rfl

theorem peerUnreachable (partition peer : Nat) : Statement (.peerUnreachable partition peer) :=
  of_event _ rfl

theorem pcieLinkDown (port : Nat) : Statement (.pcieLinkDown port) :=
  of_event _ rfl

theorem incomingPortRequest (r : PortRequest) : Statement (.incomingPortRequest r) :=
  of_event _ rfl

theorem linkSessionRekey (port : Nat) : Statement (.linkSessionRekey port) :=
  of_event _ rfl

theorem bounceDoorbell (world channel : Nat) (v : BitVec 64) : Statement (.bounceDoorbell world channel v) :=
  of_event _ rfl

theorem bounceResync (world channel : Nat) (v : BitVec 64) : Statement (.bounceResync world channel v) :=
  of_event _ rfl

theorem bounceSlotLand (world channel : Nat) : Statement (.bounceSlotLand world channel) :=
  of_event _ rfl

theorem xinvGo (w : RegWrite) : Statement (.xinvGo w) :=
  of_event _ rfl

theorem xinvComplete (partition : Nat) : Statement (.xinvComplete partition) :=
  of_event _ rfl

theorem wvhctlGo (w : RegWrite) : Statement (.wvhctlGo w) :=
  of_event _ rfl

theorem eiscfgWrite (w : RegWrite) : Statement (.eiscfgWrite w) :=
  of_event _ rfl

theorem dutycfgWrite (w : RegWrite) : Statement (.dutycfgWrite w) :=
  of_event _ rfl

theorem pwrlimWrite (w : RegWrite) : Statement (.pwrlimWrite w) :=
  of_event _ rfl

theorem ps2Request (w : RegWrite) : Statement (.ps2Request w) :=
  of_event _ rfl

theorem ps0Request (w : RegWrite) : Statement (.ps0Request w) :=
  of_event _ rfl

theorem ps2Exit (partition : Nat) : Statement (.ps2Exit partition) :=
  of_event _ rfl

theorem ps1Entry (cluster : Nat) : Statement (.ps1Entry cluster) :=
  of_event _ rfl

theorem partcfgWrite (w : RegWrite) : Statement (.partcfgWrite w) :=
  of_event _ rfl

theorem ecccntClear (w : RegWrite) : Statement (.ecccntClear w) :=
  of_event _ rfl

theorem ctrselWrite (w : RegWrite) : Statement (.ctrselWrite w) :=
  of_event _ rfl

theorem traceClaim (cluster : Nat) (party : Option Nat) : Statement (.traceClaim cluster party) :=
  of_event _ rfl

theorem traceRelease (cluster : Nat) (party : Option Nat) : Statement (.traceRelease cluster party) :=
  of_event _ rfl

theorem traceSample (c : CoreId) (leaf : Nat) : Statement (.traceSample c leaf) :=
  of_event _ rfl

theorem dbggo (w : RegWrite) : Statement (.dbggo w) :=
  of_event _ rfl

theorem debugScrubDone : Statement .debugScrubDone :=
  of_event _ rfl

theorem tdispMessage (world : Nat) (m : TdispMsg) : Statement (.tdispMessage world m) :=
  of_event _ rfl

theorem modelKeyDelivery (world : Nat) (key : BitVec 128) : Statement (.modelKeyDelivery world key) :=
  of_event _ rfl

theorem spdmRequest (world : Nat) (index : Nat) : Statement (.spdmRequest world index) :=
  of_event _ rfl

theorem clockRelock (die : Nat) (kind : CoreKind) (mhz : Nat) : Statement (.clockRelock die kind mhz) :=
  of_event _ rfl

theorem coldReset : Statement .coldReset :=
  of_event _ rfl

theorem warmReset (scrub : Bool) : Statement (.warmReset scrub) :=
  of_event _ rfl

theorem partitionReset (partition : Nat) : Statement (.partitionReset partition) :=
  of_event _ rfl

theorem functionLevelReset (world : Nat) : Statement (.functionLevelReset world) :=
  of_event _ rfl

theorem pcieHotReset (port : Nat) : Statement (.pcieHotReset port) :=
  of_event _ rfl

theorem pcieD3cold : Statement .pcieD3cold :=
  of_event _ rfl

theorem bootComplete (firmwareOk : Bool) : Statement (.bootComplete firmwareOk) :=
  of_event _ rfl

theorem registerWrite (w : RegWrite) : Statement (.registerWrite w) :=
  of_event _ rfl

theorem notAnInstruction (w : BitVec 64) : Statement (.notAnInstruction w) :=
  of_event _ rfl

theorem instructionFetchFault (code : FaultCode) (addr : BitVec 64) : Statement (.instructionFetchFault code addr) :=
  of_event _ rfl

theorem packetUnknownType (world queue : Nat) : Statement (.packetUnknownType world queue) :=
  of_event _ rfl

theorem ldstatFillDone (c : CoreId) : Statement (.ldstatFillDone c) :=
  of_event _ rfl

theorem multiClockResultWritten (gang skein slot : Nat) : Statement (.multiClockResultWritten gang skein slot) :=
  of_event _ rfl

theorem linkRetrained (port : Nat) : Statement (.linkRetrained port) :=
  of_event _ rfl

theorem portDown (port : Nat) : Statement (.portDown port) :=
  of_event _ rfl

end Sys2Proof.Laws.Codec
end

