-- ==== Sys2Proof/Tests/Base.lean ====
section
/-! SUPPORT. Small states for the tests, and the means to say that an instruction is ready in one of them. -/

namespace Sys2Proof.Tests

open Sys2Proof Sys2Proof.Machine

/-! ## Headers and words with plain fields -/

/-- An unguarded word with `B` set, as canonical code needs it. -/
def h0 : Hdr := ⟨true, ⟨.always, 0⟩⟩

/-- A V3 word without modifiers. -/
def v3 (dst sa sb sc : Reg) : V3 := ⟨h0, dst, sa, sb, sc, false, false, false, false, false, false, false, 0, false, false⟩

/-- A VI word without modifiers. -/
def vi (dst sa : Reg) (imm : BitVec 24) : VI := ⟨h0, dst, sa, imm, false, false, false, false⟩

/-- A memory word: no index, offset or hint, plain. -/
def mf (space : Space) (size : BitVec 3) (data base : Reg) (scope : Scope) : MF := ⟨h0, space, size, data, base, 0, 0, 0, scope, .plain, false⟩

def cf (ca cb : Reg) (off : BitVec 26) (cfl : BitVec 3) : CF := ⟨h0, ca, cb, off, cfl⟩

def xf (a b c : Reg) (lo : BitVec 20) : XF := ⟨h0, a, b, c, lo⟩

def sf (dst sa sb : Reg) (imm : BitVec 16) (sub : BitVec 5) : SF := ⟨h0, dst, sa, sb, imm, sub⟩

/-! ## States -/

/-- The fibres of `placeWord`'s gang: the same fibre again in slots 0 to n - 1, each as x makes it. -/
def fibres (n : Nat) (x : Nat → Fibre → Fibre) : List Fibre :=
  (List.range n).map fun t => x t (Fibre.fresh (2 + t) 64 (BitVec.ofNat 64 bootPc) 0 0 0)

/-- One gang of world 0 at issue: after reset and `placeWord`, with n fibres as x makes them, on a rand core. -/
def rand (n : Nat) (x : Nat → Fibre → Fibre) (g : Gang → Gang := id) (f : Skein → Skein := id) (u : State → State := id) : State :=
  let s := State.reset.placeWord 0
  u { s with
    boot := 1, nextKey := 100, agenda := [], issue := some ⟨1, 0, List.range n⟩
    gangs := s.gangs.map fun y => g { y with skeins := y.skeins.map fun _ => f (Skein.fresh 32 0 0 true (fibres n x)) } }

/-- The same on a handle-core thread. -/
def handle (x : Fibre → Fibre) (u : State → State := id) : State :=
  let s := State.reset.placeWord 0
  u { s with
    boot := 1, nextKey := 100, agenda := [], issue := some ⟨1, 0, [0]⟩
    gangs := [{ Gang.fresh 1 .handle 0 1 1 0 64 with skeins := [Skein.fresh 1 0 0 true (fibres 1 fun _ => x)] }] }

/-- One fibre with nothing special about it. -/
def plain : State := rand 1 fun _ x => x

/-- Bytes put into device memory from address a on (a multiple of 128), readable by world 0. -/
def withBytes (a : Nat) (bs : List Byte) (s : State) : State :=
  { s with
    mem := s.mem.writeBytes a bs
    owners := (List.range ((bs.length + 127) / 128)).foldl (fun o l => tset o (a / 128 + l) ⟨0, s.keyOf 0⟩) s.owners }

/-- A launch descriptor: one span of one gang of one fibre. -/
def launchBytes : List Byte :=
  bytesOf 8 0x10000 ++ bytesOf 8 0 ++ bytesOf 8 0 ++ bytesOf 4 0 ++ [32, 64, 0, 0, 1, 1, 0, 0] ++ bytesOf 4 1 ++ bytesOf 4 1 ++ bytesOf 4 1 ++ bytesOf 4 1 ++
    bytesOf 4 0 ++ bytesOf 4 0 ++ bytesOf 4 0 ++ bytesOf 8 0 ++ bytesOf 8 0x1234 ++ List.replicate 176 0

/-! ## Ready -/

/-- The instruction is ready, some fibre's guard passes, and the batch is as P says. -/
def readyP (P : Batch → Bool) (s : State) (i : Instr) : Bool :=
  match s.batch with
  | none => false
  | some (b, _) =>
    (s.stage1All b (needOf i)).isNone && !(b.passing i).isEmpty && P b &&
      (b.passing i).all fun p => (b.sk.consumes i p.2).isEmpty && (poisonedSource (needOf i) (b.low p.2) p.2).isNone

/-- The instruction is ready and some fibre's guard passes. -/
abbrev readyB (s : State) (i : Instr) : Bool := readyP (fun _ => true) s i

theorem ready_of {P : Batch → Bool} {s : State} {i : Instr} (h : readyP P s i = true) :
    ∃ b r, Ready s i b r ∧ b.passing i ≠ [] ∧ P b = true := by
  unfold readyP at h
  split at h
  · cases h
  · rename_i b r hb
    simp only [Bool.and_eq_true, Option.isNone_iff_eq_none, Bool.not_eq_true', List.isEmpty_eq_false_iff, List.all_eq_true,
      List.isEmpty_iff] at h
    exact ⟨b, r, ⟨hb, h.1.1.1, fun p hp => (h.2 p hp).1, fun p hp => (h.2 p hp).2⟩, h.1.1.2, h.1.2⟩

/-- Every word of the list is well formed, and ready in the state for a batch as P says. -/
def ReadyWith (P : Batch → Bool) (s : State) (l : List Instr) : Prop :=
  ∀ i ∈ l, i.wf = true ∧ ∃ b r, Ready s i b r ∧ b.passing i ≠ [] ∧ P b = true

theorem ready_with {P : Batch → Bool} {s : State} {l : List Instr} (h : (l.all fun i => i.wf && readyP P s i) = true) : ReadyWith P s l :=
  fun i hi => by
    have h1 := List.all_eq_true.mp h i hi
    rw [Bool.and_eq_true] at h1
    exact ⟨h1.1, ready_of h1.2⟩

/-- Every word of the list is well formed and ready in the state. -/
abbrev ReadyAll (s : State) (l : List Instr) : Prop := ReadyWith (fun _ => true) s l

end Sys2Proof.Tests
end

