-- ==== Sys2Proof/Tests/Events.lean ====
section
/-! SUPPORT. For each statement with hypotheses, states and operands that meet them: the statements about the steps around the cores. -/

namespace Sys2Proof.Tests

open Sys2Proof Sys2Proof.Machine Sys2Proof.Says

set_option maxRecDepth 100000
set_option Elab.async false

/-! ## Operations in flight -/

/-- Scratch bank 0 and FIFO bank 1 of world 0 in cluster 0, and a line of device memory at 0x20000 that world 0 wrote. -/
def around (s : State) : State :=
  { s with
    issue := none
    clusters := [(0, { Cluster.reset with banks := [(0, { Bank.reset with mode := .scratch }), (1, { Bank.reset with mode := .fifo })] })]
    mem := s.mem.writeBytes 0x20000 [1, 2, 3, 4]
    owners := tset s.owners 0x400 ⟨0, s.keyOf 0⟩ }

/-- A part in device memory, in scratch, or at a port. -/
def devPart (n : Nat) : Part := ⟨.dev, 0x20000, n, false, false, false, false, 0, 0, 0⟩
def scratchPart (n : Nat) : Part := ⟨.scratch 0, 0x100, n, false, false, false, false, 0, 0, 0⟩
def hostPart (n : Nat) : Part := ⟨.host, 0x9000, n, false, false, false, false, 1, 0x7000, 0⟩

/-- The operation of the fibre in slot t of `rand`'s skein. -/
def opOf (t : Nat) (ps : List Part) (st : Stage) : SlotOp := ⟨t, 2 + t, 20, 0x20000, ps, 0x1234, 0, st, 0, [], false⟩

/-- An entry with the sequence number 7 and the tag 0x77. -/
def entryOf (kind size : Nat) (ops : List SlotOp) : Entry :=
  { seq := 7, kind := kind, cls := 0, iopx := 0, scope := 2, acquire := false, release := false, rnd := 0, stampw := false, portacc := false,
    acked := true, prog := 0, pc := 0, mask := 0, tag := 0x77, dst := 0, size := size, aop := 0, aux := 0, one := false, cmpl := false, ops := ops, copies := [], tile := none }

/-- Two fibres with one entry in flight. -/
def inFlight (e : Entry) (sk : Skein → Skein := id) (u : State → State := id) : State :=
  rand 2 (fun _ x => x) id (fun k => sk { k with record := [e], nextSeq := 8, l := 1, s := 1, c := 1, t := 1, ackc := 1 }) fun s => u (around s)

/-- The entry of that number. -/
def e7 : EntryId := ⟨1, 0, 7⟩

/-- The name stands for an entry, and P holds of its gang, skein and itself. -/
def named (s : State) (id : EntryId) (P : Gang → Skein → Entry → Bool) : Bool :=
  match s.gang id.gang with
  | none => false
  | some g =>
    match g.skeins[id.skein]? with
    | none => false
    | some sk =>
      match sk.record.find? (fun e => e.seq == id.seq) with
      | none => false
      | some e => !g.frozen && P g sk e

theorem named_of {s : State} {id : EntryId} {P : Gang → Skein → Entry → Bool} (h : named s id P = true) :
    ∃ g sk e, Named s id g sk e ∧ P g sk e = true := by
  unfold named at h
  split at h
  · cases h
  · rename_i g hg
    split at h
    · cases h
    · rename_i sk hk
      split at h
      · cases h
      · rename_i e he
        simp only [Bool.and_eq_true, Bool.not_eq_true'] at h
        exact ⟨g, sk, e, ⟨hg, h.1, hk, he⟩, h.2⟩

/-- A name with what a statement asks of it, for each state of a list. -/
def NamedWith (l : List State) (P : State → Gang → Skein → Entry → Bool) : Prop :=
  ∀ s ∈ l, ∃ g sk e, Named s e7 g sk e ∧ P s g sk e = true

theorem named_with {l : List State} {P : State → Gang → Skein → Entry → Bool} (h : (l.all fun s => named s e7 (P s)) = true) : NamedWith l P :=
  fun s hs => named_of (List.all_eq_true.mp h s hs)

/-- A load of one slot of two, of device memory and of scratch, and the last load of an entry; LDIV of a point of each format; one access for two
fibres. -/
theorem witness_LoadsComplete :
    NamedWith [inFlight { entryOf 1 4 [opOf 0 [devPart 4] .sent, opOf 1 [devPart 4] .sent] with one := true }, inFlight (entryOf 1 4 [opOf 0 [devPart 4] .sent, opOf 1 [scratchPart 4] .sent]), inFlight (entryOf 1 4 [opOf 0 [scratchPart 4] .sent, opOf 1 [] .done]),
        inFlight { entryOf 2 4 [opOf 0 [devPart 4] .sent] with aop := 2 }, inFlight { entryOf 2 8 [opOf 0 [devPart 8] .sent] with aop := 5 }]
      fun s g sk e => decide (g.ended = false ∧ e.cls ≠ 1 ∧ (e.kind = 1 ∨ e.kind = 2) ∧ (e.ops.map (·.slot)).Nodup) && (match e.ops.find? (fun q => q.slot == 0) with
        | some o => decide (o.stage = .sent ∧ o.cmp = 0 ∧ (e.one = true → ∀ q ∈ e.ops, q.stage ≠ .sent ∨ sk.mayPerform e q = true)) &&
            sk.mayPerform e o && !s.heldByFrame g e o &&
            (match s.performOp e7 g e o with | .ok _ => true | .error _ => false)
        | none => false) := named_with (by decide +kernel)

/-- A store to device memory, to scratch, and to host memory; one of two slots and the last of an entry. -/
theorem witness_StoresArePerformed :
    NamedWith [inFlight (entryOf 3 4 [opOf 0 [devPart 4] .sent, opOf 1 [devPart 4] .sent]), inFlight (entryOf 4 16 [opOf 0 [scratchPart 16] .sent, opOf 1 [] .done]),
        inFlight { entryOf 3 1 [opOf 0 [hostPart 1] .sent] with portacc := true, acked := false }]
      fun s g sk e => (match e.ops.find? (fun q => q.slot == 0) with
        | some o => (match o.parts with
          | [p] => decide (g.ended = false ∧ (e.kind = 3 ∨ e.kind = 4) ∧ o.stage = .sent ∧ o.got = [] ∧ o.near = false ∧ p.len = e.size ∧ 0 < e.size ∧
              p.home ≠ .devreg ∧ s.tagsFit e o = true ∧ e.one = false ∧
              (p.home = .dev → p.cached = false ∧ s.firstBadLine (s.worldOf g) (linesOf p.addr p.len) = none ∧
                (g.kind = .stake → (s.core g.coreNo).cache = [])) ∧
              (p.port = true → e.portacc = true ∧ s.portLost (s.worldOf g) p = false) ∧ sk.mayPerform e o = true ∧ s.heldByFrame g e o = false ∧
              (e.release = true ∨ e.acquire = true → e.scope < 4) ∧ s.checking (s.partOfCluster g.cluster) = false ∧
              (e.cls = 1 → findTag s.tags e.tag 0 o.va = none) ∧ (∀ c ∈ s.ctxs, c.st ≠ .running → findGang c.saved 1 = none) ∧
              (homeBytes s p.home).wf = true)
          | _ => false)
        | none => false) := named_with (by decide +kernel)

/-- A write at a port that is accepted, then acknowledged; a tag that an entry carries and one that none does; a late result. -/
theorem witness_AcceptancesAcknowledgementsAndLateResults :
    NamedWith [inFlight { entryOf 3 4 [opOf 0 [hostPart 4] .sent] with acked := false }, inFlight { entryOf 7 4 [opOf 0 [hostPart 4] .done] with acked := false }]
      (fun _ _ sk e => decide ((e.kind = 3 ∨ e.kind = 4 ∨ e.kind = 7) ∧ e.acked = false ∧ e.portacc = false ∧
        ∀ o ∈ e.ops, if o.parts.any Part.port then o.stage ≠ .sent ∨ sk.mayPerform e o = true else o.stage = .done)) ∧
    NamedWith [inFlight { entryOf 3 4 [opOf 0 [hostPart 4] .done] with acked := false, portacc := true }]
      (fun _ _ _ e => decide (e.acked = false ∧ e.portacc = true ∧ ∀ o ∈ e.ops, o.stage = .done)) ∧
    (let s := inFlight (entryOf 3 4 [])
     (∀ g ∈ s.allGangs, ∀ sk ∈ g.skeins, ∀ e ∈ sk.record, e.tag ≠ 0x78) ∧ ∃ g ∈ s.allGangs, ∃ sk ∈ g.skeins, ∃ e ∈ sk.record, e.tag = 0x77) ∧
    (((rand 2 fun t x => { x with late := if t = 1 then [(20, [5, 6])] else [] }).fibreAt 1 0 1).map (·.late) = some [(20, [5, 6])]) :=
  ⟨named_with (by decide +kernel), named_with (by decide +kernel), by decide +kernel, by decide +kernel⟩

/-- The one operation of an entry. -/
def onlyOp (e : Entry) (P : SlotOp → Bool) : Bool := match e.ops with | [o] => P o | _ => false

/-- A host atomic that is sent, with the host page's mode, and how its write stands. -/
def atomEntry (kind hat cls : Nat) (portacc : Bool) : Entry :=
  { entryOf kind 4 [{ opOf 0 [{ hostPart 4 with hat := hat }] .sent with val := 2 }] with acked := false, cls := cls, portacc := portacc }

/-- The request ring of world 0: 64 entries at I/O address 0x3000, host frame 5; entry 2 is the one of tag 0x77, done or still a request. -/
def withRing (kind : Byte) (s : State) : State :=
  { s with
    worlds := [(0, { World.reset with haq := 0x3006 })]
    ats := [⟨0, 3, 5, true, true, 0⟩]
    host := s.host.writeBytes 0x5080 ([kind, 0, 0, 0] ++ List.replicate 28 0 ++ bytesOf 8 0x1234 ++ bytesOf 8 0x77) }

/-- A frozen context of world 0 with a parked write of tag 0x99, and one completion held already. -/
def withFrozen (s : State) : State :=
  { s with
    worlds := [(0, { World.reset with held := [⟨0x55, 1, 0, 0⟩] })]
    ctxs := s.ctxs ++ [{ bootContext 60 with
      st := .frozen true, saved := [{ bootGang 61 false with
        key := 61, skeins := [{ Skein.fresh 32 0 0 true (fibres 1 fun _ x => x) with record := [{ atomEntry 3 1 2 true with tag := 0x99 }] }] }] }] }

/-- A host atomic's completion, good and failed; one that nothing waits for; the ring's doorbell on an entry that is done and on one that is
not; a load that fails, by either name; a parked write acknowledged; a completion for nothing, and one that is held. -/
theorem witness_HostAtomicsAndFailedRequests :
    NamedWith [inFlight (atomEntry 5 1 0 false), inFlight (atomEntry 6 1 0 false)]
      (fun s g _ e => onlyOp e fun o => decide (s.findAtom 0x77 0 = some (e7, g, e, o) ∧ (e.kind = 5 ∨ e.kind = 6) ∧ e.acked = false ∧ e.portacc = false ∧
        e.acquire = false)) ∧
    NamedWith [inFlight (atomEntry 5 1 0 false)]
      (fun s g sk e => onlyOp e fun o => decide (s.findAtom 0x77 0 = some (e7, g, e, o) ∧ e.ops.find? (fun q => q.slot == o.slot) = some o ∧
        (sk.fibre 0).map (·.uid) = some o.uid)) ∧
    ((inFlight (entryOf 1 4 [])).findAtom 0x77 0 = none ∧ (inFlight (entryOf 1 4 [])).parkedOp 0x77 0 = none) ∧
    (∀ kind ∈ [1, 2], NamedWith [withRing kind (inFlight (atomEntry 5 2 0 false))] fun s g _ e => onlyOp e fun o =>
      match s.requestRing 0 with
      | some (n, base) => decide (2 < n) && (match s.hostFrame 0 (base + 64 * 2) false with
        | .ok ha s1 =>
          let bs := s1.host.readBytes ha 64
          decide (ringField bs 0 1 = kind.toNat ∧ s1.findAtom (BitVec.ofNat 64 (ringField bs 0x28 8)) (ringField bs 0x30 1) = some (e7, g, e, o) ∧ o.val = 2 ∧
            o.parts.any (fun p => p.hat == 2) = true ∧ s1.worldOf g = 0)
        | _ => false)
      | none => false) ∧
    NamedWith [inFlight (entryOf 1 4 [opOf 0 [hostPart 4] .sent])]
      (fun _ _ sk e => onlyOp e fun o => decide (e7.gang ≠ 0 ∧ (e.kind = 1 ∨ e.kind = 2) ∧ e.copies = [] ∧ e.acked = true ∧ o.stage = .sent ∧ o.slot = 0 ∧ o.parts.any Part.port = true ∧
        (sk.fibre 0).map (·.uid) = some o.uid)) ∧
    NamedWith [inFlight (atomEntry 3 1 2 true)]
      (fun s g _ e => onlyOp e fun o => decide (s.findParked ⟨0x77, 0, 0, 0⟩ = some (e7, g, e, o) ∧ (e.kind = 3 ∨ e.kind = 4) ∧ e.acked = false ∧ e.portacc = true)) ∧
    ((inFlight (entryOf 1 4 [])).findParked ⟨0x77, 0, 0, 0⟩ = none ∧ (inFlight (entryOf 1 4 [])).parkedOp 0x77 0 = none) ∧
    (let s := withFrozen (inFlight (entryOf 1 4 []))
     s.findParked ⟨0x99, 0, 0, 0⟩ = none ∧ (s.parkedOp 0x99 0).map (·.1) = some 0 ∧ (s.world 0).held ≠ [] ∧
      (match s.parkArea 0 with | .ok _ => false | .error _ => true) = true ∧ ∀ d ∈ (s.world 0).held, d.tag ≠ 0x99 ∨ d.slot ≠ 0) :=
  ⟨named_with (by decide +kernel), named_with (by decide +kernel), by decide +kernel,
    by intro kind hk
       simp only [List.mem_cons, List.not_mem_nil, or_false] at hk
       obtain rfl | rfl := hk <;> exact named_with (by decide +kernel),
    named_with (by decide +kernel), named_with (by decide +kernel), by decide +kernel, by decide +kernel⟩

/-- The gang of core 3 beside, of the same span. -/
def beside (s : State) : State :=
  { s with gangs := s.gangs ++ [{ Gang.fresh 50 .rand 0 3 1 9 64 with gangid := 1, skeins := [Skein.fresh 32 64 0 true (fibres 2 fun _ x => x)] }] }

/-- A fibre that waits at a monitor of a scratch word that is zero; it expects v, and MTEST or MWAIT asked. -/
def monitorState (v : Nat) : State :=
  let s := inFlight { entryOf 0x0B 4 [{ opOf 0 [scratchPart 4] .sent with va := 0x100, data := v }] with scope := 2, aux := 2 }
  s.modSkein 1 0 fun sk => sk.mapFibres fun _ x => { x with wait := .mwait }

/-- A grid of one gang whose first equivalence point moves two registers, and the gang granted core 12. -/
def grantedState : State :=
  let d : LaunchDesc := ⟨0x10000, 0x18000, 0, 1, 32, 64, 64, 0, 1, 1, false, false, 0, 1, 1, 1, 1, 0, 0, 0, 0, 0⟩
  { rand 1 (fun _ x => { x with wait := .migrate, waitArg := 7 + 2 ^ 29 * 9 }) fun g => { g with grid := 9, target := some 12 } with
    issue := none
    grids := [⟨9, 0, 1, d, [⟨7, 0x10008, 0x18008, [(4, 8, 1)]⟩], 9, 0, 1, 0, [0], .thread 0 1, false, (0, 0, 0), false⟩] }

/-- A fibre of personality 3 at a guest instruction that the DOC holds. -/
def guestState : State :=
  let s := rand 2 (fun _ x => { x with pers := 3, gpc := 0x20000, pc := 0x20000 }) id id around
  { s with
    issue := some ⟨1, 0, [0, 1]⟩
    tlb := [⟨0, 1, 0, 1, 0, 0x17D + 3 * 2 ^ 20, 0, 0⟩]
    clusters := [(0, { Cluster.reset with
      weave := [(3, ⟨1, List.replicate 128 0⟩)], doc := [⟨0, 3, 1, 0x20000, 0x20000, [0x97400180000003E0], 1, false⟩] })] }

/-- The deposit, arrival, monitor, move, held post, guest instruction, and the words that are no instruction. -/
theorem witness_ArrivalsWakesAndMoves :
    NamedWith [beside (inFlight { entryOf 0x0C 3 [opOf 0 [] .sent, opOf 1 [] .sent] with aux := 50, dst := 20 })]
      (fun s _ _ e => decide (e.kind = 0x0C ∧ e.release = false ∧ e.portacc = false ∧ e.acked = true ∧ e.aux ≠ 1 ∧
          (∀ o ∈ e.ops, findTag s.tags e.tag o.slot (depositAddr e) = none) ∧ (e.ops.map (·.slot)).Nodup) &&
        (match s.gang e.aux with
          | some h => decide (s.tagRoom (2, coreNo h) e.ops.length = true ∧ h.frozen = false ∧ h.ended = false ∧ h.moves.length ≤ e.prog) &&
              ((h.skeins[e.aop]?).map fun r => decide (e.size < r.arrive.length)).getD false
          | none => false)) ∧
    NamedWith [inFlight (entryOf 0x20 0 [opOf 0 [] .sent])]
      (fun _ g sk e => decide (g.ended = false ∧ (∀ o ∈ e.ops, sk.settled e.seq o.uid = true) ∧ (sk.fibre 1).map (·.sbarIn) = some false ∧
        (sk.fibre 1).map (fun y => decide (∀ o ∈ e.ops, o.uid ≠ y.uid)) = some true)) ∧
    (∀ q ∈ [(0, true), (5, false)], NamedWith [monitorState q.1] fun s g sk e => onlyOp e fun o =>
      decide (g.ended = false ∧ e.kind = 0x0B ∧ o.slot = 0 ∧ o.stage = .sent ∧ (sk.fibre 0).map (fun x => (x.uid, x.wait)) = some (o.uid, .mwait) ∧
        e.acked = true) &&
      (match s.askReplay g e o with
        | .ok ps s1 => sk.mayPerform e { o with parts := ps } && (match s1.monRead g e.scope ps with
          | .ok (v, _) => decide (v < 2 ^ (8 * e.size) ∧ o.data < 2 ^ (8 * e.size) ∧
              condition e.aop (8 * e.size) (BitVec.ofNat _ v) (BitVec.ofNat _ o.data) = q.2)
          | .error _ => false)
        | _ => false)) ∧
    (∃ g gr p runs, grantedState.gang 1 = some g ∧ g.frozen = false ∧ g.target = some 12 ∧ grantedState.grid g.grid = some gr ∧
      gr.eq.find? (fun q => some q.eqid == (g.live.head?).map migrateId) = some p ∧ grantedState.moveReady g = true ∧
      grantedState.roomFor g.cluster 12 g.skeins.length (((g.skeins.head?).map (·.width)).getD 32) (gr.otherRegs g) = some runs ∧
      ∃ sk x, g.skeins[0]? = some sk ∧ sk.fibre 0 = some x ∧ x.late = []) ∧
    (let s : State := { inFlight (entryOf 1 4 []) with clusters := [(0, { Cluster.reset with held := [⟨⟨0, 1, 2, 3⟩, none⟩] })] }
     (s.cluster 0).eventRoom 0 1 = true ∧ (s.cluster 0).held.find? (fun e => e.world == 0) = some ⟨⟨0, 1, 2, 3⟩, none⟩ ∧
      (∀ e ∈ (s.cluster 0).held, e.packet = none) ∧ ∀ e ∈ (s.cluster 0).held, e.world ≠ 5) ∧
    (match guestState.batch with
      | some (b, _) => (match b.all with
        | (_, x) :: _ => (match guestState.atIssue.weave b.g x with
          | .ok (.words _ _, _) s1 => (s1.weaveTable b.g.cluster x.pers).isSome && decide (s1.gangs = guestState.gangs)
          | _ => false)
        | [] => false)
      | none => false) = true ∧
    plain.batch.isSome = true :=
  ⟨named_with (by decide +kernel), named_with (by decide +kernel),
    by intro q hq
       simp only [List.mem_cons, List.not_mem_nil, or_false] at hq
       obtain rfl | rfl := hq <;> exact named_with (by decide +kernel),
    ⟨_, _, _, _, rfl, rfl, rfl, rfl, rfl, by decide +kernel, rfl, _, _, rfl, rfl, rfl⟩, by decide +kernel, by decide +kernel, by decide +kernel⟩

/-- A quarter's operation on two rows of a tile of n16 panels. -/
def tileOf (n16 : Nat) (started : Bool) : TileOp :=
  { quarter := 0, acc := 0x1000, fmt := 0, n16 := n16, m := 0, nega := false, negb := false, zc := false, iv := false, slot := 1, kcnt := 1, fuse := false
    rnd := 0, seed := 0, fib := 0, rows := [(0, 0, 0), (1, 0, 0)], p0 := 0x2000, p1 := 0, p2 := 1024, regs := [], dead := false, started := started }

/-- An entry of a tile operation at the head of core 0's queue. -/
def tileFlight (kind n16 : Nat) (started : Bool) : State :=
  inFlight { entryOf kind 0 [opOf 0 [] .sent] with tile := some (tileOf n16 started) } id fun s =>
    { s with cores := [(0, { Core.reset with queue := [.op e7, .release 2 1] })] }

/-- A fill of n bytes of scratch with a pattern, waiting or on channel 2. -/
def fillFlight (n : Nat) (wait : List CopyRef) (chans : Tbl CopyRef) : State :=
  inFlight { entryOf 0x13 0 [opOf 0 [] .sent] with
    aux := 16
    copies := [⟨0, 2, 0, 0x300, 0, n, 0x04030201, [], [], [], 0, 0, 0, [], false, 0, false, [], []⟩] } id fun s =>
    s.modCluster 0 fun k => { k with copyWait := wait, channels := chans }

/-- An operation and a release at a tile queue's head, panels that are the last and that are not, a load of a stationary slot; a packet's and an
entry's command with a free channel; bursts that end a fill and that do not. -/
theorem witness_TileAndCopyEngineSteps :
    NamedWith [tileFlight 0x18 1 false] (fun s _ sk e => decide ((s.core 0).queue.head? = some (.op e7) ∧
      (∀ q ∈ sk.record, q.seq < e.seq → storeLike q.kind = true → ∀ o ∈ q.ops, o.stage ≠ .sent ∨ ∀ p ∈ o.parts, (match p.home with | .scratch _ => false | _ => true) = true)) &&
      (e.tile.map fun t => !t.started && !t.fuse).getD false) ∧
    ({ plain with cores := [(0, { Core.reset with queue := [.release 2 1] })] } : State).core 0 = { Core.reset with queue := [.release 2 1] } ∧
    NamedWith [tileFlight 0x1A 1 true, tileFlight 0x1A 2 true] (fun s g _ e => decide (g.ended = false ∧ (s.core 0).queue.head? = some (.op e7) ∧ e.kind = 0x1A ∧ e.acked = true ∧
        e.portacc = false ∧ (∀ o ∈ e.ops, o.stage = .sent)) && (e.tile.map (·.started)).getD false && (s.cluster g.cluster).scratch.wf) ∧
    NamedWith [tileFlight 0x19 1 true] (fun s g _ e => decide (g.ended = false ∧ (s.core 0).queue.head? = some (.op e7) ∧ e.kind = 0x19 ∧ e.acked = true ∧ e.portacc = false ∧
        (∀ o ∈ e.ops, o.stage = .sent)) &&
      (e.tile.map fun t => t.started && !t.iv && (s.readScratch g.cluster t.p0 t.p2).isSome).getD false) ∧
    (let s := fillFlight 100 [.packet 0 1 5 0 0 64] []
     (s.cluster 0).freeChannel.isSome = true ∧ (s.cluster 0).copyWait = [.packet 0 1 5 0 0 64]) ∧
    NamedWith [fillFlight 100 [.entry e7 0] []] (fun s _ _ e => (s.cluster 0).freeChannel.isSome &&
      decide ((s.cluster 0).copyWait = [.entry e7 0] ∧ (e.copies.find? fun c => c.slot == 0).isSome = true ∧ e.kind = 0x13 ∧ e.acquire = false)) ∧
    NamedWith [fillFlight 256 [] [(2, .entry e7 0)], fillFlight 257 [] [(2, .entry e7 0)]] (fun s g sk e =>
      decide (g.ended = false ∧ sk.ackc < 1023 ∧ tget (s.cluster 0).channels 2 = some (.entry e7 0) ∧ e.kind = 0x13 ∧ e.aux.testBit 4 = true ∧ e.aux.testBit 11 = false ∧
          s.checking (s.partOfCluster g.cluster) = false ∧ (s.cluster g.cluster).scratch.wf = true ∧ e.acked = true ∧ e.portacc = false ∧
          (∀ o ∈ e.ops, o.slot ≠ 0 → o.stage = .done)) &&
        (match e.copies.find? (fun c => c.slot == 0) with
          | some c => decide (256 * c.prog < c.n ∧
              s.engineScratch g.cluster (s.worldOf g) ((c.b.toNat + 256 * c.prog) % 2 ^ 64) (min 256 (c.n - 256 * c.prog)) = none)
          | none => false)) :=
  ⟨named_with (by decide +kernel), by decide +kernel, named_with (by decide +kernel), named_with (by decide +kernel), by decide +kernel,
    named_with (by decide +kernel), named_with (by decide +kernel)⟩

/-! ## Queues, grids, contexts -/

/-- Queue 1 of world 0: enabled, of 16 entries, with the packet at its head. -/
def queueState (bs : List Byte) (q : Queue → Queue := id) (u : State → State := id) : State :=
  rand 1 (fun _ x => x) id id fun s => u (withBytes 0x20000 (bs ++ List.replicate (64 - bs.length) 0) { s with
    issue := none
    worlds := [(0, { World.reset with queues := [(1, q { Queue.reset with qbase := 0x20000, ctl := 0x10001, qwr := 1 })] })] })

/-- What `Parses` asks, with a condition on the packet's bytes and the state after they are read. -/
def parses (s : State) (typ : Nat) (P : List Byte → State → Bool) (thread0 : Bool := false) : Bool :=
  let x := s.queue 0 1
  let c := s.homeCluster 0 1
  decide (s.served c = some (0, 1) ∧ threadParsing s 0 = thread0) &&
    match (s.acquireSync c).agentRead (s.worldAccess 0 c) ((x.qbase.toNat + 64 * (x.qrd % 2 ^ (x.ctl.toNat / 2 ^ 14 % 32))) % 2 ^ 64) 64 with
    | .ok bs s1 => decide (threadParsing s1 0 = thread0 ∧ s1.worlds = s.worlds ∧ (s1.cluster c).trace.owner = 0 ∧ (∀ p ∈ x.live, p.number ≠ x.qrd) ∧
        ringField bs 0 1 = typ ∧ (typ < 7 → packetClean bs = true)) && P bs s1
    | _ => false

theorem parses_of {s : State} {typ : Nat} {P : List Byte → State → Bool} {t0 : Bool} (h : parses s typ P t0 = true) :
    ∃ bs s1, ParsesAs t0 s 0 1 typ bs s1 ∧ P bs s1 = true := by
  simp only [parses, Bool.and_eq_true, decide_eq_true_eq] at h
  obtain ⟨⟨h1, h2⟩, h⟩ := h
  split at h
  · rename_i bs s1 hr
    simp only [Bool.and_eq_true, decide_eq_true_eq] at h
    exact ⟨bs, s1, ⟨h1, h2, h.1.1, hr, h.1.2⟩, h.2⟩
  · cases h

/-- The header of a packet. -/
def packet (typ flags n : Byte) : List Byte := [typ, flags, 9, 0, n, 0, 0, 0]

/-- A fence that waits for counter 0x20040 to reach 5. -/
def fenceState : State := queueState [] fun q =>
  { q with qwr := 0, live := [⟨0, 0x20000, 0x20001, 3, true, 9, 0x20040, 0, 1⟩], fence := some [5] }

/-- Doorbells at the queue's size and past it; writes of the control register of an enabled and a disabled queue; a packet of each type, and of the
first unknown one; a fence. -/
theorem witness_QueuesAndPackets :
    (let s := queueState []
     s.doorbellsOn 0 = true ∧ (s.part 0).pscur ≠ 2 ∧ (16 + 2 ^ 32 - (s.queue 0 1).qrd) % 2 ^ 32 ≤ 2 ^ ((s.queue 0 1).ctl.toNat / 2 ^ 14 % 32) ∧
      2 ^ ((s.queue 0 1).ctl.toNat / 2 ^ 14 % 32) < (17 + 2 ^ 32 - (s.queue 0 1).qrd) % 2 ^ 32 ∧
      (s.queue 0 1).ctl.toNat % 2 = 1 ∧ (s.queue 0 2).ctl.toNat % 2 = 0 ∧ s.boot = 1) ∧
    (let s := queueState [] id fun s => { s with parts := [(0, { Partition.reset 3200 with pscur := 2 })] }
     s.doorbellsOn 0 = true ∧ (s.part 0).pscur = 2) ∧
    (∃ bs s1, ParsesAs true (queueState (packet 0 0 0) id fun s => { s with parts := [(0, { Partition.reset 3200 with dutycfg := 1 })] }) 0 1 0 bs s1) ∧
    (∀ f ∈ [0, 2], ∃ bs s1, Parses (queueState (packet 0 f 0)) 0 1 0 bs s1) ∧
    (let s := queueState (packet 1 0 0 ++ bytesOf 8 0x20100) id (withBytes 0x20100 launchBytes)
     ∃ bs s1, Parses s 0 1 1 bs s1 ∧ (decide (ringField bs 8 8 % 256 = 0 ∧ (s.queue 0 1).waiting = none) &&
      match s1.readLaunch (s.worldAccess 0 (s.homeCluster 0 1)) (ringField bs 8 8) with
      | .ok _ s2 => decide (s2.worlds = s1.worlds ∧ threadParsing s2 0 = false ∧ (s2.cluster (s.homeCluster 0 1)).trace.owner = 0 ∧ s2.queuedGrids 0 < 256)
      | _ => false) = true) ∧
    (∃ bs s1, Parses (queueState (packet 2 0 0 ++ bytesOf 8 0x20000 ++ bytesOf 8 0x20040 ++ bytesOf 8 64)) 0 1 2 bs s1) ∧
    (let s := queueState (packet 3 0 1 ++ bytesOf 8 0x20040 ++ bytesOf 4 5)
     ∃ bs s1, Parses s 0 1 3 bs s1 ∧ decide (ringField bs 8 8 % 8 = 0 ∧ ∀ p ∈ (s.queue 0 1).live, p.typ ≠ 3) = true) ∧
    (let s := queueState (packet 4 2 0 ++ bytesOf 8 0x20040 ++ bytesOf 8 5)
     ∃ bs s1, Parses s 0 1 4 bs s1 ∧ (decide (s1.dirtyHeld (s.homeCluster 0 1) = false ∧ ringField bs 8 8 % 8 = 0 ∧ ringField bs 0x18 1 = 0) &&
      match (s1.writeBackAll (s.homeCluster 0 1)).agentWrites (s1.worldAccess 0 (s.homeCluster 0 1)) [(ringField bs 8 8, bytesOf 8 (ringField bs 0x10 8))] with
      | .ok _ s2 => decide (s2.worlds = s1.worlds ∧ threadParsing s2 0 = false ∧ (s2.cluster (s.homeCluster 0 1)).trace.owner = 0)
      | _ => false) = true) ∧
    (let s := queueState (packet 5 0 0 ++ bytesOf 8 7 ++ bytesOf 4 8 ++ [31])
     ∃ bs s1, Parses s 0 1 5 bs s1 ∧ decide (ringField bs 0x14 1 < 32 / s.partitions ∧ (s1.cluster 31).heldOf 0 = 0 ∧
      (s1.cluster 31).eventRoom 0 1 = true) = true) ∧
    (let s := queueState (packet 6 0 0 ++ bytesOf 8 0x10000 ++ bytesOf 8 7 ++ [31])
     ∃ bs s1, Parses s 0 1 6 bs s1 ∧ decide (ringField bs 0x18 1 < 32 / s.partitions ∧ (s1.freeThread 31).isSome = true ∧
      (s1.ctx (s1.worldCtx 0)).map (·.st) = some .running) = true) ∧
    (∃ bs s1, Parses (queueState (packet 7 0 0)) 0 1 7 bs s1) ∧
    (let s := fenceState
     let c := s.homeCluster 0 1
     (s.queue 0 1).fence = some [5] ∧ (s.queue 0 1).live.find? (fun p => p.typ == 3) = some ⟨0, 0x20000, 0x20001, 3, true, 9, 0x20040, 0, 1⟩ ∧
      (match (s.acquireSync c).fenceLeft (s.worldAccess 0 c) 0x20040 [5] with | .ok _ s1 => decide (s1.worlds = s.worlds) | _ => false) = true) :=
  ⟨by decide +kernel, by decide +kernel, (parses_of (P := fun _ _ => true) (by decide +kernel)).imp fun _ h => h.imp fun _ h => h.1,
    by intro f hf
       simp only [List.mem_cons, List.not_mem_nil, or_false] at hf
       obtain rfl | rfl := hf <;> exact (parses_of (P := fun _ _ => true) (by decide +kernel)).imp fun _ h => h.imp fun _ h => h.1,
    parses_of (by decide +kernel), (parses_of (P := fun _ _ => true) (by decide +kernel)).imp fun _ h => h.imp fun _ h => h.1, parses_of (by decide +kernel),
    parses_of (by decide +kernel), parses_of (by decide +kernel), parses_of (by decide +kernel),
    (parses_of (P := fun _ _ => true) (by decide +kernel)).imp fun _ h => h.imp fun _ h => h.1, by decide +kernel⟩

/-- A descriptor of one span of one gang of one fibre: on a rand core, or on a stake core, of that width and register count. -/
def descOf (start : Bool) (width regs : Nat) : LaunchDesc :=
  ⟨0x10000, 0x18000, 0, 0, width, 64, regs, 0, 1, 1, start, false, 0, 1, 1, 1, 1, 0, 0, 0, 0, 0⟩

/-- Grid 9 with its spans placed so far. -/
def gridOf (d : LaunchDesc) (placed : List Nat) (l : Launcher) : Grid := ⟨9, 0, 1, d, [], 9, 0, 1, 0, placed, l, false, (0, 0, 0), false⟩

/-- The grid beside the gang of `rand`, which is its own. -/
def gridState (gr : Grid) (g : Gang → Gang := id) (u : State → State := id) : State :=
  rand 1 (fun _ x => x) (fun y => g { y with grid := 9 }) id fun s => u { s with issue := none, grids := [gr] }

/-- A gang of n skeins of one fibre, the first eight active, the last aged; the first one's fibre waits. -/
def crowd (n age : Nat) : State :=
  let s := rand 1 fun _ x => x
  { s with
    issue := none
    gangs := s.gangs.map fun g => { g with skeins := (List.range n).map fun k =>
      { Skein.fresh 32 (8 * k) (if k + 1 = n then age else 0) (decide (k < 8 ∧ k + 1 < n)) (fibres 1 fun _ x =>
        { x with uid := 2 + k, wait := if k = 0 then .rjoin else .none }) with residency := k, issued := true } } }

/-- Six skeins of 30 blocks on stake core 12 of cluster 0, with gaps of at most 50 blocks; a grid that has wanted 60 for 4,096 clocks. -/
def scattered : State :=
  let s := gridState (gridOf (descOf true 64 240) [] (.thread 0 1))
  { s with gangs := [{ Gang.fresh 1 .stake 0 12 1 8 240 with
      skeins := (List.range 6).map fun k => { Skein.fresh 32 (50 + 80 * k) 0 false [] with residency := k } }]
           cores := [(coreNumber 0 12, { Core.reset with wanting := [(9, 0)], clocks := 4096 })] }

/-- A gang with a pool of one entry at 0x20000. -/
def poolState : State :=
  gridState (gridOf (descOf false 32 0) [0] (.thread 0 1)) (fun g => { g with grid := 0, poolBase := 0x20000, poolCap := 4 })
    (withBytes 0x20000 (bytesOf 4 0 ++ bytesOf 4 1 ++ List.replicate 248 0))

/-- A span placed, and one that cannot be; a pool's entry; skeins that move in, freely and for a waiting one, and a forced rotation; a compaction that
moves a run; a span relocated; a grid that is over, for either launcher, and one that is not. -/
theorem witness_GridsAndScheduling :
    (let s := gridState (gridOf (descOf false 32 0) [] (.thread 0 1))
     (s.grid 9).map (fun gr => (s.placeable gr 0 3 [0], s.placeable gr 1 3 [0], gr.desc.spcap, gr.desc.width)) = some (true, false, 0, 32)) ∧
    (∃ g bs s1 es s2 kt, poolState.gang 1 = some g ∧ g.ended = false ∧ g.frozen = false ∧ g.poolCap ≠ 0 ∧ g.poolBad = false ∧ (∀ sk ∈ g.skeins, sk.slots.length = sk.width) ∧
      poolState.readGlobal g.ctx (poolState.worldOf g) g.poolBase 16 = .ok (bs, s1) ∧ ringField bs 4 4 ≤ g.poolCap ∧ ringField bs 0 4 < g.poolCap ∧
      ringField bs 4 4 ≠ 0 ∧
      s1.readGlobalLong g.ctx (s1.worldOf g) 3 (g.poolBase + 16 + ringField bs 0 4 * ((s1.grid g.grid).map Grid.poolEntrySize).getD 64)
        (((s1.grid g.grid).map Grid.poolEntrySize).getD 64) = .ok (es, s2) ∧
      g.freeSlot (ringField es 0x18 4 / ((g.skeins.head?).map (·.width)).getD 32) = some kt) ∧
    (((crowd 3 0).nextIn ⟨0, 0⟩).isSome = true ∧ (crowd 3 0).activeCount 0 0 < 8) ∧
    (((crowd 9 0).nextIn ⟨0, 0⟩).isSome = true ∧ 8 ≤ (crowd 9 0).activeCount 0 0 ∧
      (((crowd 9 0).coreSkeins ⟨0, 0⟩).find? (crowd 9 0).movesOut).isSome = true) ∧
    (((crowd 9 256).nextIn ⟨0, 0⟩).map (·.sk.age) = some 256 ∧ 8 ≤ (crowd 9 256).activeCount 0 0 ∧ ((crowd 9 256).core (coreNumber 0 0)).rotated ≤ ((crowd 9 256).core (coreNumber 0 0)).clocks ∧
      ((((crowd 9 256).coreSkeins ⟨0, 0⟩).filter fun a => a.sk.active && a.sk.issued).find? fun a => !(crowd 9 256).residentReady a).isSome = true) ∧
    ((crowd 9 255).nextIn ⟨0, 0⟩).map (·.sk.age) = some 255 ∧
    ((scattered.runsWanted ⟨0, 12⟩).map (fun w => runLength w.desc.width w.desc.regs) = [60] ∧
      ((cheapest (openings (scattered.runsUsed 0 12) ((rangeFrom 0 512).flatMap fun b => (scattered.coreSkeins ⟨0, 12⟩).filter fun r => r.sk.block == b) 60)).map
        fun q => q.2.map fun m => (m.1.k, m.2)) = some [(0, 0)] ∧ (scattered.skein 1 0).isSome = true) ∧
    (let s := gridState (gridOf (descOf false 32 0) [0] (.thread 0 1))
     ∃ gr g, s.grid 9 = some gr ∧ (s.gangs.filter fun g => g.kind != .handle && g.grid == 9 && g.spanid == 0 && !g.ended) = [g] ∧
      s.relocatable gr [g] g.cluster 31 = true ∧ gr.desc.footBanks = [] ∧ s.slotsHeld g = [] ∧ (∀ sk ∈ g.skeins, sk.record = []) ∧ (s.gangs.map (·.key)).Nodup) ∧
    (let s := gridState (gridOf (descOf false 32 0) [0] (.thread 0 1))
     (s.grid 9).map s.gridOver = some false) ∧
    (let s := gridState (gridOf (descOf false 32 0) [0] (.thread 0 1)) fun g => { g with ended := true }
     (s.grid 9).map (fun gr => (s.gridOver gr, gr.launcher)) = some (true, .thread 0 1) ∧ (∀ g ∈ s.gangs, g.grid = 9 → g.kind ≠ .handle → s.anyHeld g.cluster = false) ∧
      (s.cluster 0).heldOf 0 = 0 ∧ (s.cluster 0).eventRoom 0 1 = true) ∧
    (let s := gridState (gridOf (descOf false 32 0) [0] (.packet 0 1 4)) (fun g => { g with ended := true }) fun s =>
      { s with worlds := [(0, { World.reset with queues := [(1, { Queue.reset with live := [⟨4, 0x20000, 0x20001, 1, false, 0, 0, 0, 1⟩] })] })] }
     (s.grid 9).map (fun gr => (s.gridOver gr, gr.launcher)) = some (true, .packet 0 1 4) ∧ (∀ g ∈ s.gangs, g.grid = 9 → g.kind ≠ .handle → s.anyHeld g.cluster = false) ∧
      ((s.queue 0 1).live.find? fun p => p.number == 4).map (·.caddr) = some 0) :=
  ⟨by decide +kernel, ⟨_, _, _, _, _, _, rfl, rfl, rfl, by decide +kernel, rfl, by decide +kernel, rfl, by decide +kernel, by decide +kernel, by decide +kernel, rfl, rfl⟩,
    by decide +kernel, by decide +kernel, by decide +kernel, by decide +kernel, by decide +kernel,
    ⟨_, _, rfl, rfl, by decide +kernel, by decide +kernel, by decide +kernel, by decide +kernel, by decide +kernel⟩,
    by decide +kernel, by decide +kernel, by decide +kernel⟩

/-- `rand`'s state with its partition, its world and the rest as given. -/
def calm (p : Partition → Partition := id) (w : World → World := id) (u : State → State := id) : State :=
  rand 1 (fun _ x => x) id id fun s => u { s with issue := none, parts := [(0, p (Partition.reset 3200))], worlds := [(0, w World.reset)] }

/-- A write by partition 0's physical function. -/
def regOf (off : Nat) (v : BitVec 64) : RegWrite := ⟨0, none, off, v⟩

/-- A partition whose checkpoint stands as given: frames 4 to 6 of HBM are frozen. -/
def drained (phase : Nat) (c : Checkpoint → Checkpoint := id) (p : Partition → Partition := id) : State :=
  calm fun x => p { x with ckptcfg := 0xC000000000000000, ckptshd := 0x0010000000000000, ckpt := c { Checkpoint.reset with phase := phase, lo := 4, hi := 7 } }

/-- A switch request that is busy, and one that begins; one served; a freeze point; a world to freeze, and one to resume; the timer, on and off; a cut that may
be taken and one that may not; frames held and not; the drain's first frame, a next one and a failure; `CKPTCFG` with nothing held; `CKPTACK`. -/
theorem witness_ContextsAndCheckpoints :
    ((calm id fun w => { w with cswbusy := true }).world 0).cswbusy = true ∧
    (calm.boot = 1 ∧ (calm.world 0).cswbusy = false ∧ (2 ^ 63 + 8 * 31).testBit 63 = true) ∧
    (let s := calm id (fun w => { w with cswin := 1 }) fun s => s.modCluster 3 fun k => { k with switches := [0, 5] }
     (s.cluster 3).switches = [0, 5] ∧ (s.world 0).frozen = false ∧
      (match s.swapRun (s.worldAccess 0 3) (s.world 0).cswout (s.world 0).cswin (2 ^ 32) (if (s.world 0).cswbegun then 2 else 0) 0 with
        | .ended n s1 => n == 2 && decide ((s1.cluster 3).heldOf 0 = 0) && (s1.cluster 3).eventRoom 0 1
        | _ => false) = true) ∧
    (let s := calm fun p => { p with wfreeze := 2 ^ 63 }
     (s.ctx 1).map (fun c => (c.st, c.world)) = some (.running, 0) ∧ 2 ^ 63 ≤ (s.part 0).wfreeze ∧ (s.part 0).wfreeze < 2 ^ 64 ∧ (s.part 0).wfreeze % 256 = 0 ∧
      ∀ g ∈ s.gangs, ∀ sk ∈ g.skeins, ∀ e ∈ sk.record, ∀ o ∈ e.ops, o.near = false) ∧
    ((calm.part 0).wfreeze < 2 ^ 63 ∧ (regOf 0 0).v.toNat.testBit 9 = false ∧ (regOf 0 0).v.toNat.testBit 8 = false ∧ (regOf 0 0).v.toNat % 256 / 64 = 0) ∧
    (let s := calm id (fun w => { w with frozen := true }) fun s => { s with gangs := [], ctxs := s.ctxs.map fun c => { c with st := .frozen true } }
     let s2 := ((s.modPart 0 fun x => { x with wfreeze := 0 }).modWorld 0 fun x => { x with frozen := false }).holdThreads 0 false
     (s.ctxs.filter fun c => c.world == 0 && c.st == .frozen true).map (·.key) = [1] ∧ (∀ c ∈ s.ctxs, (match (s2.rerecord c).loadCtx 1 with | .done _ => true | _ => false) = true)) ∧
    (let s := calm fun p => { p with ckptcfg := 0x8000000100000000 }
     (s.part 0).ckptcfg.toNat.testBit 63 = true ∧ (s.part 0).ckptcfg.toNat / 2 ^ 32 % 2 ^ 24 = 1 ∧ (s.part 0).ckpt.phase = 0 ∧
      (calm.part 0).ckptcfg.toNat.testBit 63 = false) ∧
    ((calm.part 0).ckpt.phase ≠ 1 ∧ ((drained 1).part 0).ckpt.phase = 1 ∧
      (∀ g ∈ (drained 1).gangs, (drained 1).partOfCluster g.cluster = 0 → ∀ sk ∈ g.skeins, sk.ackc = 0) ∧ ((drained 1).part 0).ckptcfg.toNat.testBit 62 = true) ∧
    (let s := drained 2 id fun p => { p with ckptcfg := 0x8000000000000000 }
     (s.part 0).ckpt.holds 3 = false ∧ (s.part 0).ckpt.holds 4 = true ∧ (s.part 0).ckpt.holds 6 = true ∧
      6 * 2 ^ 18 / 2 ^ 52 = 0 ∧ (s.part 0).ckpt.shadow.length < (s.part 0).shadowFrames ∧ s.mem.wf = true) ∧
    (∀ opened ∈ [false, true],
      let s := { drained 2 fun c => { c with tgt := 0x4000140000000000, opened := opened } with
        worlds := [(0, { World.reset with roster := some [0x70000000 + 0x80000000 + 5] })] }
      (s.part 0).ckpt.phase = 2 ∧ (s.part 0).ckpt.pull = false ∧ (s.part 0).ckpt.tgt.toNat / 2 ^ 62 = 1 ∧ (s.part 0).ckpt.tgt.toNat / 2 ^ 42 % 2 ^ 20 = 5 ∧
        s.peerGone 0 5 = false ∧ s.rosterOk 0 5 .store = true ∧ (s.part 0).ckpt.opened = opened ∧ (s.part 0).ckpt.lo < (s.part 0).ckpt.hi) ∧
    (((drained 2).part 0).ckpt.phase = 2 ∧ ((drained 2).part 0).ckpt.pull = false ∧ ((drained 2).part 0).ckpt.heldContexts = []) ∧
    (((drained 2).part 0).ckpt.heldContexts = [] ∧ (regOf 0 0).v.toNat.testBit 63 = false ∧ (regOf 0 0x8000000000000000).v.toNat.testBit 63 = true) ∧
    (let c := ((drained 2 fun c => { c with pull := true }).part 0).ckpt
     c.phase = 2 ∧ c.pull = true ∧ c.lo ≤ (regOf 0 0x180000).v.toNat / 2 ^ 18 ∧ (regOf 0 0x180000).v.toNat / 2 ^ 18 < c.hi ∧ 6 ∉ c.streamed ∧ 6 ∉ c.thawed ∧ 1 < c.left) := by
  refine ⟨?_, ?_, ?_, ?_, ?_, ?_, ?_, ?_, ?_, ?_, ?_, ?_, ?_⟩ <;> decide +kernel

/-! ## Ports, registers, resets -/

/-- No skein of the state replays, and no record holds anything. -/
def calmGangs (s : State) : Bool := s.gangs.all fun g => g.skeins.all fun sk => !sk.replaying && sk.record.isEmpty

/-- A request from PCIe port 24 for world 0. -/
def requestOf (op : PortOp) (addr : Nat) (bytes : List Byte) : PortRequest := ⟨24, 0, 0, 0, op, addr, bytes⟩

/-- World 0 with bounce channel 15: four slots of 64 bytes from 0x20000 to 0x20400, `PROD` one ahead of `CONS`. -/
def bounceState (b : Bounce → Bounce := id) : State :=
  calm id (fun w => { w with bounce := [(15, b ⟨0x20000, 0x20400, 0x8000000000000602, 1, none, 0, false, 0, 0⟩)] })
    (withBytes 0x20000 (List.replicate 1536 7))

/-- A translation completed for a request and for none; a page request answered; an invalidation; XINV begun and ended, for an entry and for all; a
peer reachable and lost; a link lost; a port lost; a request held, read and written; doorbells, a resynchronisation, and a slot that lands, of a bounce
channel. -/
theorem witness_PortsLinksAndBounce :
    (let s := calm fun p => { p with atsReqs := [(0, 7)] }
     calmGangs s = true ∧ (s.part 0).atsReqs.count (0, 7) = 1 ∧ s.asleep 0 = false ∧ (0, 8) ∉ (s.part 0).atsReqs) ∧
    (let s := calm fun p => { p with pageReqs := [(0, 7)] }
     calmGangs s = true ∧ (0, 7) ∈ (s.part 0).pageReqs ∧ s.asleep 0 = false) ∧
    ((0, 7, 9) ∉ (calm.part 0).invals ∧ (calm.part 0).invals.length < 32 ∧ calm.rangeBusy 0 7 9 = false) ∧
    (let s := calm fun p => { p with invals := (List.range 32).map fun n => (0, n, n) }
     (0, 7, 9) ∉ (s.part 0).invals ∧ (s.part 0).invals.length = 32) ∧
    (∀ n ∈ [0x0300000000000003, 0x0300000000040001], let r := regOf 0x80 (BitVec.ofNat 64 n)
     r.page = none ∧ (calm.part (r.by_ / 64)).xinvBusy = false ∧ r.v.toNat.testBit 0 = true ∧ r.by_ % 64 = 0 ∧ r.v.toNat / 2 ^ 56 / 64 = r.by_ / 64) ∧
    (let s := calm fun p => { p with xinvBusy := true, xinv := 2 }
     (s.part 0).xinvBusy = true ∧ s.worldBusy 0 = false ∧ (s.part 0).xinv.toNat.testBit 1 = true ∧ (calm.part 0).xinvBusy = false) ∧
    ((calm.routeOf 0 5).any calm.portUp = true) ∧
    (let s := calm id id fun s => { s with ports := (List.range 24).map fun n => (n, ⟨false, 0⟩) }
     (∀ n ∈ s.routeOf 0 5, s.portUp n = false) ∧ s.peerGone 0 5 = false ∧ calmGangs s = true) ∧
    (calmGangs calm = true ∧ (∀ c ∈ calm.ctxs, c.saved = []) ∧ 24 ∈ calm.pciePorts 0 ∧ 25 ∈ calm.pciePorts 0) ∧
    (∀ r ∈ [requestOf .read 0x20000 [0, 0], requestOf .write 0x2007F [9], requestOf .read 0x20000 []],
      let s := calm id id fun s => withBytes 0x20000 (List.replicate 128 7) { s with boot := 1 }
      let t := calm (fun p => { p with pscur := 2 }) id fun s => { s with boot := 1 }
      s.boot = 1 ∧ s.portServes r = true ∧ 24 ≤ r.port ∧ s.deviceHome (r.world / 64) r.addr r.bytes.length = some .dev ∧ t.boot = 1 ∧ t.portServes r = true ∧ (t.part 0).pscur = 2 ∧
      (s.part 0).pscur ≠ 2 ∧ (∀ p ∈ s.parts, p.2.ckpt.lo = 0 ∧ p.2.ckpt.hi = 0 ∧ p.2.ckpt.ext = []) ∧
      (match s.readDev 0 r.addr r.bytes.length with | .ok _ => true | .error _ => false) = true ∧
      (match s.writeDev 0 r.addr r.bytes with | .ok s2 => decide (s2.portHits r = []) | .error _ => false) = true) ∧
    (let s := bounceState
     s.doorbellsOn 0 = true ∧ (s.part 0).pscur ≠ 2 ∧ (s.channel 0 15).mism = false ∧ (s.channel 0 15).usable = true ∧
      (4 + 2 ^ 64 - (s.channel 0 15).cons) % 2 ^ 64 ≤ 2 ^ ((s.channel 0 15).ctl.toNat % 32)) ∧
    (let b := (bounceState fun b => { b with mism := true, staged := some 4 }).channel 0 15
     b.mism = true ∧ b.staged = some 4 ∧ 5 % 2 ^ 32 ≠ b.gen ∧ (4 + 2 ^ 64 - b.cons) % 2 ^ 64 ≤ 2 ^ (b.ctl.toNat % 32)) ∧
    (let s := bounceState
     let b := s.channel 0 15
     b.usable = true ∧ b.mism = false ∧ b.cons ≠ b.prod ∧ s.doorbellsOn 0 = true ∧ (s.part 0).pscur = 0 ∧
      (match s.readRange (s.bounceAccess 0) 8 b.from_ b.slotBytes with
        | .ok bs s1 => (match s1.agentWrites (s.bounceAccess 0) (pieceWrites (pagePieces 8 b.to_ b.slotBytes) bs ++ [(b.countAt, bytesOf 8 1)]) with
          | .ok none _ => true
          | _ => false)
        | _ => false) = true) ∧
    (let s := { bounceState with parts := [(0, { Partition.reset 3200 with pscur := 2 })] }
     s.doorbellsOn 0 = true ∧ (s.part 0).pscur = 2) ∧
    ((bounceState fun b => { b with prod := 0 }).channel 0 15).cons = ((bounceState fun b => { b with prod := 0 }).channel 0 15).prod := by
  refine ⟨?_, ?_, ?_, ?_, ?_, ?_, ?_, ?_, ?_, ?_, ?_, ?_, ?_, ?_⟩ <;> decide +kernel

/-- A table load that is asked for and allowed; `EISCFG`; a request for PS2 that is refused and one that is granted, and for PS0; PS2 on its way out; clusters with
work and without; a world's register written by the partition that owns it. -/
theorem witness_RegistersPowerAndClocks :
    (let s := calm fun p => { p with dutycfg := 8 }
     let r := regOf 0 (0x8000000000000000 + 3 * 2 ^ 32 + 2 ^ 31)
     s.boot = 1 ∧ r.page = none ∧ r.by_ = 0 ∧ r.v.toNat.testBit 63 = true ∧ (s.part 0).dutycfg.toNat.testBit 3 = true ∧ r.v.toNat % 2 ^ 32 = 2 ^ 31 ∧
      31 / (32 / s.partitions) = 0 ∧ 0 < s.partitions ∧ (calm.part 0).dutycfg.toNat.testBit 3 = false) ∧
    (calm.partitions = 1) ∧
    ((regOf 0 1).v.toNat % 4 = 1 ∧ (calm.part 0).pscur ≠ 2 ∧ calm.holdsContext 0 = true ∧ (calm id id fun s => { s with gangs := [], ctxs := [] }).holdsContext 0 = false) ∧
    ((regOf 0 2).v.toNat % 4 = 2 ∧ ((calm fun p => { p with pscur := 2 }).part 0).pscur = 2) ∧
    ((calm.part 0).psexit = false ∧ ((calm fun p => { p with psexit := true }).part 0).psexit = true ∧ ((calm fun p => { p with psexit := true }).part 0).psheld = [] ∧
      ((calm fun p => { p with psexit := true }).part 0).psbells = []) ∧
    ((∀ g ∈ calm.gangs, g.cluster = 3 → g.ended = true) ∧ ∃ g ∈ calm.gangs, g.cluster = 0 ∧ g.ended = false) ∧
    ((regOf (0x2000 + 8 * 63) 5).off = 0x2000 + 8 * 63 ∧ (calm.world 0).tdisp = .unlocked ∧ (calm.part 0).wfreeze < 2 ^ 63) := by
  refine ⟨?_, ?_, ?_, ?_, ?_, ?_, ?_⟩ <;> decide +kernel

/-- Trace units free, held and revoked; an unlock that is refused because a world is locked, and attempts while one is in progress; interfaces in each state.  Whether a
token is accepted is a free value (notes/assumptions/7). -/
theorem witness_TraceDebugAndTrust :
    (calm.boot = 1 ∧ (calm.cluster 0).trace.owner = 0 ∧ (calm.traceRegs 0 2).state ≠ 2 ∧ calm.partOfCluster 0 = 0) ∧
    (let s := calm id id fun s => s.modCluster 0 fun k => { k with trace := { k.trace with owner := 2 } }
     (s.cluster 0).trace.owner = 0 + 2) ∧
    (let s := calm id (fun w => { w with trace := [(0, { TraceRegs.reset with state := 2 })] }) fun s => s.modCluster 0 fun k => { k with trace := { k.trace with owner := 1 } }
     (s.cluster 0).trace.owner = 1 ∧ (s.cluster 0).trace.owner ≠ 0 + 2 ∧ (s.traceRegs 0 2).state = 2) ∧
    (let s := calm id fun w => { w with tdisp := .locked }
     s.security.dstate ≠ 1 ∧ s.security.dstate ≠ 2 ∧ s.dbgRefusal = some 4) ∧
    (let s := calm id id fun s => { s with security := { s.security with dstate := 2 } }
     s.security.dstate = 2 ∧ calm.security.dstate ≠ 2) ∧
    (calm.tdispNext 1 .lock = some .locked ∧ calm.tdispNext 1 .start = none ∧
      (calm id id fun s => s.modWorld 1 fun w => { w with tdisp := .locked }).tdispNext 1 .start = some .run ∧
      (calm id id fun s => s.modWorld 1 fun w => { w with tdisp := .run }).tdispNext 1 .stop = some .unlocked) ∧
    ((calm.world 0).tdisp = .unlocked ∧ ((calm id fun w => { w with tdisp := .run }).world 0).tdisp = .run) := by
  refine ⟨?_, ?_, ?_, ?_, ?_, ?_, ?_⟩ <;> decide +kernel

/-- A partition that exists and one that does not; functions that are a partition's and that are not; a hot reset of either port; firmware before and after boot. -/
theorem witness_ResetsAndBoot :
    (calm.partitions = 1 ∧ 0 < calm.partitions ∧ calm.partitions ≤ 1) ∧ (64 % 64 = 0 ∧ 63 % 64 ≠ 0) ∧
    (calmGangs calm = true ∧ (calm.part 0).pageReqs = [] ∧ ∀ c ∈ calm.ctxs, c.saved = []) ∧
    (State.reset.boot = 0 ∧ State.reset.fabricId = 0 ∧ ({ State.reset with fabricId := 5 } : State).fabricId ≠ 0 ∧ calm.boot ≠ 0) ∧
    (calm.boot = 1 ∧ (calm.part 0).psexit = false ∧ ((calm fun p => { p with psexit := true }).part 0).psexit = true ∧
      ({ calm with boot := 3 } : State).boot = 3 ∧ ({ calm with boot := 2 } : State).boot = 2) := by
  refine ⟨?_, ?_, ?_, ?_, ?_⟩ <;> decide +kernel

end Sys2Proof.Tests
end

