-- ==== Sys2Proof/Tests/Slice0.lean ====
section
/-! SUPPORT. Well-formedness, decoding and single steps, with results that spec/ states or that follow by hand from its rules. -/

namespace Sys2Proof.Tests

open Sys2Proof Sys2Proof.Machine

set_option maxRecDepth 100000
set_option Elab.async false

/-! ## Ill-formed terms -/

/-- Fields shared by all forms: an index beside guard mode 000 (R145); a guard on a collective (R208). -/
theorem test_wf_guard :
    ([.nop { sf 0 0 0 0 0 with h := ⟨true, ⟨.always, 1⟩⟩ }, .bar { cf 0 1 0 0 with h := ⟨true, ⟨.t, 1⟩⟩ }, .migrate { cf 6 0 7 0 with h := ⟨true, ⟨.nf, 0⟩⟩ },
      .step { sf 0 0 0 0 0 with h := ⟨true, ⟨.u, 2⟩⟩ }].all fun i : Instr => !i.wf) = true := by decide

/-- V3: modifiers of A, B and C where they are not read or not of the class, an absolute value on an n type, `B` and `C` fields not read, a
scale outside class F, a clamp outside classes I and F, `I` outside f32 and f64, `UB` without B (R147 to R152). -/
theorem test_wf_v3 :
    ([.and .b32 { v3 8 10 12 0 with nega := true }, .and .b32 { v3 8 10 12 0 with negb := true }, .fshl .b32 { v3 8 10 12 14 with negc := true },
      .iadd .n32 { v3 8 10 12 0 with absa := true }, .mov .s32 (v3 8 10 12 0), .iadd .s32 (v3 8 10 12 14), .iadd .s32 { v3 8 10 12 0 with negc := true },
      .iadd .s32 { v3 8 10 12 0 with scale := 1 }, .imulh .s32 { v3 8 10 12 0 with clamp := true }, .xor .b64 { v3 8 10 12 0 with clamp := true },
      .fadd .f16 { v3 8 10 12 0 with i := true }, .iadd .s32 { v3 8 10 12 0 with i := true }, .popc .b32 { v3 8 10 0 0 with ub := true },
      .ivhull .f32 { v3 8 10 12 0 with i := true }, .imadw .s64 (v3 8 10 12 14), .fcmp .f32 { v3 1 10 12 0 with scale := 1 },
      .fclass .f32 { v3 8 10 0 0 with clamp := true }, .fexpo .f32 { v3 8 10 0 0 with scale := 7 }].all fun i : Instr => !i.wf) = true := by decide

/-- Conditions, predicates, shift counts, formats and element codes of V3 (R165, R198 to R204). -/
theorem test_wf_codes :
    ([.icmp .s32 (v3 16 10 12 0), .icmp .s32 (v3 1 10 12 6), .fcmp .f32 (v3 1 10 12 11), .lea .s32 (v3 8 10 12 8), .sel3 .b32 (v3 8 10 12 16),
      .cvt (v3 8 10 0xF0 0), .cvt (v3 8 10 0x60 0), .cvt (v3 8 10 0x70 8), .cvt { v3 8 10 0x07 0 with nega := true }, .cvt { v3 8 10 0x70 0 with clamp := true },
      .cvtb (v3 8 10 0x53 0), .cvtb (v3 8 10 0x64 0), .unpk .bf16 (v3 8 10 0x02 0), .unpk .f16 (v3 8 10 0x22 0), .ivmk .f64 (v3 8 10 12 1),
      .ivmk .f32 (v3 8 10 12 2), .ivsplit .f32 (v3 8 10 12 1)].all fun i : Instr => !i.wf) = true := by decide

/-- VI: a 24-bit immediate on f16, `I` on bf16, `SA` beside MOV's immediate, MOVH on s64, a condition out of range (R153, R154). -/
theorem test_wf_vi :
    ([.faddImm .f16 (vi 8 10 0x10000), .faddImm .bf16 { vi 8 10 1 with i := true }, .movImm .s32 (vi 8 1 0), .movh .s64 (vi 8 0 0),
      .icmpImm .s32 (vi 0x61 10 0), .fcmpImm .f32 (vi 0xB1 10 0), .andImm .b32 { vi 8 10 1 with clamp := true }].all fun i : Instr => !i.wf) = true := by decide

/-- M: sizes, orders, `UA`, the atomic operation with its size, and CACHE's fields (R156 to R158, R122). -/
theorem test_wf_memory :
    ([.ld (mf .global 5 8 4 .device), .ld { mf .global 2 8 4 .device with order := .rel }, .st { mf .global 2 8 4 .device with order := .acq },
      .st { mf .global 2 8 4 .device with ua := true }, .ldiv (mf .global 1 8 4 .device), .stiv (mf .global 2 8 4 .device), .atom { mf .global 2 8 4 .device with off := 0x800 },
      .atom { mf .global 2 8 4 .device with off := 0xC00 }, .atomc (mf .global 4 8 4 .device), .red { mf .global 2 8 4 .device with order := .acqrel },
      .cachePref (mf .global 0 8 4 .device), .cacheCwb { mf .global 2 0 4 .device with index := 1 },
      .cacheCinv { mf .global 1 0 4 .device with order := .rel }].all fun i : Instr => !i.wf) = true := by decide

/-- C: fields that an operation leaves zero, and CALL's k/8 outside 1 to 29 (R159). -/
theorem test_wf_control :
    ([.bra (cf 1 0 0 0), .brx (cf 10 0 1 0), .call (cf 0 0 5 0), .call (cf 0 30 5 0), .callx (cf 10 2 1 0), .ret (cf 0 0 0 1), .ivfork (cf 8 16 0 0), .ivfork (cf 8 1 0 2),
      .bar (cf 0 16 0 0), .sbar (cf 0 1 0 0)].all fun i : Instr => !i.wf) = true := by decide

/-- X: `N16` 0, `M` 11, a sealed length that is no multiple of 4 KiB, a swizzle above 4, a scope out of range, bits not named (R160, R161). -/
theorem test_wf_engines :
    ([.mma (xf 10 11 12 0), .mma (xf 10 11 12 (2 ^ 14 + 3 * 2 ^ 12)), .ldstat (xf 18 20 0 (2 ^ 8)), .ldstat (xf 18 20 0 0), .statrel (xf 0 0 0 1), .tzero (xf 10 0 12 (2 ^ 14 + 1)),
      .tcvt (xf 10 14 12 (2 ^ 14 + 5 * 2)), .tget (xf 10 16 12 (2 ^ 5)), .copy (xf 4 8 6 0), .copy (xf 4 8 6 (6 * 64)), .copym (xf 4 8 6 (3 * 64 + 32)),
      .evpost (xf 8 7 1 0), .launch (xf 8 0 0 1)].all fun i : Instr => !i.wf) = true := by decide

/-- S: fields that an operation leaves zero, and values out of range (R163, R164, R67). -/
theorem test_wf_system :
    ([.nop (sf 1 0 0 0 0), .pand (sf 16 2 3 0 0), .pres (sf 1 1 0 0 2), .shfl (sf 7 14 11 0 8), .ballot (sf 8 0 0 3 0), .vote (sf 1 0 0 3 0), .rdx (sf 4 5 0 2 0), .rdx (sf 4 5 0 0 3),
      .scan (sf 4 5 0 7 6), .fence (sf 0 0 0 0 1), .fence (sf 0 0 0 5 0), .mwait (sf 0 4 6 6 0), .mwait (sf 0 4 6 4 6), .mtest (sf 16 4 6 4 0), .rwrite (sf 0 8 9 0x800 0),
      .arrwait (sf 0 0 0 0 0), .qpush (sf 0 5 0 64 0), .rdctr (sf 5 0 0 0 0), .bankcfg (sf 4 0 0 0xC0 0), .gets (sf 4 0 0 0x12 0), .gets (sf 5 0 0 0x3C 0), .sets (sf 0 4 0 0 0),
      .wvload (sf 4 6 0 16 0), .swapctx (sf 4 6 8 1 0)].all fun i : Instr => !i.wf) = true := by decide

/-! ## Decoding -/

/-- Each word decodes to the instruction beside it, which is well formed and has that word. -/
def reads (l : List (W64 × Instr)) : Bool := l.all fun p => (decode p.1).toOption == some p.2 && encode p.2 == some p.1 && p.2.wf

/-- The word is no instruction, for that reason. -/
def refuses (l : List (W64 × DecodeError)) : Bool := l.all fun p =>
  match decode p.1 with
  | .ok _ => false
  | .error e => e == p.2

/-- Words that spec/00, spec/06 to spec/11 and spec/16 to spec/24 write out beside their assembly. -/
theorem test_decode_spec_words : reads [
    (0x8800010121400000, .fadd .f32 (v3 8 9 10 0)),
    (0x8802610121400000, .fadd .f32 { v3 8 9 10 0 with h := ⟨true, ⟨.t, 3⟩⟩ }),
    (0xA020010081200944, .ld ⟨h0, .global, 2, 8, 4, 9, 4, 2, .device, .acq, false⟩),
    (0x97400180000003E0, .movImm .s32 (vi 12 0 0x1F)),
    (0xB00000001FFFFFE8, .bra (cf 0 0 (-3) 0)),
    (0x8882610121417248, .ffma .f32 { v3 8 9 10 11 with h := ⟨true, ⟨.t, 3⟩⟩, nega := true, absb := true, clamp := true, scale := 1 }),
    (0x8CC00080AE004000, .cvt (v3 4 5 0x70 2)),
    (0xB030000040000028, .call (cf 0 2 5 0)),
    (0xB060028000000028, .rmark (cf 20 0 5 0)),
    (0xB0B0010040000000, .ivfork (cf 8 2 0 0)),
    (0xB0C000C00000003A, .migrate (cf 6 0 7 2)),
    (0xD010002040600000, .pand (sf 1 2 3 0 0)),
    (0xD1300080A0000000, .rdx (sf 4 5 0 0 0)),
    (0xD300008000000780, .gets (sf 4 0 0 0x3C 0)),
    (0xA82000C08000044C, .atom ⟨h0, .global, 2, 6, 4, 0, 2, 0, .device, .acqrel, false⟩),
    (0xD2700000001FFE1E, .waitc ⟨h0, 63, 63, 0, 15⟩),
    (0xD210000080C00080, .mwait (sf 0 4 6 4 0)),
    (0xD23000010120C280, .rwrite (sf 0 8 9 0x614 0)),
    (0xD240000000000022, .arrwait (sf 0 0 0 1 2)),
    (0xD2500000A0000180, .qpush (sf 0 5 0 12 0)),
    (0xD260008000000180, .qpop (sf 4 0 0 12 0)),
    (0x8000016121400000, .iadd .s32 (v3 11 9 10 0)),
    (0x828001010140A000, .lea .s32 (v3 8 8 10 5)),
    (0xA030018040000040, .ld (mf .global 3 12 2 .device)),
    (0xA020026181000040, .ld { mf .global 2 19 12 .device with index := 8 }),
    (0x8880028242628000, .ffma .f32 (v3 20 18 19 20)),
    (0xA220028201000040, .st { mf .global 2 20 16 .device with index := 8 }),
    (0xB0A0000000000000, .exit (cf 0 0 0 0)),
    (0xD320000000000020, .trap (sf 0 0 0 1 0)),
    (0xD3900080C0000020, .wvload (sf 4 6 0 1 0)),
    (0xD3A00000A0000040, .wvbind (sf 0 5 0 2 0)),
    (0xACA2220240080030, .red ⟨⟨true, ⟨.t, 1⟩⟩, .scratch, 2, 16, 18, 0, 0x400, 0, .cluster, .plain, false⟩),
    (0xB100000000000000, .sbar (cf 0 0 0 0)),
    (0xC010024000000000, .ldstat (xf 18 0 0 0)),
    (0xD2100002C0C00360, .mwait (sf 0 22 6 0x1B 0)),
    (0xD2700000001FFFE0, .waitc ⟨h0, 63, 63, 15, 0⟩),
    (0xB0C001800000000A, .migrate (cf 12 0 1 2)),
    (0xB0B0050060000000, .ivfork (cf 40 3 0 0)),
    (0x8840054505000004, .fmul .f32 { v3 42 40 40 0 with i := true }),
    (0x9C80142540000002, .fcmpImm .f32 { vi 0xA1 42 0 with i := true }),
    (0xA8200604C0000040, .atom (mf .global 2 48 38 .device)),
    (0xA630050486000040, .stiv { mf .global 3 40 36 .device with index := 48 }),
    (0x95801F9F0000C180, .bfxImm .b32 (vi 252 248 0x060C)),
    (0xD210001F5FC000A1, .mwait (sf 0 250 254 5 1)),
    (0xD330000000000000, .eret (sf 0 0 0 0 0)),
    (0xA83221C10000005C, .atom ⟨⟨true, ⟨.t, 1⟩⟩, .global, 3, 14, 8, 0, 0, 0, .system, .acqrel, false⟩),
    (0xD10000E1C1600000, .shfl (sf 7 14 11 0 0)),
    (0xAA301F9F1F40005C, .atomc ⟨h0, .global, 3, 252, 248, 250, 0, 0, .system, .acqrel, false⟩)] = true := by decide +kernel

/-- Words that are no instructions: forms 110 and 111, op values that no map holds, `TYPE` outside the class, guard mode 111, an index beside mode 000, reserved bits,
address space 11, a scope of 0 (R145 to R168). -/
theorem test_decode_no_instruction : refuses [
    (0b1_110_000000000000000000000000000000000000000000000000000000000000, .form),
    (0b1_111_000000000000000000000000000000000000000000000000000000000000, .form),
    (0b1_000_111111_00_000_0000_00000000_00000000_00000000_00000000_0_0_0_0_0_0_0_000_0_0_0, .operation),
    (0b1_000_011110_00_000_0000_00001000_00000000_00000000_00000000_0_0_0_0_0_0_0_000_0_0_0, .operation),
    (0b1_000_001100_10_000_0000_00001001_00001010_00001011_00000000_0_0_0_0_0_0_0_000_0_0_0, .operation),
    (0b1_011_00010001_000_0000_00000000_00000000_00000000000000000000000000_000, .operation),
    (0b1_100_00000111_000_0000_00000000_00000000_00000000_00000000000000000000_0, .operation),
    (0b1_101_00000111_000_0000_00000000_00000000_00000000_0000000000000000_00000, .operation),
    (0b1_101_00111100_000_0000_00000000_00000000_00000000_0000000000000000_00000, .operation),
    (0b1_001_000000_00_111_0000_00000100_00000101_000000000000000000000111_0_0_0_0_0, .guard),
    (0b1_001_000000_00_000_0001_00000100_00000101_000000000000000000000111_0_0_0_0_0, .reserved),
    (0b1_000_000000_00_000_0000_00000100_00000101_00000110_00000000_0_0_0_0_0_0_0_000_0_0_1, .reserved),
    (0b1_101_00110011_000_0000_00000000_00000000_00000000_0000000000000000_00001, .reserved),
    (0b1_010_000_11_010_000_0000_00001100_00001110_00000000_000000000000_00_100_00_0_0, .reserved),
    (0b1_010_000_00_010_000_0000_00001100_00001110_00000000_000000000000_00_000_00_0_0, .reserved)] = true := by decide +kernel

/-- Class I: IADD to IMAX, LEA, ICMP, MOV and MOVH. -/
theorem test_decode_integer : reads [
    (0b1_000_000000_00_000_0000_00001100_00101000_00101100_00000000_0_0_0_0_0_0_0_000_0_0_0, .iadd .s32 (v3 12 40 44 0)),
    (0b1_001_000000_10_000_0000_00001100_00101000_000000000011110000000001_0_0_0_0_0, .iaddImm .s64 (vi 12 40 0x3c01)),
    (0b1_000_000001_01_000_0000_00010000_00101000_00101100_00000000_0_0_0_0_0_0_0_000_0_0_0, .isub .n32 (v3 16 40 44 0)),
    (0b1_001_000001_11_000_0000_00010000_00101000_000000000011110000000010_0_0_0_0_0, .isubImm .n64 (vi 16 40 0x3c02)),
    (0b1_000_000010_10_000_0000_00010100_00101000_00101100_00000000_0_0_0_0_0_0_0_000_0_0_0, .imul .s64 (v3 20 40 44 0)),
    (0b1_001_000010_00_000_0000_00010100_00101000_000000000011110000000011_0_0_0_0_0, .imulImm .s32 (vi 20 40 0x3c03)),
    (0b1_000_000011_11_000_0000_00011000_00101000_00101100_00000000_0_0_0_0_0_0_0_000_0_0_0, .imulh .n64 (v3 24 40 44 0)),
    (0b1_001_000011_01_000_0000_00011000_00101000_000000000011110000000100_0_0_0_0_0, .imulhImm .n32 (vi 24 40 0x3c04)),
    (0b1_000_000100_00_000_0000_00001000_00101000_00101100_00110000_0_0_0_0_0_0_0_000_0_0_0, .imad .s32 (v3 8 40 44 48)),
    (0b1_001_000100_10_000_0000_00001000_00101000_000000000011110000000101_0_0_0_0_0, .imadImm .s64 (vi 8 40 0x3c05)),
    (0b1_000_000101_01_000_0000_00001100_00101000_00101100_00110000_0_0_0_0_0_0_0_000_0_0_0, .imadw .n32 (v3 12 40 44 48)),
    (0b1_000_000110_10_000_0000_00010000_00101000_00101100_00000000_0_0_0_0_0_0_0_000_0_0_0, .idiv .s64 (v3 16 40 44 0)),
    (0b1_001_000110_00_000_0000_00010000_00101000_000000000011110000000111_0_0_0_0_0, .idivImm .s32 (vi 16 40 0x3c07)),
    (0b1_000_000111_11_000_0000_00010100_00101000_00101100_00000000_0_0_0_0_0_0_0_000_0_0_0, .irem .n64 (v3 20 40 44 0)),
    (0b1_001_000111_01_000_0000_00010100_00101000_000000000011110000001000_0_0_0_0_0, .iremImm .n32 (vi 20 40 0x3c08)),
    (0b1_000_001000_00_000_0000_00011000_00101000_00101100_00000000_0_0_0_0_0_0_0_000_0_0_0, .imin .s32 (v3 24 40 44 0)),
    (0b1_001_001000_10_000_0000_00011000_00101000_000000000011110000001001_0_0_0_0_0, .iminImm .s64 (vi 24 40 0x3c09)),
    (0b1_000_001001_01_000_0000_00001000_00101000_00101100_00000000_0_0_0_0_0_0_0_000_0_0_0, .imax .n32 (v3 8 40 44 0)),
    (0b1_001_001001_11_000_0000_00001000_00101000_000000000011110000001010_0_0_0_0_0, .imaxImm .n64 (vi 8 40 0x3c0a)),
    (0b1_000_011101_11_000_0000_00010100_00101000_00000000_00000000_0_0_0_0_0_0_0_000_0_0_0, .mov .n64 (v3 20 40 0 0)),
    (0b1_000_001010_10_000_0000_00001000_00001010_00001100_00000111_0_0_0_0_0_0_0_000_0_0_0, .lea .s64 (v3 8 10 12 7)),
    (0b1_001_001010_00_000_0000_00001000_00001010_000000000000000000000101_0_0_0_0_0, .leaImm .s32 (vi 8 10 5)),
    (0b1_000_001011_01_000_0000_00001111_00001010_00001100_00000101_0_0_0_0_0_0_0_000_0_0_0, .icmp .n32 (v3 15 10 12 5)),
    (0b1_001_001011_11_000_0000_01010011_00001010_000000000000000000001001_0_0_0_0_0, .icmpImm .n64 (vi 0x53 10 9)),
    (0b1_001_011101_00_000_0000_00001100_00000000_000000000000000000011111_0_0_0_0_0, .movImm .s32 (vi 12 0 0x1F)),
    (0b1_001_011110_01_000_0000_00001100_00000000_000100100011010001010110_0_0_0_0_0, .movh .n32 (vi 12 0 0x123456))] = true := by decide +kernel

/-- Class B. -/
theorem test_decode_bits : reads [
    (0b1_000_001100_00_000_0000_00001100_00101000_00101100_00000000_0_0_0_0_0_0_0_000_0_0_0, .and .b32 (v3 12 40 44 0)),
    (0b1_001_001100_00_000_0000_00001100_00101000_000000000011110000001011_0_0_0_0_0, .andImm .b32 (vi 12 40 0x3c0b)),
    (0b1_000_001101_01_000_0000_00010000_00101000_00101100_00000000_0_0_0_0_0_0_0_000_0_0_0, .or .b64 (v3 16 40 44 0)),
    (0b1_001_001101_01_000_0000_00010000_00101000_000000000011110000001100_0_0_0_0_0, .orImm .b64 (vi 16 40 0x3c0c)),
    (0b1_000_001110_00_000_0000_00010100_00101000_00101100_00000000_0_0_0_0_0_0_0_000_0_0_0, .xor .b32 (v3 20 40 44 0)),
    (0b1_001_001110_00_000_0000_00010100_00101000_000000000011110000001101_0_0_0_0_0, .xorImm .b32 (vi 20 40 0x3c0d)),
    (0b1_000_001111_01_000_0000_00011000_00101000_00101100_00000000_0_0_0_0_0_0_0_000_0_0_0, .andn .b64 (v3 24 40 44 0)),
    (0b1_001_001111_01_000_0000_00011000_00101000_000000000011110000001110_0_0_0_0_0, .andnImm .b64 (vi 24 40 0x3c0e)),
    (0b1_000_010000_00_000_0000_00001000_00101000_00101100_00000000_0_0_0_0_0_0_0_000_0_0_0, .orn .b32 (v3 8 40 44 0)),
    (0b1_001_010000_00_000_0000_00001000_00101000_000000000011110000001111_0_0_0_0_0, .ornImm .b32 (vi 8 40 0x3c0f)),
    (0b1_000_010001_01_000_0000_00001100_00101000_00101100_00000000_0_0_0_0_0_0_0_000_0_0_0, .shl .b64 (v3 12 40 44 0)),
    (0b1_001_010001_01_000_0000_00001100_00101000_000000000011110000010000_0_0_0_0_0, .shlImm .b64 (vi 12 40 0x3c10)),
    (0b1_000_010010_00_000_0000_00010000_00101000_00101100_00000000_0_0_0_0_0_0_0_000_0_0_0, .shr .b32 (v3 16 40 44 0)),
    (0b1_001_010010_00_000_0000_00010000_00101000_000000000011110000010001_0_0_0_0_0, .shrImm .b32 (vi 16 40 0x3c11)),
    (0b1_000_010011_01_000_0000_00010100_00101000_00101100_00000000_0_0_0_0_0_0_0_000_0_0_0, .sar .b64 (v3 20 40 44 0)),
    (0b1_001_010011_01_000_0000_00010100_00101000_000000000011110000010010_0_0_0_0_0, .sarImm .b64 (vi 20 40 0x3c12)),
    (0b1_000_010100_00_000_0000_00011000_00101000_00101100_00000000_0_0_0_0_0_0_0_000_0_0_0, .rotl .b32 (v3 24 40 44 0)),
    (0b1_001_010100_00_000_0000_00011000_00101000_000000000011110000010011_0_0_0_0_0, .rotlImm .b32 (vi 24 40 0x3c13)),
    (0b1_000_010101_01_000_0000_00001000_00101000_00101100_00110000_0_0_0_0_0_0_0_000_0_0_0, .fshl .b64 (v3 8 40 44 48)),
    (0b1_000_010110_00_000_0000_00001100_00101000_00101100_00000000_0_0_0_0_0_0_0_000_0_0_0, .bfx .b32 (v3 12 40 44 0)),
    (0b1_001_010110_00_000_0000_00001100_00101000_000000000011110000010101_0_0_0_0_0, .bfxImm .b32 (vi 12 40 0x3c15)),
    (0b1_000_010111_01_000_0000_00010000_00101000_00101100_00110000_0_0_0_0_0_0_0_000_0_0_0, .bfi .b64 (v3 16 40 44 48)),
    (0b1_001_010111_01_000_0000_00010000_00101000_000000000011110000010110_0_0_0_0_0, .bfiImm .b64 (vi 16 40 0x3c16)),
    (0b1_000_011000_00_000_0000_00010100_00101000_00000000_00000000_0_0_0_0_0_0_0_000_0_0_0, .popc .b32 (v3 20 40 0 0)),
    (0b1_000_011001_01_000_0000_00011000_00101000_00000000_00000000_0_0_0_0_0_0_0_000_0_0_0, .clz .b64 (v3 24 40 0 0)),
    (0b1_000_011010_00_000_0000_00001000_00101000_00000000_00000000_0_0_0_0_0_0_0_000_0_0_0, .ctz .b32 (v3 8 40 0 0)),
    (0b1_000_011011_01_000_0000_00001100_00101000_00000000_00000000_0_0_0_0_0_0_0_000_0_0_0, .brev .b64 (v3 12 40 0 0)),
    (0b1_000_011100_00_000_0000_00010000_00101000_00101100_00000000_0_0_0_0_0_0_0_000_0_0_0, .bperm .b32 (v3 16 40 44 0)),
    (0b1_001_011100_00_000_0000_00010000_00101000_000000000011110000011011_0_0_0_0_0, .bpermImm .b32 (vi 16 40 0x3c1b)),
    (0b1_000_011111_01_000_0000_00001000_00001010_00001100_00001111_0_0_0_0_0_0_0_000_0_0_0, .sel3 .b64 (v3 8 10 12 15))] = true := by decide +kernel

/-- Class F. -/
theorem test_decode_floating : reads [
    (0b1_000_100000_00_000_0000_00011000_00101000_00101100_00000000_0_0_0_0_0_0_0_000_0_0_0, .fadd .f32 (v3 24 40 44 0)),
    (0b1_001_100000_10_000_0000_00011000_00101000_000000000011110000011101_0_0_0_0_0, .faddImm .f16 (vi 24 40 0x3c1d)),
    (0b1_000_100001_01_000_0000_00001000_00101000_00101100_00000000_0_0_0_0_0_0_0_000_0_0_0, .fmul .f64 (v3 8 40 44 0)),
    (0b1_001_100001_11_000_0000_00001000_00101000_000000000011110000011110_0_0_0_0_0, .fmulImm .bf16 (vi 8 40 0x3c1e)),
    (0b1_000_100010_10_000_0000_00001100_00101000_00101100_00110000_0_0_0_0_0_0_0_000_0_0_0, .ffma .f16 (v3 12 40 44 48)),
    (0b1_001_100010_00_000_0000_00001100_00101000_000000000011110000011111_0_0_0_0_0, .ffmaImm .f32 (vi 12 40 0x3c1f)),
    (0b1_000_100011_11_000_0000_00010000_00101000_00101100_00000000_0_0_0_0_0_0_0_000_0_0_0, .fmin .bf16 (v3 16 40 44 0)),
    (0b1_001_100011_01_000_0000_00010000_00101000_000000000011110000100000_0_0_0_0_0, .fminImm .f64 (vi 16 40 0x3c20)),
    (0b1_000_100100_00_000_0000_00010100_00101000_00101100_00000000_0_0_0_0_0_0_0_000_0_0_0, .fmax .f32 (v3 20 40 44 0)),
    (0b1_001_100100_10_000_0000_00010100_00101000_000000000011110000100001_0_0_0_0_0, .fmaxImm .f16 (vi 20 40 0x3c21)),
    (0b1_000_100101_01_000_0000_00011000_00101000_00101100_00000000_0_0_0_0_0_0_0_000_0_0_0, .fdiv .f64 (v3 24 40 44 0)),
    (0b1_001_100101_11_000_0000_00011000_00101000_000000000011110000100010_0_0_0_0_0, .fdivImm .bf16 (vi 24 40 0x3c22)),
    (0b1_000_100110_10_000_0000_00001000_00101000_00000000_00000000_0_0_0_0_0_0_0_000_0_0_0, .fsqrt .f16 (v3 8 40 0 0)),
    (0b1_000_100111_11_000_0000_00001100_00101000_00000000_00000000_0_0_0_0_0_0_0_000_0_0_0, .frcp .bf16 (v3 12 40 0 0)),
    (0b1_000_101000_00_000_0000_00010000_00101000_00000000_00000000_0_0_0_0_0_0_0_000_0_0_0, .frsq .f32 (v3 16 40 0 0)),
    (0b1_000_101001_01_000_0000_00010100_00101000_00000000_00000000_0_0_0_0_0_0_0_000_0_0_0, .fex2 .f64 (v3 20 40 0 0)),
    (0b1_000_101010_10_000_0000_00011000_00101000_00000000_00000000_0_0_0_0_0_0_0_000_0_0_0, .flg2 .f16 (v3 24 40 0 0)),
    (0b1_000_101011_11_000_0000_00001000_00101000_00000000_00000000_0_0_0_0_0_0_0_000_0_0_0, .fsinp .bf16 (v3 8 40 0 0)),
    (0b1_000_101100_00_000_0000_00001100_00101000_00000000_00000000_0_0_0_0_0_0_0_000_0_0_0, .fcosp .f32 (v3 12 40 0 0)),
    (0b1_000_101101_01_000_0000_00010000_00101000_00000000_00000000_0_0_0_0_0_0_0_000_0_0_0, .frnd .f64 (v3 16 40 0 0)),
    (0b1_000_101110_10_000_0000_00010100_00101000_00101100_00000000_0_0_0_0_0_0_0_000_0_0_0, .fscale .f16 (v3 20 40 44 0)),
    (0b1_001_101110_00_000_0000_00010100_00101000_000000000011110000101011_0_0_0_0_0, .fscaleImm .f32 (vi 20 40 0x3c2b)),
    (0b1_000_101111_11_000_0000_00011000_00101000_00000000_00000000_0_0_0_0_0_0_0_000_0_0_0, .fclass .bf16 (v3 24 40 0 0)),
    (0b1_000_110000_00_000_0000_00001000_00101000_00000000_00000000_0_0_0_0_0_0_0_000_0_0_0, .fmant .f32 (v3 8 40 0 0)),
    (0b1_000_110001_01_000_0000_00001100_00101000_00000000_00000000_0_0_0_0_0_0_0_000_0_0_0, .fexpo .f64 (v3 12 40 0 0)),
    (0b1_000_110010_00_000_0000_00000001_00001010_00001100_00001010_0_0_0_0_0_0_0_000_1_0_0, .fcmp .f32 { v3 1 10 12 10 with i := true }),
    (0b1_001_110010_00_000_0000_10100001_00101010_000000000000000000000000_0_0_0_1_0, .fcmpImm .f32 { vi 0xA1 0x2A 0 with i := true })] = true := by decide +kernel

/-- Classes X, H and FI: CVT to IVMIG. -/
theorem test_decode_interval : reads [
    (0b1_000_110101_10_000_0000_00010000_00101000_00101100_00000000_0_0_0_0_0_0_0_000_0_0_0, .pack2 .f16 (v3 16 40 44 0)),
    (0b1_000_111000_01_000_0000_00010100_00101000_00000000_00000000_0_0_0_0_0_0_0_000_0_0_0, .ivmid .f64 (v3 20 40 0 0)),
    (0b1_000_111001_00_000_0000_00011000_00101000_00000000_00000000_0_0_0_0_0_0_0_000_0_0_0, .ivwid .f32 (v3 24 40 0 0)),
    (0b1_000_111010_01_000_0000_00001000_00101000_00101100_00000000_0_0_0_0_0_0_0_000_0_0_0, .ivhull .f64 (v3 8 40 44 0)),
    (0b1_000_111011_00_000_0000_00001100_00101000_00101100_00000000_0_0_0_0_0_0_0_000_0_0_0, .ivisect .f32 (v3 12 40 44 0)),
    (0b1_000_111100_01_000_0000_00010000_00101000_00000000_00000000_0_0_0_0_0_0_0_000_0_0_0, .ivsplit .f64 (v3 16 40 0 0)),
    (0b1_000_111101_00_000_0000_00010100_00101000_00000000_00000000_0_0_0_0_0_0_0_000_0_0_0, .ivmag .f32 (v3 20 40 0 0)),
    (0b1_000_111110_01_000_0000_00011000_00101000_00000000_00000000_0_0_0_0_0_0_0_000_0_0_0, .ivmig .f64 (v3 24 40 0 0)),
    (0b1_000_110011_00_000_0000_00000100_00000101_01110000_00000010_0_0_0_0_0_0_0_000_0_0_0, .cvt (v3 4 5 0x70 2)),
    (0b1_000_110100_00_000_0000_00000100_00000110_01100011_00000000_0_0_0_0_0_0_0_000_0_0_0, .cvtb (v3 4 6 0x63 0)),
    (0b1_000_110110_11_000_0000_00000100_00000101_00010011_00000000_0_0_0_0_0_0_0_000_0_0_0, .unpk .bf16 (v3 4 5 0x13 0)),
    (0b1_000_110111_00_000_0000_00001000_00001010_00001011_00000001_0_0_0_0_0_0_0_000_0_0_0, .ivmk .f32 (v3 8 10 11 1))] = true := by decide +kernel

/-- The M form; LD with the fields of the worked encoding of spec/06. -/
theorem test_decode_memory : reads [
    (0b1_010_000_00_010_000_0000_00001000_00000100_00001001_000000000100_10_100_01_0_0, .ld ⟨h0, .global, 2, 8, 4, 9, 0x4, 2, .device, .acq, false⟩),
    (0b1_010_000_10_100_000_0000_00001000_00000100_00000000_111111111111_01_001_00_1_0, .ld ⟨h0, .localMem, 4, 8, 4, 0, 0xfff, 1, .skein, .plain, true⟩),
    (0b1_010_001_01_011_000_0000_00010100_00010000_00001000_100000000000_11_101_10_0_0, .st ⟨h0, .scratch, 3, 20, 16, 8, 0x800, 3, .system, .rel, false⟩),
    (0b1_010_010_00_101_000_0000_00010100_00010000_00001000_000000000001_00_010_00_0_0, .ldiv ⟨h0, .global, 5, 20, 16, 8, 0x1, 0, .gang, .plain, false⟩),
    (0b1_010_011_00_011_000_0000_00101000_00100100_00110000_000000000000_00_100_00_0_0, .stiv ⟨h0, .global, 3, 40, 36, 48, 0x0, 0, .device, .plain, false⟩),
    (0b1_010_100_00_010_000_0000_00000110_00000100_00000000_000000000010_00_100_11_0_0, .atom ⟨h0, .global, 2, 6, 4, 0, 0x2, 0, .device, .acqrel, false⟩),
    (0b1_010_100_00_011_000_0000_00000110_00000100_00000000_101111111111_00_100_11_0_0, .atom ⟨h0, .global, 3, 6, 4, 0, 0xbff, 0, .device, .acqrel, false⟩),
    (0b1_010_101_00_011_000_0000_11111100_11111000_11111010_000000000000_00_101_11_0_0, .atomc ⟨h0, .global, 3, 252, 248, 250, 0x0, 0, .system, .acqrel, false⟩),
    (0b1_010_110_01_010_000_0000_00010000_00010010_00000000_010000000000_00_011_00_0_0, .red ⟨h0, .scratch, 2, 16, 18, 0, 0x400, 0, .cluster, .plain, false⟩),
    (0b1_010_111_00_000_000_0000_00000000_00000100_00000000_000000000001_00_100_00_0_0, .cachePref ⟨h0, .global, 0, 0, 4, 0, 0x1, 0, .device, .plain, false⟩),
    (0b1_010_111_00_001_000_0000_00000000_00000100_00000000_000000000000_00_100_00_0_0, .cacheCinv ⟨h0, .global, 1, 0, 4, 0, 0x0, 0, .device, .plain, false⟩),
    (0b1_010_111_00_010_000_0000_00000000_00000100_00000000_111111111111_00_100_00_1_0, .cacheCwb ⟨h0, .global, 2, 0, 4, 0, 0xfff, 0, .device, .plain, true⟩)] = true := by decide +kernel

/-- The C form. -/
theorem test_decode_control : reads [
    (0b1_011_00000000_000_0000_00000000_00000000_11111111111111111111111101_000, .bra (cf 0 0 0x3fffffd 0)),
    (0b1_011_00000001_000_0000_00001010_00000000_00000000000000000000000000_000, .brx (cf 10 0 0x0 0)),
    (0b1_011_00000010_000_0000_00001001_00000000_10000000000000000000000000_000, .brdec (cf 9 0 0x2000000 0)),
    (0b1_011_00000011_000_0000_00000000_00000010_00000000000000000000000101_000, .call (cf 0 2 0x5 0)),
    (0b1_011_00000100_000_0000_00001010_00011101_00000000000000000000000000_000, .callx (cf 10 29 0x0 0)),
    (0b1_011_00000101_000_0000_00000000_00000000_00000000000000000000000000_000, .ret (cf 0 0 0x0 0)),
    (0b1_011_00000110_000_0000_00010100_00000000_00000000000000000000000101_000, .rmark (cf 20 0 0x5 0)),
    (0b1_011_00000111_000_0000_00010100_00000000_00000000000000000000000000_000, .rjoin (cf 20 0 0x0 0)),
    (0b1_011_00001000_000_0000_00001001_00000000_00000000000000000000000110_000, .fnew (cf 9 0 0x6 0)),
    (0b1_011_00001001_000_0000_00000000_00000000_00000000000000000000000000_000, .fend (cf 0 0 0x0 0)),
    (0b1_011_00001010_000_0000_00000000_00000000_00000000000000000000000000_000, .exit (cf 0 0 0x0 0)),
    (0b1_011_00001011_000_0000_00001000_00000010_00000000000000000000000000_001, .ivfork (cf 8 2 0x0 1)),
    (0b1_011_00001100_000_0000_00000110_00000000_00000000000000000000000111_010, .migrate (cf 6 0 0x7 2)),
    (0b1_011_00001101_000_0000_00000000_00001111_00000000000000000000000000_000, .bar (cf 0 15 0x0 0)),
    (0b1_011_00001110_000_0000_00000000_00000011_00000000000000000000000000_000, .bara (cf 0 3 0x0 0)),
    (0b1_011_00001111_000_0000_00000000_00000100_00000000000000000000000000_000, .barw (cf 0 4 0x0 0)),
    (0b1_011_00010000_000_0000_00000000_00000000_00000000000000000000000000_000, .sbar (cf 0 0 0x0 0))] = true := by decide +kernel

/-- The X form; MMA, COPY and COPYM with the fields of the worked encodings of spec/10 and spec/17. -/
theorem test_decode_engines : reads [
    (0b1_100_00000000_000_0000_00001010_00001011_00001100_000001_00_0_0_0_1_010_0000_1_0, .mma (xf 10 11 12 0x4141)),
    (0b1_100_00000001_000_0000_00010010_00010100_00000000_101011_00000_1_011_00000_0, .ldstat (xf 18 20 0 0xac160)),
    (0b1_100_00000010_000_0000_00000000_00000000_00000000_000000000000_010_00000_0, .statrel (xf 0 0 0 0x40)),
    (0b1_100_00000011_000_0000_00001010_00000000_00001100_111111_10_000_1_00000000_0, .tzero (xf 10 0 12 0xfe100)),
    (0b1_100_00000100_000_0000_00001010_00001110_00001100_000010_01_00000000_100_0_0, .tcvt (xf 10 14 12 0x9008)),
    (0b1_100_00000101_000_0000_00001010_00010000_00001100_000000_01_000_1_000_1111_0_0, .tget (xf 10 16 12 0x111e)),
    (0b1_100_00000110_000_0000_00001010_00010000_00001100_000101_00_000_0_000_0001_0_0, .tstr (xf 10 16 12 0x14002)),
    (0b1_100_00001000_000_0000_00000100_00001000_00000110_00001010_1_0_1_011_0_00000_0, .copy (xf 4 8 6 0xaac0)),
    (0b1_100_00001001_000_0000_00000100_00001000_00000110_00001010_1_0_1_011_0_00000_0, .copym (xf 4 8 6 0xaac0)),
    (0b1_100_00001010_000_0000_00000100_00001000_00000110_00001011_0_1_0_100_1_1_0000_0, .copyl (xf 4 8 6 0xb530)),
    (0b1_100_00001011_000_0000_00001000_00000111_00000110_00001011_1_1_1_101_0_1_0000_0, .cfill (xf 8 7 6 0xbf50)),
    (0b1_100_00001100_000_0000_00001000_00000111_00000000_00000000000000000000_0, .evpost (xf 8 7 0 0x0)),
    (0b1_100_00001101_000_0000_00001000_00000000_00000000_00000000000000000000_0, .evpop (xf 8 0 0 0x0)),
    (0b1_100_00001110_000_0000_00001000_00000000_00000000_00000000000000000000_0, .launch (xf 8 0 0 0x0))] = true := by decide +kernel

/-- The S form. -/
theorem test_decode_system : reads [
    (0b1_101_00000000_000_0000_00000000_00000000_00000000_0000000000000000_00000, .nop (sf 0 0 0 0x0 0)),
    (0b1_101_00000001_000_0000_00000001_00000010_00000011_0000000000000000_00000, .pand (sf 1 2 3 0x0 0)),
    (0b1_101_00000010_000_0000_00001111_00000010_00000011_0000000000000000_00000, .por (sf 15 2 3 0x0 0)),
    (0b1_101_00000011_000_0000_00000100_00000101_00000000_0000000000000000_00000, .pnot (sf 4 5 0 0x0 0)),
    (0b1_101_00000100_000_0000_00000001_00000010_00000011_0000000000000000_00000, .pxor (sf 1 2 3 0x0 0)),
    (0b1_101_00000101_000_0000_00000001_00000001_00000000_0000000000000000_00001, .pres (sf 1 1 0 0x0 1)),
    (0b1_101_00000110_000_0000_00000111_00001000_00000000_0000000000000000_00000, .pmov (sf 7 8 0 0x0 0)),
    (0b1_101_00010000_000_0000_00000111_00001110_00001011_0000000000000000_00110, .shfl (sf 7 14 11 0x0 6)),
    (0b1_101_00010001_000_0000_00001000_00000000_00000000_0000000000000010_01111, .ballot (sf 8 0 0 0x2 15)),
    (0b1_101_00010010_000_0000_00001001_00000000_00000000_0000000000000001_00011, .vote (sf 9 0 0 0x1 3)),
    (0b1_101_00010011_000_0000_00000100_00000101_00000000_0000000000000000_00000, .rdx (sf 4 5 0 0x0 0)),
    (0b1_101_00010100_000_0000_00000100_00000110_00000000_0000000000001010_01101, .scan (sf 4 6 0 0xa 13)),
    (0b1_101_00010101_000_0000_00000011_00000000_00000000_0000000000000000_00000, .elect (sf 3 0 0 0x0 0)),
    (0b1_101_00100000_000_0000_00000000_00000000_00000000_0000000000000101_00010, .fence (sf 0 0 0 0x5 2)),
    (0b1_101_00100001_000_0000_00000000_00000100_00000110_0000000000000100_00000, .mwait (sf 0 4 6 0x4 0)),
    (0b1_101_00100010_000_0000_00000010_00000100_00000110_0000000000011011_00101, .mtest (sf 2 4 6 0x1b 5)),
    (0b1_101_00100011_000_0000_00000000_00001000_00001001_0000011000010100_00000, .rwrite (sf 0 8 9 0x614 0)),
    (0b1_101_00100100_000_0000_00000000_00000000_00000000_0000000000000001_00010, .arrwait (sf 0 0 0 0x1 2)),
    (0b1_101_00100101_000_0000_00000000_00000101_00000000_0000000000001100_00000, .qpush (sf 0 5 0 0xc 0)),
    (0b1_101_00100110_000_0000_00000100_00000000_00000000_0000000000001100_00000, .qpop (sf 4 0 0 0xc 0)),
    (0b1_101_00101000_000_0000_00000100_00000000_00000000_0000000100010101_00000, .rdctr (sf 4 0 0 0x115 0)),
    (0b1_101_00101001_000_0000_00000100_00000000_00000000_0000000001101000_00000, .bankcfg (sf 4 0 0 0x68 0)),
    (0b1_101_00110000_000_0000_00000100_00000000_00000000_0000000000111100_00000, .gets (sf 4 0 0 0x3c 0)),
    (0b1_101_00110001_000_0000_00000000_00000100_00000000_0000000000011000_00000, .sets (sf 0 4 0 0x18 0)),
    (0b1_101_00110010_000_0000_00000000_00000000_00000000_1011111011101111_00000, .trap (sf 0 0 0 0xbeef 0)),
    (0b1_101_00110011_000_0000_00000000_00000000_00000000_0000000000000000_00000, .eret (sf 0 0 0 0x0 0)),
    (0b1_101_00110100_000_0000_00000000_00000000_00000000_0000000000000111_00000, .bkpt (sf 0 0 0 0x7 0)),
    (0b1_101_00110101_000_0000_00000000_00000000_00000000_0000000000000011_00000, .emret (sf 0 0 0 0x3 0)),
    (0b1_101_00110110_000_0000_00000000_00000000_00000000_0000000000000000_00000, .yield (sf 0 0 0 0x0 0)),
    (0b1_101_00110111_000_0000_00000000_00000000_00000000_0000000000000000_00000, .step (sf 0 0 0 0x0 0)),
    (0b1_101_00111000_000_0000_00000000_00000000_00000000_0000000000000000_00000, .ckpt (sf 0 0 0 0x0 0)),
    (0b1_101_00111001_000_0000_00000100_00000110_00000000_0000000000000001_00000, .wvload (sf 4 6 0 0x1 0)),
    (0b1_101_00111010_000_0000_00000000_00000101_00000000_0000000000000001_00000, .wvbind (sf 0 5 0 0x1 0)),
    (0b1_101_00111011_000_0000_00000100_00000110_00001000_0000000000000000_00000, .swapctx (sf 4 6 8 0x0 0)),
    (0b1_101_00100111_000_0000_00000000_00000000_00000000_000000_111111_1111_1110_0, .waitc ⟨h0, 0, 63, 15, 14⟩)] = true := by decide +kernel

/-! ## One step -/

/-- What an instruction leaves in k registers from n on in fibre t of the gang at issue. -/
def left (s : State) (i : Instr) (t n k : Nat) : Option Nat :=
  match exec i s with
  | .next u => (u.fibreAt 1 0 t).map fun x => x.rdVal n k
  | _ => none

/-- The same after MULTI_CLOCK_RESULT_WRITTEN for the first result still to be written. -/
def later (s : State) (i : Instr) (t n k : Nat) : Option Nat :=
  match exec i s with
  | .next u =>
    match exec (.multiClockResultWritten 1 0 t) u with
    | .next v => (v.fibreAt 1 0 t).map fun x => x.rdVal n k
    | _ => none
  | _ => none

/-- One fibre with values in v10, v12 and v14, or in the pairs from there on. -/
def abc (a b c : Nat) (k : Nat := 1) : State := rand 1 fun _ x => ((x.wrVal 10 k a).wrVal 12 k b).wrVal 14 k c

/-- The worked values of R179, R180 and R182 (spec/07): an add that wraps and one that saturates, upper halves, division by 0 and of the minimum by −1. -/
theorem test_integer_arithmetic :
    left (abc 0x7FFFFFFF 1 0) (.iadd .s32 (v3 8 10 12 0)) 0 8 1 = some 0x80000000 ∧
    left (abc 0x7FFFFFFF 1 0) (.iadd .s32 { v3 8 10 12 0 with clamp := true }) 0 8 1 = some 0x7FFFFFFF ∧
    later (abc 0xFFFFFFFF 2 0) (.imulh .n32 (v3 8 10 12 0)) 0 8 1 = some 1 ∧
    later (abc 0xFFFFFFFF 2 0) (.imulh .s32 (v3 8 10 12 0)) 0 8 1 = some 0xFFFFFFFF ∧
    later (abc 0xFFFFFFF9 2 0) (.idiv .s32 (v3 8 10 12 0)) 0 8 1 = some 0xFFFFFFFD ∧
    later (abc 0xFFFFFFF9 2 0) (.irem .s32 (v3 8 10 12 0)) 0 8 1 = some 0xFFFFFFFF ∧
    later (abc 0xFFFFFFFB 0 0) (.idiv .s32 (v3 8 10 12 0)) 0 8 1 = some 0x80000000 ∧
    later (abc 0x80000000 0xFFFFFFFF 0) (.idiv .s32 (v3 8 10 12 0)) 0 8 1 = some 0x80000000 ∧
    later (abc 0x80000000 0xFFFFFFFF 0) (.irem .s32 (v3 8 10 12 0)) 0 8 1 = some 0 := by decide +kernel

/-- A difference that saturates and one that borrows, a comparison in both signednesses, and LEA's 32-bit B in both (R179, R181, R183). -/
theorem test_integer_more :
    left (abc 5 7 0) (.isub .n32 { v3 8 10 12 0 with clamp := true }) 0 8 1 = some 0 ∧
    left (abc 5 7 0) (.isub .s64 (v3 8 10 12 0)) 0 8 2 = some (2 ^ 64 - 2) ∧
    left (abc 0x80000000 1 0) (.icmp .s32 (v3 1 10 12 2)) 0 0 1 = some 4 ∧
    left (abc 0x80000000 1 0) (.icmp .n32 (v3 1 10 12 2)) 0 0 1 = some 0 ∧
    left (abc 3 0xFFFFFFFF 0) (.lea .s64 (v3 8 10 12 3)) 0 8 2 = some (2 ^ 64 - 5) ∧
    left (abc 3 0xFFFFFFFF 0) (.lea .n64 (v3 8 10 12 3)) 0 8 2 = some (3 + 8 * 0xFFFFFFFF) := by decide +kernel

/-- The worked values of R185, R187 and R188: a sign-extended field, bytes permuted, MOVH, and all of v0's pairs undecided (R63). -/
theorem test_bits_and_moves :
    left (abc 0xF70 0x10804 0) (.bfx .b32 (v3 8 10 12 0)) 0 8 1 = some 0xFFFFFFF7 ∧
    left (abc 0x11223344 0x0123 0) (.bperm .b32 (v3 8 10 12 0)) 0 8 1 = some 0x44332211 ∧
    left (abc 0x11223344 0x77 0) (.bperm .b32 (v3 8 10 12 0)) 0 8 1 = some 0x44440000 ∧
    left (abc 0x11223344 0x84 0) (.bperm .b32 (v3 8 10 12 0)) 0 8 1 = some 0x44440000 ∧
    left (abc 0x81223344 7 0) (.bperm .b32 (v3 8 10 12 0)) 0 8 1 = some 0x444444FF ∧
    left (abc 0 0x78 0) (.movh .n32 (vi 12 0 0x123456)) 0 12 1 = some 0x12345678 ∧
    left plain (.movImm .s32 (vi 0 0 0xFFFFFF)) 0 0 1 = some 0xAAAAAAAA ∧
    left (abc 0x80000001 32 0) (.sar .b32 (v3 8 10 12 0)) 0 8 1 = some 0xFFFFFFFF ∧
    left (abc 0x80000001 33 0) (.rotl .b32 (v3 8 10 12 0)) 0 8 1 = some 3 := by decide +kernel

/-- The worked values of R151, R191, R195 and R198: a scaled product with and without clamp, FFMA with modifiers, FSCALE by an immediate, CVT toward zero; and an
exact zero sum, and a zero quotient's signed infinity (R191). -/
theorem test_floating :
    left (abc 0x40400000 0x40400000 0) (.fmul .f32 { v3 8 10 12 0 with scale := 7 }) 0 8 1 = some 0x40900000 ∧
    left (abc 0x40400000 0x40400000 0) (.fmul .f32 { v3 8 10 12 0 with scale := 7, clamp := true }) 0 8 1 = some 0x3F800000 ∧
    left (abc 0xBE800000 0xBF800000 0x3E000000) (.ffma .f32 { v3 8 10 12 14 with nega := true, absb := true, clamp := true, scale := 1 }) 0 8 1 = some 0x3F400000 ∧
    left (abc 0xBE800000 0xBF800000 0x3F000000) (.ffma .f32 { v3 8 10 12 14 with nega := true, absb := true, clamp := true, scale := 1 }) 0 8 1 = some 0x3F800000 ∧
    left (abc 0x41400000 0 0) (.fscaleImm .f32 (vi 8 10 0xFFFFFD)) 0 8 1 = some 0x3FC00000 ∧
    left (abc 0xC0FCCCCD 0 0) (.cvt (v3 8 10 0x70 2)) 0 8 1 = some 0xFFFFFFF9 ∧
    left (abc 0x3F800000 0xBF800000 0) (.fadd .f32 (v3 8 10 12 0)) 0 8 1 = some 0 ∧
    later (abc 0xBF800000 0 0) (.fdiv .f32 (v3 8 10 12 0)) 0 8 1 = some 0xFF800000 ∧
    left (abc 1 0 0) (.fexpo .f32 (v3 8 10 0 0)) 0 8 1 = some (2 ^ 32 - 149) ∧
    left (abc 0x80000001 0 0) (.fclass .f32 (v3 8 10 0 0)) 0 8 1 = some 16 := by decide +kernel

/-- The worked values of R207: halves of [1, 2], of [−∞, 4] and of everything; and the quotients of its further example. -/
theorem test_intervals :
    left (abc 0x400000003F800000 0 0 2) (.ivsplit .f32 (v3 8 10 12 0)) 0 8 2 = some 0x3FC000003F800000 ∧
    left (abc 0x400000003F800000 0 0 2) (.ivsplit .f32 (v3 8 10 12 0)) 0 12 2 = some 0x400000003FC00000 ∧
    left (abc 0x40800000FF800000 0 0 2) (.ivsplit .f32 (v3 8 10 12 0)) 0 8 2 = some 0xFF7FFFFFFF800000 ∧
    left (abc 0x7F800000FF800000 0 0 2) (.ivsplit .f32 (v3 8 10 12 0)) 0 12 2 = some 0x7F80000000000000 ∧
    later (abc 0x404000003F800000 0x4040000040400000 0 2) (.fdiv .f32 { v3 8 10 12 0 with i := true }) 0 8 2 = some 0x3F8000003EAAAAAA ∧
    later (abc 0x404000003F800000 0x40000000BF800000 0 2) (.fdiv .f32 { v3 8 10 12 0 with i := true }) 0 8 2 = some 0x7F800000FF800000 ∧
    left (abc 0x3F8000003EAAAAAA 0 0 2) (.fcmpImm .f32 { vi 0x21 10 0x3F0000 with i := true }) 0 0 1 = some 8 := by decide +kernel

/-- The worked values of R223, R227 and R228: U and T, and then its resolution to F; the sum of four fibres in tree order, and without the second. -/
theorem test_predicates_and_reductions :
    left (rand 1 fun _ x => (x.wrPred 2 .true_).wrPred 3 .undecided) (.pand (sf 1 2 3 0 0)) 0 0 1 = some (8 + 16 + 128) ∧
    left (rand 1 fun _ x => x.wrPred 1 .undecided) (.pres (sf 1 1 0 0 0)) 0 0 1 = some 0 ∧
    (let v (t : Nat) := [0x4B800000, 0x3F800000, 0x3F800000, 0xCB800000][t]?.getD 0
     left (rand 4 fun t x => x.wrVal 5 1 (v t)) (.rdx (sf 4 5 0 0 0)) 3 4 1 = some 0x3F800000 ∧
     left (rand 4 (fun t x => x.wrVal 5 1 (v t)) id id fun s => { s with issue := some ⟨1, 0, [0, 2, 3]⟩ }) (.rdx (sf 4 5 0 0 0)) 0 4 1 = some 0x3F800000 ∧
     left (rand 4 fun t x => x.wrVal 5 1 (v t)) (.scan (sf 4 5 0 0 0)) 2 4 1 = some 0x4B800000 ∧
     left (rand 4 fun t x => x.wrVal 5 1 (v t)) (.scan (sf 4 5 0 0 0)) 3 4 1 = some 0) := by decide +kernel

/-- R217's example: the fibre in slot 0 and its child in slot 1 each hold a half; a branch that is taken; CALL's new window (R60). -/
theorem test_control :
    left (rand 1 fun _ x => x.wrVal 8 2 0x400000003F800000) (.ivfork (cf 8 2 0 0)) 0 8 2 = some 0x3FC000003F800000 ∧
    left (rand 1 fun _ x => x.wrVal 8 2 0x400000003F800000) (.ivfork (cf 8 2 0 0)) 1 8 2 = some 0x400000003FC00000 ∧
    (match exec (.bra (cf 0 0 (-3) 0)) plain with
      | .next u => (u.fibreAt 1 0 0).map fun x => x.pc.toNat
      | _ => none) = some (bootPc - 24) ∧
    left (rand 1 fun _ x => x.wr 0 0x81) (.call (cf 0 2 5 0)) 0 0 2 = some (16 * 2 ^ 32 + 0x81) ∧
    left plain (.call (cf 0 2 5 0)) 0 2 2 = some (bootPc + 8) := by decide +kernel

/-- A word put where the next step fetches it runs as the first instruction: MOV.s32 v12, #0x1F (spec/06). -/
theorem test_first_step :
    (match step (State.reset.withFetchWord 64 0x97400180000003E0) with
      | .next u => (u.gangs.head?.bind fun g => g.skeins[0]?.bind fun k => k.fibre 0).map fun x => (x.rdVal 12 1, x.pc.toNat)
      | _ => none) = some (0x1F, bootPc + 8) := by decide +kernel

/-- A word that is no instruction faults ILLEGAL_OP (code 1, R147): without a handler the fibre's gang ends. -/
theorem test_illegal_word :
    (match step (State.reset.withFetchWord 64 0xE000000000000000) with
      | .next u => u.gangs.head?.map fun g => g.ended
      | _ => none) = some true := by decide +kernel

/-- Memory reads back low byte first (R4), and a byte written to 0 is listed no more (notes/assumptions/4). -/
theorem test_memory_order :
    (State.reset.mem.writeBytes 0x20000 (bytesOf 4 0x11223344)).readBytes 0x20000 4 = [0x44, 0x33, 0x22, 0x11] ∧
    ((State.reset.mem.writeBytes 0x20000 [1]).writeBytes 0x20000 [0]).wf = true := by decide +kernel

/-- The example of the SM3 standard, which spec/14 names: the digest of "abc" (notes/assumptions/30). -/
theorem test_sm3 : ofBytes (sm3 [0x61, 0x62, 0x63]).reverse = 0x66C7F0F462EEEDD9D1F2D46BDC10E4E24167C4875CF2F7A2297DA02B8F4BA8E0 := by decide +kernel

end Sys2Proof.Tests
end

