-- ==== Sys2Proof/Tests/Witnesses.lean ====
section
/-! SUPPORT. For each statement with hypotheses, states and operands that meet them: the statements about words, each
of which is ready in the state named, with what the clause asks besides, and those about steps and memory. -/

namespace Sys2Proof.Tests

open Sys2Proof Sys2Proof.Machine Sys2Proof.Says

set_option maxRecDepth 100000
set_option Elab.async false

/-- Every word of the statement, LEA at its greatest shift. -/
theorem witness_IntegerArithmetic : ReadyAll plain [
    .iadd .s32 (v3 8 10 12 0), .iadd .n32 (v3 8 10 12 0), .iadd .s64 (v3 8 10 12 0), .iadd .n64 (v3 8 10 12 0),
    .iaddImm .s32 (vi 8 10 5), .iaddImm .n32 (vi 8 10 5), .iaddImm .s64 (vi 8 10 5), .iaddImm .n64 (vi 8 10 5),
    .isub .s32 (v3 8 10 12 0), .isub .n32 (v3 8 10 12 0), .isub .s64 (v3 8 10 12 0), .isub .n64 (v3 8 10 12 0),
    .isubImm .s32 (vi 8 10 5), .isubImm .n32 (vi 8 10 5), .isubImm .s64 (vi 8 10 5), .isubImm .n64 (vi 8 10 5),
    .imul .s32 (v3 8 10 12 0), .imul .n32 (v3 8 10 12 0), .imul .s64 (v3 8 10 12 0), .imul .n64 (v3 8 10 12 0),
    .imulImm .s32 (vi 8 10 5), .imulImm .n32 (vi 8 10 5), .imulImm .s64 (vi 8 10 5), .imulImm .n64 (vi 8 10 5),
    .imulh .s32 (v3 8 10 12 0), .imulh .n32 (v3 8 10 12 0), .imulh .s64 (v3 8 10 12 0), .imulh .n64 (v3 8 10 12 0),
    .imulhImm .s32 (vi 8 10 5), .imulhImm .n32 (vi 8 10 5), .imulhImm .s64 (vi 8 10 5), .imulhImm .n64 (vi 8 10 5),
    .imin .s32 (v3 8 10 12 0), .imin .n32 (v3 8 10 12 0), .imin .s64 (v3 8 10 12 0), .imin .n64 (v3 8 10 12 0),
    .iminImm .s32 (vi 8 10 5), .iminImm .n32 (vi 8 10 5), .iminImm .s64 (vi 8 10 5), .iminImm .n64 (vi 8 10 5),
    .imax .s32 (v3 8 10 12 0), .imax .n32 (v3 8 10 12 0), .imax .s64 (v3 8 10 12 0), .imax .n64 (v3 8 10 12 0),
    .imaxImm .s32 (vi 8 10 5), .imaxImm .n32 (vi 8 10 5), .imaxImm .s64 (vi 8 10 5), .imaxImm .n64 (vi 8 10 5),
    .imad .s32 (v3 8 10 12 14), .imad .n32 (v3 8 10 12 14), .imad .s64 (v3 8 10 12 14), .imad .n64 (v3 8 10 12 14),
    .imadImm .s32 (vi 8 10 5), .imadImm .n32 (vi 8 10 5), .imadImm .s64 (vi 8 10 5), .imadImm .n64 (vi 8 10 5),
    .lea .s32 (v3 8 10 12 7), .lea .n32 (v3 8 10 12 7), .lea .s64 (v3 8 10 12 7), .lea .n64 (v3 8 10 12 7),
    .leaImm .s32 (vi 8 10 5), .leaImm .n32 (vi 8 10 5), .leaImm .s64 (vi 8 10 5), .leaImm .n64 (vi 8 10 5)] := ready_with (by decide +kernel)

/-- Every word; the divisor is zero in the V3 forms and five in the VI forms. -/
theorem witness_DivisionLeavesPendingResult : ReadyAll plain [
    .idiv .s32 (v3 8 10 12 0), .idiv .n32 (v3 8 10 12 0), .idiv .s64 (v3 8 10 12 0), .idiv .n64 (v3 8 10 12 0),
    .idivImm .s32 (vi 8 10 5), .idivImm .n32 (vi 8 10 5), .idivImm .s64 (vi 8 10 5), .idivImm .n64 (vi 8 10 5),
    .irem .s32 (v3 8 10 12 0), .irem .n32 (v3 8 10 12 0), .irem .s64 (v3 8 10 12 0), .irem .n64 (v3 8 10 12 0),
    .iremImm .s32 (vi 8 10 5), .iremImm .n32 (vi 8 10 5), .iremImm .s64 (vi 8 10 5), .iremImm .n64 (vi 8 10 5)] := ready_with (by decide +kernel)

/-- Every word, ICMP under its first and last conditions. -/
theorem witness_WideMultiplyCompareMoveSelect : ReadyAll plain [
    .imadw .s32 (v3 8 10 12 14), .imadw .n32 (v3 8 10 12 14),
    .icmp .s32 (v3 3 10 12 0), .icmp .n32 (v3 3 10 12 0), .icmp .s64 (v3 3 10 12 0), .icmp .n64 (v3 3 10 12 0),
    .icmp .s32 (v3 3 10 12 5), .icmp .n32 (v3 3 10 12 5), .icmp .s64 (v3 3 10 12 5), .icmp .n64 (v3 3 10 12 5),
    .icmpImm .s32 (vi 3 10 5), .icmpImm .n32 (vi 3 10 5), .icmpImm .s64 (vi 3 10 5), .icmpImm .n64 (vi 3 10 5),
    .icmpImm .s32 (vi 83 10 5), .icmpImm .n32 (vi 83 10 5), .icmpImm .s64 (vi 83 10 5), .icmpImm .n64 (vi 83 10 5),
    .mov .s32 (v3 8 10 0 0), .mov .n32 (v3 8 10 0 0), .mov .s64 (v3 8 10 0 0), .mov .n64 (v3 8 10 0 0),
    .movImm .s32 (vi 8 0 5), .movImm .n32 (vi 8 0 5), .movImm .s64 (vi 8 0 5), .movImm .n64 (vi 8 0 5),
    .movh .s32 (vi 8 0 5), .movh .n32 (vi 8 0 5),
    .sel3 .b32 (v3 8 10 12 15), .sel3 .b64 (v3 8 10 12 15)] := ready_with (by decide +kernel)

/-- Every word. -/
theorem witness_LogicOperations : ReadyAll plain [
    .and .b32 (v3 8 10 12 0), .and .b64 (v3 8 10 12 0),
    .andImm .b32 (vi 8 10 5), .andImm .b64 (vi 8 10 5),
    .or .b32 (v3 8 10 12 0), .or .b64 (v3 8 10 12 0),
    .orImm .b32 (vi 8 10 5), .orImm .b64 (vi 8 10 5),
    .xor .b32 (v3 8 10 12 0), .xor .b64 (v3 8 10 12 0),
    .xorImm .b32 (vi 8 10 5), .xorImm .b64 (vi 8 10 5),
    .andn .b32 (v3 8 10 12 0), .andn .b64 (v3 8 10 12 0),
    .andnImm .b32 (vi 8 10 5), .andnImm .b64 (vi 8 10 5),
    .orn .b32 (v3 8 10 12 0), .orn .b64 (v3 8 10 12 0),
    .ornImm .b32 (vi 8 10 5), .ornImm .b64 (vi 8 10 5)] := ready_with (by decide +kernel)

/-- Every word, with a count of the width in the immediate forms. -/
theorem witness_ShiftsAndRotates : ReadyAll plain [
    .shl .b32 (v3 8 10 12 0), .shl .b64 (v3 8 10 12 0),
    .shlImm .b32 (vi 8 10 64), .shlImm .b64 (vi 8 10 64),
    .shr .b32 (v3 8 10 12 0), .shr .b64 (v3 8 10 12 0),
    .shrImm .b32 (vi 8 10 64), .shrImm .b64 (vi 8 10 64),
    .sar .b32 (v3 8 10 12 0), .sar .b64 (v3 8 10 12 0),
    .sarImm .b32 (vi 8 10 64), .sarImm .b64 (vi 8 10 64),
    .rotl .b32 (v3 8 10 12 0), .rotl .b64 (v3 8 10 12 0),
    .rotlImm .b32 (vi 8 10 64), .rotlImm .b64 (vi 8 10 64)] := ready_with (by decide +kernel)

/-- Every word. -/
theorem witness_FieldAndByteOperations : ReadyAll plain [
    .fshl .b32 (v3 8 10 12 14), .fshl .b64 (v3 8 10 12 14),
    .bfx .b32 (v3 8 10 12 0), .bfx .b64 (v3 8 10 12 0),
    .bfxImm .b32 (vi 8 10 5), .bfxImm .b64 (vi 8 10 5),
    .bfi .b32 (v3 8 10 12 14), .bfi .b64 (v3 8 10 12 14),
    .bfiImm .b32 (vi 8 10 5), .bfiImm .b64 (vi 8 10 5),
    .bperm .b32 (v3 8 10 12 0), .bperm .b64 (v3 8 10 12 0),
    .bpermImm .b32 (vi 8 10 5), .bpermImm .b64 (vi 8 10 5)] := ready_with (by decide +kernel)

/-- Every word. -/
theorem witness_BitCountsAndReversal : ReadyAll plain [
    .popc .b32 (v3 8 10 0 0), .popc .b64 (v3 8 10 0 0),
    .clz .b32 (v3 8 10 0 0), .clz .b64 (v3 8 10 0 0),
    .ctz .b32 (v3 8 10 0 0), .ctz .b64 (v3 8 10 0 0),
    .brev .b32 (v3 8 10 0 0), .brev .b64 (v3 8 10 0 0)] := ready_with (by decide +kernel)

/-- Fibres whose register group from 12 on holds the interval from 1 to 2, as binary32 bounds. -/
def ivState : State := rand 1 fun _ x => (x.wrVal 12 1 0x3F800000).wrVal 13 1 0x40000000

/-- Every word, points and intervals. -/
theorem witness_FloatArithmetic : ReadyAll plain [
    .fadd .f32 (v3 8 10 12 0), .fadd .f64 (v3 8 10 12 0), .fadd .f16 (v3 8 10 12 0), .fadd .bf16 (v3 8 10 12 0), .fadd .f32 { v3 8 12 16 0 with i := true }, .fadd .f64 { v3 8 12 16 0 with i := true },
    .faddImm .f32 (vi 8 10 5), .faddImm .f64 (vi 8 10 5), .faddImm .f16 (vi 8 10 5), .faddImm .bf16 (vi 8 10 5), .faddImm .f32 { vi 8 12 0x3F8000 with i := true }, .faddImm .f64 { vi 8 12 0x3F8000 with i := true },
    .fmul .f32 (v3 8 10 12 0), .fmul .f64 (v3 8 10 12 0), .fmul .f16 (v3 8 10 12 0), .fmul .bf16 (v3 8 10 12 0), .fmul .f32 { v3 8 12 16 0 with i := true }, .fmul .f64 { v3 8 12 16 0 with i := true },
    .fmulImm .f32 (vi 8 10 5), .fmulImm .f64 (vi 8 10 5), .fmulImm .f16 (vi 8 10 5), .fmulImm .bf16 (vi 8 10 5), .fmulImm .f32 { vi 8 12 0x3F8000 with i := true }, .fmulImm .f64 { vi 8 12 0x3F8000 with i := true },
    .fdiv .f32 (v3 8 10 12 0), .fdiv .f64 (v3 8 10 12 0), .fdiv .f16 (v3 8 10 12 0), .fdiv .bf16 (v3 8 10 12 0), .fdiv .f32 { v3 8 12 16 0 with i := true }, .fdiv .f64 { v3 8 12 16 0 with i := true },
    .fdivImm .f32 (vi 8 10 5), .fdivImm .f64 (vi 8 10 5), .fdivImm .f16 (vi 8 10 5), .fdivImm .bf16 (vi 8 10 5), .fdivImm .f32 { vi 8 12 0x3F8000 with i := true }, .fdivImm .f64 { vi 8 12 0x3F8000 with i := true },
    .ffma .f32 (v3 8 10 12 14), .ffma .f64 (v3 8 10 12 14), .ffma .f16 (v3 8 10 12 14), .ffma .bf16 (v3 8 10 12 14), .ffma .f32 { v3 8 12 16 20 with i := true }, .ffma .f64 { v3 8 12 16 20 with i := true },
    .ffmaImm .f32 (vi 8 10 5), .ffmaImm .f64 (vi 8 10 5), .ffmaImm .f16 (vi 8 10 5), .ffmaImm .bf16 (vi 8 10 5), .ffmaImm .f32 { vi 8 12 0x3F8000 with i := true }, .ffmaImm .f64 { vi 8 12 0x3F8000 with i := true },
    .fsqrt .f32 (v3 8 10 0 0), .fsqrt .f64 (v3 8 10 0 0), .fsqrt .f16 (v3 8 10 0 0), .fsqrt .bf16 (v3 8 10 0 0), .fsqrt .f32 { v3 8 12 0 0 with i := true }, .fsqrt .f64 { v3 8 12 0 0 with i := true }] := ready_with (by decide +kernel)

/-- Every word, points and intervals. -/
theorem witness_FloatExtremesIntegralsAndScaling : ReadyAll plain [
    .fmin .f32 (v3 8 10 12 0), .fmin .f64 (v3 8 10 12 0), .fmin .f16 (v3 8 10 12 0), .fmin .bf16 (v3 8 10 12 0), .fmin .f32 { v3 8 12 16 0 with i := true }, .fmin .f64 { v3 8 12 16 0 with i := true },
    .fminImm .f32 (vi 8 10 5), .fminImm .f64 (vi 8 10 5), .fminImm .f16 (vi 8 10 5), .fminImm .bf16 (vi 8 10 5), .fminImm .f32 { vi 8 12 0x3F8000 with i := true }, .fminImm .f64 { vi 8 12 0x3F8000 with i := true },
    .fmax .f32 (v3 8 10 12 0), .fmax .f64 (v3 8 10 12 0), .fmax .f16 (v3 8 10 12 0), .fmax .bf16 (v3 8 10 12 0), .fmax .f32 { v3 8 12 16 0 with i := true }, .fmax .f64 { v3 8 12 16 0 with i := true },
    .fmaxImm .f32 (vi 8 10 5), .fmaxImm .f64 (vi 8 10 5), .fmaxImm .f16 (vi 8 10 5), .fmaxImm .bf16 (vi 8 10 5), .fmaxImm .f32 { vi 8 12 0x3F8000 with i := true }, .fmaxImm .f64 { vi 8 12 0x3F8000 with i := true },
    .frnd .f32 (v3 8 10 0 0), .frnd .f64 (v3 8 10 0 0), .frnd .f16 (v3 8 10 0 0), .frnd .bf16 (v3 8 10 0 0), .frnd .f32 { v3 8 12 0 0 with i := true }, .frnd .f64 { v3 8 12 0 0 with i := true },
    .fscale .f32 (v3 8 10 12 0), .fscale .f64 (v3 8 10 12 0), .fscale .f16 (v3 8 10 12 0), .fscale .bf16 (v3 8 10 12 0), .fscale .f32 { v3 8 12 16 0 with i := true }, .fscale .f64 { v3 8 12 16 0 with i := true },
    .fscaleImm .f32 (vi 8 10 5), .fscaleImm .f64 (vi 8 10 5), .fscaleImm .f16 (vi 8 10 5), .fscaleImm .bf16 (vi 8 10 5), .fscaleImm .f32 { vi 8 12 0x3F8000 with i := true }, .fscaleImm .f64 { vi 8 12 0x3F8000 with i := true }] := ready_with (by decide +kernel)

/-- Every word, points and intervals where there is an interval form. -/
theorem witness_ApproximateFunctions : ReadyAll plain [
    .frcp .f32 (v3 8 10 0 0), .frcp .f64 (v3 8 10 0 0), .frcp .f16 (v3 8 10 0 0), .frcp .bf16 (v3 8 10 0 0), .frcp .f32 { v3 8 12 0 0 with i := true }, .frcp .f64 { v3 8 12 0 0 with i := true },
    .frsq .f32 (v3 8 10 0 0), .frsq .f64 (v3 8 10 0 0), .frsq .f16 (v3 8 10 0 0), .frsq .bf16 (v3 8 10 0 0), .frsq .f32 { v3 8 12 0 0 with i := true }, .frsq .f64 { v3 8 12 0 0 with i := true },
    .fex2 .f32 (v3 8 10 0 0), .fex2 .f64 (v3 8 10 0 0), .fex2 .f16 (v3 8 10 0 0), .fex2 .bf16 (v3 8 10 0 0), .fex2 .f32 { v3 8 12 0 0 with i := true }, .fex2 .f64 { v3 8 12 0 0 with i := true },
    .flg2 .f32 (v3 8 10 0 0), .flg2 .f64 (v3 8 10 0 0), .flg2 .f16 (v3 8 10 0 0), .flg2 .bf16 (v3 8 10 0 0), .flg2 .f32 { v3 8 12 0 0 with i := true }, .flg2 .f64 { v3 8 12 0 0 with i := true },
    .fsinp .f32 (v3 8 10 0 0), .fsinp .f64 (v3 8 10 0 0), .fsinp .f16 (v3 8 10 0 0), .fsinp .bf16 (v3 8 10 0 0), .fsinp .f32 { v3 8 12 0 0 with i := true }, .fsinp .f64 { v3 8 12 0 0 with i := true },
    .fcosp .f32 (v3 8 10 0 0), .fcosp .f64 (v3 8 10 0 0), .fcosp .f16 (v3 8 10 0 0), .fcosp .bf16 (v3 8 10 0 0), .fcosp .f32 { v3 8 12 0 0 with i := true }, .fcosp .f64 { v3 8 12 0 0 with i := true }] := ready_with (by decide +kernel)

/-- Every word; comparisons under the first and the last condition. -/
theorem witness_FloatInspectionAndComparison : ReadyAll plain [
    .fclass .f32 (v3 8 10 0 0), .fclass .f64 (v3 8 10 0 0), .fclass .f16 (v3 8 10 0 0), .fclass .bf16 (v3 8 10 0 0),
    .fexpo .f32 (v3 8 10 0 0), .fexpo .f64 (v3 8 10 0 0), .fexpo .f16 (v3 8 10 0 0), .fexpo .bf16 (v3 8 10 0 0),
    .fmant .f32 (v3 8 10 0 0), .fmant .f64 (v3 8 10 0 0), .fmant .f16 (v3 8 10 0 0), .fmant .bf16 (v3 8 10 0 0),
    .fcmp .f32 (v3 3 10 12 0), .fcmp .f64 (v3 3 10 12 0), .fcmp .f16 (v3 3 10 12 0), .fcmp .bf16 (v3 3 10 12 0), .fcmp .f32 (v3 3 10 12 7), .fcmp .f64 (v3 3 10 12 7), .fcmp .f16 (v3 3 10 12 7), .fcmp .bf16 (v3 3 10 12 7), .fcmp .f32 { v3 3 12 16 10 with i := true }, .fcmp .f64 { v3 3 12 16 10 with i := true },
    .fcmpImm .f32 (vi 3 10 5), .fcmpImm .f64 (vi 3 10 5), .fcmpImm .f16 (vi 3 10 5), .fcmpImm .bf16 (vi 3 10 5), .fcmpImm .f32 { vi 163 12 5 with i := true }, .fcmpImm .f64 { vi 163 12 5 with i := true }] := ready_with (by decide +kernel)

/-- Every word, CVT between formats of each sort. -/
theorem witness_Conversions : ReadyAll plain [
    .cvt (v3 8 10 16 0), .cvt (v3 8 10 1 0), .cvt (v3 8 10 112 0), .cvt (v3 8 10 228 0), .cvt (v3 8 10 41 0), .cvt (v3 8 10 202 0),
    .cvtb (v3 8 10 0x60 0),
    .pack2 .f16 (v3 8 10 12 0), .pack2 .bf16 (v3 8 10 12 0),
    .unpk .f16 (v3 8 10 0x02 0), .unpk .f16 (v3 8 10 0x3E 0), .unpk .bf16 (v3 8 10 0x13 0)] := ready_with (by decide +kernel)

/-- Every word, IVMK with a wider source too. -/
theorem witness_IntervalOperations : ReadyAll plain [
    .ivmk .f32 (v3 8 10 12 0), .ivmk .f64 (v3 8 10 12 0), .ivmk .f32 (v3 8 10 12 1),
    .ivmid .f32 (v3 8 12 0 0), .ivmid .f64 (v3 8 12 0 0),
    .ivwid .f32 (v3 8 12 0 0), .ivwid .f64 (v3 8 12 0 0),
    .ivmag .f32 (v3 8 12 0 0), .ivmag .f64 (v3 8 12 0 0),
    .ivmig .f32 (v3 8 12 0 0), .ivmig .f64 (v3 8 12 0 0),
    .ivhull .f32 (v3 8 12 16 0), .ivhull .f64 (v3 8 12 16 0),
    .ivisect .f32 (v3 8 12 16 0), .ivisect .f64 (v3 8 12 16 0),
    .ivsplit .f32 (v3 8 12 16 0), .ivsplit .f64 (v3 8 12 16 0)] := ready_with (by decide +kernel)

/-- Every word. -/
theorem witness_BranchesCallsAndReturns : ReadyAll plain [
    .bra (cf 0 0 1 0), .brx (cf 10 0 0 0), .brdec (cf 10 0 1 0), .call (cf 0 1 1 0), .callx (cf 10 29 0 0), .ret (cf 0 0 0 0)] := ready_with (by decide +kernel)

/-- Every word. -/
theorem witness_PredicateLogicAndElection : ReadyAll (rand 3 fun _ x => x) [
    .nop (sf 0 0 0 0 0), .pand (sf 1 2 15 0 0), .por (sf 1 2 15 0 0), .pxor (sf 1 2 15 0 0), .pnot (sf 1 2 0 0 0), .pres (sf 1 2 0 0 0), .pres (sf 1 2 0 0 1), .pmov (sf 1 2 0 0 0), .elect (sf 1 0 0 0 0)] := ready_with (by decide +kernel)

/-- Every word in each of its modes. -/
theorem witness_ShufflesBallotsAndVotes : ReadyAll (rand 3 fun _ x => x) [
    .shfl (sf 8 10 12 0 0), .shfl (sf 8 10 12 0 1), .shfl (sf 8 10 12 0 2), .shfl (sf 8 10 12 0 3), .shfl (sf 8 10 12 0 4), .shfl (sf 8 10 12 0 5), .shfl (sf 8 10 12 0 6), .shfl (sf 8 10 12 0 7),
    .ballot (sf 8 0 0 0 15), .ballot (sf 8 0 0 1 15), .ballot (sf 8 0 0 2 15),
    .vote (sf 1 0 0 0 15), .vote (sf 1 0 0 1 15), .vote (sf 1 0 0 2 15)] := ready_with (by decide +kernel)

/-- Every operation, on an integer and a floating type. -/
theorem witness_ReductionsAndScans : ReadyAll (rand 3 fun _ x => x) [
    .rdx (sf 8 10 0 0 0), .rdx (sf 8 10 0 1 1), .rdx (sf 8 10 0 7 2), .rdx (sf 8 10 0 8 3), .rdx (sf 8 10 0 9 4), .rdx (sf 8 10 0 10 5),
    .scan (sf 8 10 0 0 0), .scan (sf 8 10 0 1 1), .scan (sf 8 10 0 7 2), .scan (sf 8 10 0 8 11), .scan (sf 8 10 0 9 12), .scan (sf 8 10 0 10 13)] := ready_with (by decide +kernel)

/-! ## Control, fibres, barriers -/

/-- RMARK and RJOIN for three fibres; RJOIN too where every fibre of the mask is in the batch, unguarded, and nobody waits. -/
theorem witness_ReconvergenceMarksAndJoins :
    ReadyAll (rand 3 fun _ x => x) [.rmark (cf 10 0 4 0), .rjoin (cf 10 0 0 0)] ∧
    ReadyWith (fun b => decide (b.passing (.rjoin (cf 10 0 0 0)) = b.all ∧
        (∀ p ∈ b.all, p.2.parked = false ∧ p.2.expansion = none ∧ p.2.pair 10 &&& ~~~(maskOf (b.all.map (·.1))) = 0) ∧
        (∀ p ∈ b.all, ∀ q ∈ b.all, p.2.pc = q.2.pc) ∧ (∀ p ∈ b.sk.live, p.2.wait ≠ .rjoin)))
      (rand 3 fun _ x => x.wr 10 7) [.rjoin (cf 10 0 0 0)] :=
  ⟨ready_with (by decide +kernel), ready_with (by decide +kernel)⟩

/-- One fibre and a free slot beside it; for IVFORK it holds an interval. -/
theorem witness_FibreCreationAndEnd :
    ReadyWith (fun b => decide ((b.passing (.fnew (cf 10 0 4 0))).length = 1 ∧ b.sk.freeSlot.isSome = true)) plain [.fnew (cf 10 0 4 0)] ∧
    ReadyWith (fun b => decide (b.sk.freeSlot.isSome = true) && match b.passing (.ivfork (cf 12 3 0 0)) with
        | [(_, x)] => (ivIn fmtF32 x 12 false false).isSome
        | _ => false) ivState [.ivfork (cf 12 3 0 0)] ∧
    ReadyWith (fun b => match b.passing (.ivfork (cf 12 3 0 1)) with
        | [(_, x)] => b.sk.freeSlot.isSome && (ivIn fmtF64 x 12 false false).isSome
        | _ => false) plain [.ivfork (cf 12 3 0 1)] ∧
    ReadyAll plain [.fend (cf 0 0 0 0), .exit (cf 0 0 0 0)] ∧ ReadyAll (handle id) [.exit (cf 0 0 0 0)] :=
  ⟨ready_with (by decide +kernel), ready_with (by decide +kernel), ready_with (by decide +kernel), ready_with (by decide +kernel),
    ready_with (by decide +kernel)⟩

/-- Two fibres, the second of which has arrived at barriers 0 and 15 already; nobody owes an earlier operation. -/
theorem witness_BarriersAndMigrationRequests :
    ReadyWith (fun b => (b.passing (.bara (cf 0 0 0 0))).all fun p => b.sk.settled b.sk.nextSeq p.2.uid && !p.2.parked && !p.2.emul)
      (rand 2 fun t x => { x with barIn := t * 0x8001 })
      [.bara (cf 0 0 0 0), .bara (cf 0 15 0 0), .barw (cf 0 0 0 0), .barw (cf 0 15 0 0), .bar (cf 0 0 0 0), .bar (cf 0 15 0 0),
        .sbar (cf 0 0 0 0), .migrate (cf 9 0 77 5), .step (sf 0 0 0 0 0)] :=
  ready_with (by decide +kernel)

/-- A gang of two fibres that wait at barrier 15, which both have reached. -/
def barred : Gang :=
  { bootGang 1 false with skeins := [Skein.fresh 32 0 0 true (fibres 2 fun _ x => { x with barIn := 0x8000, wait := .barw, waitArg := 15 })] }

/-- The hypotheses on the gang above, for its second fibre. -/
theorem witness_BarrierPhaseReleasesTheGang : ∃ sk x, barred.skeins[0]? = some sk ∧ sk.fibre 1 = some x ∧
    (∀ y ∈ barred.live, y.barIn.testBit 15 = true) ∧ x.wait = .barw ∧ x.waitArg = 15 ∧ x.expansion = none :=
  ⟨_, _, rfl, rfl, by decide +kernel, rfl, rfl, rfl⟩

/-! ## Memory -/

/-- Scratch bank 0 and FIFO bank 1 of world 0 in cluster 0; a host page of the world at 0x40000, with its host translation. -/
def withMemory (s : State) : State :=
  { s with
    clusters := [(0, { Cluster.reset with banks := [(0, { Bank.reset with mode := .scratch }), (1, { Bank.reset with mode := .fifo, entries := [5, 6, 7] })] })]
    worlds := [(0, { World.reset with wpasid := 0x100000 })]
    tlb := ⟨0, 1, 1, 1, 0x7000, 0x17D + 2 ^ 14, 0, 0⟩ :: s.tlb
    ats := [⟨0, 7, 9, true, true, 0⟩] }

/-- Fibres whose address pair 10 is a: a page of device memory, scratch, or the host page. -/
def memState (n a : Nat) (g : Gang → Gang := id) : State := rand n (fun t x => (x.wrVal 10 2 (a + 64 * t)).wr 14 0x1234) g id withMemory

/-- What `IssuesAccess` asks besides `Ready`, with a condition on the parts. -/
def issues (s : State) (i : Instr) (f : MF) (m : Form) (ports : Bool) (b : Batch) : Bool :=
  let load : Bool := m.kind == 1 || m.kind == 2 || m.kind == 5 || m.kind == 6
  decide (f.space ≠ .localMem ∧ b.g.log.mode = 0 ∧ (b.g.det = true → m.kind ≤ 4 ∨ f.scope = .skein ∨ f.scope = .gang) ∧ (if load then b.sk.l < 63 else b.sk.s < 63)) &&
    match s.atIssue.askAll (b.taking i) (fun _ x => ⟨f.space, m.acc b, address f m.indexed m.offset (bytes f) b x, bytes f, m.align, m.aop, m.cas, f.hint.toNat⟩)
      (b.passing i) with
    | .done [] oks _ =>
      let host : Bool := decide (5 ≤ m.kind) && oks.any fun o => o.2.2.any fun p => p.home == .host
      decide ((m.kind ≤ 2 ∨ b.sk.ackc < 1023 ∧ (host = true → b.sk.record = [] ∧ (∀ o ∈ oks, ∀ p ∈ o.2.2, p.hat ≠ 2) ∧ oks.length = 1 ∧
          f.order ≠ .rel ∧ f.order ≠ .acqrel)) ∧
        ∀ o ∈ oks, ∀ p ∈ o.2.2, p.port = ports)
    | _ => false

/-- What `PerformsLocally` asks besides `Ready`, where one fibre passes. -/
def locals (s : State) (i : Instr) (f : MF) (m : Form) (b : Batch) : Bool :=
  decide (f.space = .localMem ∧ (b.g.det = true → m.kind ≤ 4 ∨ f.scope = .skein ∨ f.scope = .gang)) &&
    match s.atIssue.askAll (b.taking i) (fun _ x => ⟨f.space, m.acc b, address f m.indexed m.offset (bytes f) b x, bytes f, m.align, m.aop, m.cas, f.hint.toNat⟩)
      (b.passing i) with
    | .done [] [_] _ => true
    | _ => false

def loadForm (f : MF) (kind aop align : Nat) : Form :=
  { kind := kind, aop := aop, cas := false, acc := fun _ => .load, align := align, dst := fun x => x.place f.data.toNat, data := fun _ => 0,
    cmp := fun _ => 0, offset := f.off.toInt, indexed := true }

def storeForm (f : MF) (kind align : Nat) : Form :=
  { kind := kind, aop := 0, cas := false, acc := fun _ => .store, align := align, dst := fun _ => 0, data := fun x => group f x f.data,
    cmp := fun _ => 0, offset := f.off.toInt, indexed := true }

def atomForm (f : MF) (red : Bool) : Form :=
  { kind := if red then 7 else 5, aop := f.off.toNat / 256, cas := false, acc := fun b => if red then .reduce b.g.det else .atomic b.g.det,
    align := bytes f, dst := fun x => if red then 0 else x.place f.data.toNat, data := fun x => group f x f.data, cmp := fun _ => 0,
    offset := (f.off.setWidth 8).toInt, indexed := true }

def casForm (f : MF) : Form :=
  { kind := 6, aop := 16, cas := true, acc := fun b => .atomic b.g.det, align := bytes f, dst := fun x => x.place f.data.toNat,
    data := fun x => group f x f.data, cmp := fun x => group f x f.index, offset := f.off.toInt, indexed := false }

/-- A handle-core thread with address 0x100 in its local memory. -/
def localState : State := handle fun x => (x.wrVal 10 2 0x100).wr 14 0x1234

/-- Loads of two fibres: each size, device memory, scratch, the host page; an index with an acquire; an access over two pages; a thread's local memory. -/
theorem witness_LoadsIssue :
    (∀ z ∈ [0, 1, 2, 3, 4], ReadyWith (issues (memState 2 0x20000) (.ld (mf .global z 20 10 .gang)) (mf .global z 20 10 .gang)
      (loadForm (mf .global z 20 10 .gang) 1 0 1) false) (memState 2 0x20000) [.ld (mf .global z 20 10 .gang)]) ∧
    ReadyWith (issues (memState 2 0x100) (.ld (mf .scratch 2 20 10 .gang)) (mf .scratch 2 20 10 .gang) (loadForm (mf .scratch 2 20 10 .gang) 1 0 1) false)
      (memState 2 0x100) [.ld (mf .scratch 2 20 10 .gang)] ∧
    ReadyWith (issues (memState 2 0x40000) (.ld (mf .global 2 20 10 .system)) (mf .global 2 20 10 .system) (loadForm (mf .global 2 20 10 .system) 1 0 1) true)
      (memState 2 0x40000) [.ld (mf .global 2 20 10 .system)] ∧
    ReadyWith (issues (memState 1 0x20000) (.ld { mf .global 2 20 10 .device with index := 14, order := .acq, off := 0x800 })
      { mf .global 2 20 10 .device with index := 14, order := .acq, off := 0x800 }
      (loadForm { mf .global 2 20 10 .device with index := 14, order := .acq, off := 0x800 } 1 0 1) false)
      (memState 1 0x20000) [.ld { mf .global 2 20 10 .device with index := 14, order := .acq, off := 0x800 }] ∧
    (∀ z ∈ [2, 3, 5], ReadyWith (issues (memState 2 0x20000) (.ldiv (mf .global z 20 10 .gang)) (mf .global z 20 10 .gang)
      (loadForm (mf .global z 20 10 .gang) 2 z.toNat (bytes (mf .global z 20 10 .gang))) false) (memState 2 0x20000) [.ldiv (mf .global z 20 10 .gang)]) ∧
    ReadyWith (locals localState (.ld (mf .localMem 2 20 10 .gang)) (mf .localMem 2 20 10 .gang) (loadForm (mf .localMem 2 20 10 .gang) 1 0 1))
      localState [.ld (mf .localMem 2 20 10 .gang)] :=
  ⟨by intro z hz; simp only [List.mem_cons, List.not_mem_nil, or_false] at hz
      obtain rfl | rfl | rfl | rfl | rfl := hz <;> exact ready_with (by decide +kernel),
    ready_with (by decide +kernel), ready_with (by decide +kernel), ready_with (by decide +kernel),
    by intro z hz; simp only [List.mem_cons, List.not_mem_nil, or_false] at hz
       obtain rfl | rfl | rfl := hz <;> exact ready_with (by decide +kernel),
    ready_with (by decide +kernel)⟩

/-- Stores and atomics of two fibres: device memory, the host page (an atomic of one fibre there), deterministic mode at gang scope, and a thread's local
memory. -/
theorem witness_StoresAndAtomicsIssue :
    ReadyWith (issues (memState 2 0x20000) (.st (mf .global 2 14 10 .gang)) (mf .global 2 14 10 .gang) (storeForm (mf .global 2 14 10 .gang) 3 1) false)
      (memState 2 0x20000) [.st (mf .global 2 14 10 .gang)] ∧
    ReadyWith (issues (memState 2 0x40000) (.st (mf .global 4 16 10 .gang)) (mf .global 4 16 10 .gang) (storeForm (mf .global 4 16 10 .gang) 3 1) true)
      (memState 2 0x40000) [.st (mf .global 4 16 10 .gang)] ∧
    ReadyWith (issues (memState 2 0x20000) (.stiv (mf .global 3 16 10 .gang)) (mf .global 3 16 10 .gang)
      (storeForm (mf .global 3 16 10 .gang) 4 (bytes (mf .global 3 16 10 .gang))) false) (memState 2 0x20000) [.stiv (mf .global 3 16 10 .gang)] ∧
    ReadyWith (issues (memState 2 0x20000) (.atom { mf .global 2 14 10 .device with off := 0x6FC }) { mf .global 2 14 10 .device with off := 0x6FC }
      (atomForm { mf .global 2 14 10 .device with off := 0x6FC } false) false)
      (memState 2 0x20000) [.atom { mf .global 2 14 10 .device with off := 0x6FC }] ∧
    ReadyWith (issues (memState 1 0x40000) (.atom (mf .global 3 14 10 .system)) (mf .global 3 14 10 .system) (atomForm (mf .global 3 14 10 .system) false) true)
      (memState 1 0x40000) [.atom (mf .global 3 14 10 .system)] ∧
    ReadyWith (issues (memState 2 0x100 fun g => { g with det := true }) (.atom (mf .scratch 2 14 10 .gang)) (mf .scratch 2 14 10 .gang)
      (atomForm (mf .scratch 2 14 10 .gang) false) false)
      (memState 2 0x100 fun g => { g with det := true }) [.atom (mf .scratch 2 14 10 .gang)] ∧
    ReadyWith (issues (memState 2 0x20000) (.atomc { mf .global 3 14 10 .device with index := 16 }) { mf .global 3 14 10 .device with index := 16 }
      (casForm { mf .global 3 14 10 .device with index := 16 }) false)
      (memState 2 0x20000) [.atomc { mf .global 3 14 10 .device with index := 16 }] ∧
    ReadyWith (issues (memState 2 0x20000) (.red (mf .global 2 14 10 .device)) (mf .global 2 14 10 .device) (atomForm (mf .global 2 14 10 .device) true) false)
      (memState 2 0x20000) [.red (mf .global 2 14 10 .device)] ∧
    ReadyWith (locals localState (.st (mf .localMem 3 14 10 .gang)) (mf .localMem 3 14 10 .gang) (storeForm (mf .localMem 3 14 10 .gang) 3 1))
      localState [.st (mf .localMem 3 14 10 .gang)] :=
  ⟨ready_with (by decide +kernel), ready_with (by decide +kernel), ready_with (by decide +kernel), ready_with (by decide +kernel), ready_with (by decide +kernel),
    ready_with (by decide +kernel), ready_with (by decide +kernel), ready_with (by decide +kernel), ready_with (by decide +kernel)⟩

/-- A page at 0x80000 whose accesses are cached. -/
def cachedPage (s : State) : State := { s with tlb := ⟨0, 1, 2, 1, 0x80000, 0x17D + 2 ^ 12, 0, 0⟩ :: s.tlb }

/-- CACHE.pref; CWB and CINV on a cached page, on one that is not, and on scratch's own page. -/
theorem witness_CacheLineOperations :
    (let f := mf .global 0 0 10 .gang
     ReadyAll (memState 2 0x20000) [.cachePref f]) ∧
    (∀ a ∈ [0x20000, 0x80000], let f := mf .global 2 0 10 .gang
     ReadyWith (fun b => match (cachedPage (memState 2 a)).atIssue.askAll (b.taking (.cacheCwb f))
          (fun _ x => ⟨f.space, .cwb, address f false f.off.toInt 128 b x, 1, 1, 0, false, f.hint.toNat⟩) (b.passing (.cacheCwb f)) with
        | .done [] _ _ => true
        | _ => false) (cachedPage (memState 2 a)) [.cacheCwb f]) ∧
    (∀ a ∈ [0x20000, 0x80000], let f := mf .global 1 0 10 .gang
     ReadyWith (fun b => match (cachedPage (memState 2 a)).atIssue.askAll (b.taking (.cacheCinv f))
          (fun _ x => ⟨f.space, .cinv, address f false f.off.toInt 128 b x, 1, 1, 0, false, f.hint.toNat⟩) (b.passing (.cacheCinv f)) with
        | .done [] _ _ => true
        | _ => false) (cachedPage (memState 2 a)) [.cacheCinv f]) :=
  ⟨ready_with (by decide +kernel),
    by intro a ha; simp only [List.mem_cons, List.not_mem_nil, or_false] at ha; obtain rfl | rfl := ha <;> exact ready_with (by decide +kernel),
    by intro a ha; simp only [List.mem_cons, List.not_mem_nil, or_false] at ha; obtain rfl | rfl := ha <;> exact ready_with (by decide +kernel)⟩

/-- Every FENCE of one kind and scope with nothing in flight; WAITC met exactly and missed by one. -/
theorem witness_FencesAndCounterWaits :
    ReadyWith (fun b => b.sk.record.isEmpty && b.sk.ackc == 0 && (List.range 6).all fun n => !plain.releaseHeld b.g.via n) plain
      [.fence (sf 0 0 0 1 1), .fence (sf 0 0 0 3 2), .fence (sf 0 0 0 4 3), .fence (sf 0 0 0 5 3)] ∧
    ReadyWith (fun b => decide (b.sk.l ≤ 2 ∧ b.sk.s ≤ 0 ∧ b.sk.c ≤ 1 ∧ b.sk.t ≤ 0))
      (rand 1 (fun _ x => x) id fun sk => { sk with l := 2, c := 1 }) [.waitc ⟨h0, 2, 0, 1, 0⟩] ∧
    ReadyWith (fun b => decide (¬ (b.sk.l ≤ 2 ∧ b.sk.s ≤ 0 ∧ b.sk.c ≤ 0 ∧ b.sk.t ≤ 0)) && b.sk.record.isEmpty)
      (rand 1 (fun _ x => x) id fun sk => { sk with l := 2, c := 1 }) [.waitc ⟨h0, 2, 0, 0, 0⟩] :=
  ⟨ready_with (by decide +kernel), ready_with (by decide +kernel), ready_with (by decide +kernel)⟩

/-- What `MonitorsWaitAndTest` asks besides `Ready`: the memory value read, and whether the condition holds. -/
def monitors (s : State) (i : Instr) (f : SF) (holds : Bool) (b : Batch) : Bool :=
  let n := if f.imm.toNat.testBit 3 then 8 else 4
  let scratch := f.imm.toNat.testBit 4
  let scope := if scratch then min 3 (f.imm.toNat % 8) else f.imm.toNat % 8
  match b.passing i with
  | [(t, x)] =>
    (match s.atIssue.askAll (b.taking i) (fun _ y => ⟨if scratch then .scratch else .global, .load, y.pair f.sa.toNat, n, 1, 0, false, 0⟩)
        [(t, { x with waive := true })] with
      | .done [] [(u, _, ps)] s1 =>
        decide (u = t ∧ ps ≠ [] ∧ (∀ p ∈ ps, p.port = false) ∧ b.sk.record = []) &&
          (match s1.monRead b.g scope ps with
            | .ok (v, _) => decide (v < 256 ^ n ∧
                condition (f.sub.toNat % 8) (8 * n) (BitVec.ofNat _ v) (BitVec.ofNat _ (x.rdVal f.sb.toNat (n / 4))) = holds)
            | .error _ => false)
      | _ => false)
  | _ => false

/-- A fibre that expects zero, or 0x1234, of a scratch word that is zero; a signed comparison of eight bytes. -/
theorem witness_MonitorsWaitAndTest :
    ReadyWith (monitors (memState 1 0x100) (.mwait (sf 0 10 12 0x13 0)) (sf 0 10 12 0x13 0) true) (memState 1 0x100) [.mwait (sf 0 10 12 0x13 0)] ∧
    ReadyWith (monitors (memState 1 0x100) (.mwait (sf 0 10 14 0x13 0)) (sf 0 10 14 0x13 0) false) (memState 1 0x100) [.mwait (sf 0 10 14 0x13 0)] ∧
    ReadyWith (monitors (memState 1 0x100) (.mtest (sf 3 10 14 0x1B 2)) (sf 3 10 14 0x1B 2) true) (memState 1 0x100) [.mtest (sf 3 10 14 0x1B 2)] ∧
    ReadyWith (monitors (memState 1 0x100) (.mtest (sf 3 10 14 0x13 5)) (sf 3 10 14 0x13 5) false) (memState 1 0x100) [.mtest (sf 3 10 14 0x13 5)] ∧
    ReadyWith (monitors (memState 1 0x10000) (.mtest (sf 3 10 12 0x05 0)) (sf 3 10 12 0x05 0) true) (memState 1 0x10000) [.mtest (sf 3 10 12 0x05 0)] :=
  ⟨ready_with (by decide +kernel), ready_with (by decide +kernel), ready_with (by decide +kernel), ready_with (by decide +kernel), ready_with (by decide +kernel)⟩

/-- Two gangs of one span, on cores 0 and 3 of a cluster: the first names skein 0 of core 3. -/
def twoGangs : State :=
  rand 2 (fun _ x => x.wr 12 3) (fun g => { g with grid := 9 }) id fun s => withMemory { s with
    gangs := s.gangs ++ [{ Gang.fresh 50 .rand 0 3 1 9 64 with
      gangid := 1, skeins := [Skein.fresh 32 64 0 true [Fibre.fresh 51 64 (BitVec.ofNat 64 bootPc) 0 0 0]] }] }

/-- RWRITE to the other gang; ARRWAIT on counters 0 and 3 with just enough arrivals; QPUSH and QPOP of two values on FIFO bank 1. -/
theorem witness_DepositsArrivalsAndFifoBanks :
    ReadyWith (fun b => match b.all.head?.map (·.2) with
        | some low => decide (low.rd 12 = 3 ∧ b.g.core = 0 ∧ b.sk.s < 63) &&
            ((twoGangs.depositTarget b.g 3).map fun p => decide (0 < p.1.skeins.length)).getD false
        | none => false) twoGangs [.rwrite (sf 0 10 12 0x314 0)] ∧
    ReadyWith (fun b => decide (b.sk.arrq = [] ∧ 2 ≤ b.sk.arrive.getD 0 0 ∧ 5 ≤ b.sk.arrive.getD 3 0 ∧ 3 < b.sk.arrive.length))
      (rand 2 (fun _ x => x) id fun sk => { sk with arrive := [2, 0, 0, 5] }) [.arrwait (sf 0 0 0 2 0), .arrwait (sf 0 0 0 5 3)] ∧
    ReadyWith (fun b =>
        let bank := ((memState 2 0x100).cluster b.g.cluster).bank 1
        decide (bank.mode = .fifo ∧ bank.world = (memState 2 0x100).worldOf b.g ∧ bank.waiters = [] ∧ b.g.det = false ∧ bank.entries.length = 3 ∧
          (∀ p ∈ b.all, b.sk.settled b.sk.nextSeq p.2.uid = true)))
      (memState 2 0x100) [.qpush (sf 0 14 0 1 0), .qpop (sf 20 0 0 1 0)] :=
  ⟨ready_with (by decide +kernel), ready_with (by decide +kernel), ready_with (by decide +kernel)⟩

/-! ## State registers, counters, banks -/

/-- GETS of every selector, outside deterministic mode, on a rand core and on a handle thread. -/
theorem witness_StateRegistersRead :
    (∀ s ∈ [rand 2 fun _ x => x, handle id], ReadyWith (fun b => !b.g.det) s
      ((List.range 9 ++ [0x10, 0x11, 0x18, 0x19, 0x1A] ++ (List.range 14).map (0x20 + ·) ++ [0x30, 0x31] ++ (List.range 6).map (0x38 + ·)).map
        fun n => .gets (sf 8 0 0 (BitVec.ofNat 16 n) 0))) := by
  intro s hs
  simp only [List.mem_cons, List.not_mem_nil, or_false] at hs
  obtain rfl | rfl := hs <;> exact ready_with (by decide +kernel)

/-- SETS of every selector that it writes. -/
theorem witness_StateRegistersWritten :
    ReadyWith (fun b => b.all.head?.isSome) (rand 2 fun _ x => x)
      ([0x18, 0x19, 0x1A, 0x24, 0x25, 0x38].map fun n => .sets (sf 0 10 0 n 0)) := ready_with (by decide +kernel)

/-- RDCTR of both banks, the last counter of each among them, and of bank H on a handle thread that may read it. -/
theorem witness_CountersAreRead :
    ReadyWith (fun b => !b.g.det) (rand 2 fun _ x => x) ([0, 26, 27, 255, 0x100, 0x1FF].map fun n => .rdctr (sf 8 0 0 n 0)) ∧
    ReadyWith (fun b => !b.g.det && decide (b.g.core < 2)) (handle id) ([0, 0x100, 0x1FF].map fun n => .rdctr (sf 8 0 0 n 0)) ∧
    (State.reset.core 0).slotsAgree ∧ ({ Core.reset with h := [(0, 7), (1, 4), (12, 3)] } : Core).slotsAgree :=
  ⟨ready_with (by decide +kernel), ready_with (by decide +kernel), ⟨by decide +kernel, by decide +kernel⟩, by decide +kernel, by decide +kernel⟩

/-- A cluster of world 0 and of another world's bank, with room for two scratch banks and one FIFO bank. -/
def bankState : State := rand 1 (fun _ x => x) id id fun s =>
  { s with
    worlds := [(0, { World.reset with banklim := 0x102 })]
    clusters := [(0, { Cluster.reset with banks := [(0, { Bank.reset with mode := .scratch }), (1, { Bank.reset with mode := .fifo }),
      (2, { Bank.reset with mode := .scratch, world := 7 }), (4, { Bank.reset with mode := .scratch, foot := some (9, 0) })] })] }

/-- The same cluster with a dirty line that bank 63 holds, and room for a third scratch bank. -/
def dirtyState : State :=
  { bankState with
    worlds := [(0, { World.reset with banklim := 0x103 })]
    clusters := [(0, { bankState.cluster 0 with cache := [⟨5, 0, List.replicate 128 7, List.replicate 128 true, 0, 63⟩] })] }

/-- A change that nothing stands against is carried out in a cluster at rest; every other status comes up too: 1 for bank 2, 2 for bank 4, 4 for
a second FIFO bank and a third scratch bank.  A bank that holds a dirty line writes it back first. -/
theorem witness_BankModesChange :
    ReadyWith (fun b => bankState.bankQuiet b.g.cluster 0 && bankState.bankQuiet b.g.cluster 63 && (bankState.bankDirty b.g.cluster 0).isNone &&
        (bankState.bankDirty b.g.cluster 63).isNone) bankState
      [.bankcfg (sf 8 0 0 0 0), .bankcfg (sf 8 0 0 1 0), .bankcfg (sf 8 0 0 2 0), .bankcfg (sf 8 0 0 4 0), .bankcfg (sf 8 0 0 (64 + 63) 0),
        .bankcfg (sf 8 0 0 (128 + 63) 0), .bankcfg (sf 8 0 0 64 0)] ∧
    ReadyWith (fun b => dirtyState.bankQuiet b.g.cluster 63 && (dirtyState.bankDirty b.g.cluster 63).any fun y => !dirtyState.lineStuck y) dirtyState
      [.bankcfg (sf 8 0 0 (64 + 63) 0)] := ⟨ready_with (by decide +kernel), ready_with (by decide +kernel)⟩

/-! ## Exceptions, emulation, and what firmware does -/

theorem witness_TrapsAndBreakpointsFault :
    ReadyAll plain [.trap (sf 0 0 0 0 0), .trap (sf 0 0 0 0xFFFF 0), .bkpt (sf 0 0 0 0xFFFF 0)] := ready_with (by decide +kernel)

/-- A world with a handler, and a gang of two fibres of its own: the first in canonical code, the second in a template. -/
def faulting : State := rand 2 (fun t x => if t = 0 then x else
    { x with pers := 3, gpc := 0x40, expansion := some ⟨[0, 0], 2, 2⟩, iopx := 1 }) id id fun s => { s with worlds := [(0, { World.reset with fhvec := 0x2000 })] }

/-- The hypotheses for a fault of both fibres, and for a TRAP of the second alone. -/
theorem witness_ExceptionEntry : ∀ rs ∈ [[⟨0, .align, 0x11, false⟩, ⟨1, .align, 0x13, false⟩], [⟨1, .trap, 7, true⟩]],
    ∃ g sk, faulting.gang 1 = some g ∧ g.skeins[0]? = some sk ∧ g.kind ≠ .handle ∧ (faulting.world (faulting.worldOf g)).fhvec ≠ 0 ∧
      (∀ p ∈ sk.live, p.2.parked = false) ∧ rs ≠ [] ∧ ((rs : List Raised).map (·.slot)).Nodup ∧
      (∀ r ∈ rs, (sk.fibre r.slot).isSome = true) ∧ (sk.fibre 1).map (fun x => (x.pers, x.emul, x.inTemplate)) = some (3, false, true) := by
  intro rs hrs
  simp only [List.mem_cons, List.not_mem_nil, or_false] at hrs
  obtain rfl | rfl := hrs <;> exact ⟨_, _, rfl, rfl, by decide +kernel, by decide +kernel, by decide +kernel, by decide +kernel, by decide +kernel,
    by decide +kernel, by decide +kernel⟩

/-- ERET in a handler, to an aligned address, to one that is not, and to guest code, and outside one; EMRET of no, one and two parcels in an
emulation routine, and outside one. -/
theorem witness_ReturnsFromHandlersAndEmulation :
    (∀ x ∈ [fun x : Fibre => { x with parked := true, fpc := 0x20000 }, fun x => { x with parked := true, fpc := 0x20001 },
        fun x => { x with parked := true, pers := 3 }],
      ReadyWith (fun b => (b.passing (.eret (sf 0 0 0 0 0))).all fun p => p.2.parked) (rand 1 fun _ => x) [.eret (sf 0 0 0 0 0)]) ∧
    ReadyWith (fun b => (b.passing (.eret (sf 0 0 0 0 0))).any fun p => !p.2.parked) plain [.eret (sf 0 0 0 0 0)] ∧
    ReadyWith (fun b => (b.passing (.emret (sf 0 0 0 0 0))).all fun p => p.2.emul && !p.2.parked) (rand 1 fun _ x => { x with emul := true, pers := 3 })
      [.emret (sf 0 0 0 0 0), .emret (sf 0 0 0 1 0), .emret (sf 0 0 0 0xFFFF 0)] ∧
    ReadyWith (fun b => (b.passing (.emret (sf 0 0 0 0 0))).any fun p => !p.2.emul || p.2.parked) plain [.emret (sf 0 0 0 0 0)] :=
  ⟨by intro x hx; simp only [List.mem_cons, List.not_mem_nil, or_false] at hx
      obtain rfl | rfl | rfl := hx <;> exact ready_with (by decide +kernel),
    ready_with (by decide +kernel), ready_with (by decide +kernel), ready_with (by decide +kernel)⟩

/-- A partition whose checkpoints are on, with host memory as the tier. -/
def ckptOn (s : State) : State :=
  { s with parts := [(0, { Partition.reset 3200 with ckptcfg := 0x8000000000000000, ckpttgt := 0x4000000000000000 })] }

/-- YIELD; CKPT with checkpoints off, with one in progress, on a rand core, and on a handle thread. -/
theorem witness_YieldAndCheckpointRequests :
    ReadyAll (rand 2 fun _ x => x) [.yield (sf 0 0 0 0 0)] ∧
    ReadyWith (fun b => !(plain.part (plain.partOfCluster b.g.cluster)).ckptcfg.toNat.testBit 63) plain [.ckpt (sf 0 0 0 0 0)] ∧
    ReadyWith (fun b =>
        let p := (ckptOn plain).part ((ckptOn plain).partOfCluster b.g.cluster)
        p.ckptcfg.toNat.testBit 63 && decide (p.ckpt.phase ≠ 1 ∧ p.ckpt.phase ≠ 2 ∧ b.g.kind ≠ .handle)) (ckptOn plain) [.ckpt (sf 0 0 0 0 0)] ∧
    ReadyWith (fun b =>
        let p := (ckptOn (handle id)).part ((ckptOn (handle id)).partOfCluster b.g.cluster)
        p.ckptcfg.toNat.testBit 63 && decide (p.ckpt.phase ≠ 1 ∧ p.ckpt.phase ≠ 2 ∧ b.g.kind = .handle ∧ p.ckpttgt.toNat / 2 ^ 62 % 4 ∈ [1, 2]))
      (ckptOn (handle id)) [.ckpt (sf 0 0 0 0 0)] :=
  ⟨ready_with (by decide +kernel), ready_with (by decide +kernel), ready_with (by decide +kernel), ready_with (by decide +kernel)⟩

/-- The header of a table for personality 3, of 163 units. -/
def tableBytes : List Byte :=
  bytesOf 4 0x56414557 ++ [1, 3, 0, 0, 0, 1, 16, 0, 0, 0, 0, 0] ++ bytesOf 8 0 ++ bytesOf 4 1 ++ bytesOf 4 0xA300

/-- Handle thread 1 with the header, or with nothing, at 0x20000. -/
def tableState (bs : List Byte) : State :=
  handle (fun x => x.wrVal 10 2 0x20000) fun s => withBytes 0x20000 (bs ++ List.replicate (256 - bs.length) 0) s

/-- The duty configuration that keeps WVLOAD from loading. -/
def noWeave (s : State) : State := { s with parts := [(0, { Partition.reset 3200 with dutycfg := 8 })] }

/-- What the third clause on WVLOAD asks: the first unit read, with a header that is good or not. -/
def loads (s : State) (id : Nat) (good : Bool) (b : Batch) : Bool :=
  let c := b.g.cluster
  match b.passing (.wvload (sf 8 10 0 (BitVec.ofNat 16 id) 0)) with
  | [(_, x)] =>
    decide (id ≠ 0 ∧ b.g.unitsRead x = 0) && !(s.part (s.partOfCluster c)).dutycfg.toNat.testBit 3 &&
      (match s.atIssue.readUnit b.g (x.pair 10).toNat 0 with
        | .ok h _ => headerOk h id (((tget (s.cluster c).weave id).map (·.gen)).getD 0) == good && decide (256 < fieldAt h 0x1C 4) == good
        | _ => false)
  | _ => false

/-- The last of a table's units is read: what is held of it, and `PIDX`, are those of its other units. -/
def lastUnit (s : State) (id : Nat) (b : Batch) : Bool :=
  match b.passing (.wvload (sf 8 10 0 (BitVec.ofNat 16 id) 0)) with
  | [(_, x)] =>
    decide (b.g.unitsRead x = 162) &&
      (match s.atIssue.readUnit b.g (x.pair 10).toNat 162 with
        | .ok u s1 =>
          let bs := b.g.work.bytes ++ u
          decide (fieldAt bs 0x1C 4 ≤ 256 * 163 ∧ bs.length = 256 * 163)
        | _ => false)
  | _ => false

/-- The same thread with all but the last of the table's units read: it is one of zeros beyond the header, which fails the later checks. -/
def lastState : State :=
  let bs := tableBytes ++ List.replicate (256 * 162 - tableBytes.length) 0
  let s := handle (fun x => { x.wrVal 10 2 0x20000 with pidx := 162 }) (withBytes (0x20000 + 256 * 162) (List.replicate 256 0))
  { s with gangs := s.gangs.map fun g => { g with work := ⟨bs, none, false⟩ } }

/-- A new context's header: number 7, root 0x4000, 256 bytes without room for spills. -/
def newHeader (state : Nat) : List Byte :=
  AreaHeader.bytes
    { magic := 0x41535643, ver := 1, state := state, world := 0, ctxid := 7, ngang := 0, flags := 0, xroot := 0x4000, featvec := 0, devid := 0
      ngrid := 0, size := 256, gridoff := 256, gangoff := 256, spilloff := 256, spillcap := 0, spillcnt := 0, late := 0, seq := 0, clean := true }

/-- Handle thread 1, of a world whose keys are made, that swaps in the area at 0x21000. -/
def swapState (state out : Nat) : State :=
  handle (fun x => (x.wrVal 12 2 0x21000).wrVal 10 2 out) fun s =>
    withBytes 0x21000 (newHeader state) { s with worlds := [(0, { World.reset with key := 1 })] }

/-- What the clauses on SWAPCTX's steps ask: the swap that starts with its checks ends with a status, or goes on. -/
def swaps (s : State) (st : Option Nat) (b : Batch) : Bool :=
  match b.passing (.swapctx (sf 8 10 12 0 0)) with
  | [(_, x)] => !b.g.work.swap && (match s.atIssue.swapStep ⟨b.g.ctx, s.worldOf b.g, s.featvecOf b.g, b.g.cluster, 5⟩ (x.pair 10) (x.pair 12) 0 0 with
      | .ended n _ => st == some n
      | .going _ _ _ => st.isNone
      | _ => false)
  | _ => false

/-- WVLOAD of personality 0, with loading forbidden, with a header that is none, with a good header, and of a table's last unit; WVBIND; SWAPCTX with
a misaligned area, with an area that is in use, and with one that may be brought in. -/
theorem witness_FirmwareLoadsBindsAndSwaps :
    ReadyWith (fun b => (b.passing (.wvload (sf 8 10 0 0 0))).length == 1) (handle id) [.wvload (sf 8 10 0 0 0)] ∧
    ReadyWith (fun b => (b.passing (.wvload (sf 8 10 0 3 0))).length == 1 &&
      ((noWeave (handle id)).part ((noWeave (handle id)).partOfCluster b.g.cluster)).dutycfg.toNat.testBit 3) (noWeave (handle id)) [.wvload (sf 8 10 0 3 0)] ∧
    ReadyWith (loads (tableState []) 3 false) (tableState []) [.wvload (sf 8 10 0 3 0)] ∧
    ReadyWith (loads (tableState tableBytes) 3 true) (tableState tableBytes) [.wvload (sf 8 10 0 3 0)] ∧
    ReadyWith (lastUnit lastState 3) lastState [.wvload (sf 8 10 0 3 0)] ∧
    ReadyWith (fun b => (b.passing (.wvbind (sf 0 10 0 3 0))).length == 1) (handle id) [.wvbind (sf 0 10 0 3 0)] ∧
    ReadyWith (fun b => match b.passing (.swapctx (sf 8 10 12 0 0)) with
        | [(_, x)] => decide (b.g.work.swap = false ∧ (x.pair 12).toNat % 4096 ≠ 0)
        | _ => false) (handle fun x => x.wr 12 1) [.swapctx (sf 8 10 12 0 0)] ∧
    ReadyWith (swaps (swapState 2 0) (some 3)) (swapState 2 0) [.swapctx (sf 8 10 12 0 0)] ∧
    ReadyWith (swaps (swapState 1 0) none) (swapState 1 0) [.swapctx (sf 8 10 12 0 0)] :=
  ⟨ready_with (by decide +kernel), ready_with (by decide +kernel), ready_with (by decide +kernel), ready_with (by decide +kernel), ready_with (by decide +kernel), ready_with (by decide +kernel),
    ready_with (by decide +kernel), ready_with (by decide +kernel), ready_with (by decide +kernel)⟩

/-! ## Tile operations, copies, events, launches -/

/-- n bytes from a on lie in bank 0, which is a scratch bank of the batch's world. -/
def inBank (s : State) (b : Batch) (a n : Nat) : Bool := decide (a + n ≤ 2 ^ 18) && s.bankOk b.g.cluster (s.worldOf b.g) 0

theorem inScratch_of_inBank {s : State} {b : Batch} {a n : Nat} (h : inBank s b a n = true) : inScratch s b a n := by
  simp only [inBank, Bool.and_eq_true, decide_eq_true_eq] at h
  intro i _ hi
  have hz : i / 2 ^ 18 = 0 := Nat.div_eq_of_lt (by omega)
  exact ⟨by omega, by rw [hz]; exact h.2⟩

/-- Nine fibres, in quarters 0 and 1: accumulators, rows, and the format word w; stationary slot 0 is held and loaded. -/
def tileState (w : Nat) (held : Bool) : State :=
  rand 9 (fun t x => ((x.wr 20 (BitVec.ofNat 32 (0x1000 * (t / 8)))).wr 21 (BitVec.ofNat 32 (0x8000 + 64 * t))).wr 22 (BitVec.ofNat 32 w)) id id fun s =>
    withMemory { s with cores := [(0, { Core.reset with slots := [⟨if held then some 1 else none, 1024, none⟩, .reset, .reset, .reset] })] }

/-- What `EntersTiles` asks besides `Ready`. -/
def tiles (s : State) (i : Instr) (f : XF) (w : Nat) (legal : Bool) (fine : Batch → Fibre → List (Nat × Fibre) → Bool) (b : Batch) : Bool :=
  let qs := quarters (b.passing i)
  decide ((∀ p ∈ b.passing i, (p.2.rd f.c.toNat).toNat = w) ∧ w < 2 ^ 15 ∧ w / 2 ^ 8 % 16 ≤ 1 ∧
      ((s.featvecOf b.g).testBit 2 = true ∨ w % 16 ≠ 6 ∧ w / 16 % 16 ≠ 6) ∧ b.sk.t + qs.length ≤ 15 ∧
      (s.core (coreNo b.g)).queue.length + qs.length ≤ 32) &&
    legal && qs.length == 2 && qs.all fun q => fine b q.2.1 q.2.2

/-- MMA, TZERO, TCVT, TGET and TSTR of two quarters, with the narrowest and the widest accumulator elements. -/
theorem witness_TileOperationsEnter :
    (let f := xf 20 21 22 0x04000
     ReadyWith (tiles (tileState 0 true) (.mma f) f 0 (mmaShape 0).isSome fun b x xs =>
        (x.rd 20).toNat % 16 == 0 && inBank (tileState 0 true) b (x.rd 20).toNat 512 &&
          (xs.all fun p => (p.2.rd 21).toNat % 16 == 0 && inBank (tileState 0 true) b (p.2.rd 21).toNat (packedBytes 0 4)) &&
          (((tileState 0 true).core (coreNo b.g)).slots[0]?.map fun y => decide (y.holder = some b.g.key ∧ 16 * 1 * packedBytes 0 4 ≤ y.len)).getD false)
        (tileState 0 true) [.mma f]) ∧
    (∀ w ∈ [0, 256], let f := xf 20 0 22 0x04000
     ReadyWith (tiles (tileState w true) (.tzero f) f w (w % 256 == 0 && w / 2 ^ 12 % 8 == 0) fun b x _ =>
        (x.rd 20).toNat % 16 == 0 && inBank (tileState w true) b (x.rd 20).toNat (16 * 1 * 8 * 8)) (tileState w true) [.tzero f]) ∧
    (let f := xf 20 30 22 0x08000
     ReadyWith (tiles (tileState 6 true) (.tcvt f) f 6 (tcvtWord 2 6) fun b x _ =>
        (x.rd 20).toNat % 16 == 0 && inBank (tileState 6 true) b (x.rd 20).toNat 1024 && swizzleOk 0 (x.rd 30).toNat 16 &&
          (ownRows f [(0, x)]).all fun r => (swizzlePieces 0 (x.rd 30).toNat 16 r 0 16).all (fun q => inBank (tileState 6 true) b q.1 q.2) &&
            inBank (tileState 6 true) b ((x.rd 31).toNat + 2 * r) 2) (tileState 6 true) [.tcvt f]) ∧
    (let f := xf 20 24 22 0
     ReadyWith (tiles (tileState 0 true) (.tget f) f 0 true fun b x xs => (x.rd 20).toNat % 16 == 0 && inBank (tileState 0 true) b (x.rd 20).toNat 512 &&
        xs.all fun p => spanFits (spanGroup f false p.2) b.g.kind p.2) (tileState 0 true) [.tget f] ∧
     ReadyWith (tiles (tileState 0 true) (.tstr f) f 0 true fun b x xs => (x.rd 20).toNat % 16 == 0 && inBank (tileState 0 true) b (x.rd 20).toNat 512 &&
        xs.all fun p => spanFits (spanGroup f true p.2) b.g.kind p.2) (tileState 0 true) [.tstr f]) :=
  ⟨ready_with (by decide +kernel),
    by intro w hw; simp only [List.mem_cons, List.not_mem_nil, or_false] at hw; obtain rfl | rfl := hw <;> exact ready_with (by decide +kernel),
    ready_with (by decide +kernel), ready_with (by decide +kernel), ready_with (by decide +kernel)⟩

/-- LDSTAT of a free slot, plain and sealed, and of the slot that the gang itself holds; STATREL of that slot. -/
theorem witness_StationarySlotsLoadAndRelease :
    (∀ held ∈ [false, true], ∀ f ∈ [xf 20 0 0 0, xf 20 24 0 0x0C100],
      ReadyWith (fun b =>
        let x := (b.passing (.ldstat f)).headD (0, Fibre.fresh 0 0 0 0 0 0)
        let core := (tileState 0 held).core (coreNo b.g)
        let n := (f.bits 20 15 + 1) * 1024
        decide (core.slots.length = 4 ∧ (∀ y, core.slots[0]? = some y → y.holder = none ∨ y.holder = some b.g.key) ∧
            (if f.bits 9 9 = 1 then x.2.pair 24 else 0).toNat % 4096 = 0 ∧ (x.2.rd 20).toNat % 16 = 0 ∧ b.sk.t < 15 ∧ core.queue.length < 32) &&
          inBank (tileState 0 held) b (x.2.rd 20).toNat (if f.bits 9 9 = 1 then n + n / 256 else n)) (tileState 0 held) [.ldstat f]) ∧
    ReadyWith (fun b =>
      let core := (tileState 0 true).core (coreNo b.g)
      (core.slots[0]?.map fun y => decide (y.holder = some b.g.key)).getD false && core.queue.length < 32) (tileState 0 true) [.statrel (xf 0 0 0 0)] :=
  ⟨by intro held hh f hf
      simp only [List.mem_cons, List.not_mem_nil, or_false] at hh hf
      obtain rfl | rfl := hh <;> obtain rfl | rfl := hf <;> exact ready_with (by decide +kernel),
    ready_with (by decide +kernel)⟩

/-- Two fibres with an aligned record address, then one without: a COPY command each, to gang scope, of a thousand bytes; core 3 takes part. -/
def copyState : State :=
  rand 2 (fun t x => ((x.wrVal 10 2 (0x20000 + 64 * t)).wr 20 1000).wr 21 8) (fun g => { g with grid := 9 }) id fun s => withMemory { s with
    gangs := s.gangs ++ [{ Gang.fresh 50 .rand 0 3 1 9 64 with gangid := 1, skeins := [Skein.fresh 32 64 0 true []] }] }

theorem witness_CopyCommandsEnter :
    ReadyWith (fun b => (b.passing (.copy (xf 10 32 40 (20 * 4096 + 2 * 64)))).any fun p => (p.2.pair 10).toNat % 128 == 0) copyState [.copy (xf 10 32 40 (20 * 4096 + 2 * 64))] ∧
    ReadyWith (fun b => (b.passing (.copym (xf 10 32 40 (20 * 4096 + 2 * 64)))).any fun p =>
      let mask := (p.2.rd 21).toNat
      (p.2.pair 10).toNat % 128 == 0 && decide (mask ≠ 0 ∧ mask < 65536) && (List.range 16).all fun j => !mask.testBit j ||
        (((copyState.spanGangs b.g).filter fun h => h.cluster == b.g.cluster).find? fun h => h.core == j).isSome)
      copyState [.copym (xf 10 32 40 (20 * 4096 + 2 * 64))] ∧
    ReadyWith (fun b => b.sk.c < 15) copyState [.copyl (xf 10 32 40 (20 * 4096 + 2 * 64)), .cfill (xf 10 32 40 (20 * 4096 + 5 * 64))] :=
  ⟨ready_with (by decide +kernel), ready_with (by decide +kernel), ready_with (by decide +kernel)⟩

/-- Three events of world 0 and one of world 5 in cluster 0. -/
def eventState : State := rand 2 (fun _ x => x) id id fun s =>
  { s with clusters := [(0, { Cluster.reset with events := [⟨0, 1, 2, 3⟩, ⟨5, 1, 2, 3⟩, ⟨0, 4, 5, 6⟩, ⟨0, 7, 8, 9⟩] })] }

/-- Two posts with room, two pops with enough entries, and a launch whose descriptor passes. -/
theorem witness_EventsAndLaunches :
    ReadyWith (fun b =>
        let k := eventState.cluster b.g.cluster
        decide ((∀ p ∈ b.all, b.sk.settled b.sk.nextSeq p.2.uid = true) ∧ (∀ e ∈ k.held, e.world ≠ eventState.worldOf b.g) ∧
          k.events.length + b.all.length ≤ 4096 ∧ b.all.length ≤ (k.events.filter fun e => e.world == eventState.worldOf b.g).length))
      eventState [.evpost (xf 10 12 0 0), .evpop (xf 20 0 0 0)] ∧
    (let s := handle (fun x => x.wrVal 10 2 0x20000) (withBytes 0x20000 launchBytes)
     ReadyWith (fun b => match b.passing (.launch (xf 10 0 0 0)) with
        | [(_, x)] => decide (b.g.work.launch = none ∧ (x.pair 10).toNat % 256 = 0) &&
            (match s.atIssue.readLaunch ⟨b.g.ctx, s.worldOf b.g, s.featvecOf b.g, b.g.cluster, 5⟩ (x.pair 10).toNat with
              | .ok _ s1 => decide (s1.grids.length < 256)
              | _ => false)
        | _ => false) s [.launch (xf 10 0 0 0)]) :=
  ⟨ready_with (by decide +kernel), ready_with (by decide +kernel)⟩

/-! ## Steps and their parts -/

/-- The fibre of `rand`'s gang, given by x, about to issue by the agenda; the word it stands at is w. -/
def about (w : Nat) (x : Fibre → Fibre := id) : State :=
  rand 1 (fun _ => x) id id fun s => { s with issue := none, agenda := [.issue 1 0], mem := s.mem.writeBytes bootPc (bytesOf 8 w) }

/-- The state is about to issue for one fibre of gang 1, of which P holds. -/
def stands (s : State) (P : Gang → Fibre → Bool) : Bool :=
  s.nextAction == some (.issue 1 0) &&
    match s.tick.gang 1 with
    | none => false
    | some g =>
      match g.skeins[0]? with
      | none => false
      | some sk => s.tick.mayIssue g sk && s.tick.mayGo g 0 sk && s.tick.nextBatch g sk == [0] && (sk.fibre 0).any (P g)

/-- The same where the code's page may not be executed. -/
def unfetchable : State := { about 0 with tlb := (about 0).tlb.map fun t => { t with bits := 0x16D } }

/-- A word fetched, which is an instruction or is none (form 110); a fetch that faults, its page being readable alone; a template word that is an instruction
or is none; a guest instruction. -/
theorem witness_StepRunsDecoded :
    stands (about 0x9000040500000E00) (fun g x => !x.atGuest && !x.inTemplate &&
      (match (about 0x9000040500000E00).tick.fetchWord g x.pc with | .ok w _ => (decode w).toOption.isSome | _ => false)) = true ∧
    stands (about 0xE000000000000000) (fun g x => !x.atGuest && !x.inTemplate &&
      (match (about 0xE000000000000000).tick.fetchWord g x.pc with | .ok w _ => (decode w).toOption.isNone | _ => false)) = true ∧
    stands unfetchable (fun g x => !x.atGuest && !x.inTemplate &&
      (match unfetchable.tick.fetchWord g x.pc with | .fault _ _ _ => true | _ => false)) = true ∧
    (∀ w ∈ [0x9000040500000E00, 0xE000000000000000],
      stands (about 0 fun x => { x with pers := 3, expansion := some ⟨[BitVec.ofNat 64 w], 4, 4⟩ }) (fun _ x => !x.atGuest && x.inTemplate &&
        x.expansion.any fun e => e.words[x.iopx]? == some (BitVec.ofNat 64 w)) = true) ∧
    stands (about 0 fun x => { x with pers := 3 }) (fun _ x => x.atGuest) = true := by
  refine ⟨?_, ?_, ?_, ?_, ?_⟩ <;> decide +kernel

/-- A batch at issue whose guard passes in one fibre and not in the other, and a fibre outside the batch; tracing and checkpoints are off. -/
theorem witness_FinishLands :
    let s : State := rand 3 (fun t x => if t = 0 then x.wrPred 1 .true_ else x) id id fun s => { s with issue := some ⟨1, 0, [0, 1]⟩ }
    let i := Instr.iaddImm .s32 { vi 8 10 5 with h := ⟨true, ⟨.t, 1⟩⟩ }
    (match s.batch with
      | none => false
      | some (b, _) => (b.passing i).map (·.1) == [0] && b.all.map (·.1) == [0, 1] && (s.fibreAt 1 0 2).isSome && decide (b.g.ended = false ∧ (s.cluster b.g.cluster).trace.owner = 0 ∧ ∀ p ∈ b.all, p.2.sbarIn = false)
      ) = true ∧
    ∀ p, bitOf (s.part p).ckptcfg.toNat 63 = false := by
  exact ⟨by decide +kernel, fun p => by
    simp only [rand, State.part, State.placeWord, State.reset, tget]
    split <;> rfl⟩

/-- A handle-only word on a rand core; and a word whose guard passes in no fibre. -/
theorem witness_GuardsAndStageOne :
    (match plain.batch with
      | none => false
      | some (b, _) => (plain.stage1All b (needOf (.wvload (sf 4 6 0 1 0)))).isSome && (Instr.wvload (sf 4 6 0 1 0)).isWord &&
        (plain.stage1All b (needOf (.iaddImm .s32 { vi 8 10 5 with h := ⟨true, ⟨.t, 1⟩⟩ }))).isNone &&
        (b.passing (.iaddImm .s32 { vi 8 10 5 with h := ⟨true, ⟨.t, 1⟩⟩ })).isEmpty) = true := by decide +kernel

/-- Memory after reset is in its form, and an address lies on either side of the bytes written. -/
theorem witness_MemoryReadBack : State.reset.mem.wf = true ∧ (∀ c ∈ [0x1FFFF, 0x20004], c < 0x20000 ∨ 0x20000 + [1, 2, 3, 4].length ≤ c) ∧
    (List.replicate 128 (7 : Byte)).length = 128 * 1 ∧ (1 : Nat) ≠ 0 ∧ (∀ j ∈ linesOf 0x20080 128, j < 0x400 ∨ 0x400 + 1 ≤ j) := by decide +kernel

/-- Memory after reset, and in a state whose step answers a next state. -/
theorem witness_MemoryFormKept : State.reset.mem.wf = true ∧ (about 0x9000040500000E00).mem.wf = true ∧
    (match step (about 0x9000040500000E00) with | .next _ => true | _ => false) = true := by decide +kernel

/-- A word is well formed. -/
theorem witness_DecodeEncode : (Instr.iaddImm .s32 (vi 4 5 7)).wf = true ∧ (Instr.iaddImm .s32 (vi 4 5 7)).isWord = true := by decide

end Sys2Proof.Tests
end

section
/-! PROOFS, O57. Bytes written to memory are read back, and the lines that a world writes whole answer that world alone. -/

namespace Sys2Proof

/-! ## Ranges and values -/

theorem rangeFrom_eq_range' : ∀ n a, rangeFrom a n = List.range' a n
  | 0, _ => rfl
  | n + 1, a => by rw [rangeFrom, rangeFrom_eq_range' n, List.range'_succ]

@[simp] theorem mem_rangeFrom {a n j : Nat} : j ∈ rangeFrom a n ↔ a ≤ j ∧ j < a + n := by
  rw [rangeFrom_eq_range', List.mem_range'_1]

@[simp] theorem bytesOf_length : ∀ n v, (bytesOf n v).length = n
  | 0, _ => rfl
  | n + 1, v => by rw [bytesOf, List.length_cons, bytesOf_length n]

theorem ofBytes_bytesOf : ∀ n v, ofBytes (bytesOf n v) = v % 256 ^ n
  | 0, v => by simp [bytesOf, ofBytes, Nat.mod_one]
  | n + 1, v => by
    rw [bytesOf, ofBytes, ofBytes_bytesOf n, BitVec.toNat_ofNat, pow_succ' 256 n]
    exact Nat.mod_mul.symm

namespace Machine

/-! ## Bytes -/

theorem Memory.readBytes_writeBytes_same : ∀ (bs : List Byte) (m : Memory) (a : Nat), m.wf = true →
    (m.writeBytes a bs).readBytes a bs.length = bs
  | [], _, _, _ => rfl
  | b :: r, m, a, h => by
    have first : ((m.write a b).writeBytes (a + 1) r).read a = b :=
      (Memory.read_writeBytes_other r _ (a + 1) a (.inl (Nat.lt_succ_self a))).trans (Memory.read_write_same m a b h)
    have rest : (rangeFrom (a + 1) r.length).map ((m.write a b).writeBytes (a + 1) r).read = r :=
      Memory.readBytes_writeBytes_same r (m.write a b) (a + 1) (Memory.wf_write m a b h)
    rw [Memory.readBytes, Memory.writeBytes, List.length_cons, rangeFrom, List.map_cons, first, rest]

theorem Memory.readBytes_writeBytes_other (m : Memory) {a c k : Nat} {bs : List Byte}
    (h : c + k ≤ a ∨ a + bs.length ≤ c) : (m.writeBytes a bs).readBytes c k = m.readBytes c k := by
  refine List.map_congr_left fun j hj => Memory.read_writeBytes_other bs m a j ?_
  rw [mem_rangeFrom] at hj
  omega

/-! ## Lines -/

theorem tget_foldl_tset {α : Type} (x : α) (j : Nat) : ∀ (ls : List Nat) (t : Tbl α),
    tget (ls.foldl (fun o l => tset o l x) t) j = if j ∈ ls then some x else tget t j
  | [], _ => by simp
  | l :: r, t => by
    rw [List.foldl_cons, tget_foldl_tset x j r]
    by_cases hj : j = l
    · simp [hj]
    · simp [hj]

/-- The lines of a range that begins and ends at lines. -/
theorem linesOf_whole (l n : Nat) : linesOf (128 * l) (128 * n) = rangeFrom l n := by
  cases n with
  | zero => rfl
  | succ n =>
    have first : 128 * l / 128 = l := by omega
    have count : (128 * l + 128 * (n + 1) - 1) / 128 + 1 - l = n + 1 := by omega
    rw [linesOf, if_neg (by omega), first, count]

theorem coversLine_whole {l n j : Nat} (h : j ∈ rangeFrom l n) : coversLine (128 * l) (128 * n) j = true := by
  rw [mem_rangeFrom] at h
  simp only [coversLine, Bool.and_eq_true, decide_eq_true_eq]
  omega

theorem State.firstBadLine_eq_none {s : State} {w : Nat} : ∀ {ls : List Nat}, (∀ j ∈ ls, s.lineFault w j = none) →
    s.firstBadLine w ls = none
  | [], _ => rfl
  | l :: r, h => by
    rw [State.firstBadLine, h l List.mem_cons_self]
    exact State.firstBadLine_eq_none fun j hj => h j (List.mem_cons_of_mem l hj)

theorem State.firstBadLine_congr {s t : State} {w : Nat} : ∀ {ls : List Nat}, (∀ j ∈ ls, t.lineFault w j = s.lineFault w j) →
    t.firstBadLine w ls = s.firstBadLine w ls
  | [], _ => rfl
  | l :: r, h => by
    rw [State.firstBadLine, State.firstBadLine, h l List.mem_cons_self,
      State.firstBadLine_congr fun j hj => h j (List.mem_cons_of_mem l hj)]

/-! ## Lines written whole (spec/14 R368, R490) -/

/-- n lines from line l on written whole under a world: `writeDev_whole` says that `writeDev` does this. -/
def State.withLines (s : State) (w l n : Nat) (bs : List Byte) : State :=
  { s with
    mem := s.mem.writeBytes (128 * l) bs
    owners := (rangeFrom l n).foldl (fun o j => tset o j ⟨w, s.keyOf w⟩) s.owners
    poisoned := s.poisoned.filter fun j => !(rangeFrom l n).contains j }

/-- No part of a line is written, so nothing is checked first. -/
theorem State.writeDev_whole (s : State) (w l n : Nat) {bs : List Byte} (h : bs.length = 128 * n) :
    s.writeDev w (128 * l) bs = .ok (s.withLines w l n bs) := by
  have whole : (rangeFrom l n).filter (coversLine (128 * l) (128 * n)) = rangeFrom l n :=
    List.filter_eq_self.2 fun _ hj => coversLine_whole hj
  have part : ((rangeFrom l n).filter fun j => !coversLine (128 * l) (128 * n) j) = [] :=
    List.filter_eq_nil_iff.2 fun j hj => by simp [coversLine_whole hj]
  simp only [State.writeDev, h, linesOf_whole, whole, part, State.firstBadLine, State.withLines]

/-- The line's code is of the key of the world that wrote it, and whatever was uncorrectable in it is gone. -/
theorem State.lineFault_withLines_inside (s : State) (w v : Nat) {l n j : Nat} (bs : List Byte) (h : j ∈ rangeFrom l n) :
    (s.withLines w l n bs).lineFault v j = if v = w then none else some .macFail := by
  have clean : (s.withLines w l n bs).isPoisoned j = false := by
    simp only [State.isPoisoned, State.withLines, List.contains_eq_mem, decide_eq_false_iff_not, List.mem_filter]
    simp [h]
  have owner : tget (s.withLines w l n bs).owners j = some ⟨w, s.keyOf w⟩ := by
    rw [State.withLines, tget_foldl_tset, if_pos h]
  have key : (s.withLines w l n bs).keyOf v = s.keyOf v := rfl
  rw [State.lineFault, clean, State.lineOwned, owner, key]
  by_cases hv : v = w
  · simp [hv]
  · simp [hv, Ne.symm hv]

theorem State.lineFault_withLines_outside (s : State) (w v : Nat) {l n j : Nat} (bs : List Byte) (h : j ∉ rangeFrom l n) :
    (s.withLines w l n bs).lineFault v j = s.lineFault v j := by
  have poison : (s.withLines w l n bs).isPoisoned j = s.isPoisoned j := by
    simp only [State.isPoisoned, State.withLines, List.contains_eq_mem, List.mem_filter]
    simp [h]
  have owner : tget (s.withLines w l n bs).owners j = tget s.owners j := by
    rw [State.withLines, tget_foldl_tset, if_neg h]
  have key : (s.withLines w l n bs).keyOf v = s.keyOf v := rfl
  rw [State.lineFault, State.lineFault, poison, State.lineOwned, State.lineOwned, owner, key]

theorem State.readDev_withLines_same (s : State) (w l n : Nat) {bs : List Byte} (hw : s.mem.wf = true) (h : bs.length = 128 * n) :
    (s.withLines w l n bs).readDev w (128 * l) (128 * n) = .ok bs := by
  have good : (s.withLines w l n bs).firstBadLine w (rangeFrom l n) = none :=
    State.firstBadLine_eq_none fun j hj => (s.lineFault_withLines_inside w w bs hj).trans (if_pos rfl)
  have read : (s.withLines w l n bs).mem.readBytes (128 * l) (128 * n) = bs :=
    h ▸ Memory.readBytes_writeBytes_same bs s.mem (128 * l) hw
  rw [State.readDev, linesOf_whole, good, read]

/-- The first line already fails the check for another world. -/
theorem State.readDev_withLines_foreign (s : State) {w v : Nat} (l : Nat) {n : Nat} (bs : List Byte) (hn : 0 < n) (hv : v ≠ w) :
    (s.withLines w l n bs).readDev v (128 * l) (128 * n) = .error .macFail := by
  have bad : (s.withLines w l n bs).lineFault v l = some .macFail :=
    (s.lineFault_withLines_inside w v bs (mem_rangeFrom.2 (by omega))).trans (if_neg hv)
  have first : (s.withLines w l n bs).firstBadLine v (rangeFrom l n) = some (l, .macFail) := by
    cases n with
    | zero => omega
    | succ n => rw [rangeFrom, State.firstBadLine, bad]
  rw [State.readDev, linesOf_whole, first]

theorem State.readDev_withLines_outside (s : State) (w v : Nat) {l n a k : Nat} {bs : List Byte} (h : bs.length = 128 * n)
    (ha : a + k ≤ 128 * l ∨ 128 * l + 128 * n ≤ a) (hl : ∀ j ∈ linesOf a k, j < l ∨ l + n ≤ j) :
    (s.withLines w l n bs).readDev v a k = s.readDev v a k := by
  have lines : (s.withLines w l n bs).firstBadLine v (linesOf a k) = s.firstBadLine v (linesOf a k) :=
    State.firstBadLine_congr fun j hj => s.lineFault_withLines_outside w v bs fun hm => by
      have := hl j hj
      rw [mem_rangeFrom] at hm
      omega
  have bytes : (s.withLines w l n bs).mem.readBytes a k = s.mem.readBytes a k :=
    Memory.readBytes_writeBytes_other s.mem (by omega)
  rw [State.readDev, State.readDev, lines, bytes]

/-- Settles O57: bytes come back by induction on those written; lines written whole get the writer's key and lose their poison, and every
other line keeps its own. -/
theorem memoryReadBack : Obligations.MemoryReadBack := by
  refine ⟨fun m a bs hw => ⟨Memory.wf_writeBytes bs m a hw, Memory.readBytes_writeBytes_same bs m a hw,
    fun c hc => Memory.read_writeBytes_other bs m a c hc⟩, fun n v => ⟨ofBytes_bytesOf n v, bytesOf_length n v⟩, ?_⟩
  intro s w l n bs hw hn hlen
  exact ⟨s.withLines w l n bs, s.writeDev_whole w l n hlen, Memory.wf_writeBytes bs s.mem (128 * l) hw,
    s.readDev_withLines_same w l n hw hlen, fun _ hv => s.readDev_withLines_foreign l bs hn hv,
    fun v _ _ ha hl => s.readDev_withLines_outside w v hlen ha hl⟩

end Machine
end Sys2Proof
end

section
/-! PROOFS, shared by O51 and O53. Folds over clusters and worlds, the clusters of a partition, and what a write to memory and the end of a step leave alone. -/

namespace Sys2Proof.Machine

/-! ## Folds of changes of the state -/

/-- What every change keeps, a fold of them keeps. -/
theorem foldl_keeps {α β : Type} {f : State → α → State} (g : State → β) (h : ∀ s a, g (f s a) = g s) :
    ∀ (l : List α) (s : State), g (l.foldl f s) = g s
  | [], _ => rfl
  | a :: r, s => (foldl_keeps g h r (f s a)).trans (h s a)

/-- What the change for one element brings about, and no change undoes, holds after a fold over a list that has the element. -/
theorem foldl_reaches {α : Type} {f : State → α → State} {P : State → Prop} {a : α} (made : ∀ s, P (f s a))
    (kept : ∀ s b, P s → P (f s b)) : ∀ (l : List α) (s : State), a ∈ l → P (l.foldl f s) := by
  have stays (l : List α) : ∀ s, P s → P (l.foldl f s) := by
    induction l with
    | nil => exact fun _ h => h
    | cons b r ih => exact fun s h => ih _ (kept s b h)
  intro l
  induction l with
  | nil => exact fun _ h => absurd h List.not_mem_nil
  | cons b r ih =>
    intro s h
    rcases List.mem_cons.1 h with rfl | h
    · exact stays r _ (made s)
    · exact ih _ h

/-! ## Bits and clusters -/

theorem bitOf_eq_testBit (n k : Nat) : bitOf n k = n.testBit k := by
  rw [Nat.testBit_eq_decide_div_mod_eq]
  rfl

theorem State.clustersEach_pos {s : State} (h : s.partitions = 1 ∨ s.partitions = 2 ∨ s.partitions = 4) : 0 < 32 / s.partitions := by
  rcases h with h | h | h <;> simp [h]

/-- The clusters of a partition are those from its first on (spec/01 R21). -/
theorem State.mem_clustersOf {s : State} {p c : Nat} (h : 0 < 32 / s.partitions) : c ∈ s.clustersOf p ↔ s.partOfCluster c = p := by
  rw [State.clustersOf, mem_rangeFrom, State.partOfCluster, Nat.div_eq_iff h]
  omega

/-! ## Frames -/

/-- A write to device memory changes bytes, who owns the lines, and which are poisoned. -/
theorem State.writeDev_frame {s t : State} {w a : Nat} {bs : List Byte} (h : s.writeDev w a bs = .ok t) :
    ∃ m o p, t = { s with mem := m, owners := o, poisoned := p } := by
  unfold State.writeDev at h
  simp only at h
  split at h
  · exact absurd h (by simp)
  · cases h
    exact ⟨_, _, _, rfl⟩

@[simp] theorem State.clearTried_world (s : State) (w : Nat) : s.clearTried.world w = s.world w := rfl
@[simp] theorem State.clearTried_part (s : State) (p : Nat) : s.clearTried.part p = s.part p := rfl

end Sys2Proof.Machine
end

section
/-! PROOFS, O51. What the host's writes of registers do, the power states of a partition and of a cluster, and a clock's change. -/

namespace Sys2Proof.Machine

open Sys2Proof.Says

/-! ## Who writes -/

/-- The physical function of a partition writes a register of its control block, after the boot has ended. -/
def State.BlockWrite (s : State) (r : RegWrite) (p : Nat) : Prop := s.boot = 1 ∧ r.page = none ∧ r.by_ = 64 * p

theorem State.BlockWrite.writer {s : State} {r : RegWrite} {p : Nat} (h : s.BlockWrite r p) : s.writer r = some p := by
  obtain ⟨hb, hp, hy⟩ := h
  simp [State.writer, writerPart, hb, hp, hy]

theorem State.BlockWrite.registerWrite {s : State} {r : RegWrite} {p : Nat} (h : s.BlockWrite r p) :
    s.registerWrite r = s.blockWrite p r.off r.v.toNat := by
  have writer := h.writer
  obtain ⟨-, hp, -⟩ := h
  rw [State.registerWrite, hp, writer]

/-! ## Weave tables (spec/11 R290) and the expanded-image store (R304, R305) -/

/-- The mask of a load has one bit set, that of a cluster of the partition: the load is in that cluster alone. -/
theorem State.clustersOf_filter_bit {s : State} {p c v : Nat} (hn : s.partitions = 1 ∨ s.partitions = 2 ∨ s.partitions = 4)
    (hp : p < s.partitions) (hc : s.partOfCluster c = p) (hv : v % 2 ^ 32 = 2 ^ c) :
    ((s.clustersOf p).filter fun d => bitOf v d) = [c] := by
  have mine : c ∈ s.clustersOf p := (State.mem_clustersOf (State.clustersEach_pos hn)).2 hc
  have once : (s.clustersOf p).count c = 1 :=
    List.count_eq_one_of_mem (by rw [State.clustersOf, rangeFrom_eq_range']; exact List.nodup_range') mine
  have bit : ∀ d ∈ s.clustersOf p, bitOf v d = (d == c) := by
    intro d hd
    have small : d < 32 := by
      rw [State.clustersOf, mem_rangeFrom] at hd
      rcases hn with h | h | h <;> rw [h] at hd hp <;> omega
    have cut : (v % 2 ^ 32).testBit d = v.testBit d := by
      rw [Nat.testBit_mod_two_pow, decide_eq_true small, Bool.true_and]
    rw [bitOf_eq_testBit, ← cut, hv, Nat.testBit_two_pow, Bool.beq_eq_decide_eq]
    exact decide_eq_decide.2 eq_comm
  rw [List.filter_congr bit, List.filter_beq, once]
  rfl

/-- `WVHCTL` as stored: `CMASK`, `ID` and the status. -/
theorem wvhctl_stored (v st : Nat) : let x := BitVec.ofNat 64 (packFields [(32, v), (4, bitsOf v 35 32), (3, st)])
    x.toNat % 2 ^ 36 = v % 2 ^ 36 ∧ x.toNat / 2 ^ 36 = st % 8 := by
  simp only [packFields, bitsOf, BitVec.toNat_ofNat]
  omega

theorem wvhctlGo_loads {s : State} {r : RegWrite} {p c st : Nat} {s' : State} (h : s.BlockWrite r p) (go : r.v.toNat.testBit 63 = true)
    (on : (s.part p).dutycfg.toNat.testBit 3 = true) (hv : r.v.toNat % 2 ^ 32 = 2 ^ c)
    (hn : s.partitions = 1 ∨ s.partitions = 2 ∨ s.partitions = 4) (hp : p < s.partitions) (hc : c / (32 / s.partitions) = p)
    (load : s.loadTable p c (r.v.toNat / 2 ^ 32 % 16) ((s.part p).wvhaddr.toNat / 2 ^ 8 % 2 ^ 44 * 256) = (st, s')) :
    ∃ u : State, exec (.wvhctlGo r) s = .next u ∧ u.clusters = s'.clusters ∧ u.mem = s'.mem ∧
      (u.part p).wvhctl.toNat % 2 ^ 36 = r.v.toNat % 2 ^ 36 ∧ (u.part p).wvhctl.toNat / 2 ^ 36 = st % 8 := by
  have on : bitOf (s.part p).dutycfg.toNat 3 = true := (bitOf_eq_testBit _ _).trans on
  have go : bitOf r.v.toNat 63 = true := (bitOf_eq_testBit _ _).trans go
  have one : s.loadTables p (bitsOf r.v.toNat 35 32) (bitsOf (s.part p).wvhaddr.toNat 51 8 * 256) [c] = (st, s') := by
    have load : s.loadTable p c (bitsOf r.v.toNat 35 32) (bitsOf (s.part p).wvhaddr.toNat 51 8 * 256) = (st, s') := load
    simp only [State.loadTables, load]
    split <;> simp [*]
  refine ⟨s'.modPart p fun x => { x with wvhctl := BitVec.ofNat 64 (packFields [(32, r.v.toNat), (4, bitsOf r.v.toNat 35 32), (3, st)]) },
    ?_, rfl, rfl, ?_⟩
  · simp only [exec_wvhctlGo, execWvhctlGo, h.writer, State.wvhctlWrite, on, go,
      State.clustersOf_filter_bit hn hp hc hv, one, Bool.not_true, Bool.false_eq_true, if_false]
  · rw [State.part_modPart_same]
    exact wvhctl_stored _ _

theorem wvhctlGo_ignored {s : State} {r : RegWrite} {p : Nat} (h : s.BlockWrite r p)
    (off : (s.part p).dutycfg.toNat.testBit 3 = false) : exec (.wvhctlGo r) s = .next s := by
  simp only [exec_wvhctlGo, execWvhctlGo, h.writer, State.wvhctlWrite, bitOf_eq_testBit, off, Bool.not_false, if_true]

/-- `EISCFG` as stored: the reserved bits are 0, and so is a size out of range. -/
theorem eiscfg_stored (v : Nat) : (BitVec.ofNat 64 (bitsOf v 51 12 * 4096 + (if 10 ≤ v % 32 ∧ v % 32 ≤ 24 then v % 32 else 0))).toNat =
    v / 2 ^ 12 % 2 ^ 40 * 4096 + (if 10 ≤ v % 32 ∧ v % 32 ≤ 24 then v % 32 else 0) := by
  simp only [bitsOf, BitVec.toNat_ofNat]
  split <;> omega

theorem eiscfgWrite_drops {s : State} {r : RegWrite} {p : Nat} (h : s.BlockWrite r p)
    (hn : s.partitions = 1 ∨ s.partitions = 2 ∨ s.partitions = 4) : ∃ u : State, exec (.eiscfgWrite r) s = .next u ∧ u.mem = s.mem ∧
    (u.part p).eiscfg.toNat = r.v.toNat / 2 ^ 12 % 2 ^ 40 * 4096 + (if 10 ≤ r.v.toNat % 32 ∧ r.v.toNat % 32 ≤ 24 then r.v.toNat % 32 else 0) ∧
    ∀ c, s.partOfCluster c = p → (u.cluster c).doc = [] ∧ (u.cluster c).weave = (s.cluster c).weave := by
  refine ⟨s.eiscfgWrite p r.v.toNat, by rw [exec_eiscfgWrite, execEiscfgWrite, h.writer], ?_, ?_, fun c hc => ⟨?_, ?_⟩⟩
  · exact foldl_keeps State.mem (by intros; rfl) _ _
  · rw [State.eiscfgWrite, foldl_keeps (fun s => s.part p) (by intros; rfl), State.part_modPart_same]
    exact eiscfg_stored _
  · refine foldl_reaches (P := fun s => (s.cluster c).doc = []) (fun s => by simp) (fun s d hd => ?_) _ _
      ((State.mem_clustersOf (State.clustersEach_pos hn)).2 hc)
    by_cases hdc : c = d
    · simp [hdc]
    · simpa [hdc] using hd
  · refine foldl_keeps (fun s => (s.cluster c).weave) (fun s d => ?_) _ _
    by_cases hdc : c = d
    · simp [hdc]
    · simp [hdc]

/-! ## Power (spec/01 R20) -/

theorem pwrlimWrite_clamps {s : State} {r : RegWrite} {p : Nat} (h : s.BlockWrite r p) : ∃ u : State, exec (.pwrlimWrite r) s = .next u ∧
    u.devw = (if p = 0 then max 1600 (min 3200 (r.v.toNat / 2 ^ 32 % 2 ^ 16)) else s.devw) ∧
    (u.part p).sharew = max (1600 / s.partitions) (min u.devw (r.v.toNat % 2 ^ 16)) ∧ u.mem = s.mem ∧ u.gangs = s.gangs := by
  refine ⟨s.pwrlimWrite p r.v.toNat, by rw [exec_pwrlimWrite, execPwrlimWrite, h.writer], rfl, ?_, rfl, rfl⟩
  rw [State.pwrlimWrite, State.part_modPart_same]
  rfl

/-! ### What a flush leaves alone: every cluster but its own -/

@[simp] theorem clusters_markExt (s : State) (a : Nat) : (s.markExt a).clusters = s.clusters := by
  unfold State.markExt
  split <;> rfl

@[simp] theorem clusters_writeDirty (s : State) (x : CacheLine) : (s.writeDirty x).clusters = s.clusters := by
  unfold State.writeDirty
  split
  · split
    · rename_i h
      obtain ⟨m, o, p, rfl⟩ := State.writeDev_frame h
      exact clusters_markExt _ _
    · rfl
  · rfl

@[simp] theorem cluster_writeDirty (s : State) (x : CacheLine) (d : Nat) : (s.writeDirty x).cluster d = s.cluster d := by
  rw [State.cluster, clusters_writeDirty, State.cluster]

theorem cluster_writeBackLine_other (s : State) {c d : Nat} (h : d ≠ c) (x : CacheLine) :
    (s.writeBackLine c x).cluster d = s.cluster d := by
  unfold State.writeBackLine
  split
  · simp [h]
  · rfl

theorem cluster_holdLine_other {s t : State} {c w r l d : Nat} (h : d ≠ c) (hold : s.holdLine c w r l = .ok t) :
    t.cluster d = s.cluster d := by
  unfold State.holdLine at hold
  simp only at hold
  split at hold
  · cases hold
    simp [h]
  · split at hold
    · exact absurd hold (by simp)
    · split_ifs at hold
      · cases hold
        rfl
      · split at hold
        · cases hold
          simp [h]
        · split at hold
          · cases hold
            rfl
          · cases hold
            simp [h]

theorem cluster_pushLine_other (s : State) {c d : Nat} (h : d ≠ c) (x : CacheLine) : (s.pushLine c x).cluster d = s.cluster d := by
  unfold State.pushLine
  split
  · rfl
  · split
    · rfl
    · rename_i hold
      have kept := cluster_holdLine_other h hold
      split
      · simp [h, kept]
      · simp [kept]

theorem cluster_pushPrivate_other (s : State) {v : Via} {d : Nat} (h : d ≠ v.cluster) : (s.pushPrivate v).cluster d = s.cluster d := by
  unfold State.pushPrivate
  split
  · rfl
  · simp only
    split
    · exact foldl_keeps (fun s => s.cluster d) (fun s x => cluster_pushLine_other s h x) _ s
    · rfl

theorem cluster_flushAll_other (s : State) {c d : Nat} (h : d ≠ c) : (s.flushAll c).cluster d = s.cluster d :=
  (foldl_keeps (fun s => s.cluster d) (fun s x => cluster_writeBackLine_other s h x) _ _).trans
    (foldl_keeps (fun s => s.cluster d) (fun s core => cluster_pushPrivate_other s (v := ⟨c, some core⟩) h) _ s)

/-! ### PS2, PS1 and PS0 -/

/-- What PS2 takes from a cluster. -/
def Cluster.Emptied (k : Cluster) : Prop := k.banks = [] ∧ k.scratch = [] ∧ k.cache = [] ∧ k.local_ = []

theorem Cluster.gated_emptied (k : Cluster) : k.gated.Emptied := ⟨rfl, rfl, rfl, rfl⟩

/-- A granted request empties every cluster of the partition: each when its turn comes, and no later flush puts anything back. -/
theorem ps2Request_granted {s : State} {r : RegWrite} {p : Nat} (h : s.BlockWrite r p) (hv : r.v.toNat % 4 = 1)
    (out : (s.part p).pscur ≠ 2) (free : s.holdsContext p = false) (hn : s.partitions = 1 ∨ s.partitions = 2 ∨ s.partitions = 4) :
    ∃ u : State, exec (.ps2Request r) s = .next u ∧ (u.part p).pscur = 2 ∧ (u.part p).psref = false ∧
      ∀ c, s.partOfCluster c = p → (u.cluster c).Emptied := by
  refine ⟨s.enterPs2 p, by simp only [exec_ps2Request, execPs2Request, h.writer, hv, if_true], ?_⟩
  simp only [State.enterPs2, out, free, if_false, Bool.false_eq_true, State.part_modPart_same, true_and]
  intro c hc
  refine foldl_reaches (P := fun s => (s.cluster c).Emptied) (fun s => ?_) (fun s d hd => ?_) _ _
    ((State.mem_clustersOf (State.clustersEach_pos hn)).2 hc)
  · rw [State.cluster_modCluster_same]
    exact Cluster.gated_emptied _
  · by_cases hdc : c = d
    · rw [hdc, State.cluster_modCluster_same]
      exact Cluster.gated_emptied _
    · rw [State.cluster_modCluster_other _ _ _ _ hdc, cluster_flushAll_other _ hdc]
      exact hd

theorem ps2Request_refused {s : State} {r : RegWrite} {p : Nat} (h : s.BlockWrite r p) (hv : r.v.toNat % 4 = 1)
    (out : (s.part p).pscur ≠ 2) (holds : s.holdsContext p = true) :
    exec (.ps2Request r) s = .next (s.modPart p fun x => { x with psref := true }) := by
  simp only [exec_ps2Request, execPs2Request, h.writer, hv, State.enterPs2, out, holds, if_true, if_false]

theorem ps0Request_starts {s : State} {r : RegWrite} {p : Nat} (h : s.BlockWrite r p) (hv : r.v.toNat % 4 = 2)
    (asleep : (s.part p).pscur = 2) : exec (.ps0Request r) s = .next (s.modPart p fun x => { x with psexit := true }) := by
  simp only [exec_ps0Request, execPs0Request, h.writer, hv, State.wake, asleep, if_true]

theorem ps2Exit_stays {s : State} {p : Nat} (h : (s.part p).psexit = false) : Leads (.ps2Exit p) s s := by
  simp only [Leads, exec_ps2Exit, execPs2Exit, State.leavePs2, h, Bool.not_false, if_true]

theorem ps2Exit_leaves {s : State} {p : Nat} (h : (s.part p).psexit = true) (held : (s.part p).psheld = []) (bells : (s.part p).psbells = []) :
    Leads (.ps2Exit p) s (s.modPart p fun x => { x with pscur := 0, psexit := false, psheld := [], psbells := [] }) := by
  simp only [Leads, exec_ps2Exit, execPs2Exit, State.leavePs2, h, held, bells, Bool.not_true, Bool.false_eq_true, if_false, List.foldl_nil]

theorem ps1Entry_gates {s : State} {c : Nat} (h : ∀ g ∈ s.gangs, g.cluster = c → g.ended = true) :
    exec (.ps1Entry c) s = .next (s.modCluster c fun k => { k with idle := true }) := by
  have vacant : (s.gangs.any fun g => g.cluster == c && !g.ended) = false := by simpa using h
  simp only [exec_ps1Entry, execPs1Entry, vacant, Bool.false_eq_true, if_false]

theorem ps1Entry_refused {s : State} {c : Nat} (h : ∃ g ∈ s.gangs, g.cluster = c ∧ g.ended = false) : exec (.ps1Entry c) s = .next s := by
  have resident : (s.gangs.any fun g => g.cluster == c && !g.ended) = true := by simpa using h
  simp only [exec_ps1Entry, execPs1Entry, resident, if_true]

/-! ## Registers with a behaviour of their own (spec/01 R22 to R25, spec/15 R380, spec/19 R425) -/

theorem dutycfgWrite_stores {s : State} {r : RegWrite} {p : Nat} (h : s.BlockWrite r p) :
    Leads (.dutycfgWrite r) s (s.modPart p fun x => { x with dutycfg := BitVec.ofNat 32 (r.v.toNat % 64) }) := by
  rw [Leads, exec_dutycfgWrite, execDutycfgWrite, h.writer]

/-- `PNEXT` is partition 0's alone, and 11 in it stands for the count there is. -/
theorem partcfgWrite_stores {s : State} {r : RegWrite} {p : Nat} (h : s.BlockWrite r p) :
    (p ≠ 0 → exec (.partcfgWrite r) s = .next s) ∧ (p = 0 → exec (.partcfgWrite r) s = .next (s.modPart 0 fun x =>
      { x with pnext := if r.v.toNat % 4 = 3 then (if s.partitions = 1 then 0 else if s.partitions = 2 then 1 else 2) else r.v.toNat % 4 })) := by
  rw [exec_partcfgWrite, execPartcfgWrite, h.writer]
  cases p with
  | zero => exact ⟨fun hp => absurd rfl hp, fun _ => rfl⟩
  | succ p => exact ⟨fun _ => rfl, fun hp => absurd hp (Nat.succ_ne_zero p)⟩

/-- Each half of `ECCCNT` is cleared by a 1 in any of its bits and kept otherwise. -/
theorem ecccntClear_clears {s : State} {r : RegWrite} {p : Nat} (h : s.BlockWrite r p) :
    ∃ u : State, exec (.ecccntClear r) s = .next u ∧ u.mem = s.mem ∧
      (u.part p).ecc.toNat % 2 ^ 32 = (if r.v.toNat % 2 ^ 32 = 0 then (s.part p).ecc.toNat % 2 ^ 32 else 0) ∧
      (u.part p).ecc.toNat / 2 ^ 32 = (if r.v.toNat / 2 ^ 32 = 0 then (s.part p).ecc.toNat / 2 ^ 32 else 0) := by
  rw [exec_ecccntClear, execEcccntClear, h.writer]
  refine ⟨_, rfl, rfl, ?_⟩
  simp only [State.part_modPart_same, BitVec.toNat_ofNat]
  have bound := (s.part p).ecc.isLt
  split <;> split <;> omega

theorem ctrselWrite_stores {s : State} {r : RegWrite} {p : Nat} (h : s.BlockWrite r p) :
    exec (.ctrselWrite r) s = .next (s.modPart p fun x => { x with ctrsel := BitVec.ofNat 64 (r.v.toNat % 2 ^ 26) }) := by
  rw [exec_ctrselWrite, execCtrselWrite, h.writer]

/-! ## Registers that hold what is written (spec/00 R5) -/

theorem registerWrite_leads {s : State} {r : RegWrite} {p : Nat} (h : s.BlockWrite r p) :
    Leads (.registerWrite r) s (s.blockWrite p r.off r.v.toNat) := by
  rw [Leads, exec_registerWrite, execRegisterWrite, h.registerWrite]

/-- Below the tables of worlds, from `BANKLIM` on, and the security engine's registers, a register is one of the partition's own. -/
theorem State.blockWrite_low (s : State) {p off v : Nat} (h : off < 0x100) :
    s.blockWrite p off v = s.modPart p fun x => x.regWrite off v := by
  have out (base n count : Nat) (hb : 0x100 ≤ base) : tableSlot base n count off = none := if_neg (by omega)
  have limits : ¬(0x100 ≤ off ∧ off < 0x500 ∧ off % 4 = 0) := by omega
  have mailbox : ¬(p = 0 ∧ 0x640 ≤ off ∧ off < 0x6C0) := by omega
  rw [State.blockWrite, if_neg limits, out 0x800 _ _ (by decide), out 0x2000 _ _ (by decide), out 0x2800 _ _ (by decide), out 0x3800 _ _ (by decide),
    out 0x4800 _ _ (by decide), out 0x4C00 _ _ (by decide), out 0x6000 _ _ (by decide), out 0x7000 _ _ (by decide), if_neg mailbox]
  exact ite_self _

theorem migdis_stored (x : Partition) (v : Nat) : x.regWrite 0x44 v = { x with migdis := v.testBit 0 } := by
  rw [Nat.testBit_zero]
  rfl

theorem wfreeze_stored (x : Partition) (v : Nat) (h : x.wfreeze < 2 ^ 63) : x.regWrite 0xA0 v = { x with wfreeze := v % 256 } := by
  have idle : bitOf x.wfreeze 63 = false := by rw [bitOf_eq_testBit, Nat.testBit_lt_two_pow h]
  simp [Partition.regWrite, idle]

/-- `FABTMO` as stored, both fields held within their bounds (spec/21 R452). -/
theorem fabtmo_stored (x : Partition) (v : Nat) : let y := x.regWrite 0xF0 v
    y.fabtmo.toNat % 2 ^ 24 = max 100 (min 16000000 (v % 2 ^ 24)) ∧ y.fabtmo.toNat / 2 ^ 24 = max 1 (v / 2 ^ 24 % 2 ^ 8) := by
  have stored : (x.regWrite 0xF0 v).fabtmo = BitVec.ofNat 64 (fabtmoStored v) := rfl
  simp only [stored, fabtmoStored, packFields, clamp, bitsOf, BitVec.toNat_ofNat]
  omega

theorem tableSlot_entry {base n count w : Nat} (hn : n % 8 = 0) (h0 : 0 < n) (hw : w < count) :
    tableSlot base n count (base + n * w) = some (w, 0) := by
  have inside : base ≤ base + n * w ∧ base + n * w < base + n * count ∧ (base + n * w) % 8 = base % 8 := by
    have upper : n * w < n * count := Nat.mul_lt_mul_of_pos_left hw h0
    have aligned : n * w % 8 = 0 := by rw [Nat.mul_mod, hn, Nat.zero_mul, Nat.zero_mod]
    omega
  rw [tableSlot, if_pos inside, Nat.add_sub_cancel_left, Nat.mul_div_cancel_left _ h0, Nat.mul_mod_right]

/-- `PARKBASE` of a world, which every TDISP state but CONFIG_UNLOCKED locks (spec/14 R363; notes/assumptions/87). -/
theorem State.blockWrite_parkbase (s : State) {p w v : Nat} (hw : w < 256) (hp : w / 64 = p) :
    s.blockWrite p (0x2000 + 8 * w) v = s.modWorld w fun x => x.lockedWrite 2 0 v := by
  have limits : ¬(0x100 ≤ 0x2000 + 8 * w ∧ 0x2000 + 8 * w < 0x500 ∧ (0x2000 + 8 * w) % 4 = 0) := by omega
  have aligned : ¬(0x2000 + 8 * w) % 8 ≠ 0 := by omega
  have before : tableSlot 0x800 8 256 (0x2000 + 8 * w) = none := if_neg (by omega)
  rw [State.blockWrite, if_neg limits, if_neg aligned, before, tableSlot_entry (by decide) (by decide) hw]
  exact if_pos hp

theorem parkbase_stored (x : World) (v : BitVec 64) :
    x.lockedWrite 2 0 v.toNat = if x.tdisp = .unlocked then { x with parkbase := v } else x := by
  by_cases h : x.tdisp = .unlocked <;> simp [World.lockedWrite, h]

theorem State.pageWrite_fhvec (s : State) (w v : Nat) :
    s.pageWrite w 0x2800 v = s.modWorld w fun y => { y with fhvec := BitVec.ofNat 64 (v / 8 * 8) } := rfl

theorem registerWrite_fhvec {s : State} {r : RegWrite} {x : Nat} (hx : r.page = some x) (hb : s.boot = 1)
    (writer : r.by_ = x ∨ r.by_ = 64 * (x / 64)) (off : r.off = 0x2800) :
    Leads (.registerWrite r) s (s.modWorld x fun y => { y with fhvec := BitVec.ofNat 64 (r.v.toNat / 8 * 8) }) := by
  have may : s.boot = 1 ∧ (r.by_ = x ∨ r.by_ = 64 * partOfWorld x) := ⟨hb, writer⟩
  rw [Leads, exec_registerWrite, execRegisterWrite, State.registerWrite, hx]
  simp only [may, if_true, off, State.pageWrite_fhvec, and_self]

theorem registerWrite_foreign {s : State} {r : RegWrite} {x : Nat} (hx : r.page = some x) (h1 : r.by_ ≠ x) (h2 : r.by_ ≠ 64 * (x / 64)) :
    Leads (.registerWrite r) s s := by
  have may : ¬(s.boot = 1 ∧ (r.by_ = x ∨ r.by_ = 64 * partOfWorld x)) := fun h => h.2.elim h1 h2
  rw [Leads, exec_registerWrite, execRegisterWrite, State.registerWrite, hx]
  simp only [may, if_false]

theorem registerWrite_refused {s : State} {r : RegWrite} (h : s.boot ≠ 1 ∨ r.page = none ∧ r.by_ % 64 ≠ 0) :
    Leads (.registerWrite r) s s := by
  rw [Leads, exec_registerWrite, execRegisterWrite, State.registerWrite]
  rcases h with hb | ⟨hp, hy⟩
  · have nobody : s.writer r = none := if_neg hb
    cases r.page <;> simp [hb, nobody]
  · have nobody : s.writer r = none := by simp [State.writer, writerPart, hp, hy]
    simp only [hp, nobody]

/-! ## Clocks (spec/01 R14, R17) -/

theorem clockRelock_sets (s : State) (die : Nat) (kind : CoreKind) (mhz : Nat) :
    exec (.clockRelock die kind mhz) s = .next
      (if die < 4 ∧ 0 < mhz ∧ mhz ≤ (if kind = .stake then 3200 else 2400) then
        { s with clocks := tset s.clocks (3 * die + match kind with | .rand => 0 | .stake => 1 | .handle => 2) mhz } else s) := by
  cases kind <;> rfl

/-- Settles O51, register by register: who writes it, what is stored of it, and what the write leads to. -/
theorem registersPowerAndClocks : Obligations.RegistersPowerAndClocks := by
  unfold Obligations.RegistersPowerAndClocks
  intro own
  refine ⟨fun s r p c st s' h go on hv hn hp hc load => wvhctlGo_loads h go on hv hn hp hc load, fun s r p h off => wvhctlGo_ignored h off,
    fun s r p h hn => eiscfgWrite_drops h hn, fun s r p h => dutycfgWrite_stores h, fun s r p h => pwrlimWrite_clamps h,
    fun s r p h hv out => ⟨ps2Request_refused h hv out, ps2Request_granted h hv out⟩, fun s r p h hv asleep => ps0Request_starts h hv asleep,
    fun s p => ⟨ps2Exit_stays, ps2Exit_leaves⟩, fun s c => ps1Entry_gates, fun s c => ps1Entry_refused,
    fun s r p h => partcfgWrite_stores h, fun s r p h => ecccntClear_clears h, fun s r p h => ctrselWrite_stores h, ?migdis, ?fabtmo, ?parkbase,
    fun s r x hx => ⟨registerWrite_fhvec hx, registerWrite_foreign hx⟩, fun s r => registerWrite_refused, ?wfreeze,
    fun s die kind mhz => clockRelock_sets s die kind mhz⟩
  case migdis =>
    intro s r p h off
    have leads := registerWrite_leads h
    rw [off, State.blockWrite_low _ (by decide)] at leads
    simpa only [migdis_stored] using leads
  case fabtmo =>
    intro s r p h off
    have leads := registerWrite_leads h
    rw [off, State.blockWrite_low _ (by decide)] at leads
    refine ⟨_, leads, rfl, ?_⟩
    rw [State.clearTried_part, State.part_modPart_same]
    exact fabtmo_stored _ _
  case parkbase =>
    intro s r p w h hw hp off
    have leads := registerWrite_leads h
    rw [off, State.blockWrite_parkbase s hw hp] at leads
    refine ⟨_, leads, ?_, rfl⟩
    rw [State.clearTried_world, State.world_modWorld_same, parkbase_stored]
  case wfreeze =>
    intro s r p h off idle
    have leads := registerWrite_leads h
    rw [off, State.blockWrite_low _ (by decide)] at leads
    simpa only [State.modPart, wfreeze_stored _ _ idle] using leads

end Sys2Proof.Machine
end

section
/-! PROOFS, O53. Reset values, the resets of every kind, and boot. -/

namespace Sys2Proof.Machine

open Sys2Proof.Says

/-! ## Reset values, cold and warm resets, PS3 (spec/01 R19, R26) -/

theorem csns_reset {k : Nat} (h : k < 8) : Cluster.reset.csns.getD k 0 = 1 := by
  have each : ∀ k < 8, Cluster.reset.csns.getD k 0 = 1 := by decide
  exact each k h

/-- What a warm reset keeps of memory: extension memory, unless it is to be scrubbed. -/
theorem State.mem_warm (s : State) (scrub : Bool) : (scrub = true → (s.warm scrub).mem = []) ∧
    (scrub = false → ∀ c, c ∈ (s.warm scrub).mem ↔ c ∈ s.mem ∧ 0x0000100000000000 ≤ c.1 % 2 ^ 52 ∧ c.1 % 2 ^ 52 < 0x000F000000000000) := by
  cases scrub with
  | true => simp [State.warm]
  | false =>
    refine ⟨fun h => absurd h Bool.false_ne_true, fun _ c => ?_⟩
    simp only [State.warm, Bool.false_eq_true, if_false, List.mem_filter, Bool.and_eq_true, decide_eq_true_eq]
    exact Iff.rfl

theorem warmReset_off {s : State} {scrub : Bool} (h : s.boot = 3) : exec (.warmReset scrub) s = .next s := by
  rw [exec_warmReset, execWarmReset, if_pos h]

theorem warmReset_on {s : State} {scrub : Bool} (h : s.boot ≠ 3) : exec (.warmReset scrub) s = .next (s.warm scrub) := by
  rw [exec_warmReset, execWarmReset, if_neg h]

/-! ## What a step beside the books keeps -/

/-- t has s's contexts, grids, registers of worlds, partition count and time. -/
structure SameBooks (s t : State) : Prop where
  ctxs : t.ctxs = s.ctxs
  grids : t.grids = s.grids
  worlds : t.worlds = s.worlds
  partitions : t.partitions = s.partitions
  clock : t.clock = s.clock

theorem SameBooks.refl (s : State) : SameBooks s s := ⟨rfl, rfl, rfl, rfl, rfl⟩

theorem SameBooks.trans {s t u : State} (a : SameBooks s t) (b : SameBooks t u) : SameBooks s u :=
  ⟨b.ctxs.trans a.ctxs, b.grids.trans a.grids, b.worlds.trans a.worlds, b.partitions.trans a.partitions, b.clock.trans a.clock⟩

theorem SameBooks.of_beside {s t : State} (b : Beside s t) (h : t.worlds = s.worlds) : SameBooks s t :=
  ⟨b.ctxs, b.grids, h, b.partitions, b.clock⟩

theorem SameBooks.foldl {α : Type} {f : State → α → State} (h : ∀ s a, SameBooks s (f s a)) : ∀ (l : List α) (s : State),
    SameBooks s (l.foldl f s)
  | [], s => .refl s
  | a :: r, s => (h s a).trans (SameBooks.foldl h r (f s a))

/-! ## A world's area for parked completions, emptied when its contexts end -/

theorem worlds_writeFrz (s : State) (e v : Nat) (on : Bool) : (s.writeFrz e v on).worlds = s.worlds := by
  unfold State.writeFrz
  rfl

@[simp] theorem worlds_markLeaves (s : State) (p : Nat) (f : Nat → Bool) (on : Bool) : (s.markLeaves p f on).worlds = s.worlds := by
  have leaves (ls : List (Nat × Nat × Nat)) (s : State) : (ls.foldl (fun s l => s.writeFrz l.1 l.2.1 on) s).worlds = s.worlds := by
    refine foldl_keeps State.worlds ?_ ls s
    intro s l
    exact worlds_writeFrz s l.1 l.2.1 on
  rw [State.markLeaves, foldl_keeps State.worlds fun s c => leaves _ s]

@[simp] theorem worlds_shadowRange (s : State) (a n : Nat) : (s.shadowRange a n).worlds = s.worlds := by
  have frame (s : State) (f : Nat) : (s.shadowFrame f).worlds = s.worlds := by
    unfold State.shadowFrame
    simp only
    split <;> simp
  unfold State.shadowRange
  split
  · rfl
  · exact foldl_keeps State.worlds frame _ s

@[simp] theorem worlds_markExt (s : State) (a : Nat) : (s.markExt a).worlds = s.worlds := by
  unfold State.markExt
  split <;> rfl

theorem sameBooks_writeOwn {s t : State} {p a : Nat} {bs : List Byte} (h : s.writeOwn p a bs = .ok t) : SameBooks s t := by
  unfold State.writeOwn at h
  cases hw : (s.shadowRange a bs.length).writeDev (64 * p) a bs with
  | error c => rw [hw] at h; exact absurd h (by simp [Except.map])
  | ok s1 =>
    rw [hw] at h
    cases h
    refine .of_beside (((beside_shadowRange ..).trans (beside_writeDev hw)).trans (beside_markExt ..)) ?_
    obtain ⟨m, o, q, rfl⟩ := State.writeDev_frame hw
    rw [worlds_markExt]
    exact worlds_shadowRange ..

/-- The state once a world's parked completions are dropped, where it has an area that can be read. -/
def State.emptyPark (s : State) (w : Nat) : State :=
  match s.parkArea w with
  | .ok a => s.keepParked w a []
  | .error _ => s

theorem sameBooks_emptyPark (s : State) (w : Nat) : SameBooks s (s.emptyPark w) := by
  unfold State.emptyPark
  split
  · simp only [State.keepParked, List.zipIdx_nil, List.foldl_nil]
    split
    · rename_i h
      exact sameBooks_writeOwn h
    · exact .refl s
  · exact .refl s

theorem mem_of_tget {α : Type} {n : Nat} {x : α} : ∀ {t : Tbl α}, tget t n = some x → (n, x) ∈ t
  | [], h => absurd h (by simp [tget])
  | (k, v) :: r, h => by
    simp only [tget] at h
    split at h
    · rename_i hk
      cases h
      rw [hk]
      exact List.mem_cons_self
    · exact List.mem_cons_of_mem _ (mem_of_tget h)

/-- Nothing can be read under a world that owns no line (spec/14 R368, R490). -/
theorem State.readDev_ownerless {s : State} {w : Nat} (h : ∀ o ∈ s.owners, o.2.world ≠ w) (a : Nat) {n : Nat} (hn : 0 < n) :
    ∃ c, s.readDev w a n = .error c := by
  have fault (l : Nat) : ∃ c, s.lineFault w l = some c := by
    have owned : s.lineOwned w l = false := by
      rw [State.lineOwned, beq_eq_false_iff_ne]
      exact fun ho => h _ (mem_of_tget ho) rfl
    rw [State.lineFault, owned]
    split
    · exact ⟨_, rfl⟩
    · exact ⟨_, rfl⟩
  obtain ⟨c, hc⟩ := fault (a / 128)
  obtain ⟨k, hk⟩ : ∃ k, (a + n - 1) / 128 + 1 - a / 128 = k + 1 := ⟨(a + n - 1) / 128 - a / 128, by omega⟩
  refine ⟨c, ?_⟩
  rw [State.readDev, linesOf, if_neg (by omega), hk, rangeFrom, State.firstBadLine, hc]

theorem State.emptyPark_ownerless {s : State} {w : Nat} (h : ∀ o ∈ s.owners, o.2.world ≠ 64 * partOfWorld w) : s.emptyPark w = s := by
  have unusable : ∃ c, s.parkArea w = .error c := by
    obtain ⟨c, hc⟩ := State.readDev_ownerless h (absAddr (partOfWorld w) (s.world w).parkbase.toNat) (n := 64) (by decide)
    rw [State.parkArea]
    simp only [hc]
    split
    · exact ⟨_, rfl⟩
    · exact ⟨_, rfl⟩
  obtain ⟨c, hc⟩ := unusable
  rw [State.emptyPark, hc]

/-! ## A world's contexts end (spec/01 R26) -/

/-- The state in which a world's gangs stand in no queue any more. -/
def State.unbound (s : State) (w : Nat) : State :=
  let all := s.allGangs.filter fun g => s.worldOf g == w
  all.foldl (fun s g => s.leaveBanks g) ((s.emptyPark w).unqueue (all.map (·.key)))

theorem sameBooks_unbound (s : State) (w : Nat) : SameBooks s (s.unbound w) := by
  have unqueue (s : State) (keys : List Nat) : SameBooks s (s.unqueue keys) := ⟨rfl, rfl, rfl, rfl, rfl⟩
  have leave (s : State) (g : Gang) : SameBooks s (s.leaveBanks g) := ⟨rfl, rfl, rfl, rfl, rfl⟩
  exact ((sameBooks_emptyPark s w).trans (unqueue _ _)).trans (SameBooks.foldl leave _ _)

theorem owners_unbound (s : State) (w : Nat) : (s.unbound w).owners = (s.emptyPark w).owners :=
  foldl_keeps State.owners (by intros; rfl) _ _

theorem endContexts_ctxs (s : State) (w : Nat) : (s.endContexts w).ctxs = (s.unbound w).ctxs.filter fun c => c.world != w :=
  foldl_keeps State.ctxs (by intros; rfl) _ _

theorem endContexts_grids (s : State) (w : Nat) : (s.endContexts w).grids = (s.unbound w).grids.filter fun g => g.world != w :=
  foldl_keeps State.grids (by intros; rfl) _ _

theorem endContexts_tlb (s : State) (w : Nat) : (s.endContexts w).tlb = (s.unbound w).tlb.filter fun t => t.world != w :=
  foldl_keeps State.tlb (by intros; rfl) _ _

theorem endContexts_owners (s : State) (w : Nat) : (s.endContexts w).owners = (s.unbound w).owners :=
  foldl_keeps State.owners (by intros; rfl) _ _

theorem endContexts_partitions (s : State) (w : Nat) : (s.endContexts w).partitions = (s.unbound w).partitions :=
  foldl_keeps State.partitions (by intros; rfl) _ _

theorem endContexts_clock (s : State) (w : Nat) : (s.endContexts w).clock = (s.unbound w).clock :=
  foldl_keeps State.clock (by intros; rfl) _ _

/-- A world's registers when its contexts have ended. -/
def World.withoutContexts (x : World) : World :=
  { x with queues := [], held := [], heldReported := false, cswbusy := false, cswbegun := false }

theorem endContexts_worlds (s : State) (w : Nat) : (s.endContexts w).worlds = ((s.unbound w).modWorld w World.withoutContexts).worlds :=
  foldl_keeps State.worlds (by intros; rfl) _ _

theorem State.world_congr {s t : State} (h : t.worlds = s.worlds) (w : Nat) : t.world w = s.world w := by
  rw [State.world, h, State.world]

theorem endContexts_world_same (s : State) (w : Nat) : (s.endContexts w).world w = (s.world w).withoutContexts := by
  rw [State.world_congr (endContexts_worlds s w), State.world_modWorld_same, State.world_congr (sameBooks_unbound s w).worlds]

theorem endContexts_world_other (s : State) {w x : Nat} (h : x ≠ w) : (s.endContexts w).world x = s.world x := by
  rw [State.world_congr (endContexts_worlds s w), State.world_modWorld_other _ _ _ _ h, State.world_congr (sameBooks_unbound s w).worlds]

/-! ## Function-level reset (spec/14 R368: its keys; spec/10 R287, spec/08 R238: its held posts and bindings) -/

/-- A world's keys, and what clusters hold for it beside its contexts, gone. -/
def State.forgetWorld (t : State) (w : Nat) : State :=
  { t.wipeKeys w with clusters := (t.wipeKeys w).clusters.map fun p => (p.1, p.2.forgetWorld w) }

theorem resetWorld_eq (s : State) (w : Nat) : s.resetWorld w = (s.endContexts w).forgetWorld w := rfl

@[simp] theorem State.forgetWorld_ctxs (t : State) (w : Nat) : (t.forgetWorld w).ctxs = t.ctxs := rfl
@[simp] theorem State.forgetWorld_grids (t : State) (w : Nat) : (t.forgetWorld w).grids = t.grids := rfl
@[simp] theorem State.forgetWorld_tlb (t : State) (w : Nat) : (t.forgetWorld w).tlb = t.tlb := rfl
@[simp] theorem State.forgetWorld_owners (t : State) (w : Nat) : (t.forgetWorld w).owners = t.owners.filter fun o => o.2.world != w := rfl
@[simp] theorem State.forgetWorld_partitions (t : State) (w : Nat) : (t.forgetWorld w).partitions = t.partitions := rfl
@[simp] theorem State.forgetWorld_clock (t : State) (w : Nat) : (t.forgetWorld w).clock = t.clock := rfl

@[simp] theorem State.forgetWorld_world_same (t : State) (w : Nat) :
    (t.forgetWorld w).world w = { t.world w with key := 0, modelKey := none } :=
  t.world_modWorld_same w fun x => { x with key := 0, modelKey := none }

@[simp] theorem State.forgetWorld_world_other (t : State) {w x : Nat} (h : x ≠ w) : (t.forgetWorld w).world x = t.world x :=
  t.world_modWorld_other w x (fun x => { x with key := 0, modelKey := none }) h

@[simp] theorem State.forgetWorld_cluster (t : State) (w c : Nat) : (t.forgetWorld w).cluster c = (t.cluster c).forgetWorld w := by
  have entry : tget (t.forgetWorld w).clusters c = (tget t.clusters c).map fun k => k.forgetWorld w :=
    tget_map (β := Cluster) (fun _ (k : Cluster) => k.forgetWorld w) c t.clusters
  rw [State.cluster, entry, State.cluster]
  cases tget t.clusters c <;> rfl

theorem mem_resetWorld_ctxs {s : State} {w : Nat} {c : Context} : c ∈ (s.resetWorld w).ctxs ↔ c ∈ s.ctxs ∧ c.world ≠ w := by
  rw [resetWorld_eq, State.forgetWorld_ctxs, endContexts_ctxs, (sameBooks_unbound s w).ctxs, List.mem_filter, bne_iff_ne]

theorem mem_resetWorld_grids {s : State} {w : Nat} {g : Grid} : g ∈ (s.resetWorld w).grids ↔ g ∈ s.grids ∧ g.world ≠ w := by
  rw [resetWorld_eq, State.forgetWorld_grids, endContexts_grids, (sameBooks_unbound s w).grids, List.mem_filter, bne_iff_ne]

theorem mem_resetWorld_tlb {s : State} {w : Nat} {t : TlbEntry} : t ∈ (s.resetWorld w).tlb ↔ t ∈ (s.unbound w).tlb ∧ t.world ≠ w := by
  rw [resetWorld_eq, State.forgetWorld_tlb, endContexts_tlb, List.mem_filter, bne_iff_ne]

theorem mem_resetWorld_owners {s : State} {w : Nat} {o : Nat × Owner} :
    o ∈ (s.resetWorld w).owners ↔ o ∈ (s.emptyPark w).owners ∧ o.2.world ≠ w := by
  rw [resetWorld_eq, State.forgetWorld_owners, endContexts_owners, owners_unbound, List.mem_filter, bne_iff_ne]

theorem resetWorld_partitions (s : State) (w : Nat) : (s.resetWorld w).partitions = s.partitions := by
  rw [resetWorld_eq, State.forgetWorld_partitions, endContexts_partitions, (sameBooks_unbound s w).partitions]

theorem resetWorld_clock (s : State) (w : Nat) : (s.resetWorld w).clock = s.clock := by
  rw [resetWorld_eq, State.forgetWorld_clock, endContexts_clock, (sameBooks_unbound s w).clock]

theorem resetWorld_world_same (s : State) (w : Nat) :
    (s.resetWorld w).world w = { (s.world w).withoutContexts with key := 0, modelKey := none } := by
  rw [resetWorld_eq, State.forgetWorld_world_same, endContexts_world_same]

theorem resetWorld_world_other (s : State) {w x : Nat} (h : x ≠ w) : (s.resetWorld w).world x = s.world x := by
  rw [resetWorld_eq, State.forgetWorld_world_other _ h, endContexts_world_other s h]

theorem resetWorld_bindings (s : State) (w c : Nat) : ∀ b ∈ ((s.resetWorld w).cluster c).bindings, b.2 ≠ w := by
  rw [resetWorld_eq, State.forgetWorld_cluster]
  intro b hb
  simpa using (List.mem_filter.1 hb).2

theorem resetWorld_heldOf (s : State) (w c : Nat) : ((s.resetWorld w).cluster c).heldOf w = 0 := by
  rw [resetWorld_eq, State.forgetWorld_cluster, Cluster.heldOf, Cluster.forgetWorld, List.length_eq_zero_iff, List.filter_filter, List.filter_eq_nil_iff]
  simp

theorem functionLevelReset_physical {s : State} {w : Nat} (h : w % 64 = 0) : exec (.functionLevelReset w) s = .next s := by
  rw [exec_functionLevelReset, execFunctionLevelReset, if_pos h]

/-- Before the boot has ended, and while the partition leaves PS2, the answer is Request Retry Status (spec/01 R20, R28;
notes/assumptions/124). -/
theorem functionLevelReset_retries {s : State} {w : Nat} (h : w % 64 ≠ 0)
    (early : s.boot = 0 ∨ s.boot = 2 ∨ s.boot = 1 ∧ (s.part (w / 64)).psexit = true) :
    exec (.functionLevelReset w) s = .next { s with answers := s.answers ++ [((s.pciePorts (w / 64)).headD 24, 4, [])] } := by
  have retries : s.retries (partOfWorld w) = true := by
    rw [State.retries, partOfWorld]
    rcases early with hb | hb | ⟨hb, hx⟩
    · simp [hb]
    · simp [hb]
    · simp [hb, hx]
  have powered : s.boot ≠ 3 := by omega
  rw [exec_functionLevelReset, execFunctionLevelReset, if_neg h, if_pos retries, State.retryStatus, if_neg powered]
  rfl

theorem functionLevelReset_resets {s : State} {w : Nat} (h : w % 64 ≠ 0) (booted : s.boot = 1) (awake : (s.part (w / 64)).psexit = false) :
    exec (.functionLevelReset w) s = .next (s.resetWorld w).clearTried := by
  have retries : s.retries (partOfWorld w) = false := by simp [State.retries, partOfWorld, booted, awake]
  rw [exec_functionLevelReset, execFunctionLevelReset, if_neg h, retries, if_neg Bool.false_ne_true]

theorem functionLevelReset_clears {s : State} {w : Nat} (h : w % 64 ≠ 0) (booted : s.boot = 1) (awake : (s.part (w / 64)).psexit = false) :
    ∃ u : State, exec (.functionLevelReset w) s = .next u ∧
      (∀ c, ∀ b ∈ (u.cluster c).bindings, b.2 ≠ w) ∧ (∀ c, (u.cluster c).heldOf w = 0) ∧ (∀ c ∈ u.ctxs, c.world ≠ w) ∧ (∀ g ∈ u.grids, g.world ≠ w) ∧
      (∀ t ∈ u.tlb, t.world ≠ w) ∧ (∀ o ∈ u.owners, o.2.world ≠ w) ∧ (u.world w).key = 0 ∧ (u.world w).modelKey = none ∧ (u.world w).queues = [] ∧
      (u.world w).tdisp = (s.world w).tdisp ∧ ∀ x, x ≠ w → (u.world x).queues = (s.world x).queues ∧ (u.world x).key = (s.world x).key := by
  have ctxs : ∀ c ∈ (s.resetWorld w).ctxs, c.world ≠ w := fun c hc => (mem_resetWorld_ctxs.1 hc).2
  have grids : ∀ g ∈ (s.resetWorld w).grids, g.world ≠ w := fun g hg => (mem_resetWorld_grids.1 hg).2
  have tlb : ∀ t ∈ (s.resetWorld w).tlb, t.world ≠ w := fun t ht => (mem_resetWorld_tlb.1 ht).2
  have owners : ∀ o ∈ (s.resetWorld w).owners, o.2.world ≠ w := fun o ho => (mem_resetWorld_owners.1 ho).2
  have bindings := resetWorld_bindings s w
  have held := resetWorld_heldOf s w
  have mine := resetWorld_world_same s w
  have others x (hx : x ≠ w) := resetWorld_world_other s hx
  refine ⟨_, functionLevelReset_resets h booted awake, ?_⟩
  generalize s.resetWorld w = t at *
  refine ⟨bindings, held, ctxs, grids, tlb, owners, ?_⟩
  rw [State.clearTried_world, mine]
  refine ⟨rfl, rfl, rfl, rfl, fun x hx => ?_⟩
  rw [State.clearTried_world, others x hx]
  exact ⟨rfl, rfl⟩

/-! ## Partition reset -/

/-- Every world of a partition reset in turn, the physical function's first. -/
def State.worldsReset (s : State) (p : Nat) : State := (rangeFrom (64 * p) 64).foldl (fun s w => s.resetWorld w) s

theorem mem_worldsOf {p w : Nat} : w ∈ rangeFrom (64 * p) 64 ↔ w / 64 = p := by
  rw [mem_rangeFrom]
  omega

theorem worldsReset_partitions (s : State) (p : Nat) : (s.worldsReset p).partitions = s.partitions :=
  foldl_keeps State.partitions resetWorld_partitions _ s

theorem worldsReset_clock (s : State) (p : Nat) : (s.worldsReset p).clock = s.clock := foldl_keeps State.clock resetWorld_clock _ s

/-- What one world's reset brings about and no other's undoes holds when all are done. -/
theorem worldsReset_reaches {P : State → Prop} {w p : Nat} (hw : w / 64 = p) (made : ∀ s : State, P (s.resetWorld w))
    (kept : ∀ (s : State) x, P s → P (s.resetWorld x)) (s : State) : P (s.worldsReset p) :=
  foldl_reaches made kept _ s (mem_worldsOf.2 hw)

theorem worldsReset_ctxs (s : State) {p : Nat} : ∀ c ∈ (s.worldsReset p).ctxs, c.world / 64 ≠ p := by
  intro c hc hp
  have gone : ∀ c' ∈ (s.worldsReset p).ctxs, c'.world ≠ c.world :=
    worldsReset_reaches (P := fun s => ∀ c' ∈ s.ctxs, c'.world ≠ c.world) hp (fun s c' h => (mem_resetWorld_ctxs.1 h).2)
      (fun s w ih c' h => ih c' (mem_resetWorld_ctxs.1 h).1) s
  exact gone c hc rfl

theorem worldsReset_grids (s : State) {p : Nat} : ∀ g ∈ (s.worldsReset p).grids, g.world / 64 ≠ p := by
  intro g hg hp
  have gone : ∀ g' ∈ (s.worldsReset p).grids, g'.world ≠ g.world :=
    worldsReset_reaches (P := fun s => ∀ g' ∈ s.grids, g'.world ≠ g.world) hp (fun s g' h => (mem_resetWorld_grids.1 h).2)
      (fun s w ih g' h => ih g' (mem_resetWorld_grids.1 h).1) s
  exact gone g hg rfl

/-- With the physical function's keys gone no area can be read, so that no reset of another world writes under them again. -/
theorem foldl_resetWorld_owners {p : Nat} : ∀ (ws : List Nat) (s : State), (∀ w ∈ ws, partOfWorld w = p) → (∀ o ∈ s.owners, o.2.world ≠ 64 * p) →
    ∀ o ∈ (ws.foldl (fun s w => s.resetWorld w) s).owners, o ∈ s.owners ∧ ∀ w ∈ ws, o.2.world ≠ w
  | [], _, _, _, o, ho => ⟨ho, fun _ hw => absurd hw List.not_mem_nil⟩
  | w :: r, s, hp, ownerless, o, ho => by
    have unread : s.emptyPark w = s := State.emptyPark_ownerless (by rwa [hp w List.mem_cons_self])
    have fewer {o} (h : o ∈ (s.resetWorld w).owners) : o ∈ s.owners ∧ o.2.world ≠ w := unread ▸ mem_resetWorld_owners.1 h
    obtain ⟨before, others⟩ := foldl_resetWorld_owners r (s.resetWorld w) (fun x hx => hp x (List.mem_cons_of_mem w hx))
      (fun o h => ownerless o (fewer h).1) o ho
    exact ⟨(fewer before).1, List.forall_mem_cons.2 ⟨(fewer before).2, others⟩⟩

theorem worldsReset_owners (s : State) {p : Nat} : ∀ o ∈ (s.worldsReset p).owners, o.2.world / 64 ≠ p := by
  intro o ho hp
  have physicalFirst : rangeFrom (64 * p) 64 = 64 * p :: rangeFrom (64 * p + 1) 63 := rfl
  have rest : ∀ w ∈ rangeFrom (64 * p + 1) 63, partOfWorld w = p := by
    intro w hw
    rw [mem_rangeFrom] at hw
    rw [partOfWorld]
    omega
  rw [State.worldsReset, physicalFirst, List.foldl_cons] at ho
  obtain ⟨before, others⟩ := foldl_resetWorld_owners _ _ rest (fun o h => (mem_resetWorld_owners.1 h).2) o ho
  have virtual : o.2.world ≠ 64 * p := (mem_resetWorld_owners.1 before).2
  exact others o.2.world (mem_rangeFrom.2 (by omega)) rfl

theorem worldsReset_world (s : State) {p w : Nat} (h : w / 64 = p) :
    ((s.worldsReset p).world w).key = 0 ∧ ((s.worldsReset p).world w).modelKey = none ∧ ((s.worldsReset p).world w).queues = [] := by
  have made (s : State) : ((s.resetWorld w).world w).key = 0 ∧ ((s.resetWorld w).world w).modelKey = none ∧
      ((s.resetWorld w).world w).queues = [] := by
    rw [resetWorld_world_same]
    exact ⟨rfl, rfl, rfl⟩
  refine worldsReset_reaches (P := fun s => (s.world w).key = 0 ∧ (s.world w).modelKey = none ∧ (s.world w).queues = []) h made (fun s x ih => ?_) s
  by_cases hx : w = x
  · exact hx ▸ made s
  · rwa [resetWorld_world_other s hx]

/-- The partition's cores, clusters and translations cleared, when its worlds have been reset (notes/assumptions/94). -/
def State.clearPartition (t : State) (p : Nat) : State :=
  { t.modPart p fun x => x.cleared t.clock t.ticks with
    gangs := t.gangs.filter fun g => !(t.partOfCluster g.cluster == p)
    clusters := t.clusters.map fun q => if t.partOfCluster q.1 == p then (q.1, q.2.cleared) else q
    cores := t.cores.filter fun q => !(t.partOfCluster (clusterOfCore q.1) == p)
    ats := t.ats.filter fun (x : AtsEntry) => partOfWorld x.world != p }

theorem resetPartition_eq (s : State) (p : Nat) : s.resetPartition p = (s.worldsReset p).clearPartition p := rfl

theorem clearPartition_gangs (t : State) (p : Nat) : ∀ g ∈ (t.clearPartition p).clearTried.gangs, t.partOfCluster g.cluster ≠ p := by
  intro g hg
  obtain ⟨g', hg', rfl⟩ := List.mem_map.1 hg
  have away : t.partOfCluster g'.cluster ≠ p := by simpa using (List.mem_filter.1 hg').2
  exact away

theorem clearPartition_ats (t : State) (p : Nat) : ∀ x ∈ (t.clearPartition p).ats, x.world / 64 ≠ p := by
  intro x hx
  simpa [partOfWorld] using (List.mem_filter.1 hx).2

theorem clearPartition_part (t : State) (p : Nat) : (t.clearPartition p).part p = (t.part p).cleared t.clock t.ticks :=
  State.part_modPart_same t p fun x => x.cleared t.clock t.ticks

theorem partitionReset_absent {s : State} {p : Nat} (h : s.partitions ≤ p ∨ s.boot = 3) : exec (.partitionReset p) s = .next s := by
  rw [exec_partitionReset, execPartitionReset, if_neg (by omega)]

theorem partitionReset_resets {s : State} {p : Nat} (h : p < s.partitions) (on : s.boot ≠ 3) :
    exec (.partitionReset p) s = .next ((s.worldsReset p).clearPartition p).clearTried := by
  rw [exec_partitionReset, execPartitionReset, if_pos ⟨h, on⟩, resetPartition_eq]

theorem partitionReset_clears {s : State} {p : Nat} (h : p < s.partitions) (on : s.boot ≠ 3) :
    ∃ u : State, exec (.partitionReset p) s = .next u ∧ (∀ g ∈ u.gangs, u.partOfCluster g.cluster ≠ p) ∧
      (∀ c ∈ u.ctxs, c.world / 64 ≠ p) ∧ (∀ g ∈ u.grids, g.world / 64 ≠ p) ∧ (∀ x ∈ u.ats, x.world / 64 ≠ p) ∧ (∀ o ∈ u.owners, o.2.world / 64 ≠ p) ∧
      (∀ w, w / 64 = p → (u.world w).key = 0 ∧ (u.world w).modelKey = none ∧ (u.world w).queues = []) ∧
      (u.part p).ckpt = .reset ∧ (u.part p).clock0 = s.clock ∧ u.partitions = s.partitions := by
  have ctxs : ∀ c ∈ (s.worldsReset p).ctxs, c.world / 64 ≠ p := worldsReset_ctxs s
  have grids : ∀ g ∈ (s.worldsReset p).grids, g.world / 64 ≠ p := worldsReset_grids s
  have owners : ∀ o ∈ (s.worldsReset p).owners, o.2.world / 64 ≠ p := worldsReset_owners s
  have worlds w (hw : w / 64 = p) := worldsReset_world s hw
  have clock := worldsReset_clock s p
  have partitions := worldsReset_partitions s p
  refine ⟨_, partitionReset_resets h on, ?_⟩
  generalize s.worldsReset p = t at *
  refine ⟨clearPartition_gangs t p, ctxs, grids, clearPartition_ats t p, owners, worlds, ?_, ?_, partitions⟩
  · rw [State.clearTried_part, clearPartition_part]
    rfl
  · rw [State.clearTried_part, clearPartition_part]
    exact clock

/-! ## Hot reset of PCIe port 1 of a device of one partition (spec/01 R27) -/

/-- No gang has an operation in flight. -/
def NoRecords (gs : List Gang) : Prop := ∀ g ∈ gs, ∀ sk ∈ g.skeins, sk.record = []

theorem mem_modifyAt {α : Type} {f : α → α} {y : α} : ∀ {l : List α} {n : Nat}, y ∈ modifyAt l n f → ∃ x ∈ l, y = x ∨ y = f x
  | [], _, h => absurd h List.not_mem_nil
  | x :: r, 0, h => by
    rcases List.mem_cons.1 h with h | h
    · exact ⟨x, List.mem_cons_self, .inr h⟩
    · exact ⟨y, List.mem_cons_of_mem x h, .inl rfl⟩
  | x :: r, n + 1, h => by
    rcases List.mem_cons.1 h with h | h
    · exact ⟨x, List.mem_cons_self, .inl h⟩
    · obtain ⟨z, hz, hy⟩ := mem_modifyAt h
      exact ⟨z, List.mem_cons_of_mem x hz, hy⟩

theorem mem_putGang {g h : Gang} : ∀ {gs : List Gang}, h ∈ putGang gs g → h = g ∨ h ∈ gs
  | [], hm => absurd hm List.not_mem_nil
  | x :: r, hm => by
    simp only [putGang] at hm
    split at hm
    · exact (List.mem_cons.1 hm).imp_right (List.mem_cons_of_mem x)
    · rcases List.mem_cons.1 hm with hm | hm
      · exact .inr (hm ▸ List.mem_cons_self)
      · exact (mem_putGang hm).imp_right (List.mem_cons_of_mem x)

theorem mem_of_findGang {k : Nat} {g : Gang} : ∀ {gs : List Gang}, findGang gs k = some g → g ∈ gs
  | [], h => absurd h (by simp [findGang])
  | x :: r, h => by
    simp only [findGang] at h
    split at h
    · cases h
      exact List.mem_cons_self
    · exact List.mem_cons_of_mem x (mem_of_findGang h)

/-- A change of a skein that leaves its record alone changes gangs alone, and puts no operation in flight. -/
theorem State.modSkein_noRecords {s : State} (h : NoRecords s.gangs) (key k : Nat) {f : Skein → Skein} (hf : ∀ sk, (f sk).record = sk.record) :
    ∃ gs, s.modSkein key k f = { s with gangs := gs } ∧ NoRecords gs := by
  unfold State.modSkein State.modGang
  split
  · rename_i g hg
    refine ⟨_, rfl, fun y hy sk hsk => ?_⟩
    rcases mem_putGang hy with rfl | hy
    · obtain ⟨sk', hm, rfl | rfl⟩ := mem_modifyAt hsk
      · exact h g (mem_of_findGang hg) _ hm
      · exact (hf sk').trans (h g (mem_of_findGang hg) _ hm)
    · exact h y hy sk hsk
  · exact ⟨s.gangs, rfl, h⟩

/-- With no operation in flight a replay has nothing to try again. -/
theorem State.replayWaiting_noRecords {s : State} (h : NoRecords s.gangs) (key k : Nat) :
    ∃ gs, s.replayWaiting key k = { s with gangs := gs } ∧ NoRecords gs := by
  unfold State.replayWaiting
  split
  · exact ⟨s.gangs, rfl, h⟩
  · rename_i sk hsk
    have empty : sk.record = [] := by
      obtain ⟨g, hg, hk⟩ := Option.bind_eq_some_iff.1 hsk
      exact h g (mem_of_findGang hg) sk (List.mem_of_getElem? hk)
    split
    · exact ⟨s.gangs, rfl, h⟩
    · simp only [empty, List.flatMap_nil, List.foldl_nil]
      exact State.modSkein_noRecords h key k (by intros; rfl)

theorem foldl_noRecords {α : Type} {f : State → α → State}
    (hf : ∀ s a, NoRecords s.gangs → ∃ gs, f s a = { s with gangs := gs } ∧ NoRecords gs) :
    ∀ (l : List α) (s : State), NoRecords s.gangs → ∃ gs, l.foldl f s = { s with gangs := gs } ∧ NoRecords gs
  | [], s, h => ⟨s.gangs, rfl, h⟩
  | a :: r, s, h => by
    obtain ⟨gs, step, kept⟩ := hf s a h
    rw [List.foldl_cons, step]
    exact foldl_noRecords hf r { s with gangs := gs } kept

theorem State.retryReplays_noRecords {s : State} (h : NoRecords s.gangs) : ∃ gs, s.retryReplays = { s with gangs := gs } ∧ NoRecords gs := by
  refine foldl_noRecords (fun s g h => ?_) s.gangs s h
  split
  · exact ⟨s.gangs, rfl, h⟩
  · exact foldl_noRecords (fun s k h => State.replayWaiting_noRecords h g.key k) _ s h

theorem State.endRequests_noRecords {s : State} (h : NoRecords s.gangs) (mine : Gang → Part → Bool) (code : FaultCode) :
    s.endRequests mine code = s := by
  have empty (g : Gang) (hg : g ∈ s.gangs) (p : Skein × Nat) (hp : p ∈ g.skeins.zipIdx) : p.1.record = [] :=
    h g hg p.1 (List.fst_mem_of_mem_zipIdx hp)
  unfold State.endRequests
  simp only
  rw [List.flatMap_eq_nil_iff.2, List.foldl_nil]
  intro g hg
  split
  · rfl
  · refine List.flatMap_eq_nil_iff.2 fun p hp => ?_
    rw [empty g hg p hp, List.flatMap_nil]

theorem State.parkLost_noneSaved {s : State} (h : ∀ c ∈ s.ctxs, c.saved = []) (p : Nat) (pick : Part → Bool) : s.parkLost p pick = s := by
  unfold State.parkLost
  simp only
  rw [List.flatMap_eq_nil_iff.2, List.foldl_nil]
  intro c hc
  rw [h c (List.mem_filter.1 hc).1, List.flatMap_nil]

/-- With nothing in flight no request is lost with a link. -/
theorem State.loseRequests_quiet {t : State} (saved : ∀ c ∈ t.ctxs, c.saved = []) (idle : NoRecords t.gangs) (mine : Gang → Part → Bool)
    (code : FaultCode) (p : Nat) (pick : Part → Bool) : ∃ gs, ((t.endRequests mine code).parkLost p pick).retryReplays = { t with gangs := gs } := by
  obtain ⟨gs, retried, -⟩ := State.retryReplays_noRecords idle
  exact ⟨gs, by rw [State.endRequests_noRecords idle, State.parkLost_noneSaved saved, retried]⟩

/-- With nothing in flight the port goes down, and contexts and memory stay as they are. -/
theorem State.resetSecondPort_quiet {s : State} (saved : ∀ c ∈ s.ctxs, c.saved = []) (idle : NoRecords s.gangs) (reqs : (s.part 0).pageReqs = []) :
    (tget s.resetSecondPort.ports 25).map (·.up) = some false ∧ s.resetSecondPort.ctxs = s.ctxs ∧ s.resetSecondPort.mem = s.mem := by
  have quiet (f : Partition → Partition) := State.loseRequests_quiet (t := (s.draw.setPort 25 false).modPart 0 f) saved idle
  unfold State.resetSecondPort
  simp only [reqs, List.filter_nil, List.foldl_nil]
  obtain ⟨gs, lost⟩ := quiet _ _ _ _ _
  rw [lost]
  refine ⟨?_, rfl, rfl⟩
  simp [State.setPort]

theorem pcieHotReset_ignored {s : State} {port : Nat} (h : port ≠ 24 ∧ port ≠ 25 ∨ s.boot = 3) : Leads (.pcieHotReset port) s s := by
  rw [Leads, exec_pcieHotReset, execPcieHotReset, State.hotReset, if_pos h]

theorem pcieHotReset_port0 {s : State} (on : s.boot ≠ 3) (one : s.partitions = 1) :
    exec (.pcieHotReset 24) s = .next (s.warm false).clearTried := by
  have reset : s.hotReset 24 = s.warm false := by simp [State.hotReset, on, one]
  rw [exec_pcieHotReset, execPcieHotReset, reset]

theorem pcieHotReset_port1 {s : State} (on : s.boot ≠ 3) (one : s.partitions = 1) (saved : ∀ c ∈ s.ctxs, c.saved = []) (idle : NoRecords s.gangs)
    (reqs : (s.part 0).pageReqs = []) : ∃ u : State, exec (.pcieHotReset 25) s = .next u ∧ (tget u.ports 25).map (·.up) = some false ∧
      u.ctxs = s.ctxs ∧ u.mem = s.mem := by
  have reset : s.hotReset 25 = s.resetSecondPort := by simp [State.hotReset, on, one]
  have quiet := State.resetSecondPort_quiet saved idle reqs
  rw [exec_pcieHotReset, execPcieHotReset, reset]
  generalize s.resetSecondPort = t at *
  exact ⟨_, rfl, quiet⟩

/-! ## Boot (spec/01 R28, spec/14 R365) -/

theorem bootComplete_done {s : State} (ok : Bool) (h : s.boot ≠ 0) : exec (.bootComplete ok) s = .next s := by
  rw [exec_bootComplete, execBootComplete, if_pos h]

theorem bootComplete_failed {s : State} (h : s.boot = 0) : exec (.bootComplete false) s = .next { s with boot := 2 } := by
  simp [exec_bootComplete, execBootComplete, h]

theorem bootComplete_again {s : State} (h : s.boot = 0) (id : s.fabricId ≠ 0) : exec (.bootComplete true) s = .next { s with boot := 1 } := by
  simp [exec_bootComplete, execBootComplete, h, id]

/-- The firmware gives a fabric id once after a cold reset, whichever it is (notes/assumptions/7). -/
theorem bootComplete_first {s : State} (h : s.boot = 0) (id : s.fabricId = 0) :
    ∃ u : State, exec (.bootComplete true) s = .next u ∧ u.boot = 1 ∧ 1 ≤ u.fabricId ∧ u.fabricId < 0xFFFFF ∧ u.mem = s.mem ∧ u.worlds = s.worlds := by
  have bound : Config.freeValue s.free % 0xFFFFE < 0xFFFFE := Nat.mod_lt _ (by decide)
  refine ⟨{ s.draw with boot := 1, fabricId := 1 + Config.freeValue s.free % 0xFFFFE }, ?_, rfl, ?_, ?_, rfl, rfl⟩
  · simp [exec_bootComplete, execBootComplete, h, id]
  · exact Nat.le_add_right 1 _
  · show 1 + Config.freeValue s.free % 0xFFFFE < 0xFFFFF
    omega

/-- Settles O53, reset by reset. -/
theorem resetsAndBoot : Obligations.ResetsAndBoot := by
  refine ⟨⟨rfl, rfl, rfl, rfl, rfl, rfl, rfl, fun w c k => ⟨rfl, csns_reset⟩⟩, fun s => ⟨s.outside, rfl, rfl, rfl⟩,
    fun s => ⟨{ s.outside with boot := 3 }, rfl, rfl, rfl, rfl, rfl⟩, fun s scrub => warmReset_off,
    fun s scrub on => ⟨s.warm scrub, warmReset_on on, rfl, rfl, rfl, rfl, rfl, rfl, rfl, rfl, rfl, rfl, rfl, s.mem_warm scrub⟩,
    fun s p => ⟨partitionReset_absent, partitionReset_clears⟩,
    fun s w => ⟨functionLevelReset_physical, functionLevelReset_retries, functionLevelReset_clears⟩,
    fun s port => ⟨pcieHotReset_ignored, ?port0, ?port1⟩,
    fun s ok => ⟨bootComplete_done ok, bootComplete_failed, bootComplete_again, bootComplete_first⟩⟩
  case port0 =>
    rintro rfl on one
    exact ⟨_, s.warm false, pcieHotReset_port0 on one, warmReset_on on, rfl⟩
  case port1 =>
    rintro rfl on one saved idle reqs
    exact pcieHotReset_port1 on one saved idle reqs

end Sys2Proof.Machine
end

section
/-! PROOFS, shared by O56 and O59. What is seen of the fibres in their slots, and changes of gangs and skeins that leave it as it was. -/

namespace Sys2Proof.Machine

/-! ## Views of fibres by slot -/

/-- What a view shows of the fibre in a slot of a skein. -/
def Skein.seen {α : Type} (v : Fibre → α) (sk : Skein) (n : Nat) : Option α := (sk.fibre n).map v

/-- What it shows of the fibre in a slot of a skein of a gang. -/
def Gang.seen {α : Type} (v : Fibre → α) (g : Gang) (k n : Nat) : Option α := (g.skeins[k]?).bind fun sk => sk.seen v n

/-- What it shows of the fibre in a slot of a skein of the gang with a key. -/
def State.seen {α : Type} (v : Fibre → α) (s : State) (gk k n : Nat) : Option α := (s.fibreAt gk k n).map v

section
variable {α : Type} {v : Fibre → α}

theorem State.seen_eq (s : State) (gk k n : Nat) : s.seen v gk k n = (s.gang gk).bind fun g => g.seen v k n := by
  simp only [State.seen, State.fibreAt, State.skein, Gang.seen, Skein.seen, Option.bind_assoc, Option.map_bind, Function.comp_def]

theorem State.seen_id (s : State) (gk k n : Nat) : s.seen id gk k n = s.fibreAt gk k n := by
  rw [State.seen, Option.map_id_fun, id]

theorem Skein.seen_slots {sk sk' : Skein} (h : sk'.slots = sk.slots) : sk'.seen v = sk.seen v := by
  funext n
  rw [Skein.seen, Skein.seen, Skein.fibre, Skein.fibre, h]

theorem Skein.seen_mapFibres (sk : Skein) {f : Nat → Fibre → Fibre} (h : ∀ t x, v (f t x) = v x) : (sk.mapFibres f).seen v = sk.seen v := by
  funext n
  rw [Skein.seen, Skein.fibre_mapFibres, Option.map_map, Skein.seen]
  exact congrArg (Option.map · _) (funext (h n))

theorem Gang.seen_mapSkeins (g : Gang) {f : Skein → Skein} (h : ∀ sk, (f sk).seen v = sk.seen v) :
    ({ g with skeins := g.skeins.map f } : Gang).seen v = g.seen v := by
  funext k n
  simp only [Gang.seen, List.getElem?_map, Option.bind_map, Function.comp_def, h]

theorem Gang.seen_mapLive (g : Gang) {f : Fibre → Fibre} (h : ∀ x, v (f x) = v x) : (g.mapLive f).seen v = g.seen v :=
  g.seen_mapSkeins fun sk => sk.seen_mapFibres fun _ => h

theorem Gang.seen_modSkein (g : Gang) (k : Nat) {f : Skein → Skein} (h : ∀ sk, (f sk).seen v = sk.seen v) :
    (g.modSkein k f).seen v = g.seen v := by
  funext j n
  simp only [Gang.seen, Gang.modSkein, modifyAt_getElem?]
  split
  · simp only [Option.bind_map, Function.comp_def, h]
  · rfl

theorem findGang_map {f : Gang → Gang} (key : ∀ g, (f g).key = g.key) (k : Nat) : ∀ gs, findGang (gs.map f) k = (findGang gs k).map f
  | [] => rfl
  | g :: r => by
    simp only [List.map_cons, findGang, key, findGang_map key k r]
    split <;> rfl

theorem State.seen_gangs {s t : State} (h : t.gangs = s.gangs) : t.seen v = s.seen v := by
  funext gk k n
  rw [State.seen, State.fibreAt_gangs h, State.seen]

theorem State.seen_mapGangs {s t : State} {f : Gang → Gang} (gangs : t.gangs = s.gangs.map f) (key : ∀ g, (f g).key = g.key)
    (h : ∀ g, (f g).seen v = g.seen v) : t.seen v = s.seen v := by
  funext gk k n
  simp only [State.seen_eq, State.gang, gangs, findGang_map key, Option.bind_map, Function.comp_def, h]

theorem State.seen_modGang (s : State) (j : Nat) {f : Gang → Gang} (h : ∀ g, (f g).seen v = g.seen v) :
    (s.modGang j f).seen v = s.seen v := by
  have rekeyed (g : Gang) : ({ f g with key := j } : Gang).seen v = g.seen v := h g
  funext gk k n
  by_cases hj : gk = j
  · subst hj
    simp only [State.seen_eq, State.gang_modGang_same, Option.bind_map, Function.comp_def, rekeyed]
  · rw [State.seen_eq, State.gang_modGang_other s j gk f hj, State.seen_eq]

theorem State.seen_modSkein (s : State) (gk k : Nat) {f : Skein → Skein} (h : ∀ sk, (f sk).seen v = sk.seen v) :
    (s.modSkein gk k f).seen v = s.seen v :=
  s.seen_modGang gk fun g => g.seen_modSkein k h

end

/-! ## Ready ages (spec/12 R320) -/

/-- The growth of ready ages moves no fibre. -/
theorem State.fibreAt_tick (s : State) (gk k n : Nat) : s.tick.fibreAt gk k n = s.fibreAt gk k n := by
  have grown : s.tick.seen id = s.seen id := by
    refine State.seen_mapGangs (State.tick_gangs s) (fun g => ?_) (fun g => ?_)
    · split <;> rfl
    · split
      · rfl
      · exact g.seen_mapSkeins fun sk => Skein.seen_slots rfl
  rw [← State.seen_id, grown, State.seen_id]

/-- Nor does the issue's end of one. -/
theorem State.fibreAt_aged (s : State) (g : Gang) (j gk k n : Nat) : (s.aged g j).fibreAt gk k n = s.fibreAt gk k n := by
  have aged : (s.aged g j).seen id = s.seen id := s.seen_modSkein g.key j fun sk => by
    split
    · exact Skein.seen_slots rfl
    · rfl
  rw [← State.seen_id, aged, State.seen_id]

end Sys2Proof.Machine
end

section
/-! PROOFS, O56. The step of a skein that issues is the instruction fetched for its next batch, carried out in the state that the fetch left. -/

namespace Sys2Proof.Machine

/-! ## What a fibre fetches (spec/05 R104, spec/11 R298) -/

theorem fetchedWord_ok {w : W64} {i : Instr} (s : State) (h : decode w = .ok i) : fetchedWord w s = .instr i s := by
  rw [fetchedWord, h]

theorem fetchedWord_error {w : W64} {e : DecodeError} (s : State) (h : decode w = .error e) : fetchedWord w s = .bad w s := by
  rw [fetchedWord, h]

theorem State.fetched_guest (s : State) (g : Gang) {x : Fibre} (h : x.atGuest = true) : s.fetched g x = .guest := by
  rw [State.fetched, if_pos h]

theorem State.fetched_template (s : State) (g : Gang) {x : Fibre} {e : Expansion} {w : W64} (guest : x.atGuest = false)
    (template : x.inTemplate = true) (he : x.expansion = some e) (hw : e.words[x.iopx]? = some w) : s.fetched g x = fetchedWord w s := by
  simp [State.fetched, guest, template, he, hw]

theorem State.fetched_word {s u : State} {g : Gang} {x : Fibre} {w : W64} (guest : x.atGuest = false) (template : x.inTemplate = false)
    (h : s.fetchWord g x.pc = .ok w u) : s.fetched g x = fetchedWord w u := by
  simp [State.fetched, guest, template, h]

theorem State.fetched_fault {s u : State} {g : Gang} {x : Fibre} {c : FaultCode} {a : W64} (guest : x.atGuest = false)
    (template : x.inTemplate = false) (h : s.fetchWord g x.pc = .fault c a u) : s.fetched g x = .fault c a u := by
  simp [State.fetched, guest, template, h]

/-! ## What the step carries out (spec/02 R34, R35) -/

/-- What is carried out for what was fetched, with the batch put at issue by put; nothing while the fetch waits. -/
def Fetched.issue (put : State → State) (s : State) : Fetched → Option (Instr × State)
  | .instr i u => some (i, put u)
  | .bad w u => some (.notAnInstruction w, put u)
  | .fault c a u => some (.instructionFetchFault c a, put u)
  | .guest => some (.guestDecode, put s)
  | .wait _ => none

/-- A skein whose next batch begins with a fibre issues what that fibre fetches. -/
theorem State.issueNext_eq {s : State} {gk k : Nat} {g : Gang} {sk : Skein} {t : Nat} {r : List Nat} {x : Fibre} (gang : s.gang gk = some g)
    (skein : g.skeins[k]? = some sk) (may : s.mayIssue g sk = true) (go : s.mayGo g k sk = true) (batch : s.nextBatch g sk = t :: r)
    (fibre : sk.fibre t = some x) :
    s.issueNext gk k = (s.fetched g x).issue (fun u => { u.aged g k with issue := some ⟨gk, k, t :: r⟩ }) s := by
  simp only [State.issueNext, gang, skein, may, go, batch, fibre, Bool.not_true, Bool.or_self, Bool.false_eq_true, if_false]
  cases s.fetched g x <;> rfl

/-- The step carries out what `issueNext` names. -/
theorem step_issue {s u : State} {gk k : Nat} {i : Instr} (action : s.nextAction = some (.issue gk k))
    (h : s.tick.issueNext gk k = some (i, u)) : step s = exec i u := by
  simp only [step, action, runAction, h]

/-- Settles O56, fetch by fetch. -/
theorem stepRunsDecoded : Obligations.StepRunsDecoded := by
  intro s gk k g sk t r x action gang skein may go batch fibre at_
  have issue := State.issueNext_eq gang skein may go batch fibre
  have carries {fetched : Fetched} {i : Instr} {u : State} (h : s.tick.fetched g x = fetched)
      (hi : fetched.issue at_ s.tick = some (i, u)) : step s = exec i u := by
    refine step_issue action ?_
    rw [issue, h]
    exact hi
  have word {w : W64} {u : State} (h : s.tick.fetched g x = fetchedWord w u) :
      (∀ i, decode w = .ok i → step s = exec i (at_ u)) ∧ (∀ e, decode w = .error e → step s = exec (.notAnInstruction w) (at_ u)) :=
    ⟨fun i hi => carries (h.trans (fetchedWord_ok u hi)) rfl, fun e he => carries (h.trans (fetchedWord_error u he)) rfl⟩
  refine ⟨fun guest template w u hw => word (State.fetched_word guest template hw),
    fun guest template c a u hf => carries (State.fetched_fault guest template hf) rfl,
    fun guest template e w he hw => word (State.fetched_template s.tick g guest template he hw),
    fun guest => carries (s.tick.fetched_guest g guest) rfl,
    s.tick_ticks, s.tick_agenda, s.tick_gangs, s.fibreAt_tick, s.tick_mem, fun u => ⟨?_, ?_, ?_, u.fibreAt_aged g k⟩⟩
  · exact State.modSkein_mem ..
  · exact State.modSkein_clusters ..
  · exact State.modSkein_ctxs ..

end Sys2Proof.Machine
end

section
/-! PROOFS, O59. An issue in which every fibre goes on: the fibres as their outcomes leave them, what settles then, and all that stays as it was. -/

namespace Sys2Proof.Machine

open Sys2Proof.Says

/-! ## On to the next instruction -/

/-- A fibre without its place in the code and without its modes. -/
def Fibre.unplaced (x : Fibre) : Fibre :=
  { x with rmode := 0, fmode := 0, srseed := 0, pend := [], gpc := 0, pc := 0, iopx := 0, expansion := none }

theorem Fibre.unplaced_setMode (x : Fibre) (sel n : Nat) : (x.setMode sel n).unplaced = x.unplaced := by
  unfold Fibre.setMode
  split_ifs <;> rfl

theorem Fibre.unplaced_applyPend (x : Fibre) : x.applyPend.unplaced = x.unplaced :=
  List.foldlRecOn (motive := fun y : Fibre => y.unplaced = x.unplaced) x.pend (fun y p => y.setMode p.1 p.2) rfl
    fun y h p _ => (y.unplaced_setMode p.1 p.2).trans h

theorem Fibre.unplaced_goto (x : Fibre) (t : W64) : (x.goto t).unplaced = x.unplaced := by
  unfold Fibre.goto
  split
  · split
    · exact x.unplaced_applyPend
    · rfl
  · rfl

/-- To advance changes a fibre's place, and at a guest boundary its modes. -/
theorem Fibre.unplaced_advance (x : Fibre) : x.advance.unplaced = x.unplaced := by
  unfold Fibre.advance
  split
  · split
    · rfl
    · exact x.unplaced_goto _
  · exact x.unplaced_goto _

/-- What of a fibre no settling of its own gang touches: what `keeps` names, and its arrival at the span barrier. -/
def Fibre.keptInGang (x : Fibre) : (Nat × List W32 × List W32 × List Nat × Bool) × Bool := (keeps x, x.sbarIn)

theorem Fibre.keptInGang_advance (x : Fibre) : x.advance.keptInGang = x.keptInGang := by
  have same := congrArg Fibre.keptInGang x.unplaced_advance
  exact same

theorem Fibre.wait_advance (x : Fibre) : x.advance.wait = x.wait := by
  have same := congrArg Fibre.wait x.unplaced_advance
  exact same

theorem Fibre.keptInGang_endLong (x : Fibre) : x.endLong.keptInGang = x.keptInGang := by
  unfold Fibre.endLong
  split <;> rfl

theorem landed_wait (u : State) (g : Gang) (was y : Fibre) : (landed u g was y).wait = .none :=
  Fibre.wait_advance _

theorem landed_keptInGang (u : State) (g : Gang) (was y : Fibre) : (landed u g was y).keptInGang = y.keptInGang :=
  (Fibre.keptInGang_advance _).trans y.keptInGang_endLong

theorem Fibre.keptInGang_phaseDone (x : Fibre) (b : Nat) : (x.phaseDone b).keptInGang = x.keptInGang := by
  unfold Fibre.phaseDone
  simp only
  split
  · split
    · exact Fibre.keptInGang_advance _
    · exact Fibre.keptInGang_advance _
    · rfl
  · rfl

/-! ## Joins, barriers and the step barrier of a gang (spec/02 R38, spec/08 R220, R235) -/

theorem Skein.seen_settleJoin (sk : Skein) (pc : W64) (parked : Bool) :
    (sk.settleJoin pc parked).seen Fibre.keptInGang = sk.seen Fibre.keptInGang := by
  unfold Skein.settleJoin
  simp only
  split
  · refine sk.seen_mapFibres fun t x => ?_
    split
    · exact Fibre.keptInGang_advance _
    · rfl
  · rfl

theorem Skein.seen_settleJoins (sk : Skein) : sk.settleJoins.seen Fibre.keptInGang = sk.seen Fibre.keptInGang :=
  List.foldlRecOn (motive := fun y : Skein => y.seen Fibre.keptInGang = sk.seen Fibre.keptInGang) _ _ rfl
    fun y h j _ => (y.seen_settleJoin j.1 j.2).trans h

/-- The fibres of g keep in t, slot by slot, what no settling touches, and t has ended where g has. -/
structure Gang.SettledTo (g t : Gang) : Prop where
  seen : t.seen Fibre.keptInGang = g.seen Fibre.keptInGang
  ended : t.ended = g.ended

theorem Gang.SettledTo.trans {g t u : Gang} (a : g.SettledTo t) (b : t.SettledTo u) : g.SettledTo u :=
  ⟨b.seen.trans a.seen, b.ended.trans a.ended⟩

/-- What depends on what is kept alone is kept. -/
theorem Gang.SettledTo.seen_of {α : Type} {g t : Gang} (h : g.SettledTo t) (w : (Nat × List W32 × List W32 × List Nat × Bool) × Bool → α) :
    t.seen (fun x => w x.keptInGang) = g.seen fun x => w x.keptInGang := by
  funext k n
  have kept := congrArg (Option.map w) (congrFun (congrFun h.seen k) n)
  simpa only [Gang.seen, Skein.seen, Option.map_bind, Option.map_map, Function.comp_def] using kept

theorem Gang.SettledTo.withKey {g t : Gang} (h : g.SettledTo t) (k : Nat) : g.SettledTo { t with key := k } := ⟨h.seen, h.ended⟩

theorem Gang.settledTo_settleBarrier (b : Nat) : ∀ (fuel : Nat) (g : Gang), g.SettledTo (g.settleBarrier b fuel)
  | 0, _ => ⟨rfl, rfl⟩
  | fuel + 1, g => by
    unfold Gang.settleBarrier
    split
    · refine Gang.SettledTo.trans ?_ (Gang.settledTo_settleBarrier b fuel _)
      exact ⟨g.seen_mapLive fun x => x.keptInGang_phaseDone b, rfl⟩
    · exact ⟨rfl, rfl⟩

theorem Gang.settledTo_settleBarriers (g : Gang) : g.SettledTo g.settleBarriers :=
  List.foldlRecOn (motive := g.SettledTo) _ _ ⟨rfl, rfl⟩ fun t h b _ => h.trans (Gang.settledTo_settleBarrier b 3 t)

theorem Gang.settledTo_settleStep (g : Gang) : g.SettledTo g.settleStep := by
  unfold Gang.settleStep
  split
  · exact ⟨g.seen_mapLive fun _ => rfl, rfl⟩
  · exact ⟨rfl, rfl⟩

/-- A gang whose joins, barriers and step barrier have been looked at. -/
def Gang.settleOwn (g : Gang) : Gang := ({ g with skeins := g.skeins.map Skein.settleJoins } : Gang).settleBarriers.settleStep

theorem Gang.settledTo_settleOwn (g : Gang) : g.SettledTo g.settleOwn :=
  have joins : g.SettledTo { g with skeins := g.skeins.map Skein.settleJoins } := ⟨g.seen_mapSkeins Skein.seen_settleJoins, rfl⟩
  (joins.trans (Gang.settledTo_settleBarriers _)).trans (Gang.settledTo_settleStep _)

/-! ## The span barrier (spec/08 R221) -/

theorem State.seen_settleSpan (s : State) (g : Gang) : (s.settleSpan g).seen keeps = s.seen keeps := by
  unfold State.settleSpan
  simp only
  split
  · refine (foldl_keeps (State.seen keeps) (fun s (h : Gang) => ?_) _ _).trans (State.seen_gangs
      ((beside_ordMeet ..).trans (beside_foldl _ (fun s (h : Gang) => beside_acquireCaches s h.via 3) _ _)).gangs)
    refine s.seen_modGang h.key fun y => y.seen_mapLive fun x => ?_
    split
    · exact congrArg Prod.fst (Fibre.keptInGang_advance _)
    · rfl
  · rfl

/-- A span one of whose fibres has not arrived waits on. -/
theorem State.settleSpan_of_missing {s : State} {g : Gang} (mem : g ∈ s.gangs) (ended : g.ended = false)
    (missing : ∃ x ∈ g.live, x.sbarIn = false) : s.settleSpan g = s := by
  obtain ⟨x, live, out⟩ := missing
  have inSpan (kind : g.kind ≠ .handle) : x ∈ (s.spanGangs g).flatMap Gang.live :=
    List.mem_flatMap.2 ⟨g, List.mem_filter.2 ⟨mem, by simp [kind, ended]⟩, live⟩
  unfold State.settleSpan
  simp only
  refine if_neg fun complete => ?_
  simp only [Bool.and_eq_true, bne_iff_ne, List.all_eq_true] at complete
  obtain ⟨⟨kind, -⟩, all⟩ := complete
  rw [all x (inSpan kind)] at out
  cases out

/-! ## Gangs, cores and grids alone -/

/-- t is s but for gangs, cores and grids. -/
def Aside (s t : State) : Prop := ∃ gs cs rs, t = { s with gangs := gs, cores := cs, grids := rs }

theorem Aside.refl (s : State) : Aside s s := ⟨s.gangs, s.cores, s.grids, rfl⟩

theorem Aside.trans {s t u : State} (a : Aside s t) (b : Aside t u) : Aside s u := by
  obtain ⟨_, _, _, rfl⟩ := a
  obtain ⟨gs, cs, rs, rfl⟩ := b
  exact ⟨gs, cs, rs, rfl⟩

theorem Aside.part {s t : State} (h : Aside s t) (p : Nat) : t.part p = s.part p := by
  obtain ⟨_, _, _, rfl⟩ := h
  rfl

theorem Aside.cluster {s t : State} (h : Aside s t) (c : Nat) : t.cluster c = s.cluster c := by
  obtain ⟨_, _, _, rfl⟩ := h
  rfl

theorem aside_modGang (s : State) (k : Nat) (f : Gang → Gang) : Aside s (s.modGang k f) := by
  unfold State.modGang
  split
  · exact ⟨_, _, _, rfl⟩
  · exact .refl s

theorem aside_clearTried (s : State) : Aside s s.clearTried := ⟨_, _, _, rfl⟩

theorem aside_countIssue (s : State) (b : Batch) (passed faulted : Nat) : Aside s (s.countIssue b passed faulted) := ⟨_, _, _, rfl⟩

/-! ### Traces that nobody owns (spec/15 R381) -/

theorem traceBatch_free {s : State} {g : Gang} (h : (s.cluster g.cluster).trace.owner = 0) (k kind : Nat) (x : Fibre) (m : Mask) (d : W64) :
    s.traceBatch g k kind x m d = s := trace_free s _ _ _ h

theorem traceFlow_free {s : State} {b : Batch} (h : (s.cluster b.g.cluster).trace.owner = 0) (every : List (Nat × Out)) :
    s.traceFlow b every = s := by
  unfold State.traceFlow
  split
  · rfl
  · simp only
    split
    · split
      · split
        · exact traceBatch_free h ..
        · rfl
      · split
        · rw [traceBatch_free h, traceBatch_free h]
        · exact traceBatch_free h ..
    · split
      · exact traceBatch_free h ..
      · rfl

theorem traceJoins_free {s : State} {key : Nat} {g : Gang} (gang : s.gang key = some g) (h : (s.cluster g.cluster).trace.owner = 0) :
    s.traceJoins key = s := by
  have stays {β : Type} (f : State → β → State) (hf : ∀ a, f s a = s) (l : List β) : l.foldl f s = s :=
    List.foldlRecOn (motive := fun t => t = s) l f rfl fun t ht a _ => ht ▸ hf a
  simp only [State.traceJoins, gang]
  refine stays _ (fun k => ?_) _
  split
  · rfl
  · exact stays _ (fun p => traceBatch_free h ..) _

/-! ### Step boundaries without the step trigger (spec/13 R347) -/

theorem aside_settleGridStep {s : State} (off : ∀ p, bitOf (s.part p).ckptcfg.toNat 63 = false) (grid : Nat) :
    Aside s (s.settleGridStep grid) := by
  have counted (f : Grid → Grid) : Aside s (s.modGrid grid f) := ⟨_, _, _, rfl⟩
  have part (f : Grid → Grid) (p : Nat) : (s.modGrid grid f).part p = s.part p := rfl
  unfold State.settleGridStep
  simp only
  split
  · exact .refl s
  · split
    · unfold State.stepBoundary
      simp only [part, off, Bool.false_and, Bool.false_eq_true, if_false]
      exact counted _
    · exact counted _

/-! ## What settles after an issue -/

/-- While some fibre of a gang waits for nothing, the gang neither ends nor asks to migrate: its joins and barriers settle, its span's barrier
and its grid's step count. -/
theorem settleGang_of_holds {s : State} {gk k t : Nat} {z : Fibre} (h : s.Holds gk k t z) (hz : z.wait = .none) :
    ∃ g, ((s.traceJoins gk).modGang gk Gang.settleOwn).gang gk = some g ∧
      s.settleGang gk = (((s.traceJoins gk).modGang gk Gang.settleOwn).settleSpan g).settleGridStep g.grid := by
  have joined : (s.traceJoins gk).Holds gk k t z := h.of_gangs (gangs_traceJoins s gk)
  have own : ((s.traceJoins gk).modGang gk Gang.settleOwn).Holds gk k t z := joined.modGang gk _ fun g hg =>
    ((hg.mapSkeins _ fun sk hs => hs.settleJoins hz).settleBarriers hz).settleStep
  have unfolded : s.settleGang gk = match ((s.traceJoins gk).modGang gk Gang.settleOwn).gang gk with
    | none => (s.traceJoins gk).modGang gk Gang.settleOwn
    | some g =>
      let u := (((s.traceJoins gk).modGang gk Gang.settleOwn).settleSpan g).settleGridStep g.grid
      if g.ended then u
      else if g.anyLive then u.resolveMigrate gk
      else if g.kind = .handle then u.endRoutine gk
      else if u.poolCount g = 0 then u.endGang gk
      else u := rfl
  generalize (s.traceJoins gk).modGang gk Gang.settleOwn = s1 at own unfolded ⊢
  obtain ⟨g, gang, stands⟩ := id own
  have spanned : ((s1.settleSpan g).settleGridStep g.grid).Holds gk k t z := (own.settleSpan hz g).of_gangs (gangs_settleGridStep ..)
  refine ⟨g, gang, ?_⟩
  rw [unfolded, gang]
  simp only [stands.anyLive, if_true, resolveMigrate_of_holds spanned hz, ite_self]

/-- No fibre's registers change then. -/
theorem seen_settleGang {s : State} {gk k t : Nat} {z : Fibre} (h : s.Holds gk k t z) (hz : z.wait = .none) :
    (s.settleGang gk).seen keeps = s.seen keeps := by
  obtain ⟨g, -, settled⟩ := settleGang_of_holds h hz
  have own (g : Gang) : g.settleOwn.seen keeps = g.seen keeps := g.settledTo_settleOwn.seen_of Prod.fst
  calc (s.settleGang gk).seen keeps
      = (((s.traceJoins gk).modGang gk Gang.settleOwn).settleSpan g).seen keeps := by rw [settled, State.seen_gangs (gangs_settleGridStep ..)]
    _ = ((s.traceJoins gk).modGang gk Gang.settleOwn).seen keeps := State.seen_settleSpan ..
    _ = (s.traceJoins gk).seen keeps := State.seen_modGang _ gk own
    _ = s.seen keeps := State.seen_gangs (gangs_traceJoins ..)

/-- Nor does anything but gangs, cores and grids, where a fibre of the gang is missing at the span barrier, and traces and the step trigger
are off. -/
theorem aside_settleGang {s : State} {gk k t : Nat} {z : Fibre} {g : Gang} (h : s.Holds gk k t z) (hz : z.wait = .none)
    (gang : s.gang gk = some g) (ended : g.ended = false) (missing : s.seen Fibre.sbarIn gk k t = some false)
    (trace : (s.cluster g.cluster).trace.owner = 0) (off : ∀ p, bitOf (s.part p).ckptcfg.toNat 63 = false) : Aside s (s.settleGang gk) := by
  obtain ⟨g1, gang1, settled⟩ := settleGang_of_holds h hz
  rw [traceJoins_free gang trace] at gang1 settled
  have own : g.SettledTo g1 := by
    have same : some { g.settleOwn with key := gk } = some g1 := by
      rw [← gang1, State.gang_modGang_same, gang]
      rfl
    rw [← Option.some.inj same]
    exact g.settledTo_settleOwn.withKey gk
  have missing_still : ∃ y ∈ g1.live, y.sbarIn = false := by
    have out : g1.seen Fibre.sbarIn k t = some false := by
      rw [← missing, s.seen_eq, gang]
      exact congrFun (congrFun (own.seen_of Prod.snd) k) t
    simp only [Gang.seen, Skein.seen, Option.bind_eq_some_iff, Option.map_eq_some_iff] at out
    obtain ⟨sk, skein, y, fibre, out⟩ := out
    exact ⟨y, List.mem_flatMap.2 ⟨sk, List.mem_of_getElem? skein, List.mem_map.2 ⟨(t, y), (sk.mem_live t y).2 fibre, rfl⟩⟩, out⟩
  have asideOwn := aside_modGang s gk Gang.settleOwn
  rw [settled, State.settleSpan_of_missing (mem_of_findGang gang1) (own.ended.trans ended) missing_still]
  exact asideOwn.trans (aside_settleGridStep (fun p => by rw [asideOwn.part]; exact off p) _)

/-! ## The batch's outcomes in its slots -/

theorem batch_all {s : State} {b : Batch} {r : List Nat} (h : s.batch = some (b, r)) :
    b.all ≠ [] ∧ (b.all.map (·.1)).Nodup ∧ ∀ p ∈ b.all, b.sk.fibre p.1 = some p.2 := by
  unfold State.batch at h
  split at h
  · cases h
  split at h
  · cases h
  split at h
  · cases h
  rename_i sk _
  simp only at h
  split at h
  · cases h
  rename_i filled
  cases h
  refine ⟨by simpa using filled, sk.live_nodup.sublist (List.filter_sublist.map _), fun p hp => ?_⟩
  exact (sk.mem_live p.1 p.2).1 (List.mem_filter.1 hp).1

/-- Every fibre of the batch with its outcome: those without one of their own go on as they are (spec/06 R145). -/
def Batch.every (b : Batch) (outs : List (Nat × Out)) : List (Nat × Out) :=
  outs ++ (b.all.filter fun p => !outs.any fun o => o.1 == p.1).map fun p => (p.1, Out.next p.2)

/-- A ready fibre outside the batch is passed over once more (spec/02 R35). -/
def Batch.passOver (b : Batch) (ready : List Nat) (t : Nat) (x : Fibre) : Fibre :=
  if ready.contains t && !b.waited && !b.all.any (fun p => p.1 == t) then { x with pass := x.pass + 1 } else x

/-- What an outcome leaves in the slot in which old stood: a fibre that faults stands where it stood. -/
def State.leaves (s : State) (g : Gang) (o : Out) (old : Option Fibre) : Option Fibre :=
  let mark (x : Fibre) : Fibre := { s.passPoint g x with pass := 0, tried := false, waive := false, redo := none }
  match o with
  | .fault _ _ => old.map mark
  | .trap _ => old.map mark
  | r => old.bind fun was => r.after.map fun x =>
      { x with pass := 0, tried := false, waive := false, eqid := (s.passPoint g was).eqid, redo := was.redoOf x }

/-- Slots rewritten one after the other. -/
def Skein.rewrite (sk : Skein) (f : Out → Option Fibre → Option Fibre) (outs : List (Nat × Out)) : Skein :=
  outs.foldl (fun y o => { y with slots := modifyAt y.slots o.1 (f o.2) }) sk

/-- The batch's outcomes in its skein. -/
def State.landing (s : State) (b : Batch) (ready : List Nat) (outs : List (Nat × Out)) : State :=
  s.modSkein b.g.key b.k fun sk => (({ sk with issued := true } : Skein).mapFibres (b.passOver ready)).rewrite (s.leaves b.g) (b.every outs)

/-- The issue looked at by counters and traces, nothing being marked as tried any more. -/
def State.report (s : State) (b : Batch) (outs : List (Nat × Out)) (faulted : Nat) : State :=
  (if b.waited then s.clearTried else s.clearTried.countIssue b outs.length faulted).traceFlow b (b.every outs)

/-- The rest of an issue whose outcomes have landed: it is reported, faults are taken, what ended is reported, and the gang settles. -/
def State.conclude (s : State) (b : Batch) (outs : List (Nat × Out)) : State :=
  let raised := outs.filterMap fun o => o.2.raised o.1
  let s3 := (s.report b outs raised.length).takeFaults b.g.key b.k b.amask raised
  let ended := b.all.filter fun p => (b.every outs).any fun o => o.1 == p.1 && o.2.isGone
  (s3.reportUnconsumed b.g b.k ((s3.skein b.g.key b.k).getD b.sk) (ended.map fun p => p.2.uid)).settleGang b.g.key

theorem State.finish_eq (s : State) (b : Batch) (ready : List Nat) (outs : List (Nat × Out)) :
    s.finish b ready outs = (s.landing b ready outs).conclude b outs := by
  refine congrArg (fun l : State => l.conclude b outs) (congrArg (s.modSkein b.g.key b.k) (funext fun sk => ?_))
  refine congrArg (fun f => List.foldl f _ (b.every outs)) (funext fun y => funext fun o => ?_)
  obtain ⟨t, o⟩ := o
  cases o <;> rfl

theorem raised_of_all_next {outs : List (Nat × Out)} (h : ∀ o ∈ outs, ∃ y, o.2 = .next y) : outs.filterMap (fun o => o.2.raised o.1) = [] := by
  refine List.filterMap_eq_nil_iff.2 fun o ho => ?_
  obtain ⟨y, hy⟩ := h o ho
  rw [hy]
  rfl

theorem reportUnconsumed_nil (s : State) (g : Gang) (k : Nat) (sk : Skein) : s.reportUnconsumed g k sk [] = s := by
  have none_failed : (sk.record.flatMap fun _ : Entry => ([] : List (Entry × SlotOp × FaultCode))) = [] :=
    List.flatMap_eq_nil_iff.2 fun _ _ => rfl
  simp [State.reportUnconsumed, none_failed]

theorem takeFaults_nil (s : State) (gk k : Nat) (am : Mask) : s.takeFaults gk k am [] = s := rfl

/-- An issue in which every fibre goes on ends with no fault to take and no fibre to report. -/
theorem State.finish_next {s : State} {b : Batch} {ready : List Nat} {outs : List (Nat × Out)} (h : ∀ o ∈ outs, ∃ y, o.2 = .next y) :
    s.finish b ready outs = ((s.landing b ready outs).report b outs 0).settleGang b.g.key := by
  have none_gone : (b.all.filter fun p => (b.every outs).any fun o => o.1 == p.1 && o.2.isGone) = [] := by
    refine List.filter_eq_nil_iff.2 fun p _ gone => ?_
    obtain ⟨o, ho, same⟩ := List.any_eq_true.1 gone
    have goes : ∃ y, o.2 = .next y := by
      rcases List.mem_append.1 ho with ho | ho
      · exact h o ho
      · obtain ⟨q, -, rfl⟩ := List.mem_map.1 ho
        exact ⟨q.2, rfl⟩
    obtain ⟨y, hy⟩ := goes
    simp [hy, Out.isGone] at same
  simp only [State.finish_eq, State.conclude, none_gone, raised_of_all_next h, List.map_nil, List.length_nil, takeFaults_nil, reportUnconsumed_nil]

/-! ### Slots rewritten -/

theorem Skein.fibre_rewriteOne (sk : Skein) {f : Option Fibre → Option Fibre} (empty : f none = none) (t n : Nat) :
    ({ sk with slots := modifyAt sk.slots t f } : Skein).fibre n = if n = t then f (sk.fibre n) else sk.fibre n := by
  simp only [Skein.fibre, modifyAt_getElem?]
  split
  · cases sk.slots[n]? with
    | none => exact empty.symm
    | some x => rfl
  · rfl

theorem Skein.fibre_rewrite_other {f : Out → Option Fibre → Option Fibre} (empty : ∀ o, f o none = none) {n : Nat} :
    ∀ {outs : List (Nat × Out)} (sk : Skein), n ∉ outs.map (·.1) → (sk.rewrite f outs).fibre n = sk.fibre n
  | [], _, _ => rfl
  | o :: r, sk, out => by
    simp only [List.map_cons, List.mem_cons, not_or] at out
    obtain ⟨here, rest⟩ := out
    exact (Skein.fibre_rewrite_other empty _ rest).trans ((sk.fibre_rewriteOne (empty o.2) o.1 n).trans (if_neg here))

theorem Skein.fibre_rewrite_mem {f : Out → Option Fibre → Option Fibre} (empty : ∀ o, f o none = none) {n : Nat} {a : Out} :
    ∀ {outs : List (Nat × Out)} (sk : Skein), (outs.map (·.1)).Nodup → (n, a) ∈ outs → (sk.rewrite f outs).fibre n = f a (sk.fibre n)
  | o :: r, sk, once, mem => by
    simp only [List.map_cons, List.nodup_cons] at once
    obtain ⟨here, rest⟩ := once
    have first := sk.fibre_rewriteOne (empty o.2) o.1 n
    rcases List.mem_cons.1 mem with rfl | mem
    · exact (Skein.fibre_rewrite_other empty _ here).trans (first.trans (if_pos rfl))
    · have other : n ≠ o.1 := fun same => here (same ▸ List.mem_map_of_mem mem)
      exact (Skein.fibre_rewrite_mem empty _ rest mem).trans (congrArg (f a) (first.trans (if_neg other)))

theorem State.leaves_none (s : State) (g : Gang) (o : Out) : s.leaves g o none = none := by
  cases o <;> rfl

theorem State.leaves_next (s : State) (g : Gang) (was y : Fibre) : s.leaves g (.next y) (some was) = some (landed s g was y) := rfl

/-! ### The batch in which every fibre goes on -/

/-- What becomes of a fibre of the batch: as f says where its guard passes, else what it was. -/
def goesOn (i : Instr) (f : Nat → Fibre → Fibre) (p : Nat × Fibre) : Fibre :=
  if (needOf i).h.g.passes p.2.pw then f p.1 p.2 else p.2

theorem goesOn_passing {b : Batch} {i : Instr} {f : Nat → Fibre → Fibre} {p : Nat × Fibre} (h : p ∈ b.passing i) :
    goesOn i f p = f p.1 p.2 := if_pos (List.mem_filter.1 h).2

theorem goesOn_off {b : Batch} {i : Instr} {f : Nat → Fibre → Fibre} {p : Nat × Fibre} (mem : p ∈ b.all) (h : p ∉ b.passing i) :
    goesOn i f p = p.2 := if_neg fun pass => h (List.mem_filter.2 ⟨mem, pass⟩)

theorem eachNext_next {b : Batch} {i : Instr} {f : Nat → Fibre → Fibre} : ∀ o ∈ b.eachNext i f, ∃ y, o.2 = .next y := by
  intro o ho
  obtain ⟨p, -, rfl⟩ := List.mem_map.1 ho
  exact ⟨_, rfl⟩

/-- Each fibre of the batch has one outcome: it goes on. -/
theorem Batch.every_eachNext {b : Batch} (once : (b.all.map (·.1)).Nodup) (i : Instr) (f : Nat → Fibre → Fibre) :
    (b.every (b.eachNext i f)).Perm (b.all.map fun p => (p.1, .next (goesOn i f p))) := by
  have named : ∀ p ∈ b.all, (!(b.eachNext i f).any fun o => o.1 == p.1) = !(needOf i).h.g.passes p.2.pw := by
    intro p hp
    refine congrArg not (Bool.eq_iff_iff.2 ⟨fun h => ?_, fun h => ?_⟩)
    · obtain ⟨o, ho, same⟩ := List.any_eq_true.1 h
      obtain ⟨q, hq, rfl⟩ := List.mem_map.1 ho
      obtain ⟨mem, passes⟩ := List.mem_filter.1 hq
      rwa [← List.inj_on_of_nodup_map once mem hp (beq_iff_eq.1 same)]
    · exact List.any_eq_true.2 ⟨(p.1, .next (f p.1 p.2)), List.mem_map.2 ⟨p, List.mem_filter.2 ⟨hp, h⟩, rfl⟩, beq_self_eq_true _⟩
  have split : b.every (b.eachNext i f) = ((b.passing i) ++ b.all.filter fun p => !(needOf i).h.g.passes p.2.pw).map
      fun p => (p.1, .next (goesOn i f p)) := by
    rw [Batch.every, List.filter_congr named, List.map_append]
    refine congrArg₂ _ (List.map_congr_left fun p hp => ?_) (List.map_congr_left fun p hp => ?_)
    · rw [goesOn_passing hp]
    · obtain ⟨mem, off⟩ := List.mem_filter.1 hp
      rw [goesOn_off mem fun on => by simp [(List.mem_filter.1 on).2] at off]
  rw [split]
  exact (List.filter_append_perm _ b.all).map _

section
variable {s u : State} {b : Batch} {ready : List Nat} {i : Instr} {f : Nat → Fibre → Fibre}

theorem Batch.slots_every (once : (b.all.map (·.1)).Nodup) : ((b.every (b.eachNext i f)).map (·.1)).Perm (b.all.map (·.1)) := by
  have slots := (Batch.every_eachNext once i f).map (·.1)
  rwa [List.map_map] at slots

theorem landing_skein (hb : s.batch = some (b, ready)) (hu : u.gangs = s.gangs) (outs : List (Nat × Out)) (n : Nat) :
    (u.landing b ready outs).fibreAt b.g.key b.k n =
      ((({ b.sk with issued := true } : Skein).mapFibres (b.passOver ready)).rewrite (u.leaves b.g) (b.every outs)).fibre n := by
  obtain ⟨gang, skein⟩ := batch_gang hb
  have at_ : u.skein b.g.key b.k = some b.sk := by
    rw [State.skein, State.gang, hu]
    exact (congrArg (Option.bind · _) gang).trans skein
  rw [State.landing, State.fibreAt_modSkein_same, at_]
  rfl

/-- Each fibre of the batch stands at its next instruction. -/
theorem landing_batch (hb : s.batch = some (b, ready)) (hu : u.gangs = s.gangs) {p : Nat × Fibre} (hp : p ∈ b.all) :
    (u.landing b ready (b.eachNext i f)).fibreAt b.g.key b.k p.1 = some (landed u b.g p.2 (goesOn i f p)) := by
  obtain ⟨-, once, stood⟩ := batch_all hb
  have mem : (p.1, Out.next (goesOn i f p)) ∈ b.every (b.eachNext i f) :=
    (Batch.every_eachNext once i f).mem_iff.2 (List.mem_map.2 ⟨p, hp, rfl⟩)
  have kept : b.passOver ready p.1 p.2 = p.2 := if_neg fun h => by
    have named : (b.all.any fun q => q.1 == p.1) = true := List.any_eq_true.2 ⟨p, hp, beq_self_eq_true _⟩
    simp [named] at h
  have before : (({ b.sk with issued := true } : Skein).mapFibres (b.passOver ready)).fibre p.1 = some p.2 := by
    rw [Skein.fibre_mapFibres]
    exact (congrArg (Option.map _) (stood p hp)).trans (congrArg some kept)
  rw [landing_skein hb hu, Skein.fibre_rewrite_mem (u.leaves_none b.g) _ ((Batch.slots_every once).nodup_iff.2 once) mem, before,
    State.leaves_next]

/-- The fibres outside the batch keep their registers. -/
theorem landing_others (hb : s.batch = some (b, ready)) (hu : u.gangs = s.gangs) {g k n : Nat}
    (out : g ≠ b.g.key ∨ k ≠ b.k ∨ n ∉ b.all.map (·.1)) :
    ((u.landing b ready (b.eachNext i f)).fibreAt g k n).map keeps = (s.fibreAt g k n).map keeps := by
  rw [← State.fibreAt_gangs hu]
  by_cases here : g = b.g.key ∧ k = b.k
  · obtain ⟨rfl, rfl⟩ := here
    obtain ⟨-, once, -⟩ := batch_all hb
    have slot : n ∉ (b.every (b.eachNext i f)).map (·.1) := by
      rw [(Batch.slots_every once).mem_iff]
      simpa using out
    obtain ⟨gang, skein⟩ := batch_gang hb
    have stood : u.fibreAt b.g.key b.k n = b.sk.fibre n := by
      rw [State.fibreAt_gangs hu, State.fibreAt, State.skein, gang, Option.bind_some, skein, Option.bind_some]
    have passed (t : Nat) (x : Fibre) : keeps (b.passOver ready t x) = keeps x := by
      unfold Batch.passOver
      split <;> rfl
    rw [landing_skein hb hu, Skein.fibre_rewrite_other (u.leaves_none b.g) _ slot, stood]
    exact congrFun (Skein.seen_mapFibres { b.sk with issued := true } passed) n
  · rw [State.landing, State.fibreAt_modSkein_other _ _ _ _ _ _ _ (Decidable.not_and_iff_or_not.1 here)]

theorem landing_gang (hb : s.batch = some (b, ready)) (hu : u.gangs = s.gangs) (outs : List (Nat × Out)) :
    ∃ g, (u.landing b ready outs).gang b.g.key = some g ∧ g.cluster = b.g.cluster ∧ g.ended = b.g.ended := by
  obtain ⟨gang, -⟩ := batch_gang hb
  have at_ : u.gang b.g.key = some b.g := by rw [State.gang, hu, ← gang, State.gang]
  rw [State.landing, State.modSkein, State.gang_modGang_same, at_]
  exact ⟨_, rfl, rfl, rfl⟩

end

/-! ### The issue reported -/

/-- A gang none of whose fibres is marked as tried. -/
def Gang.untried (g : Gang) : Gang := g.mapLive fun x => if x.tried then { x with tried := false } else x

theorem report_gangs (s : State) (b : Batch) (outs : List (Nat × Out)) (n : Nat) : (s.report b outs n).gangs = s.gangs.map Gang.untried := by
  refine (gangs_traceFlow ..).trans ?_
  split <;> rfl

theorem seen_report {α : Type} {v : Fibre → α} (blind : ∀ x : Fibre, v { x with tried := false } = v x) (s : State) (b : Batch)
    (outs : List (Nat × Out)) (n : Nat) : (s.report b outs n).seen v = s.seen v := by
  refine State.seen_mapGangs (report_gangs ..) (fun _ => rfl) fun g => g.seen_mapLive fun x => ?_
  split
  · exact blind x
  · rfl

theorem report_gang {s : State} {k : Nat} {g : Gang} (h : s.gang k = some g) (b : Batch) (outs : List (Nat × Out)) (n : Nat) :
    (s.report b outs n).gang k = some g.untried := by
  rw [State.gang] at h
  rw [State.gang, report_gangs, findGang_map (f := Gang.untried) (fun _ => rfl), h, Option.map_some]

theorem aside_report {s : State} {b : Batch} (trace : (s.cluster b.g.cluster).trace.owner = 0) (outs : List (Nat × Out)) (n : Nat) :
    Aside s (s.report b outs n) := by
  have counted : Aside s (if b.waited then s.clearTried else s.clearTried.countIssue b outs.length n) := by
    split
    · exact aside_clearTried s
    · exact (aside_clearTried s).trans (aside_countIssue ..)
  rw [State.report, traceFlow_free (by rw [counted.cluster]; exact trace)]
  exact counted

/-- A fibre that is not marked as tried stands as it was. -/
theorem holds_report {s : State} {gk k t : Nat} {z : Fibre} (at_ : s.fibreAt gk k t = some z) (hz : z.tried = false) (b : Batch)
    (outs : List (Nat × Out)) (n : Nat) : (s.report b outs n).Holds gk k t z := by
  simp only [State.fibreAt, State.skein, Option.bind_eq_some_iff] at at_
  obtain ⟨sk, ⟨g, gang, skein⟩, fibre⟩ := at_
  have stood : g.Holds k t z := ⟨sk, skein, z, fibre, rfl⟩
  refine ⟨_, report_gang gang b outs n, stood.mapLive _ fun x hx => ?_⟩
  have marked : x.tried = z.tried := by
    have same := congrArg Fibre.tried hx
    exact same
  simp only [marked, hz, Bool.false_eq_true, if_false, hx]

theorem State.Holds.still {s : State} {gk k t : Nat} {z : Fibre} (h : s.Holds gk k t z) :
    (s.fibreAt gk k t).map still = some (still z) := by
  obtain ⟨g, gang, sk, skein, y, fibre, same⟩ := h
  rw [State.fibreAt, State.skein, gang, Option.bind_some, skein, Option.bind_some, fibre]
  exact congrArg some same

/-! ## How an issue ends in which every fibre goes on -/

section
variable {s u : State} {b : Batch} {ready : List Nat} {i : Instr} {f : Nat → Fibre → Fibre}

/-- A fibre of the batch stands as it landed when the issue has been reported. -/
theorem landed_holds (hb : s.batch = some (b, ready)) (hu : u.gangs = s.gangs) {p : Nat × Fibre} (hp : p ∈ b.all) :
    ((u.landing b ready (b.eachNext i f)).report b (b.eachNext i f) 0).Holds b.g.key b.k p.1 (landed u b.g p.2 (goesOn i f p)) :=
  holds_report (landing_batch hb hu hp) rfl ..

/-- And when the gang has settled. -/
theorem finish_batch (hb : s.batch = some (b, ready)) (hu : u.gangs = s.gangs) {p : Nat × Fibre} (hp : p ∈ b.all) :
    ((u.finish b ready (b.eachNext i f)).fibreAt b.g.key b.k p.1).map still = some (still (landed u b.g p.2 (goesOn i f p))) := by
  have settled := (landed_holds (i := i) (f := f) hb hu hp).settleGang (landed_wait ..)
  rw [State.finish_next eachNext_next]
  exact settled.still

theorem finish_others (hb : s.batch = some (b, ready)) (hu : u.gangs = s.gangs) {g k n : Nat}
    (out : g ≠ b.g.key ∨ k ≠ b.k ∨ n ∉ b.all.map (·.1)) :
    ((u.finish b ready (b.eachNext i f)).fibreAt g k n).map keeps = (s.fibreAt g k n).map keeps := by
  obtain ⟨filled, -, -⟩ := batch_all hb
  obtain ⟨p, hp⟩ := List.exists_mem_of_ne_nil _ filled
  have seen : (u.finish b ready (b.eachNext i f)).seen keeps = (u.landing b ready (b.eachNext i f)).seen keeps := by
    rw [State.finish_next eachNext_next, seen_settleGang (landed_holds hb hu hp) (landed_wait ..), seen_report fun _ => rfl]
  exact (congrFun (congrFun (congrFun seen g) k) n).trans (landing_others hb hu out)

/-- Where a fibre of the batch is missing at the span barrier, and traces and the step trigger are off, nothing changes but gangs, cores
and grids. -/
theorem aside_finish (hb : s.batch = some (b, ready)) (hu : u.gangs = s.gangs) (open_ : b.g.ended = false) {p : Nat × Fibre} (hp : p ∈ b.all)
    (missing : (goesOn i f p).sbarIn = false) (trace : (u.cluster b.g.cluster).trace.owner = 0)
    (off : ∀ p, bitOf (u.part p).ckptcfg.toNat 63 = false) : Aside u (u.finish b ready (b.eachNext i f)) := by
  obtain ⟨g, gang, cluster, ended⟩ := landing_gang hb hu (b.eachNext i f)
  have landing : Aside u (u.landing b ready (b.eachNext i f)) := aside_modGang ..
  have reported := landing.trans (aside_report (by rw [landing.cluster]; exact trace) (b.eachNext i f) 0)
  have out : (u.landing b ready (b.eachNext i f)).seen Fibre.sbarIn b.g.key b.k p.1 = some false := by
    have kept := congrArg Prod.snd (landed_keptInGang u b.g p.2 (goesOn i f p))
    rw [State.seen, landing_batch hb hu hp, ← missing]
    exact congrArg some kept
  rw [State.finish_next eachNext_next]
  refine reported.trans (aside_settleGang (landed_holds hb hu hp) (landed_wait ..) (report_gang gang ..) (ended.trans open_) ?_ ?_ ?_)
  · rw [seen_report fun _ => rfl]
    exact out
  · rw [reported.cluster]
    exact (congrArg (fun c => (u.cluster c).trace.owner) cluster).trans trace
  · exact fun p => by rw [reported.part]; exact off p

end

/-- Settles O59: the outcomes land in the batch's slots, and what settles then moves only fibres that wait. -/
theorem finishLands : Obligations.FinishLands := by
  intro s u b ready i f hb hu open_ t
  refine ⟨fun p hp => ?_, fun p hp off => ?_, fun g k n out => finish_others hb hu out, fun ⟨p, hp, was, is⟩ trace off => ?_⟩
  · have stands := finish_batch (i := i) (f := f) hb hu (List.mem_filter.1 hp).1
    rwa [goesOn_passing hp] at stands
  · have stands := finish_batch (i := i) (f := f) hb hu hp
    rwa [goesOn_off hp off] at stands
  · have missing : (goesOn i f p).sbarIn = false := by
      unfold goesOn
      split
      · exact is
      · exact was
    obtain ⟨_, _, _, same⟩ := aside_finish hb hu open_ hp missing trace off
    have t_eq : t = _ := same
    rw [t_eq]
    exact ⟨rfl, rfl, rfl, rfl, rfl, rfl, rfl, rfl, rfl, rfl⟩

end Sys2Proof.Machine
end

section
/-! PROOFS, O28 and O29. What GETS reads of each state register, and what SETS writes. -/

namespace Sys2Proof.Machine

open Sys2Proof.Says

/-! ## Reading (spec/03 R67, R71, spec/08 R230) -/

/-- Registers that a state register takes. -/
def selectorRegs (sel : Nat) : Nat := if selector64 sel then 2 else 1

/-- Outside deterministic mode a value read at issue goes past the replay log (spec/15 R387). -/
theorem State.throughLog_off {s : State} {gk : Nat} {g : Gang} (gang : s.gang gk = some g) (det : g.det = false)
    (k slot : Nat) (x : Fibre) (kind n v : Nat) : s.throughLog gk k slot x kind n v = some (v, x, s) := by
  have off : s.logged gk k slot x kind n v = .off := by simp [State.logged, gang, det]
  rw [State.throughLog, off]

/-- Fibres that leave the state alone answer one by one. -/
theorem State.inOrder_const {s : State} {f : State → Nat → Fibre → Out × State} {out : Nat → Fibre → Out}
    (h : ∀ t x, f s t x = (out t x, s)) : ∀ l : List (Nat × Fibre), s.inOrder f l = (l.map fun p => (p.1, out p.1 p.2), s)
  | [] => rfl
  | (t, x) :: r => by
    rw [State.inOrder, h t x]
    simp only [State.inOrder_const h r, List.map_cons]

theorem Ready.atIssue_gang {s : State} {i : Instr} {b : Batch} {ready : List Nat} (h : Ready s i b ready) :
    s.atIssue.gang b.g.key = some b.g := (batch_gang h.batch).1

theorem gets_reads {s : State} {f : SF} {b : Batch} {ready : List Nat} (h : Ready s (.gets f) b ready) (det : b.g.det = false) :
    exec (.gets f) s = .next (s.atIssue.finish b ready (b.eachNext (.gets f) fun t x =>
      x.wrVal f.dst.toNat (selectorRegs (f.imm.toNat % 256)) (s.stateReg b t x (f.imm.toNat % 256)))) := by
  rw [exec_gets, execGets, h.issueWith]
  dsimp only
  rw [State.inOrder_const (out := fun t x => .next (x.wrVal f.dst.toNat (selectorRegs (f.imm.toNat % 256))
    (s.stateReg b t x (f.imm.toNat % 256)))) fun t x => ?_]
  · rfl
  · rw [Batch.taking_g, State.throughLog_off h.atIssue_gang det]
    exact ite_self _

/-- Two registers take a value modulo 2^64. -/
theorem Fibre.wrVal_two_mod (x : Fibre) (n v : Nat) : x.wrVal n 2 (v % 2 ^ 64) = x.wrVal n 2 v := by
  have low : BitVec.ofNat 32 (v % 2 ^ 64) = BitVec.ofNat 32 v := BitVec.eq_of_toNat_eq (by simp only [BitVec.toNat_ofNat]; omega)
  have high : BitVec.ofNat 32 (v % 2 ^ 64 / 2 ^ 32) = BitVec.ofNat 32 (v / 2 ^ 32) :=
    BitVec.eq_of_toNat_eq (by simp only [BitVec.toNat_ofNat]; omega)
  simp only [Fibre.wrVal, low, high]

theorem Skein.outcnt_eq (sk : Skein) : sk.outcnt =
    sk.l % 64 + 2 ^ 6 * (sk.s % 64) + 2 ^ 12 * (sk.c % 16) + 2 ^ 16 * (sk.t % 16) + 2 ^ 20 * (sk.ackc % 1024) := by
  simp only [Skein.outcnt, packFields]
  omega

theorem spanIndex_eq (gx gy n : Nat) : spanIndex gx gy n =
    n % max gx 1 % 2 ^ 24 + 2 ^ 24 * (n / max gx 1 % max gy 1 % 2 ^ 24) + 2 ^ 48 * (n / (max gx 1 * max gy 1) % 2 ^ 16) := by
  simp only [spanIndex, packFields]
  omega

/-- What GETS reads of a register is settled by what the register writes into a fibre. -/
theorem gets_register {sel k : Nat} {v : State → Batch → Nat → Fibre → Nat}
    (same : ∀ (s : State) b t (x : Fibre) n, x.wrVal n (selectorRegs sel) (s.stateReg b t x sel) = x.wrVal n k (v s b t x)) :
    ∀ f s b ready, Ready s (.gets f) b ready → b.g.det = false → f.imm.toNat % 256 = sel →
      exec (.gets f) s = .next (s.atIssue.finish b ready (b.eachNext (.gets f) fun t x => x.wrVal f.dst.toNat k (v s b t x))) := by
  intro f s b ready h det hsel
  rw [gets_reads h det, hsel]
  simp only [same]

/-- Settles O28: GETS gives each fibre the register's value, and the value is that of the table. -/
theorem stateRegistersRead : Obligations.StateRegistersRead := by
  unfold Obligations.StateRegistersRead
  intro reads grid fib
  have plain {sel : Nat} {v : State → Batch → Nat → Fibre → Nat} (k : Nat) (regs : selectorRegs sel = k)
      (value : ∀ s b t x, s.stateReg b t x sel = v s b t x) : reads sel k v := gets_register fun s b t x n => by rw [regs, value]
  refine ⟨plain 1 rfl ?_, plain 1 rfl ?_, plain 1 rfl ?_, plain 2 rfl ?span, plain 1 rfl ?_, plain 1 rfl ?_, plain 1 rfl ?core, plain 1 rfl ?_, plain 1 rfl ?kind,
    plain 1 rfl ?_, plain 1 rfl ?_, plain 1 rfl ?_, plain 1 rfl ?_, plain 1 rfl ?_, plain 1 rfl ?_, plain 2 rfl ?_, plain 2 rfl ?_, plain 1 rfl ?_,
    plain 2 rfl ?_, plain 2 rfl ?_, plain 1 rfl ?_, plain 1 rfl ?_, plain 2 rfl ?_, plain 1 rfl ?outcnt, plain 1 rfl ?_, plain 1 rfl ?_, plain 1 rfl ?_,
    plain 1 rfl ?_, plain 2 rfl ?_, plain 2 rfl ?_, plain 1 rfl ?_, plain 2 rfl ?_, plain 1 rfl ?_, plain 1 rfl ?_, ?clock, plain 2 rfl ?_⟩
  case clock =>
    refine gets_register fun s b t x n => ?_
    have value : s.stateReg b t x 0x3C = (s.clock - (s.part (s.partOfCluster b.g.cluster)).clock0) % 2 ^ 64 := if_neg (by simp [zeroOnHandle])
    rw [value]
    exact x.wrVal_two_mod n _
  case span => intro s b t x; simp [State.stateReg, zeroOnHandle, spanIndex_eq, grid]
  case outcnt => intro s b t x; simp [State.stateReg, zeroOnHandle, Skein.outcnt_eq]
  case core =>
    intro s b t x
    cases h : b.g.kind <;> simp [State.stateReg, zeroOnHandle, coreReport, coreNumber, h]
  case kind =>
    intro s b t x
    cases h : b.g.kind <;> simp [State.stateReg, zeroOnHandle, kindCode, h]
  all_goals
    intro s b t x
    simp [State.stateReg, zeroOnHandle, Batch.fibid, Fibre.wsize, grid]

/-! ## Writing (spec/03 R68 to R70, spec/08 R230) -/

/-- Every register but `LBASE` is each fibre's own. -/
theorem sets_writes {s : State} {f : SF} {b : Batch} {ready : List Nat} (h : Ready s (.sets f) b ready) (own : f.imm.toNat % 256 ≠ 0x38) :
    exec (.sets f) s = .next (s.atIssue.finish b ready (b.eachNext (.sets f) fun _ x =>
      setsFibre (f.imm.toNat % 256) (x.rdVal f.sa.toNat (selectorRegs (f.imm.toNat % 256))) x)) := by
  have mine : (f.imm.toNat % 256 == 0x38) = false := by simpa using own
  rw [exec_sets, execSets, h.issueWith]
  simp only [mine, Bool.false_and]
  rfl

/-- `LBASE` is the gang's, and the batch's lowest fibre gives it. -/
theorem sets_lbase {s : State} {f : SF} {b : Batch} {ready : List Nat} {p : Nat × Fibre} (h : Ready s (.sets f) b ready)
    (sel : f.imm.toNat % 256 = 0x38) (some_ : b.passing (.sets f) ≠ []) (low : b.all.head? = some p) :
    exec (.sets f) s = .next ((s.atIssue.modGang b.g.key fun g => { g with lbase := (p.2.rd f.sa.toNat).toNat / 8 * 8 }).finish b ready
      (b.eachNext (.sets f) fun _ x => x)) := by
  obtain ⟨r, all⟩ := List.head?_eq_some_iff.1 low
  have runs : (b.passing (.sets f)).isEmpty = false := by simpa using some_
  rw [exec_sets, execSets, h.issueWith]
  simp only [sel, Batch.taking_run, Batch.taking_all, runs, all, beq_self_eq_true, Bool.not_false, Bool.and_self]
  rfl

/-- Settles O29: a mode waits for the guest boundary in a template alone (`setsFibre`), and `LBASE` is written beside the fibres. -/
theorem stateRegistersWritten : Obligations.StateRegistersWritten := by
  unfold Obligations.StateRegistersWritten
  intro sets mode
  refine ⟨?_, ?_, ?_, ?_, ?_, fun f s b ready p h sel => sets_lbase h sel⟩
  all_goals
    intro f s b ready h sel
    rw [sets_writes h (by rw [sel]; decide), sel]
    rfl

end Sys2Proof.Machine
end

section
/-! PROOFS, shared by O41 to O43. The entry of a name in the in-flight record: where it stands, how its operations change, how it ends
(spec/03 R64, spec/13 R330, R331). -/

namespace Sys2Proof.Machine

open Sys2Proof.Says

/-! ## Skeins looked up -/

theorem State.skein_gangs {s t : State} (h : t.gangs = s.gangs) (g k : Nat) : t.skein g k = s.skein g k := by
  rw [State.skein, State.gang, h, State.skein, State.gang]

theorem Skein.fibre_slots {sk y : Skein} (h : y.slots = sk.slots) (n : Nat) : y.fibre n = sk.fibre n := by
  rw [Skein.fibre, h, Skein.fibre]

theorem untried_eq : (fun x : Fibre => if x.tried then { x with tried := false } else x) = untried := by
  funext x
  by_cases h : x.tried
  · rw [if_pos h, untried]
  · rw [if_neg h, untried, ← Bool.eq_false_iff.2 h]

theorem State.skein_clearTried (s : State) (g k : Nat) :
    s.clearTried.skein g k = (s.skein g k).map fun sk => sk.mapFibres fun _ => untried := by
  have gangs : s.clearTried.gangs = s.gangs.map fun g => g.mapLive untried := by rw [State.clearTried, untried_eq]
  rw [State.skein, State.gang, gangs, findGang_map (f := fun g => g.mapLive untried) fun _ => rfl, State.skein, State.gang]
  cases findGang s.gangs g with
  | none => rfl
  | some g => exact List.getElem?_map

/-- The gang of a key, if there is one, has not ended. -/
def State.Open (s : State) (gk : Nat) : Prop := ∀ g, s.gang gk = some g → g.ended = false

theorem State.Open.modSkein {s : State} {gk : Nat} (h : s.Open gk) (k : Nat) (f : Skein → Skein) : (s.modSkein gk k f).Open gk := by
  intro g at_
  rw [State.modSkein, State.gang_modGang_same, Option.map_eq_some_iff] at at_
  obtain ⟨g0, at0, rfl⟩ := at_
  exact h g0 at0

/-! ## Gangs and port writes alone -/

/-- t is s but for gangs, and which clusters see a port write. -/
def Recorded (s t : State) : Prop := ∃ gs fs, t = { s with gangs := gs, far := fs }

theorem Recorded.refl (s : State) : Recorded s s := ⟨s.gangs, s.far, rfl⟩

theorem Recorded.trans {s t u : State} (a : Recorded s t) (b : Recorded t u) : Recorded s u := by
  obtain ⟨_, _, rfl⟩ := a
  obtain ⟨gs, fs, rfl⟩ := b
  exact ⟨gs, fs, rfl⟩

theorem Recorded.mem {s t : State} (h : Recorded s t) : t.mem = s.mem := by
  obtain ⟨_, _, rfl⟩ := h
  rfl

theorem Recorded.clusters {s t : State} (h : Recorded s t) : t.clusters = s.clusters := by
  obtain ⟨_, _, rfl⟩ := h
  rfl

theorem Recorded.host {s t : State} (h : Recorded s t) : t.host = s.host := by
  obtain ⟨_, _, rfl⟩ := h
  rfl

theorem Recorded.ctxs {s t : State} (h : Recorded s t) : t.ctxs = s.ctxs := by
  obtain ⟨_, _, rfl⟩ := h
  rfl

theorem Recorded.homeBytes {s t : State} (h : Recorded s t) (p : Home) : homeBytes t p = homeBytes s p := by
  obtain ⟨_, _, rfl⟩ := h
  cases p <;> rfl

theorem recorded_modSkein (s : State) (g k : Nat) (f : Skein → Skein) : Recorded s (s.modSkein g k f) := by
  unfold State.modSkein State.modGang
  split
  · exact ⟨_, _, rfl⟩
  · exact .refl s

theorem recorded_clearTried (s : State) : Recorded s s.clearTried := ⟨_, _, rfl⟩

theorem recorded_settleFar (s : State) (id : EntryId) : Recorded s (s.settleFar id) := by
  unfold State.settleFar
  split
  · exact .refl s
  · exact ⟨_, _, rfl⟩

/-! ## The entry of a name -/

section
variable {s : State} {id : EntryId} {g : Gang} {sk : Skein} {e : Entry}

theorem Named.skein (h : Named s id g sk e) : s.skein id.gang id.skein = some sk := by
  obtain ⟨gang, -, skein, -⟩ := h
  rw [State.skein, gang]
  exact skein

theorem Named.entry (h : Named s id g sk e) : sk.entry id.seq = some e := by
  obtain ⟨-, -, -, entry⟩ := h
  exact entry

theorem Named.located (h : Named s id g sk e) : s.located id = some (g, sk, e) := by
  have entry := Named.entry h
  obtain ⟨gang, free, skein, -⟩ := h
  simp only [State.located, gang, free, skein, entry, Bool.false_eq_true, if_false, Option.map_some]

theorem Named.open (h : Named s id g sk e) (ended : g.ended = false) : s.Open id.gang := by
  obtain ⟨gang, -⟩ := h
  intro g' at_
  rw [gang] at at_
  cases at_
  exact ended

end

/-- A change of an entry that keeps its number. -/
theorem Skein.entry_modEntry (sk : Skein) (seq : Nat) {f : Entry → Entry} (number : ∀ e, (f e).seq = e.seq) :
    (sk.modEntry seq f).entry seq = (sk.entry seq).map f := by
  have blind : ((fun e : Entry => e.seq == seq) ∘ fun e => if e.seq = seq then f e else e) = fun e => e.seq == seq := by
    funext e
    simp only [Function.comp_apply]
    split
    · rw [number]
    · rfl
  rw [Skein.entry, Skein.modEntry, List.find?_map, blind, Skein.entry]
  cases found : sk.record.find? fun e => e.seq == seq with
  | none => rfl
  | some e =>
    have numbered := List.find?_some found
    exact congrArg some (if_pos (beq_iff_eq.1 numbered))

theorem Skein.entry_changed {sk : Skein} {seq : Nat} {e : Entry} (entry : sk.entry seq = some e) {f : Entry → Entry}
    (number : ∀ e, (f e).seq = e.seq) : (sk.modEntry seq f).entry seq = some (f e) := by
  rw [sk.entry_modEntry seq number, entry, Option.map_some]

theorem Skein.seqs_modEntry (sk : Skein) (seq : Nat) {f : Entry → Entry} (number : ∀ e, (f e).seq = e.seq) :
    (sk.modEntry seq f).record.map (·.seq) = sk.record.map (·.seq) := by
  rw [Skein.modEntry, List.map_map]
  refine List.map_congr_left fun e _ => ?_
  simp only [Function.comp_apply]
  split
  · exact number e
  · rfl

/-! ## Counters (spec/03 R64) -/

theorem Skein.lower_slots (sk : Skein) (kind : Nat) : (sk.lower kind).slots = sk.slots := by
  unfold Skein.lower
  split <;> rfl

theorem Skein.lower_load (sk : Skein) {kind : Nat} (h : kind = 1 ∨ kind = 2) : sk.lower kind = { sk with l := sk.l - 1 } := by
  rcases h with rfl | rfl <;> rfl

theorem Skein.lower_store (sk : Skein) {kind : Nat} (h : kind = 3 ∨ kind = 4 ∨ kind = 7) : sk.lower kind = { sk with s := sk.s - 1 } := by
  rcases h with rfl | rfl | rfl <;> rfl

/-! ## How an entry ends -/

theorem Skein.dropEntry_gone (sk : Skein) (seq : Nat) : ∀ q ∈ (sk.dropEntry seq).record, q.seq ≠ seq := by
  unfold Skein.dropEntry
  split
  · rename_i none_
    intro q hq same
    exact absurd same (by simpa using List.find?_eq_none.1 none_ q hq)
  · intro q hq
    simpa using (List.mem_filter.1 hq).2

theorem Skein.dropEntry_acked {sk : Skein} {seq : Nat} {e : Entry} (entry : sk.entry seq = some e) (acked : e.acked = true) :
    sk.dropEntry seq = let y := if e.portacc then sk else sk.lower e.kind
      { y with record := y.record.filter fun x => x.seq != seq } := by
  simp only [Skein.dropEntry, entry, acked, if_true, Nat.sub_zero]

theorem Skein.dropEntry_slots (sk : Skein) (seq : Nat) : (sk.dropEntry seq).slots = sk.slots := by
  unfold Skein.dropEntry
  split
  · rfl
  · simp only
    split
    · rfl
    · exact sk.lower_slots _

theorem Skein.releaseCount_slots (sk : Skein) (seq : Nat) : (sk.releaseCount seq).slots = sk.slots := by
  unfold Skein.releaseCount
  split
  · rfl
  · split
    · rfl
    · exact sk.lower_slots _

/-- A skein with an entry closed, if nothing is owed: removed, or left for its acknowledgement alone. -/
def Skein.close (sk : Skein) (seq : Nat) : Skein :=
  match sk.entry seq with
  | some e => if e.finished then (if e.acked then sk.dropEntry seq else sk.releaseCount seq) else sk
  | none => sk

theorem Skein.close_slots (sk : Skein) (seq : Nat) : (sk.close seq).slots = sk.slots := by
  unfold Skein.close
  split
  · split_ifs
    · exact sk.dropEntry_slots seq
    · exact sk.releaseCount_slots seq
    · rfl
  · rfl

theorem Skein.close_unfinished {sk : Skein} {seq : Nat} {e : Entry} (entry : sk.entry seq = some e) (owed : e.finished = false) :
    sk.close seq = sk := by
  simp only [Skein.close, entry, owed, Bool.false_eq_true, if_false]

theorem Skein.close_finished {sk : Skein} {seq : Nat} {e : Entry} (entry : sk.entry seq = some e) (finished : e.finished = true)
    (acked : e.acked = true) : sk.close seq = sk.dropEntry seq := by
  simp only [Skein.close, entry, finished, acked, if_true]

/-- The release of footprints changes clusters. -/
theorem State.settleFootprint_eq (s : State) (key : Nat) : ∃ cs, s.settleFootprint key = { s with clusters := cs } := by
  unfold State.settleFootprint
  split
  · split
    · exact ⟨_, rfl⟩
    · exact ⟨s.clusters, rfl⟩
  · exact ⟨s.clusters, rfl⟩

/-- The gang still uses its span's footprint. -/
theorem State.settleFootprint_open {s : State} {key : Nat} (h : s.Open key) : s.settleFootprint key = s := by
  unfold State.settleFootprint
  split
  · rename_i g gang
    simp [h g gang]
  · rfl

theorem State.closeId_eq (s : State) (id : EntryId) :
    s.closeId id = ((s.modSkein id.gang id.skein fun sk => sk.close id.seq).settleFootprint id.gang).settleFar id := rfl

theorem State.gangs_closeId (s : State) (id : EntryId) :
    (s.closeId id).gangs = (s.modSkein id.gang id.skein fun sk => sk.close id.seq).gangs := by
  rw [State.closeId_eq]
  obtain ⟨cs, foot⟩ := (s.modSkein id.gang id.skein fun sk => sk.close id.seq).settleFootprint_eq id.gang
  rw [foot, State.settleFar]
  split <;> rfl

theorem State.skein_closeId (s : State) (id : EntryId) :
    (s.closeId id).skein id.gang id.skein = (s.skein id.gang id.skein).map fun sk => sk.close id.seq := by
  rw [State.skein_gangs (s.gangs_closeId id), State.skein_modSkein_same]

theorem State.mem_closeId (s : State) (id : EntryId) : (s.closeId id).mem = s.mem := by
  rw [State.closeId_eq, (recorded_settleFar ..).mem]
  obtain ⟨cs, foot⟩ := (s.modSkein id.gang id.skein fun sk => sk.close id.seq).settleFootprint_eq id.gang
  rw [foot]
  exact State.modSkein_mem ..

theorem recorded_closeId {s : State} {id : EntryId} (h : s.Open id.gang) : Recorded s (s.closeId id) := by
  rw [State.closeId_eq, State.settleFootprint_open (h.modSkein _ _)]
  exact (recorded_modSkein ..).trans (recorded_settleFar ..)

/-! ## Operations of an entry -/

/-- An operation, or the one that takes its place. -/
def SlotOp.unless (y o : SlotOp) : SlotOp := if y.slot = o.slot ∧ y.uid = o.uid then o else y

theorem Entry.putOp_ops (e : Entry) (o : SlotOp) : (e.putOp o).ops = e.ops.map fun y => y.unless o := rfl

theorem State.skein_putOp (s : State) (id : EntryId) (o : SlotOp) :
    (s.putOp id o).skein id.gang id.skein = (s.skein id.gang id.skein).map fun sk => sk.modEntry id.seq fun e => e.putOp o :=
  State.skein_modSkein_same ..

/-- Skein y is sk but for its record, in which the entry numbered seq is x. -/
structure Skein.WithEntry (sk y : Skein) (seq : Nat) (x : Entry) : Prop where
  slots : y.slots = sk.slots
  l : y.l = sk.l
  s : y.s = sk.s
  entry : y.entry seq = some x

/-- t is s but for gangs and port writes; the gang of a name has not ended, and its skein is sk with the entry of the name as x. -/
structure State.EntryIs (s : State) (id : EntryId) (sk : Skein) (x : Entry) (t : State) : Prop where
  recorded : Recorded s t
  going : t.Open id.gang
  skein : ∃ y, t.skein id.gang id.skein = some y ∧ sk.WithEntry y id.seq x

/-- A name stands for the same entry while gangs stay. -/
theorem Named.entryIs {s t : State} {id : EntryId} {g : Gang} {sk : Skein} {e : Entry} (h : Named s id g sk e) (ended : g.ended = false)
    (gangs : t.gangs = s.gangs) : t.EntryIs id sk e t := by
  refine ⟨.refl t, fun g' at_ => ?_, sk, ?_, rfl, rfl, rfl, Named.entry h⟩
  · rw [State.gang, gangs] at at_
    exact Named.open h ended g' at_
  · rw [State.skein_gangs gangs, Named.skein h]

section
variable {s t : State} {id : EntryId} {sk : Skein} {x : Entry}

theorem State.EntryIs.putOp (h : s.EntryIs id sk x t) (o : SlotOp) : s.EntryIs id sk (x.putOp o) (t.putOp id o) := by
  obtain ⟨y, skein, slots, l, st, entry⟩ := h.skein
  refine ⟨h.recorded.trans (recorded_modSkein ..), h.going.modSkein _ _, y.modEntry id.seq fun e => e.putOp o, ?_, slots, l, st,
    Skein.entry_changed entry (f := fun e => e.putOp o) fun _ => rfl⟩
  rw [State.skein_putOp, skein, Option.map_some]

/-- The registers of a fibre change beside the record. -/
theorem State.EntryIs.modUid (h : s.EntryIs id sk x t) (uid : Nat) (f : Fibre → Fibre) :
    s.EntryIs id (sk.modUid uid f) x (t.modSkein id.gang id.skein fun y => y.modUid uid f) := by
  obtain ⟨y, skein, slots, l, st, entry⟩ := h.skein
  refine ⟨h.recorded.trans (recorded_modSkein ..), h.going.modSkein _ _, y.modUid uid f, ?_, ?_, l, st, entry⟩
  · rw [State.skein_modSkein_same, skein, Option.map_some]
  · simp only [Skein.modUid, Skein.mapFibres, slots]

/-- The skein once an operation has ended and its entry has been looked at: fibres may try again; an entry that owes nothing has gone, its
counter lowered, and one that owes something stays. -/
theorem State.EntryIs.ends (h : s.EntryIs id sk x t) (o : SlotOp) :
    Recorded s ((t.putOp id o).closeId id).clearTried ∧
    ∃ y, ((t.putOp id o).closeId id).clearTried.skein id.gang id.skein = some y ∧ (∀ n, y.fibre n = (sk.fibre n).map untried) ∧
      ((x.putOp o).finished = true → x.acked = true → x.portacc = false →
        y.l = (sk.lower x.kind).l ∧ y.s = (sk.lower x.kind).s ∧ ∀ q ∈ y.record, q.seq ≠ id.seq) ∧
      ((x.putOp o).finished = false → y.l = sk.l ∧ y.entry id.seq = some (x.putOp o)) := by
  have put := h.putOp o
  obtain ⟨y, skein, slots, l, st, entry⟩ := put.skein
  refine ⟨(put.recorded.trans (recorded_closeId put.going)).trans (recorded_clearTried _), (y.close id.seq).mapFibres fun _ => untried, ?_, fun n => ?_,
    fun finished acked counted => ?_, fun owed => ?_⟩
  · rw [State.skein_clearTried, State.skein_closeId, skein, Option.map_some, Option.map_some]
  · rw [Skein.fibre_mapFibres, Skein.fibre_slots ((y.close_slots _).trans slots)]
  · have gone := y.dropEntry_gone id.seq
    have counted : (x.putOp o).portacc = false := counted
    have lowered : (y.lower x.kind).l = (sk.lower x.kind).l ∧ (y.lower x.kind).s = (sk.lower x.kind).s := by
      unfold Skein.lower
      split <;> simp only [l, st, and_self]
    rw [Skein.close_finished entry finished acked]
    rw [Skein.dropEntry_acked entry acked, counted] at gone ⊢
    exact ⟨lowered.1, lowered.2, gone⟩
  · rw [Skein.close_unfinished entry owed]
    exact ⟨l, entry⟩

end

end Sys2Proof.Machine
end

section
/-! PROOFS, O41. A load's completion writes the value that its operation bound, and ends its entry with the last one.  The slots of a step, the
fences of an operation and its end serve O42 too. -/

namespace Sys2Proof.Machine

open Sys2Proof.Says

/-! ## The slots of a step -/

theorem slotsOf_oneSlot {t : Nat} (h : t < 64) : slotsOf (oneSlot t) = [t] := by
  have bit (d : Nat) : inMask (oneSlot t) d = (d == t) := by
    rw [inMask, bitOf_eq_testBit, oneSlot, BitVec.toNat_twoPow, Nat.mod_eq_of_lt (Nat.pow_lt_pow_right (by decide) h), Nat.testBit_two_pow,
      Bool.beq_eq_decide_eq]
    exact decide_eq_decide.2 eq_comm
  have once : (rangeFrom 0 64).count t = 1 :=
    List.count_eq_one_of_mem (by rw [rangeFrom_eq_range']; exact List.nodup_range') (mem_rangeFrom.2 ⟨Nat.zero_le t, by omega⟩)
  rw [slotsOf, List.filter_congr fun d _ => bit d, List.filter_beq, once]
  rfl

/-! ## The order of the model allows the operation -/

theorem Skein.mayGo_of {sk : Skein} {e : Entry} {o : SlotOp} (own : sk.mayPerform e o = true)
    (all : e.one = true → ∀ q ∈ e.ops, q.stage ≠ .sent ∨ sk.mayPerform e q = true) : sk.mayGo e o = true := by
  unfold Skein.mayGo
  split
  · rename_i one
    refine List.all_eq_true.2 fun q hq => ?_
    simpa [SlotOp.performed] using all one q hq
  · exact own

/-- Nothing but a tagged write needs room at its homes. -/
theorem State.tagNeeds_untagged (s : State) {e : Entry} (h : e.cls ≠ 1) (o : SlotOp) : s.tagNeeds e o = [] := by
  simp [State.tagNeeds, h]

/-! ## What a load's operation leaves as it was -/

theorem beside_ordOp (s : State) (g : Gang) (e : Entry) (q : SlotOp) (p : Part) : Beside s (s.ordOp g e q p) := by
  unfold State.ordOp
  split
  · exact beside_ordPerform ..
  · exact .refl s

/-- What an operation's release and acquire do to the caches before it is performed at a part (spec/05 R125). -/
def State.fenced (s : State) (g : Gang) (e : Entry) (p : Part) : State :=
  let released := if e.release && !p.unordered then s.releaseCaches g.via (e.scopeAt p) else s
  if e.acquire && !p.unordered then released.acquireCaches g.via (e.scopeAt p) else released

/-- What a release and an acquire keep, both together keep. -/
theorem State.fenced_keeps {s : State} {g : Gang} {e : Entry} {p : Part} (P : State → Prop) (start : P s)
    (release : e.release = true → ∀ t, P t → P (t.releaseCaches g.via (e.scopeAt p)))
    (acquire : e.acquire = true → ∀ t, P t → P (t.acquireCaches g.via (e.scopeAt p))) : P (s.fenced g e p) := by
  have released : P (if e.release && !p.unordered then s.releaseCaches g.via (e.scopeAt p) else s) := by
    split
    · rename_i h
      exact release (Bool.and_eq_true_iff.1 h).1 s start
    · exact start
  unfold State.fenced
  dsimp only
  split
  · rename_i h
    exact acquire (Bool.and_eq_true_iff.1 h).1 _ released
  · exact released

theorem beside_fenced (s : State) (g : Gang) (e : Entry) (p : Part) : Beside s (s.fenced g e p) :=
  State.fenced_keeps (Beside s) (.refl s) (fun _ _ h => h.trans (beside_releaseCaches ..)) fun _ _ h => h.trans (beside_acquireCaches ..)

section
variable {id : EntryId} {g : Gang} {e : Entry}

theorem beside_performPiece_load (load : e.kind = 1 ∨ e.kind = 2) (untagged : e.cls ≠ 1) {s : State} {q : SlotOp} {p : Part}
    {r : Nat × State} (h : s.performPiece id g e q p = .ok r) : Beside s r.2 := by
  simp only [State.performPiece, if_neg untagged, if_pos load] at h
  split at h
  · cases h
  · have fenced : Beside s ((s.ordOp g e q p).fenced g e p) := (beside_ordOp ..).trans (beside_fenced ..)
    cases read : ((s.ordOp g e q p).fenced g e p).readHome g.via (s.worldOf g) (e.scopeAt p) p with
    | error c =>
      have fails := h.symm.trans (congrArg (Except.map _) read)
      cases fails
    | ok x =>
      have reads := h.symm.trans (congrArg (Except.map _) read)
      cases reads
      exact fenced.trans (beside_readHome read)

theorem beside_performPieces_load (load : e.kind = 1 ∨ e.kind = 2) (untagged : e.cls ≠ 1) (got : List (Nat × Nat)) :
    ∀ (qs : List SlotOp) (i : Nat) {s : State} {r : List Byte × State}, s.performPieces id g e got i qs = .ok r → Beside s r.2
  | [], _, s, r, h => by
    cases h
    exact .refl s
  | q :: qs, i, s, r, h => by
    unfold State.performPieces at h
    split at h
    · exact beside_performPieces_load load untagged got qs (i + 1) h
    · split at h
      · cases h
      · rename_i v s1 piece
        have first : Beside s s1 := by
          split at piece
          · exact beside_performPiece_load load untagged piece
          · cases piece
            exact .refl s
        cases rest : s1.performPieces id g e got (i + 1) qs with
        | error c =>
          rw [rest] at h
          cases h
        | ok x =>
          rw [rest] at h
          cases h
          exact first.trans (beside_performPieces_load load untagged got qs (i + 1) (r := x) rest)

theorem beside_performOp_load (load : e.kind = 1 ∨ e.kind = 2) (untagged : e.cls ≠ 1) {s s1 : State} {o : SlotOp} {v : Nat}
    (h : s.performOp id g e o = .ok (v, s1)) : Beside s s1 := by
  unfold State.performOp at h
  cases all : s.performPieces id g e o.got 0 o.pieces with
  | error c =>
    rw [all] at h
    cases h
  | ok x =>
    rw [all] at h
    cases h
    exact beside_performPieces_load load untagged o.got _ 0 all

end

/-! ## One access for a whole batch (spec/06 R158) -/

/-- An operation with its value bound and its register not written. -/
def SlotOp.bound (v : Nat) (q : SlotOp) : SlotOp := { q with stage := .performed, val := v }

/-- The operations for which one access binds the value besides its own. -/
def Entry.shared (e : Entry) : List SlotOp := if e.one then e.ops else []

/-- An entry with the value bound for those of some operations that are sent. -/
def Entry.bindAll (x : Entry) (v : Nat) (l : List SlotOp) : Entry :=
  l.foldl (fun x q => if q.stage = .sent then x.putOp (q.bound v) else x) x

/-- An operation of such an entry. -/
def SlotOp.boundBy (v : Nat) (l : List SlotOp) (y : SlotOp) : SlotOp :=
  l.foldl (fun y q => if q.stage = .sent then y.unless (q.bound v) else y) y

theorem Entry.bindAll_ops (v : Nat) : ∀ (l : List SlotOp) (x : Entry), (x.bindAll v l).ops = x.ops.map (SlotOp.boundBy v l)
  | [], x => (List.map_id _).symm
  | q :: r, x => by
    refine (Entry.bindAll_ops v r _).trans ?_
    have first : (if q.stage = .sent then x.putOp (q.bound v) else x).ops =
        x.ops.map fun y => if q.stage = .sent then y.unless (q.bound v) else y := by
      split
      · rfl
      · exact (List.map_id _).symm
    rw [first, List.map_map]
    rfl

/-- The entry is the same otherwise. -/
theorem Entry.bindAll_eq (v : Nat) (l : List SlotOp) (x : Entry) : x.bindAll v l = { x with ops := (x.bindAll v l).ops } := by
  refine List.foldlRecOn (motive := fun y : Entry => y = { x with ops := y.ops }) l _ rfl fun y same q _ => ?_
  split
  · rw [Entry.putOp]
    conv_lhs => rw [same]
  · exact same

/-- Two operations have one name: a slot and a fibre. -/
def SlotOp.SameName (y q : SlotOp) : Prop := y.slot = q.slot ∧ y.uid = q.uid

/-- An operation is bound if one of its name is sent, and else stays. -/
theorem SlotOp.boundBy_cases (v : Nat) : ∀ (l : List SlotOp) (y : SlotOp),
    (y.boundBy v l = y ∧ ∀ q ∈ l, q.stage = .sent → ¬ y.SameName q) ∨ ∃ q ∈ l, q.stage = .sent ∧ y.SameName q ∧ y.boundBy v l = q.bound v
  | [], y => .inl ⟨rfl, fun _ h => absurd h List.not_mem_nil⟩
  | a :: r, y => by
    have step : y.boundBy v (a :: r) = (if a.stage = .sent then y.unless (a.bound v) else y).boundBy v r := rfl
    by_cases hit : a.stage = .sent ∧ y.SameName a
    · have first : (if a.stage = .sent then y.unless (a.bound v) else y) = a.bound v := by
        rw [if_pos hit.1]
        exact if_pos hit.2
      rw [step, first]
      rcases SlotOp.boundBy_cases v r (a.bound v) with ⟨same, -⟩ | ⟨q, hq, sent, ⟨slot, uid⟩, same⟩
      · exact .inr ⟨a, List.mem_cons_self, hit.1, hit.2, same⟩
      · exact .inr ⟨q, List.mem_cons_of_mem a hq, sent, ⟨hit.2.1.trans slot, hit.2.2.trans uid⟩, same⟩
    · have first : (if a.stage = .sent then y.unless (a.bound v) else y) = y := by
        split
        · exact if_neg fun named => hit ⟨‹_›, named⟩
        · rfl
      rw [step, first]
      rcases SlotOp.boundBy_cases v r y with ⟨same, none_⟩ | ⟨q, hq, found⟩
      · refine .inl ⟨same, fun q hq sent named => ?_⟩
        rcases List.mem_cons.1 hq with rfl | hq
        · exact hit ⟨sent, named⟩
        · exact none_ q hq sent named
      · exact .inr ⟨q, List.mem_cons_of_mem a hq, found⟩

/-- An operation that is alone in its slot is bound. -/
theorem SlotOp.boundBy_sent (v : Nat) {l : List SlotOp} (alone : (l.map (·.slot)).Nodup) {q : SlotOp} (hq : q ∈ l) (sent : q.stage = .sent) :
    q.boundBy v l = q.bound v := by
  rcases SlotOp.boundBy_cases v l q with ⟨-, none_⟩ | ⟨y, hy, -, ⟨slot, -⟩, same⟩
  · exact absurd ⟨rfl, rfl⟩ (none_ q hq sent)
  · rw [same, List.inj_on_of_nodup_map alone hy hq slot.symm]

theorem SlotOp.boundBy_slot (v : Nat) (l : List SlotOp) (y : SlotOp) : (y.boundBy v l).slot = y.slot := by
  rcases SlotOp.boundBy_cases v l y with ⟨same, -⟩ | ⟨q, -, -, ⟨slot, -⟩, same⟩
  · rw [same]
  · rw [same]
    exact slot.symm

/-- What is not done does not become so by being bound. -/
theorem SlotOp.boundBy_owed (v : Nat) (l : List SlotOp) {y : SlotOp} (owed : y.stage ≠ .done) : (y.boundBy v l).stage ≠ .done := by
  rcases SlotOp.boundBy_cases v l y with ⟨same, -⟩ | ⟨q, -, -, -, same⟩
  · rwa [same]
  · rw [same]
    exact Stage.noConfusion

theorem State.EntryIs.bindAll {s : State} {id : EntryId} {sk : Skein} (v : Nat) : ∀ (l : List SlotOp) {x : Entry} {t : State},
    s.EntryIs id sk x t → s.EntryIs id sk (x.bindAll v l)
      (l.foldl (fun s q => if q.stage = .sent then s.putOp id { q with stage := .performed, val := v } else s) t)
  | [], _, _, h => h
  | q :: r, x, t, h => by
    refine State.EntryIs.bindAll v r ?_
    dsimp only
    split
    · exact h.putOp _
    · exact h

/-! ### The entry's operations once the load o is written -/

section
variable {e : Entry} {o : SlotOp} {v : Nat}

/-- The operation done: a load's value is in its registers, a store is performed. -/
def SlotOp.ended (v : Nat) (o : SlotOp) : SlotOp := { o with stage := .done, val := v }

/-- Where every operation of another name is done, o was the last. -/
theorem Entry.finished_last {x : Entry} (rest : ∀ y ∈ x.ops, ¬ y.SameName o → y.stage = .done) : (x.putOp (o.ended v)).finished = true := by
  refine List.all_eq_true.2 fun z hz => ?_
  obtain ⟨y, hy, rfl⟩ := List.mem_map.1 hz
  split
  · exact beq_self_eq_true _
  · rename_i other
    exact beq_iff_eq.2 (rest y hy other)

/-- The entry when the value has been bound and o written. -/
def Entry.delivered (e : Entry) (o : SlotOp) (v : Nat) : Entry := (e.bindAll v e.shared).putOp (o.ended v)

theorem Entry.mem_delivered {z : SlotOp} : z ∈ (e.delivered o v).ops ↔ ∃ y ∈ e.ops, (y.boundBy v e.shared).unless (o.ended v) = z := by
  simp [Entry.delivered, Entry.putOp_ops, Entry.bindAll_ops]

/-- An operation in another slot is as the access left it. -/
theorem Entry.delivered_other {y : SlotOp} (hy : y ∈ e.ops) (slot : y.slot ≠ o.slot) : y.boundBy v e.shared ∈ (e.delivered o v).ops :=
  Entry.mem_delivered.2 ⟨y, hy, if_neg fun named => slot ((y.boundBy_slot v _).symm.trans named.1)⟩

theorem Entry.delivered_bound (one : e.one = true) (alone : (e.ops.map (·.slot)).Nodup) (ho : o ∈ e.ops) {q : SlotOp} (hq : q ∈ e.ops)
    (other : q ≠ o) (sent : q.stage = .sent) : q.bound v ∈ (e.delivered o v).ops := by
  have all : e.shared = e.ops := if_pos one
  have slot : q.slot ≠ o.slot := fun same => other (List.inj_on_of_nodup_map alone hq ho same)
  have stands := Entry.delivered_other (v := v) hq slot
  rwa [all, SlotOp.boundBy_sent v alone hq sent] at stands

/-- Where every other operation is done, so is the entry. -/
theorem Entry.delivered_finished (rest : ∀ q ∈ e.ops, q ≠ o → q.stage = .done) : (e.delivered o v).finished = true := by
  have within : ∀ q ∈ e.shared, q ∈ e.ops := by
    unfold Entry.shared
    split
    · exact fun _ h => h
    · exact fun _ h => absurd h List.not_mem_nil
  refine Entry.finished_last fun z hz other => ?_
  rw [Entry.bindAll_ops] at hz
  obtain ⟨y, hy, rfl⟩ := List.mem_map.1 hz
  rcases SlotOp.boundBy_cases v e.shared y with ⟨same, -⟩ | ⟨q, hq, sent, -, same⟩
  · rw [same] at other ⊢
    exact rest y hy fun is => other (is ▸ ⟨rfl, rfl⟩)
  · have last : q = o := by
      by_contra other
      rw [rest q (within q hq) other] at sent
      cases sent
    rw [same, last] at other
    exact absurd ⟨rfl, rfl⟩ other

/-- Where an operation in another slot is not done, the entry owes something. -/
theorem Entry.delivered_owed {q : SlotOp} (hq : q ∈ e.ops) (slot : q.slot ≠ o.slot) (owed : q.stage ≠ .done) : (e.delivered o v).finished = false := by
  refine Bool.eq_false_iff.2 fun finished => ?_
  have done := List.all_eq_true.1 finished _ (Entry.delivered_other hq slot)
  exact SlotOp.boundBy_owed v _ owed (beq_iff_eq.1 done)

end

/-! ## Completion -/

theorem wordsOf_eq_words : ∀ n v, wordsOf n v = words n v
  | 0, _ => rfl
  | n + 1, v => by rw [wordsOf, words, wordsOf_eq_words n]

theorem loadWords_eq_loaded (kind aop size v : Nat) : loadWords kind aop size v = Says.loaded kind aop size v := by
  simp only [loadWords, Says.loaded, wordsOf_eq_words]

section
variable {s s1 : State} {id : EntryId} {g : Gang} {sk : Skein} {e : Entry} {o : SlotOp} {t v : Nat}

/-- Outside a replay log, a bound value is written, and the operation and its entry end. -/
theorem State.deliver_unlogged (s : State) (id : EntryId) (g : Gang) (e : Entry) (unlogged : o.cmp = 0) (v : Nat) :
    s.deliver id g e o v = ((s.modSkein id.gang id.skein fun sk => sk.modUid o.uid fun x => x.wrPlaces o.dst (Says.loaded e.kind e.aop e.size v)).putOp id
      (o.ended v)).closeId id := by
  have off : s.putLogValue g e o v = s := if_pos (.inl unlogged)
  simp only [State.deliver, off, loadWords_eq_loaded]
  rfl

/-- A load that nothing holds back is performed, its value bound for all that share the access, and written. -/
theorem State.completeLoad_sent (h : Named s id g sk e) (op : e.op t = some o) (load : e.kind = 1 ∨ e.kind = 2) (untagged : e.cls ≠ 1)
    (sent : o.stage = .sent) (go : sk.mayGo e o = true) (free : s.heldByFrame g e o = false) (performed : s.performOp id g e o = .ok (v, s1)) :
    s.completeLoad id t =
      (e.shared.foldl (fun s q => if q.stage = .sent then s.putOp id { q with stage := .performed, val := v } else s) s1).deliver id g e o v := by
  have kind : (!loadLike e.kind || hostAtom e o) = false := by rcases load with h | h <;> simp [loadLike, hostAtom, h]
  have room : s.makeTagRoom e o = s := by rw [State.makeTagRoom, s.tagNeeds_untagged untagged]; rfl
  have fit : s.tagsFit e o = true := by rw [State.tagsFit, s.tagNeeds_untagged untagged]; rfl
  have clear : s.clearToGo g sk e o = true := by simp [State.clearToGo, go, free, fit]
  simp only [State.completeLoad, Named.located h, op, kind, sent, room, clear, performed, Bool.not_true, Bool.false_eq_true, if_false]
  refine congrArg (fun s : State => s.deliver id g e o v) ?_
  unfold Entry.shared
  split <;> rfl

end

/-- Settles O41: the load's access leaves gangs as they were, so its skein changes by the value bound, the value written, and the entry's end. -/
theorem loadsComplete : Obligations.LoadsComplete := by
  intro s id g sk e t o v s1 named open_ ht load untagged found sent unlogged may shared free performed
  have op : e.op t = some o := found
  have numbered := List.find?_some found
  have slot : o.slot = t := beq_iff_eq.1 numbered
  have mem : o ∈ e.ops := List.mem_of_find?_eq_some found
  have gangs : s1.gangs = s.gangs := (beside_performOp_load load untagged performed).gangs
  obtain ⟨recorded, sk', skein, fibres, done, owed⟩ :=
    (((Named.entryIs named open_ gangs).bindAll v e.shared).modUid o.uid fun x => x.wrPlaces o.dst (Says.loaded e.kind e.aop e.size v)).ends (o.ended v)
  have became : ((e.bindAll v e.shared).putOp (o.ended v)) = e.delivered o v := rfl
  rw [became] at done owed
  have same : e.bindAll v e.shared = { e with ops := (e.bindAll v e.shared).ops } := e.bindAll_eq v _
  refine ⟨_, sk', ?_, skein, fun n x stood => ?_, recorded.mem, recorded.clusters, fun one alone q hq other sent_q => ?_, fun rest acked counted => ?_,
    fun ⟨q, hq, _, slot_q, stage_q⟩ => ?_⟩
  · rw [exec_loadComplete, execLoadComplete, slotsOf_oneSlot ht, List.foldl_cons, List.foldl_nil,
      State.completeLoad_sent named op load untagged sent (Skein.mayGo_of may shared) free performed, State.deliver_unlogged _ _ _ _ unlogged]
  · rw [fibres, Skein.modUid, Skein.fibre_mapFibres, stood, Option.map_some, Option.map_some]
  · have bound := Entry.delivered_bound (v := v) one alone mem hq other sent_q
    have unfinished : (e.delivered o v).finished = false := Bool.eq_false_iff.2 fun finished => by
      have last := List.all_eq_true.1 finished _ bound
      exact Stage.noConfusion (beq_iff_eq.1 last)
    exact ⟨_, (owed unfinished).2, bound⟩
  · rw [same] at done
    obtain ⟨l, st, gone⟩ := done (Entry.delivered_finished rest) acked counted
    rw [Skein.lower_load _ load] at l st
    exact ⟨l, st, gone⟩
  · exact (owed (Entry.delivered_owed hq (slot ▸ slot_q) stage_q)).1

end Sys2Proof.Machine
end

section
/-! PROOFS, O42. A store's performing writes its bytes at its home and nothing else there, and ends its entry with the last one. -/

namespace Sys2Proof.Machine

open Sys2Proof.Says

/-! ## Bytes of a value in memory (spec/00 R4) -/

theorem Memory.read_writeBytes_bytesOf : ∀ (n : Nat) (m : Memory) (a v c : Nat), m.wf = true →
    (m.writeBytes a (bytesOf n v)).read c = if a ≤ c ∧ c < a + n then BitVec.ofNat 8 (v / 256 ^ (c - a)) else m.read c
  | 0, m, a, v, c, _ => (if_neg (by omega)).symm
  | n + 1, m, a, v, c, wf => by
    rw [bytesOf, Memory.writeBytes, Memory.read_writeBytes_bytesOf n _ (a + 1) _ c (Memory.wf_write m a _ wf)]
    rcases Nat.lt_trichotomy c a with below | rfl | above
    · rw [if_neg (by omega), if_neg (by omega), Memory.read_write_other m a c _ (by omega)]
    · rw [if_neg (by omega), if_pos (by omega), Memory.read_write_same m c _ wf, Nat.sub_self, Nat.pow_zero, Nat.div_one]
    · have next : c - a = c - (a + 1) + 1 := by omega
      rw [Memory.read_write_other m a c _ (by omega), next, Nat.pow_succ', ← Nat.div_div_eq_div_mul]
      exact if_congr (by omega) rfl rfl

/-! ## Homes beside device memory, while caches move (spec/05 R121, R127) -/

theorem homeBytes_modCluster (s : State) (c : Nat) {f : Cluster → Cluster} (scratch : ∀ k, (f k).scratch = k.scratch)
    (local_ : ∀ k, (f k).local_ = k.local_) (h : Home) : homeBytes (s.modCluster c f) h = homeBytes s h := by
  have kept (k : Nat) : ((s.modCluster c f).cluster k).scratch = (s.cluster k).scratch ∧ ((s.modCluster c f).cluster k).local_ = (s.cluster k).local_ := by
    by_cases same : k = c
    · subst same
      rw [State.cluster_modCluster_same]
      exact ⟨scratch _, local_ _⟩
    · rw [State.cluster_modCluster_other _ _ _ _ same]
      exact ⟨rfl, rfl⟩
  cases h with
  | scratch k => exact (kept k).1
  | handle k => exact (kept k).2
  | dev => rfl
  | devreg => rfl
  | host => rfl
  | peer d => rfl

/-- A change of a cluster's cache. -/
theorem homeBytes_recache (s : State) (c : Nat) (f : Cluster → List CacheLine) (h : Home) :
    homeBytes (s.modCluster c fun k => { k with cache := f k }) h = homeBytes s h :=
  homeBytes_modCluster s c (f := fun k => { k with cache := f k }) (fun _ => rfl) (fun _ => rfl) h

theorem homeBytes_setPrivate (s : State) (n : Nat) (cs : List CacheLine) (h : Home) : homeBytes (s.setPrivate n cs) h = homeBytes s h := by
  cases h <;> rfl

theorem homeBytes_markExt (s : State) (a : Nat) (h : Home) : homeBytes (s.markExt a) h = homeBytes s h := by
  unfold State.markExt
  split
  · cases h <;> rfl
  · rfl

section
variable {h : Home}

theorem homeBytes_writeDev {s t : State} {w a : Nat} {bs : List Byte} (other : h ≠ .dev) (written : s.writeDev w a bs = .ok t) :
    homeBytes t h = homeBytes s h := by
  obtain ⟨m, o, p, rfl⟩ := State.writeDev_frame written
  cases h with
  | dev => exact absurd rfl other
  | _ => rfl

theorem homeBytes_writeDirty (other : h ≠ .dev) (s : State) (x : CacheLine) : homeBytes (s.writeDirty x) h = homeBytes s h := by
  unfold State.writeDirty
  split
  · split
    · rename_i written
      exact (homeBytes_markExt ..).trans (homeBytes_writeDev other written)
    · rfl
  · rfl

theorem homeBytes_writeBackLine (other : h ≠ .dev) (s : State) (c : Nat) (x : CacheLine) :
    homeBytes (s.writeBackLine c x) h = homeBytes s h := by
  unfold State.writeBackLine
  split
  · exact (homeBytes_recache ..).trans (homeBytes_writeDirty other s x)
  · rfl

theorem homeBytes_holdLine (other : h ≠ .dev) {s t : State} {c w r l : Nat} (held : s.holdLine c w r l = .ok t) :
    homeBytes t h = homeBytes s h := by
  unfold State.holdLine at held
  simp only at held
  split at held
  · cases held
    exact homeBytes_recache ..
  · split at held
    · cases held
    · split_ifs at held
      · cases held
        rfl
      · split at held
        · cases held
          exact homeBytes_recache ..
        · split at held
          · cases held
            rfl
          · cases held
            exact (homeBytes_recache ..).trans (homeBytes_writeDirty other ..)

theorem homeBytes_pushLine (other : h ≠ .dev) (s : State) (c : Nat) (x : CacheLine) : homeBytes (s.pushLine c x) h = homeBytes s h := by
  unfold State.pushLine
  split
  · rfl
  · split
    · rfl
    · rename_i held
      have kept := homeBytes_holdLine other held
      split
      · exact (homeBytes_recache ..).trans kept
      · exact (homeBytes_writeDirty other ..).trans kept

theorem homeBytes_pushLines (other : h ≠ .dev) (c : Nat) (l : List CacheLine) (s : State) :
    homeBytes (l.foldl (fun s x => s.pushLine c x) s) h = homeBytes s h :=
  foldl_keeps (fun s => homeBytes s h) (fun s x => homeBytes_pushLine other s c x) l s

theorem homeBytes_shedPrivate (other : h ≠ .dev) (s : State) (v : Via) (p : CacheLine → Bool) :
    homeBytes (s.shedPrivate v p) h = homeBytes s h := by
  unfold State.shedPrivate
  split
  · rfl
  · dsimp only
    split
    · exact (homeBytes_setPrivate ..).trans (homeBytes_pushLines other ..)
    · rfl

theorem homeBytes_pushPrivate (other : h ≠ .dev) (s : State) (v : Via) : homeBytes (s.pushPrivate v) h = homeBytes s h := by
  unfold State.pushPrivate
  split
  · rfl
  · dsimp only
    split
    · exact (homeBytes_setPrivate ..).trans (homeBytes_pushLines other ..)
    · rfl

theorem homeBytes_releaseCaches (other : h ≠ .dev) (s : State) (v : Via) (scope : Nat) :
    homeBytes (s.releaseCaches v scope) h = homeBytes s h := by
  have pushed : homeBytes (if 3 ≤ scope then s.pushPrivate v else s) h = homeBytes s h := by
    split
    · exact homeBytes_pushPrivate other ..
    · rfl
  unfold State.releaseCaches
  dsimp only
  split
  · exact (foldl_keeps (fun s => homeBytes s h) (fun s x => homeBytes_writeBackLine other s v.cluster x) _ _).trans pushed
  · exact pushed

theorem homeBytes_acquireCaches (other : h ≠ .dev) (s : State) (v : Via) (scope : Nat) :
    homeBytes (s.acquireCaches v scope) h = homeBytes s h := by
  have shed : homeBytes (if 3 ≤ scope then s.shedPrivate v fun _ => true else s) h = homeBytes s h := by
    split
    · exact homeBytes_shedPrivate other ..
    · rfl
  unfold State.acquireCaches
  dsimp only
  split
  · exact (homeBytes_recache ..).trans shed
  · exact shed

theorem homeBytes_fenced (other : h ≠ .dev) (s : State) (g : Gang) (e : Entry) (p : Part) : homeBytes (s.fenced g e p) h = homeBytes s h :=
  State.fenced_keeps (fun t => homeBytes t h = homeBytes s h) rfl (fun _ _ kept => (homeBytes_releaseCaches other ..).trans kept)
    fun _ _ kept => (homeBytes_acquireCaches other ..).trans kept

end

/-! ## Agents with nothing in a private cache -/

/-- The agent has no private cache, or an empty one. -/
def State.Bare (s : State) (v : Via) : Prop := ∀ core, v.stake = some core → (s.core core).cache = []

theorem State.shedPrivate_bare {s : State} {v : Via} (bare : s.Bare v) (p : CacheLine → Bool) : s.shedPrivate v p = s := by
  unfold State.shedPrivate
  split
  · rfl
  · rename_i core stake
    simp [bare core stake]

theorem State.pushPrivate_bare {s : State} {v : Via} (bare : s.Bare v) : s.pushPrivate v = s := by
  unfold State.pushPrivate
  split
  · rfl
  · rename_i core stake
    simp [bare core stake]

/-- Below device scope a release and an acquire touch private caches alone. -/
theorem State.fenced_bare {s : State} {g : Gang} {e : Entry} {p : Part} (bare : s.Bare g.via) (atHome : p.port = false)
    (narrow : e.release = true ∨ e.acquire = true → e.scope < 4) : s.fenced g e p = s := by
  have scope : e.scopeAt p = e.scope := by simp [Entry.scopeAt, atHome]
  refine State.fenced_keeps (· = s) rfl (fun release _ same => ?_) fun acquire _ same => ?_
  · have below : ¬ 4 ≤ e.scope := Nat.not_le.2 (narrow (.inl release))
    simp [same, scope, State.releaseCaches, below, State.pushPrivate_bare bare]
  · have below : ¬ 4 ≤ e.scope := Nat.not_le.2 (narrow (.inr acquire))
    simp [same, scope, State.acquireCaches, below, State.shedPrivate_bare bare]

theorem Gang.via_bare {s : State} {g : Gang} (h : g.kind = .stake → (s.core g.coreNo).cache = []) : s.Bare g.via := by
  intro core stake
  unfold Gang.via at stake
  split at stake
  · rename_i kind
    cases stake
    exact h kind
  · cases stake

/-! ## The write at its home (spec/05 R109, R110) -/

theorem State.lineFault_of_firstBadLine {s : State} {w : Nat} : ∀ {ls : List Nat}, s.firstBadLine w ls = none → ∀ j ∈ ls, s.lineFault w j = none
  | [], _, _, h => absurd h List.not_mem_nil
  | l :: r, good, j, h => by
    unfold State.firstBadLine at good
    split at good
    · cases good
    · rename_i first
      rcases List.mem_cons.1 h with rfl | h
      · exact first
      · exact State.lineFault_of_firstBadLine good j h

/-- A write to lines that the world can read. -/
theorem State.writeDev_good {s : State} {w a : Nat} {bs : List Byte} (good : s.firstBadLine w (linesOf a bs.length) = none) :
    ∃ t, s.writeDev w a bs = .ok t ∧ t.mem = s.mem.writeBytes a bs := by
  have part : s.firstBadLine w ((linesOf a bs.length).filter fun l => !coversLine a bs.length l) = none :=
    State.firstBadLine_eq_none fun j hj => State.lineFault_of_firstBadLine good j (List.mem_filter.1 hj).1
  simp only [State.writeDev, part]
  exact ⟨_, rfl, rfl⟩

/-- t is s with bytes written at a part's home, and its gangs and contexts. -/
structure State.Wrote (s : State) (p : Part) (bs : List Byte) (t : State) : Prop where
  gangs : t.gangs = s.gangs
  ctxs : t.ctxs = s.ctxs
  bytes : homeBytes t p.home = (homeBytes s p.home).writeBytes p.addr bs

/-- Bytes go to host or peer memory through a port. -/
theorem State.writeFar_wrote {s : State} {id : EntryId} {c : Nat} {p : Part} {bs : List Byte} (port : p.port = true) :
    s.Wrote p bs (s.writeFar id c p bs) := by
  have gangs : (s.putPort p.home p.addr bs).gangs = s.gangs := by
    unfold State.putPort
    split <;> rfl
  have ctxs : (s.putPort p.home p.addr bs).ctxs = s.ctxs := by
    unfold State.putPort
    split <;> rfl
  refine ⟨gangs, ctxs, ?_⟩
  cases home : p.home with
  | host => simp only [State.writeFar, State.putPort, homeBytes, home]
  | peer d => simp only [State.writeFar, State.putPort, homeBytes, home, tget_tset_same, Option.getD_some]
  | dev => simp [Part.port, home] at port
  | devreg => simp [Part.port, home] at port
  | scratch k => simp [Part.port, home] at port
  | handle k => simp [Part.port, home] at port

/-- A store's bytes reach host or peer memory, a cluster's own memory, or device memory past the caches. -/
theorem State.writeOp_wrote {s : State} {id : EntryId} {v : Via} {w scope : Nat} {p : Part} {bs : List Byte} (len : bs.length = p.len)
    (memory : p.home ≠ .devreg) (device : p.home = .dev → p.cached = false ∧ s.firstBadLine w (linesOf p.addr p.len) = none ∧ s.Bare v) :
    ∃ t, s.writeOp id v w scope p bs = .ok t ∧ s.Wrote p bs t := by
  have within (atHome : p.port = false) {t : State} (written : s.writeHome v w scope p bs = .ok t)
      (bytes : homeBytes t p.home = (homeBytes s p.home).writeBytes p.addr bs) : ∃ t, s.writeOp id v w scope p bs = .ok t ∧ s.Wrote p bs t := by
    have beside := beside_writeHome written
    exact ⟨t, (if_neg (Bool.eq_false_iff.1 atHome)).trans written, beside.gangs, beside.ctxs, bytes⟩
  have beyond (port : p.port = true) : ∃ t, s.writeOp id v w scope p bs = .ok t ∧ s.Wrote p bs t :=
    ⟨s.writeFar id v.cluster p bs, if_pos port, State.writeFar_wrote port⟩
  cases home : p.home with
  | dev =>
    obtain ⟨uncached, good, bare⟩ := device home
    obtain ⟨t, written, mem⟩ := State.writeDev_good (bs := bs) (len ▸ good)
    refine within (by simp [Part.port, home]) (t := (t.markExt p.addr).putCachedBytes v.cluster w p.addr false bs) ?_ ?_
    · simp [State.writeHome, home, uncached, State.shedPrivate_bare bare, written]
    · rw [home]
      exact (homeBytes_recache ..).trans ((homeBytes_markExt ..).trans mem)
  | devreg => exact absurd home memory
  | scratch k =>
    refine within (by simp [Part.port, home]) (by simp only [State.writeHome, home]; rfl) ?_
    simp only [home, homeBytes, State.cluster_modCluster_same]
  | handle k =>
    refine within (by simp [Part.port, home]) (by simp only [State.writeHome, home]; rfl) ?_
    simp only [home, homeBytes, State.cluster_modCluster_same]
  | host => exact beyond (by simp [Part.port, home])
  | peer d => exact beyond (by simp [Part.port, home])

theorem State.recordTag_eq (s : State) (e : Entry) (q : SlotOp) (p : Part) (v : Nat) : ∃ ts, s.recordTag e q p v = { s with tags := ts } := by
  unfold State.recordTag
  split
  · exact ⟨_, rfl⟩
  · exact ⟨s.tags, rfl⟩

theorem State.Wrote.recordTag {s t : State} {p : Part} {bs : List Byte} (h : s.Wrote p bs t) (e : Entry) (q : SlotOp) (v : Nat) :
    s.Wrote p bs (t.recordTag e q p v) := by
  obtain ⟨ts, tagged⟩ := t.recordTag_eq e q p v
  rw [tagged]
  refine ⟨h.gangs, h.ctxs, Eq.trans ?_ h.bytes⟩
  cases p.home <;> rfl

/-! ## The store -/

/-- An operation of one part, nothing of which is performed, is that part. -/
theorem SlotOp.pieces_one {o : SlotOp} {p : Part} (parts : o.parts = [p]) (whole : o.got = []) : o.pieces = [o] := by
  cases o
  simp_all [SlotOp.pieces, SlotOp.piecesFrom]

section
variable {s : State} {id : EntryId} {g : Gang} {sk : Skein} {e : Entry} {o : SlotOp} {p : Part} {t : Nat}

theorem State.performOp_one {s1 : State} {v : Nat} (parts : o.parts = [p]) (whole : o.got = []) (sent : o.stage = .sent)
    (piece : s.performPiece id g e o p = .ok (v, s1)) : ∃ v', s.performOp id g e o = .ok (v', s1) := by
  refine ⟨ofBytes (bytesOf p.len v ++ []), ?_⟩
  simp only [State.performOp, SlotOp.pieces_one parts whole, State.performPieces, parts, sent, piece, if_true]
  rfl

theorem State.portLost_home (s : State) (w : Nat) (h : p.port = false) : s.portLost w p = false := by
  unfold State.portLost
  cases home : p.home with
  | host => simp [Part.port, home] at h
  | peer d => simp [Part.port, home] at h
  | _ => rfl

/-- A store that is not recorded as performed yet writes its bytes. -/
theorem State.performPiece_store (store : e.kind = 3 ∨ e.kind = 4) (fresh : e.cls = 1 → findTag s.tags e.tag o.slot o.va = none)
    (reached : p.port = true → s.portLost (s.worldOf g) p = false) (unchecked : s.checking (s.partOfCluster g.cluster) = false)
    (far : o.near = false) {s1 : State}
    (written : (s.fenced g e p).writeOp id g.via (s.worldOf g) (e.scopeAt p) p (bytesOf p.len o.data) = .ok s1) :
    s.performPiece id g e o p = .ok (0, s1.recordTag e o p 0) := by
  have new : (if e.cls = 1 then findTag s.tags e.tag o.slot o.va else none) = none := by
    split
    · exact fresh ‹_›
    · rfl
  have up : s.portLost (s.worldOf g) p = false := by
    by_cases port : p.port = true
    · exact reached port
    · exact s.portLost_home _ (Bool.eq_false_iff.2 port)
  have unordered : s.ordOp g e o p = s := by simp [State.ordOp, unchecked]
  have load : ¬(e.kind = 1 ∨ e.kind = 2) := by omega
  simp only [State.performPiece, new, up, unordered, if_neg load, if_pos store, far, Bool.false_eq_true, if_false]
  exact congrArg (Except.map _) written

/-- The store's operation is performed, and its bytes stand at its home. -/
theorem State.performOp_store (store : e.kind = 3 ∨ e.kind = 4) (sent : o.stage = .sent) (whole : o.got = []) (far : o.near = false)
    (parts : o.parts = [p]) (memory : p.home ≠ .devreg)
    (device : p.home = .dev → p.cached = false ∧ s.firstBadLine (s.worldOf g) (linesOf p.addr p.len) = none ∧ s.Bare g.via)
    (reached : p.port = true → s.portLost (s.worldOf g) p = false) (narrow : e.release = true ∨ e.acquire = true → e.scope < 4)
    (unchecked : s.checking (s.partOfCluster g.cluster) = false) (fresh : e.cls = 1 → findTag s.tags e.tag o.slot o.va = none) :
    ∃ v s1, s.performOp id g e o = .ok (v, s1) ∧ s.Wrote p (bytesOf p.len o.data) s1 := by
  have fenced := beside_fenced s g e p
  have still : p.home = .dev → s.fenced g e p = s := fun home =>
    State.fenced_bare (device home).2.2 (by simp [Part.port, home]) narrow
  obtain ⟨s1, written, wrote⟩ := State.writeOp_wrote (s := s.fenced g e p) (id := id) (v := g.via) (w := s.worldOf g) (scope := e.scopeAt p)
    (bytesOf_length p.len o.data) memory fun home => by rw [still home]; exact device home
  have bytes : homeBytes (s.fenced g e p) p.home = homeBytes s p.home := by
    by_cases home : p.home = .dev
    · rw [still home]
    · exact homeBytes_fenced home ..
  have whole_write : s.Wrote p (bytesOf p.len o.data) s1 :=
    ⟨wrote.gangs.trans fenced.gangs, wrote.ctxs.trans fenced.ctxs, by rw [wrote.bytes, bytes]⟩
  obtain ⟨v, performed⟩ := State.performOp_one parts whole sent (State.performPiece_store store fresh reached unchecked far written)
  exact ⟨v, _, performed, whole_write.recordTag ..⟩

/-- Where every home has room, none is made. -/
theorem State.makeTagRoom_fit (fit : s.tagsFit e o = true) : s.makeTagRoom e o = s := by
  refine List.foldlRecOn (motive := (· = s)) (s.tagNeeds e o) _ rfl fun t same h needed => ?_
  rw [same]
  exact if_pos (List.all_eq_true.1 fit h needed)

/-- A store that nothing holds back is performed, and its entry ends with it. -/
theorem State.performStore_sent {s1 : State} {v : Nat} (h : Named s id g sk e) (op : e.op t = some o) (store : e.kind = 3 ∨ e.kind = 4)
    (sent : o.stage = .sent) (accepted : o.parts.any Part.port = true → e.portacc = true) (go : sk.mayGo e o = true)
    (free : s.heldByFrame g e o = false) (fit : s.tagsFit e o = true) (performed : s.performOp id g e o = .ok (v, s1)) :
    s.performStore id t = (s1.putOp id (o.ended v)).closeId id := by
  have kind : (!(storeLike e.kind || e.kind == 8 || e.kind == 9 || e.kind == 0x0A) || hostAtom e o || o.performed) = false := by
    rcases store with h | h <;> simp [storeLike, hostAtom, SlotOp.performed, h, sent]
  have port : (!loadLike e.kind && o.parts.any Part.port && !e.portacc) = false := by
    by_cases any : o.parts.any Part.port = true
    · simp [accepted any]
    · simp [Bool.eq_false_iff.2 any]
  have clear : s.clearToGo g sk e o = true := by simp [State.clearToGo, go, free, fit]
  have done : loadLike e.kind = false := by rcases store with h | h <;> simp [loadLike, h]
  simp only [State.performStore, Named.located h, op, State.makeTagRoom_fit fit, kind, port, clear, performed, Bool.not_true,
    Bool.false_eq_true, if_false]
  simp only [done, Bool.false_eq_true, if_false]
  rfl

/-- No context that does not run keeps the gang, so no write of it is late. -/
theorem State.performLate_none (h : ∀ c ∈ s.ctxs, c.st ≠ .running → findGang c.saved id.gang = none) (t : Nat) : s.performLate id t = s := by
  have nowhere : s.locatedSaved id = none := by
    refine List.findSome?_eq_none_iff.2 fun c hc => ?_
    obtain ⟨mem, stopped⟩ := List.mem_filter.1 hc
    rw [h c mem (bne_iff_ne.1 stopped)]
  rw [State.performLate, nowhere]

end

/-- Settles O42: the operation writes its bytes at its home, past what a release or acquire moves elsewhere, and its entry ends. -/
theorem storesArePerformed : Obligations.StoresArePerformed := by
  intro s id g sk e t o p named open_ ht store found sent whole far parts len _ memory device port may shared free fit narrow unchecked fresh
    unsaved wf
  have op : e.op t = some o := found
  have numbered := List.find?_some found
  have slot : o.slot = t := beq_iff_eq.1 numbered
  have accepted : o.parts.any Part.port = true → e.portacc = true := fun any => (port (by simpa [parts] using any)).1
  obtain ⟨v, s1, performed, wrote⟩ := State.performOp_store (id := id) (g := g) store sent whole far parts memory
    (fun home => ⟨(device home).1, (device home).2.1, Gang.via_bare (device home).2.2⟩) (fun h => (port h).2) narrow unchecked
    fun cls => by rw [slot]; exact fresh cls
  have start := Named.entryIs named open_ wrote.gangs
  have step := State.performStore_sent named op store sent accepted (Skein.mayGo_of may shared) free fit performed
  have late : ((s1.putOp id (o.ended v)).closeId id).performLate id t = (s1.putOp id (o.ended v)).closeId id := by
    have put := start.putOp (o.ended v)
    refine State.performLate_none (fun c hc => ?_) t
    rw [(recorded_closeId put.going).ctxs, put.recorded.ctxs, wrote.ctxs] at hc
    exact unsaved c hc
  obtain ⟨recorded, sk', skein, fibres, done, -⟩ := start.ends (o.ended v)
  refine ⟨_, sk', ?_, skein, fun a => ?_, fun n x stood => ?_, fun rest acked counted => ?_⟩
  · rw [exec_storePerformed, execStorePerformed, slotsOf_oneSlot ht, List.foldl_cons, List.foldl_nil, step, late]
  · rw [recorded.homeBytes, wrote.bytes, Memory.read_writeBytes_bytesOf _ _ _ _ _ wf]
  · rw [fibres, stood, Option.map_some]
  · have last : (e.putOp (o.ended v)).finished = true :=
      Entry.finished_last fun y hy other => rest y hy fun is => other (is ▸ ⟨rfl, rfl⟩)
    obtain ⟨l, st, gone⟩ := done last acked counted
    rw [Skein.lower_store _ (store.imp_right .inl)] at l st
    exact ⟨st, l, gone⟩

end Sys2Proof.Machine
end

section
/-! PROOFS, O43. Port acceptances, acknowledgements, the retirement of tags, and multi-clock results. -/

namespace Sys2Proof.Machine

open Sys2Proof.Says

/-! ## Ports (spec/05 R133, spec/13 R331) -/

theorem Skein.releaseCount_held {sk : Skein} {seq : Nat} {e : Entry} (entry : sk.entry seq = some e) (held : e.portacc = false) :
    sk.releaseCount seq = (sk.lower e.kind).modEntry seq fun x => { x with portacc := true } := by
  simp only [Skein.releaseCount, entry, held, Bool.false_eq_true, if_false]

theorem Skein.ackEntry_waiting {sk : Skein} {seq : Nat} {e : Entry} (entry : sk.entry seq = some e) (waiting : e.acked = false) :
    sk.ackEntry seq = { sk.modEntry seq fun x => { x with acked := true } with ackc := sk.ackc - 1 } := by
  simp only [Skein.ackEntry, entry, waiting, Bool.false_eq_true, if_false]

/-- What the port's acceptance makes of an entry of a class and tag. -/
def Entry.parkedAs (tag : W64) (x : Entry) : Entry := { x with cls := if x.cls = 0 then 2 else x.cls, tag := tag }

/-- The tag that an entry has at its port, and the state in which it has one. -/
def State.portTag (s : State) (g : Gang) (e : Entry) : W64 × State := if e.cls = 0 ∧ e.tag = 0 then s.takeTag g else (e.tag, s)

theorem State.portTag_frame (s : State) (g : Gang) (e : Entry) : ∃ cs, (s.portTag g e).2 = { s with cores := cs } := by
  unfold State.portTag
  split
  · exact ⟨_, rfl⟩
  · exact ⟨s.cores, rfl⟩

theorem acceptAtPort_accepts {s : State} {id : EntryId} {g : Gang} {sk : Skein} {e : Entry} (h : Named s id g sk e)
    (write : e.kind = 3 ∨ e.kind = 4 ∨ e.kind = 7) (waiting : e.acked = false) (held : e.portacc = false)
    (ready : ∀ o ∈ e.ops, if o.parts.any Part.port then o.stage ≠ .sent ∨ sk.mayPerform e o = true else o.stage = .done) :
    s.acceptAtPort id = (s.portTag g e).2.modSkein id.gang id.skein fun y =>
      (y.modEntry id.seq (Entry.parkedAs (s.portTag g e).1)).releaseCount id.seq := by
  have goes : (e.ops.all fun o => if o.parts.any Part.port then o.performed || sk.mayPerform e o else o.complete) = true := by
    refine List.all_eq_true.2 fun o ho => ?_
    have may := ready o ho
    split
    · rw [if_pos ‹_›] at may
      simpa [SlotOp.performed] using may
    · rw [if_neg ‹_›] at may
      simp [SlotOp.complete, may]
  have kind : (e.kind == 3 || e.kind == 4 || e.kind == 7) = true := by simpa [or_assoc] using write
  simp only [State.acceptAtPort, Named.located h, kind, waiting, held, goes, Bool.not_true, Bool.or_false, Bool.false_eq_true, if_false]
  rfl

theorem portAccept_lowers {s : State} {id : EntryId} {g : Gang} {sk : Skein} {e : Entry} (h : Named s id g sk e)
    (write : e.kind = 3 ∨ e.kind = 4 ∨ e.kind = 7) (waiting : e.acked = false) (held : e.portacc = false)
    (ready : ∀ o ∈ e.ops, if o.parts.any Part.port then o.stage ≠ .sent ∨ sk.mayPerform e o = true else o.stage = .done) :
    ∃ (u : State) (sk' : Skein), exec (.portAccept id) s = .next u ∧ u.skein id.gang id.skein = some sk' ∧ sk'.s = sk.s - 1 ∧
      sk'.ackc = sk.ackc ∧ (∀ q ∈ sk'.record, q.seq = id.seq → q.portacc = true) ∧
      sk'.record.map (·.seq) = sk.record.map (·.seq) ∧ u.mem = s.mem ∧ u.host = s.host := by
  have accepted := acceptAtPort_accepts h write waiting held ready
  obtain ⟨cs, frame⟩ := s.portTag_frame g e
  rw [frame] at accepted
  let y := sk.modEntry id.seq (Entry.parkedAs (s.portTag g e).1)
  have entry : y.entry id.seq = some (e.parkedAs (s.portTag g e).1) :=
    Skein.entry_changed (Named.entry h) (f := Entry.parkedAs (s.portTag g e).1) fun _ => rfl
  have released : y.releaseCount id.seq = ({ y with s := y.s - 1 } : Skein).modEntry id.seq fun x => { x with portacc := true } := by
    rw [Skein.releaseCount_held entry held]
    exact congrArg (Skein.modEntry · _ _) (y.lower_store write)
  refine ⟨(s.acceptAtPort id).clearTried, (y.releaseCount id.seq).mapFibres fun _ => untried, ?_, ?_, ?_, ?_, ?_, ?_, ?_, ?_⟩
  · rw [exec_portAccept, execPortAccept]
  · have stood : ({ s with cores := cs } : State).skein id.gang id.skein = some sk := Named.skein h
    rw [accepted, State.skein_clearTried, State.skein_modSkein_same, stood, Option.map_some, Option.map_some]
  · rw [released]
    rfl
  · rw [released]
    rfl
  · rw [released]
    intro q hq numbered
    obtain ⟨q0, -, rfl⟩ := List.mem_map.1 hq
    split
    · rfl
    · rename_i other
      rw [if_neg other] at numbered
      exact absurd numbered other
  · rw [released]
    exact (Skein.seqs_modEntry _ id.seq (f := fun x => { x with portacc := true }) fun _ => rfl).trans (sk.seqs_modEntry id.seq fun _ => rfl)
  · rw [accepted, (recorded_clearTried _).mem, (recorded_modSkein ..).mem]
  · rw [accepted, (recorded_clearTried _).host, (recorded_modSkein ..).host]

/-! ## Acknowledgements (spec/03 R64) -/

theorem writeAck_ends {s : State} {id : EntryId} {g : Gang} {sk : Skein} {e : Entry} (h : Named s id g sk e) (waiting : e.acked = false)
    (accepted : e.portacc = true) (done : ∀ o ∈ e.ops, o.stage = .done) :
    ∃ (u : State) (sk' : Skein), exec (.writeAck id) s = .next u ∧ u.skein id.gang id.skein = some sk' ∧ sk'.ackc = sk.ackc - 1 ∧
      sk'.s = sk.s ∧ (∀ q ∈ sk'.record, q.seq ≠ id.seq) ∧ u.mem = s.mem := by
  have finished : e.finished = true := List.all_eq_true.2 fun o ho => beq_iff_eq.2 (done o ho)
  have acks : s.ackWrite id = (s.modSkein id.gang id.skein fun y => y.ackEntry id.seq).closeId id := by
    simp only [State.ackWrite, Named.located h, waiting, accepted, finished, Bool.not_true, Bool.or_self, Bool.false_and, Bool.false_eq_true, if_false]
  let y : Skein := { sk.modEntry id.seq fun x => { x with acked := true } with ackc := sk.ackc - 1 }
  have acked : sk.ackEntry id.seq = y := Skein.ackEntry_waiting (Named.entry h) waiting
  have entry : y.entry id.seq = some { e with acked := true } :=
    Skein.entry_changed (Named.entry h) (f := fun x => { x with acked := true }) fun _ => rfl
  have dropped : y.close id.seq = { y with record := y.record.filter fun x => x.seq != id.seq } := by
    rw [Skein.close_finished entry finished rfl, Skein.dropEntry_acked entry rfl]
    exact congrArg (fun z : Skein => { z with record := z.record.filter fun x => x.seq != id.seq }) (if_pos accepted)
  refine ⟨(s.ackWrite id).clearTried, (y.close id.seq).mapFibres fun _ => untried, ?_, ?_, ?_, ?_, ?_, ?_⟩
  · rw [exec_writeAck, execWriteAck]
  · rw [acks, State.skein_clearTried, State.skein_closeId, State.skein_modSkein_same, Named.skein h, Option.map_some, Option.map_some, Option.map_some,
      acked]
  · rw [dropped]
    rfl
  · rw [dropped]
    rfl
  · rw [Skein.close_finished entry finished rfl]
    exact y.dropEntry_gone id.seq
  · rw [acks, (recorded_clearTried _).mem, State.mem_closeId, State.modSkein_mem]

/-! ## Tags (spec/13 R334) -/

theorem State.tagLive_false {s : State} {tag : W64} (h : ∀ g ∈ s.allGangs, ∀ sk ∈ g.skeins, ∀ e ∈ sk.record, e.tag ≠ tag) :
    s.tagLive tag = false := by
  refine List.any_eq_false.2 fun g hg => ?_
  refine Bool.eq_false_iff.1 <| List.any_eq_false.2 fun sk hsk => ?_
  refine Bool.eq_false_iff.1 <| List.any_eq_false.2 fun e he => ?_
  have other : (e.tag == tag) = false := beq_eq_false_iff_ne.2 (h g hg sk hsk e he)
  simp [other]

theorem State.tagLive_true {s : State} {tag : W64} (h : ∃ g ∈ s.allGangs, ∃ sk ∈ g.skeins, ∃ e ∈ sk.record, e.tag = tag) :
    s.tagLive tag = true := by
  obtain ⟨g, hg, sk, hsk, e, he, same⟩ := h
  refine List.any_eq_true.2 ⟨g, hg, List.any_eq_true.2 ⟨sk, hsk, List.any_eq_true.2 ⟨e, he, ?_⟩⟩⟩
  rw [beq_iff_eq.2 same, Bool.true_or]

/-! ## Multi-clock results (spec/03 R66) -/

theorem Fibre.writeLate_cons {x : Fibre} {p : Nat} {ws : List W32} {r : List (Nat × List W32)} (h : x.late = (p, ws) :: r) :
    x.writeLate = { x.wrPlaces p ws with late := r, redo := if r = [] then none else x.redo } := by
  simp only [Fibre.writeLate, h, List.isEmpty_iff]

/-- Each fibre after the step: that of the slot has its oldest result written, and all may try again. -/
theorem fibreAt_multiClock (s : State) (gk k t n : Nat) :
    (s.modSkein gk k fun sk => { sk with slots := modifyAt sk.slots t fun o => o.map Fibre.writeLate }).clearTried.fibreAt gk k n =
      (s.fibreAt gk k n).map fun x => untried (if n = t then x.writeLate else x) := by
  rw [State.fibreAt, State.skein_clearTried, State.skein_modSkein_same, State.fibreAt]
  cases s.skein gk k with
  | none => rfl
  | some sk =>
    simp only [Option.map_some, Option.bind_some, Skein.fibre_mapFibres, sk.fibre_rewriteOne (f := fun o => o.map Fibre.writeLate) rfl]
    split
    · rw [Option.map_map, Function.comp_def]
    · rfl

/-- Settles O43: each step is a change of one entry of a skein, of the tags, or of one fibre. -/
theorem acceptancesAcknowledgementsAndLateResults : Obligations.AcceptancesAcknowledgementsAndLateResults := by
  refine ⟨fun s id g sk e h => portAccept_lowers h, fun s id g sk e h => writeAck_ends h, fun s tag => ⟨fun dead => ?_, fun live => ?_⟩, ?_⟩
  · refine ⟨s.retireTag tag, ?_, rfl, rfl, rfl⟩
    rw [exec_tagRetire, execTagRetire, State.tagLive_false dead]
    rfl
  · rw [exec_tagRetire, execTagRetire, State.tagLive_true live]
    rfl
  · intro s gk k t x p ws r stood late
    refine ⟨_, exec_multiClockResultWritten gk k t s, ?_, fun n other => ?_, ?_⟩
    · rw [fibreAt_multiClock, stood, Option.map_some, if_pos rfl, Fibre.writeLate_cons late]
    · rw [fibreAt_multiClock]
      simp only [other, if_false]
    · rw [(recorded_clearTried _).mem, State.modSkein_mem]

end Sys2Proof.Machine
end

section
/-! PROOFS, O21. RDX is the fold over the fixed tree of 64 slots, and SCAN the fold in slot order, of leaves in which a signalling NaN is the
quiet one. -/

namespace Sys2Proof

/-! ## A NaN is quietened by its top fraction bit (spec/04 R76) -/

/-- A number with bit k set, in its parts above and below that bit. -/
theorem or_two_pow_eq (n k : Nat) : n ||| 2 ^ k = 2 ^ (k + 1) * (n / 2 ^ (k + 1)) + 2 ^ k + n % 2 ^ k := by
  have parts : 2 ^ (k + 1) * (n / 2 ^ (k + 1)) + 2 ^ k + n % 2 ^ k = 2 ^ k * Nat.bit true (n / 2 ^ (k + 1)) + n % 2 ^ k := by
    rw [Nat.bit_true_apply]
    ring
  rw [parts]
  refine Nat.eq_of_testBit_eq fun j => ?_
  rw [Nat.testBit_or, Nat.testBit_two_pow, Nat.testBit_two_pow_mul_add _ (Nat.mod_lt _ (Nat.two_pow_pos k)), Nat.testBit_mod_two_pow]
  obtain below | rfl | above := Nat.lt_trichotomy j k
  · simp [below, below.ne']
  · simp
  · obtain ⟨d, rfl⟩ := Nat.exists_eq_add_of_lt above
    have place : k + d + 1 - k = d + 1 := by omega
    have same : d + (k + 1) = k + d + 1 := by omega
    rw [if_neg above.not_gt, place, Nat.testBit_bit_succ, Nat.testBit_div_two_pow, same, decide_eq_false above.ne, Bool.or_false]

/-- What the pattern of a NaN holds. -/
theorem FloatFmt.read_nan {fmt : FloatFmt} {v frac : Nat} {neg : Bool} (nan : fmt.read v = .nan neg frac) :
    neg = bitOf v fmt.magBits ∧ v / 2 ^ fmt.fbits % 2 ^ fmt.ebits = 2 ^ fmt.ebits - 1 ∧ frac = v % 2 ^ fmt.fbits * 2 ^ (52 - fmt.fbits) ∧
      (fmt.hasInf = false → v % 2 ^ fmt.fbits = 2 ^ fmt.fbits - 1) := by
  obtain ⟨⟨exponent, fraction⟩, nan⟩ | ⟨_, number⟩ := ite_eq_iff.1 nan
  · obtain ⟨_, infinite⟩ | ⟨_, nan⟩ := ite_eq_iff.1 nan
    · cases infinite
    · cases nan
      exact ⟨rfl, exponent, rfl, fun finite => by simpa [finite] using fraction⟩
  · obtain ⟨_, subnormal⟩ | ⟨_, normal⟩ := ite_eq_iff.1 number
    · cases subnormal
    · cases normal

/-- A pattern's exponent field and sign, above its fraction. -/
theorem FloatFmt.mod_width_div (fmt : FloatFmt) (v : Nat) :
    v % 2 ^ fmt.width / 2 ^ fmt.fbits = v / 2 ^ fmt.fbits % 2 ^ fmt.ebits + 2 ^ fmt.ebits * (v / 2 ^ fmt.magBits % 2) := by
  rw [FloatFmt.width, FloatFmt.magBits, Nat.add_right_comm, Nat.add_comm _ fmt.fbits, pow_add, Nat.mod_mul_right_div_self, Nat.mod_pow_succ,
    Nat.div_div_eq_div_mul, ← pow_add, Nat.add_comm fmt.fbits]

/-- The fraction of all ones makes the greatest magnitude from that of infinity. -/
theorem FloatFmt.infCode_add (fmt : FloatFmt) : fmt.infCode + (2 ^ fmt.fbits - 1) = 2 ^ fmt.magBits - 1 := by
  have exponent : 1 ≤ 2 ^ fmt.ebits := Nat.one_le_two_pow
  have fraction : 1 ≤ 2 ^ fmt.fbits := Nat.one_le_two_pow
  rw [FloatFmt.infCode, FloatFmt.magBits, pow_add, ← Nat.add_sub_assoc fraction, ← Nat.succ_mul, Nat.succ_eq_add_one, Nat.sub_add_cancel exponent]

theorem FloatFmt.withSign_bitOf (fmt : FloatFmt) (v k mag : Nat) :
    fmt.withSign (bitOf v k) mag = 2 ^ fmt.magBits * (v / 2 ^ k % 2) + mag := by
  obtain bit | bit := Nat.mod_two_eq_zero_or_one (v / 2 ^ k) <;> simp [FloatFmt.withSign, bitOf, bit]

/-- The quiet NaN made of a NaN's sign and fraction is its pattern with the top fraction bit set. -/
theorem FloatFmt.nanFrom_read {fmt : FloatFmt} {v frac : Nat} {neg : Bool} (nan : fmt.read v = .nan neg frac) (wide : 0 < fmt.fbits) :
    fmt.nanFrom neg frac = v % 2 ^ fmt.width ||| 2 ^ (fmt.fbits - 1) := by
  obtain ⟨rfl, exponent, rfl, whole⟩ := FloatFmt.read_nan nan
  have low : v % 2 ^ fmt.width % 2 ^ (fmt.fbits - 1) = v % 2 ^ fmt.fbits % 2 ^ (fmt.fbits - 1) := by
    rw [Nat.mod_mod_of_dvd _ (pow_dvd_pow 2 (by rw [FloatFmt.width]; omega)), Nat.mod_mod_of_dvd _ (pow_dvd_pow 2 (Nat.sub_le _ _))]
  have quiet : v % 2 ^ fmt.width ||| 2 ^ (fmt.fbits - 1) = fmt.withSign (bitOf v fmt.magBits)
      (fmt.infCode + 2 ^ (fmt.fbits - 1) + v % 2 ^ fmt.fbits % 2 ^ (fmt.fbits - 1)) := by
    rw [or_two_pow_eq, Nat.sub_add_cancel wide, low, fmt.mod_width_div, exponent, FloatFmt.withSign_bitOf, FloatFmt.infCode, FloatFmt.magBits, pow_add]
    ring
  rw [quiet, FloatFmt.nanFrom]
  split
  · rw [Nat.mul_div_cancel _ (Nat.two_pow_pos _)]
  next finite =>
    have half : 2 ^ (fmt.fbits - 1) + 2 ^ (fmt.fbits - 1) = 2 ^ fmt.fbits := by rw [← Nat.two_mul, ← pow_succ', Nat.sub_add_cancel wide]
    have ones : (2 ^ fmt.fbits - 1) % 2 ^ (fmt.fbits - 1) = 2 ^ (fmt.fbits - 1) - 1 := by
      rw [Nat.mod_eq_sub_mod (by omega), Nat.mod_eq_of_lt (by have := Nat.two_pow_pos (fmt.fbits - 1); omega)]
      omega
    rw [FloatFmt.nanBits, if_neg finite, whole (by simpa using finite), ones, ← FloatFmt.infCode_add]
    congr 1
    omega

namespace Machine

open Sys2Proof.Says

/-! ## Leaves (spec/08 R227) -/

theorem codeFloat_wide {c : Nat} {fmt : FloatFmt} (float : codeFloat c = some fmt) : 0 < fmt.fbits := by
  unfold codeFloat at float
  split at float <;> cases float <;> decide

/-! ## The tree of 64 slots (spec/08 R227) -/

/-- A node is its two sides combined; a side without a contributor passes the other on. -/
theorem treeNode_succ (step : Nat → Nat → Nat) (leaves : Nat → Option Nat) (n t : Nat) :
    treeNode step leaves (n + 1) t = (treeNode step leaves n t).merge step (treeNode step leaves n (t + 2 ^ n)) := by
  rw [treeNode]
  cases treeNode step leaves n t <;> cases treeNode step leaves n (t + 2 ^ n) <;> rfl

section

variable (op c : Nat) (fm : Fmode)

theorem reduceLevel_cons (a b : Option Nat) (l : List (Option Nat)) :
    reduceLevel op c fm (a :: b :: l) = a.merge (reduceStep op c fm) b :: reduceLevel op c fm l := by
  cases a <;> cases b <;> rfl

theorem reduceLevel_range (g : Nat → Option Nat) : ∀ k a, reduceLevel op c fm ((rangeFrom (2 * a) (2 * k)).map g) =
    (rangeFrom a k).map fun i => (g (2 * i)).merge (reduceStep op c fm) (g (2 * i + 1))
  | 0, _ => rfl
  | k + 1, a => by
    rw [Nat.mul_succ]
    simp only [rangeFrom, List.map_cons]
    rw [reduceLevel_cons, ← reduceLevel_range g k (a + 1), Nat.mul_succ]

/-- The levels above the nodes of 2^d slots each end in the one node of all their slots. -/
theorem reduceTree_nodes (leaves : Nat → Option Nat) : ∀ n d,
    reduceTree op c fm n ((rangeFrom 0 (2 ^ n)).map fun i => treeNode (reduceStep op c fm) leaves d (2 ^ d * i)) =
      [treeNode (reduceStep op c fm) leaves (d + n) 0]
  | 0, d => by simp [rangeFrom, reduceTree]
  | n + 1, d => by
    have level := reduceLevel_range op c fm (fun i => treeNode (reduceStep op c fm) leaves d (2 ^ d * i)) (2 ^ n) 0
    have above (i : Nat) : (treeNode (reduceStep op c fm) leaves d (2 ^ d * (2 * i))).merge (reduceStep op c fm)
        (treeNode (reduceStep op c fm) leaves d (2 ^ d * (2 * i + 1))) = treeNode (reduceStep op c fm) leaves (d + 1) (2 ^ (d + 1) * i) := by
      rw [treeNode_succ, pow_succ, Nat.mul_assoc, Nat.mul_succ]
    rw [reduceTree, pow_succ', level, funext above, reduceTree_nodes leaves n (d + 1), Nat.add_right_comm, Nat.add_assoc]

theorem reduceTree_root (leaves : Nat → Option Nat) :
    (reduceTree op c fm 6 ((rangeFrom 0 64).map leaves)).head?.join = treeNode (reduceStep op c fm) leaves 6 0 := by
  have slots : leaves = fun i => treeNode (reduceStep op c fm) leaves 0 (2 ^ 0 * i) := by
    funext i
    rw [pow_zero, Nat.one_mul, treeNode]
  conv_lhs => rw [slots]
  exact congrArg (·.head?.join) (reduceTree_nodes op c fm leaves 6 0)

end

/-! ## The words -/

/-- A word whose effect in each fibre is by itself. -/
theorem effect_of_perFibre {i : Instr} {f : Batch → Nat → Fibre → Fibre} {g : Batch → Nat → Fibre → Out}
    (runs : ∀ s : State, exec i s = s.perFibre i g) (same : ∀ b t x, g (b.taking i) t x = .next (f b t x)) : Effect i f := by
  intro s b ready h
  rw [runs, h.perFibre, funext₂ (same b)]
  rfl

/-- Settles O21: the levels of the model's list are the nodes of the tree, and its leaves are the quiet values. -/
theorem reductionsAndScans : Obligations.ReductionsAndScans := by
  unfold Obligations.ReductionsAndScans
  intro regs leaf fm
  have sameRegs : codeRegs = regs := rfl
  have sameLeaf (c : Nat) (m : Fmode) (r : Reg) : reduceLeaf c m r = leaf c m r := by
    funext x
    dsimp only [reduceLeaf, leaf]
    rw [sameRegs]
    cases float : codeFloat c with
    | none => rfl
    | some fmt =>
      dsimp only
      cases value : fmt.read (x.rdVal r.toNat (regs c)) with
      | nan neg frac => exact FloatFmt.nanFrom_read value (codeFloat_wide float)
      | inf neg => rfl
      | fin neg m e => rfl
  have sameMode (xs : List (Nat × Fibre)) : lowestFm xs = fm xs := by cases xs <;> rfl
  constructor
  · refine fun f => effect_of_perFibre (exec_rdx f) fun b _ x => ?_
    dsimp only
    rw [reduceTree_root, Batch.taking_run, sameMode, sameLeaf]
    rfl
  · refine fun f => effect_of_perFibre (exec_scan f) fun b t x => ?_
    have upTo (u : Nat) : (if bitOf f.sub.toNat 3 then decide (u < t) else decide (u ≤ t)) =
        decide (if f.sub.toNat.testBit 3 then u < t else u ≤ t) := by
      rw [bitOf_eq_testBit]
      cases f.sub.toNat.testBit 3 <;> rfl
    dsimp only
    simp only [Batch.taking_run, sameMode, sameLeaf, upTo]
    cases ((b.passing (.scan f)).filter fun p => decide (if f.sub.toNat.testBit 3 then p.1 < t else p.1 ≤ t)).map fun p =>
      leaf f.imm.toNat (fm (b.passing (.scan f))) f.sa p.2 <;> rfl

end Machine
end Sys2Proof
end

section
/-! PROOFS, O23. A store or atomic at its issue: what its word asks for, a handle-local access performed at once, and the entry that another one makes. -/

namespace Sys2Proof.Machine

open Sys2Proof.Says

/-! ## What a memory word asks for (spec/06 R156 to R158, spec/09 R241) -/

theorem sizeBytes_eq_bytes (f : MF) : sizeBytes f.size = bytes f := by
  have each : ∀ z : BitVec 3, sizeBytes z =
      match z.toNat with | 0 => 1 | 1 => 2 | 2 => 4 | 3 => 8 | 4 => 16 | 5 => 8 | 6 => 2 | _ => 4 := by decide
  exact each f.size

theorem memAddr_eq (f : MF) (indexed : Bool) (off : Int) (unit : Nat) (y : Fibre) : memAddr f off unit (bytes f) indexed y =
    y.pair f.base.toNat + (if indexed = true ∧ f.index ≠ 0 then (y.rd f.index.toNat).signExtend 64 * BitVec.ofNat 64 (bytes f) else 0)
      + BitVec.ofInt 64 (off * unit) := by
  have scaled : BitVec.ofInt 64 ((y.rd f.index.toNat).toInt * (bytes f : Nat)) = (y.rd f.index.toNat).signExtend 64 * BitVec.ofNat 64 (bytes f) := by
    rw [BitVec.ofInt_mul, BitVec.ofInt_natCast, BitVec.signExtend]
  have used : (indexed && f.index != 0) = decide (indexed = true ∧ f.index ≠ 0) := by
    rw [Bool.decide_and, Bool.decide_eq_true, decide_not, bne, Bool.beq_eq_decide_eq]
  simp only [memAddr, used, decide_eq_true_eq, scaled]

theorem Batch.addr_eq_address (b : Batch) (i : Instr) (f : MF) (indexed : Bool) (off : Int) (unit : Nat) (x : Fibre) :
    (b.taking i).addr f off unit (bytes f) indexed x = address f indexed off unit b x := memAddr_eq ..

theorem storeData_eq_group (f : MF) (x : Fibre) (r : Reg) : storeData x r (bytes f) = group f x r := by
  rw [storeData, group, Nat.pow_mul]

theorem atomOff_eq (f : MF) : atomOff f = (f.off.setWidth 8).toInt := by
  rw [atomOff, toSigned, BitVec.toInt_eq_toNat_cond, BitVec.toNat_setWidth]
  omega

theorem scopeFor_eq_scopeOf (sc : Scope) (sp : Space) (host : Bool) : scopeFor (scopeNum sc) sp host = scopeOf sc sp host := by
  cases host <;> cases sc <;> cases sp <;> rfl

/-- What a word of a form asks of a fibre. -/
def askOf (f : MF) (m : Form) (b : Batch) : Nat → Fibre → MemAsk := fun _ x =>
  ⟨f.space, m.acc b, address f m.indexed m.offset (bytes f) b x, bytes f, m.align, m.aop, m.cas, f.hint.toNat⟩

/-- The operation that it makes of a fibre's parts. -/
def opOf (f : MF) (m : Form) (b : Batch) (t : Nat) (x : Fibre) (ps : List Part) : SlotOp :=
  .new t x.uid (m.dst x) (address f m.indexed m.offset (bytes f) b x) ps (m.data x) (m.cmp x)

/-- What its entry says besides; `regs` registers take a load's value. -/
def kindOf (f : MF) (m : Form) (regs : Nat) : MemKind := ⟨m.kind, bytes f, m.aop, regs, scopeNum f.scope, f.space, f.order, f.ua⟩

theorem kindCases {k : Nat} (store : 3 ≤ k) (known : k ≤ 7) : k = 3 ∨ k = 4 ∨ k = 5 ∨ k = 6 ∨ k = 7 := by omega

theorem atomicKind_eq {k : Nat} (known : k ≤ 7) : (k == 5 || k == 6 || k == 7) = decide (5 ≤ k) := by
  rw [Bool.eq_iff_iff]
  simp only [Bool.or_eq_true, beq_iff_eq, decide_eq_true_eq]
  omega

/-! ## A handle-local access (spec/05 R98) -/

/-- The part is the range that a fibre asks for in a cluster's handle-local memory. -/
def Part.LocalTo (p : Part) (c : Nat) (q : MemAsk) : Prop := p.home = .handle c ∧ p.addr = q.va.toNat ∧ p.len = q.n

theorem State.checkLocal_ok {s s1 : State} {c th va n al : Nat} {ps : List Part} (h : s.checkLocal c th va n al = .ok ps s1) :
    ps = [.plain (.handle c) va n] := by
  unfold State.checkLocal at h
  split_ifs at h
  injection h with h _
  exact h.symm

theorem State.checkAsk_local {s s1 : State} {b : Batch} {x : Fibre} {q : MemAsk} {ps : List Part} (space : q.space = .localMem)
    (h : s.checkAsk b x q = .ok ps s1) : ∃ p : Part, ps = [p] ∧ p.LocalTo b.g.cluster q := by
  simp only [State.checkAsk, space] at h
  cases checked : s.checkLocal b.g.cluster b.g.core q.va.toNat q.n q.align with
  | fault c a t => simp [checked] at h
  | wait t => simp [checked] at h
  | ok qs t =>
    obtain rfl := State.checkLocal_ok checked
    simp only [checked] at h
    split_ifs at h
    all_goals
      injection h with h _
      exact ⟨_, h.symm, rfl, rfl, rfl⟩

theorem State.askAll_local {b : Batch} {ask : Nat → Fibre → MemAsk} (space : ∀ t x, (ask t x).space = .localMem) :
    ∀ {l : List (Nat × Fibre)} {s s1 : State} {oks : List (Nat × Fibre × List Part)}, s.askAll b ask l = .done [] oks s1 →
      ∀ o ∈ oks, ∃ p : Part, o.2.2 = [p] ∧ p.LocalTo b.g.cluster (ask o.1 o.2.1)
  | [], s, s1, oks, h => by
    injection h with _ h _
    simp [← h]
  | (t, x) :: r, s, s1, oks, h => by
    simp only [State.askAll] at h
    split at h
    · cases h
    · split at h
      · cases h
      · injection h with h _ _
        cases h
    · rename_i ps s' checked
      split at h
      · cases h
      · rename_i fs ops s'' rest
        injection h with h1 h2 _
        subst h1 h2
        intro o ho
        rcases List.mem_cons.1 ho with rfl | ho
        · exact State.checkAsk_local (space t x) checked
        · exact State.askAll_local space rest o ho

/-- Bytes written in a cluster's handle-local memory. -/
def State.putLocal (s : State) (c a : Nat) (bs : List Byte) : State := s.modCluster c fun k => { k with local_ := k.local_.writeBytes a bs }

theorem State.readParts_local (s : State) {v : Via} {w scope c : Nat} {p : Part} (home : p.home = .handle c) :
    s.readParts v w scope [p] = .ok ((s.cluster c).local_.readBytes p.addr p.len, s) := by
  simp [State.readParts, State.readHome, home]

theorem State.writeParts_local (s : State) {v : Via} {w scope c : Nat} {p : Part} {bs : List Byte} (home : p.home = .handle c)
    (len : bs.length = p.len) : s.writeParts v w scope [p] bs = .ok (s.putLocal c p.addr bs) := by
  simp [State.writeParts, State.writeHome, home, ← len, State.putLocal]

/-- What a handle-local access of an operation o at address a makes of its fibre and of the state. -/
def State.accessLocal (s : State) (b : Batch) (m : MemKind) (x : Fibre) (o : SlotOp) (a : Nat) : Fibre × State :=
  let old := ofBytes ((s.cluster b.g.cluster).local_.readBytes a m.size)
  if m.kind = 1 ∨ m.kind = 2 then (x.wrPlaces o.dst (loadWords m.kind m.aop m.size old), s)
  else
    (if m.kind = 5 ∨ m.kind = 6 then x.wrPlaces o.dst (wordsOf (max 1 (m.size / 4)) old) else x,
      s.putLocal b.g.cluster a (bytesOf m.size (if m.kind = 3 ∨ m.kind = 4 then o.data else atomNew m.aop (8 * m.size) old o.data o.cmp)))

theorem State.accessLocal_frame (s : State) (b : Batch) (m : MemKind) (x : Fibre) (o : SlotOp) (a : Nat) :
    (s.accessLocal b m x o a).2.gangs = s.gangs ∧ (s.accessLocal b m x o a).2.mem = s.mem ∧ (s.accessLocal b m x o a).2.host = s.host := by
  unfold State.accessLocal
  dsimp only
  split <;> exact ⟨rfl, rfl, rfl⟩

theorem State.performLocal_cons (s : State) (b : Batch) (m : MemKind) (mk : Nat → Fibre → List Part → SlotOp) (t : Nat) (x : Fibre)
    {p : Part} (r : List (Nat × Fibre × List Part)) (home : p.home = .handle b.g.cluster) (len : p.len = m.size) :
    s.performLocal b m mk ((t, x, [p]) :: r) =
      let y := s.accessLocal b m x (mk t x [p]) p.addr
      ((t, .next y.1) :: (y.2.performLocal b m mk r).1, (y.2.performLocal b m mk r).2) := by
  by_cases load : m.kind = 1 ∨ m.kind = 2
  · simp only [State.performLocal, s.readParts_local home, State.accessLocal, if_pos load, len]
  · have write (v : Nat) := s.writeParts_local (v := b.g.via) (w := s.worldB b) (scope := 1) home ((bytesOf_length m.size v).trans len.symm)
    simp only [State.performLocal, s.readParts_local home, State.accessLocal, if_neg load, len, write, Except.map]

/-- Handle-local accesses each let their fibre go on, and leave gangs and all memory beside handle-local memory as they were. -/
theorem State.performLocal_spec {b : Batch} {m : MemKind} {mk : Nat → Fibre → List Part → SlotOp} :
    ∀ {oks : List (Nat × Fibre × List Part)} (s : State),
      (∀ o ∈ oks, ∃ p : Part, o.2.2 = [p] ∧ p.home = .handle b.g.cluster ∧ p.len = m.size) →
      (s.performLocal b m mk oks).1.map (·.1) = oks.map (·.1) ∧ (∀ o ∈ (s.performLocal b m mk oks).1, ∃ x, o.2 = .next x) ∧
        (s.performLocal b m mk oks).2.gangs = s.gangs ∧ (s.performLocal b m mk oks).2.mem = s.mem ∧
        (s.performLocal b m mk oks).2.host = s.host
  | [], _, _ => ⟨rfl, by simp [State.performLocal], rfl, rfl, rfl⟩
  | (t, x, ps) :: r, s, placed => by
    obtain ⟨p, rfl, home, len⟩ := placed (t, x, ps) List.mem_cons_self
    obtain ⟨gangs, mem, host⟩ := s.accessLocal_frame b m x (mk t x [p]) p.addr
    obtain ⟨slots, nexts, gangs', mem', host'⟩ :=
      State.performLocal_spec (s.accessLocal b m x (mk t x [p]) p.addr).2 fun o ho => placed o (List.mem_cons_of_mem _ ho)
    rw [s.performLocal_cons b m mk t x r home len]
    refine ⟨congrArg (t :: ·) slots, fun o ho => ?_, gangs'.trans gangs, mem'.trans mem, host'.trans host⟩
    rcases List.mem_cons.1 ho with rfl | ho
    · exact ⟨_, rfl⟩
    · exact nexts o ho

section
variable {i : Instr} {f : MF} {m : Form} {regs : Nat}

/-- The word is carried out by the shared issue. -/
def Issues (i : Instr) (f : MF) (m : Form) (regs : Nat) : Prop :=
  ∀ s b ready outs t, Ready s i b ready → (b.g.det = true → m.kind ≤ 4 ∨ f.scope = .skein ∨ f.scope = .gang) →
    s.atIssue.issueMem (b.taking i) (kindOf f m regs) (askOf f m b) (opOf f m b) = .done outs t → exec i s = .next (t.finish b ready outs)

theorem State.issueLocal_asked {s s1 : State} {b : Batch} {oks : List (Nat × Fibre × List Part)} (asks : Asks i f m s b oks s1) :
    s.atIssue.issueLocal (b.taking i) (kindOf f m regs) (askOf f m b) (opOf f m b) =
      let q := s1.performLocal (b.taking i) (kindOf f m regs) (opOf f m b) oks
      .done q.1 q.2 := by
  have asked : s.atIssue.askAll (b.taking i) (askOf f m b) (b.taking i).run = .done [] oks s1 := asks
  simp only [State.issueLocal, asked, List.nil_append]

theorem Asks.local {s s1 : State} {b : Batch} {oks : List (Nat × Fibre × List Part)} (asks : Asks i f m s b oks s1)
    (space : f.space = .localMem) : ∀ o ∈ oks, ∃ p : Part, o.2.2 = [p] ∧ p.LocalTo b.g.cluster (askOf f m b o.1 o.2.1) :=
  State.askAll_local (b := b.taking i) (fun _ _ => space) asks

/-- The word of a store or atomic performs its handle-local accesses at its issue. -/
theorem performsLocally_of_issues (issues : Issues i f m regs) (store : 3 ≤ m.kind) (known : m.kind ≤ 7) : PerformsLocally i f m := by
  intro s b ready oks s1 ready_ space det asks
  have placed := Asks.local asks space
  have runs : exec i s = .next ((s1.performLocal (b.taking i) (kindOf f m regs) (opOf f m b) oks).2.finish b ready
      (s1.performLocal (b.taking i) (kindOf f m regs) (opOf f m b) oks).1) := by
    refine issues s b ready _ _ ready_ det ?_
    rw [State.issueMem, if_pos (show (kindOf f m regs).space = .localMem from space), State.issueLocal_asked asks]
  constructor
  · obtain ⟨slots, nexts, gangs, mem, host⟩ := s1.performLocal_spec (b := b.taking i) (m := kindOf f m regs) (mk := opOf f m b) fun o ho => by
      obtain ⟨p, parts, home, -, len⟩ := placed o ho
      exact ⟨p, parts, home, len⟩
    have passing := congrArg (List.map Prod.fst) (askAll_passing _ _ _ _ asks)
    rw [List.map_map] at passing
    exact ⟨_, _, runs, slots.trans passing, nexts, gangs, mem, host⟩
  · rintro n x ps rfl a old put new
    obtain ⟨p, rfl, home, addr, len⟩ := placed (n, x, ps) List.mem_cons_self
    have addr : p.addr = a := addr
    rw [runs, s1.performLocal_cons (b.taking i) (kindOf f m regs) (opOf f m b) n x [] home len, addr]
    rcases kindCases store known with kind | kind | kind | kind | kind <;>
      simp [State.accessLocal, State.performLocal, kindOf, kind, opOf, SlotOp.new, State.putLocal, wordsOf_eq_words, put, new, old]

end

/-! ## The entry of an access (spec/13 R330 to R333, spec/03 R64) -/

theorem Skein.room_counters (sk : Skein) {kind : Nat} (store : 3 ≤ kind) (known : kind ≤ 7)
    (fits : if loadLike kind then sk.l < 63 else sk.s < 63) : sk.room kind 1 = true := by
  rcases kindCases store known with rfl | rfl | rfl | rfl | rfl <;> simpa [Skein.room, kindCounter, loadLike, Nat.lt_succ_iff] using fits

theorem Skein.raise_counters (sk : Skein) {kind : Nat} (store : 3 ≤ kind) (known : kind ≤ 7) :
    sk.raise kind 1 = { sk with l := sk.l + (if loadLike kind then 1 else 0), s := sk.s + (if loadLike kind then 0 else 1) } := by
  rcases kindCases store known with rfl | rfl | rfl | rfl | rfl <;> rfl

theorem Skein.addEntry_eq (sk : Skein) {e : Entry} (store : 3 ≤ e.kind) (known : e.kind ≤ 7) : sk.addEntry e =
    { sk with
      l := sk.l + (if loadLike e.kind then 1 else 0), s := sk.s + (if loadLike e.kind then 0 else 1)
      record := sk.record ++ [{ e with seq := sk.nextSeq }], nextSeq := sk.nextSeq + 1, ackc := sk.ackc + (if e.acked then 0 else 1) } := by
  simp only [Skein.addEntry, sk.raise_counters store known]

/-- A part of some operation ends at a port. -/
theorem needsAck_iff {kind : Nat} (store : 3 ≤ kind) (known : kind ≤ 7) (ops : List SlotOp) :
    needsAck kind ops = true ↔ ∃ o ∈ ops, ∃ p ∈ o.parts, p.port = true := by
  have writes : (kind == 3 || kind == 4 || kind == 5 || kind == 6 || kind == 7) = true := by
    rcases kindCases store known with rfl | rfl | rfl | rfl | rfl <;> rfl
  simp only [needsAck, writes, Bool.true_and, List.any_eq_true]

/-- The entry is the batch's, with a tag where its class takes one. -/
theorem State.recordMem_eq (s : State) (b : Batch) (x0 : Fibre) (m : MemKind) (ops : List SlotOp) :
    ∃ cs tag, s.recordMem b x0 m ops = ({ s with cores := cs } : State).addEntry b { b.memEntry x0 m ops with tag := tag } := by
  unfold State.recordMem
  dsimp only
  split
  · exact ⟨s.cores, _, rfl⟩
  · exact ⟨_, _, rfl⟩

/-- Only a part on a host page puts an atomic in the class of a host atomic. -/
theorem classOf1_le {kind : Nat} {ps : List Part} (store : 3 ≤ kind) (off : ∀ p ∈ ps, p.home ≠ .host) : classOf1 kind ps ≤ 1 := by
  have none_ : (ps.any fun p => p.home == .host) = false := by simpa using off
  have notLoad : ¬ (kind = 1 ∨ kind = 2) := by omega
  simp only [classOf1, if_neg notLoad, none_, Bool.false_eq_true, if_false]
  split
  · exact Nat.zero_le 1
  · exact le_rfl

theorem foldl_max_le {n : Nat} : ∀ {l : List Nat} {a : Nat}, a ≤ n → (∀ x ∈ l, x ≤ n) → l.foldl max a ≤ n
  | [], _, ha, _ => ha
  | x :: r, a, ha, h => foldl_max_le (l := r) (a := max a x) (max_le ha (h x List.mem_cons_self)) fun y hy => h y (List.mem_cons_of_mem x hy)

/-- An access that is no atomic on a host page waits for no completion from there. -/
theorem hostAtom_memEntry_false {b : Batch} {x0 : Fibre} {m : MemKind} {ops : List SlotOp} (store : 3 ≤ m.kind) (known : m.kind ≤ 7)
    (off : 5 ≤ m.kind → ∀ o ∈ ops, ∀ p ∈ o.parts, p.home ≠ .host) : ∀ o ∈ ops, hostAtom (b.memEntry x0 m ops) o = false := by
  intro o ho
  have kind : (b.memEntry x0 m ops).kind = m.kind := rfl
  by_cases atomic : 5 ≤ m.kind
  · have none_ : (o.parts.any fun p => p.home == .host) = false := by simpa using off atomic o ho
    have cls : (b.memEntry x0 m ops).cls ≤ 1 := foldl_max_le (Nat.zero_le 1) fun c hc => by
      obtain ⟨q, hq, rfl⟩ := List.mem_map.1 hc
      exact classOf1_le store (off atomic q hq)
    have other : ((b.memEntry x0 m ops).cls == 2) = false := by
      rw [beq_eq_false_iff_ne]
      omega
    simp [hostAtom, none_, other]
  · rw [hostAtom, kind, atomicKind_eq known, decide_eq_false atomic, Bool.false_and]

/-- The one operation of a skein with none outstanding may be performed at once, where it releases nothing. -/
theorem Skein.mayPerform_alone {sk : Skein} {e : Entry} {o : SlotOp} (empty : sk.record = []) (ops : e.ops = [o]) (placed : o.parts ≠ [])
    (relaxed : e.release = false) : sk.mayPerform e o = true := by
  simp [Skein.mayPerform, Skein.earlier, empty, ops, placed, relaxed]

section
variable {i : Instr} {f : MF} {m : Form} {regs : Nat} {s s1 : State} {b : Batch} {x0 : Fibre} {t0 : Nat} {rest : List (Nat × Fibre)}
  {oks : List (Nat × Fibre × List Part)}

/-- The operations of the accesses. -/
def opsOf (f : MF) (m : Form) (b : Batch) (oks : List (Nat × Fibre × List Part)) : List SlotOp := oks.map fun o => opOf f m b o.1 o.2.1 o.2.2

/-- An atomic to a host page. -/
def atHost (m : Form) (oks : List (Nat × Fibre × List Part)) : Bool := decide (5 ≤ m.kind) && oks.any fun o => o.2.2.any fun p => p.home == .host

theorem any_parts_opsOf (g : Part → Bool) : ((opsOf f m b oks).any fun o => o.parts.any g) = oks.any fun o => o.2.2.any g := List.any_map

/-- An atomic to a host page goes alone, releases nothing and asks for no service of the host's. -/
def HostGoes (f : MF) (m : Form) (b : Batch) (oks : List (Nat × Fibre × List Part)) : Prop :=
  atHost m oks = true → b.sk.record = [] ∧ (∀ o ∈ oks, ∀ p ∈ o.2.2, p.hat ≠ 2) ∧ oks.length = 1 ∧ f.order ≠ .rel ∧ f.order ≠ .acqrel

theorem atHost_false (h : atHost m oks = false) : 5 ≤ m.kind → ∀ o ∈ opsOf f m b oks, ∀ p ∈ o.parts, p.home ≠ .host := by
  intro atomic o ho p hp host
  obtain ⟨q, hq, rfl⟩ := List.mem_map.1 ho
  have some_ : (oks.any fun o => o.2.2.any fun p => p.home == .host) = true :=
    List.any_eq_true.2 ⟨q, hq, List.any_eq_true.2 ⟨p, hp, beq_iff_eq.2 host⟩⟩
  rw [atHost, decide_eq_true atomic, some_] at h
  cases h

theorem orderAcquires_iff (o : Order) : orderAcquires o = true ↔ o = .acq ∨ o = .acqrel := by cases o <;> decide

theorem orderReleases_iff (o : Order) : orderReleases o = true ↔ o = .rel ∨ o = .acqrel := by cases o <;> decide

/-- Nothing holds an atomic back that goes to a host page, and others are not held back there. -/
theorem hostHeld_false (store : 3 ≤ m.kind) (known : m.kind ≤ 7) (goes : HostGoes f m b oks) (held : Bool) :
    let e : Entry := { (b.taking i).memEntry x0 (kindOf f m regs) (opsOf f m b oks) with seq := b.sk.nextSeq }
    ((opsOf f m b oks).any fun o => hostAtom e o && (!b.sk.mayPerform e o || (e.release && held))) = false ∧
      (e.release && (opsOf f m b oks).any (hostAtom e)) = false := by
  intro e
  cases host : atHost m oks with
  | false =>
    have off (o : SlotOp) (ho : o ∈ opsOf f m b oks) : hostAtom e o = false :=
      hostAtom_memEntry_false (b := b.taking i) (x0 := x0) (m := kindOf f m regs) store known (atHost_false host) o ho
    constructor
    · rw [List.any_eq_false]
      intro o ho
      simp [off o ho]
    · rw [List.any_eq_false.2 fun o ho => Bool.eq_false_iff.1 (off o ho), Bool.and_false]
  | true =>
    obtain ⟨empty, -, one, relaxed⟩ := goes host
    have relaxed : e.release = false := Bool.eq_false_iff.2 (mt (orderReleases_iff _).1 (not_or.2 relaxed))
    obtain ⟨o, rfl⟩ := List.length_eq_one_iff.1 one
    have placed : o.2.2 ≠ [] := fun none_ => by simp [atHost, none_] at host
    have may : b.sk.mayPerform e (opOf f m b o.1 o.2.1 o.2.2) = true := Skein.mayPerform_alone empty rfl placed relaxed
    simp [opsOf, may, relaxed]

/-- No part asks for an atomic that the host carries out itself. -/
theorem unassisted (known : m.kind ≤ 7) (goes : HostGoes f m b oks) :
    ((m.kind == 5 || m.kind == 6 || m.kind == 7) && (opsOf f m b oks).any fun o => o.parts.any fun p => p.home == .host && p.hat == 2) = false := by
  rw [any_parts_opsOf, atomicKind_eq known, Bool.and_eq_false_imp]
  intro atomic
  rw [List.any_eq_false]
  intro o ho assisted
  obtain ⟨p, hp, both⟩ := List.any_eq_true.1 assisted
  obtain ⟨home, hat⟩ := (Bool.and_eq_true _ _).mp both
  have host : atHost m oks = true := by
    rw [atHost, atomic, Bool.true_and]
    exact List.any_eq_true.2 ⟨o, ho, List.any_eq_true.2 ⟨p, hp, home⟩⟩
  obtain ⟨-, hats, -⟩ := goes host
  exact hats o ho p hp (beq_iff_eq.1 hat)

theorem opsOf_slots (asks : Asks i f m s b oks s1) :
    ((oks.filter fun o => (opsOf f m b oks).any fun q => q.slot == o.1).map fun o => (o.1, Out.next o.2.1)) = b.eachNext i fun _ x => x := by
  have all : (oks.filter fun o => (opsOf f m b oks).any fun q => q.slot == o.1) = oks := List.filter_eq_self.2 fun o ho =>
    List.any_eq_true.2 ⟨_, List.mem_map_of_mem ho, beq_self_eq_true _⟩
  have passing : oks.map (fun o => (o.1, o.2.1)) = b.passing i := askAll_passing _ _ _ _ asks
  rw [all, Batch.eachNext, ← passing, List.map_map]
  rfl

/-- The shared issue, where every access is checked without a fault and its counters have room: the entry is made, and the fibres go on. -/
theorem State.issueMem_asked (store : 3 ≤ m.kind) (known : m.kind ≤ 7) (asks : Asks i f m s b oks s1) (space : f.space ≠ .localMem)
    (leading : b.passing i = (t0, x0) :: rest) (room : b.sk.room m.kind 1 = true) (acks : b.sk.ackc < 1023) (goes : HostGoes f m b oks) :
    s.atIssue.issueMem (b.taking i) (kindOf f m regs) (askOf f m b) (opOf f m b) =
      .done (b.eachNext i fun _ x => x) (s1.recordMem (b.taking i) x0 (kindOf f m regs) (opsOf f m b oks)) := by
  have asked : s.atIssue.askAll (b.taking i) (askOf f m b) (b.passing i) = .done [] oks s1 := asks
  have passing : oks.map (fun o => (o.1, o.2.1)) = b.passing i := askAll_passing _ _ _ _ asks
  have ops : oks.map (fun o => opOf f m b o.1 o.2.1 o.2.2) = opsOf f m b oks := rfl
  have some_ : (opsOf f m b oks).isEmpty = false := by
    cases oks with
    | nil => rw [leading] at passing; cases passing
    | cons o r => rfl
  have fits : ¬ 1023 ≤ b.sk.ackc := by omega
  obtain ⟨free, still⟩ := hostHeld_false (i := i) (x0 := x0) (regs := regs) store known goes (s1.releaseHeld b.g.via 5)
  have unassisted := unassisted known goes
  unfold State.issueMem
  rw [if_neg (show ¬ (kindOf f m regs).space = .localMem from space)]
  simp only [Batch.taking_run, leading, Batch.taking_sk, Batch.taking_g]
  rw [leading] at asked
  simp only [asked, ops, some_]
  have kind : (kindOf f m regs).kind = m.kind := rfl
  simp [kind, room, fits, free, still, unassisted, opsOf_slots asks]

/-- The entry of the accesses, with its tag. -/
def entryOf (i : Instr) (f : MF) (m : Form) (regs : Nat) (b : Batch) (x0 : Fibre) (oks : List (Nat × Fibre × List Part)) (tag : W64) : Entry :=
  { (b.taking i).memEntry x0 (kindOf f m regs) (opsOf f m b oks) with tag := tag }

theorem entryOf_acked (store : 3 ≤ m.kind) (known : m.kind ≤ 7) (tag : W64) :
    (entryOf i f m regs b x0 oks tag).acked = false ↔ 3 ≤ m.kind ∧ ∃ o ∈ oks, ∃ p ∈ o.2.2, p.port = true := by
  have acked : (entryOf i f m regs b x0 oks tag).acked = !needsAck m.kind (opsOf f m b oks) := rfl
  rw [acked, Bool.not_eq_false', needsAck_iff store known]
  simp [opsOf, opOf, SlotOp.new, store]

theorem entryOf_scope (known : m.kind ≤ 7) (tag : W64) :
    (entryOf i f m regs b x0 oks tag).scope = scopeOf f.scope f.space (atHost m oks) := by
  have scope : (entryOf i f m regs b x0 oks tag).scope = scopeFor (scopeNum f.scope) f.space ((m.kind == 5 || m.kind == 6 || m.kind == 7) &&
    (opsOf f m b oks).any fun o => o.parts.any fun p => p.home == .host) := rfl
  rw [scope, scopeFor_eq_scopeOf, any_parts_opsOf, atomicKind_eq known, atHost]

theorem entryOf_pc {p : Nat × Fibre} (lowest : b.all.head? = some p) (tag : W64) : (entryOf i f m regs b x0 oks tag).pc = p.2.pc := by
  have pc : (entryOf i f m regs b x0 oks tag).pc = (b.low x0).pc := rfl
  rw [pc, Batch.low, lowest]
  rfl

/-- A store or atomic, where nothing stops it, leaves its entry in its skein's record. -/
theorem issuesAccess_of_issues (issues : Issues i f m regs) (store : 3 ≤ m.kind) (known : m.kind ≤ 7) : IssuesAccess i f m := by
  refine ⟨performsLocally_of_issues issues store known, ?_⟩
  intro s b ready oks s1 ready_ some_ space _ det fits asks host goes
  obtain ⟨acks, goes⟩ := goes.resolve_left (by omega)
  obtain ⟨⟨t0, x0⟩, rest, leading⟩ := List.exists_cons_of_ne_nil some_
  have passing : oks.map (fun o => (o.1, o.2.1)) = b.passing i := askAll_passing _ _ _ _ asks
  have beside : Beside s.atIssue s1 := beside_askAll _ _ _ _ asks
  have runs := issues s b ready _ _ ready_ det
    (State.issueMem_asked store known asks space leading (b.sk.room_counters store known fits) acks goes)
  obtain ⟨cs, tag, made⟩ : ∃ cs tag, s1.recordMem (b.taking i) x0 (kindOf f m regs) (opsOf f m b oks) =
    ({ s1 with cores := cs } : State).addEntry (b.taking i) (entryOf i f m regs b x0 oks tag) := s1.recordMem_eq ..
  have before : ({ s1 with cores := cs } : State).skein b.g.key b.k = some b.sk := (State.skein_gangs beside.gangs _ _).trans (ready_skein ready_)
  have acked := entryOf_acked (i := i) (f := f) (regs := regs) (b := b) (x0 := x0) (oks := oks) store known tag
  have scope := entryOf_scope (i := i) (f := f) (regs := regs) (b := b) (x0 := x0) (oks := oks) known tag
  have pc {p} := entryOf_pc (i := i) (f := f) (m := m) (regs := regs) (b := b) (x0 := x0) (oks := oks) (p := p)
  have added := b.sk.addEntry_eq (e := entryOf i f m regs b x0 oks tag) store known
  rw [made] at runs
  refine ⟨{ entryOf i f m regs b x0 oks tag with seq := b.sk.nextSeq }, _, b.sk.addEntry (entryOf i f m regs b x0 oks tag), runs,
    (State.skein_modSkein_same ..).trans (congrArg (Option.map _) before), ?_⟩
  rw [added]
  refine ⟨rfl, rfl, rfl, rfl, rfl, rfl, ?ackc, acked, rfl, rfl, rfl, rfl, scope, rfl, orderAcquires_iff f.order,
    orderReleases_iff f.order, fun _ lowest => pc lowest tag, passing, rfl, ?_, ?_, ?_, ?_, ?_, ?_⟩
  case ackc =>
    by_cases port : 3 ≤ m.kind ∧ ∃ o ∈ oks, ∃ p ∈ o.2.2, p.port = true
    · rw [if_pos port, acked.2 port]
      rfl
    · rw [if_neg port, Bool.eq_true_of_not_eq_false (mt acked.1 port)]
      rfl
  all_goals simp [State.addEntry]

end

/-! ## The words -/

/-- In deterministic mode an atomic of skein or gang scope passes the check of its scope (spec/20 R439). -/
theorem detScope_nil {f : MF} {b : Batch} {s : State} (h : b.g.det = true → f.scope = .skein ∨ f.scope = .gang) : detScope f b s = [] := by
  unfold detScope
  refine if_neg fun both => ?_
  obtain ⟨det, wide⟩ := (Bool.and_eq_true _ _).mp both
  rcases h det with scope | scope <;> simp [scope, scopeNum] at wide

section
variable {i : Instr} {f : MF} {m : Form} {regs : Nat} {body : Batch → State → Result}

/-- The body of a word is the shared issue of its form. -/
def IsIssue (i : Instr) (f : MF) (m : Form) (regs : Nat) (body : Batch → State → Result) : Prop :=
  ∀ b s, body (b.taking i) s = s.issueMem (b.taking i) (kindOf f m regs) (askOf f m b) (opOf f m b)

theorem issues_store (runs : ∀ s, exec i s = s.issueWith i body) (same : IsIssue i f m regs body) : Issues i f m regs := by
  intro s b ready outs t h _ issued
  rw [runs, h.issueWith, same, issued]

theorem issues_atomic (atomic : 5 ≤ m.kind) (runs : ∀ s, exec i s = s.issueChecked i (detScope f) body) (same : IsIssue i f m regs body) :
    Issues i f m regs := by
  intro s b ready outs t h det issued
  rw [runs, h.issueChecked _ _ (detScope_nil fun on => (det on).resolve_left (by omega)), same, issued]

end

/-- Settles O23: each word is carried out by the shared issue, which performs a handle-local access at once and makes an entry of another. -/
theorem storesAndAtomicsIssue : Obligations.StoresAndAtomicsIssue := by
  refine ⟨fun f => issuesAccess_of_issues (regs := 0) (issues_store (exec_st f) ?_) (show 3 ≤ 3 by decide) (show 3 ≤ 7 by decide),
    fun f => issuesAccess_of_issues (regs := 0) (issues_store (exec_stiv f) ?_) (show 3 ≤ 4 by decide) (show 4 ≤ 7 by decide),
    fun f => issuesAccess_of_issues (regs := sizeRegs f.size) (issues_atomic (show 5 ≤ 5 by decide) (exec_atom f) ?_) (show 3 ≤ 5 by decide)
      (show 5 ≤ 7 by decide),
    fun f => issuesAccess_of_issues (regs := sizeRegs f.size) (issues_atomic (show 5 ≤ 6 by decide) (exec_atomc f) ?_) (show 3 ≤ 6 by decide)
      (show 6 ≤ 7 by decide),
    fun f => issuesAccess_of_issues (regs := 0) (issues_atomic (show 5 ≤ 7 by decide) (exec_red f) ?_) (show 3 ≤ 7 by decide)
      (show 7 ≤ 7 by decide)⟩
  all_goals
    intro b s
    simp only [sizeBytes_eq_bytes, Batch.addr_eq_address, storeData_eq_group, atomOff_eq]
    rfl

end Sys2Proof.Machine
end

section
/-! PROOFS, O50. Host translations and their invalidation, ports and peers that go down and come back, requests that arrive, and bounce channels. -/

namespace Sys2Proof.Machine

open Sys2Proof.Says

/-! ## What waits for translations (spec/13 R339) -/

/-- No skein replays. -/
def Quiet (gs : List Gang) : Prop := ∀ g ∈ gs, ∀ sk ∈ g.skeins, sk.replaying = false

theorem State.replayWaiting_quiet {s : State} (quiet : Quiet s.gangs) (key k : Nat) : s.replayWaiting key k = s := by
  unfold State.replayWaiting
  split
  · rfl
  · rename_i sk at_
    obtain ⟨g, hg, hk⟩ := Option.bind_eq_some_iff.1 at_
    rw [quiet g (mem_of_findGang hg) sk (List.mem_of_getElem? hk)]
    rfl

theorem State.retryReplays_quiet {s : State} (quiet : Quiet s.gangs) : s.retryReplays = s := by
  refine List.foldl_fixed' (fun g => ?_) _
  split
  · rfl
  · exact List.foldl_fixed' (fun k => State.replayWaiting_quiet quiet g.key k) _

/-! ## Host translations (spec/14 R359, R360, spec/21 R441 to R443) -/

section
variable {s : State} {w page frame : Nat}

theorem State.part_holdTranslation (s : State) (x : AtsEntry) (p : Nat) : (s.holdTranslation x).part p = s.part p := rfl

theorem State.translated_once (once : (s.part (w / 64)).atsReqs.count (w, page) = 1) (awake : s.asleep w = false) :
    s.translated w page frame true true =
      (s.modPart (w / 64) fun x => { x with atsReqs := x.atsReqs.erase (w, page) }).holdTranslation ⟨w, page, frame, true, true, 0⟩ := by
  have asked : (w, page) ∈ (s.part (w / 64)).atsReqs := List.count_pos_iff.1 (once ▸ Nat.one_pos)
  have last : (w, page) ∉ (s.part (w / 64)).atsReqs.erase (w, page) := List.count_eq_zero.1 (by rw [List.count_erase_self, once])
  simp only [State.translated, partOfWorld, List.contains_iff_mem.2 asked, Bool.not_true, Bool.false_eq_true, if_false, awake, Bool.or_false,
    List.contains_iff_mem, last]
  rfl

theorem State.translated_stale (rd wr : Bool) (stale : (w, page) ∉ (s.part (w / 64)).atsReqs) : s.translated w page frame rd wr = s := by
  simp [State.translated, partOfWorld, stale]

/-- A translation asked for once is held, in place of another where the cache is full. -/
theorem atsTranslationCompletion_holds (quiet : Quiet s.gangs) (once : (s.part (w / 64)).atsReqs.count (w, page) = 1)
    (awake : s.asleep w = false) : exec (.atsTranslationCompletion w page frame true true) s =
      .next ((s.modPart (w / 64) fun x => { x with atsReqs := x.atsReqs.erase (w, page) }).holdTranslation ⟨w, page, frame, true, true, 0⟩).clearTried := by
  rw [exec_atsTranslationCompletion, execAtsTranslationCompletion, State.translated_once once awake, State.retryReplays_quiet (by exact quiet)]

theorem atsTranslationCompletion_stale (rd wr : Bool) (quiet : Quiet s.gangs) (stale : (w, page) ∉ (s.part (w / 64)).atsReqs) :
    Leads (.atsTranslationCompletion w page frame rd wr) s s := by
  rw [Leads, exec_atsTranslationCompletion, execAtsTranslationCompletion, State.translated_stale rd wr stale, State.retryReplays_quiet quiet]

/-- A page request answered is asked for no more; where it succeeded, its translation is asked for again. -/
theorem pageRequestResponse_granted (quiet : Quiet s.gangs) (asked : (w, page) ∈ (s.part (w / 64)).pageReqs) (awake : s.asleep w = false) :
    ∃ u : State, exec (.pageRequestResponse w page true) s = .next u ∧ (w, page) ∈ (u.part (w / 64)).atsReqs ∧ u.ats = s.ats ∧
      (u.part (w / 64)).pageReqs = (s.part (w / 64)).pageReqs.erase (w, page) := by
  have granted : s.pageAnswer w page true = (s.modPart (w / 64) fun x => { x with pageReqs := x.pageReqs.erase (w, page) }).modPart (w / 64)
      fun x => { x with atsReqs := if x.atsReqs.contains (w, page) then x.atsReqs else x.atsReqs ++ [(w, page)] } := by
    simp [State.pageAnswer, partOfWorld, asked, awake]
  rw [exec_pageRequestResponse, execPageRequestResponse, granted, State.retryReplays_quiet (by exact quiet)]
  refine ⟨_, rfl, ?_, rfl, ?_⟩
  · rw [State.clearTried_part, State.part_modPart_same, State.part_modPart_same]
    dsimp only
    split
    · exact List.contains_iff_mem.1 ‹_›
    · exact List.mem_append_right _ List.mem_cons_self
  · rw [State.clearTried_part, State.part_modPart_same, State.part_modPart_same]

/-- Where it was denied, the fibres that wait for it find it failed. -/
theorem pageRequestResponse_denied (quiet : Quiet s.gangs) (asked : (w, page) ∈ (s.part (w / 64)).pageReqs) (awake : s.asleep w = false) :
    ∃ u : State, exec (.pageRequestResponse w page false) s = .next u ∧ (∃ x ∈ u.ats, x.world = w ∧ x.page = page ∧ x.fails = 3) ∧
      (u.part (w / 64)).pageReqs = (s.part (w / 64)).pageReqs.erase (w, page) := by
  obtain ⟨x, world, page_, fails, denied⟩ : ∃ x : AtsEntry, x.world = w ∧ x.page = page ∧ x.fails = 3 ∧ s.pageAnswer w page false =
      (s.modPart (w / 64) fun x => { x with pageReqs := x.pageReqs.erase (w, page) }).holdTranslation x := by
    simp only [State.pageAnswer, partOfWorld, List.contains_iff_mem.2 asked, awake, Bool.not_true, Bool.false_eq_true, if_false]
    split
    · rename_i x found
      have named := List.find?_some found
      obtain ⟨world, page_⟩ := (Bool.and_eq_true _ _).mp named
      exact ⟨{ x with fails := 3 }, beq_iff_eq.1 world, beq_iff_eq.1 page_, rfl, rfl⟩
    · exact ⟨_, rfl, rfl, rfl, rfl⟩
  rw [exec_pageRequestResponse, execPageRequestResponse, denied, State.retryReplays_quiet (by exact quiet)]
  refine ⟨_, rfl, ⟨x, List.mem_append_right _ List.mem_cons_self, world, page_, fails⟩, ?_⟩
  rw [State.clearTried_part, State.part_holdTranslation, State.part_modPart_same]

end

/-! ## Invalidation (spec/14 R357, R361) -/

section
variable {s : State} {w first last : Nat}

theorem State.part_answer (s : State) (port status : Nat) (bs : List Byte) (p : Nat) : (s.answer port status bs).part p = s.part p := rfl

theorem atsInvalidation_refused (new : (w, first, last) ∉ (s.part (w / 64)).invals) (full : 32 ≤ (s.part (w / 64)).invals.length) :
    Leads (.atsInvalidation w first last) s s := by
  have refused : s.invalidateAts w first last = s := by simp [State.invalidateAts, partOfWorld, new, invalDepth, full]
  rw [Leads, exec_atsInvalidation, execAtsInvalidation, refused]

/-- A range that nothing uses is dropped and answered in one step. -/
theorem atsInvalidation_completes (new : (w, first, last) ∉ (s.part (w / 64)).invals) (room : (s.part (w / 64)).invals.length < 32)
    (idle : s.rangeBusy w first last = false) : ∃ u : State, exec (.atsInvalidation w first last) s = .next u ∧
      u.ats = s.ats.filter (fun x => !(x.world == w && (first ≤ x.page && x.page ≤ last))) ∧ (u.part (w / 64)).invals = (s.part (w / 64)).invals ∧
      u.answers = s.answers ++ [((s.pciePorts (w / 64)).headD 24, 0, [])] ∧ u.mem = s.mem ∧ u.host = s.host := by
  have taken : ¬ 32 ≤ (s.part (w / 64)).invals.length := by omega
  have done (t : State) (same : t.rangeBusy w first last = s.rangeBusy w first last) : t.completeInval w first last =
      (t.modPart (w / 64) fun x => { x with invals := x.invals.erase (w, first, last) }).answer ((t.pciePorts (w / 64)).headD 24) 0 [] := by
    rw [State.completeInval, same, idle]
    rfl
  rw [exec_atsInvalidation, execAtsInvalidation]
  simp only [State.invalidateAts, partOfWorld, List.contains_iff_mem, new, invalDepth, taken, if_false]
  rw [done _ (by rfl)]
  refine ⟨_, rfl, rfl, ?_, rfl, rfl, rfl⟩
  have erased : ((s.part (w / 64)).invals ++ [(w, first, last)]).erase (w, first, last) = (s.part (w / 64)).invals := by
    rw [List.erase_append_right _ new, List.erase_cons_head, List.append_nil]
  rw [State.clearTried_part, State.part_answer, State.part_modPart_same, State.part_modPart_same]
  exact erased

end

/-! ## `XINV` (spec/05 R107, spec/14 R366) -/

theorem bitsOf_top (v : BitVec 64) : bitsOf v.toNat 63 56 = v.toNat / 2 ^ 56 := Nat.mod_eq_of_lt (by omega)

/-- The translations that a write of `XINV` names. -/
def xinvNames (r : RegWrite) (t : TlbEntry) : Bool :=
  t.world == xinvWorld r && (bitOf r.v.toNat 1 || (t.page ≤ bitsOf r.v.toNat 55 18 && bitsOf r.v.toNat 55 18 < t.page + t.pages))

/-- The decoded operations of a cluster without the stale ones. -/
def Cluster.freshDoc (stale : DocLine → Bool) (k : Cluster) : Cluster := { k with doc := k.doc.filter fun d => !stale d }

/-- `XINV` begun: those translations go, and with `ALL` every decoded operation of the world. -/
theorem State.startXinv_goes {s : State} {r : RegWrite} (free : (s.part (partOfWorld r.by_)).xinvBusy = false) (go : bitOf r.v.toNat 0 = true)
    (own : partOfWorld (xinvWorld r) = partOfWorld r.by_) : ∃ (f : Partition → Partition) (stale : DocLine → Bool),
      (∀ x, (f x).xinvBusy = true) ∧ (bitOf r.v.toNat 1 = true → ∀ d, d.world = xinvWorld r → stale d = true) ∧
      s.startXinv r = { s.modPart (partOfWorld r.by_) f with
        tlb := s.tlb.filter fun t => !(s.tlb.filter (xinvNames r)).contains t
        clusters := s.clusters.map fun c => (c.1, c.2.freshDoc stale) } := by
  simp only [State.startXinv, free, go, own, Bool.false_eq_true, if_false, beq_self_eq_true, Bool.and_self, if_true]
  refine ⟨_, _, fun x => ?_, fun all d world => ?_, rfl⟩
  · rfl
  · simp [all, world]

theorem xinvGo_drops {s : State} {r : RegWrite} {x : Nat} (boot : s.boot = 1) (page : r.page = none) (free : (s.part (r.by_ / 64)).xinvBusy = false)
    (go : r.v.toNat.testBit 0 = true) (world : x = (if r.by_ % 64 = 0 then r.v.toNat / 2 ^ 56 else r.by_)) (own : x / 64 = r.by_ / 64) :
    ∃ u : State, exec (.xinvGo r) s = .next u ∧ (u.part (r.by_ / 64)).xinvBusy = true ∧ u.mem = s.mem ∧
      (r.v.toNat.testBit 1 = true → ∀ c, ∀ d ∈ (u.cluster c).doc, d.world ≠ x) ∧
      ∀ t, t ∈ u.tlb ↔ t ∈ s.tlb ∧ (t.world ≠ x ∨ r.v.toNat.testBit 1 = false ∧
        ¬ (t.page ≤ r.v.toNat / 2 ^ 18 % 2 ^ 38 ∧ r.v.toNat / 2 ^ 18 % 2 ^ 38 < t.page + t.pages)) := by
  have world : xinvWorld r = x := by rw [world, xinvWorld, bitsOf_top]
  obtain ⟨f, stale, busy, all, begun⟩ := State.startXinv_goes (s := s) (r := r) free ((bitOf_eq_testBit _ _).trans go) (world ▸ own)
  rw [exec_xinvGo, execXinvGo, if_pos ⟨by rw [page]; rfl, boot⟩, begun]
  refine ⟨_, rfl, ?_, rfl, fun every c d hd same => ?_, fun t => ?_⟩
  · exact (congrArg Partition.xinvBusy (State.part_modPart_same s ..)).trans (busy _)
  · have hd : d ∈ ((tget (s.clusters.map fun q => (q.1, q.2.freshDoc stale)) c).getD Cluster.reset).doc := hd
    rw [tget_map (fun _ k => k.freshDoc stale) c s.clusters] at hd
    have kept : stale d = false := by
      cases at_ : tget s.clusters c with
      | none => simp [at_, Cluster.reset] at hd
      | some k =>
        rw [at_] at hd
        simpa using (List.mem_filter.1 hd).2
    rw [all ((bitOf_eq_testBit _ _).trans every) d (same.trans world.symm)] at kept
    cases kept
  · have names : xinvNames r t = true ↔ t.world = x ∧ (r.v.toNat.testBit 1 = true ∨
        (t.page ≤ r.v.toNat / 2 ^ 18 % 2 ^ 38 ∧ r.v.toNat / 2 ^ 18 % 2 ^ 38 < t.page + t.pages)) := by
      have page18 : bitsOf r.v.toNat 55 18 = r.v.toNat / 2 ^ 18 % 2 ^ 38 := rfl
      rw [xinvNames, world, bitOf_eq_testBit, page18, Bool.and_eq_true, Bool.or_eq_true, Bool.and_eq_true, beq_iff_eq, decide_eq_true_iff,
        decide_eq_true_iff]
    have left : t ∈ s.tlb.filter (fun t => !(s.tlb.filter (xinvNames r)).contains t) ↔ t ∈ s.tlb ∧ ¬ xinvNames r t = true := by
      simp +contextual [List.mem_filter]
    refine left.trans (and_congr_right fun _ => ?_)
    rw [names, not_and_or, not_or, Bool.not_eq_true]

theorem xinvComplete_ends {s : State} {p : Nat} (busy : (s.part p).xinvBusy = true) (idle : s.worldBusy ((s.part p).xinv.toNat / 2 ^ 56) = false) :
    ∃ u : State, exec (.xinvComplete p) s = .next u ∧ (u.part p).xinvBusy = false ∧ u.tlb = s.tlb ∧ u.mem = s.mem ∧
      ((s.part p).xinv.toNat.testBit 1 = true → (s.part p).xinv.toNat / 2 ^ 56 / 64 = p →
        (u.world ((s.part p).xinv.toNat / 2 ^ 56)).roster = some (s.rosterInMemory ((s.part p).xinv.toNat / 2 ^ 56))) := by
  rw [exec_xinvComplete, execXinvComplete]
  simp only [State.endXinv, bitsOf_top, busy, idle, Bool.not_true, Bool.or_self, Bool.false_eq_true, if_false, partOfWorld, bitOf_eq_testBit]
  refine ⟨_, rfl, ?_⟩
  split
  · refine ⟨?_, rfl, rfl, fun _ _ => ?_⟩
    · exact congrArg Partition.xinvBusy (State.part_modPart_same s p fun x => { x with xinvBusy := false })
    · rw [State.clearTried_world, State.world_modWorld_same]
      rfl
  · rename_i other
    refine ⟨?_, rfl, rfl, fun all own => absurd ?_ other⟩
    · exact congrArg Partition.xinvBusy (State.part_modPart_same s p fun x => { x with xinvBusy := false })
    · rw [all, own, beq_self_eq_true, Bool.and_self]

theorem xinvComplete_waits {s : State} {p : Nat} (h : (s.part p).xinvBusy = false ∨ s.worldBusy ((s.part p).xinv.toNat / 2 ^ 56) = true) :
    Leads (.xinvComplete p) s s := by
  have waits : (!(s.part p).xinvBusy || s.worldBusy ((s.part p).xinv.toNat / 2 ^ 56)) = true := by
    rw [Bool.or_eq_true, Bool.not_eq_true']
    exact h
  rw [Leads, exec_xinvComplete, execXinvComplete]
  simp only [State.endXinv, bitsOf_top, waits, if_true]

/-! ## Peers and ports (spec/14 R365, R367, spec/21 R452 to R454) -/

theorem peerUnreachable_reached {s : State} {p d : Nat} (up : (s.routeOf p d).any s.portUp = true) : Leads (.peerUnreachable p d) s s := by
  rw [Leads, exec_peerUnreachable, execPeerUnreachable, State.losePeer, if_pos up]

theorem peerUnreachable_lost {s : State} {p d : Nat} (down : ∀ n ∈ s.routeOf p d, s.portUp n = false) (known : s.peerGone p d = false)
    (idle : NoRecords s.gangs) : Leads (.peerUnreachable p d) s { s with unreachable := s.unreachable ++ [p * 2 ^ 20 + d] } := by
  have none_ : ¬ (s.routeOf p d).any s.portUp = true := by simpa using down
  rw [Leads, exec_peerUnreachable, execPeerUnreachable, State.losePeer, if_neg none_, State.endRequests_noRecords (by exact idle), known]
  rfl

/-- A page request is lost with its link: the fibres that wait for it find it failed. -/
def State.holdLost (s : State) (q : Nat × Nat) : State := s.holdTranslation ⟨q.1, q.2, 0, false, false, 4⟩

/-- A partition without its host: no translation and no request is left, but for the page requests that are lost. -/
def State.withoutHost (s : State) (p : Nat) : State :=
  (s.part p).pageReqs.foldl State.holdLost
    (({ s with ats := s.ats.filter fun (x : AtsEntry) => !(partOfWorld x.world == p) } : State).modPart p fun x =>
      { x with pageReqs := [], atsReqs := [] })

/-- Nothing but translations and what partitions ask for changes. -/
theorem State.withoutHost_eq (s : State) (p : Nat) : ∃ a ps, s.withoutHost p = { s with ats := a, parts := ps } := by
  have held (l : List (Nat × Nat)) : ∀ t : State, ∃ a, l.foldl State.holdLost t = { t with ats := a } := by
    induction l with
    | nil => exact fun t => ⟨t.ats, rfl⟩
    | cons q l ih =>
      intro t
      obtain ⟨a, rest⟩ := ih (t.holdLost q)
      exact ⟨a, rest⟩
  obtain ⟨a, lost⟩ := held (s.part p).pageReqs _
  exact ⟨a, _, lost⟩

theorem State.loseHost_idle {s : State} (saved : ∀ c ∈ s.ctxs, c.saved = []) (idle : NoRecords s.gangs) (p : Nat) (pick : Part → Bool) :
    s.loseHost p pick = s.withoutHost p := by
  have lost : s.loseHost p pick = ((s.withoutHost p).endRequests
    (fun g q => s.partOfCluster g.cluster == p && q.home == .host && pick q) .linkDown).parkLost p pick := rfl
  obtain ⟨a, ps, alone⟩ := s.withoutHost_eq p
  rw [lost, alone, State.endRequests_noRecords (by exact idle), State.parkLost_noneSaved (by exact saved)]

/-- Partitions without their host, one after another. -/
theorem State.foldl_loseHost_idle (pick : Part → Bool) : ∀ (l : List Nat) {s : State}, (∀ c ∈ s.ctxs, c.saved = []) → NoRecords s.gangs →
    l.foldl (fun s p => s.loseHost p pick) s = l.foldl State.withoutHost s ∧ ∃ a ps, l.foldl State.withoutHost s = { s with ats := a, parts := ps }
  | [], s, _, _ => ⟨rfl, s.ats, s.parts, rfl⟩
  | p :: l, s, saved, idle => by
    obtain ⟨a, ps, alone⟩ := s.withoutHost_eq p
    rw [List.foldl_cons, List.foldl_cons, State.loseHost_idle saved idle, alone]
    exact State.foldl_loseHost_idle pick l (s := { s with ats := a, parts := ps }) saved idle

/-- No request of the partition is outstanding, and its translations are those of lost page requests. -/
def HostGone (p : Nat) (s : State) : Prop :=
  (s.part p).pageReqs = [] ∧ (s.part p).atsReqs = [] ∧ ∀ x ∈ s.ats, x.world / 64 = p → x.fails = 4

theorem mem_holdTranslation {s : State} {x y : AtsEntry} (h : y ∈ (s.holdTranslation x).ats) : y ∈ s.ats ∨ y = x := by
  rcases List.mem_append.1 h with h | h
  · refine .inl (List.mem_filter.1 (?_ : y ∈ s.ats.filter fun (y : AtsEntry) => !(y.world == x.world && y.page == x.page))).1
    split at h
    · exact h
    · exact List.mem_of_mem_eraseP h
  · exact .inr (List.mem_singleton.1 h)

theorem State.mem_withoutHost {s : State} {p : Nat} {y : AtsEntry} (h : y ∈ (s.withoutHost p).ats) :
    y.fails = 4 ∨ y ∈ s.ats ∧ y.world / 64 ≠ p := by
  have held (l : List (Nat × Nat)) : ∀ t : State, y ∈ (l.foldl State.holdLost t).ats →
      y.fails = 4 ∨ y ∈ t.ats := by
    induction l with
    | nil => exact fun t h => .inr h
    | cons q l ih =>
      intro t h
      rcases ih _ h with failed | h
      · exact .inl failed
      · exact (mem_holdTranslation h).symm.imp_left fun same => by rw [same]
  refine (held _ _ h).imp_right fun h => ?_
  obtain ⟨there, other⟩ := List.mem_filter.1 h
  exact ⟨there, by simpa [partOfWorld] using other⟩

theorem State.part_withoutHost (s : State) (p n : Nat) :
    (s.withoutHost p).part n = ((s.modPart p fun x => { x with pageReqs := [], atsReqs := [] }).part n) :=
  foldl_keeps (f := State.holdLost) (fun s => s.part n) (fun _ _ => rfl) _ _

theorem hostGone_withoutHost (p : Nat) (s : State) : HostGone p (s.withoutHost p) := by
  refine ⟨?_, ?_, fun x hx own => (State.mem_withoutHost hx).resolve_right fun other => other.2 own⟩ <;>
    rw [State.part_withoutHost, State.part_modPart_same]

theorem HostGone.withoutHost {p : Nat} {s : State} (n : Nat) (h : HostGone p s) : HostGone p (s.withoutHost n) := by
  by_cases same : n = p
  · exact same ▸ hostGone_withoutHost n s
  · obtain ⟨pages, requests, failed⟩ := h
    have part : (s.withoutHost n).part p = s.part p := by
      rw [State.part_withoutHost, State.part_modPart_other _ _ _ _ (Ne.symm same)]
    exact ⟨part ▸ pages, part ▸ requests, fun x hx own => (State.mem_withoutHost hx).elim id fun other => failed x other.1 own⟩

theorem pcieLinkDown_loses {s : State} {port : Nat} (pcie : port = 24 ∨ port = 25) (quiet : Quiet s.gangs) (idle : NoRecords s.gangs)
    (saved : ∀ c ∈ s.ctxs, c.saved = []) :
    ∃ u : State, exec (.pcieLinkDown port) s = .next u ∧ exec (.portDown port) s = .next u ∧ (tget u.ports port).map (·.up) = some false ∧
      u.mem = s.mem ∧ ∀ p, p < s.partitions → port ∈ s.pciePorts p → (u.part p).pageReqs = [] ∧ (u.part p).atsReqs = [] ∧
        ∀ x ∈ u.ats, x.world / 64 = p → x.fails = 4 := by
  obtain ⟨lost, a, ps, alone⟩ := State.foldl_loseHost_idle (fun _ => true) (s.portPartitions port) (s := s.setPort port false) saved idle
  have gone (p : Nat) (small : p < s.partitions) (serves : port ∈ s.pciePorts p) :
      HostGone p ((s.portPartitions port).foldl State.withoutHost (s.setPort port false)) :=
    foldl_reaches (hostGone_withoutHost p) (fun _ n => HostGone.withoutHost n) _ _
      (List.mem_filter.2 ⟨mem_rangeFrom.2 ⟨Nat.zero_le p, by omega⟩, List.contains_iff_mem.2 serves⟩)
  have host : ¬ port < 24 := by omega
  have down : s.pcieDown port (fun _ => true) = { s.setPort port false with ats := a, parts := ps } := by
    rw [State.pcieDown, if_pos pcie, lost, alone, State.retryReplays_quiet (by exact quiet)]
  rw [alone] at gone
  rw [exec_pcieLinkDown, execPcieLinkDown, exec_portDown, execPortDown, if_neg host, down]
  refine ⟨_, rfl, rfl, ?_, rfl, gone⟩
  exact congrArg (Option.map Port.up) (tget_tset_same ..)

theorem portDown_fabric {s : State} {port : Nat} (fabric : port < 24) : let old : Port := (tget s.ports port).getD ⟨true, 0⟩
    Leads (.portDown port) s ({ s with ports := tset s.ports port ⟨false, old.session⟩ } : State) ∧
    exec (.linkSessionRekey port) s = .next { s with ports := tset s.ports port ⟨old.up, old.session + 1⟩ } := by
  constructor
  · rw [Leads, exec_portDown, execPortDown, if_pos fabric]
    rfl
  · rw [exec_linkSessionRekey, execLinkSessionRekey, if_pos fabric]

/-! ## Requests that arrive (spec/14 R357, R366, spec/01 R20) -/

theorem State.shadowFrame_thawed {s : State} (thawed : ∀ p f, (s.part p).ckpt.holds f = false) (f : Nat) : s.shadowFrame f = s := by
  simp only [State.shadowFrame, thawed, Bool.false_and, Bool.false_eq_true, if_false]

theorem State.shadowRange_thawed {s : State} (thawed : ∀ p f, (s.part p).ckpt.holds f = false) (a n : Nat) : s.shadowRange a n = s := by
  unfold State.shadowRange
  split
  · rfl
  · exact List.foldl_fixed' (State.shadowFrame_thawed thawed) _

theorem State.frameHeld_thawed {s : State} (thawed : ∀ p f, (s.part p).ckpt.holds f = false) (a n : Nat) : s.frameHeld a n = false := by
  simp only [State.frameHeld, thawed, Bool.or_self, Bool.and_false]

/-- Marking an extension frame changes nothing but its partition's bitmap. -/
theorem State.markExt_eq (s : State) (a : Nat) : ∃ ps, s.markExt a = { s with parts := ps } := by
  unfold State.markExt
  split
  · exact ⟨_, rfl⟩
  · exact ⟨s.parts, rfl⟩

section
variable {s : State} {r : PortRequest}

theorem incomingPortRequest_held (asleep : (s.part (r.world / 64)).pscur = 2) : Leads (.incomingPortRequest r) s
    (s.modPart (r.world / 64) fun x => { x with psheld := x.psheld ++ [r], psexit := true }) := by
  have held : s.incoming r = s.modPart (r.world / 64) fun x => { x with psheld := x.psheld ++ [r], psexit := true } := if_pos asleep
  rw [Leads, exec_incomingPortRequest, execIncomingPortRequest, held]

/-- A request from a PCIe port for device memory is performed there. -/
theorem State.incoming_memory (boot : s.boot = 1) (serves : s.portServes r = true) (some_ : r.bytes ≠ []) (pcie : 24 ≤ r.port)
    (home : s.deviceHome (r.world / 64) r.addr r.bytes.length = some .dev) (awake : (s.part (r.world / 64)).pscur ≠ 2) (plain : r.op ≠ .atomicAdd) :
    s.incoming r = (s.portMemory r).getD s := by
  have length : r.bytes.length ≠ 0 := mt List.length_eq_zero_iff.1 some_
  have fabric : ¬ r.port < 24 := by omega
  have home : s.deviceHome (partOfWorld r.world) r.addr r.bytes.length = some .dev := home
  have awake : ¬ (s.part (partOfWorld r.world)).pscur = 2 := awake
  simp only [State.incoming, awake, if_false, State.servePort, boot, serves, length, plain, fabric, home, ne_eq, not_true_eq_false, Bool.true_eq_false,
    or_self, false_and, decide_false, Bool.false_and, Bool.false_eq_true]

theorem incomingPortRequest_reads {bs : List Byte} (memory : s.incoming r = (s.portMemory r).getD s) (op : r.op = .read)
    (read : s.readDev r.world (r.world / 64 * 2 ^ 52 + r.addr) r.bytes.length = .ok bs) :
    Leads (.incomingPortRequest r) s { s with answers := s.answers ++ [(r.port, 0, bs)] } := by
  have read : s.readDev r.world (absAddr (partOfWorld r.world) r.addr) r.bytes.length = .ok bs := read
  rw [Leads, exec_incomingPortRequest, execIncomingPortRequest, memory]
  simp only [State.portMemory, op, if_true, read]
  rfl

theorem incomingPortRequest_writes {s2 : State} (memory : s.incoming r = (s.portMemory r).getD s) (thawed : ∀ p f, (s.part p).ckpt.holds f = false)
    (op : r.op = .write) (written : s.writeDev r.world (r.world / 64 * 2 ^ 52 + r.addr) r.bytes = .ok s2) (unwatched : s2.portHits r = []) :
    ∃ u : State, exec (.incomingPortRequest r) s = .next u ∧ u.mem = s2.mem ∧ u.answers = s2.answers ++ [(r.port, 0, [])] := by
  have written : s.writeDev r.world (absAddr (partOfWorld r.world) r.addr) r.bytes = .ok s2 := written
  obtain ⟨ps, marked⟩ : ∃ ps, (s2.markExt (absAddr (partOfWorld r.world) r.addr)).markExt
      (absAddr (partOfWorld r.world) r.addr + r.bytes.length - 1) = { s2 with parts := ps } := by
    obtain ⟨ps, first⟩ := s2.markExt_eq (absAddr (partOfWorld r.world) r.addr)
    rw [first]
    exact State.markExt_eq ..
  have unwatched : ({ s2 with parts := ps } : State).portHits r = [] := unwatched
  rw [exec_incomingPortRequest, execIncomingPortRequest, memory]
  simp only [State.portMemory, op, reduceCtorEq, if_false, State.shadowRange_thawed thawed, State.frameHeld_thawed thawed, Bool.false_eq_true,
    State.portResult, written, marked, unwatched, List.foldl_nil]
  exact ⟨_, rfl, rfl, rfl⟩

end

/-! ## Bounce channels (spec/14 R370, R371, spec/21 R449) -/

theorem tset_tset {α : Type} (n : Nat) (x y : α) : ∀ t : Tbl α, tset (tset t n x) n y = tset t n y
  | [] => by simp [tset]
  | (k, v) :: r => by
    by_cases below : n < k
    · simp [tset, below]
    · by_cases same : n = k
      · simp [tset, same]
      · simp [tset, below, same, tset_tset n x y r]

theorem State.modPart_modPart (s : State) (p : Nat) (f g : Partition → Partition) : (s.modPart p f).modPart p g = s.modPart p fun x => g (f x) := by
  have once : ((s.modPart p f).modPart p g) = (s.modPart p f).setPart p (g (f (s.part p))) := by
    rw [State.modPart, State.part_modPart_same]
  rw [once, State.modPart, State.setPart, State.setPart, tset_tset]
  rfl

section
variable {s : State} {w c : Nat} {v : BitVec 64}

theorem bounceDoorbell_held (on : s.doorbellsOn w = true) (asleep : (s.part (w / 64)).pscur = 2) : Leads (.bounceDoorbell w c v) s
    (s.modPart (w / 64) fun x => { x with psbells := x.psbells ++ [(true, w, c, v.toNat)], psexit := true }) := by
  have held : s.bellHeld true w c v.toNat = some
      (s.modPart (w / 64) fun x => { x with psbells := x.psbells ++ [(true, w, c, v.toNat)], psexit := true }) := by
    simp only [State.bellHeld, on, partOfWorld, asleep, beq_self_eq_true, Bool.and_self, if_true, State.wake, State.part_modPart_same,
      State.modPart_modPart]
  rw [Leads, exec_bounceDoorbell, execBounceDoorbell, held]
  rfl

/-- A doorbell of a partition that is awake is served at once. -/
theorem bounceDoorbell_served (awake : (s.part (w / 64)).pscur ≠ 2) : Leads (.bounceDoorbell w c v) s (s.ringBounce w c v.toNat) := by
  have served : s.bellHeld true w c v.toNat = none := by
    simp [State.bellHeld, partOfWorld, awake]
  rw [Leads, exec_bounceDoorbell, execBounceDoorbell, served]
  rfl

theorem Bounce.admits_iff (b : Bounce) (n : Nat) : b.admits n = true ↔ (n + 2 ^ 64 - b.cons) % 2 ^ 64 ≤ 2 ^ (b.ctl.toNat % 32) := by
  have slots : b.slots = 2 ^ (b.ctl.toNat % 32) := by
    simp [Bounce.slots, bitsOf]
  rw [Bounce.admits, slots, decide_eq_true_iff]

theorem State.ringBounce_staged (on : s.doorbellsOn w = true) (known : c < 16) (mism : (s.channel w c).mism = true) (n : Nat) :
    s.ringBounce w c n = s.modChannel w c fun x => { x with staged := some n } := by
  simp [State.ringBounce, on, Nat.not_le.2 known, mism]

theorem State.ringBounce_accepted (on : s.doorbellsOn w = true) (known : c < 16) (matched : (s.channel w c).mism = false)
    (usable : (s.channel w c).usable = true) {n : Nat} (admits : (s.channel w c).admits n = true) :
    s.ringBounce w c n = s.modChannel w c fun x => { x with prod := n } := by
  simp [State.ringBounce, on, Nat.not_le.2 known, matched, usable, admits]

theorem bounceResync_restarts {n : Nat} (boot : s.boot = 1) (staged : (s.channel w c).staged = some n) (mism : (s.channel w c).mism = true)
    (new : v.toNat % 2 ^ 32 ≠ (s.channel w c).gen) (admits : (s.channel w c).admits n = true) : Leads (.bounceResync w c v) s
      (s.modChannel w c fun x => { x with gen := v.toNat % 2 ^ 32, mism := false, staged := none, prod := n }) := by
  have restarts : (s.channel w c).mism && v.toNat % 2 ^ 32 != (s.channel w c).gen && (s.channel w c).admits n := by
    rw [mism, admits, bne_iff_ne.2 new]
    rfl
  rw [Leads, exec_bounceResync, execBounceResync, if_pos boot, State.resync]
  simp only [staged, restarts, if_true]

theorem bounceResync_ignored (boot : s.boot = 1)
    (h : (s.channel w c).staged = none ∨ (s.channel w c).mism = false ∨ v.toNat % 2 ^ 32 = (s.channel w c).gen) :
    Leads (.bounceResync w c v) s s := by
  have ignored : s.resync w c v.toNat = s := by
    unfold State.resync
    dsimp only
    split
    · rfl
    · rename_i n staged
      rcases h with none_ | matched | old
      · rw [none_] at staged
        cases staged
      · simp [matched]
      · rw [old, bne_self_eq_false, Bool.and_false, Bool.false_and]
        rfl
  rw [Leads, exec_bounceResync, execBounceResync, if_pos boot, ignored]

/-- A channel with nothing to land, or mismatched, stays as it is. -/
theorem bounceSlotLand_waits (h : (s.channel w c).mism = true ∨ (s.channel w c).cons = (s.channel w c).prod) : Leads (.bounceSlotLand w c) s s := by
  have waits : s.landSlot w c = s := by
    refine if_pos ?_
    rcases h with mism | empty
    · simp [mism]
    · simp [empty]
  rw [Leads, exec_bounceSlotLand, execBounceSlotLand, waits]

theorem bounceSlotLand_lands {bs : List Byte} {s1 s2 : State} (usable : (s.channel w c).usable = true) (matched : (s.channel w c).mism = false)
    (more : (s.channel w c).cons ≠ (s.channel w c).prod) (on : s.doorbellsOn w = true) (awake : (s.part (w / 64)).pscur = 0)
    (read : s.readRange (s.bounceAccess w) 8 (s.channel w c).from_ (s.channel w c).slotBytes = .ok bs s1)
    (written : s1.agentWrites (s.bounceAccess w) (pieceWrites (pagePieces 8 (s.channel w c).to_ (s.channel w c).slotBytes) bs ++
      [((s.channel w c).countAt, bytesOf 8 (((s.channel w c).cons + 1) % 2 ^ 64))]) = .ok none s2) :
    ∃ u : State, exec (.bounceSlotLand w c) s = .next u ∧ u.mem = s2.mem ∧ u.host = s2.host ∧ tget (u.world w).bounce c =
      some { s2.channel w c with cons := ((s.channel w c).cons + 1) % 2 ^ 64, last := ((s.channel w c).cons + 1) % 2 ^ 64 } := by
  have lands : (!(s.channel w c).usable || (s.channel w c).mism || (s.channel w c).cons == (s.channel w c).prod || !s.doorbellsOn w ||
      (s.part (partOfWorld w)).pscur != 0) = false := by
    simp [usable, matched, more, on, partOfWorld, awake]
  rw [exec_bounceSlotLand, execBounceSlotLand]
  simp only [State.landSlot, lands, Bool.false_eq_true, if_false, read, written]
  refine ⟨_, rfl, rfl, rfl, ?_⟩
  rw [State.clearTried_world, State.modChannel, State.world_modWorld_same, tget_tset_same]
  rfl

end

/-- Settles O50, event by event: what each leaves of the tables it names, where no skein replays and, for lost links, nothing is in flight. -/
theorem portsLinksAndBounce : Obligations.PortsLinksAndBounce := by
  unfold Obligations.PortsLinksAndBounce
  intro quiet
  refine ⟨fun s w page frame => atsTranslationCompletion_holds, fun s w page frame rd wr => atsTranslationCompletion_stale rd wr,
    fun s w page q asked awake => ⟨pageRequestResponse_granted q asked awake, pageRequestResponse_denied q asked awake⟩,
    fun s w first last => atsInvalidation_refused, fun s w first last => atsInvalidation_completes,
    fun s r x => xinvGo_drops, fun s p => ⟨xinvComplete_ends, xinvComplete_waits⟩,
    fun s p d => ⟨peerUnreachable_reached, peerUnreachable_lost⟩, fun s port => pcieLinkDown_loses, fun s port => portDown_fabric,
    fun s port => rfl, ?requests, fun s w c v => bounceDoorbell_held, ?doorbells, ?resyncs,
    fun s w c bs s1 s2 => bounceSlotLand_lands, fun s w c => bounceSlotLand_waits⟩
  case requests =>
    intro s r boot serves some_ pcie home thawed
    refine ⟨incomingPortRequest_held, fun bs awake op => incomingPortRequest_reads ?_ op, fun s2 awake op => incomingPortRequest_writes ?_ thawed op⟩ <;>
      exact State.incoming_memory boot serves some_ pcie home awake (by rw [op]; decide)
  case doorbells =>
    intro s w c v on known awake
    refine ⟨fun mism => ?_, fun matched usable admits => ?_⟩
    · have served := bounceDoorbell_served (c := c) (v := v) awake
      rwa [State.ringBounce_staged on known mism] at served
    · have served := bounceDoorbell_served (c := c) (v := v) awake
      rwa [State.ringBounce_accepted on known matched usable ((Bounce.admits_iff _ _).2 admits)] at served
  case resyncs =>
    intro s w c v boot
    exact ⟨fun n staged mism new admits => bounceResync_restarts boot staged mism new ((Bounce.admits_iff _ _).2 admits), bounceResync_ignored boot⟩

end Sys2Proof.Machine
end

section
/-! PROOFS, O55, O54. The codec: every well-formed word decodes from its fields, and a word that decodes is put together again from what the
decoder read of it, form by form. -/

namespace Sys2Proof

/-! ## Codes of the small types -/

theorem GuardMode.ofCode_eq_some {n : Nat} {m : GuardMode} : GuardMode.ofCode n = some m ↔ m.code = n :=
  ⟨by unfold GuardMode.ofCode; split <;> rintro ⟨⟩ <;> rfl, by rintro rfl; cases m <;> rfl⟩

theorem IntTy.ofCode_eq_some {n : Nat} {t : IntTy} : IntTy.ofCode n = some t ↔ t.code = n :=
  ⟨by unfold IntTy.ofCode; split <;> rintro ⟨⟩ <;> rfl, by rintro rfl; cases t <;> rfl⟩

theorem BitTy.ofCode_eq_some {n : Nat} {t : BitTy} : BitTy.ofCode n = some t ↔ t.code = n :=
  ⟨by unfold BitTy.ofCode; split <;> rintro ⟨⟩ <;> rfl, by rintro rfl; cases t <;> rfl⟩

theorem FTy.ofCode_eq_some {n : Nat} {t : FTy} : FTy.ofCode n = some t ↔ t.code = n :=
  ⟨by unfold FTy.ofCode; split <;> rintro ⟨⟩ <;> rfl, by rintro rfl; cases t <;> rfl⟩

theorem IvTy.ofCode_eq_some {n : Nat} {t : IvTy} : IvTy.ofCode n = some t ↔ t.code = n :=
  ⟨by unfold IvTy.ofCode; split <;> rintro ⟨⟩ <;> rfl, by rintro rfl; cases t <;> rfl⟩

theorem HTy.ofCode_eq_some {n : Nat} {t : HTy} : HTy.ofCode n = some t ↔ t.code = n :=
  ⟨by unfold HTy.ofCode; split <;> rintro ⟨⟩ <;> rfl, by rintro rfl; cases t <;> rfl⟩

theorem Space.ofCode_eq_some {n : Nat} {p : Space} : Space.ofCode n = some p ↔ p.code = n :=
  ⟨by unfold Space.ofCode; split <;> rintro ⟨⟩ <;> rfl, by rintro rfl; cases p <;> rfl⟩

theorem Order.ofCode_eq_some {n : Nat} {o : Order} : Order.ofCode n = some o ↔ o.code = n :=
  ⟨by unfold Order.ofCode; split <;> rintro ⟨⟩ <;> rfl, by rintro rfl; cases o <;> rfl⟩

theorem Scope.ofCode_eq_some {n : Nat} {c : Scope} : Scope.ofCode n = some c ↔ c.code = n :=
  ⟨by unfold Scope.ofCode; split <;> rintro ⟨⟩ <;> rfl, by rintro rfl; cases c <;> rfl⟩

/-! ## Fields taken apart and put together -/

/-- The fields of a number that its widths hold are in range, and make the number again. -/
theorem packFields_unpackFields : ∀ (ws : List Nat) (n : Nat), n < 2 ^ ws.sum →
    packFields (ws.zip (unpackFields ws n)) = n ∧ List.Forall₂ (fun w v => v < 2 ^ w) ws (unpackFields ws n)
  | [], n, h => ⟨by simp [packFields] at h ⊢; omega, .nil⟩
  | w :: ws, n, h => by
    have below : n / 2 ^ w < 2 ^ ws.sum := Nat.div_lt_of_lt_mul (by rwa [← Nat.pow_add])
    obtain ⟨packed, ranges⟩ := packFields_unpackFields ws (n / 2 ^ w) below
    refine ⟨?_, .cons (Nat.mod_lt _ (Nat.two_pow_pos w)) ranges⟩
    rw [unpackFields, List.zip_cons_cons, packFields, packed, Nat.mod_mod, Nat.mod_add_div]

/-- A word is the word of the fields it is taken apart into. -/
theorem word_of_fields {ws : List Nat} (full : ws.sum = 64) {w : W64} {vs : List Nat} (h : unpackFields ws w.toNat = vs) :
    w = BitVec.ofNat 64 (packFields (ws.zip vs)) ∧ List.Forall₂ (fun w v => v < 2 ^ w) ws vs := by
  obtain ⟨packed, ranges⟩ := packFields_unpackFields ws w.toNat (by rw [full]; exact w.isLt)
  subst h
  exact ⟨by rw [packed, BitVec.ofNat_toNat, BitVec.setWidth_eq], ranges⟩

theorem boolNat_bitField {n : Nat} (h : n < 2 ^ 1) : boolNat (bitField n) = n := by
  obtain rfl | rfl : n = 0 ∨ n = 1 := by omega
  · rfl
  · rfl

/-- The header that the decoder builds holds the fields it was built from. -/
theorem fields_of_mkHdr {b gm gp : Nat} {h : Hdr} (made : mkHdr b gm gp = some h) (hb : b < 2 ^ 1) (hp : gp < 2 ^ 4) :
    boolNat h.b = b ∧ h.gm = gm ∧ h.gp = gp := by
  obtain ⟨m, mode, rfl⟩ := Option.map_eq_some_iff.1 made
  exact ⟨boolNat_bitField hb, GuardMode.ofCode_eq_some.1 mode, by rw [Hdr.gp, BitVec.toNat_ofNat, Nat.mod_eq_of_lt hp]⟩

/-- What passes the last checks is the operation's instruction, well formed, with nothing set beside it. -/
theorem of_finish {o : Option Instr} {rest : Nat} {i : Instr} (h : finish o rest = .ok i) : o = some i ∧ rest = 0 ∧ i.wf = true := by
  unfold finish at h
  split at h
  · cases h
  · split_ifs at h with ok
    cases h
    exact ⟨rfl, ok⟩

/-! ## The operation maps -/

theorem encode_of_buildV3 {op ty : Nat} {f : V3} {i : Instr} (h : buildV3 op ty f = some i) : encode i = some (V3.word op ty f) := by
  unfold buildV3 at h
  split at h
  case h_51 | h_52 =>
    obtain ⟨rfl, made⟩ := Option.ite_none_right_eq_some.1 h
    cases made
    rfl
  case h_63 => cases h
  all_goals
    simp only [Option.map_eq_some_iff, IntTy.ofCode_eq_some, BitTy.ofCode_eq_some, FTy.ofCode_eq_some, IvTy.ofCode_eq_some,
      HTy.ofCode_eq_some] at h
    obtain ⟨t, rfl, rfl⟩ := h
    rfl

theorem encode_of_buildVI {op ty : Nat} {f : VI} {i : Instr} (h : buildVI op ty f = some i) : encode i = some (VI.word op ty f) := by
  unfold buildVI at h
  split at h
  case h_34 => cases h
  all_goals
    simp only [Option.map_eq_some_iff, IntTy.ofCode_eq_some, BitTy.ofCode_eq_some, FTy.ofCode_eq_some] at h
    obtain ⟨t, rfl, rfl⟩ := h
    rfl

theorem encode_of_buildM {op : Nat} {f : MF} {i : Instr} (h : buildM op f = some i) : encode i = some (MF.word op f) := by
  unfold buildM at h
  split at h
  case h_8 => split at h <;> cases h <;> rfl
  all_goals cases h <;> rfl

theorem encode_of_buildC {op : Nat} {f : CF} {i : Instr} (h : buildC op f = some i) : encode i = some (CF.word op f) := by
  unfold buildC at h
  split at h <;> cases h <;> rfl

theorem encode_of_buildX {op : Nat} {f : XF} {i : Instr} (h : buildX op f = some i) : encode i = some (XF.word op f) := by
  unfold buildX at h
  split at h <;> cases h <;> rfl

theorem encode_of_buildS {op : Nat} {f : SF} {i : Instr} (h : buildS op f = some i) : encode i = some (SF.word op f) := by
  unfold buildS at h
  split at h <;> cases h <;> rfl

/-! ## The forms -/

theorem getElem?_unpackFields : ∀ (ws : List Nat) (n k : Nat),
    (unpackFields ws n)[k]? = ws[k]?.map fun width => n / 2 ^ (ws.take k).sum % 2 ^ width
  | [], _, _ => by simp [unpackFields]
  | _ :: _, _, 0 => by simp [unpackFields]
  | _ :: ws, _, k + 1 => by simp [unpackFields, getElem?_unpackFields ws, Nat.div_div_eq_div_mul, Nat.pow_add]

/-- A field taken apart is the bits of the number where it stands. -/
theorem field_eq_bitsOf {ws vs : List Nat} {n v hi : Nat} (k : Nat) (fields : unpackFields ws n = vs) (field : vs[k]? = some v)
    (width : ws[k]? = some (hi + 1 - (ws.take k).sum)) : v = bitsOf n hi (ws.take k).sum := by
  rw [← fields, getElem?_unpackFields, width] at field
  exact (Option.some.inj field).symm

section
variable {w : W64} {i : Instr}

theorem encode_of_decodeV3 (form : bitsOf w.toNat 62 60 = 0) (h : decodeV3 w.toNat = .ok i) : i.wf = true ∧ encode i = some w := by
  unfold decodeV3 at h
  split at h
  case h_2 => cases h
  case h_1 z ub i' sc cl ac nc ab nb aa na c b a d gp gm ty op v bb fields =>
    obtain ⟨word, ranges⟩ := word_of_fields (ws := v3Widths) rfl fields
    simp only [v3Widths, List.forall₂_cons] at ranges
    obtain rfl : v = 0 := (field_eq_bitsOf 19 fields rfl rfl).trans form
    split at h
    case h_1 => cases h
    case h_2 header =>
      obtain ⟨built, rfl, wf⟩ := of_finish h
      obtain ⟨hb, hm, hp⟩ := fields_of_mkHdr header (by simp only [ranges]) (by simp only [ranges])
      refine ⟨wf, (encode_of_buildV3 built).trans (congrArg some ?_)⟩
      simp only [word, V3.word, hb, hm, hp, BitVec.toNat_ofNat, boolNat_bitField, ranges, Nat.mod_eq_of_lt]
      rfl

theorem encode_of_decodeVI (form : bitsOf w.toNat 62 60 = 1) (h : decodeVI w.toNat = .ok i) : i.wf = true ∧ encode i = some w := by
  unfold decodeVI at h
  split at h
  case h_2 => cases h
  case h_1 z i' cl aa na imm a d gp gm ty op v bb fields =>
    obtain ⟨word, ranges⟩ := word_of_fields (ws := viWidths) rfl fields
    simp only [viWidths, List.forall₂_cons] at ranges
    obtain rfl : v = 1 := (field_eq_bitsOf 12 fields rfl rfl).trans form
    split at h
    case h_1 => cases h
    case h_2 header =>
      obtain ⟨built, rfl, wf⟩ := of_finish h
      obtain ⟨hb, hm, hp⟩ := fields_of_mkHdr header (by simp only [ranges]) (by simp only [ranges])
      refine ⟨wf, (encode_of_buildVI built).trans (congrArg some ?_)⟩
      simp only [word, VI.word, hb, hm, hp, BitVec.toNat_ofNat, boolNat_bitField, ranges, Nat.mod_eq_of_lt]
      rfl

theorem encode_of_decodeM (form : bitsOf w.toNat 62 60 = 2) (h : decodeM w.toNat = .ok i) : i.wf = true ∧ encode i = some w := by
  unfold decodeM at h
  split at h
  case h_2 => cases h
  case h_1 z ua ord scope hint off idx base data gp gm size space mop v bb fields =>
    obtain ⟨word, ranges⟩ := word_of_fields (ws := mWidths) rfl fields
    simp only [mWidths, List.forall₂_cons] at ranges
    obtain rfl : v = 2 := (field_eq_bitsOf 14 fields rfl rfl).trans form
    split at h
    case h_1 => cases h
    case h_2 header =>
      split at h
      case h_2 => cases h
      case h_1 inSpace inScope inOrder =>
        obtain ⟨built, rfl, wf⟩ := of_finish h
        obtain ⟨hb, hm, hp⟩ := fields_of_mkHdr header (by simp only [ranges]) (by simp only [ranges])
        refine ⟨wf, (encode_of_buildM built).trans (congrArg some ?_)⟩
        simp only [word, MF.word, hb, hm, hp, Space.ofCode_eq_some.1 inSpace, Scope.ofCode_eq_some.1 inScope, Order.ofCode_eq_some.1 inOrder,
          BitVec.toNat_ofNat, boolNat_bitField, ranges, Nat.mod_eq_of_lt]
        rfl

theorem encode_of_decodeC (form : bitsOf w.toNat 62 60 = 3) (h : decodeC w.toNat = .ok i) : i.wf = true ∧ encode i = some w := by
  unfold decodeC at h
  split at h
  case h_2 => cases h
  case h_1 cfl off cb ca gp gm op v bb fields =>
    obtain ⟨word, ranges⟩ := word_of_fields (ws := cWidths) rfl fields
    simp only [cWidths, List.forall₂_cons] at ranges
    obtain rfl : v = 3 := (field_eq_bitsOf 7 fields rfl rfl).trans form
    split at h
    case h_1 => cases h
    case h_2 header =>
      obtain ⟨built, -, wf⟩ := of_finish h
      obtain ⟨hb, hm, hp⟩ := fields_of_mkHdr header (by simp only [ranges]) (by simp only [ranges])
      refine ⟨wf, (encode_of_buildC built).trans (congrArg some ?_)⟩
      simp only [word, CF.word, hb, hm, hp, BitVec.toNat_ofNat, ranges, Nat.mod_eq_of_lt]
      rfl

theorem encode_of_decodeX (form : bitsOf w.toNat 62 60 = 4) (h : decodeX w.toNat = .ok i) : i.wf = true ∧ encode i = some w := by
  unfold decodeX at h
  split at h
  case h_2 => cases h
  case h_1 z lo c b a gp gm op v bb fields =>
    obtain ⟨word, ranges⟩ := word_of_fields (ws := xWidths) rfl fields
    simp only [xWidths, List.forall₂_cons] at ranges
    obtain rfl : v = 4 := (field_eq_bitsOf 8 fields rfl rfl).trans form
    split at h
    case h_1 => cases h
    case h_2 header =>
      obtain ⟨built, rfl, wf⟩ := of_finish h
      obtain ⟨hb, hm, hp⟩ := fields_of_mkHdr header (by simp only [ranges]) (by simp only [ranges])
      refine ⟨wf, (encode_of_buildX built).trans (congrArg some ?_)⟩
      simp only [word, XF.word, hb, hm, hp, BitVec.toNat_ofNat, ranges, Nat.mod_eq_of_lt]
      rfl

theorem encode_of_decodeS (form : bitsOf w.toNat 62 60 = 5) (h : decodeS w.toNat = .ok i) : i.wf = true ∧ encode i = some w := by
  unfold decodeS at h
  split at h
  case h_2 => cases h
  case h_1 sub imm sb sa dst gp gm op v bb fields =>
    obtain ⟨word, ranges⟩ := word_of_fields (ws := sWidths) rfl fields
    simp only [sWidths, List.forall₂_cons] at ranges
    obtain rfl : v = 5 := (field_eq_bitsOf 8 fields rfl rfl).trans form
    split at h
    case h_1 => cases h
    case h_2 header =>
      obtain ⟨built, -, wf⟩ := of_finish h
      obtain ⟨hb, hm, hp⟩ := fields_of_mkHdr header (by simp only [ranges]) (by simp only [ranges])
      refine ⟨wf, (encode_of_buildS built).trans (congrArg some ?_)⟩
      simp only [word, SF.word, hb, hm, hp, BitVec.toNat_ofNat, ranges, Nat.mod_eq_of_lt]
      rfl

/-- In a WAITC word the operand fields that WAITC does not have are zero (spec/09 R251). -/
theorem encode_of_decodeWaitc (form : bitsOf w.toNat 62 60 = 5) (waitc : bitsOf w.toNat 59 52 = 0x27) (h : decodeWaitc w.toNat = .ok i) :
    i.wf = true ∧ encode i = some w := by
  unfold decodeWaitc at h
  split at h
  case h_2 => cases h
  case h_1 z t c s l sb sa dst gp gm op v bb fields =>
    obtain ⟨word, ranges⟩ := word_of_fields (ws := waitcWidths) rfl fields
    simp only [waitcWidths, List.forall₂_cons] at ranges
    obtain rfl : v = 5 := (field_eq_bitsOf 11 fields rfl rfl).trans form
    obtain rfl : op = 0x27 := (field_eq_bitsOf 10 fields rfl rfl).trans waitc
    split at h
    case h_1 => cases h
    case h_2 header =>
      obtain ⟨built, unused, wf⟩ := of_finish h
      obtain ⟨rfl, rfl, rfl, rfl⟩ : z = 0 ∧ sb = 0 ∧ sa = 0 ∧ dst = 0 := by omega
      obtain ⟨hb, hm, hp⟩ := fields_of_mkHdr header (by simp only [ranges]) (by simp only [ranges])
      refine ⟨wf, ?_⟩
      rw [← Option.some.inj built]
      simp only [encode, word, WaitcF.word, hb, hm, hp, BitVec.toNat_ofNat, ranges, Nat.mod_eq_of_lt]
      rfl

/-- What the decoder reads of a word is well formed, and the word is its word. -/
theorem encode_of_decode (h : decode w = .ok i) : i.wf = true ∧ encode i = some w := by
  dsimp only [decode] at h
  split at h
  case h_1 form => exact encode_of_decodeV3 form h
  case h_2 form => exact encode_of_decodeVI form h
  case h_3 form => exact encode_of_decodeM form h
  case h_4 form => exact encode_of_decodeC form h
  case h_5 form => exact encode_of_decodeX form h
  case h_6 form =>
    split_ifs at h with waitc
    · exact encode_of_decodeWaitc form waitc h
    · exact encode_of_decodeS form h
  case h_7 => cases h

end

/-! ## Instruction by instruction -/

/-- The steps that have a word are the instructions. -/
theorem isSome_encode (i : Instr) : (encode i).isSome = i.isWord := by cases i <;> rfl

open Laws in
/-- Each well-formed instruction decodes from its word; the other steps have none. -/
theorem decode_of_encode (i : Instr) : Codec.Statement i := by
  cases i with
  | iadd ty f => exact Codec.iadd ty f
  | iaddImm ty f => exact Codec.iaddImm ty f
  | isub ty f => exact Codec.isub ty f
  | isubImm ty f => exact Codec.isubImm ty f
  | imul ty f => exact Codec.imul ty f
  | imulImm ty f => exact Codec.imulImm ty f
  | imulh ty f => exact Codec.imulh ty f
  | imulhImm ty f => exact Codec.imulhImm ty f
  | imad ty f => exact Codec.imad ty f
  | imadImm ty f => exact Codec.imadImm ty f
  | imadw ty f => exact Codec.imadw ty f
  | idiv ty f => exact Codec.idiv ty f
  | idivImm ty f => exact Codec.idivImm ty f
  | irem ty f => exact Codec.irem ty f
  | iremImm ty f => exact Codec.iremImm ty f
  | imin ty f => exact Codec.imin ty f
  | iminImm ty f => exact Codec.iminImm ty f
  | imax ty f => exact Codec.imax ty f
  | imaxImm ty f => exact Codec.imaxImm ty f
  | lea ty f => exact Codec.lea ty f
  | leaImm ty f => exact Codec.leaImm ty f
  | icmp ty f => exact Codec.icmp ty f
  | icmpImm ty f => exact Codec.icmpImm ty f
  | and ty f => exact Codec.and ty f
  | andImm ty f => exact Codec.andImm ty f
  | or ty f => exact Codec.or ty f
  | orImm ty f => exact Codec.orImm ty f
  | xor ty f => exact Codec.xor ty f
  | xorImm ty f => exact Codec.xorImm ty f
  | andn ty f => exact Codec.andn ty f
  | andnImm ty f => exact Codec.andnImm ty f
  | orn ty f => exact Codec.orn ty f
  | ornImm ty f => exact Codec.ornImm ty f
  | shl ty f => exact Codec.shl ty f
  | shlImm ty f => exact Codec.shlImm ty f
  | shr ty f => exact Codec.shr ty f
  | shrImm ty f => exact Codec.shrImm ty f
  | sar ty f => exact Codec.sar ty f
  | sarImm ty f => exact Codec.sarImm ty f
  | rotl ty f => exact Codec.rotl ty f
  | rotlImm ty f => exact Codec.rotlImm ty f
  | fshl ty f => exact Codec.fshl ty f
  | bfx ty f => exact Codec.bfx ty f
  | bfxImm ty f => exact Codec.bfxImm ty f
  | bfi ty f => exact Codec.bfi ty f
  | bfiImm ty f => exact Codec.bfiImm ty f
  | popc ty f => exact Codec.popc ty f
  | clz ty f => exact Codec.clz ty f
  | ctz ty f => exact Codec.ctz ty f
  | brev ty f => exact Codec.brev ty f
  | bperm ty f => exact Codec.bperm ty f
  | bpermImm ty f => exact Codec.bpermImm ty f
  | mov ty f => exact Codec.mov ty f
  | movImm ty f => exact Codec.movImm ty f
  | movh ty f => exact Codec.movh ty f
  | sel3 ty f => exact Codec.sel3 ty f
  | fadd ty f => exact Codec.fadd ty f
  | faddImm ty f => exact Codec.faddImm ty f
  | fmul ty f => exact Codec.fmul ty f
  | fmulImm ty f => exact Codec.fmulImm ty f
  | ffma ty f => exact Codec.ffma ty f
  | ffmaImm ty f => exact Codec.ffmaImm ty f
  | fmin ty f => exact Codec.fmin ty f
  | fminImm ty f => exact Codec.fminImm ty f
  | fmax ty f => exact Codec.fmax ty f
  | fmaxImm ty f => exact Codec.fmaxImm ty f
  | fdiv ty f => exact Codec.fdiv ty f
  | fdivImm ty f => exact Codec.fdivImm ty f
  | fsqrt ty f => exact Codec.fsqrt ty f
  | frcp ty f => exact Codec.frcp ty f
  | frsq ty f => exact Codec.frsq ty f
  | fex2 ty f => exact Codec.fex2 ty f
  | flg2 ty f => exact Codec.flg2 ty f
  | fsinp ty f => exact Codec.fsinp ty f
  | fcosp ty f => exact Codec.fcosp ty f
  | frnd ty f => exact Codec.frnd ty f
  | fscale ty f => exact Codec.fscale ty f
  | fscaleImm ty f => exact Codec.fscaleImm ty f
  | fclass ty f => exact Codec.fclass ty f
  | fmant ty f => exact Codec.fmant ty f
  | fexpo ty f => exact Codec.fexpo ty f
  | fcmp ty f => exact Codec.fcmp ty f
  | fcmpImm ty f => exact Codec.fcmpImm ty f
  | cvt f => exact Codec.cvt f
  | cvtb f => exact Codec.cvtb f
  | pack2 ty f => exact Codec.pack2 ty f
  | unpk ty f => exact Codec.unpk ty f
  | ivmk ty f => exact Codec.ivmk ty f
  | ivmid ty f => exact Codec.ivmid ty f
  | ivwid ty f => exact Codec.ivwid ty f
  | ivhull ty f => exact Codec.ivhull ty f
  | ivisect ty f => exact Codec.ivisect ty f
  | ivsplit ty f => exact Codec.ivsplit ty f
  | ivmag ty f => exact Codec.ivmag ty f
  | ivmig ty f => exact Codec.ivmig ty f
  | ld f => exact Codec.ld f
  | st f => exact Codec.st f
  | ldiv f => exact Codec.ldiv f
  | stiv f => exact Codec.stiv f
  | atom f => exact Codec.atom f
  | atomc f => exact Codec.atomc f
  | red f => exact Codec.red f
  | cachePref f => exact Codec.cachePref f
  | cacheCinv f => exact Codec.cacheCinv f
  | cacheCwb f => exact Codec.cacheCwb f
  | bra f => exact Codec.bra f
  | brx f => exact Codec.brx f
  | brdec f => exact Codec.brdec f
  | call f => exact Codec.call f
  | callx f => exact Codec.callx f
  | ret f => exact Codec.ret f
  | rmark f => exact Codec.rmark f
  | rjoin f => exact Codec.rjoin f
  | fnew f => exact Codec.fnew f
  | fend f => exact Codec.fend f
  | exit f => exact Codec.exit f
  | ivfork f => exact Codec.ivfork f
  | migrate f => exact Codec.migrate f
  | bar f => exact Codec.bar f
  | bara f => exact Codec.bara f
  | barw f => exact Codec.barw f
  | sbar f => exact Codec.sbar f
  | mma f => exact Codec.mma f
  | ldstat f => exact Codec.ldstat f
  | statrel f => exact Codec.statrel f
  | tzero f => exact Codec.tzero f
  | tcvt f => exact Codec.tcvt f
  | tget f => exact Codec.tget f
  | tstr f => exact Codec.tstr f
  | copy f => exact Codec.copy f
  | copym f => exact Codec.copym f
  | copyl f => exact Codec.copyl f
  | cfill f => exact Codec.cfill f
  | evpost f => exact Codec.evpost f
  | evpop f => exact Codec.evpop f
  | launch f => exact Codec.launch f
  | nop f => exact Codec.nop f
  | pand f => exact Codec.pand f
  | por f => exact Codec.por f
  | pnot f => exact Codec.pnot f
  | pxor f => exact Codec.pxor f
  | pres f => exact Codec.pres f
  | pmov f => exact Codec.pmov f
  | shfl f => exact Codec.shfl f
  | ballot f => exact Codec.ballot f
  | vote f => exact Codec.vote f
  | rdx f => exact Codec.rdx f
  | scan f => exact Codec.scan f
  | elect f => exact Codec.elect f
  | fence f => exact Codec.fence f
  | mwait f => exact Codec.mwait f
  | mtest f => exact Codec.mtest f
  | rwrite f => exact Codec.rwrite f
  | arrwait f => exact Codec.arrwait f
  | qpush f => exact Codec.qpush f
  | qpop f => exact Codec.qpop f
  | rdctr f => exact Codec.rdctr f
  | bankcfg f => exact Codec.bankcfg f
  | gets f => exact Codec.gets f
  | sets f => exact Codec.sets f
  | trap f => exact Codec.trap f
  | eret f => exact Codec.eret f
  | bkpt f => exact Codec.bkpt f
  | emret f => exact Codec.emret f
  | yield f => exact Codec.yield f
  | step f => exact Codec.step f
  | ckpt f => exact Codec.ckpt f
  | wvload f => exact Codec.wvload f
  | wvbind f => exact Codec.wvbind f
  | swapctx f => exact Codec.swapctx f
  | waitc f => exact Codec.waitc f
  | _ => exact Codec.of_event _ rfl

/-- Settles O55: one way instruction by instruction, the other form by form. -/
theorem decodeEncode : Obligations.DecodeEncode := by
  unfold Obligations.DecodeEncode
  refine ⟨fun i _ => isSome_encode i, fun i w wf word => decode_of_encode i wf w word, fun i w h => ?_⟩
  obtain ⟨wf, word⟩ := encode_of_decode h
  exact ⟨wf, by rw [← isSome_encode, word]; rfl, word⟩

/-! ## Words written out -/

/-- Settles O54: a word read as an instruction is that instruction's word, and each other word fails the check named for it. -/
theorem decodeWords : Obligations.DecodeWords := by
  unfold Obligations.DecodeWords
  refine ⟨?iaddImm, ?ffma, ?icmp, ?and, ?ivmk, ?ld, ?atom, ?cacheCwb, ?bra, ?call, ?migrate, ?mma, ?copy, ?shfl, ?fence, ?waitc, ?trap,
    ?form, ?noV3Operation, ?noCOperation, ?noType, ?noGuard, ?index, ?reservedBit, ?reservedField, ?noSpace⟩
  case form | noV3Operation | noCOperation | noType | noGuard | index | reservedBit | reservedField | noSpace => rfl
  all_goals exact decode_of_encode _ rfl _ rfl

end Sys2Proof
end

section
/-! PROOFS, O60. Every instruction word goes through the shared issue: what stage 1 finds is taken before its own checks and effect, which come
to nothing where no fibre's guard passes. -/

namespace Sys2Proof.Machine

/-! ## The shared issue -/

/-- A word that stage 1 finds is no instruction faults in every fibre of the batch, whatever its own checks and effect (spec/20 R426, R427). -/
theorem issueChecked_illegal {s : State} {i : Instr} {b : Batch} {ready : List Nat} {c : FaultCode} (h : s.batch = some (b, ready))
    (illegal : s.stage1All b (needOf i) = some c) (pre : Batch → State → List (Nat × Out)) (body : Batch → State → Result) :
    s.issueChecked i pre body = .next (s.atIssue.finish b ready (faultAll b.all c 0)) := by
  have found : s.atIssue.stage1All b (needOf i) = some c := illegal
  rw [State.issueChecked, h]
  simp only [State.atIssue] at found ⊢
  simp only [found]

/-- Where no guard passes, a word that stage 1 lets through is ready: there is no fibre to consume or read anything (spec/06 R145). -/
theorem ready_of_none_passing {s : State} {i : Instr} {b : Batch} {ready : List Nat} (h : s.batch = some (b, ready))
    (legal : s.stage1All b (needOf i) = none) (empty : b.passing i = []) : Ready s i b ready where
  batch := h
  legal := legal
  settled := by simp [empty]
  sound := by simp [empty]

/-- Checks and an effect that come to nothing in a batch where no fibre runs. -/
def IdleOnNone (pre : Batch → State → List (Nat × Out)) (body : Batch → State → Result) : Prop :=
  ∀ (b : Batch) (s : State), b.run = [] → pre b s = [] ∧ body b s = .done [] s

/-- An instruction whose checks and effect are idle only lets the fibres go on where no guard passes. -/
theorem issueChecked_none_passing {s : State} {i : Instr} {b : Batch} {ready : List Nat} {pre : Batch → State → List (Nat × Out)}
    {body : Batch → State → Result} (idle : IdleOnNone pre body) (h : Ready s i b ready) (empty : b.passing i = []) :
    s.issueChecked i pre body = .next (s.atIssue.finish b ready []) := by
  obtain ⟨noFault, noEffect⟩ := idle (b.taking i) s.atIssue empty
  rw [h.issueChecked pre body noFault, noEffect]

/-! ## Checks of stage 2 without a fibre -/

@[simp] theorem faultAll_nil (c : FaultCode) (a : W64) : faultAll [] c a = [] := rfl

section
variable {b : Batch} (empty : b.run = []) (s : State)
include empty

theorem Batch.each_none (f : Nat → Fibre → Out) : b.each f = [] := by rw [Batch.each, empty]; rfl

theorem misplaced_none (ok : Fibre → Bool) : misplaced ok b s = [] := by simp [misplaced, empty]

theorem detScope_none (f : MF) : detScope f b s = [] := by simp [detScope, empty]

theorem formatWord_none (r : Reg) (legal : Nat → Bool) : formatWord r legal b s = [] := by rw [formatWord, empty]

theorem ldstatCheck_none (f : XF) : ldstatCheck f b s = [] := by rw [ldstatCheck, empty]

theorem statrelCheck_none (f : XF) : statrelCheck f b s = [] := by simp [statrelCheck, empty]

theorem rwriteTarget_none (f : SF) : rwriteTarget f b s = [] := by
  unfold rwriteTarget
  cases b.all <;> simp [empty]

theorem fifoBank_none (f : SF) : fifoBank f b s = [] := by simp [fifoBank, empty]

theorem pushBank_none (f : SF) : pushBank f b s = [] := by simp [pushBank, fifoBank_none empty, empty]

/-! ## Shared effects without a fibre -/

theorem issueLocal_none (m : MemKind) (ask : Nat → Fibre → MemAsk) (mk : Nat → Fibre → List Part → SlotOp) :
    s.issueLocal b m ask mk = .done [] s := by
  rw [State.issueLocal, empty]
  rfl

theorem issueLoad_none (m : MemKind) (ask : Nat → Fibre → MemAsk) (mk : Nat → Fibre → List Part → SlotOp) :
    s.issueLoad b m ask mk = .done [] s := by
  rw [State.issueLoad, issueLocal_none empty, empty]
  exact ite_self _

theorem issueMem_none (m : MemKind) (ask : Nat → Fibre → MemAsk) (mk : Nat → Fibre → List Part → SlotOp) :
    s.issueMem b m ask mk = .done [] s := by
  rw [State.issueMem, issueLocal_none empty, empty]
  exact ite_self _

theorem issueCache_none (kind : Nat) (acc : Acc) (f : MF) : s.issueCache b kind acc f = .done [] s := by rw [State.issueCache, empty]

theorem issueTile_none (kind : Nat) (mk : Quarter → State → QuarterOp) : s.issueTile b kind mk = .done [] s := by
  rw [State.issueTile, empty]
  rfl

theorem issueCopies_none (kind : Nat) (f : XF) (mk : Nat → Fibre → Except (FaultCode × W64) CopyCmd) :
    s.issueCopies b kind f mk = .done [] s := by rw [State.issueCopies, empty]

theorem monitors_none (f : SF) (test : Bool) (hit miss : State → Nat → Fibre → SlotOp → Option (Out × State)) :
    s.monitors b f test hit miss = .done [] s := by rw [State.monitors, empty]

end

/-! ## The words -/

/-- A word is carried out by the shared issue, with checks and an effect of its own; but for RMARK and RJOIN they are idle without a fibre. -/
def GoesThroughIssue (i : Instr) : Prop :=
  ∃ pre body, (∀ s, exec i s = s.issueChecked i pre body) ∧ ((∀ f, i ≠ .rmark f ∧ i ≠ .rjoin f) → IdleOnNone pre body)

/-- A word with checks of its own. -/
theorem goesThrough_checked {i : Instr} {pre : Batch → State → List (Nat × Out)} {body : Batch → State → Result}
    (runs : ∀ s, exec i s = s.issueChecked i pre body) (noFault : ∀ {b : Batch}, b.run = [] → ∀ s, pre b s = [])
    (noEffect : ∀ {b : Batch}, b.run = [] → ∀ s, body b s = .done [] s) : GoesThroughIssue i :=
  ⟨pre, body, runs, fun _ _ s empty => ⟨noFault empty s, noEffect empty s⟩⟩

/-- A word without checks of its own. -/
theorem goesThrough_with {i : Instr} {body : Batch → State → Result} (runs : ∀ s, exec i s = s.issueWith i body)
    (noEffect : ∀ {b : Batch}, b.run = [] → ∀ s, body b s = .done [] s) : GoesThroughIssue i :=
  goesThrough_checked runs (fun _ _ => rfl) noEffect

/-- A word whose effect in each fibre is by itself. -/
theorem goesThrough_perFibre {i : Instr} {f : Batch → Nat → Fibre → Out} (runs : ∀ s, exec i s = s.perFibre i f) : GoesThroughIssue i :=
  goesThrough_with runs fun empty s => by rw [Batch.each_none empty]

/-- RMARK and RJOIN, of whose effect without a fibre nothing is said. -/
theorem goesThrough_mark {i : Instr} {body : Batch → State → Result} (runs : ∀ s, exec i s = s.issueWith i body)
    (mark : ∃ f, i = .rmark f ∨ i = .rjoin f) : GoesThroughIssue i :=
  ⟨fun _ _ => [], body, runs, fun other => let ⟨f, is⟩ := mark; absurd is (not_or.2 (other f))⟩

/-- Every word goes through the shared issue. -/
theorem goesThroughIssue (i : Instr) (word : i.isWord = true) : GoesThroughIssue i := by
  cases i with
  | iadd | iaddImm | isub | isubImm | imul | imulImm | imulh | imulhImm | imad | imadImm | imadw | idiv | idivImm | irem | iremImm | imin
  | iminImm | imax | imaxImm | lea | leaImm | icmp | icmpImm | and | andImm | or | orImm | xor | xorImm | andn | andnImm | orn | ornImm
  | shl | shlImm | shr | shrImm | sar | sarImm | rotl | rotlImm | fshl | bfx | bfxImm | bfi | bfiImm | popc | clz | ctz | brev | bperm
  | bpermImm | mov | movImm | movh | sel3 | fadd | faddImm | fmul | fmulImm | ffma | ffmaImm | fmin | fminImm | fmax | fmaxImm | fdiv
  | fdivImm | fsqrt | frcp | frsq | fex2 | flg2 | fsinp | fcosp | frnd | fscale | fscaleImm | fclass | fmant | fexpo | fcmp | fcmpImm
  | cvt | pack2 | unpk | ivmk | ivmid | ivwid | ivhull | ivisect | ivsplit | ivmag | ivmig | bra | brx | brdec | call | callx | ret
  | barw | nop | pand | por | pnot | pxor | pres | pmov | shfl | ballot | vote | rdx | scan | elect | trap | bkpt | step =>
    exact goesThrough_perFibre fun s => by unfold exec; rfl
  | cvtb | fend => exact goesThrough_with (fun s => by unfold exec; rfl) fun empty s => by simp only [Batch.each_none empty]
  | ld f => exact goesThrough_with (exec_ld f) fun empty s => issueLoad_none empty s _ _ _
  | ldiv f => exact goesThrough_with (exec_ldiv f) fun empty s => issueLoad_none empty s _ _ _
  | st f => exact goesThrough_with (exec_st f) fun empty s => issueMem_none empty s _ _ _
  | stiv f => exact goesThrough_with (exec_stiv f) fun empty s => issueMem_none empty s _ _ _
  | atom f => exact goesThrough_checked (exec_atom f) (fun empty s => detScope_none empty s f) fun empty s => issueMem_none empty s _ _ _
  | atomc f => exact goesThrough_checked (exec_atomc f) (fun empty s => detScope_none empty s f) fun empty s => issueMem_none empty s _ _ _
  | red f => exact goesThrough_checked (exec_red f) (fun empty s => detScope_none empty s f) fun empty s => issueMem_none empty s _ _ _
  | cachePref f => exact goesThrough_with (exec_cachePref f) fun empty s => by simp only [Batch.each_none empty, empty]
  | cacheCwb f => exact goesThrough_with (exec_cacheCwb f) fun empty s => issueCache_none empty s _ _ f
  | cacheCinv f => exact goesThrough_with (exec_cacheCinv f) fun empty s => issueCache_none empty s _ _ f
  | rmark f => exact goesThrough_mark (exec_rmark f) ⟨f, .inl rfl⟩
  | rjoin f => exact goesThrough_mark (exec_rjoin f) ⟨f, .inr rfl⟩
  | fnew | ivfork | gets | rdctr => exact goesThrough_with (fun s => by unfold exec; rfl) fun empty s => by rw [empty]; rfl
  | migrate f => exact goesThrough_checked (exec_migrate f) (fun empty s => by rw [empty]; rfl) fun empty s => by rw [Batch.each_none empty]
  | bar | bara =>
    exact goesThrough_with (fun s => by unfold exec; rfl) fun empty s => by rw [Batch.each_none empty, Batch.releasing, empty]; rfl
  | sbar | launch | wvload | wvbind | swapctx => exact goesThrough_with (fun s => by unfold exec; rfl) fun empty s => by simp only [empty]
  | exit | fence | waitc | arrwait | bankcfg | evpost | evpop =>
    exact goesThrough_with (fun s => by unfold exec; rfl) fun empty s => by rw [empty]; rfl
  | mwait f => exact goesThrough_with (exec_mwait f) fun empty s => monitors_none empty s f _ _ _
  | mtest f =>
    exact goesThrough_with (exec_mtest f) fun empty s => by
      simp only [monitors_none empty s f]
      exact ite_self _
  | rwrite f => exact goesThrough_checked (exec_rwrite f) (fun empty s => rwriteTarget_none empty s f) fun empty s => by simp only [empty]
  | qpush f => exact goesThrough_checked (exec_qpush f) (fun empty s => pushBank_none empty s f) fun empty s => by rw [empty]; rfl
  | qpop f => exact goesThrough_checked (exec_qpop f) (fun empty s => fifoBank_none empty s f) fun empty s => by rw [empty]; rfl
  | sets f => exact goesThrough_with (exec_sets f) fun empty s => by simp [Batch.each_none empty, empty]
  | eret f => exact goesThrough_checked (exec_eret f) (fun empty s => misplaced_none empty s _) fun empty s => by rw [Batch.each_none empty]
  | emret f => exact goesThrough_checked (exec_emret f) (fun empty s => misplaced_none empty s _) fun empty s => by rw [Batch.each_none empty]
  | yield f => exact goesThrough_with (exec_yield f) fun empty s => by simp [Batch.each_none empty, empty]
  | ckpt f => exact goesThrough_with (exec_ckpt f) fun empty s => by rw [Batch.each_none empty, empty]; rfl
  | mma f => exact goesThrough_checked (exec_mma f) (fun empty s => formatWord_none empty s _ _) fun empty s => issueTile_none empty s _ _
  | tzero f => exact goesThrough_checked (exec_tzero f) (fun empty s => formatWord_none empty s _ _) fun empty s => issueTile_none empty s _ _
  | tcvt f => exact goesThrough_checked (exec_tcvt f) (fun empty s => formatWord_none empty s _ _) fun empty s => issueTile_none empty s _ _
  | tget f => exact goesThrough_checked (exec_tget f) (fun empty s => formatWord_none empty s _ _) fun empty s => issueTile_none empty s _ _
  | tstr f => exact goesThrough_checked (exec_tstr f) (fun empty s => formatWord_none empty s _ _) fun empty s => issueTile_none empty s _ _
  | ldstat f => exact goesThrough_checked (exec_ldstat f) (fun empty s => ldstatCheck_none empty s f) fun empty s => by simp only [empty]
  | statrel f => exact goesThrough_checked (exec_statrel f) (fun empty s => statrelCheck_none empty s f) fun empty s => by rw [empty]; rfl
  | copy | copym | copyl | cfill => exact goesThrough_with (fun s => by unfold exec; rfl) fun empty s => issueCopies_none empty s _ _ _
  | _ => cases word

/-- Settles O60, by the shared issue of every word. -/
theorem guardsAndStageOne : Obligations.GuardsAndStageOne := by
  unfold Obligations.GuardsAndStageOne
  intro s i b ready word h
  obtain ⟨pre, body, runs, idle⟩ := goesThroughIssue i word
  refine ⟨fun c illegal => ?_, fun legal empty other => ?_⟩
  · rw [runs, issueChecked_illegal h illegal]
    rfl
  · rw [runs, issueChecked_none_passing (idle other) (ready_of_none_passing h legal empty) empty]

end Sys2Proof.Machine
end

section
/-! PROOFS, shared by O1 to O13. The model's arithmetic on patterns as operations on bit vectors, the values that registers hold, and the effect of a
word on each fibre by itself. -/

namespace Sys2Proof

/-! ## Patterns of n bits -/

theorem toSigned_eq_toInt (n v : Nat) : toSigned n v = (BitVec.ofNat n v).toInt := by
  rw [BitVec.toInt_eq_toNat_cond, BitVec.toNat_ofNat, toSigned]
  cases n with
  | zero => simp [Nat.mod_one]
  | succ n =>
    have half : v % 2 ^ (n + 1) < 2 ^ n ↔ 2 * (v % 2 ^ (n + 1)) < 2 ^ (n + 1) := by omega
    simp only [Nat.add_sub_cancel, half]

theorem wrapInt_eq_toNat (n : Nat) (x : Int) : wrapInt n x = (BitVec.ofInt n x).toNat := (BitVec.toNat_ofInt x).symm

theorem toSigned_toNat {n : Nat} (p : BitVec n) : toSigned n p.toNat = p.toInt := by
  rw [toSigned_eq_toInt, BitVec.ofNat_toNat, BitVec.setWidth_eq]

theorem toNat_ofNat_of_lt {n v : Nat} (h : v < 2 ^ n) : (BitVec.ofNat n v).toNat = v := by rw [BitVec.toNat_ofNat, Nat.mod_eq_of_lt h]

theorem wrapInt_toSigned {n v : Nat} (h : v < 2 ^ n) : wrapInt n (toSigned n v) = v := by
  rw [wrapInt_eq_toNat, toSigned_eq_toInt, BitVec.ofInt_toInt, toNat_ofNat_of_lt h]

theorem wrapInt_natCast {n v : Nat} (h : v < 2 ^ n) : wrapInt n v = v := by
  rw [wrapInt_eq_toNat, BitVec.ofInt_natCast, toNat_ofNat_of_lt h]

/-- A shorter pattern is sign-extended to n bits. -/
theorem toSigned_wrapInt_toInt {k n : Nat} (h : k ≤ n) (p : BitVec k) : toSigned n (wrapInt n p.toInt) = p.toInt := by
  rw [wrapInt_eq_toNat, toSigned_toNat]
  exact BitVec.toInt_signExtend_of_le h

namespace Machine

open Sys2Proof.Says

/-! ## Values of registers (spec/03 R58) -/

theorem groupVal_lt : ∀ ws : List W32, groupVal ws < 2 ^ (32 * ws.length)
  | [] => Nat.one_pos
  | v :: r => by
    have low := v.isLt
    have high := groupVal_lt r
    rw [groupVal, List.length_cons, Nat.mul_succ, Nat.add_comm, pow_add]
    omega

theorem Fibre.rdVal_lt (x : Fibre) (n k : Nat) : x.rdVal n k < 2 ^ (32 * k) := by
  have len : (x.rdGroup n k).length = k := by rw [Fibre.rdGroup, List.length_map, rangeFrom_eq_range', List.length_range']
  have h := groupVal_lt (x.rdGroup n k)
  rwa [len] at h

theorem Fibre.wrVal_one (x : Fibre) (n v : Nat) : x.wrVal n 1 v = x.wr n (BitVec.ofNat 32 v) := rfl

/-- Registers take a value modulo their bits. -/
theorem Fibre.wrVal_mod (x : Fibre) (n k v : Nat) : x.wrVal n k (v % 2 ^ (32 * k)) = x.wrVal n k v := by
  induction k generalizing x n v with
  | zero => rfl
  | succ k ih =>
    have bits : 2 ^ (32 * (k + 1)) = 2 ^ 32 * 2 ^ (32 * k) := by rw [← pow_add, Nat.mul_succ, Nat.add_comm]
    have low : BitVec.ofNat 32 (v % 2 ^ (32 * (k + 1))) = BitVec.ofNat 32 v :=
      BitVec.eq_of_toNat_eq (by rw [BitVec.toNat_ofNat, BitVec.toNat_ofNat, bits, Nat.mod_mul_right_mod])
    rw [Fibre.wrVal, Fibre.wrVal, low, bits, Nat.mod_mul_right_div_self, ih]

/-- A multi-clock result is pending as the words of its value. -/
theorem Fibre.later_eq_pending (x : Fibre) (r : Reg) (n v : Nat) : x.later r n v = pending x r (words n v) := by
  rw [Fibre.later, wordsOf_eq_words]
  rfl

theorem bFibre_taking (b : Batch) (i : Instr) (x : Fibre) (ub : Bool) : bFibre (b.taking i) x ub = supplier b x ub := rfl

/-! ## The word in each fibre -/

/-- A word whose outcome in each fibre is by itself. -/
theorem outcome_of_perFibre {i : Instr} {f g : Batch → Nat → Fibre → Out} (runs : ∀ s : State, exec i s = s.perFibre i g)
    (same : ∀ b t x, g (b.taking i) t x = f b t x) : Outcome i f := by
  intro s b ready h
  rw [runs, h.perFibre, funext₂ (same b)]

end Machine
end Sys2Proof
end

section
/-! PROOFS, O1, O2. Class I: sources as exact integers, results saturated or wrapped. -/

namespace Sys2Proof.Machine

open Sys2Proof.Says

/-! ## Sources and results (spec/06 R150, R151, R153) -/

theorem intBits_eq (ty : IntTy) : intBits ty = 32 * intRegs ty := by cases ty <;> rfl

theorem intBits_div (ty : IntTy) : intBits ty / 32 = intRegs ty := by cases ty <;> rfl

theorem rdVal_lt_intBits (x : Fibre) (r : Nat) (ty : IntTy) : x.rdVal r (intRegs ty) < 2 ^ intBits ty := by
  rw [intBits_eq]
  exact x.rdVal_lt r _

/-- The pattern after absolute value and negation. -/
def modBits (n : Nat) (neg abs : Bool) (v : Nat) : BitVec n :=
  let q := if abs then (BitVec.ofNat n v).abs else BitVec.ofNat n v
  if neg then -q else q

theorem modInt_eq_modBits {n v : Nat} (lt : v < 2 ^ n) (neg abs : Bool) : modInt n neg abs v = (modBits n neg abs v).toNat := by
  have top : (BitVec.ofNat n v).msb = decide (2 ^ (n - 1) ≤ v) := by
    rw [BitVec.msb_eq_decide, toNat_ofNat_of_lt lt]
  have magnitude : (if abs && decide (2 ^ (n - 1) ≤ v) then (2 ^ n - v) % 2 ^ n else v) =
      (if abs then (BitVec.ofNat n v).abs else BitVec.ofNat n v).toNat := by
    cases abs with
    | false => simpa using (toNat_ofNat_of_lt lt).symm
    | true =>
      simp only [Bool.true_and, if_true, BitVec.abs_eq, top, decide_eq_true_eq]
      split
      · rw [BitVec.toNat_neg, toNat_ofNat_of_lt lt]
      · rw [toNat_ofNat_of_lt lt]
  simp only [modInt, modBits, magnitude]
  cases neg
  · rfl
  · simp only [if_true, BitVec.toNat_neg]

theorem intVal_modInt (ty : IntTy) {v : Nat} (lt : v < 2 ^ intBits ty) (neg abs : Bool) :
    intVal ty (modInt (intBits ty) neg abs v) = intIn ty neg abs v := by
  rw [modInt_eq_modBits lt]
  cases ty with
  | s32 | s64 => exact toSigned_toNat _
  | n32 | n64 => rfl

theorem intVal_intSrc (x : Fibre) (ty : IntTy) (r : Reg) (neg abs : Bool) :
    intVal ty (x.intSrc ty r neg abs) = intIn ty neg abs (x.rdVal r.toNat (intRegs ty)) := by
  rw [Fibre.intSrc, intBits_div, intVal_modInt ty (rdVal_lt_intBits ..)]

theorem intVal_immInt (ty : IntTy) (i : BitVec 24) : intVal ty (immInt ty i) = intImm ty i := by
  cases ty with
  | s32 | s64 => exact toSigned_wrapInt_toInt (by decide) i
  | n32 | n64 => rfl

theorem finishInt_eq_intOut (ty : IntTy) (clamp : Bool) (v : Int) : finishInt ty clamp v = intOut ty clamp v := by
  have ordered : intMin ty ≤ intMax ty := by cases ty <;> decide
  have saturated : max (intMin ty) (min (intMax ty) v) = if v < intMin ty then intMin ty else if intMax ty < v then intMax ty else v := by
    split
    · omega
    · split <;> omega
  cases clamp with
  | false => simp [finishInt, intOut, wrapInt]
  | true => simp [finishInt, intOut, wrapInt, saturated]

/-- A pattern is what it stands for, wrapped. -/
theorem intOut_intVal (ty : IntTy) {v : Nat} (lt : v < 2 ^ intBits ty) : intOut ty false (intVal ty v) = v := by
  rw [← finishInt_eq_intOut]
  cases ty with
  | s32 | s64 => exact wrapInt_toSigned lt
  | n32 | n64 => exact wrapInt_natCast lt

theorem intSrc_eq_intOut (x : Fibre) (ty : IntTy) (r : Reg) (neg abs : Bool) :
    x.intSrc ty r neg abs = intOut ty false (intIn ty neg abs (x.rdVal r.toNat (intRegs ty))) := by
  have lt : x.intSrc ty r neg abs < 2 ^ intBits ty := by
    rw [Fibre.intSrc, intBits_div, modInt_eq_modBits (rdVal_lt_intBits ..)]
    exact (modBits ..).isLt
  rw [← intVal_intSrc, intOut_intVal ty lt]

theorem immInt_eq_intOut (ty : IntTy) (i : BitVec 24) : immInt ty i = intOut ty false (intImm ty i) := by
  have lt : immInt ty i < 2 ^ intBits ty := by
    cases ty with
    | s32 | s64 => rw [immInt, wrapInt_eq_toNat]; exact (BitVec.ofInt ..).isLt
    | n32 | n64 => exact i.isLt.trans (by decide)
  rw [← intVal_immInt, intOut_intVal ty lt]

theorem intDst_eq (x : Fibre) (ty : IntTy) (r : Reg) (v : Nat) : x.intDst ty r v = x.wrVal r.toNat (intRegs ty) v := by
  rw [Fibre.intDst, intBits_div]

/-! ## The shared operations (spec/07 R176) -/

section
variable {i : Instr} {ty : IntTy}

theorem intV3_of_intOp {f : V3} {op : Int → Int → Int → Int} (runs : ∀ s : State, exec i s = s.perFibre i (intOp op ty f)) :
    IntV3 i ty f op :=
  effect_of_perFibre runs fun b t x => by
    simp only [intOp, v3Ints, intVal_intSrc, finishInt_eq_intOut, intDst_eq, bFibre_taking]

theorem intVI_of_intOpImm {f : VI} {op : Int → Int → Int → Int} (runs : ∀ s : State, exec i s = s.perFibre i (intOpImm op ty f)) :
    IntVI i ty f op :=
  effect_of_perFibre runs fun b t x => by
    simp only [intOpImm, intVal_intSrc, intVal_immInt, finishInt_eq_intOut, intDst_eq]

theorem pending_of_intLate {f : V3} {op : Int → Int → Int} {model : IntTy → Int → Int → Int} (same : ∀ a c, model ty a c = op a c)
    (runs : ∀ s : State, exec i s = s.perFibre i (intLate model ty f)) : Effect i fun b _ x =>
      pending x f.dst (words (intRegs ty) (intOut ty f.clamp (op (intIn ty f.nega f.absa (x.rdVal f.sa.toNat (intRegs ty)))
        (intIn ty f.negb f.absb ((supplier b x f.ub).rdVal f.sb.toNat (intRegs ty)))))) :=
  effect_of_perFibre runs fun b t x => by
    simp only [intLate, v3Ints, intVal_intSrc, finishInt_eq_intOut, same, Fibre.later_eq_pending, intBits_div, bFibre_taking]

theorem pending_of_intLateImm {f : VI} {op : Int → Int → Int} {model : IntTy → Int → Int → Int} (same : ∀ a c, model ty a c = op a c)
    (runs : ∀ s : State, exec i s = s.perFibre i (intLateImm model ty f)) : Effect i fun _ _ x =>
      pending x f.dst (words (intRegs ty) (intOut ty f.clamp (op (intIn ty f.nega f.absa (x.rdVal f.sa.toNat (intRegs ty))) (intImm ty f.imm)))) :=
  effect_of_perFibre runs fun b t x => by
    simp only [intLateImm, intVal_intSrc, intVal_immInt, finishInt_eq_intOut, same, Fibre.later_eq_pending, intBits_div]

end

/-! ## Exact operations -/

theorem mulhOp_eq_fdiv (ty : IntTy) (a b : Int) : mulhOp ty a b = Int.fdiv (a * b) (2 ^ intBits ty) :=
  (Int.fdiv_eq_ediv_of_nonneg _ (by positivity)).symm

/-- The type of LEA's B, which is one register (R181). -/
def leaTy : IntTy → IntTy
  | .s32 | .s64 => .s32
  | .n32 | .n64 => .n32

theorem leaB_eq_intIn (ty : IntTy) (neg abs : Bool) (v : W32) : leaB ty neg abs v.toNat = intIn (leaTy ty) neg abs v.toNat := by
  cases ty with
  | s32 | s64 => exact intVal_modInt .s32 v.isLt neg abs
  | n32 | n64 => exact intVal_modInt .n32 v.isLt neg abs

/-- Settles O1: each word is its exact operation on the values of its sources, finished; LEA's B is one register. -/
theorem integerArithmetic : Obligations.IntegerArithmetic := by
  unfold Obligations.IntegerArithmetic
  intro ty
  refine ⟨fun f => intV3_of_intOp (exec_iadd ty f), fun f => intVI_of_intOpImm (exec_iaddImm ty f),
    fun f => intV3_of_intOp (exec_isub ty f), fun f => intVI_of_intOpImm (exec_isubImm ty f),
    fun f => intV3_of_intOp (exec_imul ty f), fun f => intVI_of_intOpImm (exec_imulImm ty f), fun f => ?_, fun f => ?_,
    fun f => intV3_of_intOp (exec_imad ty f), fun f => intVI_of_intOpImm (exec_imadImm ty f),
    fun f => intV3_of_intOp (exec_imin ty f), fun f => intVI_of_intOpImm (exec_iminImm ty f),
    fun f => intV3_of_intOp (exec_imax ty f), fun f => intVI_of_intOpImm (exec_imaxImm ty f),
    fun f => ?lea, fun f => intVI_of_intOpImm (exec_leaImm ty f), fun f wf => ?_, fun f wf => ?_, fun f wf => ?_⟩
  · simp only [← mulhOp_eq_fdiv]
    exact intV3_of_intOp (exec_imulh ty f)
  · simp only [← mulhOp_eq_fdiv]
    exact intVI_of_intOpImm (exec_imulhImm ty f)
  case lea =>
    refine effect_of_perFibre (exec_lea ty f) fun b t x => ?_
    simp only [intVal_intSrc, leaB_eq_intIn, finishInt_eq_intOut, intDst_eq, bFibre_taking, BitVec.ofNat_toNat, BitVec.setWidth_eq]
    rfl
  · simp only [Instr.wf, Bool.and_eq_true, decide_eq_true_eq] at wf
    obtain ⟨⟨_, shift⟩, _⟩ := wf
    exact shift
  · rcases wf with wf | wf | wf <;> simp_all [Instr.wf]
  · rcases wf with wf | wf | wf <;> simp_all [Instr.wf]

/-! ## Division (spec/07 R180) -/

theorem tdiv_eq_sign_mul (a b : Int) : Int.tdiv a b = Int.sign a * Int.sign b * (a.natAbs / b.natAbs : Nat) := by
  rw [← Int.sign_mul_natAbs (a.tdiv b), Int.sign_tdiv, Int.natAbs_tdiv]
  split
  next small => rw [Nat.div_eq_of_lt small, Nat.cast_zero, mul_zero, zero_mul]
  next => rfl

theorem tmod_eq_sign_mul (a b : Int) : Int.tmod a b = Int.sign a * (a.natAbs % b.natAbs : Nat) := by
  rw [← Int.sign_mul_natAbs (a.tmod b), Int.sign_tmod, Int.natAbs_tmod]
  split
  next whole => rw [Nat.mod_eq_zero_of_dvd (Int.natAbs_dvd_natAbs.2 whole), Nat.cast_zero, mul_zero, mul_zero]
  next => rfl

/-- Settles O2: the quotient truncates, the remainder is what it leaves, and both are pending as words. -/
theorem divisionLeavesPendingResult : Obligations.DivisionLeavesPendingResult := by
  unfold Obligations.DivisionLeavesPendingResult
  intro ty quotient remainder v3 vi
  have sameQuotient (a b : Int) : divOp ty a b = quotient a b := by
    by_cases zero : b = 0
    · cases ty <;> simp [divOp, quotient, zero, signedTy, intMax, intMin, intBits]
    · simp only [divOp, quotient, zero, ne_eq, not_false_eq_true, if_true, if_false, tdiv_eq_sign_mul]
  have sameRemainder (a b : Int) : remOp ty a b = remainder a b := by
    by_cases zero : b = 0
    · simp [remOp, remainder, zero]
    · simp only [remOp, remainder, zero, ne_eq, not_false_eq_true, if_true, if_false, ← tmod_eq_sign_mul, Int.tmod_def, mul_comm b]
  refine ⟨fun f => pending_of_intLate sameQuotient (exec_idiv ty f), fun f => pending_of_intLateImm sameQuotient (exec_idivImm ty f),
    fun f => pending_of_intLate sameRemainder (exec_irem ty f), fun f => pending_of_intLateImm sameRemainder (exec_iremImm ty f),
    fun f wf => ?_, fun f wf => ?_⟩
  · simp_all [Instr.wf]
  · simp_all [Instr.wf]

end Sys2Proof.Machine
end

section
/-! PROOFS, O4 to O7, O3. Class B: sources and results as bit vectors; then the words of classes I and B that compare, move and select. -/

namespace Sys2Proof.Machine

open Sys2Proof.Says

/-! ## Sources and results (spec/06 R149) -/

theorem bitBits_eq (ty : BitTy) : bitBits ty = 32 * (bitBits ty / 32) := by cases ty <;> rfl

theorem bitSrc_eq_toNat (x : Fibre) (ty : BitTy) (r : Reg) : x.bitSrc ty r = (bitIn ty x r).toNat := by
  have lt := x.rdVal_lt r.toNat (bitBits ty / 32)
  rw [← bitBits_eq] at lt
  exact (toNat_ofNat_of_lt lt).symm

/-- A value written is that of its low bits. -/
theorem bitOut_ofNat (ty : BitTy) (x : Fibre) (r : Reg) (v : Nat) :
    bitOut ty x r (BitVec.ofNat _ v) = x.wrVal r.toNat (bitBits ty / 32) v := by
  have low := x.wrVal_mod r.toNat (bitBits ty / 32) v
  rwa [← bitBits_eq] at low

theorem immediate_lt (ty : BitTy) (i : BitVec 24) : i.toNat < 2 ^ bitBits ty := by
  cases ty <;> exact i.isLt.trans (by decide)

/-! ## The shared operations -/

section
variable {i : Instr} {ty : BitTy} {model : Nat → Nat → Nat → Nat}

section
variable {op : BitVec (bitBits ty) → BitVec (bitBits ty) → BitVec (bitBits ty)}
  (same : ∀ a c, model (bitBits ty) a.toNat c.toNat = (op a c).toNat)
include same

theorem bitV3_of_bitOp {f : V3} (runs : ∀ s : State, exec i s = s.perFibre i (bitOp model ty f)) : BitV3 i ty f op :=
  effect_of_perFibre runs fun b t x => by simp only [bitOp, bitSrc_eq_toNat, bFibre_taking, same, bitOut]

theorem bitVI_of_bitOpImm {f : VI} (runs : ∀ s : State, exec i s = s.perFibre i (bitOpImm model ty f)) : BitVI i ty f op :=
  effect_of_perFibre runs fun b t x => by
    have immediate := toNat_ofNat_of_lt (immediate_lt ty f.imm)
    simp only [bitOpImm, bitSrc_eq_toNat, bitOut, ← same, immediate]

end

section
variable {op : BitVec (bitBits ty) → Nat → BitVec (bitBits ty)} (same : ∀ a n, model (bitBits ty) a.toNat n = (op a n).toNat)
include same

theorem countV3_of_bitOpN {f : V3} (runs : ∀ s : State, exec i s = s.perFibre i (bitOpN model ty f)) : CountV3 i ty f op :=
  effect_of_perFibre runs fun b t x => by simp only [bitOpN, bitSrc_eq_toNat, bFibre_taking, same, bitOut]

theorem countVI_of_bitOpImm {f : VI} (runs : ∀ s : State, exec i s = s.perFibre i (bitOpImm model ty f)) : CountVI i ty f op :=
  effect_of_perFibre runs fun b t x => by simp only [bitOpImm, bitSrc_eq_toNat, same, bitOut]

end

end

/-! ## Logic (spec/07 R184) -/

section
variable {w : Nat} (a c : BitVec w)

theorem notW_toNat : notW w c.toNat = (~~~c).toNat := by rw [notW, BitVec.toNat_not, Nat.mod_eq_of_lt c.isLt]

theorem opAnd_toNat : opAnd w a.toNat c.toNat = (a &&& c).toNat := (BitVec.toNat_and ..).symm

theorem opOr_toNat : opOr w a.toNat c.toNat = (a ||| c).toNat := (BitVec.toNat_or ..).symm

theorem opXor_toNat : opXor w a.toNat c.toNat = (a ^^^ c).toNat := (BitVec.toNat_xor ..).symm

theorem opAndn_toNat : opAndn w a.toNat c.toNat = (a &&& ~~~c).toNat := by
  rw [BitVec.toNat_and, ← notW_toNat]
  rfl

theorem opOrn_toNat : opOrn w a.toNat c.toNat = (a ||| ~~~c).toNat := by
  rw [BitVec.toNat_or, ← notW_toNat]
  rfl

end

/-- Settles O4, operation by operation. -/
theorem logicOperations : Obligations.LogicOperations := by
  unfold Obligations.LogicOperations
  exact fun ty => ⟨fun f => bitV3_of_bitOp opAnd_toNat (exec_and ty f), fun f => bitVI_of_bitOpImm opAnd_toNat (exec_andImm ty f),
    fun f => bitV3_of_bitOp opOr_toNat (exec_or ty f), fun f => bitVI_of_bitOpImm opOr_toNat (exec_orImm ty f),
    fun f => bitV3_of_bitOp opXor_toNat (exec_xor ty f), fun f => bitVI_of_bitOpImm opXor_toNat (exec_xorImm ty f),
    fun f => bitV3_of_bitOp opAndn_toNat (exec_andn ty f), fun f => bitVI_of_bitOpImm opAndn_toNat (exec_andnImm ty f),
    fun f => bitV3_of_bitOp opOrn_toNat (exec_orn ty f), fun f => bitVI_of_bitOpImm opOrn_toNat (exec_ornImm ty f)⟩

/-! ## Shifts (spec/07 R184) -/

section
variable {w : Nat} (a : BitVec w) (n : Nat)

theorem opShl_toNat : opShl w a.toNat n = (a <<< n).toNat := by
  rw [opShl, BitVec.toNat_shiftLeft, Nat.shiftLeft_eq]
  split
  next out => rw [Nat.mod_eq_zero_of_dvd ((pow_dvd_pow 2 out).mul_left _)]
  next => rfl

theorem opShr_toNat : opShr w a.toNat n = (a >>> n).toNat := by
  rw [opShr, BitVec.toNat_ushiftRight, Nat.shiftRight_eq_div_pow]
  split
  next out => rw [Nat.div_eq_of_lt (a.isLt.trans_le (Nat.pow_le_pow_right Nat.two_pos out))]
  next => rfl

/-- From the width less one on, a shift leaves copies of the sign. -/
theorem sshiftRight_min : a.sshiftRight (min n (w - 1)) = a.sshiftRight n := by
  obtain le | gt := le_or_gt n (w - 1)
  · rw [min_eq_left le]
  · rw [min_eq_right gt.le]
    refine BitVec.eq_of_getLsbD_eq fun i hi => ?_
    have top : a.getLsbD (w - 1) = a.msb := (BitVec.msb_eq_getLsbD_last a).symm
    simp only [BitVec.getLsbD_sshiftRight]
    cases i with
    | zero => simp [top, show ¬ n < w by omega]
    | succ i => simp [show ¬ w - 1 + (i + 1) < w by omega, show ¬ n + (i + 1) < w by omega]

theorem opSar_toNat : opSar w a.toNat n = (a.sshiftRight n).toNat := by
  rw [opSar, toSigned_toNat, wrapInt_eq_toNat, ← sshiftRight_min, BitVec.sshiftRight, Int.shiftRight_eq_div_pow]
  rfl

theorem opRotl_toNat : opRotl w a.toNat n = (a.rotateLeft (n % w)).toNat := by
  rw [BitVec.toNat_rotateLeft, Nat.mod_mod, opRotl]
  obtain rfl | pos := Nat.eq_zero_or_pos w
  · simp [BitVec.of_length_zero]
  have small : n % w < w := Nat.mod_lt _ pos
  have split : 2 ^ w = 2 ^ (w - n % w) * 2 ^ (n % w) := by rw [← pow_add, Nat.sub_add_cancel small.le]
  have high : a.toNat / 2 ^ (w - n % w) < 2 ^ (n % w) := Nat.div_lt_of_lt_mul (split ▸ a.isLt)
  rw [Nat.shiftLeft_eq, Nat.shiftRight_eq_div_pow, split, Nat.mul_mod_mul_right, ← Nat.shiftLeft_eq, Nat.shiftLeft_add_eq_or_of_lt high]

end

/-- Settles O5, operation by operation. -/
theorem shiftsAndRotates : Obligations.ShiftsAndRotates := by
  unfold Obligations.ShiftsAndRotates
  exact fun ty => ⟨fun f => countV3_of_bitOpN opShl_toNat (exec_shl ty f), fun f => countVI_of_bitOpImm opShl_toNat (exec_shlImm ty f),
    fun f => countV3_of_bitOpN opShr_toNat (exec_shr ty f), fun f => countVI_of_bitOpImm opShr_toNat (exec_shrImm ty f),
    fun f => countV3_of_bitOpN opSar_toNat (exec_sar ty f), fun f => countVI_of_bitOpImm opSar_toNat (exec_sarImm ty f),
    fun f => countV3_of_bitOpN opRotl_toNat (exec_rotl ty f), fun f => countVI_of_bitOpImm opRotl_toNat (exec_rotlImm ty f)⟩

/-! ## Fields (spec/07 R185) -/

section
variable {w : Nat}

theorem toNat_append_eq {m n : Nat} (a : BitVec m) (c : BitVec n) : (a ++ c).toNat = a.toNat * 2 ^ n + c.toNat := by
  rw [BitVec.toNat_append, ← Nat.shiftLeft_add_eq_or_of_lt c.isLt, Nat.shiftLeft_eq]

theorem opFshl_toNat (a c : BitVec w) (n : Nat) : opFshl w a.toNat c.toNat n = (((a ++ c) <<< (n % w)).extractLsb' w w).toNat := by
  rw [BitVec.extractLsb'_toNat, BitVec.toNat_shiftLeft, toNat_append_eq, Nat.shiftLeft_eq, Nat.shiftRight_eq_div_pow, pow_add,
    Nat.mod_mul_right_div_self, Nat.mod_mod, opFshl]

/-- The field of a that a BFX selector names, at the width of a. -/
def fieldOf (a : BitVec w) (sel : Nat) : BitVec w :=
  let pos := sel % 256
  let len := min (sel / 256 % 256) w
  if len = 0 ∨ w ≤ pos then 0
  else if sel.testBit 16 then (a.extractLsb' pos len).signExtend w
  else (a.extractLsb' pos len).setWidth w

theorem opBfx_toNat (a : BitVec w) (sel : Nat) : opBfx w a.toNat sel = (fieldOf a sel).toNat := by
  have field (pos len : Nat) : a.toNat / 2 ^ pos % 2 ^ len = (a.extractLsb' pos len).toNat := by
    rw [BitVec.extractLsb'_toNat, Nat.shiftRight_eq_div_pow]
  simp only [opBfx, fieldOf, field, bitOf_eq_testBit, toSigned_toNat, wrapInt_eq_toNat]
  split
  · rfl
  · split
    · rfl
    · have fits := (a.extractLsb' (sel % 256) (min (sel / 256 % 256) w)).isLt.trans_le (Nat.pow_le_pow_right Nat.two_pos (min_le_right _ w))
      rw [BitVec.toNat_setWidth, Nat.mod_eq_of_lt fits]

theorem getLsbD_fieldOf (a : BitVec w) (sel : Nat) {j : Nat} (lt : j < w) : (fieldOf a sel).getLsbD j = fieldBit w a sel j := by
  simp only [fieldOf, fieldBit]
  generalize sel % 256 = pos
  generalize min (sel / 256 % 256) w = len
  split
  · exact BitVec.getLsbD_zero
  next inside =>
    have last : (a.extractLsb' pos len).msb = a.getLsbD (pos + len - 1) := by
      rw [BitVec.msb_eq_getLsbD_last, BitVec.getLsbD_extractLsb', Nat.add_sub_assoc (by omega), decide_eq_true (by omega), Bool.true_and]
    by_cases within : j < len
    · split <;> simp only [BitVec.getLsbD_signExtend, BitVec.getLsbD_setWidth, BitVec.getLsbD_extractLsb', lt, within, decide_true,
        Bool.true_and, if_true]
    · split
      next sign => simp only [BitVec.getLsbD_signExtend, lt, within, last, sign, decide_true, Bool.true_and, if_false]
      next plain => simp only [BitVec.getLsbD_setWidth, BitVec.getLsbD_extractLsb', within, plain, decide_false, Bool.false_and, Bool.and_false]

theorem testBit_opBfi (a c : BitVec w) (sel : Nat) {j : Nat} (lt : j < w) : (opBfi w a.toNat sel c.toNat).testBit j = insertBit w a c sel j := by
  simp only [opBfi, insertBit]
  generalize sel % 256 = pos
  generalize min (sel / 256 % 256) w = len
  split
  next out => rw [if_neg (by omega)]; rfl
  next inside =>
    generalize end_ : min (pos + len) w = top
    have above : 2 ^ top = 2 ^ pos * 2 ^ (top - pos) := by rw [← pow_add, Nat.add_sub_cancel' (by omega)]
    have parts : c.toNat % 2 ^ pos + a.toNat % 2 ^ (top - pos) * 2 ^ pos + c.toNat / 2 ^ top * 2 ^ top =
        2 ^ pos * (2 ^ (top - pos) * (c.toNat / 2 ^ top) + a.toNat % 2 ^ (top - pos)) + c.toNat % 2 ^ pos := by
      rw [above]
      ring
    rw [parts, Nat.testBit_two_pow_mul_add _ (Nat.mod_lt _ (Nat.two_pow_pos _)), Nat.testBit_two_pow_mul_add _ (Nat.mod_lt _ (Nat.two_pow_pos _)),
      Nat.testBit_mod_two_pow, Nat.testBit_mod_two_pow, Nat.testBit_div_two_pow]
    obtain below | from_ := Nat.lt_or_ge j pos
    · rw [if_pos below, if_neg (by omega), decide_eq_true below, Bool.true_and]
      rfl
    · rw [if_neg from_.not_gt]
      by_cases within : j < pos + len
      · have field : j - pos < top - pos := by omega
        rw [if_pos field, if_pos ⟨from_, within⟩, decide_eq_true field, Bool.true_and]
        rfl
      · have past : j - pos - (top - pos) + top = j := by omega
        rw [if_neg (by omega), if_neg (by omega), past]
        rfl

end

/-! ## Bytes (spec/07 R187) -/

theorem ofBytes_lt : ∀ bs : List Byte, ofBytes bs < 2 ^ (8 * bs.length)
  | [] => Nat.one_pos
  | b :: r => by
    have low := b.isLt
    have high := ofBytes_lt r
    rw [ofBytes, List.length_cons, Nat.mul_succ, Nat.add_comm, pow_add]
    omega

theorem ofBytes_digit : ∀ (bs : List Byte) (k : Nat), ofBytes bs / 256 ^ k % 256 = (bs.getD k 0).toNat
  | [], k => by simp [ofBytes]
  | b :: r, 0 => by
    have low := b.isLt
    rw [ofBytes, pow_zero, Nat.div_one, List.getD_cons_zero]
    omega
  | b :: r, k + 1 => by
    have low : (b.toNat + 256 * ofBytes r) / 256 = ofBytes r := by
      have := b.isLt
      omega
    rw [ofBytes, pow_succ', ← Nat.div_div_eq_div_mul, low, ofBytes_digit r k, List.getD_cons_succ]

theorem bpermByte_eq_permByte (ty : BitTy) (a : BitVec (bitBits ty)) (sel k : Nat) :
    bpermByte (bitBits ty) a.toNat (sel / 16 ^ k % 16) = permByte (bitBits ty) a sel k := by
  have sign (v : Nat) : 128 ≤ v % 256 ↔ (v % 256).testBit 7 = true := by
    rw [Nat.testBit_eq_decide_div_mod_eq, decide_eq_true_eq]
    omega
  simp only [bpermByte, permByte, bitOf_eq_testBit]
  generalize a.toNat = v
  cases ty with
  | b32 | b64 => simp [bitBits, sign]

theorem permByte_lt (w : Nat) (a : BitVec w) (sel k : Nat) : permByte w a sel k < 256 := by
  have byte (n : Nat) : a.toNat / 256 ^ n % 256 < 256 := Nat.mod_lt _ (by decide)
  simp only [permByte]
  split_ifs
  exacts [by decide, byte _, by decide, by decide, byte _]

theorem opBperm_lt (ty : BitTy) (a sel : Nat) : opBperm (bitBits ty) a sel < 2 ^ bitBits ty := by
  refine (ofBytes_lt _).trans_le (Nat.pow_le_pow_right Nat.two_pos ?_)
  rw [List.length_map, rangeFrom_eq_range', List.length_range']
  exact Nat.mul_div_le ..

theorem permuted_opBperm (ty : BitTy) (a : BitVec (bitBits ty)) (sel : Nat) :
    Permuted (bitBits ty) a sel (BitVec.ofNat _ (opBperm (bitBits ty) a.toNat sel)) := by
  intro k lt
  rw [toNat_ofNat_of_lt (opBperm_lt ..), opBperm, ofBytes_digit, List.getD_eq_getElem?_getD, rangeFrom_eq_range', List.getElem?_map,
    List.getElem?_range' lt, Option.map_some, Option.getD_some, Nat.zero_add, Nat.one_mul, bpermByte_eq_permByte, 
    toNat_ofNat_of_lt (permByte_lt ..)]

/-- Settles O6: the field of BFX and BFI bit by bit, the bytes of BPERM digit by digit. -/
theorem fieldAndByteOperations : Obligations.FieldAndByteOperations := by
  unfold Obligations.FieldAndByteOperations
  intro ty w
  have bytes (a : BitVec w) (sel : Nat) : opBperm w a.toNat sel = (BitVec.ofNat w (opBperm w a.toNat sel)).toNat :=
    (toNat_ofNat_of_lt (opBperm_lt ..)).symm
  refine ⟨fun f => ?fshl,
    ⟨fieldOf, fun f => countV3_of_bitOpN opBfx_toNat (exec_bfx ty f), fun f => countVI_of_bitOpImm opBfx_toNat (exec_bfxImm ty f),
      fun a sel j => getLsbD_fieldOf a sel⟩,
    ⟨fun a c sel => BitVec.ofNat w (opBfi w a.toNat sel c.toNat), fun f => ?bfi, fun f => ?bfiImm, fun a c sel j lt => ?bits⟩,
    ⟨fun a sel => BitVec.ofNat w (opBperm w a.toNat sel), fun f => countV3_of_bitOpN bytes (exec_bperm ty f),
      fun f => countVI_of_bitOpImm bytes (exec_bpermImm ty f), permuted_opBperm ty⟩⟩
  case fshl =>
    refine effect_of_perFibre (exec_fshl ty f) fun b t x => ?_
    simp only [bitSrc_eq_toNat, bFibre_taking, opFshl_toNat, bitOut]
    rfl
  case bfi =>
    refine effect_of_perFibre (exec_bfi ty f) fun b t x => ?_
    simp only [bitSrc_eq_toNat, bFibre_taking]
    exact congrArg Out.next (bitOut_ofNat ..).symm
  case bfiImm =>
    refine effect_of_perFibre (exec_bfiImm ty f) fun b t x => ?_
    simp only [bitSrc_eq_toNat]
    exact congrArg Out.next (bitOut_ofNat ..).symm
  case bits => rw [BitVec.getLsbD_ofNat, decide_eq_true lt, Bool.true_and, testBit_opBfi a c sel lt]

/-! ## Counts and reversal (spec/07 R186) -/

theorem countOnes_eq_countP : ∀ n a, countOnes n a = (List.range n).countP fun j => a.testBit j
  | 0, _ => rfl
  | n + 1, a => by
    have lowest : a % 2 = if a.testBit 0 = true then 1 else 0 := by
      rw [Nat.testBit_zero]
      obtain even | odd := Nat.mod_two_eq_zero_or_one a <;> simp [*]
    rw [countOnes, List.range_succ_eq_map, List.countP_cons, List.countP_map, countOnes_eq_countP n (a / 2), Nat.add_comm, ← lowest]
    simp only [Function.comp_def, Nat.succ_eq_add_one, Nat.testBit_succ]

theorem countZeros_eq_length : ∀ n a, countZeros n a = ((List.range n).takeWhile fun j => !a.testBit j).length
  | 0, _ => rfl
  | n + 1, a => by
    rw [countZeros, List.range_succ_eq_map, List.takeWhile_cons, Nat.testBit_zero]
    obtain even | odd := Nat.mod_two_eq_zero_or_one a
    · simp [even, List.takeWhile_map, Function.comp_def, Nat.testBit_succ, countZeros_eq_length n (a / 2), Nat.add_comm]
    · simp [odd]

/-- The first of the numbers below w at which a test fails. -/
theorem length_takeWhile_range {p : Nat → Bool} {w m : Nat} (le : m ≤ w) (before : ∀ j < m, p j = true) (at_ : m < w → p m = false) :
    ((List.range w).takeWhile p).length = m := by
  have find : (List.range w).findIdx (fun j => !p j) = m := by
    obtain lt | rfl := le.lt_or_eq
    · rw [List.findIdx_eq (by rwa [List.length_range])]
      refine ⟨?_, fun j hj => ?_⟩
      · rw [List.getElem_range, at_ lt]
        rfl
      · rw [List.getElem_range, before j hj]
        rfl
    · rw [List.findIdx_eq_length_of_false, List.length_range]
      intro j hj
      rw [before j (List.mem_range.1 hj)]
      rfl
  rw [List.takeWhile_eq_take_findIdx_not, find, List.length_take, List.length_range, min_eq_left le]

theorem opClz_eq_length {w : Nat} (a : BitVec w) : opClz w a.toNat = ((List.range w).takeWhile fun j => !a.getMsbD j).length := by
  have above (m : Nat) (lt : a.toNat < 2 ^ m) (j : Nat) (high : m ≤ w - 1 - j) : (!a.getMsbD j) = true := by
    have none : a.getLsbD (w - 1 - j) = false := Nat.testBit_lt_two_pow (lt.trans_le (Nat.pow_le_pow_right Nat.two_pos high))
    rw [BitVec.getMsbD, none, Bool.and_false]
    rfl
  rw [opClz]
  split
  next zero => exact (length_takeWhile_range le_rfl (fun j _ => above 0 (by omega) j (Nat.zero_le _)) fun lt => absurd lt (lt_irrefl w)).symm
  next nonzero =>
    have top : Nat.log2 a.toNat < w := (Nat.log2_lt nonzero).2 a.isLt
    refine (length_takeWhile_range (by omega) (fun j lt => above (Nat.log2 a.toNat + 1) Nat.lt_log2_self j (by omega)) fun lt => ?_).symm
    have bit : a.getLsbD (w - 1 - (w - 1 - Nat.log2 a.toNat)) = true := by
      rw [Nat.sub_sub_self (by omega)]
      exact Nat.testBit_log2 nonzero
    rw [BitVec.getMsbD, bit, decide_eq_true lt]
    rfl

theorem reverseBits_lt : ∀ n a, reverseBits n a < 2 ^ n
  | 0, _ => Nat.one_pos
  | n + 1, a => by
    have low := reverseBits_lt n (a / 2)
    rw [reverseBits, pow_succ]
    obtain even | odd := Nat.mod_two_eq_zero_or_one a
    · rw [even]
      omega
    · rw [odd]
      omega

theorem testBit_reverseBits : ∀ n a j, (reverseBits n a).testBit j = (decide (j < n) && a.testBit (n - 1 - j))
  | 0, _, _ => by simp [reverseBits]
  | n + 1, a, j => by
    rw [reverseBits, Nat.mul_comm, Nat.testBit_two_pow_mul_add _ (reverseBits_lt n _), testBit_reverseBits n]
    obtain below | rfl | above := Nat.lt_trichotomy j n
    · have next : n + 1 - 1 - j = n - 1 - j + 1 := by omega
      rw [if_pos below, next, Nat.testBit_succ, decide_eq_true below, decide_eq_true (by omega)]
    · simp [Nat.testBit_zero]
    · obtain ⟨d, rfl⟩ := Nat.exists_eq_add_of_lt above
      have past : n + d + 1 - n = d + 1 := by omega
      rw [if_neg (by omega), past, Nat.testBit_succ, decide_eq_false (by omega), Nat.div_eq_of_lt (Nat.mod_lt a Nat.two_pos), Nat.zero_testBit,
        Bool.false_and]

theorem opBrev_toNat {w : Nat} (a : BitVec w) : opBrev w a.toNat = a.reverse.toNat := by
  refine Nat.eq_of_testBit_eq fun j => ?_
  rw [opBrev, testBit_reverseBits, BitVec.testBit_toNat, BitVec.testBit_toNat, BitVec.getLsbD_reverse, BitVec.getMsbD]

/-- Settles O7: counts along the bits, lowest or highest first. -/
theorem bitCountsAndReversal : Obligations.BitCountsAndReversal := by
  unfold Obligations.BitCountsAndReversal
  intro ty w
  refine ⟨fun f => effect_of_perFibre (exec_popc ty f) fun b t x => ?_, fun f => effect_of_perFibre (exec_clz ty f) fun b t x => ?_,
    fun f => effect_of_perFibre (exec_ctz ty f) fun b t x => ?_, fun f => effect_of_perFibre (exec_brev ty f) fun b t x => ?_⟩
  · rw [bitOp1, bitSrc_eq_toNat, opPopc, countOnes_eq_countP]
    rfl
  · rw [bitOp1, bitSrc_eq_toNat, opClz_eq_length]
    rfl
  · rw [bitOp1, bitSrc_eq_toNat, opCtz, countZeros_eq_length]
    rfl
  · rw [bitOp1, bitSrc_eq_toNat, opBrev_toNat]
    rfl

/-! ## Conditions, moves and selection (spec/07 R182, R183, R188, R189) -/

theorem intCond_eq (c : Nat) (a b : Int) : (c = 0 → intCond c a b = decide (a = b)) ∧ (c = 1 → intCond c a b = decide (a ≠ b)) ∧
    (c = 2 → intCond c a b = decide (a < b)) ∧ (c = 3 → intCond c a b = decide (a ≤ b)) ∧ (c = 4 → intCond c a b = decide (b < a)) ∧
    (c = 5 → intCond c a b = decide (b ≤ a)) := by
  refine ⟨?_, ?_, ?_, ?_, ?_, ?_⟩ <;> rintro rfl <;> simp [intCond, bne, beq_eq_decide]

/-- Settles O3: each word by its sources as exact integers or as patterns; SEL3 by the predicate's two bits. -/
theorem wideMultiplyCompareMoveSelect : Obligations.WideMultiplyCompareMoveSelect := by
  unfold Obligations.WideMultiplyCompareMoveSelect
  refine ⟨fun ty f => ?imadw, fun ty f => ⟨intCond f.sc.toNat, ?icmp, fun a b => ?table⟩,
    fun ty f => ⟨intCond (f.dst.toNat / 16), ?icmpImm, intCond_eq _⟩,
    fun ty f => ?mov, fun ty f => ?movImm, fun ty f => ?movh, fun ty f => ?sel3⟩
  case imadw =>
    refine effect_of_perFibre (exec_imadw ty f) fun b t x => ?_
    cases ty with
    | s32 | s64 | n32 | n64 => simp [intVal_intSrc, bFibre_taking, finishInt_eq_intOut, signedTy, intRegs]
  case icmp =>
    refine effect_of_perFibre (exec_icmp ty f) fun b t x => ?_
    simp only [v3Ints, intVal_intSrc, bFibre_taking]
  case table =>
    obtain ⟨eq, ne, lt, le, gt, ge⟩ := intCond_eq f.sc.toNat a b
    exact ⟨fun h => eq (congrArg _ h), fun h => ne (congrArg _ h), fun h => lt (congrArg _ h), fun h => le (congrArg _ h),
      fun h => gt (congrArg _ h), fun h => ge (congrArg _ h)⟩
  case icmpImm =>
    refine effect_of_perFibre (exec_icmpImm ty f) fun b t x => ?_
    simp only [intVal_intSrc, intVal_immInt]
  case mov =>
    refine effect_of_perFibre (exec_mov ty f) fun b t x => ?_
    rw [intDst_eq, intSrc_eq_intOut]
  case movImm =>
    refine effect_of_perFibre (exec_movImm ty f) fun b t x => ?_
    rw [intDst_eq, immInt_eq_intOut]
  case movh =>
    refine effect_of_perFibre (exec_movh ty f) fun b t x => ?_
    have joined : (f.imm ++ (x.rd f.dst.toNat).setWidth 8 : BitVec 32).toNat = f.imm.toNat * 256 + (x.rd f.dst.toNat).toNat % 256 := by
      rw [toNat_append_eq, BitVec.toNat_setWidth]
      rfl
    rw [joined]
  case sel3 =>
    refine effect_of_perFibre (exec_sel3 ty f) fun b t x => ?_
    simp only [bitSrc_eq_toNat, bFibre_taking, bitOut, predOf, predCode, Fibre.pw]
    match (x.rd 0).toNat / 4 ^ f.sc.toNat % 4 with
    | 0 | 1 | _ + 2 => rfl

end Sys2Proof.Machine
end

section
/-! PROOFS, O8 to O10. Class F: sources as values, results finished once or left pending; the operations on points and on intervals. -/

namespace Sys2Proof.Machine

open Sys2Proof.Says

/-! ## Sources and results (spec/06 R149 to R151, R153) -/

theorem modFloat_eq (fmt : FloatFmt) (neg abs : Bool) (p : Nat) :
    modFloat fmt neg abs p = p % 2 ^ fmt.magBits + (if (p.testBit fmt.magBits && !abs) != neg then 2 ^ fmt.magBits else 0) := by
  rw [modFloat, FloatFmt.withSign, bitOf_eq_testBit]
  split
  · rw [Nat.add_comm]
  · rfl

/-- A point source is flushed, then modified, then read. -/
theorem read_modFloat (fmt : FloatFmt) (fm : Fmode) (neg abs : Bool) (v : Nat) :
    fmt.read (modFloat fmt neg abs (fmt.flushIn fm (v % 2 ^ fmt.width))) = floatIn fmt fm neg abs v := by
  rw [modFloat_eq]
  rfl

theorem fSrc_eq_floatIn (x : Fibre) (fmt : FloatFmt) (r : Reg) (neg abs : Bool) (fm : Fmode) :
    x.fSrc fmt r neg abs fm = floatIn fmt fm neg abs (x.rdVal r.toNat (fmtRegs fmt)) := read_modFloat ..

theorem ivSrc_eq_ivIn (x : Fibre) (fmt : FloatFmt) (r : Reg) (neg abs : Bool) : x.ivSrc fmt r neg abs = ivIn fmt x r neg abs := rfl

theorem rnd_eq_rounding (b : Batch) (i : Instr) (t j : Nat) (x : Fibre) (override : Nat) :
    x.rnd ((b.taking i).fibid t) override j = rounding b t j x override := rfl

theorem put_eq_result (x : Fibre) (late : Bool) (r : Reg) (k v : Nat) : x.put late r k v = result late x r k v := by
  rw [Fibre.put, Fibre.later_eq_pending]
  rfl

/-- The immediate of class F as a pattern of its type (R153). -/
def immPattern (ty : FTy) (i : BitVec 24) : Nat :=
  match ty with
  | .f32 => i.toNat * 2 ^ 8
  | .f64 => i.toNat * 2 ^ 40
  | .f16 | .bf16 => i.toNat % 2 ^ 16

theorem immFloat_eq_immPattern (ty : FTy) (i : BitVec 24) : immFloat (fFmt ty) i = immPattern ty i := by cases ty <;> rfl

/-! ## The shared operations (spec/07 R176, R190, R202) -/

/-- The number of sources read. -/
def Reads.count : Reads → Nat
  | .a => 1
  | .ab => 2
  | .abc => 3

section
variable {i : Instr} {ty : FTy} {late : Bool} {model : PointOp} {pt : OnPoints} {iv : OnIntervals} (reads : Reads)

theorem floatV3_of_floatOp {f : V3} (runs : ∀ s : State, exec i s = s.perFibre i (floatOp reads late model iv ty f))
    (same : ∀ fmt fm m a b c, model fmt fm m (a, b, c) = pt fmt fm m a b c) :
    FloatV3 i ty f reads.count late pt iv :=
  outcome_of_perFibre runs fun b t x => by
    cases points : f.i with
    | false =>
      simp only [floatOp, points, v3Floats, same, fSrc_eq_floatIn, put_eq_result, bFibre_taking, rnd_eq_rounding]
      rfl
    | true =>
      simp only [floatOp, points, put_eq_result, bFibre_taking, ivSrc_eq_ivIn]
      cases reads <;> rfl

theorem floatVI_of_floatOpImm {f : VI} (runs : ∀ s : State, exec i s = s.perFibre i (floatOpImm reads late model iv ty f))
    (same : ∀ fmt fm m a b c, model fmt fm m (a, b, c) = pt fmt fm m a b c) :
    FloatVI i ty f reads.count late pt iv :=
  outcome_of_perFibre runs fun b t x => by
    cases points : f.i with
    | false =>
      simp only [floatOpImm, points, viFloats, same, fSrc_eq_floatIn, put_eq_result, rnd_eq_rounding, immFloat_eq_immPattern]
      rfl
    | true =>
      simp only [floatOpImm, points, put_eq_result, ivSrc_eq_ivIn, immFloat_eq_immPattern]
      cases reads <;> rfl

end

/-! ## Points (spec/07 R190, R192, R195) -/

theorem ptFma_eq (fmt : FloatFmt) (fm : Fmode) (m : Rnd) (a b c : FV) : ptFma fmt fm m (a, b, c) =
    ([a, b, c], (if fm.unfmad = true ∧ a.ex.mul b.ex ≠ .nan then (fmt.read (fmt.roundEx m (a.ex.mul b.ex))).ex
      else a.ex.mul b.ex).add m c.ex) := by
  simp only [ptFma, Bool.and_eq_true, bne_iff_ne]

/-- Settles O8: each operation on points is exact and finished once, on intervals rounded outward. -/
theorem floatArithmetic : Obligations.FloatArithmetic := by
  unfold Obligations.FloatArithmetic
  intro add mul fma div sqrt addI mulI fmaI divI sqrtI ty
  exact ⟨fun f => floatV3_of_floatOp .ab (exec_fadd ty f) (fun _ _ _ _ _ _ => rfl),
    fun f => floatVI_of_floatOpImm .ab (exec_faddImm ty f) (fun _ _ _ _ _ _ => rfl),
    fun f => floatV3_of_floatOp .ab (exec_fmul ty f) (fun _ _ _ _ _ _ => rfl),
    fun f => floatVI_of_floatOpImm .ab (exec_fmulImm ty f) (fun _ _ _ _ _ _ => rfl),
    fun f => floatV3_of_floatOp .abc (exec_ffma ty f) ptFma_eq, fun f => floatVI_of_floatOpImm .abc (exec_ffmaImm ty f) ptFma_eq,
    fun f => floatV3_of_floatOp .ab (exec_fdiv ty f) (fun _ _ _ _ _ _ => rfl),
    fun f => floatVI_of_floatOpImm .ab (exec_fdivImm ty f) (fun _ _ _ _ _ _ => rfl),
    fun f => floatV3_of_floatOp .a (exec_fsqrt ty f) (fun _ _ _ _ _ _ => rfl)⟩

/-- a is the lesser of two numbers: it lies below, or is the same with −0 below +0. -/
def leastOf (a b : FV) (p q : ER) : Bool := p.lt q || (p.eq q && (fvNeg a || !fvNeg b))

theorem fvLeast_of_er {a b : FV} {p q : ER} (ha : a.er = some p) (hb : b.er = some q) : fvLeast a b = leastOf a b p q := by
  simp only [fvLeast, leastOf, ha, hb]
  cases same : p.eq q with
  | false => simp
  | true =>
    simp only [ER.eq, Bool.and_eq_true] at same
    obtain ⟨_, ge⟩ := same
    simp [ER.lt, ge]

theorem extreme_of_er (small : Bool) (fm : Fmode) : ∀ {a b : FV} {p q : ER}, a.er = some p → b.er = some q →
    extreme small fm a b = if leastOf a b p q = small then a.ex else b.ex
  | .inf _, .inf _, _, _, rfl, rfl | .inf _, .fin .., _, _, rfl, rfl | .fin .., .inf _, _, _, rfl, rfl | .fin .., .fin .., _, _, rfl, rfl => rfl

theorem ptMinMax_of_er (small : Bool) (fmt : FloatFmt) (fm : Fmode) (m : Rnd) (c : FV)
    {a b : FV} {p q : ER} (ha : a.er = some p) (hb : b.er = some q) :
    ptMinMax small fmt fm m (a, b, c) = ([a, b], extreme small fm a b) := by
  have number {v : FV} {r : ER} (h : v.er = some r) : fvNan v = false := by
    cases v with
    | nan => cases h
    | inf | fin => rfl
  simp only [ptMinMax, number ha, number hb, fvLeast_of_er ha hb, extreme_of_er small fm ha hb]
  cases small <;> cases leastOf a b p q <;> rfl

theorem ptMinMax_eq (small : Bool) (fmt : FloatFmt) (fm : Fmode) (m : Rnd) (a b c : FV) :
    ptMinMax small fmt fm m (a, b, c) = ([a, b], extreme small fm a b) := by
  match a, b with
  | .nan .., .nan .. => simp [ptMinMax, extreme, fvNan]
  | .nan .., .inf _ | .nan .., .fin .. | .inf _, .nan .. | .fin .., .nan .. => cases fm.minnum <;> simp [ptMinMax, extreme, fvNan]
  | .inf _, .inf _ | .inf _, .fin .. | .fin .., .inf _ | .fin .., .fin .. => exact ptMinMax_of_er small fmt fm m c rfl rfl

theorem scaleCap_eq (n : Int) : scaleCap n = if n < -5000 then -5000 else if 5000 < n then 5000 else n := by
  rw [scaleCap]
  split
  · omega
  · split <;> omega

theorem toSigned_modInt_eq_intIn (neg abs : Bool) (v : W32) : toSigned 32 (modInt 32 neg abs v.toNat) = intIn .s32 neg abs v.toNat :=
  intVal_modInt .s32 v.isLt neg abs

/-- Settles O9: the lesser and the greater by their signs where they are equal, and scales beyond every format's range as at its edge. -/
theorem floatExtremesIntegralsAndScaling : Obligations.FloatExtremesIntegralsAndScaling := by
  unfold Obligations.FloatExtremesIntegralsAndScaling
  intro ext minI maxI rnd rndI scaled ty
  have scales (i clamp neg abs : Bool) (dst sa : Reg) (n : Int) (word : Instr) (b : Batch) (t : Nat) (x : Fibre) :
      fscaleOp (fFmt ty) i clamp neg abs dst sa n ((b.taking word).fibid t) x = scaled ty i clamp neg abs dst sa n b t x := by
    simp only [fscaleOp, scaleCap_eq, fSrc_eq_floatIn, rnd_eq_rounding, ivSrc_eq_ivIn]
    rfl
  refine ⟨fun f => floatV3_of_floatOp .ab (exec_fmin ty f) (ptMinMax_eq true),
    fun f => floatVI_of_floatOpImm .ab (exec_fminImm ty f) (ptMinMax_eq true),
    fun f => floatV3_of_floatOp .ab (exec_fmax ty f) (ptMinMax_eq false),
    fun f => floatVI_of_floatOpImm .ab (exec_fmaxImm ty f) (ptMinMax_eq false),
    fun f => floatV3_of_floatOp .a (exec_frnd ty f) (fun _ _ _ _ _ _ => rfl),
    fun f => outcome_of_perFibre (exec_fscale ty f) fun b t x => ?_,
    fun f => outcome_of_perFibre (exec_fscaleImm ty f) fun b t x => scales ..⟩
  rw [toSigned_modInt_eq_intIn]
  exact scales ..

/-! ## Approximate functions (spec/07 R193, R194, R203) -/

theorem interval_eq_none {fn : AFn} {fmt : FloatFmt} {scale : Int} {bits : Nat} {a : Iv} (fm : Fmode) (clamp : Bool) :
    fn.interval fmt fm scale clamp bits a = none ↔ fn.ivBits fmt scale bits a = none := Option.map_eq_none_iff

theorem approximates_of {fn : AFn} {i : FTy → V3 → Instr} {special : FV → Option Ex} {outside : Iv → Bool}
    (runs : ∀ ty f (s : State), exec (i ty f) s = s.perFibre (i ty f) (approxOp fn ty f))
    (domain : ∀ fmt scale bits a, fn.ivBits fmt scale bits a = none ↔ outside a = true)
    (table : ∀ v r, special v = some r → fn.special v = some r) : Approximates fn i special outside := by
  have empty (fmt : FloatFmt) (fm : Fmode) (scale : Int) (clamp : Bool) (bits : Nat) (a : Iv) :
      fn.interval fmt fm scale clamp bits a = none ↔ outside a = true := (interval_eq_none fm clamp).trans (domain ..)
  refine ⟨fun ty f => outcome_of_perFibre (runs ty f) fun b t x => ?_, fun ty fm scale clamp bits a => propext (empty ..),
    fun ty fm scale clamp v r h => ?_⟩
  · cases points : f.i with
    | false =>
      simp only [approxOp, points, Fibre.later_eq_pending]
      rfl
    | true =>
      simp only [approxOp, points, Fibre.later_eq_pending, ivSrc_eq_ivIn, if_true]
      cases operand : ivIn (fFmt ty) x f.sa f.nega f.absa with
      | none => rfl
      | some a =>
        have empty := empty (fFmt ty) x.fm f.scale.toInt f.clamp (x.rdVal f.sa.toNat (2 * fmtRegs (fFmt ty))) a
        cases value : fn.interval (fFmt ty) x.fm f.scale.toInt f.clamp (x.rdVal f.sa.toNat (2 * fmtRegs (fFmt ty))) a with
        | none =>
          simp only [scaleExp, value, empty.1 value, if_true]
          rfl
        | some r =>
          have inside : ¬ outside a = true := fun out => Option.some_ne_none r (value.symm.trans (empty.2 out))
          simp only [scaleExp, value, inside]
          rfl
  · simp only [AFn.point, table _ r h]

section
variable (fmt : FloatFmt) (scale : Int) (bits : Nat) (a : Iv)

theorem ivBits_rcp_ne_none : AFn.ivBits .rcp fmt scale bits a ≠ none := by
  simp only [AFn.ivBits]
  split <;> exact Option.some_ne_none _

theorem ivBits_ex2_ne_none : AFn.ivBits .ex2 fmt scale bits a ≠ none := Option.some_ne_none _

theorem ivBits_periodic_ne_none {fn : AFn} (periodic : fn = .sinp ∨ fn = .cosp) : fn.ivBits fmt scale bits a ≠ none := by
  obtain rfl | rfl := periodic <;> simp only [AFn.ivBits] <;> split <;> exact Option.some_ne_none _

/-- A root or a logarithm has no value on an interval wholly below zero (R203). -/
theorem ivBits_below_iff {fn : AFn} (positive : fn = .rsq ∨ fn = .lg2) : fn.ivBits fmt scale bits a = none ↔ a.hi.lt ER.zero = true := by
  obtain rfl | rfl := positive <;> cases below : a.hi.lt ER.zero <;> simp [AFn.ivBits, below, ite_eq_iff]

end

/-- Settles O10: where each function has a value on an interval, and R194's values on points. -/
theorem approximateFunctions : Obligations.ApproximateFunctions := by
  unfold Obligations.ApproximateFunctions
  intro within below
  have everywhere {fn : AFn} (h : ∀ fmt scale bits a, fn.ivBits fmt scale bits a ≠ none) (fmt : FloatFmt) (scale : Int) (bits : Nat) (a : Iv) :
      fn.ivBits fmt scale bits a = none ↔ within a = true := iff_of_false (h fmt scale bits a) Bool.false_ne_true
  refine ⟨approximates_of exec_frcp (everywhere ivBits_rcp_ne_none) fun v r h => ?_,
    approximates_of exec_frsq (ivBits_below_iff · · · · (.inl rfl)) fun v r h => ?_,
    approximates_of exec_fex2 (everywhere ivBits_ex2_ne_none) fun v r h => ?_,
    approximates_of exec_flg2 (ivBits_below_iff · · · · (.inr rfl)) fun v r h => ?_,
    approximates_of exec_fsinp (everywhere (ivBits_periodic_ne_none · · · · (.inl rfl))) fun v r h => ?sinp,
    approximates_of exec_fcosp (everywhere (ivBits_periodic_ne_none · · · · (.inr rfl))) fun v r h => ?_⟩
  case sinp =>
    cases v with
    | nan | inf => exact h
    | fin neg m e =>
      simp only [Option.ite_none_right_eq_some] at h
      exact (if_pos (.inr h.1)).trans (congrArg _ (Option.some.inj h.2))
  all_goals cases v <;> exact h

end Sys2Proof.Machine
end

section
/-! PROOFS, O11. Class F's tests of a value: its class, its exponent and mantissa, and comparisons of points and of intervals. -/

namespace Sys2Proof

/-! ## What a pattern's value says of it (spec/04 R75) -/

theorem FloatFmt.read_inf {fmt : FloatFmt} {v : Nat} {neg : Bool} (inf : fmt.read v = .inf neg) : neg = bitOf v fmt.magBits := by
  obtain ⟨_, special⟩ | ⟨_, number⟩ := ite_eq_iff.1 inf
  · obtain ⟨_, infinite⟩ | ⟨_, nan⟩ := ite_eq_iff.1 special
    · cases infinite
      rfl
    · cases nan
  · obtain ⟨_, subnormal⟩ | ⟨_, normal⟩ := ite_eq_iff.1 number
    · cases subnormal
    · cases normal

/-- A value that is not zero has magnitude bits. -/
theorem FloatFmt.read_fin {fmt : FloatFmt} {v m : Nat} {neg : Bool} {e : Int} (fin : fmt.read v = .fin neg m e) (nonzero : m ≠ 0) :
    v % 2 ^ fmt.magBits ≠ 0 := by
  intro zero
  have fraction : v % 2 ^ fmt.fbits = 0 := by
    rw [← Nat.mod_mod_of_dvd v (pow_dvd_pow 2 (Nat.le_add_left fmt.fbits fmt.ebits)), ← FloatFmt.magBits, zero, Nat.zero_mod]
  have exponent : v / 2 ^ fmt.fbits % 2 ^ fmt.ebits = 0 := by
    rw [← Nat.mod_mul_right_div_self, ← pow_add, Nat.add_comm, ← FloatFmt.magBits, zero, Nat.zero_div]
  obtain ⟨_, special⟩ | ⟨_, number⟩ := ite_eq_iff.1 fin
  · obtain ⟨_, infinite⟩ | ⟨_, nan⟩ := ite_eq_iff.1 special
    · cases infinite
    · cases nan
  · obtain ⟨_, subnormal⟩ | ⟨normal, _⟩ := ite_eq_iff.1 number
    · cases subnormal
      exact nonzero fraction
    · exact normal exponent

/-! ## Comparison of points (spec/07 R197) -/

theorem ER.le_refl : ∀ p : ER, p.le p = true
  | .ninf | .pinf => rfl
  | .fin _ => decide_eq_true (Int.le_refl _)

/-- What a condition asks of two numbers. -/
def FCond.ofPoints (p q : ER) : FCond → Bool
  | .eq | .contains | .subset => p.eq q
  | .ne | .disjoint => !p.eq q
  | .lt => p.lt q
  | .le => p.le q
  | .gt => q.lt p
  | .ge => q.le p
  | .ord => true
  | .unord => false

/-- Point intervals are never undecided. -/
theorem Iv.compare_points (cond : FCond) (p q : ER) : Iv.compare cond ⟨p, p⟩ ⟨q, q⟩ = Tri.ofBool (cond.ofPoints p q) := by
  simp only [Iv.compare, FCond.ofPoints, ER.lt, ER.eq, p.le_refl, q.le_refl]
  cases p.le q <;> cases q.le p <;> cases cond <;> rfl

namespace Machine

open Sys2Proof.Says

/-- Settles O11: the class, exponent and mantissa of each kind of value; points compared as point intervals. -/
theorem floatInspectionAndComparison : Obligations.FloatInspectionAndComparison := by
  unfold Obligations.FloatInspectionAndComparison
  intro truth truthI
  have compares (c : Nat) (listed : c ≤ 10) (a b : FV) : FV.compare (.ofCode c) a b = truth c a b := by
    cases left : a.er with
    | none =>
      simp only [FV.compare, truth, left]
      interval_cases c <;> rfl
    | some p =>
      cases right : b.er with
      | none =>
        simp only [FV.compare, truth, left, right]
        interval_cases c <;> rfl
      | some q =>
        simp only [FV.compare, truth, left, right, Iv.compare_points]
        interval_cases c <;> rfl
  refine ⟨fun ty f => ?fclass, fun ty f => ?fexpo, fun ty f => ?fmant, fun ty f listed => ?fcmp, fun ty f listed => ?fcmpImm⟩
  case fclass =>
    refine effect_of_perFibre (exec_fclass ty f) fun b t x => ?_
    dsimp only
    generalize modFloat (fFmt ty) f.nega f.absa (x.rdVal f.sa.toNat (fmtRegs (fFmt ty)) % 2 ^ (fFmt ty).width) = v
    simp only [Fibre.wrVal_one, classOf, bitOf_eq_testBit, FloatFmt.isSubnormal]
    cases value : (fFmt ty).read v with
    | nan => cases v.testBit ((fFmt ty).fbits - 1) <;> rfl
    | inf neg =>
      have sign := FloatFmt.read_inf value
      rw [bitOf_eq_testBit] at sign
      rw [← sign]
      cases neg <;> rfl
    | fin _ m _ =>
      by_cases zero : m = 0
      · simp only [zero, if_true]
        cases v.testBit (fFmt ty).magBits <;> rfl
      · have nonzero := FloatFmt.read_fin value zero
        simp only [zero, if_false, bne_iff_ne.2 nonzero, Bool.true_and, decide_eq_true_eq]
        cases v.testBit (fFmt ty).magBits <;> split <;> rfl
  case fexpo =>
    refine effect_of_perFibre (exec_fexpo ty f) fun b t x => ?_
    rw [fSrc_eq_floatIn, Fibre.wrVal_one]
    cases floatIn (fFmt ty) .clear f.nega f.absa (x.rdVal f.sa.toNat (fmtRegs (fFmt ty))) with
    | nan | inf => rfl
    | fin _ m e =>
      simp only [expoOf]
      split
      · rfl
      · rw [wrapInt_eq_toNat, BitVec.ofNat_toNat, BitVec.setWidth_eq]
  case fmant =>
    refine effect_of_perFibre (exec_fmant ty f) fun b t x => ?_
    simp only [fSrc_eq_floatIn, rnd_eq_rounding]
    cases floatIn (fFmt ty) .clear f.nega f.absa (x.rdVal f.sa.toNat (fmtRegs (fFmt ty))) <;> rfl
  case fcmp =>
    refine outcome_of_perFibre (exec_fcmp ty f) fun b t x => ?_
    simp only [v3Floats, fSrc_eq_floatIn, ivSrc_eq_ivIn, bFibre_taking, compares _ listed]
    rfl
  case fcmpImm =>
    refine outcome_of_perFibre (exec_fcmpImm ty f) fun b t x => ?_
    simp only [viFloats, fSrc_eq_floatIn, ivSrc_eq_ivIn, compares _ listed, immFloat_eq_immPattern]
    rfl

end Machine
end Sys2Proof
end

section
/-! PROOFS, O12. Conversions: the formats of codes, integers in their registers, blocks, and elements packed and unpacked. -/

namespace Sys2Proof

theorem rangeFrom_map {α : Type} (g : Nat → α) (a n : Nat) : (rangeFrom a n).map g = (rangeFrom 0 n).map fun j => g (a + j) := by
  simp [rangeFrom_eq_range', List.range'_eq_map_range, Function.comp_def]

/-- A pattern of 32 bits or more keeps its low word as a signed number. -/
theorem ofInt_toSigned {n : Nat} (wide : 32 ≤ n) (v : Nat) : BitVec.ofInt 32 (toSigned n v) = BitVec.ofNat 32 v := by
  rw [toSigned_eq_toInt, ← BitVec.signExtend, BitVec.signExtend_eq_setWidth_of_le _ wide, BitVec.setWidth_ofNat_of_le wide]

/-- The top exponent of f32 joined to a fraction that is quietened. -/
theorem lor_quiet_f32 {x : Nat} (lt : x < 2 ^ 23) : Nat.lor x 0x7FC00000 = (0xFF <<< 23) + (x ||| 2 ^ 22) := by
  have quiet : x ||| 2 ^ 22 < 2 ^ 23 := Nat.or_lt_two_pow lt (by decide)
  rw [Nat.shiftLeft_add_eq_or_of_lt quiet, Nat.or_left_comm]
  rfl

/-- The fraction of an element of at most 16 bits, moved to the place of f32's. -/
theorem fraction_lt {e : Nat} (lt : e < 2 ^ 16) (k : Nat) : e % 2 ^ k * 2 ^ (23 - k) < 2 ^ 23 := by
  obtain narrow | wide := Nat.le_total k 23
  · calc e % 2 ^ k * 2 ^ (23 - k) < 2 ^ k * 2 ^ (23 - k) := Nat.mul_lt_mul_of_pos_right (Nat.mod_lt _ (Nat.two_pow_pos _)) (Nat.two_pow_pos _)
      _ = 2 ^ 23 := by rw [← pow_add, Nat.add_sub_cancel' narrow]
  · rw [Nat.sub_eq_zero_of_le wide, pow_zero, Nat.mul_one]
    exact (Nat.mod_le ..).trans_lt (lt.trans (by decide))

namespace Machine

open Sys2Proof.Says

theorem codeFloat_eq_lookup : ∀ c,
    codeFloat c = [(0, fmtF32), (1, fmtF64), (2, fmtF16), (3, fmtBf16), (4, fmtE4m3), (5, fmtE5m2)].lookup c
  | 0 | 1 | 2 | 3 | 4 | 5 => rfl
  | _ + 6 => rfl

theorem codeInt_eq_lookup : ∀ c, codeInt c = [(7, 32, true), (8, 32, false), (9, 64, true), (10, 64, false), (11, 16, true), (12, 16, false),
    (13, 8, true), (14, 8, false)].lookup c
  | 0 | 1 | 2 | 3 | 4 | 5 | 6 | 7 | 8 | 9 | 10 | 11 | 12 | 13 | 14 => rfl
  | _ + 15 => rfl

theorem intReg_eq (n : Nat) (sg : Bool) (v : Int) : intReg n sg v =
    if n < 32 then (if sg then ((BitVec.ofInt n v).signExtend 32).toNat else (BitVec.ofInt n v).toNat) else (BitVec.ofInt n v).toNat := by
  simp only [intReg, wrapInt_eq_toNat, toSigned_toNat, BitVec.signExtend]
  cases sg <;> simp

theorem intReg_zero (n : Nat) (sg : Bool) : intReg n sg 0 = 0 := by simp [intReg, wrapInt, toSigned]

/-- What UNPK makes of an element of an integer format is what its register holds, to 32 bits. -/
theorem unpackInt_eq_intReg (n v : Nat) (sg : Bool) :
    BitVec.ofNat 32 (if sg then wrapInt 32 (toSigned n (v % 2 ^ n)) else v % 2 ^ n) = BitVec.ofNat 32 (intReg n sg (v % 2 ^ n : Nat)) := by
  have fits : wrapInt n (v % 2 ^ n : Nat) = v % 2 ^ n := wrapInt_natCast (Nat.mod_lt _ (Nat.two_pow_pos n))
  rw [intReg, fits]
  obtain narrow | wide := Nat.lt_or_ge n 32
  · simp only [narrow, true_and]
  · simp only [wide.not_gt, false_and, if_false]
    split
    · rw [wrapInt_eq_toNat, BitVec.ofNat_toNat, BitVec.setWidth_eq, ofInt_toSigned wide]
    · rfl

/-- A NaN element of at most 16 bits: its sign, the top exponent, and its fraction moved up and quietened. -/
theorem unpackFloat_nan {fmt : FloatFmt} {e frac : Nat} {neg : Bool} (lt : e < 2 ^ 16) (nan : fmt.read e = .nan neg frac) :
    unpackFloat fmt e = (if neg then 2 ^ 31 else 0) + (0xFF <<< 23) + ((e % 2 ^ fmt.fbits * 2 ^ (23 - fmt.fbits)) ||| 2 ^ 22) := by
  obtain ⟨rfl, _⟩ := FloatFmt.read_nan nan
  simp only [unpackFloat, nan]
  rw [lor_quiet_f32 (fraction_lt lt _), Nat.add_assoc, FloatFmt.withSign]
  split
  · rfl
  · rw [Nat.zero_add]

/-- Settles O12: each conversion by the formats of its codes; a block's elements by the fibres that supply them. -/
theorem conversions : Obligations.Conversions := by
  unfold Obligations.Conversions
  intro floatCode intCode pairCode least most sat fill
  have floats (c : Nat) : codeFloat c = floatCode c := codeFloat_eq_lookup c
  have ints (c : Nat) : codeInt c = intCode c := codeInt_eq_lookup c
  have fills (n : Nat) (sg : Bool) (v : Int) : intReg n sg v = fill n sg v := intReg_eq n sg v
  have ranges (n : Nat) (sg : Bool) : rangeOf n sg = (least n sg, most n sg) := by cases sg <;> rfl
  have sats (n : Nat) (sg : Bool) (v : Int) : satInt n sg v = sat n sg v := by rw [satInt, ranges]
  have zero (n : Nat) (sg : Bool) : fill n sg 0 = 0 := by rw [← fills, intReg_zero]
  refine ⟨fun f => ?cvt, fun f => ?cvtb, fun ty f => ?pack2, fun ty f => ?unpk⟩
  case cvt =>
    refine effect_of_perFibre (exec_cvt f) fun b t x => ?_
    have sameRegs : codeRegs = pairCode := rfl
    simp only [sameRegs, convert, floats, ints, fills, sats, rnd_eq_rounding, toSigned_eq_toInt, floatToInt, ranges, read_modFloat]
    cases floatCode (f.sb.toNat % 16) with
    | some sf =>
      cases floatCode (f.sb.toNat / 16) with
      | some df => rfl
      | none =>
        cases intCode (f.sb.toNat / 16) with
        | none => rfl
        | some q =>
          dsimp only
          cases (floatIn sf x.fm f.nega f.absa (x.rdVal f.sa.toNat (pairCode (f.sb.toNat % 16)))).ex with
          | nan => rw [zero]
          | inf neg => cases neg <;> rfl
          | fin neg p q => cases neg <;> rfl
    | none =>
      cases intCode (f.sb.toNat % 16) with
      | none => rfl
      | some p =>
        cases floatCode (f.sb.toNat / 16) with
        | some df => 
          rfl
        | none =>
          cases intCode (f.sb.toNat / 16) with
          | none => rfl
          | some q => rfl
  case cvtb =>
    refine effect_of_perFibre (exec_cvtb f) fun b t x => ?_
    dsimp only
    rw [rangeFrom_map]
    simp only [blockElement, floats, fSrc_eq_floatIn, Fibre.wrVal_one]
    rfl
  case pack2 =>
    refine effect_of_perFibre (exec_pack2 ty f) fun b t x => ?_
    simp only [fSrc_eq_floatIn, rnd_eq_rounding, bFibre_taking, Fibre.wrVal_one]
    rfl
  case unpk =>
    refine effect_of_perFibre (exec_unpk ty f) fun b t x => ?_
    simp only [unpackElement, Fibre.wrVal_one, floats, ints]
    cases floatCode (f.sb.toNat % 16) with
    | some fmt =>
      have lt : (x.rd f.sa.toNat).toNat / 2 ^ (16 * (f.sb.toNat / 16)) % 2 ^ 16 < 2 ^ 16 := Nat.mod_lt _ (by decide)
      dsimp only
      cases value : fmt.read ((x.rd f.sa.toNat).toNat / 2 ^ (16 * (f.sb.toNat / 16)) % 2 ^ 16) with
      | nan neg frac => rw [unpackFloat_nan lt value]
      | inf | fin => rw [unpackFloat, value]
    | none =>
      cases intCode (f.sb.toNat % 16) with
      | none => rfl
      | some p =>
        dsimp only
        rw [unpackInt_eq_intReg, fills]

end Machine
end Sys2Proof
end

section
/-! PROOFS, O13. Class FI: intervals made of points, points made of intervals, hull, intersection and split. -/

namespace Sys2Proof.Machine

open Sys2Proof.Says

theorem ivDst_eq_ivOut (x : Fibre) (fmt : FloatFmt) (r : Reg) (v : Nat × Nat) : x.ivDst fmt r v = ivOut fmt x r v := rfl

theorem pointOf_of_ivPoint {i : IvTy → V3 → Instr} {model pt : FloatFmt → Iv → Nat}
    (runs : ∀ ty f (s : State), exec (i ty f) s = s.perFibre (i ty f) (ivPoint model ty f))
    (same : ∀ fmt a, model fmt a = pt fmt a) : PointOf i pt :=
  fun ty f => outcome_of_perFibre (runs ty f) fun b t x => by
    simp only [ivPoint, ivSrc_eq_ivIn, same]
    rfl

/-- Settles O13: each result is written from the bounds as the rule names them. -/
theorem intervalOperations : Obligations.IntervalOperations := by
  unfold Obligations.IntervalOperations
  refine ⟨fun ty f => ?ivmk, pointOf_of_ivPoint exec_ivmid ?ivmid, pointOf_of_ivPoint exec_ivwid ?ivwid, pointOf_of_ivPoint exec_ivmag ?ivmag,
    pointOf_of_ivPoint exec_ivmig ?ivmig, fun ty f => ?ivhull, fun ty f => ?ivisect, fun ty f => ?ivsplit⟩
  case ivmk =>
    refine effect_of_perFibre (exec_ivmk ty f) fun b t x => ?_
    have below (fmt : FloatFmt) : fmt.withSign true fmt.infCode = fmt.infCode + 2 ^ fmt.magBits := Nat.add_comm ..
    simp only [fSrc_eq_floatIn, bFibre_taking, ivDst_eq_ivOut, ivmkBits, below]
    rfl
  case ivmid => exact fun fmt a => rfl
  case ivwid => exact fun fmt a => rfl
  case ivmag => exact fun fmt a => rfl
  case ivmig => exact fun fmt a => rfl
  case ivhull => exact outcome_of_perFibre (exec_ivhull ty f) fun b t x => rfl
  case ivisect => exact outcome_of_perFibre (exec_ivisect ty f) fun b t x => rfl
  case ivsplit => exact outcome_of_perFibre (exec_ivsplit ty f) fun b t x => rfl

end Sys2Proof.Machine
end

section
/-! PROOFS, O32, O14. Exceptions that a word raises, and where branches, calls and returns lead. -/

namespace Sys2Proof.Machine

open Sys2Proof.Says

/-! ## TRAP and BKPT (spec/08 R231) -/

/-- Settles O32: the immediate, zero-extended, is the faulting address. -/
theorem trapsAndBreakpointsFault : Obligations.TrapsAndBreakpointsFault := by
  have address (f : SF) : BitVec.ofNat 64 f.imm.toNat = f.imm.zeroExtend 64 := BitVec.ofNat_toNat ..
  exact ⟨fun f => outcome_of_perFibre (exec_trap f) fun _ _ _ => congrArg Out.trap (address f),
    fun f => outcome_of_perFibre (exec_bkpt f) fun _ _ _ => congrArg (Out.fault .bkpt) (address f)⟩

/-! ## Targets (spec/08 R210, spec/11 R300) -/

theorem Fibre.target_cfOffset (x : Fibre) (f : CF) : x.target (cfOffset f) = near x f.off := by
  have words : BitVec.ofInt 64 (8 * f.off.toInt) = f.off.signExtend 64 * 8 := by
    rw [Int.mul_comm, BitVec.ofInt_mul]
    rfl
  simp only [Fibre.target, near, cfOffset, words, BitVec.signExtend]

theorem jumpTo_eq_goesTo (x y : Fibre) (t : W64) : jumpTo x y t = goesTo x y t := by
  simp only [jumpTo, goesTo, Bool.and_eq_true, Bool.not_eq_true', bne_iff_ne]

theorem Fibre.nextPc_eq_following (x : Fibre) : x.nextPc = following x := rfl

/-! ## The window (spec/03 R60) -/

theorem Fibre.enterCall_eq_called (x : Fibre) (k : Nat) : x.enterCall k = called x k := rfl

/-- A call faults where fewer than eight registers would be left. -/
theorem Fibre.callFits_eq_false (x : Fibre) (k : Nat) : x.callFits k = false ↔ window x ≤ k ∨ window x - k < 8 := by
  have fits : x.callFits k = true ↔ k < window x ∧ 8 ≤ window x - k := by
    rw [Fibre.callFits, Bool.and_eq_true, decide_eq_true_iff, decide_eq_true_iff]
    rfl
  rw [← Bool.not_eq_true, fits]
  omega

/-- The two ways of a call, in the order of the rule. -/
theorem Fibre.ite_callFits {α : Type} (x : Fibre) (k : Nat) (goes faults : α) :
    (if x.callFits k = true then goes else faults) = if window x ≤ k ∨ window x - k < 8 then faults else goes := by
  simp only [← x.callFits_eq_false, ← Bool.not_eq_true, ite_not]

/-! ## The counted branch (spec/08 R210) -/

theorem brdec_outcome (f : CF) (x : Fibre) :
    (let c := (x.rd f.ca.toNat).toNat
      let y := if c ≠ 0 then x.wr f.ca.toNat (BitVec.ofNat 32 (c - 1)) else x
      if 1 < c then Out.jump y (x.target (cfOffset f)) else .next y) =
    let c := (x.rd f.ca.toNat).toNat
    if c = 0 then .next x
    else if c = 1 then .next (x.wr f.ca.toNat 0)
    else .jump (x.wr f.ca.toNat (x.rd f.ca.toNat - 1)) (near x f.off) := by
  rw [x.target_cfOffset]
  generalize x.rd f.ca.toNat = v
  rcases Nat.lt_trichotomy v.toNat 1 with low | one | high
  · have zero : v.toNat = 0 := by omega
    simp [zero]
  · simp [one]
  · have less : BitVec.ofNat 32 (v.toNat - 1) = v - 1 := by bv_omega
    have zero : v.toNat ≠ 0 := by omega
    simp only [zero, high, high.ne', less, ne_eq, not_false_eq_true, if_true, if_false]

/-- Settles O14, word by word. -/
theorem branchesCallsAndReturns : Obligations.BranchesCallsAndReturns := by
  refine ⟨fun f => outcome_of_perFibre (exec_bra f) fun b t x => ?_, fun f => outcome_of_perFibre (exec_brx f) fun b t x => ?_,
    fun f => outcome_of_perFibre (exec_brdec f) fun b t x => brdec_outcome f x,
    fun f => outcome_of_perFibre (exec_call f) fun b t x => ?_, fun f => outcome_of_perFibre (exec_callx f) fun b t x => ?_,
    fun f => outcome_of_perFibre (exec_ret f) fun b t x => ?_⟩
  · rw [x.target_cfOffset]
  · exact jumpTo_eq_goesTo ..
  · simp only [x.ite_callFits, x.target_cfOffset, x.enterCall_eq_called]
  · simp only [x.ite_callFits, jumpTo_eq_goesTo, x.enterCall_eq_called]
  · simp only [jumpTo_eq_goesTo, Bool.or_eq_true, decide_eq_true_eq, bne_iff_ne, or_assoc]

end Sys2Proof.Machine
end

section
/-! PROOFS, O19, O20. Predicates by their codes, and what the fibres of a batch read of one another. -/

namespace Sys2Proof.Machine

open Sys2Proof.Says

/-! ## Predicate logic (spec/03 R63, spec/08 R223) -/

/-- The truth that a result code stands for. -/
def truthOf (c : Nat) : Tri := if c = 0 then .false_ else if c = 1 then .true_ else .undecided

/-- A predicate operation that goes by the table c of codes writes the truth that the table gives for the two codes read. -/
theorem effect_of_predOp {i : Instr} {f : SF} {op : Tri → Tri → Tri} (c : Nat → Nat → Nat)
    (runs : ∀ s : State, exec i s = s.perFibre i (predOp op f))
    (table : ∀ a b : Fin 4, op (Tri.ofCode a) (Tri.ofCode b) = truthOf (c a b)) :
    Effect i fun _ _ x =>
      x.wrPred f.dst.toNat (truthOf (c ((x.rd 0).toNat / 4 ^ f.sa.toNat % 4) ((x.rd 0).toNat / 4 ^ f.sb.toNat % 4))) := by
  have code (v : Nat) : v % 4 < 4 := Nat.mod_lt _ (by decide)
  refine effect_of_perFibre runs fun b t x => ?_
  exact congrArg (fun t => Out.next (x.wrPred f.dst.toNat t)) (table ⟨_, code _⟩ ⟨_, code _⟩)

/-- Settles O19: each operation is its table of codes. -/
theorem predicateLogicAndElection : Obligations.PredicateLogicAndElection := by
  refine ⟨fun f => effect_of_perFibre (exec_nop f) fun b t x => rfl,
    fun f => effect_of_predOp (fun a b => if a = 0 ∨ b = 0 then 0 else if a = 1 ∧ b = 1 then 1 else 2) (exec_pand f) (by decide),
    fun f => effect_of_predOp (fun a b => if a = 1 ∨ b = 1 then 1 else if a = 0 ∧ b = 0 then 0 else 2) (exec_por f) (by decide),
    fun f => effect_of_predOp (fun a b => if 2 ≤ a ∨ 2 ≤ b then 2 else if a = b then 0 else 1) (exec_pxor f) (by decide),
    fun f => effect_of_predOp (fun a _ => if a = 0 then 1 else if a = 1 then 0 else 2) (exec_pnot f) (by decide),
    fun f => effect_of_predOp (fun a _ => if a = 0 then 0 else if a = 1 then 1 else if f.sub = 1 then 1 else 0) (exec_pres f) ?_,
    fun f => effect_of_predOp (fun a _ => if a = 0 then 0 else if a = 1 then 1 else 2) (exec_pmov f) (by decide),
    fun f => effect_of_perFibre (exec_elect f) fun b t x => ?_⟩
  · by_cases one : f.sub = 1
    · simp only [one]
      decide
    · have zero : (f.sub == 1) = false := by simpa using one
      simp only [one, zero]
      decide
  · simp only [Tri.ofBool, beq_iff_eq, Batch.taking_run]

/-! ## Across a batch (spec/08 R224 to R226) -/

theorem voteOf_eq (mode : Nat) (cs : List Tri) : voteOf mode cs = match mode with
    | 0 => if ∀ c ∈ cs, c = .true_ then .true_ else if .false_ ∈ cs then .false_ else .undecided
    | 1 => if .true_ ∈ cs then .true_ else if ∀ c ∈ cs, c = .false_ then .false_ else .undecided
    | _ => if ∀ c ∈ cs, some c = cs.head? then .true_ else .false_ := by
  have anyIs (t : Tri) : (cs.any (· == t) = true) = (t ∈ cs) := by simp
  have allAre (t : Tri) : (cs.all (· == t) = true) = ∀ c ∈ cs, c = t := by simp
  have allAgree : (cs.all (fun t => some t == cs.head?) = true) = ∀ c ∈ cs, some c = cs.head? := by simp
  unfold voteOf
  split <;> simp only [anyIs, allAre, allAgree, Tri.ofBool]

/-- Settles O20. -/
theorem shufflesBallotsAndVotes : Obligations.ShufflesBallotsAndVotes := by
  refine ⟨fun f => effect_of_perFibre (exec_shfl f) fun b t x => ?_, fun f => effect_of_perFibre (exec_ballot f) fun b t x => rfl,
    fun f => effect_of_perFibre (exec_vote f) fun b t x => ?_, fun f wf => ?_, fun f wf => ?_⟩
  · have source (o : Option Nat) : (o.bind (inSlot b.all)).getD x =
        match o with
        | some u => ((b.all.find? fun p => p.1 == u).map (·.2)).getD x
        | none => x := by cases o <;> rfl
    simp only [bitOf_eq_testBit, Batch.taking_all, source]
    rfl
  · simp only [voteOf_eq]
    rfl
  · simp only [Instr.wf, Bool.and_eq_true, decide_eq_true_eq] at wf
    obtain ⟨⟨-, sub⟩, -⟩ := wf
    exact sub
  · simp only [Instr.wf, Bool.and_eq_true, decide_eq_true_eq] at wf
    obtain ⟨⟨⟨-, imm⟩, -⟩, -⟩ := wf
    exact imm

end Sys2Proof.Machine
end

section
/-! PROOFS, O17, O18. Arrivals at barriers, requests to migrate, and the phase of a barrier that every live fibre has reached. -/

namespace Sys2Proof.Machine

open Sys2Proof.Says

/-! ## Arrivals (spec/08 R220 to R222) -/

theorem arriveAt_eq (n : Nat) (x : Fibre) : arriveAt n x =
    if x.barIn.testBit n then .stay { x with wait := .barw, waitArg := n + 16 } else .next { x with barIn := x.barIn ||| 2 ^ n } := by
  rw [arriveAt, bitOf_eq_testBit]
  rfl

theorem departAt_eq (n : Nat) (x : Fibre) : departAt n x =
    if x.barIn.testBit n then .stay { x with wait := .barw, waitArg := n } else .next x := by
  rw [departAt, bitOf_eq_testBit]

theorem meetAt_eq (n : Nat) (x : Fibre) : meetAt n x =
    if x.barIn.testBit n then .stay { x with wait := .barw, waitArg := n + 32 }
    else .stay { x with barIn := x.barIn ||| 2 ^ n, wait := .barw, waitArg := n } := by
  rw [meetAt, bitOf_eq_testBit]
  rfl

/-- An arrival that has nothing to release goes through (spec/08 R222). -/
theorem Ready.releases {s : State} {i : Instr} {b : Batch} {ready : List Nat} (h : Ready s i b ready) {f : Nat → Fibre → Out}
    (runs : exec i s = s.issueWith i fun b s => if b.releasing then .done (b.each f) s else .held .none s)
    (quiet : ∀ p ∈ b.passing i, b.sk.settled b.sk.nextSeq p.2.uid = true) :
    exec i s = .next (s.atIssue.finish b ready (b.eachOut i f)) := by
  have releasing : (b.taking i).releasing = true := List.all_eq_true.2 quiet
  rw [runs, h.issueWith]
  simp only [releasing, if_true]
  rfl

/-- Settles O17, word by word. -/
theorem barriersAndMigrationRequests : Obligations.BarriersAndMigrationRequests := by
  refine ⟨fun f s b ready h quiet => ?_, fun f => outcome_of_perFibre (exec_barw f) fun b t x => departAt_eq ..,
    fun f s b ready h quiet => ?_, fun f s b ready h some_ => ?_, fun f s b ready h outside => ?_,
    fun f => effect_of_perFibre (exec_step f) fun b t x => rfl⟩
  · simp only [← arriveAt_eq]
    exact h.releases (exec_bara f s) quiet
  · simp only [← meetAt_eq]
    exact h.releases (exec_bar f s) quiet
  · obtain ⟨p, r, run⟩ := List.exists_cons_of_ne_nil some_
    refine ⟨{ (b.taking (.sbar f)).entry 0x20 p.2 with ops := (b.passing (.sbar f)).map fun p => .new p.1 p.2.uid 0 0 [] 0 0 },
      ?_, rfl, rfl, ?_⟩
    · rw [exec_sbar, execSbar, h.issueWith]
      simp only [Batch.taking_run, run]
      simp only [Batch.each, Batch.eachOut, Batch.taking_run, run]
      rfl
    · rw [List.map_map]
      rfl
  · have placed : ((b.passing (.migrate f)).filter fun p => p.2.parked || p.2.emul) = [] := by
      refine List.filter_eq_nil_iff.2 fun p hp => ?_
      obtain ⟨unparked, native⟩ := outside p hp
      simp [unparked, native]
    rw [exec_migrate, execMigrate, h.issueChecked _ _ (by rw [Batch.taking_run, placed]; rfl)]
    rfl

/-! ## A phase that is complete (spec/08 R220) -/

theorem testBit_sub_two_pow_self {a n : Nat} (h : a.testBit n = true) : (a - 2 ^ n).testBit n = false := by
  rw [Nat.testBit_eq_decide_div_mod_eq, decide_eq_true_eq] at h
  have down : (a - 2 ^ n) / 2 ^ n = a / 2 ^ n - 1 := by simpa using Nat.sub_mul_div a (2 ^ n) 1
  rw [Nat.testBit_eq_decide_div_mod_eq, down, decide_eq_false_iff_not]
  omega

/-- In canonical code a jump changes the PC alone. -/
theorem Fibre.goto_word {x : Fibre} (h : x.expansion = none) (t : W64) : x.goto t = { x with pc := t } := by
  simp only [Fibre.goto, h]

/-- There the next instruction is the next word. -/
theorem Fibre.advance_word {x : Fibre} (h : x.expansion = none) : x.advance = { x with pc := x.pc + 8 } := by
  simp only [Fibre.advance, Fibre.goto_word h, Fibre.nextPc, h]

/-- A fibre that waits to depart goes on when the phase is complete, its arrival taken back. -/
theorem Fibre.phaseDone_departs {x : Fibre} {n : Nat} (small : n < 16) (arrived : x.barIn.testBit n = true) (wait : x.wait = .barw)
    (arg : x.waitArg = n) : x.phaseDone n = ({ x with barIn := x.barIn - 2 ^ n, wait := .none, waitArg := 0 } : Fibre).advance := by
  have part : n / 16 = 0 := Nat.div_eq_of_lt small
  have barrier : n % 16 = n := Nat.mod_eq_of_lt small
  simp only [Fibre.phaseDone, bitOf_eq_testBit, arrived, if_true, wait, arg, barrier, true_and, part]

/-- A complete phase, once. -/
theorem Gang.settleBarrier_complete {g : Gang} {n : Nat} (some_ : g.live ≠ []) (arrived : ∀ y ∈ g.live, y.barIn.testBit n = true) :
    g.settleBarrier n 1 =
      { g.mapLive (fun x => x.phaseDone n) with barPhase := modifyAt g.barPhase n fun p => (p + 1) % 256 } := by
  have complete : (!g.live.isEmpty && g.live.all fun x => bitOf x.barIn n) = true := by
    simpa [bitOf_eq_testBit] using ⟨some_, arrived⟩
  rw [Gang.settleBarrier, if_pos complete]
  rfl

theorem Gang.mem_live {g : Gang} {k t : Nat} {sk : Skein} {x : Fibre} (skein : g.skeins[k]? = some sk) (fibre : sk.fibre t = some x) :
    x ∈ g.live :=
  List.mem_flatMap.2 ⟨sk, List.mem_of_getElem? skein, List.mem_map.2 ⟨(t, x), (sk.mem_live t x).2 fibre, rfl⟩⟩

/-- Settles O18: the phase is complete, and its end lets the fibre depart. -/
theorem barrierPhaseReleasesTheGang : Obligations.BarrierPhaseReleasesTheGang := by
  intro g n k t sk x small skein fibre arrived wait arg word
  have live := Gang.mem_live skein fibre
  have departs : x.phaseDone n = { x with barIn := x.barIn - 2 ^ n, wait := .none, waitArg := 0, pc := x.pc + 8 } := by
    rw [Fibre.phaseDone_departs small (arrived x live) wait arg]
    exact Fibre.advance_word word
  rw [Gang.settleBarrier_complete (List.ne_nil_of_mem live) arrived]
  refine ⟨sk.mapFibres fun _ x => x.phaseDone n, x.phaseDone n, ?_, ?_, ?_⟩
  · simp only [Gang.mapLive, List.getElem?_map, skein, Option.map_some]
  · rw [Skein.fibre_mapFibres, fibre, Option.map_some]
  · rw [departs]
    refine ⟨rfl, rfl, testBit_sub_two_pow_self (arrived x live), rfl, ?_⟩
    simp only [modifyAt_getElem?, if_true]

end Sys2Proof.Machine
end

section
/-! PROOFS, O16. A created fibre in the lowest free slot of its creator's skein, and the ends of fibres and gangs. -/

namespace Sys2Proof.Machine

open Sys2Proof.Says

/-! ## Registers written -/

/-- A fibre without its registers. -/
def Fibre.unwritten (x : Fibre) : Fibre := { x with regs := [], e := [], poison := [] }

theorem Fibre.unwritten_wr (x : Fibre) (n : Nat) (v : W32) : (x.wr n v).unwritten = x.unwritten := by
  unfold Fibre.wr
  split <;> rfl

theorem Fibre.unwritten_wrVal : ∀ (k : Nat) (x : Fibre) (n v : Nat), (x.wrVal n k v).unwritten = x.unwritten
  | 0, _, _, _ => rfl
  | k + 1, x, _, _ => (Fibre.unwritten_wrVal k ..).trans (x.unwritten_wr ..)

theorem Fibre.unwritten_ivDst (x : Fibre) (fmt : FloatFmt) (r : Reg) (v : Nat × Nat) : (x.ivDst fmt r v).unwritten = x.unwritten :=
  (Fibre.unwritten_wrVal ..).trans (Fibre.unwritten_wrVal ..)

theorem Fibre.unwritten_wrPred (x : Fibre) (n : Nat) (t : Tri) : (x.wrPred n t).unwritten = x.unwritten := x.unwritten_wr ..

/-- What a write makes of the registers depends on them and on the window alone. -/
theorem Fibre.wr_congr {x y : Fibre} (regs : x.regs = y.regs) (e : x.e = y.e) (shift : x.wshift = y.wshift) (n : Nat) (v : W32) :
    (x.wr n v).regs = (y.wr n v).regs ∧ (x.wr n v).e = (y.wr n v).e := by
  unfold Fibre.wr
  split
  · exact ⟨by rw [regs, shift], e⟩
  · exact ⟨regs, by rw [e]⟩

/-! ## The child before it is placed (spec/02 R39) -/

/-- Modes held back to the guest boundary come into force with a jump; a child has none. -/
theorem Fibre.goto_modes {x : Fibre} (h : x.pend = []) (t : W64) : (x.goto t).rmode = x.rmode ∧ (x.goto t).srseed = x.srseed := by
  have applied : x.applyPend = x := by
    rw [Fibre.applyPend, h]
    cases x
    cases h
    rfl
  unfold Fibre.goto Fibre.toGuest
  rw [applied]
  split
  · split <;> exact ⟨rfl, rfl⟩
  · exact ⟨rfl, rfl⟩

/-- The child of FNEW starts at the target, numbered as told. -/
theorem Fibre.child_fnew (x : Fibre) (uid legacy : Nat) (dest : W64) (r : Nat) (v : W32) :
    let child := ((x.child uid legacy).goto dest).wr r v
    child.uid = uid ∧ child.wait = .none ∧ child.e = (x.wr r v).e ∧ child.regs = (x.wr r v).regs ∧ child.rmode = 0 ∧ child.srseed = 0 ∧
      (x.expansion = none → child.pc = dest) := by
  have moved := (x.child uid legacy).unplaced_goto dest
  have rest := ((x.child uid legacy).goto dest).unwritten_wr r v
  obtain ⟨rmode, srseed⟩ := Fibre.goto_modes (x := x.child uid legacy) rfl dest
  obtain ⟨regs, e⟩ := Fibre.wr_congr (x := (x.child uid legacy).goto dest) (y := x) (congrArg Fibre.regs moved :) (congrArg Fibre.e moved :)
    (congrArg Fibre.wshift moved :) r v
  refine ⟨(congrArg Fibre.uid rest).trans (congrArg Fibre.uid moved), (congrArg Fibre.wait rest).trans (congrArg Fibre.wait moved), e, regs,
    (congrArg Fibre.rmode rest).trans rmode, (congrArg Fibre.srseed rest).trans srseed, fun word => (congrArg Fibre.pc rest).trans ?_⟩
  have childWord : (x.child uid legacy).expansion = none := word
  exact congrArg Fibre.pc (Fibre.goto_word childWord dest)

/-- The child of IVFORK goes on to the next instruction with the registers of y. -/
theorem Fibre.child_ivfork {x y : Fibre} (rest : y.unwritten = x.unwritten) (uid legacy : Nat) :
    let child := ({ y.child uid legacy with waitArg := 0 } : Fibre).advance
    child.uid = uid ∧ child.regs = y.regs ∧ (x.expansion = none → child.pc = x.pc + 8) := by
  have moved := (y.child uid legacy).unplaced_advance
  refine ⟨(congrArg Fibre.uid moved :), (congrArg Fibre.regs moved :), fun word => ?_⟩
  have childWord : (y.child uid legacy).expansion = none := (congrArg Fibre.expansion rest :).trans word
  have pc : y.pc = x.pc := (congrArg Fibre.pc rest :)
  rw [← pc]
  exact congrArg Fibre.pc (Fibre.advance_word childWord)

/-! ## Where it is placed (spec/02 R40) -/

theorem Gang.freeSlot_own {g : Gang} {k u : Nat} {sk : Skein} (skein : g.skeins[k]? = some sk) (free : sk.freeSlot = some u) :
    g.freeSlot k = some (k, u) := by
  simp [Gang.freeSlot, skein, free]

/-- One creator, whose skein has a free slot: the child is placed there unless making it faults. -/
theorem State.createAll_one {s : State} {b : Batch} (make : Nat → Fibre → Nat → Except FaultCode (Fibre × (Option Nat → Fibre)))
    (t : Nat) (x : Fibre) {u : Nat} (gang : s.gang b.g.key = some b.g) (skein : b.g.skeins[b.k]? = some b.sk)
    (free : b.sk.freeSlot = some u) :
    s.createAll b make [(t, x)] =
      match make t x s.nextKey with
      | .error c => ([(t, .fault c 0)], s)
      | .ok (child, after) => ([(t, .next (after (some (b.k * b.sk.width + u))))],
        ({ s with nextKey := s.nextKey + 1 } : State).modSkein b.g.key b.k fun sk => sk.setFibre u (some child)) := by
  have standing : ({ s with nextKey := s.nextKey + 1 } : State).gang b.g.key = some b.g := gang
  cases made : make t x s.nextKey <;>
    simp only [State.createAll, State.takeKey, State.placeChild, standing, Gang.freeSlot_own skein free, skein, Option.map_some, Option.getD_some, made]

/-- Settles O16: the child is placed where the creator's skein has room, and what ends is named. -/
theorem fibreCreationAndEnd : Obligations.FibreCreationAndEnd := by
  refine ⟨fun f s b ready t x u h one free => ?_, fun f s b ready t x u a h one free => ?_,
    fun f => outcome_of_perFibre (exec_fend f) fun b t x => rfl, fun f s b ready h some_ => ?_⟩
  · obtain ⟨gang, skein⟩ := batch_gang h.batch
    have child := x.child_fnew s.nextKey (s.legacyOf b.g.cluster x.pers) (x.target (cfOffset f)) f.ca.toNat (BitVec.ofNat 32 (b.fibid t))
    rw [x.target_cfOffset] at child
    refine ⟨_, ?_, child⟩
    rw [exec_fnew, execFnew, h.issueWith, ← x.target_cfOffset]
    simp only [Batch.taking_run, one]
    rw [State.createAll_one (s := s.atIssue) (b := b.taking (.fnew f)) _ t x gang skein free]
    rfl
  · intro fmt source v m
    obtain ⟨gang, skein⟩ := batch_gang h.batch
    have rest : ((x.ivDst fmt f.ca (m, v.2)).wrPred f.cb.toNat .true_).unwritten = x.unwritten :=
      (Fibre.unwritten_wrPred ..).trans (x.unwritten_ivDst ..)
    refine ⟨_, ?_, Fibre.child_ivfork rest s.nextKey (s.legacyOf b.g.cluster x.pers)⟩
    have given : x.ivSrc fmt f.ca false false = some a := source
    rw [exec_ivfork, execIvfork, h.issueWith]
    simp only [Batch.taking_run, one]
    rw [State.createAll_one (s := s.atIssue) (b := b.taking (.ivfork f)) _ t x gang skein free]
    simp only [fmt] at given
    simp only [given]
    rfl
  · have run : (b.passing (.exit f)).isEmpty = false := by simpa using some_
    rw [exec_exit, execExit, h.issueWith]
    simp only [Batch.taking_run, run, Bool.false_eq_true, if_false]
    rfl

end Sys2Proof.Machine
end

section
/-! PROOFS, O15. Marks for reconvergence, and a join that every fibre it waits for has reached. -/

namespace Sys2Proof.Machine

open Sys2Proof.Says

/-! ## Masks of slots -/

theorem getLsbD_foldl_slots (t : Nat) : ∀ (ts : List Nat) (m : Mask),
    (ts.foldl (fun m s => m ||| BitVec.ofNat 64 (2 ^ s)) m).getLsbD t = true → m.getLsbD t = true ∨ t ∈ ts
  | [], _, h => .inl h
  | s :: r, m, h => by
    rcases getLsbD_foldl_slots t r _ h with h | h
    · rw [BitVec.getLsbD_or, Bool.or_eq_true, BitVec.getLsbD_ofNat, Bool.and_eq_true, Nat.testBit_two_pow, decide_eq_true_iff, decide_eq_true_iff] at h
      rcases h with h | ⟨-, rfl⟩
      · exact .inl h
      · exact .inr List.mem_cons_self
    · exact .inr (List.mem_cons_of_mem _ h)

theorem inMask_eq_getLsbD (m : Mask) (t : Nat) : inMask m t = m.getLsbD t := bitOf_eq_testBit ..

theorem mem_of_inMask_maskOf {ts : List Nat} {t : Nat} (h : inMask (maskOf ts) t = true) : t ∈ ts := by
  rw [inMask_eq_getLsbD] at h
  simpa using getLsbD_foldl_slots t ts 0 h

/-- A mask that names slots of a list alone. -/
theorem mem_of_inMask {m : Mask} {ts : List Nat} {t : Nat} (within : m &&& ~~~(maskOf ts) = 0) (h : inMask m t = true) : t ∈ ts := by
  refine mem_of_inMask_maskOf ?_
  rw [inMask_eq_getLsbD] at h ⊢
  have none_ := congrArg (BitVec.getLsbD · t) within
  have small := BitVec.lt_of_getLsbD h
  simpa [h, small] using none_

/-! ## The join's issue (spec/08 R215) -/

/-- In the batch, the slot of a fibre names it: its guard passes where a passing fibre has that slot. -/
theorem Batch.passing_any {b : Batch} (once : (b.all.map (·.1)).Nodup) (i : Instr) {p : Nat × Fibre} (hp : p ∈ b.all) :
    ((b.passing i).any fun q => q.1 == p.1) = (needOf i).h.g.passes p.2.pw := by
  refine Bool.eq_iff_iff.2 ⟨fun h => ?_, fun h => List.any_eq_true.2 ⟨p, List.mem_filter.2 ⟨hp, h⟩, beq_self_eq_true _⟩⟩
  obtain ⟨q, hq, same⟩ := List.any_eq_true.1 h
  obtain ⟨mem, passes⟩ := List.mem_filter.1 hq
  rwa [← List.inj_on_of_nodup_map once mem hp (beq_iff_eq.1 same)]

/-- The slots of the batch whose guard fails. -/
def Batch.offMask (b : Batch) (i : Instr) : Mask := maskOf ((b.all.filter fun p => !(b.passing i).any fun q => q.1 == p.1).map (·.1))

theorem Batch.offMask_eq {b : Batch} (once : (b.all.map (·.1)).Nodup) (i : Instr) :
    b.offMask i = maskOf ((b.all.filter fun p => !(needOf i).h.g.passes p.2.pw).map (·.1)) := by
  rw [Batch.offMask, List.filter_congr fun p hp => congrArg not (Batch.passing_any once i hp)]

/-- What a fibre that waits at the batch's RJOIN sees arrive: the slots whose guard fails. -/
def Batch.arrive (b : Batch) (off : Mask) (y : Fibre) : Fibre :=
  if y.wait = .rjoin ∧ (b.all.head?.map fun p => p.2.pc) = some y.pc ∧ (b.all.head?.map fun p => p.2.parked) = some y.parked
  then { y with wmask := y.wmask &&& ~~~off } else y

theorem Batch.wait_arrive (b : Batch) (off : Mask) (y : Fibre) : (b.arrive off y).wait = y.wait := by
  unfold Batch.arrive
  split <;> rfl

/-- A fibre that waits at an RJOIN. -/
def Fibre.joining (x : Fibre) (f : CF) (off : Mask) : Fibre :=
  { x with wait := .rjoin, wmask := x.pair f.ca.toNat &&& ~~~off, wmoment := (tget x.marks (x.place f.ca.toNat)).getD x.lastMark }

/-- The state as the RJOIN of a batch leaves those that wait there already. -/
def State.arrived (s : State) (b : Batch) (off : Mask) : State :=
  s.atIssue.modSkein b.g.key b.k fun sk => sk.mapFibres fun _ y => b.arrive off y

theorem exec_rjoin_eq {f : CF} {s : State} {b : Batch} {ready : List Nat} (h : Ready s (.rjoin f) b ready) :
    exec (.rjoin f) s = .next ((s.arrived b (b.offMask (.rjoin f))).finish b ready
      (b.eachOut (.rjoin f) fun _ x => .stay (x.joining f (b.offMask (.rjoin f))))) := by
  obtain ⟨-, once, -⟩ := batch_all h.batch
  rw [exec_rjoin, execRjoin, h.issueWith, Batch.offMask_eq once]
  rfl

/-! ## Fibres leave a join -/

/-- A fibre that leaves its join for the next instruction. -/
def Fibre.unjoined (x : Fibre) : Fibre := ({ x with wait := .none, wmask := 0, wmoment := 0 } : Fibre).advance

theorem Fibre.wait_unjoined (x : Fibre) : x.unjoined.wait = .none := Fibre.wait_advance _

/-- A skein whose waiting fibres have left. -/
def Skein.unjoined (sk : Skein) : Skein := sk.mapFibres fun _ x => if x.wait = .rjoin then x.unjoined else x

/-- A fibre of the skein waits for the join at a place. -/
def Fibre.waitsAt (x : Fibre) (pc : W64) (parked : Bool) : Prop := x.wait = .rjoin ∧ x.pc = pc ∧ x.parked = parked

theorem Skein.settleJoin_none {sk : Skein} {pc : W64} {parked : Bool} (h : ∀ p ∈ sk.live, ¬ p.2.waitsAt pc parked) :
    sk.settleJoin pc parked = sk := by
  have empty : ((sk.live.map (·.2)).filter fun x => x.wait == .rjoin && x.pc == pc && x.parked == parked) = [] := by
    refine List.filter_eq_nil_iff.2 fun x hx waits => ?_
    obtain ⟨p, hp, rfl⟩ := List.mem_map.1 hx
    simp only [Bool.and_eq_true, beq_iff_eq, and_assoc] at waits
    exact h p hp waits
  simp only [Skein.settleJoin, empty, List.isEmpty_nil, Bool.not_true, Bool.false_and, Bool.false_eq_true, if_false]

/-- All that wait in the skein stand at one join, and each of them is satisfied. -/
def Skein.Assembled (sk : Skein) (pc : W64) : Prop :=
  ∀ p ∈ sk.live, p.2.wait = .rjoin → p.2.pc = pc ∧ p.2.parked = false ∧ sk.joinSatisfied p.2 = true

theorem Skein.mapFibres_congr {sk : Skein} {f g : Nat → Fibre → Fibre} (h : ∀ t x, sk.fibre t = some x → f t x = g t x) :
    sk.mapFibres f = sk.mapFibres g := by
  refine congrArg (fun l => { sk with slots := l }) (List.map_congr_left fun p hp => ?_)
  obtain ⟨o, t⟩ := p
  cases o with
  | none => rfl
  | some x =>
    have at_ : sk.fibre t = some x := by
      rw [Skein.fibre, (List.mem_zipIdx_iff_getElem?.1 hp)]
      rfl
    exact congrArg some (h t x at_)

/-- At their join they leave. -/
theorem Skein.settleJoin_assembled {sk : Skein} {pc : W64} (h : sk.Assembled pc) {t : Nat} {x : Fibre} (fibre : sk.fibre t = some x)
    (wait : x.wait = .rjoin) : sk.settleJoin pc false = sk.unjoined := by
  have waits {t : Nat} {y : Fibre} (hy : sk.fibre t = some y) : (y.wait == .rjoin && y.pc == pc && y.parked == false) = decide (y.wait = .rjoin) := by
    by_cases w : y.wait = .rjoin
    · obtain ⟨at_, unparked, -⟩ := h _ ((sk.mem_live t y).2 hy) w
      simpa [w] using ⟨at_, unparked⟩
    · simp [w]
  have go : (!((sk.live.map (·.2)).filter fun x => x.wait == .rjoin && x.pc == pc && x.parked == false).isEmpty &&
      ((sk.live.map (·.2)).filter fun x => x.wait == .rjoin && x.pc == pc && x.parked == false).all sk.joinSatisfied) = true := by
    refine Bool.and_eq_true_iff.2 ⟨?_, List.all_eq_true.2 fun y hy => ?_⟩
    · have mem : x ∈ (sk.live.map (·.2)).filter fun x => x.wait == .rjoin && x.pc == pc && x.parked == false :=
        List.mem_filter.2 ⟨List.mem_map.2 ⟨(t, x), (sk.mem_live t x).2 fibre, rfl⟩, by rw [waits fibre]; exact decide_eq_true wait⟩
      rw [Bool.not_eq_true', List.isEmpty_eq_false_iff]
      exact List.ne_nil_of_mem mem
    · obtain ⟨mem, w⟩ := List.mem_filter.1 hy
      obtain ⟨p, hp, rfl⟩ := List.mem_map.1 mem
      simp only [Bool.and_eq_true, beq_iff_eq] at w
      obtain ⟨⟨w, -⟩, -⟩ := w
      obtain ⟨-, -, satisfied⟩ := h p hp w
      exact satisfied
  simp only [Skein.settleJoin, go, if_true]
  refine Skein.mapFibres_congr fun t y hy => ?_
  simp only [waits hy, decide_eq_true_eq]
  rfl

/-- Once they have left nobody waits. -/
theorem Skein.settleJoin_unjoined (sk : Skein) (pc : W64) (parked : Bool) : sk.unjoined.settleJoin pc parked = sk.unjoined := by
  refine Skein.settleJoin_none fun p hp waits => ?_
  have fibre := (sk.unjoined.mem_live p.1 p.2).1 hp
  rw [Skein.unjoined, Skein.fibre_mapFibres, Option.map_eq_some_iff] at fibre
  obtain ⟨x, -, made⟩ := fibre
  obtain ⟨wait, -, -⟩ := waits
  rw [← made] at wait
  split at wait
  · rw [x.wait_unjoined] at wait
    cases wait
  · exact absurd wait ‹_›

/-- Whatever the order in which the joins are looked at. -/
theorem Skein.settleJoins_assembled {sk : Skein} {pc : W64} (h : sk.Assembled pc) {t : Nat} {x : Fibre} (fibre : sk.fibre t = some x)
    (wait : x.wait = .rjoin) : sk.settleJoins = sk.unjoined := by
  have fold : ∀ l : List (W64 × Bool), (pc, false) ∈ l → l.foldl (fun sk k => sk.settleJoin k.1 k.2) sk = sk.unjoined := by
    intro l
    induction l with
    | nil => intro mem; cases mem
    | cons a r ih =>
      intro mem
      rw [List.foldl_cons]
      by_cases here : a = (pc, false)
      · rw [here, Skein.settleJoin_assembled h fibre wait]
        exact List.foldlRecOn (motive := fun y => y = sk.unjoined) r _ rfl fun y hy k _ => hy ▸ sk.settleJoin_unjoined k.1 k.2
      · have elsewhere : sk.settleJoin a.1 a.2 = sk := Skein.settleJoin_none fun p hp waits => by
          obtain ⟨w, at_, side⟩ := waits
          obtain ⟨at', side', -⟩ := h p hp w
          exact here (Prod.ext (at_.symm.trans at') (side.symm.trans side'))
        rw [elsewhere]
        exact ih ((List.mem_cons.1 mem).resolve_left (Ne.symm here))
  have live := (sk.mem_live t x).2 fibre
  obtain ⟨at_, unparked, -⟩ := h _ live wait
  exact fold _ (List.mem_map.2 ⟨(t, x), live, Prod.ext at_ unparked⟩)

/-! ## What settles after an issue that leaves a join satisfied -/

theorem Gang.Holds.withKey {g : Gang} {k t : Nat} {z : Fibre} (h : g.Holds k t z) (key : Nat) : ({ g with key := key } : Gang).Holds k t z := h

/-- A fibre that the joins of its gang let go stands when its barriers have been looked at too. -/
theorem Gang.holds_settleOwn {g : Gang} {k t : Nat} {z : Fibre}
    (left : ({ g with skeins := g.skeins.map Skein.settleJoins } : Gang).Holds k t z) (hz : z.wait = .none) : g.settleOwn.Holds k t z := by
  unfold Gang.settleOwn
  exact (left.settleBarriers hz).settleStep

/-- A fibre that a join lets go waits for nothing, so the gang goes on. -/
theorem State.settleGang_joined {s : State} {gk k t : Nat} {z : Fibre} {sk : Skein} (skein : s.skein gk k = some sk)
    (joined : sk.settleJoins.fibre t = some z) (hz : z.wait = .none) : (s.settleGang gk).Holds gk k t z := by
  obtain ⟨g, gang, at_⟩ := Option.bind_eq_some_iff.1 skein
  have traced : (s.traceJoins gk).gang gk = some g := (congrArg (findGang · gk) (gangs_traceJoins s gk)).trans gang
  have left : ({ g with skeins := g.skeins.map Skein.settleJoins } : Gang).Holds k t z :=
    ⟨sk.settleJoins, (List.getElem?_map ..).trans (congrArg _ at_), z, joined, rfl⟩
  have own : ((s.traceJoins gk).modGang gk Gang.settleOwn).Holds gk k t z := by
    refine ⟨{ g.settleOwn with key := gk }, ?_, (Gang.holds_settleOwn left hz).withKey gk⟩
    rw [State.gang_modGang_same, traced, Option.map_some]
  have unfolded : s.settleGang gk = match ((s.traceJoins gk).modGang gk Gang.settleOwn).gang gk with
    | none => (s.traceJoins gk).modGang gk Gang.settleOwn
    | some g =>
      let u := (((s.traceJoins gk).modGang gk Gang.settleOwn).settleSpan g).settleGridStep g.grid
      if g.ended then u
      else if g.anyLive then u.resolveMigrate gk
      else if g.kind = .handle then u.endRoutine gk
      else if u.poolCount g = 0 then u.endGang gk
      else u := rfl
  generalize (s.traceJoins gk).modGang gk Gang.settleOwn = s1 at own unfolded
  obtain ⟨g1, gang1, stands⟩ := id own
  have spanned : ((s1.settleSpan g1).settleGridStep g1.grid).Holds gk k t z := (own.settleSpan hz g1).of_gangs (gangs_settleGridStep ..)
  rw [unfolded, gang1]
  simp only [stands.anyLive, if_true, resolveMigrate_of_holds spanned hz, ite_self]
  exact spanned

/-- An issue in which nothing faults and nobody ends has no fault to take and no fibre to report. -/
theorem State.finish_quiet {s : State} {b : Batch} {ready : List Nat} {outs : List (Nat × Out)}
    (faultless : ∀ o ∈ outs, o.2.raised o.1 = none) (lasting : ∀ o ∈ outs, o.2.isGone = false) :
    s.finish b ready outs = ((s.landing b ready outs).report b outs 0).settleGang b.g.key := by
  have none_gone : (b.all.filter fun p => (b.every outs).any fun o => o.1 == p.1 && o.2.isGone) = [] := by
    refine List.filter_eq_nil_iff.2 fun p _ gone => ?_
    obtain ⟨o, ho, same⟩ := List.any_eq_true.1 gone
    have lasts : o.2.isGone = false := by
      rcases List.mem_append.1 ho with ho | ho
      · exact lasting o ho
      · obtain ⟨q, -, rfl⟩ := List.mem_map.1 ho
        rfl
    simp [lasts] at same
  simp only [State.finish_eq, State.conclude, none_gone, List.filterMap_eq_nil_iff.2 faultless, List.map_nil, List.length_nil, takeFaults_nil,
    reportUnconsumed_nil]

/-- Where every fibre of the batch has an outcome, those are all. -/
theorem Batch.every_of_slots {b : Batch} {outs : List (Nat × Out)} (h : outs.map (·.1) = b.all.map (·.1)) : b.every outs = outs := by
  have named : (b.all.filter fun p => !outs.any fun o => o.1 == p.1) = [] := by
    refine List.filter_eq_nil_iff.2 fun p hp out => ?_
    obtain ⟨o, ho, same⟩ := List.mem_map.1 (h ▸ List.mem_map_of_mem hp : p.1 ∈ outs.map (·.1))
    have missing := List.any_eq_false.1 (Bool.not_eq_true' _ ▸ out) o ho
    exact missing (beq_iff_eq.2 same)
  rw [Batch.every, named, List.map_nil, List.append_nil]

/-! ## The skein of a batch that waits -/

/-- The skein with the outcomes of the batch in its slots. -/
def Skein.landing (sk : Skein) (u : State) (b : Batch) (ready : List Nat) (outs : List (Nat × Out)) : Skein :=
  (({ sk with issued := true } : Skein).mapFibres (b.passOver ready)).rewrite (u.leaves b.g) (b.every outs)

/-- The skein with nothing marked as tried. -/
def Skein.untried (sk : Skein) : Skein := sk.mapFibres fun _ => Says.untried

theorem Gang.untried_skeins (g : Gang) : g.untried.skeins = g.skeins.map Skein.untried := by
  rw [Gang.untried, untried_eq]
  rfl

theorem skein_landing {u : State} {b : Batch} {sk : Skein} (h : u.skein b.g.key b.k = some sk) (ready : List Nat) (outs : List (Nat × Out)) :
    (u.landing b ready outs).skein b.g.key b.k = some (sk.landing u b ready outs) := by
  rw [State.landing, State.skein_modSkein_same, h, Option.map_some, Skein.landing]

theorem skein_report {s : State} {gk k : Nat} {sk : Skein} (h : s.skein gk k = some sk) (b : Batch) (outs : List (Nat × Out)) (n : Nat) :
    (s.report b outs n).skein gk k = some sk.untried := by
  obtain ⟨g, gang, at_⟩ := Option.bind_eq_some_iff.1 h
  rw [State.skein, report_gang gang, Option.bind_some, Gang.untried_skeins, List.getElem?_map, at_, Option.map_some]

section
variable {sk : Skein} {u : State} {b : Batch} {ready : List Nat} {outs : List (Nat × Out)} (slots : outs.map (·.1) = b.all.map (·.1))
include slots

theorem Skein.fibre_landing_here (once : (b.all.map (·.1)).Nodup) {t : Nat} {o : Out} (mem : (t, o) ∈ outs) :
    (sk.landing u b ready outs).fibre t = u.leaves b.g o ((sk.fibre t).map (b.passOver ready t)) := by
  rw [Skein.landing, Batch.every_of_slots slots, Skein.fibre_rewrite_mem (u.leaves_none b.g) _ (slots ▸ once) mem, Skein.fibre_mapFibres]
  rfl

theorem Skein.fibre_landing_else {t : Nat} (out : t ∉ b.all.map (·.1)) :
    (sk.landing u b ready outs).fibre t = (sk.fibre t).map (b.passOver ready t) := by
  rw [Skein.landing, Batch.every_of_slots slots, Skein.fibre_rewrite_other (u.leaves_none b.g) _ (slots ▸ out), Skein.fibre_mapFibres]
  rfl

end

/-- A fibre that its issue leaves where it stands, as x. -/
def State.stayed (u : State) (g : Gang) (was x : Fibre) : Fibre :=
  { x with pass := 0, tried := false, waive := false, eqid := (u.passPoint g was).eqid, redo := was.redoOf x }

theorem State.leaves_stay (u : State) (g : Gang) (was x : Fibre) : u.leaves g (.stay x) (some was) = some (u.stayed g was x) := rfl

theorem Batch.wait_passOver (b : Batch) (ready : List Nat) (t : Nat) (x : Fibre) : (b.passOver ready t x).wait = x.wait := by
  unfold Batch.passOver
  split <;> rfl

/-- In the skein, each fibre of the batch waits as w says, and nobody else waits. -/
structure Skein.Gathered (sk : Skein) (b : Batch) (w : Nat × Fibre → Fibre) : Prop where
  here : ∀ p ∈ b.all, sk.fibre p.1 = some (w p)
  alone : ∀ n y, n ∉ b.all.map (·.1) → sk.fibre n = some y → y.wait ≠ .rjoin

/-- Every fibre of such a batch stands at one join with the masks of the batch, so all of them are satisfied. -/
theorem Skein.Gathered.assembled {sk : Skein} {b : Batch} {w : Nat × Fibre → Fibre} {pc : W64} (h : sk.Gathered b w)
    (wait : ∀ p ∈ b.all, (w p).wait = .rjoin) (at_ : ∀ p ∈ b.all, (w p).pc = pc) (unparked : ∀ p ∈ b.all, (w p).parked = false)
    (within : ∀ p ∈ b.all, ∀ t, inMask (w p).wmask t = true → t ∈ b.all.map (·.1)) : sk.Assembled pc := by
  intro p live waits
  have fibre := (sk.mem_live p.1 p.2).1 live
  have mine : p.1 ∈ b.all.map (·.1) := by
    by_contra out
    exact h.alone _ _ out fibre waits
  obtain ⟨q, hq, same⟩ := List.mem_map.1 mine
  have standing : p.2 = w q := by
    have there := h.here q hq
    rw [same, fibre] at there
    exact Option.some.inj there
  rw [standing]
  refine ⟨at_ q hq, unparked q hq, List.all_eq_true.2 fun t _ => ?_⟩
  cases masked : inMask (w q).wmask t with
  | false => rfl
  | true =>
    obtain ⟨r, hr, rfl⟩ := List.mem_map.1 (within q hq t masked)
    simp [h.here r hr, wait r hr, at_ r hr, at_ q hq, unparked r hr, unparked q hq]

section
variable {f : CF} {s : State} {b : Batch} {ready : List Nat}

/-- The outcome of a batch that joins. -/
def Batch.joins (b : Batch) (f : CF) : List (Nat × Out) :=
  b.eachOut (.rjoin f) fun _ x => .stay (x.joining f (b.offMask (.rjoin f)))

/-- A fibre of the batch when it has joined. -/
def State.joined (s : State) (b : Batch) (ready : List Nat) (f : CF) (p : Nat × Fibre) : Fibre :=
  (s.arrived b (b.offMask (.rjoin f))).stayed b.g (b.passOver ready p.1 (b.arrive (b.offMask (.rjoin f)) p.2))
    (p.2.joining f (b.offMask (.rjoin f)))

/-- The issue of a join that every fibre of the batch takes: when it is reported the batch is gathered, where nobody waited before. -/
theorem gathered_of_rjoin (h : Ready s (.rjoin f) b ready) (every : b.passing (.rjoin f) = b.all) (nobody : ∀ p ∈ b.sk.live, p.2.wait ≠ .rjoin) :
    ∃ sk, (((s.arrived b (b.offMask (.rjoin f))).landing b ready (b.joins f)).report b (b.joins f) 0).skein b.g.key b.k = some sk ∧
      sk.Gathered b (s.joined b ready f) := by
  obtain ⟨-, once, stood⟩ := batch_all h.batch
  have slots : (b.joins f).map (·.1) = b.all.map (·.1) := by
    rw [Batch.joins, Batch.eachOut, every, List.map_map]
    rfl
  have arrived : (s.arrived b (b.offMask (.rjoin f))).skein b.g.key b.k =
      some (b.sk.mapFibres fun _ y => b.arrive (b.offMask (.rjoin f)) y) := by
    rw [State.arrived, State.skein_modSkein_same, ready_skein h, Option.map_some]
  refine ⟨_, skein_report (skein_landing arrived ready (b.joins f)) b (b.joins f) 0, fun p hp => ?_, fun n y out fibre => ?_⟩
  · have mem : (p.1, Out.stay (p.2.joining f (b.offMask (.rjoin f)))) ∈ b.joins f := List.mem_map.2 ⟨p, every ▸ hp, rfl⟩
    rw [Skein.untried, Skein.fibre_mapFibres, Skein.fibre_landing_here slots once mem, Skein.fibre_mapFibres, stood p hp]
    rfl
  · rw [Skein.untried, Skein.fibre_mapFibres, Skein.fibre_landing_else slots out, Skein.fibre_mapFibres, Option.map_map, Option.map_map,
      Option.map_eq_some_iff] at fibre
    obtain ⟨x, at_, rfl⟩ := fibre
    have before := nobody _ ((b.sk.mem_live n x).2 at_)
    rw [Function.comp_apply, Function.comp_apply]
    rwa [← b.wait_arrive (b.offMask (.rjoin f)), ← b.wait_passOver ready n] at before

/-- All of the batch leave at once where every bit of their masks names a slot of it. -/
theorem rjoin_leaves (h : Ready s (.rjoin f) b ready) (every : b.passing (.rjoin f) = b.all)
    (plain : ∀ p ∈ b.all, p.2.parked = false ∧ p.2.expansion = none ∧ p.2.pair f.ca.toNat &&& ~~~(maskOf (b.all.map (·.1))) = 0)
    (together : ∀ p ∈ b.all, ∀ q ∈ b.all, p.2.pc = q.2.pc) (nobody : ∀ p ∈ b.sk.live, p.2.wait ≠ .rjoin) {p : Nat × Fibre} (hp : p ∈ b.all) :
    ((s.arrived b (b.offMask (.rjoin f))).finish b ready (b.joins f)).Holds b.g.key b.k p.1 (s.joined b ready f p).unjoined := by
  have stays : ∀ o ∈ b.joins f, ∃ y, o.2 = .stay y := fun o ho => by
    obtain ⟨q, -, rfl⟩ := List.mem_map.1 ho
    exact ⟨_, rfl⟩
  obtain ⟨sk, skein, gathered⟩ := gathered_of_rjoin h every nobody
  have assembled : sk.Assembled p.2.pc := by
    refine gathered.assembled (fun q _ => rfl) (fun q hq => together q hq p hp) (fun q hq => (plain q hq).1) fun q hq t masked => ?_
    obtain ⟨-, -, within⟩ := plain q hq
    refine mem_of_inMask within ?_
    have both : inMask (q.2.pair f.ca.toNat &&& ~~~(b.offMask (.rjoin f))) t = true := masked
    rw [inMask_eq_getLsbD, BitVec.getLsbD_and, Bool.and_eq_true] at both
    rw [inMask_eq_getLsbD]
    exact both.1
  rw [State.finish_quiet (fun o ho => by obtain ⟨y, hy⟩ := stays o ho; rw [hy]; rfl) fun o ho => by obtain ⟨y, hy⟩ := stays o ho; rw [hy]; rfl]
  refine State.settleGang_joined skein ?_ (Fibre.wait_unjoined _)
  rw [Skein.settleJoins_assembled assembled (gathered.here p hp) rfl, Skein.unjoined, Skein.fibre_mapFibres, gathered.here p hp]
  exact congrArg some (if_pos rfl)

end

/-- Settles O15: the join's issue as `exec_rjoin_eq` says, which leaves the skein with one join, satisfied. -/
theorem reconvergenceMarksAndJoins : Obligations.ReconvergenceMarksAndJoins := by
  refine ⟨fun f s b ready h => ?_, fun f s b ready h => ?_, fun f s b ready h every plain together nobody => ?_⟩
  · rw [exec_rmark, execRmark, h.issueWith]
    rfl
  · have here (y : Fibre) : (y.wait = .rjoin ∧ (b.all.head?.map fun p => p.2.pc) = some y.pc ∧
          (b.all.head?.map fun p => p.2.parked) = some y.parked) ↔
        ∃ p, b.all.head? = some p ∧ y.wait = .rjoin ∧ p.2.pc = y.pc ∧ p.2.parked = y.parked := by
      cases b.all.head? <;> simp
    exact ⟨b.arrive (b.offMask (.rjoin f)), fun y => ⟨fun at_ => if_pos ((here y).2 at_), fun out => if_neg (mt (here y).1 out)⟩,
      exec_rjoin_eq h⟩
  · refine ⟨_, exec_rjoin_eq h, fun p hp => ?_⟩
    obtain ⟨g, gang, sk, skein, y, fibre, same⟩ := rjoin_leaves h every plain together nobody hp
    have at_ : ((s.arrived b (b.offMask (.rjoin f))).finish b ready (b.joins f)).fibreAt b.g.key b.k p.1 = some y := by
      rw [State.fibreAt, State.skein, gang, Option.bind_some, skein, Option.bind_some, fibre]
    obtain ⟨-, word, -⟩ := plain p hp
    have left : (s.joined b ready f p).unjoined = _ := Fibre.advance_word word
    rw [left] at same
    exact ⟨y, at_, (congrArg Fibre.wait same :), (congrArg Fibre.pc same :), (congrArg Fibre.regs same :), (congrArg Fibre.e same :)⟩

end Sys2Proof.Machine
end

section
/-! PROOFS, O34, O35. Returns from handlers and from emulation, and requests to yield and for a checkpoint. -/

namespace Sys2Proof.Machine

open Sys2Proof.Says

/-! ## Instructions with a place of their own (spec/20 R426) -/

/-- Where every passing fibre stands where the instruction may, its effect is each fibre's by itself. -/
theorem Ready.placed {s : State} {i : Instr} {b : Batch} {ready : List Nat} (h : Ready s i b ready) {ok : Fibre → Bool}
    {f : Batch → State → Nat → Fibre → Out} {g : Nat → Fibre → Out}
    (runs : exec i s = s.issueChecked i (misplaced ok) fun b s => .done (b.each (f b s)) s)
    (placed : ∀ p ∈ b.passing i, ok p.2 = true) (same : ∀ t x, f (b.taking i) s.atIssue t x = g t x) :
    exec i s = .next (s.atIssue.finish b ready (b.eachOut i g)) := by
  have all : ((b.taking i).run.all fun p => ok p.2) = true := List.all_eq_true.2 placed
  rw [runs, h.issueChecked _ _ (if_pos all), ← funext₂ same]
  rfl

theorem without_faultAll (xs : List (Nat × Fibre)) (code : FaultCode) (addr : W64) : without xs (faultAll xs code addr) = [] := by
  refine List.filter_eq_nil_iff.2 fun p hp out => ?_
  have named : ((faultAll xs code addr).any fun o => o.1 == p.1) = true :=
    List.any_eq_true.2 ⟨_, List.mem_map.2 ⟨p, hp, rfl⟩, beq_self_eq_true _⟩
  rw [named] at out
  cases out

/-- A word whose own checks refuse every passing fibre only faults them, where its effect is idle without a fibre. -/
theorem Ready.issueChecked_refused {s : State} {i : Instr} {b : Batch} {ready : List Nat} (h : Ready s i b ready)
    {pre : Batch → State → List (Nat × Out)} {body : Batch → State → Result} {code : FaultCode} {addr : W64}
    (refused : pre (b.taking i) s.atIssue = faultAll (b.passing i) code addr) (idle : ∀ b s, b.run = [] → body b s = .done [] s) :
    s.issueChecked i pre body = .next (s.atIssue.finish b ready (faultAll (b.passing i) code addr)) := by
  have legal : s.atIssue.stage1All b (needOf i) = none := h.legal
  have clean := checkConsumers_clean s.atIssue b i (b.passing i) h.settled
  have nobody := idle { b with run := [] } s.atIssue rfl
  have none_left : without [] [] = [] := rfl
  unfold State.issueChecked
  rw [h.batch]
  simp only [State.atIssue, Batch.passing, Batch.taking] at *
  simp only [legal, clean, refused, without_faultAll, nobody, List.filterMap_nil, none_left, List.nil_append, List.append_nil]

/-- Where one of them does not, all of them fault, and there is no effect. -/
theorem Ready.misplaced {s : State} {i : Instr} {b : Batch} {ready : List Nat} (h : Ready s i b ready) {ok : Fibre → Bool}
    {f : Batch → State → Nat → Fibre → Out} (runs : exec i s = s.issueChecked i (misplaced ok) fun b s => .done (b.each (f b s)) s)
    (out : ∃ p ∈ b.passing i, ok p.2 = false) :
    exec i s = .next (s.atIssue.finish b ready (b.eachOut i fun _ _ => .fault .illegalOp 0)) := by
  have some_ : ¬ ((b.taking i).run.all fun p => ok p.2) = true := fun all => by
    obtain ⟨p, hp, not⟩ := out
    rw [List.all_eq_true.1 all p hp] at not
    cases not
  rw [runs, h.issueChecked_refused (if_neg some_) fun b s empty => by rw [Batch.each, empty]; rfl]
  rfl

/-! ## ERET and EMRET (spec/08 R232, R233) -/

/-- Guest code goes back to the start of its guest instruction, canonical code to `FPC` if that is a word's address. -/
theorem Fibre.leaveHandler_eq (x : Fibre) (unit : Nat) : x.leaveHandler unit =
    let back (t : W64) : Fibre := { x with parked := false, pidx := if t = x.longPc then x.pidx else 0 }
    if x.pers ≠ 0 ∧ x.emul = false then .ok ((back (x.gpc * BitVec.ofNat 64 unit)).toGuest unit x.gpc)
    else if x.fpc.toNat % 8 ≠ 0 then .error (.align, x.fpc)
    else .ok { back x.fpc with pc := x.fpc } := by
  simp only [Fibre.leaveHandler, Fibre.isGuest, Bool.and_eq_true, bne_iff_ne, Bool.not_eq_true']

/-- What EMRET advances by, if it is a whole number of guest PC units. -/
theorem emretAdvance_eq (imm : BitVec 16) (fglen unit : Nat) : emretAdvance imm.toNat fglen unit =
    let parcels := if imm = 0 then fglen else if imm = 0xFFFF then 0 else imm.toNat
    if 2 * parcels % unit = 0 then some (2 * parcels / unit) else none := by
  have zero : imm.toNat = 0 ↔ imm = 0 := BitVec.toNat_inj (y := 0)
  have ones : imm.toNat = 0xFFFF ↔ imm = 0xFFFF := BitVec.toNat_inj (y := 0xFFFF)
  simp only [emretAdvance, zero, ones]

/-- Settles O34: in its place each word's outcome is each fibre's; out of place every fibre faults. -/
theorem returnsFromHandlersAndEmulation : Obligations.ReturnsFromHandlersAndEmulation := by
  refine ⟨fun f s b ready h parked => h.placed (exec_eret f s) parked fun t x => ?_,
    fun f s b ready h out => h.misplaced (exec_eret f s) out,
    fun f s b ready h emulating => h.placed (exec_emret f s) (fun p hp => by simpa using emulating p hp) fun t x => ?_,
    fun f s b ready h out => h.misplaced (exec_emret f s) ?_⟩
  · rw [x.leaveHandler_eq]
    split_ifs <;> rfl
  · have unit : s.atIssue.unitOf b.g.cluster x = s.unitOf b.g.cluster x := rfl
    simp only [emretAdvance_eq, Batch.taking_g, unit]
    split_ifs <;> rfl
  · obtain ⟨p, hp, outside⟩ := out
    refine ⟨p, hp, ?_⟩
    rcases outside with native | parked
    · rw [native, Bool.false_and]
    · rw [parked, Bool.not_true, Bool.and_false]

/-! ## YIELD and CKPT (spec/08 R234, R236) -/

/-- A grid among those that wait for a cut. -/
def withGrid (grid : Nat) (wants : List Nat) : List Nat := if wants.contains grid then wants else wants ++ [grid]

theorem mem_withGrid (grid : Nat) (wants : List Nat) : grid ∈ withGrid grid wants := by
  unfold withGrid
  split
  · exact List.contains_iff_mem.1 ‹_›
  · exact List.mem_append_right _ List.mem_cons_self

theorem State.askCut_off {s : State} {g : Gang} (h : (s.part (s.partOfCluster g.cluster)).ckptcfg.toNat.testBit 63 = false ∨
    (s.part (s.partOfCluster g.cluster)).ckpt.phase = 1 ∨ (s.part (s.partOfCluster g.cluster)).ckpt.phase = 2) : s.askCut g = s := by
  refine if_pos ?_
  simpa [Partition.ckptOn, bitOf_eq_testBit, or_assoc] using h

theorem State.askCut_on {s : State} {g : Gang} (on : (s.part (s.partOfCluster g.cluster)).ckptcfg.toNat.testBit 63 = true)
    (one : (s.part (s.partOfCluster g.cluster)).ckpt.phase ≠ 1) (two : (s.part (s.partOfCluster g.cluster)).ckpt.phase ≠ 2) :
    s.askCut g = if g.kind = .handle then s.beginCut (s.partOfCluster g.cluster)
      else s.modCkpt (s.partOfCluster g.cluster) fun c => { c with wants := withGrid g.grid c.wants } := by
  refine if_neg ?_
  simpa [Partition.ckptOn, bitOf_eq_testBit, on, one] using two

theorem State.ckpt_modCkpt (s : State) (p : Nat) (f : Checkpoint → Checkpoint) : ((s.modCkpt p f).part p).ckpt = f (s.part p).ckpt := by
  rw [State.modCkpt, State.part_modPart_same]

/-- A cut asked for while none is in progress, with a tier to go to. -/
theorem State.beginCut_begins {s : State} {p : Nat} (one : (s.part p).ckpt.phase ≠ 1) (two : (s.part p).ckpt.phase ≠ 2)
    (tier : (s.part p).ckpttgt.toNat / 2 ^ 62 % 4 ∈ [1, 2]) :
    s.beginCut p = s.modPart p fun y => { y with ckpt := { y.ckpt with phase := 1, timer := false, wants := [] } } := by
  have idle : ¬ ((s.part p).ckpt.phase = 1 ∨ (s.part p).ckpt.phase = 2) := by simp [one, two]
  have known : bitsOf (s.part p).ckpttgt.toNat 63 62 = 1 ∨ bitsOf (s.part p).ckpttgt.toNat 63 62 = 2 := by
    simpa [bitsOf] using tier
  rw [State.beginCut]
  simp only [if_neg idle, if_pos known]

/-- Settles O35: YIELD leaves the active set or nothing; a request for a checkpoint is remembered, or begins the cut. -/
theorem yieldAndCheckpointRequests : Obligations.YieldAndCheckpointRequests := by
  refine ⟨fun f s b ready h => ?_, fun f s b ready h some_ => ?_⟩
  · rw [exec_yield, execYield, h.issueWith]
    split_ifs
    · exact ⟨_, rfl, .inr rfl⟩
    · exact ⟨_, rfl, .inl rfl⟩
  · intro p c on
    have runs : exec (.ckpt f) s = .next ((s.atIssue.askCut b.g).finish b ready (b.eachNext (.ckpt f) fun _ x => x)) := by
      have run : (b.passing (.ckpt f)).isEmpty = false := by simpa using some_
      rw [exec_ckpt, execCkpt, h.issueWith]
      simp only [Batch.taking_run, run, Bool.false_eq_true, if_false]
      rfl
    refine ⟨fun off => ?_, fun on one two fibre => ⟨_, runs, ?_⟩, fun on one two handle tier => ⟨_, runs, ?_⟩⟩
    · rw [runs, State.askCut_off (s := s.atIssue) off]
    · have asked : s.atIssue.askCut b.g = s.atIssue.modCkpt p fun c => { c with wants := withGrid b.g.grid c.wants } := by
        rw [State.askCut_on (s := s.atIssue) on one two, if_neg fibre]
        rfl
      rw [asked, State.ckpt_modCkpt]
      exact ⟨mem_withGrid .., rfl, rfl, rfl⟩
    · have cut : s.atIssue.askCut b.g = s.atIssue.modPart p fun y => { y with ckpt := { y.ckpt with phase := 1, timer := false, wants := [] } } := by
        rw [State.askCut_on (s := s.atIssue) on one two, if_pos handle]
        exact State.beginCut_begins (s := s.atIssue) one two tier
      rw [cut, State.part_modPart_same]
      exact ⟨rfl, rfl, rfl⟩

end Sys2Proof.Machine
end

section
/-! PROOFS, O36. What firmware does: weave tables loaded unit by unit and bound, and contexts swapped step by step. -/

namespace Sys2Proof.Machine

open Sys2Proof.Says

/-! ## What an effect comes to (spec/20 R426) -/

/-- The end of an issue whose checks all pass. -/
def Result.conclude (b : Batch) (ready : List Nat) : Result → Host.Outcome State Fault Refusal
  | .done outs s => .next (s.finish b ready outs)
  | .held w s => if w.issued && !b.waited then .next (s.waitIssued b ready w []) else .next (s.holdBatch b w)
  | .again s => .next s.clearTried

theorem Ready.concludes {s : State} {i : Instr} {b : Batch} {ready : List Nat} (h : Ready s i b ready) (body : Batch → State → Result) :
    s.issueWith i body = (body (b.taking i) s.atIssue).conclude b ready := h.issueWith body

/-! ## WVLOAD (spec/08 R237, spec/11 R296, spec/13 R341) -/

/-- The read of a unit leaves the gangs as they were. -/
theorem beside_readUnit (s : State) (g : Gang) (a n : Nat) : Beside s (s.readUnit g a n).st := by
  have checked := beside_checkGlobal s g.ctx (s.worldOf g) (s.featvecOf g) .load ((a + 256 * n) % 2 ^ 64) 256 1
  unfold State.readUnit
  simp only
  split
  · rename_i s1 found
    rwa [found] at checked
  · rename_i s1 found
    rwa [found] at checked
  · rename_i ps s1 found
    rw [found] at checked
    split_ifs
    · exact checked
    · split
      · exact checked
      · rename_i bs s2 read
        exact checked.trans (beside_readParts _ read)

/-- A load ends with a value for its register, and nothing is held of it any more. -/
def State.endLoad (u : State) (b : Batch) (f : SF) (t : Nat) (x : Fibre) (v : Nat) : Result :=
  .done [(t, .next (x.wr f.dst.toNat (BitVec.ofNat 32 v)))] (u.modGang b.g.key fun g => { g with work := ⟨[], none, false⟩ })

/-- What a load of the table id makes of the bytes bs that it holds once unit n is read; good says whether a header that stands in unit 0 alone
is well formed. -/
def State.takeUnit (u : State) (b : Batch) (f : SF) (t : Nat) (x : Fibre) (good : Bool) (n : Nat) (bs : List Byte) : Result :=
  let id := f.imm.toNat % 16
  if n = 0 && !good then u.endLoad b f t x 3
  else if 256 * (n + 1) < fieldAt bs 0x1C 4 then .again (u.setWork b ⟨bs, none, false⟩ (n + 1))
  else if u.tableStatus b.g.cluster id bs = 0 then (u.putTable b.g.cluster id bs).endLoad b f t x (fieldAt bs 0x18 2 * 2 ^ 16)
  else u.endLoad b f t x (u.tableStatus b.g.cluster id bs)

section
variable {u : State} {b : Batch} {f : SF} {t n : Nat} {x : Fibre} {good : Bool} {bs : List Byte}

theorem takeUnit_malformed (first : n = 0) (bad : good = false) : u.takeUnit b f t x good n bs = u.endLoad b f t x 3 := by
  simp [State.takeUnit, first, bad]

theorem takeUnit_again (fine : n = 0 → good = true) (more : 256 * (n + 1) < fieldAt bs 0x1C 4) :
    u.takeUnit b f t x good n bs = .again (u.setWork b ⟨bs, none, false⟩ (n + 1)) := by
  simp +contextual [State.takeUnit, fine, more]

theorem takeUnit_last (fine : n = 0 → good = true) (last : fieldAt bs 0x1C 4 ≤ 256 * (n + 1)) :
    u.takeUnit b f t x good n bs = if u.tableStatus b.g.cluster (f.imm.toNat % 16) bs = 0 then
        (u.putTable b.g.cluster (f.imm.toNat % 16) bs).endLoad b f t x (fieldAt bs 0x18 2 * 2 ^ 16)
      else u.endLoad b f t x (u.tableStatus b.g.cluster (f.imm.toNat % 16) bs) := by
  have wellFormed : ¬ (decide (n = 0) && !good) = true := by simpa using fine
  rw [State.takeUnit, if_neg wellFormed, if_neg (Nat.not_lt.2 last)]

end

section
variable {f : SF} {s : State} {b : Batch} {ready : List Nat} {t : Nat} {x : Fibre}
variable (h : Ready s (.wvload f) b ready) (one : b.passing (.wvload f) = [(t, x)])
include h one

theorem wvload_zero (id : f.imm.toNat % 16 = 0) : exec (.wvload f) s = (s.atIssue.endLoad b f t x 1).conclude b ready := by
  rw [exec_wvload, execWvload, h.concludes]
  simp only [Batch.taking_run, one, if_pos id]
  rfl

theorem wvload_locked (id : f.imm.toNat % 16 ≠ 0) (first : b.g.unitsRead x = 0)
    (locked : (s.part (s.partOfCluster b.g.cluster)).dutycfg.toNat.testBit 3 = true) :
    exec (.wvload f) s = (s.atIssue.endLoad b f t x 2).conclude b ready := by
  have refused : (decide (b.g.unitsRead x = 0) && bitOf (s.atIssue.part (s.atIssue.partOfCluster b.g.cluster)).dutycfg.toNat 3) = true := by
    rw [bitOf_eq_testBit, first]
    exact locked
  rw [exec_wvload, execWvload, h.concludes]
  simp only [Batch.taking_run, one, if_neg id]
  exact congrArg (Result.conclude b ready) (if_pos refused)

/-- Past these refusals the unit is read. -/
theorem wvload_reads (id : f.imm.toNat % 16 ≠ 0)
    (unlocked : b.g.unitsRead x = 0 → (s.part (s.partOfCluster b.g.cluster)).dutycfg.toNat.testBit 3 = false) :
    exec (.wvload f) s = Result.conclude b ready (match s.atIssue.readUnit b.g (x.pair f.sa.toNat).toNat (b.g.unitsRead x) with
      | .wait s1 => .held .none s1
      | .fault q e s1 => .done [(t, .fault q e)] s1
      | .ok u s1 => s1.takeUnit b f t x (headerOk ((if b.g.unitsRead x = 0 then [] else b.g.work.bytes) ++ u) (f.imm.toNat % 16)
          (((tget (s.cluster b.g.cluster).weave (f.imm.toNat % 16)).map (·.gen)).getD 0)) (b.g.unitsRead x)
          ((if b.g.unitsRead x = 0 then [] else b.g.work.bytes) ++ u)) := by
  have allowed : ¬ (decide (b.g.unitsRead x = 0) && bitOf (s.atIssue.part (s.atIssue.partOfCluster b.g.cluster)).dutycfg.toNat 3) = true := by
    rw [bitOf_eq_testBit, Bool.and_eq_true, decide_eq_true_eq]
    rintro ⟨first, locked⟩
    exact Bool.noConfusion ((unlocked first).symm.trans locked)
  rw [exec_wvload, execWvload, h.concludes]
  simp only [Batch.taking_run, one, if_neg id]
  exact congrArg (Result.conclude b ready) (if_neg allowed)

end

theorem State.gang_clearTried (s : State) (k : Nat) : s.clearTried.gang k = (s.gang k).map Gang.untried :=
  findGang_map (f := Gang.untried) (fun _ => rfl) k s.gangs

/-- A thread between two units: its work and `PIDX` are kept, its registers and PC are as before. -/
theorem setWork_again {u : State} {b : Batch} {t : Nat} {x : Fibre} (gang : u.gang b.g.key = some b.g) (skein : b.g.skeins[b.k]? = some b.sk)
    (fibre : b.sk.fibre t = some x) (w : Work) (p : Nat) : ∃ (g : Gang) (y : Fibre), (u.setWork b w p).clearTried.gang b.g.key = some g ∧
      g.work = w ∧ (u.setWork b w p).clearTried.fibreAt b.g.key b.k t = some y ∧ y.pc = x.pc ∧ y.regs = x.regs ∧ y.pidx = BitVec.ofNat 32 p ∧
      (u.setWork b w p).clearTried.clusters = u.clusters := by
  have worked : (u.modGang b.g.key fun g => { g with work := w }).skein b.g.key b.k = some b.sk := by
    rw [State.skein, State.gang_modGang_same, gang, Option.map_some, Option.bind_some]
    exact skein
  have kept : (u.setWork b w p).skein b.g.key b.k = some (b.sk.mapFibres fun _ y => { y with pidx := BitVec.ofNat 32 p }) := by
    rw [State.setWork, State.skein_modSkein_same, worked, Option.map_some]
  have at_ : (u.setWork b w p).clearTried.fibreAt b.g.key b.k t = some (Says.untried { x with pidx := BitVec.ofNat 32 p }) := by
    rw [State.fibreAt, State.skein_clearTried, kept, Option.map_some, Option.bind_some, Skein.fibre_mapFibres, Skein.fibre_mapFibres, fibre,
      Option.map_some, Option.map_some]
  obtain ⟨g, standing, held⟩ : ∃ g, (u.setWork b w p).gang b.g.key = some g ∧ g.work = w := by
    rw [State.setWork, State.modSkein, State.gang_modGang_same, State.gang_modGang_same, gang]
    exact ⟨_, rfl, rfl⟩
  have stands : (u.setWork b w p).clearTried.gang b.g.key = some g.untried := by rw [State.gang_clearTried, standing, Option.map_some]
  have clusters : (u.setWork b w p).clusters = u.clusters := by rw [State.setWork, State.modSkein_clusters, State.modGang_clusters]
  exact ⟨_, _, stands, held, at_, rfl, rfl, rfl, clusters⟩

/-- The table of a load that passes every check stands in its cluster, and no decoded line of its personality does (spec/11 R304). -/
theorem putTable_stands (u : State) (c id : Nat) (bs : List Byte) :
    tget ((u.putTable c id bs).cluster c).weave id = some ⟨fieldAt bs 0x18 4, bs⟩ ∧ ∀ l ∈ ((u.putTable c id bs).cluster c).doc, l.pers ≠ id := by
  rw [State.putTable, State.cluster_modCluster_same]
  refine ⟨tget_tset_same .., fun l hl => ?_⟩
  simpa using (List.mem_filter.1 hl).2

/-! ## WVBIND (spec/08 R238) -/

/-- A cluster with one more binding, where it is not among them. -/
def Cluster.bind (k : Cluster) (p : Nat × Nat) : Cluster := { k with bindings := if k.bindings.contains p then k.bindings else k.bindings ++ [p] }

theorem Cluster.mem_bind {k : Cluster} {p q : Nat × Nat} : q ∈ (k.bind p).bindings ↔ q ∈ k.bindings ∨ q = p := by
  by_cases bound : p ∈ k.bindings
  · have same : q = p → q ∈ k.bindings := fun e => e ▸ bound
    simpa [Cluster.bind, bound] using same
  · simp [Cluster.bind, bound]

theorem wvbind_binds {f : SF} {s : State} {b : Batch} {ready : List Nat} {t : Nat} {x : Fibre} (h : Ready s (.wvbind f) b ready)
    (one : b.passing (.wvbind f) = [(t, x)]) : exec (.wvbind f) s = .next ((s.atIssue.modCluster b.g.cluster fun k =>
      k.bind (f.imm.toNat % 16, (x.rd f.sa.toNat).toNat % 256)).finish b ready [(t, .next x)]) := by
  rw [exec_wvbind, execWvbind, h.concludes]
  simp only [Batch.taking_run, one]
  rfl

/-! ## SWAPCTX (spec/08 R239) -/

/-- The world's own area that a swap is to load, checked alone. -/
theorem swapStatus_alone (u : State) (w : Nat) (a : W64) (h : AreaHeader) :
    (h.world ≠ w → u.swapStatus w a h none = 1) ∧ (h.world = w → h.shaped = false → u.swapStatus w a h none = 2) ∧
      (h.world = w → h.shaped = true → u.portable w h = true → h.state ≠ 1 → u.swapStatus w a h none = 3) := by
  refine ⟨fun foreign => ?_, fun own malformed => ?_, fun own shaped portable unsaved => ?_⟩
  · simp [State.swapStatus, foreign]
  · simp [State.swapStatus, own, malformed]
  · simp [State.swapStatus, own, shaped, portable, unsaved]

theorem swapCheck_misaligned (s : State) (v : Access) {a c : W64} (h : c.toNat % 4096 ≠ 0 ∨ a.toNat % 4096 ≠ 0) :
    s.swapCheck v a c = .ended 2 s := if_pos h

/-- Without an outgoing area, a header that is refused ends the swap. -/
theorem swapCheck_refused {s u : State} {v : Access} {c : W64} {bs : List Byte} {st : Nat} (aligned : c.toNat % 4096 = 0)
    (read : s.agentRead v c.toNat 256 = .ok bs u) (status : u.swapStatus v.world 0 (AreaHeader.ofBytes bs) none = st) (refused : st ≠ 0) :
    s.swapCheck v 0 c = .ended st u := by
  have even : ¬ (c.toNat % 4096 ≠ 0 ∨ (0 : W64).toNat % 4096 ≠ 0) := by simp [aligned]
  simp only [State.swapCheck, if_neg even, read, if_true, status, if_pos refused]

/-- Where a swap of the batch's skein stands: on, with so many units done, or not. -/
def State.markSwap (u : State) (b : Batch) (on : Bool) (p : Nat) : State :=
  (u.modGang b.g.key fun g => { g with work := { g.work with swap := on } }).modSkein b.g.key b.k fun sk =>
    sk.mapFibres fun _ y => { y with pidx := BitVec.ofNat 32 p }

/-- The step of a fibre's swap from where it stands. -/
def State.swapNext (s : State) (b : Batch) (f : SF) (x : Fibre) : Swap :=
  let at_ := if b.g.work.swap then x.pidx.toNat else 0
  s.atIssue.swapStep ⟨b.g.ctx, s.worldOf b.g, s.featvecOf b.g, b.g.cluster, 5⟩ (x.pair f.sa.toNat) (x.pair f.sb.toNat) (at_ / 2 ^ 30) (at_ % 2 ^ 30)

/-- What a step of a swap makes of the fibre's issue. -/
def Swap.result (b : Batch) (f : SF) (t : Nat) (x : Fibre) : Swap → Result
  | .ended st u => .done [(t, .next (x.wr f.dst.toNat (BitVec.ofNat 32 st)))] (u.markSwap b false 0)
  | .failed n u =>
    .done [(t, .stay { x.wr f.dst.toNat 2 with pidx := swapIndex 2 n, wait := .none, waitArg := 0 }.advance)] (u.markSwap b false 0)
  | .fault e q u => .done [(t, .fault e q)] u
  | .wait u => .held .none u
  | .going p n u => .again (u.markSwap b true (2 ^ 30 * p + n))
  | .hold p n u => .held .none (u.markSwap b true (2 ^ 30 * p + n))

theorem swapctx_steps {f : SF} {s : State} {b : Batch} {ready : List Nat} {t : Nat} {x : Fibre} (h : Ready s (.swapctx f) b ready)
    (one : b.passing (.swapctx f) = [(t, x)]) : exec (.swapctx f) s = ((s.swapNext b f x).result b f t x).conclude b ready := by
  rw [exec_swapctx, execSwapctx, h.concludes]
  simp only [Batch.taking_run, one]
  rfl

/-! ## The obligation -/

/-- Settles O36. -/
theorem firmwareLoadsBindsAndSwaps : Obligations.FirmwareLoadsBindsAndSwaps := by
  refine ⟨fun f s b ready t x h one => ?_, fun f s b ready t x h one => ?_, fun f s b ready t x h one => ?_⟩
  · intro id c a n cleared answers locked
    obtain ⟨gang, skein⟩ := batch_gang h.batch
    have live : (t, x) ∈ b.all := by
      have passes : (t, x) ∈ b.passing (.wvload f) := by rw [one]; exact List.mem_singleton_self _
      exact (List.mem_filter.1 passes).1
    refine ⟨fun zero => wvload_zero h one zero, fun some_ first lock => wvload_locked h one some_ first lock,
      fun q a' s1 some_ unlocked read => ?_, fun u s1 some_ unlocked read => ?_⟩
    · rw [wvload_reads h one some_ unlocked, read]
      rfl
    · intro bs good long
      have runs : exec (.wvload f) s = (s1.takeUnit b f t x good n bs).conclude b ready := by
        rw [wvload_reads h one some_ unlocked, read]
      have gangs : s1.gangs = s.gangs := by
        have beside := beside_readUnit s.atIssue b.g a n
        rw [read] at beside
        exact beside.gangs
      have gang1 : s1.gang b.g.key = some b.g := by rw [State.gang, gangs]; exact gang
      refine ⟨fun first bad => runs.trans (congrArg _ (takeUnit_malformed first bad)), fun fine more => ?_, fun fine last => ?_⟩
      · obtain ⟨g, y, kept⟩ := setWork_again gang1 skein ((batch_all h.batch).2.2 _ live) ⟨bs, none, false⟩ (n + 1)
        obtain ⟨stands, held, fibre, pc, regs, pidx, clusters⟩ := kept
        refine ⟨_, g, y, ?_, stands, congrArg Work.bytes held, fibre, pc, regs, pidx, clusters⟩
        rw [runs, takeUnit_again fine more]
        rfl
      · have took := takeUnit_last (u := s1) (b := b) (f := f) (t := t) (x := x) fine last
        obtain ⟨stands, fresh⟩ := putTable_stands s1 c id bs
        exact ⟨fun refused => runs.trans (congrArg _ (took.trans (if_neg refused))),
          fun passed => ⟨s1.putTable c id bs, runs.trans (congrArg _ (took.trans (if_pos passed))), stands, fresh, gangs⟩⟩
  · refine ⟨_, wvbind_binds h one, fun q => ?_, rfl, rfl⟩
    rw [State.cluster_modCluster_same]
    exact Cluster.mem_bind
  · intro a c w v at_ mark ends
    have ended {st : Nat} {u : State} (step : s.swapNext b f x = .ended st u) : ends st u := by
      show exec (.swapctx f) s = _
      rw [swapctx_steps h one, step]
      rfl
    have checks (first : b.g.work.swap = false) : s.swapNext b f x = s.atIssue.swapCheck v a c := by
      simp only [State.swapNext, first, Bool.false_eq_true, if_false, Nat.zero_div, State.swapStep]
      rfl
    refine ⟨fun first misaligned => ended ((checks first).trans (swapCheck_misaligned _ _ misaligned)), ?_, fun st u => ended,
      fun p n u step => ?_⟩
    · intro bs u first aligned none_ read hd
      have refused {st : Nat} (status : u.swapStatus w 0 hd none = st) (bad : st ≠ 0) : ends st u := by
        refine ended ((checks first).trans ?_)
        rw [none_]
        exact swapCheck_refused aligned read status bad
      obtain ⟨foreign, malformed, unsaved⟩ := swapStatus_alone u w 0 hd
      exact ⟨fun other => refused (foreign other) (by decide), fun own bad => refused (malformed own bad) (by decide),
        fun own shaped portable used => refused (unsaved own shaped portable used) (by decide)⟩
    · have step' : s.swapNext b f x = .going p n u := step
      rw [swapctx_steps h one, step']
      rfl

end Sys2Proof.Machine
end

section
/-! PROOFS, shared by O37 to O39. Scratch that a world has, and operations that enter the record and are acknowledged from the start. -/

namespace Sys2Proof.Machine

open Sys2Proof.Says

/-! ## What an effect comes to after checks of its own (spec/20 R426) -/

theorem Ready.concludesChecked {s : State} {i : Instr} {b : Batch} {ready : List Nat} (h : Ready s i b ready)
    {pre : Batch → State → List (Nat × Out)} {body : Batch → State → Result} (clean : pre (b.taking i) s.atIssue = []) :
    s.issueChecked i pre body = (body (b.taking i) s.atIssue).conclude b ready := h.issueChecked pre body clean

/-! ## Scratch (spec/05 R111) -/

/-- No bank refuses a range that lies in the world's scratch banks. -/
theorem scratchBad_of_inScratch {s : State} {b : Batch} {a n : Nat} (h : inScratch s b a n) :
    s.scratchBad b.g.cluster (s.worldOf b.g) a n = none := by
  unfold State.scratchBad
  split
  · rfl
  · rename_i some_
    refine Option.map_eq_none_iff.2 (List.find?_eq_none.2 fun k hk => ?_)
    rw [mem_rangeFrom] at hk
    have bank : max a (k * 2 ^ 18) / 2 ^ 18 = k := by omega
    obtain ⟨low, ok⟩ := h (max a (k * 2 ^ 18)) (le_max_left ..) (by omega)
    rw [bank] at ok
    have known : k < 64 := by omega
    rw [ok, decide_eq_true known]
    simp

theorem checkArea_of_inScratch {s : State} {b : Batch} {a n align : Nat} (aligned : a % align = 0) (h : inScratch s b a n) :
    s.checkArea b.g.cluster (s.worldOf b.g) a n align = none := by
  simp [State.checkArea, aligned, scratchBad_of_inScratch h]

/-! ## Entries of tile operations and of copies (spec/03 R64) -/

theorem Skein.room_tile (sk : Skein) {kind n : Nat} (tile : kindCounter kind = 4) (fits : sk.t + n ≤ 15) : sk.room kind n = true := by
  simpa [Skein.room, tile] using fits

theorem Skein.room_copy (sk : Skein) {kind n : Nat} (copy : kindCounter kind = 3) (fits : sk.c + n ≤ 15) : sk.room kind n = true := by
  simpa [Skein.room, copy] using fits

theorem Skein.addEntry_tile (sk : Skein) {e : Entry} (tile : kindCounter e.kind = 4) (acked : e.acked = true) : sk.addEntry e =
    { sk with t := sk.t + 1, record := sk.record ++ [{ e with seq := sk.nextSeq }], nextSeq := sk.nextSeq + 1 } := by
  simp only [Skein.addEntry, Skein.raise, tile, acked, if_true, Nat.add_zero]

theorem Skein.addEntry_copy (sk : Skein) {e : Entry} (copy : kindCounter e.kind = 3) (acked : e.acked = true) : sk.addEntry e =
    { sk with c := sk.c + 1, record := sk.record ++ [{ e with seq := sk.nextSeq }], nextSeq := sk.nextSeq + 1 } := by
  simp only [Skein.addEntry, Skein.raise, copy, acked, if_true, Nat.add_zero]

theorem State.skein_addEntry {s : State} {b : Batch} {sk : Skein} (h : s.skein b.g.key b.k = some sk) (e : Entry) :
    (s.addEntry b e).skein b.g.key b.k = some (sk.addEntry e) := by
  rw [State.addEntry, State.skein_modSkein_same, h, Option.map_some]

end Sys2Proof.Machine
end

section
/-! PROOFS, O37, O38. Tile instructions: a quarter's operation enters its skein's record and the core's tile queue; stationary slots are held
from their load's issue on, and emptied at their release's. -/

namespace Sys2Proof.Machine

open Sys2Proof.Says

/-! ## What entering the tile queue leaves alone -/

/-- t is s but for gangs and the tile queues of cores. -/
structure Queued (s t : State) : Prop where
  mem : t.mem = s.mem
  clusters : t.clusters = s.clusters
  ctxs : t.ctxs = s.ctxs
  slots : ∀ n, (t.core n).slots = (s.core n).slots

theorem Queued.refl (s : State) : Queued s s := ⟨rfl, rfl, rfl, fun _ => rfl⟩

theorem Queued.trans {s t u : State} (a : Queued s t) (b : Queued t u) : Queued s u :=
  ⟨b.mem.trans a.mem, b.clusters.trans a.clusters, b.ctxs.trans a.ctxs, fun n => (b.slots n).trans (a.slots n)⟩

theorem queued_addEntry (s : State) (b : Batch) (e : Entry) : Queued s (s.addEntry b e) := by
  refine ⟨State.modSkein_mem .., State.modSkein_clusters .., State.modSkein_ctxs .., fun n => ?_⟩
  rw [State.core, State.addEntry, State.modSkein_cores, State.core]

theorem queued_pushTile (s : State) (g : Gang) (r : TileRef) : Queued s (s.pushTile g r) := by
  refine ⟨rfl, rfl, rfl, fun n => ?_⟩
  by_cases h : n = coreNumber g.cluster g.core
  · rw [h, State.pushTile, State.core_modCore_same]
  · rw [State.pushTile, State.core_modCore_other _ _ _ _ h]

theorem State.tileQueue_pushTile (s : State) (g : Gang) (r : TileRef) : (s.pushTile g r).tileQueue g = s.tileQueue g ++ [r] := by
  rw [State.tileQueue, State.pushTile, State.core_modCore_same, State.tileQueue]

theorem State.tileQueue_addEntry (s : State) (b : Batch) (e : Entry) (g : Gang) : (s.addEntry b e).tileQueue g = s.tileQueue g := by
  rw [State.tileQueue, State.core, State.addEntry, State.modSkein_cores, State.tileQueue, State.core]

section
variable {s u : State} (same : Queued s u)
include same

theorem Queued.worldOf (g : Gang) : u.worldOf g = s.worldOf g := by
  simp only [State.worldOf, State.worldOfCtx, State.ctx, same.ctxs]

theorem Queued.inScratch {b : Batch} {a n : Nat} (h : inScratch s b a n) : inScratch u b a n := by
  simpa only [Says.inScratch, State.bankOk, State.cluster, same.clusters, same.worldOf] using h

theorem Queued.slotHolds {g : Gang} {slot n : Nat} {y : StatSlot} (slots : (s.core (coreNumber g.cluster g.core)).slots[slot]? = some y)
    (holder : y.holder = some g.key) (long : n ≤ y.len) : u.slotHolds g slot n = true := by
  simp [State.slotHolds, same.slots, slots, holder, long]

end

/-! ## Quarters (spec/10 R262) -/

theorem quarters_eq (run : List (Nat × Fibre)) : quarters run = (quartersOf run).map fun q => (q.q, q.leader, q.members) := by
  have numbers : rangeFrom 0 8 = List.range 8 := rfl
  rw [quartersOf, numbers, quarters, List.map_filterMap]
  refine List.filterMap_congr fun q _ => ?_
  cases run.filter fun p => p.1 / 8 == q <;> rfl

theorem leader_mem {run : List (Nat × Fibre)} {q : Quarter} (h : q ∈ quartersOf run) :
    (∃ t, (t, q.leader) ∈ run) ∧ q.members ≠ [] := by
  obtain ⟨n, -, made⟩ := List.mem_filterMap.1 h
  cases members : run.filter fun p => p.1 / 8 == n with
  | nil => rw [members] at made; cases made
  | cons p r =>
    rw [members] at made
    cases made
    exact ⟨⟨p.1, (List.mem_filter.1 (members ▸ List.mem_cons_self : p ∈ run.filter fun p => p.1 / 8 == n)).1⟩, List.cons_ne_nil _ _⟩

/-- What a quarter comes to is an operation of its own that P holds of, with a part for each contributor. -/
def Quarter.Makes (q : Quarter) (r : QuarterOp) (P : TileOp → Prop) : Prop :=
  ∃ o ops, r = .op o ops [] ∧ ops.map (fun y => (y.slot, y.uid)) = q.members.map (fun p => (p.1, p.2.uid)) ∧ o.quarter = q.q ∧ P o

/-- The entry of such an operation. -/
def Quarter.Recorded (kind : Nat) (P : Quarter → TileOp → Prop) (q : Quarter) (e : Entry) : Prop :=
  e.kind = kind ∧ e.ops.map (fun y => (y.slot, y.uid)) = q.members.map (fun p => (p.1, p.2.uid)) ∧
    ∃ o, e.tile = some o ∧ o.quarter = q.q ∧ P q o

/-- Operations es have entered the record of the batch's skein, sk before, and its core's queue. -/
structure Entered (s : State) (b : Batch) (sk : Skein) (es : List Entry) (t : State) : Prop where
  same : Queued s t
  skein : ∃ y, t.skein b.g.key b.k = some y ∧ y.slots = sk.slots ∧ y.record = sk.record ++ es ∧ y.t = sk.t + es.length
  queue : t.tileQueue b.g = s.tileQueue b.g ++ es.map fun e => .op ⟨b.g.key, b.k, e.seq⟩

theorem Entered.none {s : State} {b : Batch} {sk : Skein} (h : s.skein b.g.key b.k = some sk) : Entered s b sk [] s :=
  ⟨.refl s, ⟨sk, h, rfl, (List.append_nil _).symm, rfl⟩, (List.append_nil _).symm⟩

/-- A tile operation's entry made in front of others. -/
theorem Entered.cons {s t : State} {b : Batch} {sk : Skein} {e : Entry} {es : List Entry}
    (tile : kindCounter e.kind = 4) (acked : e.acked = true)
    (rest : Entered ((s.addEntry b e).pushTile b.g (.op ⟨b.g.key, b.k, sk.nextSeq⟩)) b (sk.addEntry e) es t) :
    Entered s b sk ({ e with seq := sk.nextSeq } :: es) t := by
  obtain ⟨same, ⟨y, skein, slots, record, count⟩, queue⟩ := rest
  rw [sk.addEntry_tile tile acked] at slots record count
  refine ⟨((queued_addEntry ..).trans (queued_pushTile ..)).trans same, ⟨y, skein, slots, ?_, ?_⟩, ?_⟩
  · rw [record, List.append_assoc, List.singleton_append]
  · rw [count, List.length_cons, Nat.add_assoc, Nat.add_comm 1]
  · rw [queue, State.tileQueue_pushTile, State.tileQueue_addEntry, List.append_assoc, List.singleton_append, List.map_cons]

/-- Where every quarter comes to an operation, all of them enter in order, and their fibres go on. -/
theorem enterQuarters_makes {s : State} {b : Batch} {kind first : Nat} {mk : Quarter → State → QuarterOp} {P : Quarter → TileOp → Prop}
    (tile : kindCounter kind = 4) : ∀ (qs : List Quarter) {u : State} {sk : Skein}, u.skein b.g.key b.k = some sk → Queued s u →
      (∀ q ∈ qs, q.members ≠ [] ∧ ∀ u, Queued s u → q.Makes (mk q u) (P q)) →
      (u.enterQuarters b kind first mk qs).1 = qs.flatMap (fun q => q.members.map fun p => (p.1, .next p.2)) ∧
      ∃ es, Entered u b sk es (u.enterQuarters b kind first mk qs).2 ∧ List.Forall₂ (Quarter.Recorded kind P) qs es
  | [], u, sk, h, _, _ => ⟨rfl, [], .none h, .nil⟩
  | q :: r, u, sk, h, same, makes => by
    obtain ⟨some_, make⟩ := makes q List.mem_cons_self
    obtain ⟨o, ops, made, parts, quarter, holds⟩ := make u same
    have some_ : ops.isEmpty = false := by
      cases ops with
      | nil => exact absurd (List.map_eq_nil_iff.1 parts.symm) some_
      | cons o r => rfl
    have seq : ((u.skein b.g.key b.k).map (·.nextSeq)).getD 0 = sk.nextSeq := by rw [h]; rfl
    simp only [State.enterQuarters, made, some_, seq, Bool.false_eq_true, if_false, without_nil, List.nil_append]
    generalize made_ : ({ b.entry kind q.leader with
      rnd := o.rnd, dst := first, aux := b.amask.toNat, mask := maskOf (ops.map (·.slot)), ops := ops, tile := some o,
      prog := (o.rows.map (·.2.2)).foldl min ((o.rows.head?.map (·.2.2)).getD 0) } : Entry) = e
    have entry : e.kind = kind ∧ e.acked = true ∧ e.ops = ops ∧ e.tile = some o := by subst made_; exact ⟨rfl, rfl, rfl, rfl⟩
    obtain ⟨isKind, acked, hasOps, hasTile⟩ := entry
    have next : ((u.addEntry b e).pushTile b.g (.op ⟨b.g.key, b.k, sk.nextSeq⟩)).skein b.g.key b.k = some (sk.addEntry e) :=
      State.skein_addEntry h e
    obtain ⟨outs, es, entered, recorded⟩ := enterQuarters_makes (P := P) tile r next
      ((same.trans (queued_addEntry ..)).trans (queued_pushTile ..)) fun q hq => makes q (List.mem_cons_of_mem _ hq)
    refine ⟨by rw [outs, List.flatMap_cons], _, Entered.cons (isKind ▸ tile) acked entered, .cons ⟨isKind, ?_, o, hasTile, quarter, holds⟩ recorded⟩
    rw [← parts, ← hasOps]

/-! ## Format words (spec/10 R266, R273, R275) -/

theorem wordClean_of {fv w : Nat} (reserved : w < 2 ^ 15) (acc : w / 2 ^ 8 % 16 ≤ 1)
    (feature : fv.testBit 2 = true ∨ w % 16 ≠ 6 ∧ w / 16 % 16 ≠ 6) : wordClean fv w = true := by
  have feature : (bitOf fv 2 || (fwAf w != 6 && fwBf w != 6)) = true := by
    simpa [fwAf, fwBf, bitsOf, bitOf_eq_testBit] using feature
  have acc : fwAcc w ≤ 1 := acc
  rw [wordClean, feature, decide_eq_true reserved, decide_eq_true acc]
  rfl

/-- One clean and legal word in every fibre passes. -/
theorem formatWord_passes {r : Reg} {legal : Nat → Bool} {b : Batch} {s : State} {w : Nat} (one : ∀ p ∈ b.run, (p.2.rd r.toNat).toNat = w)
    (clean : wordClean (s.featvecOf b.g) w = true) (ok : legal w = true) : formatWord r legal b s = [] := by
  unfold formatWord
  split
  · rfl
  · rename_i t x rest run
    have first : (x.rd r.toNat).toNat = w := one (t, x) (run ▸ List.mem_cons_self)
    have alike : (b.run.any fun p => p.2.rd r.toNat != x.rd r.toNat) = false := by
      rw [List.any_eq_false]
      intro p hp
      simpa using BitVec.eq_of_toNat_eq ((one p hp).trans first.symm)
    simp only [alike, first, clean, ok, Bool.not_true, Bool.or_self, Bool.false_eq_true, if_false]

/-! ## The words -/

section
variable {i : Instr} {s : State} {b : Batch} {ready : List Nat}

/-- A ready tile instruction with room for its operations, each of which its quarter comes to. -/
theorem Ready.entersQuarters {pre : Batch → State → List (Nat × Out)} {kind : Nat} {mk : Batch → Quarter → State → QuarterOp}
    {P : Quarter → TileOp → Prop} (h : Ready s i b ready)
    (runs : exec i s = s.issueChecked i pre fun b s => s.issueTile b kind (mk b)) (tile : kindCounter kind = 4)
    (clean : pre (b.taking i) s.atIssue = []) (some_ : b.passing i ≠ []) (room : b.sk.t + (quartersOf (b.passing i)).length ≤ 15)
    (space : (s.core (coreNo b.g)).queue.length + (quartersOf (b.passing i)).length ≤ 32)
    (makes : ∀ q ∈ quartersOf (b.passing i), ∀ u, Queued s u → q.Makes (mk (b.taking i) q u) (P q)) :
    ∃ t es, exec i s = .next (t.finish b ready ((quartersOf (b.passing i)).flatMap fun q => q.members.map fun p => (p.1, .next p.2))) ∧
      Entered s b b.sk es t ∧ List.Forall₂ (Quarter.Recorded kind P) (quartersOf (b.passing i)) es := by
  have standing : s.atIssue.skein b.g.key b.k = some b.sk := ready_skein h
  have fits : b.sk.room kind (quartersOf (b.passing i)).length = true := b.sk.room_tile tile room
  have short : ¬ 32 < (s.atIssue.tileQueue b.g).length + (quartersOf (b.passing i)).length := Nat.not_lt.2 space
  obtain ⟨outs, es, ⟨same, skein, queue⟩, recorded⟩ :=
    enterQuarters_makes (s := s.atIssue) (b := b.taking i) (first := b.sk.nextSeq) (mk := mk (b.taking i)) (P := P) tile
      (quartersOf (b.passing i)) standing (.refl _) fun q hq =>
        ⟨(leader_mem hq).2, fun u same => makes q hq u ⟨same.mem, same.clusters, same.ctxs, same.slots⟩⟩
  refine ⟨_, es, ?_, ⟨⟨same.mem, same.clusters, same.ctxs, same.slots⟩, skein, queue⟩, recorded⟩
  rw [runs, h.issueChecked _ _ clean]
  simp only [State.issueTile, Batch.taking_run, List.isEmpty_iff, some_, if_false, Batch.taking_sk, Batch.taking_g, fits, short,
    decide_false, Bool.not_true, Bool.or_self, Bool.false_eq_true, outs]

end

/-- A tile instruction's operations enter where each quarter that meets its conditions comes to an operation as noted. -/
theorem entersTiles_of {i : Instr} {f : XF} {kind : Nat} {legal : Nat → Bool} {fine : State → Batch → Nat → Fibre → List (Nat × Fibre) → Prop}
    {notes : Nat → Fibre → List (Nat × Fibre) → TileOp → Prop} {mk : Batch → Quarter → State → QuarterOp}
    (runs : ∀ s, exec i s = s.issueChecked i (formatWord f.c legal) fun b s => s.issueTile b kind (mk b)) (tile : kindCounter kind = 4)
    (makes : ∀ (s : State) (b : Batch) (q : Quarter) u, Queued s u → ∀ w, (q.leader.rd f.c.toNat).toNat = w → fine s b w q.leader q.members →
      q.Makes (mk (b.taking i) q u) fun o => o.fmt = w ∧ notes w q.leader q.members o) :
    EntersTiles i f kind legal fine notes := by
  intro s b ready w h one reserved acc feature ok qs queue some_ room space good
  have listed : qs = (quartersOf (b.passing i)).map fun q => (q.q, q.leader, q.members) := quarters_eq _
  have count : qs.length = (quartersOf (b.passing i)).length := by rw [listed, List.length_map]
  have run : b.passing i ≠ [] := fun none_ => some_ (by simp only [qs, none_]; rfl)
  rw [count] at room space
  obtain ⟨t, es, issued, ⟨same, ⟨sk, skein, slots, record, raised⟩, queued⟩, recorded⟩ :=
    h.entersQuarters (P := fun q o => o.fmt = w ∧ notes w q.leader q.members o) (runs s) tile
      (formatWord_passes (w := w) one (wordClean_of reserved acc feature) ok) run room space fun q hq u same => by
        obtain ⟨⟨slot, leader⟩, -⟩ := leader_mem hq
        refine makes s b q u same w (one (slot, q.leader) leader) (good (q.q, q.leader, q.members) ?_)
        rw [listed]
        exact List.mem_map_of_mem hq
  have length : es.length = qs.length := by rw [count, recorded.length_eq]
  refine ⟨t, sk, es, ?_, skein, slots, record, length ▸ raised, length, fun j q e hq he => ?_, queued, same.mem, same.clusters⟩
  · rw [issued, listed, List.flatMap_map]
  · rw [listed, List.getElem?_map, Option.map_eq_some_iff] at hq
    obtain ⟨q, hq, rfl⟩ := hq
    obtain ⟨hj, rfl⟩ := List.getElem?_eq_some_iff.1 hq
    obtain ⟨hj', rfl⟩ := List.getElem?_eq_some_iff.1 he
    exact recorded.get hj hj'

/-! ## Tiles and their rows (spec/10 R262 to R264) -/

theorem elemBytes_eq_tileElement (f : XF) (w : Nat) : elemBytes w (f.bits 9 9 == 1) = tileElement f w := by
  simp only [elemBytes, tileElement, beq_iff_eq]
  rfl

theorem tileRows_eq_tileRowCount (f : XF) : tileRows (f.bits 14 13) = tileRowCount f := rfl

theorem fwAf_eq (w : Nat) : fwAf w = w % 16 := by simp [fwAf, bitsOf]

theorem fwBf_eq (w : Nat) : fwBf w = w / 16 % 16 := rfl

theorem elemBytes_point (w : Nat) : elemBytes w false = if w / 2 ^ 8 % 16 = 1 then 8 else 4 := by
  rw [elemBytes, if_neg Bool.false_ne_true, Nat.mul_one]
  rfl

theorem rowsOf_zipIdx (m slot : Nat) : (rowsOf m slot).zipIdx = (List.range (2 ^ m)).map fun j => (slot % 8 * 2 ^ m + j, j) := by
  rw [rowsOf, rangeFrom_eq_range']
  exact List.ext_getElem (by simp) fun j _ _ => by simp

/-- The rows of a quarter's operation are those its contributors own. -/
theorem ownedRows_rows (f : XF) (arow : Option Nat) (members : List (Nat × Fibre)) :
    (ownedRows (f.bits 14 13) arow members).map (·.1) = ownRows f members := by
  simp only [ownedRows, ownRows, List.map_flatMap, rowsOf_zipIdx, List.map_map]
  cases arow <;> rfl

/-- Their A row addresses are the registers of the group that names them. -/
theorem ownedRows_addresses (m a : Nat) (members : List (Nat × Fibre)) : (ownedRows m (some a) members).map (·.2.1) =
    members.flatMap fun p => (List.range (2 ^ m)).map fun j => (p.2.rd (a + j)).toNat := by
  simp only [ownedRows, List.map_flatMap, rowsOf_zipIdx, List.map_map]
  rfl

theorem checkAreas_none {s : State} {c w align : Nat} {as : List (Nat × Nat)} (h : ∀ a ∈ as, s.checkArea c w a.1 a.2 align = none) :
    s.checkAreas c w align as = none := List.findSome?_eq_none_iff.2 h

theorem tileSlots_names (a : Nat) (members : List (Nat × Fibre)) :
    (members.map (tileSlot a)).map (fun y => (y.slot, y.uid)) = members.map fun p => (p.1, p.2.uid) := List.map_map

theorem accOnly_eq (w : Nat) : accOnly w = (w % 256 == 0 && w / 2 ^ 12 % 8 == 0) := by
  rw [Bool.eq_iff_iff]
  simp only [accOnly, fwAf, fwBf, fwRnd, bitsOf, Bool.and_eq_true, beq_iff_eq]
  omega

section
variable {s u : State} {b : Batch} {f : XF} {q : Quarter} {w : Nat}

/-- MMA's checks pass, and its operation takes the instruction's fields. -/
theorem mma_areas (same : Queued s u) {acc n k : Nat} (aligned : acc % 16 = 0) (tile : inScratch s b acc n)
    (rows : ∀ p ∈ q.members, ∀ j < 2 ^ f.bits 14 13, (p.2.rd (f.b.toNat + j)).toNat % 16 = 0 ∧ inScratch s b (p.2.rd (f.b.toNat + j)).toNat k) :
    u.checkAreas b.g.cluster (u.worldOf b.g) 16
      ((acc, n) :: (ownedRows (f.bits 14 13) (some f.b.toNat) q.members).map fun r => (r.2.1, k)) = none := by
  refine checkAreas_none fun a ha => ?_
  rcases List.mem_cons.1 ha with rfl | ha
  · exact checkArea_of_inScratch aligned (same.inScratch tile)
  · obtain ⟨r, hr, rfl⟩ := List.mem_map.1 ha
    have address : r.2.1 ∈ (ownedRows (f.bits 14 13) (some f.b.toNat) q.members).map (·.2.1) := List.mem_map_of_mem hr
    rw [ownedRows_addresses] at address
    obtain ⟨p, hp, named⟩ := List.mem_flatMap.1 address
    obtain ⟨j, hj, at_⟩ := List.mem_map.1 named
    obtain ⟨aligned, row⟩ := rows p hp j (List.mem_range.1 hj)
    dsimp only
    rw [← at_]
    exact checkArea_of_inScratch aligned (same.inScratch row)

/-- The pieces of TCVT's destination lie in the world's scratch (spec/10 R275). -/
theorem tcvt_pieces (same : Queued s u) {af n swz code side pitch : Nat} (pitch_ : pitch = if af = 6 then n / 2 else n * codeBytes af)
    (codes : ∀ r ∈ ownRows f q.members, ∀ p ∈ swizzlePieces swz code pitch r 0 pitch, inScratch s b p.1 p.2)
    (sides : af = 6 → ∀ r ∈ ownRows f q.members, inScratch s b (side + r * (n / 16)) (n / 16)) :
    ((tcvtPieces af n swz code side (ownedRows (f.bits 14 13) none q.members)).find? fun p =>
      (u.scratchBad b.g.cluster (u.worldOf b.g) p.2.1 p.2.2).isSome) = none := by
  refine List.find?_eq_none.2 fun p hp => ?_
  have inside : inScratch s b p.2.1 p.2.2 := by
    rw [tcvtPieces, ← pitch_] at hp
    obtain ⟨r, hr, piece⟩ := List.mem_flatMap.1 hp
    have own : r.1 ∈ ownRows f q.members := ownedRows_rows f none q.members ▸ List.mem_map_of_mem hr
    rcases List.mem_append.1 piece with piece | piece
    · obtain ⟨z, hz, rfl⟩ := List.mem_map.1 piece
      exact codes r.1 own z hz
    · split at piece
      · rename_i blocks
        rw [List.mem_singleton.1 piece]
        exact sides blocks r.1 own
      · cases piece
  rw [scratchBad_of_inScratch (same.inScratch inside)]
  exact Bool.false_ne_true

/-- TGET and TSTR of a panel of the tile, where every contributor's registers fit its window (spec/10 R274). -/
theorem moveQuarter_makes (i : Instr) (same : Queued s u) (get : Bool)
    (aligned : (q.leader.rd f.a.toNat).toNat % 16 = 0) (word : (q.leader.rd f.c.toNat).toNat = w)
    (panel : inScratch s b ((q.leader.rd f.a.toNat).toNat + f.bits 20 15 * (tileRowCount f * 16 * tileElement f w))
      (tileRowCount f * 16 * tileElement f w))
    (fits : ∀ p ∈ q.members, spanFits (spanGroup f (!get) p.2) b.g.kind p.2 = true) :
    q.Makes (moveQuarter f (b.taking i) get q u) fun o => o.fmt = w ∧ (o.acc = (q.leader.rd f.a.toNat).toNat ∧ o.m = f.bits 14 13) ∧
      o.p1 = f.bits 20 15 ∧ o.p2 = f.bits 5 2 + 1 ∧ o.rows.map (·.1) = ownRows f q.members ∧
      (get = false → o.regs = q.members.map fun p => (p.1, p.2.rdGroup f.b.toNat (spanGroup f (!get) p.2).n)) := by
  subst word
  have checked := checkArea_of_inScratch (align := 1) (Nat.mod_one _) (same.inScratch panel)
  have good : (q.members.filter fun p => spanFits (spanGroup f (!get) p.2) b.g.kind p.2) = q.members := List.filter_eq_self.2 fits
  have bad : (q.members.filter fun p => !spanFits (spanGroup f (!get) p.2) b.g.kind p.2) = [] :=
    List.filter_eq_nil_iff.2 fun p hp => by rw [fits p hp]; exact Bool.false_ne_true
  have area (e : Nat) : f.bits 20 15 * tileRowCount f * 16 * e = f.bits 20 15 * (tileRowCount f * 16 * e) := by simp only [Nat.mul_assoc]
  unfold moveQuarter
  simp only [elemBytes_eq_tileElement, tileRows_eq_tileRowCount, area, State.worldB, Batch.taking_g, checked, good, bad, aligned, bne_self_eq_false,
    Bool.false_eq_true, if_false]
  refine ⟨_, _, rfl, List.map_map, rfl, rfl, ⟨rfl, rfl⟩, rfl, rfl, ownedRows_rows f none _, fun store => ?_⟩
  subst store
  rfl

end

/-- Settles O37: each quarter's operation passes its checks whatever entered the queue before it, and takes its fields from the word. -/
theorem tileOperationsEnter : Obligations.TileOperationsEnter := by
  have legal : accOnly = fun w => w % 256 == 0 && w / 2 ^ 12 % 8 == 0 := funext accOnly_eq
  unfold Obligations.TileOperationsEnter
  rw [← legal]
  refine ⟨fun f => entersTiles_of (exec_mma f) rfl ?_, fun f => entersTiles_of (exec_tzero f) rfl ?_,
    fun f => entersTiles_of (exec_tcvt f) rfl ?_, fun f => entersTiles_of (exec_tget f) rfl ?_, fun f => entersTiles_of (exec_tstr f) rfl ?_⟩
  · rintro s b q u same _ rfl ⟨aligned, tile, rows, y, slot, holder, long⟩
    have areas := mma_areas same aligned tile rows
    have held := same.slotHolds slot holder long
    simp only [State.worldB, Batch.taking_g, elemBytes_eq_tileElement, tileRows_eq_tileRowCount, fwAf_eq, fwBf_eq, areas, held, Bool.not_true,
      Bool.false_eq_true, if_false]
    exact ⟨_, _, rfl, tileSlots_names .., rfl, rfl, ⟨rfl, rfl⟩, rfl, beq_iff_eq, beq_iff_eq, beq_iff_eq, beq_iff_eq, rfl, rfl,
      ownedRows_rows f (some _) _, ownedRows_addresses ..⟩
  · rintro s b q u same _ rfl ⟨aligned, tile⟩
    have area := checkArea_of_inScratch aligned (same.inScratch tile)
    simp only [State.worldB, Batch.taking_g, elemBytes_eq_tileElement, tileRows_eq_tileRowCount, area]
    exact ⟨_, _, rfl, tileSlots_names .., rfl, rfl, ⟨rfl, rfl⟩, rfl, beq_iff_eq, ownedRows_rows f none _⟩
  · rintro s b q u same _ rfl ⟨aligned, tile, swizzle, codes, sides⟩
    have area := checkArea_of_inScratch aligned (same.inScratch tile)
    have pieces := tcvt_pieces same rfl codes sides
    simp only [State.worldB, Batch.taking_g, elemBytes_point, tileRows_eq_tileRowCount, fwAf_eq, area, swizzle, pieces, Bool.not_true,
      Bool.false_eq_true, if_false]
    exact ⟨_, _, rfl, tileSlots_names .., rfl, rfl, ⟨rfl, rfl⟩, rfl, rfl, rfl, rfl, ownedRows_rows f none _⟩
  · rintro s b q u same w word ⟨aligned, panel, fits⟩
    obtain ⟨o, ops, made, parts, quarter, fmt, place, p1, p2, rows, -⟩ := moveQuarter_makes (.tget f) same true aligned word panel fits
    exact ⟨o, ops, made, parts, quarter, fmt, place, p1, p2, rows, fun store => absurd store Bool.false_ne_true⟩
  · rintro s b q u same w word ⟨aligned, panel, fits⟩
    obtain ⟨o, ops, made, parts, quarter, fmt, place, p1, p2, rows, regs⟩ := moveQuarter_makes (.tstr f) same false aligned word panel fits
    exact ⟨o, ops, made, parts, quarter, fmt, place, p1, p2, rows, fun _ => regs rfl⟩

/-! ## Stationary slots (spec/10 R265, R270, R271) -/

theorem State.slots_setStat (s : State) (g : Gang) (n : Nat) (x : StatSlot) :
    ((s.setStat g n x).core (coreNo g)).slots = setAt (s.core (coreNo g)).slots n x :=
  congrArg Core.slots (State.core_modCore_same ..)

theorem State.queue_setStat (s : State) (g : Gang) (n : Nat) (x : StatSlot) : (s.setStat g n x).tileQueue g = s.tileQueue g := by
  rw [State.tileQueue, State.setStat, State.core_modCore_same, State.tileQueue]

/-- A slot of the core is as it is set. -/
theorem State.slot_setStat {s : State} {g : Gang} {n : Nat} {y : StatSlot} (h : (s.core (coreNo g)).slots[n]? = some y) (x : StatSlot) :
    ((s.setStat g n x).core (coreNo g)).slots[n]? = some x := by
  rw [State.slots_setStat, setAt_getElem?, if_pos rfl, h, Option.map_some]

section
variable {f : XF} {s : State} {b : Batch} {ready : List Nat}

/-- LDSTAT's slot is free or the gang's own, its addresses are aligned, and its source is scratch of the world. -/
theorem ldstatCheck_passes {t : Nat} {x : Fibre} {rest : List (Nat × Fibre)} (leading : b.run = (t, x) :: rest)
    (holder : (s.statSlot b.g (f.bits 8 6)).holder = none ∨ (s.statSlot b.g (f.bits 8 6)).holder = some b.g.key)
    (object : (ldstatArgs f x).2.2.2.toNat % 4096 = 0) (source : (ldstatArgs f x).2.1 % 16 = 0)
    (inside : inScratch s b (ldstatArgs f x).2.1 (ldstatArgs f x).2.2.1) : ldstatCheck f b s = [] := by
  have own : ((s.statSlot b.g (f.bits 8 6)).holder.isSome && (s.statSlot b.g (f.bits 8 6)).holder != some b.g.key) = false := by
    rcases holder with none_ | own
    · rw [none_]; rfl
    · rw [own, bne_self_eq_false, Bool.and_false]
  have area := checkArea_of_inScratch source inside
  simp only [ldstatCheck, leading, own, object, State.worldB, area, bne_self_eq_false, Bool.false_eq_true, if_false]

end

/-- The operation and the entry of an LDSTAT whose lowest passing fibre is x in slot t. -/
def ldstatOp (f : XF) (b : Batch) (t : Nat) (x : Fibre) : TileOp :=
  { blankTile (t / 8) x (b.fibid t) 0 with
    slot := f.bits 8 6, iv := f.bits 9 9 == 1, p0 := (ldstatArgs f x).2.1, p1 := (ldstatArgs f x).2.2.2.toNat, p2 := (ldstatArgs f x).1 }

def ldstatEntry (f : XF) (b : Batch) (t : Nat) (x : Fibre) : Entry :=
  { b.entry 0x19 x with ops := b.run.map (tileSlot (ldstatArgs f x).2.1), tile := some (ldstatOp f b t x) }

/-- An LDSTAT with room enters its operation and takes its slot. -/
theorem ldstat_issues {f : XF} {s : State} {b : Batch} {ready : List Nat} {t : Nat} {x : Fibre} {rest : List (Nat × Fibre)}
    (h : Ready s (.ldstat f) b ready) (leading : b.passing (.ldstat f) = (t, x) :: rest)
    (clean : ldstatCheck f (b.taking (.ldstat f)) s.atIssue = []) (room : b.sk.t < 15) (space : (s.core (coreNo b.g)).queue.length < 32) :
    exec (.ldstat f) s = .next (((((s.atIssue.addEntry b (ldstatEntry f (b.taking (.ldstat f)) t x)).pushTile b.g
      (.op ⟨b.g.key, b.k, b.sk.nextSeq⟩)).setStat b.g (f.bits 8 6)
        ⟨some b.g.key, (ldstatArgs f x).1, if f.bits 9 9 = 1 then some ((ldstatArgs f x).2.2.2, (ldstatArgs f x).1) else none⟩)).finish b ready
          (b.eachNext (.ldstat f) fun _ z => z)) := by
  have fits : b.sk.room 0x19 1 = true := b.sk.room_tile rfl room
  have short : ¬ 32 < (s.atIssue.tileQueue b.g).length + 1 := Nat.not_lt.2 space
  rw [exec_ldstat, execLdstat, h.concludesChecked clean]
  split
  · rename_i none_
    cases leading.symm.trans none_
  · rename_i t' x' r first
    cases leading.symm.trans first
    simp only [Batch.taking_sk, Batch.taking_g, fits, short, decide_false, Bool.not_true, Bool.or_self, Bool.false_eq_true, if_false]
    rfl

/-- Settles O38: what the checks ask holds, so the load's operation and the release's element enter, and the slot is set. -/
theorem stationarySlotsLoadAndRelease : Obligations.StationarySlotsLoadAndRelease := by
  refine ⟨fun f s b ready t x h first => ?_, fun f s b ready y h some_ => ?_⟩
  · intro n sealed_ src g core four small free object source inside room space
    obtain ⟨rest, leading⟩ := List.head?_eq_some_iff.1 first
    have bound : f.bits 8 6 < core.slots.length := four ▸ small
    have slot : (s.core (coreNo b.g)).slots[f.bits 8 6]? = some (core.slots[f.bits 8 6]) := List.getElem?_eq_getElem bound
    have stands : s.statSlot b.g (f.bits 8 6) = core.slots[f.bits 8 6] := by
      rw [State.statSlot]
      exact congrArg (·.getD .reset) slot
    have clean : ldstatCheck f (b.taking (.ldstat f)) s.atIssue = [] := by
      refine ldstatCheck_passes leading ?_ object source inside
      have holder := free _ slot
      rwa [← stands] at holder
    have issued := (queued_addEntry s.atIssue b (ldstatEntry f (b.taking (.ldstat f)) t x)).trans
      (queued_pushTile _ b.g (.op ⟨b.g.key, b.k, b.sk.nextSeq⟩))
    have added := b.sk.addEntry_tile (e := ldstatEntry f (b.taking (.ldstat f)) t x) rfl rfl
    refine ⟨_, b.sk.addEntry (ldstatEntry f (b.taking (.ldstat f)) t x), _, ldstatOp f (b.taking (.ldstat f)) t x, _,
      ldstat_issues h leading clean room space, State.skein_addEntry (ready_skein h) _, ?_, by rw [added], ?_, rfl, rfl, rfl, rfl, rfl, rfl, ?_,
      State.slot_setStat (y := core.slots[f.bits 8 6]) (by rw [issued.slots]; exact slot) _, rfl, rfl, ?_, issued.mem, issued.clusters⟩
    · rw [added]
    · rw [added]
    · refine (State.queue_setStat ..).trans ((State.tileQueue_pushTile ..).trans ?_)
      rw [State.tileQueue_addEntry]
      rfl
    · by_cases plain : f.bits 9 9 = 1 <;> simp [sealed_, g, n, ldstatArgs, plain]
  · intro core slot holder space
    have stands : s.statSlot b.g (f.bits 8 6) = y := by
      rw [State.statSlot]
      exact congrArg (·.getD .reset) slot
    have clean : statrelCheck f (b.taking (.statrel f)) s.atIssue = [] := if_pos (by
      refine beq_iff_eq.2 (Eq.trans ?_ holder)
      exact congrArg StatSlot.holder stands)
    have short : ¬ 32 < (s.atIssue.tileQueue b.g).length + 1 := Nat.not_lt.2 space
    refine ⟨(s.atIssue.setStat b.g (f.bits 8 6) .reset).pushTile b.g (.release (f.bits 8 6) b.g.key), .reset, ?_, ?_, rfl, ?_, rfl, rfl, rfl⟩
    · rw [exec_statrel, execStatrel, h.issueChecked _ _ clean]
      simp only [Batch.taking_run, List.isEmpty_iff, some_, Batch.taking_g, short, if_false]
      rfl
    · rw [(queued_pushTile ..).slots, State.slot_setStat (s := s.atIssue) slot]
    · refine (State.tileQueue_pushTile ..).trans (congrArg (· ++ _) ?_)
      exact State.queue_setStat ..

end Sys2Proof.Machine
end


section
/-! PROOFS, O39. Copy words: the commands of the fibres whose operands pass enter the record as one entry, and wait for channels in order. -/

namespace Sys2Proof.Machine

open Sys2Proof.Says

/-! ## Command numbers and tags (spec/02 R51, spec/13 R333) -/

/-- u is s but for command numbers and tag sequences given. -/
structure Numbered (s u : State) : Prop where
  gangs : u.gangs = s.gangs
  mem : u.mem = s.mem
  copyWait : ∀ c, (u.cluster c).copyWait = (s.cluster c).copyWait
  scratch : ∀ c, (u.cluster c).scratch = (s.cluster c).scratch

theorem Numbered.refl (s : State) : Numbered s s := ⟨rfl, rfl, fun _ => rfl, fun _ => rfl⟩

theorem Numbered.trans {s t u : State} (a : Numbered s t) (b : Numbered t u) : Numbered s u :=
  ⟨b.gangs.trans a.gangs, b.mem.trans a.mem, fun c => (b.copyWait c).trans (a.copyWait c), fun c => (b.scratch c).trans (a.scratch c)⟩

theorem numbered_takeCsn (s : State) (g : Gang) : Numbered s (s.takeCsn g).2 := by
  have own (c : Nat) : ((s.takeCsn g).2.cluster c).copyWait = (s.cluster c).copyWait ∧
      ((s.takeCsn g).2.cluster c).scratch = (s.cluster c).scratch := by
    by_cases h : c = g.cluster
    · rw [h, State.takeCsn, State.cluster_modCluster_same]
      exact ⟨rfl, rfl⟩
    · rw [State.takeCsn, State.cluster_modCluster_other _ _ _ _ h]
      exact ⟨rfl, rfl⟩
  exact ⟨rfl, rfl, fun c => (own c).1, fun c => (own c).2⟩

theorem numbered_takeTag (s : State) (g : Gang) : Numbered s (s.takeTag g).2 := ⟨rfl, rfl, fun _ => rfl, fun _ => rfl⟩

/-! ## The commands of an issue (spec/10 R280 to R285) -/

/-- The outcome of a fibre whose operands are refused with a fault, or pass. -/
def copyOut (x : Fibre) : Option (FaultCode × W64) → Out
  | none => .next x
  | some q => .fault q.1 q.2

section
variable {ok : Fibre → Option (FaultCode × W64)} {mk : Nat → Fibre → Except (FaultCode × W64) CopyCmd} {P : Nat × Fibre → CopyCmd → Prop}

/-- What an issue's checks make of a fibre: the fault that refuses it, or a command that P holds of. -/
def Commands (ok : Fibre → Option (FaultCode × W64)) (mk : Nat → Fibre → Except (FaultCode × W64) CopyCmd) (P : Nat × Fibre → CopyCmd → Prop)
    (p : Nat × Fibre) : Prop :=
  (∃ q, ok p.2 = some q ∧ mk p.1 p.2 = .error q) ∨ (ok p.2 = none ∧ ∃ c, mk p.1 p.2 = .ok c ∧ P p c)

/-- The fibres that pass, each with its command; keep lists what is made. -/
theorem commands_listed {keep : (Nat × Fibre) × Except (FaultCode × W64) CopyCmd → Option ((Nat × Fibre) × CopyCmd)}
    (made : ∀ p c, keep (p, .ok c) = some (p, c)) (refused : ∀ p q, keep (p, .error q) = none) :
    ∀ {run : List (Nat × Fibre)}, (∀ p ∈ run, Commands ok mk P p) →
      List.Forall₂ (fun p q => q.1 = p ∧ P p q.2) (run.filter fun p => (ok p.2).isNone)
        ((run.map fun p => (p, mk p.1 p.2)).filterMap keep)
  | [], _ => .nil
  | p :: r, h => by
    have rest := commands_listed made refused fun p hp => h p (List.mem_cons_of_mem _ hp)
    rcases h p List.mem_cons_self with ⟨q, bad, error⟩ | ⟨good, c, command, holds⟩
    · rw [List.filter_cons_of_neg (by simp [bad]), List.map_cons, error, List.filterMap_cons_none (refused p q)]
      exact rest
    · rw [List.filter_cons_of_pos (by simp [good]), List.map_cons, command, List.filterMap_cons_some (made p c)]
      exact .cons ⟨rfl, holds⟩ rest

theorem map_fst_of_forall₂ {α β : Type} {Q : α → β → Prop} {ps : List α} {qs : List (α × β)}
    (h : List.Forall₂ (fun p q => q.1 = p ∧ Q p q.2) ps qs) : qs.map (·.1) = ps := by
  induction h with
  | nil => rfl
  | cons same _ ih => rw [List.map_cons, same.1, ih]

theorem forall₂_getElem? {α β : Type} {R : α → β → Prop} {xs : List α} {ys : List β} (h : List.Forall₂ R xs ys) {j : Nat} {x : α} {y : β}
    (hx : xs[j]? = some x) (hy : ys[j]? = some y) : R x y := by
  obtain ⟨left, rfl⟩ := List.getElem?_eq_some_iff.1 hx
  obtain ⟨right, rfl⟩ := List.getElem?_eq_some_iff.1 hy
  exact (List.forall₂_iff_get.1 h).2 j left right

/-- An entry of a copy word, with a command for each fibre that passed. -/
structure Entry.Copies (e : Entry) (kind : Nat) (f : XF) (good : List (Nat × Fibre)) (P : Nat × Fibre → CopyCmd → Prop) : Prop where
  kind : e.kind = kind
  acked : e.acked = true
  scope : e.scope = f.bits 9 7
  acquire : e.acquire = flagAcq (copyFlags f)
  release : e.release = flagRel (copyFlags f)
  copies : List.Forall₂ P good e.copies

/-- Commands wait for channels in a cluster. -/
def State.awaitChannels (s : State) (c : Nat) (rs : List CopyRef) : State := s.modCluster c fun k => { k with copyWait := k.copyWait ++ rs }

/-- A copy word with room whose operands pass in some fibre makes one entry of its commands. -/
theorem issueCopies_enters {s : State} {b : Batch} {kind : Nat} {f : XF} (copy : kindCounter kind = 3) (room : b.sk.c < 15)
    (each : ∀ p ∈ b.run, Commands ok mk P p) (some_ : ∃ p ∈ b.run, ok p.2 = none) :
    let good := b.run.filter fun p => (ok p.2).isNone
    ∃ u e, s.issueCopies b kind f mk = .done (b.each fun _ x => copyOut x (ok x))
        ((u.addEntry b e).awaitChannels b.g.cluster (good.map fun p => .entry ⟨b.g.key, b.k, b.sk.nextSeq⟩ p.1)) ∧
      Numbered s u ∧ e.Copies kind f good P := by
  intro good
  have fits : b.sk.room kind 1 = true := b.sk.room_copy copy room
  unfold State.issueCopies
  split
  · rename_i none_
    obtain ⟨p, hp, -⟩ := some_
    rw [none_] at hp
    cases hp
  · rename_i t0 x0 rest first
    simp only [fits, Bool.not_true, Bool.false_eq_true, if_false]
    generalize listed : List.filterMap _ (b.run.map fun p => (p, mk p.1 p.2)) = cs
    have commands : List.Forall₂ (fun p q => q.1 = p ∧ P p q.2) good cs := listed ▸ commands_listed (fun _ _ => rfl) (fun _ _ => rfl) each
    have fibres : cs.map (·.1) = good := map_fst_of_forall₂ commands
    have some_ : cs.isEmpty = false := by
      obtain ⟨p, hp, passes⟩ := some_
      cases cs with
      | nil =>
        have : p ∈ good := List.mem_filter.2 ⟨hp, by rw [passes]; rfl⟩
        rw [← fibres] at this
        cases this
      | cons q r => rfl
    have outs (out : (Nat × Fibre) × Except (FaultCode × W64) CopyCmd → Nat × Out) (done : ∀ p c, out (p, .ok c) = (p.1, .next p.2))
        (fault : ∀ p q, out (p, .error q) = (p.1, .fault q.1 q.2)) :
        (b.run.map fun p => (p, mk p.1 p.2)).map out = b.each fun _ x => copyOut x (ok x) := by
      rw [List.map_map, Batch.each]
      refine List.map_congr_left fun p hp => ?_
      rcases each p hp with ⟨q, bad, error⟩ | ⟨pass, c, command, -⟩
      · rw [Function.comp_apply, error, fault, bad]; rfl
      · rw [Function.comp_apply, command, done, pass]; rfl
    rw [outs _ (fun _ _ => rfl) (fun _ _ => rfl)]
    simp only [some_, Bool.false_eq_true, if_false]
    have waits : (cs.map fun q => CopyRef.entry ⟨b.g.key, b.k, b.sk.nextSeq⟩ q.1.1) =
        good.map fun p => CopyRef.entry ⟨b.g.key, b.k, b.sk.nextSeq⟩ p.1 := by rw [← fibres, List.map_map]; rfl
    rw [waits]
    have csn : Numbered s (if b.g.kind = .handle then s.takeCsn b.g else (0, s)).2 := by
      split
      · exact numbered_takeCsn s b.g
      · exact .refl s
    generalize (if b.g.kind = .handle then s.takeCsn b.g else (0, s)) = n at csn
    refine ⟨_, _, rfl, ?_, ⟨rfl, rfl, rfl, rfl, rfl, List.forall₂_map_right_iff.2 (commands.imp fun _ _ h => h.2)⟩⟩
    split
    · exact csn.trans (numbered_takeTag _ b.g)
    · exact csn

end

theorem flagAcq_copyFlags (f : XF) : flagAcq (copyFlags f) = true ↔ f.bits 11 11 = 1 := by
  unfold flagAcq copyFlags bitOf XF.bits
  rw [beq_iff_eq]
  omega

theorem flagRel_copyFlags (f : XF) : flagRel (copyFlags f) = true ↔ f.bits 10 10 = 1 := by
  unfold flagRel copyFlags bitOf XF.bits
  rw [beq_iff_eq]
  omega

theorem State.skein_awaitChannels (s : State) (c : Nat) (rs : List CopyRef) (g k : Nat) : (s.awaitChannels c rs).skein g k = s.skein g k := rfl

theorem State.cluster_addEntry (s : State) (b : Batch) (e : Entry) (c : Nat) : (s.addEntry b e).cluster c = s.cluster c := by
  rw [State.cluster, State.addEntry, State.modSkein_clusters, State.cluster]

/-- A command as every copy word captures it. -/
def CopyCmd.Captured (c : CopyCmd) (f : XF) (p : Nat × Fibre) : Prop :=
  c.slot = p.1 ∧ c.uid = p.2.uid ∧ c.stamp = p.2.pair f.c.toNat ∧ c.prog = 0 ∧ c.started = false

/-- A copy word's commands enter where each fibre is refused, or comes to a command as noted. -/
theorem entersCopies_of {i : Instr} {f : XF} {kind : Nat} {ok : State → Batch → Fibre → Option (FaultCode × W64)}
    {notes : State → Batch → Fibre → CopyCmd → Prop} {mk : Batch → State → Nat → Fibre → Except (FaultCode × W64) CopyCmd}
    (runs : ∀ s, exec i s = s.issueWith i fun b s => s.issueCopies b kind f (mk b s)) (copy : kindCounter kind = 3)
    (commands : ∀ s b p, Commands (ok s b) (mk (b.taking i) s.atIssue) (fun p c => c.Captured f p ∧ notes s b p.2 c) p) :
    EntersCopies i f kind ok notes := by
  intro s b ready h some_ room good
  obtain ⟨u, e, issued, numbered, entry⟩ := issueCopies_enters (s := s.atIssue) (b := b.taking i) (f := f) copy room
    (fun p _ => commands s b p) some_
  obtain ⟨isKind, acked, scope, acquire, release, copies⟩ := entry
  have standing : u.skein b.g.key b.k = some b.sk := by
    have same : u.skein b.g.key b.k = s.atIssue.skein b.g.key b.k := by rw [State.skein, State.gang, numbered.gangs]; rfl
    exact same.trans (ready_skein h)
  have added := b.sk.addEntry_copy (e := e) (isKind ▸ copy) acked
  have outs : (b.taking i).each (fun _ x => copyOut x (ok s b x)) =
      b.eachOut i fun _ x => match ok s b x with | none => .next x | some q => .fault q.1 q.2 := by
    refine List.map_congr_left fun p _ => ?_
    cases ok s b p.2 <;> rfl
  have done : exec i s = .next (((u.addEntry b e).awaitChannels b.g.cluster (good.map fun p => .entry ⟨b.g.key, b.k, b.sk.nextSeq⟩ p.1)).finish b ready
      (b.eachOut i fun _ x => match ok s b x with | none => .next x | some q => .fault q.1 q.2)) := by
    rw [runs, h.issueWith, issued, ← outs]
    rfl
  have own : ((u.addEntry b e).awaitChannels b.g.cluster (good.map fun p => .entry ⟨b.g.key, b.k, b.sk.nextSeq⟩ p.1)).cluster b.g.cluster =
      { u.cluster b.g.cluster with copyWait := (u.cluster b.g.cluster).copyWait ++ good.map fun p => .entry ⟨b.g.key, b.k, b.sk.nextSeq⟩ p.1 } := by
    rw [State.awaitChannels, State.cluster_modCluster_same, State.cluster_addEntry]
  refine ⟨_, b.sk.addEntry e, { e with seq := b.sk.nextSeq }, done, (State.skein_awaitChannels ..).trans (State.skein_addEntry standing e),
    ?_, ?_, ?_, ?_, isKind, scope, ?_, ?_, copies.length_eq.symm, ?_, ?_, (State.modSkein_mem ..).trans numbered.mem, ?_⟩
  · rw [added]
  · rw [added]
  · rw [added]
  · rw [added]
  · rw [← flagAcq_copyFlags]
    exact iff_of_eq (congrArg (· = true) acquire)
  · rw [← flagRel_copyFlags]
    exact iff_of_eq (congrArg (· = true) release)
  · intro j p c fibre command
    obtain ⟨⟨slot, uid, stamp, prog, started⟩, noted⟩ := forall₂_getElem? copies fibre command
    exact ⟨slot, uid, stamp, prog, started, noted⟩
  · rw [own]
    exact congrArg (· ++ _) (numbered.copyWait _)
  · rw [own]
    exact numbered.scratch _

/-! ## The words -/

theorem mapM_option {α β : Type} (f : α → Option β) : ∀ xs : List α,
    xs.mapM f = if xs.any (fun x => (f x).isNone) then none else some (xs.filterMap f)
  | [] => rfl
  | x :: r => by
    rw [List.mapM_cons, mapM_option f r]
    cases fx : f x with
    | none => simp [fx]
    | some y =>
      rw [List.any_cons, List.filterMap_cons_some fx, fx, Option.isNone_some, Bool.false_or]
      split <;> rfl

/-- The gangs of a mask's cores, each the first of the span's gangs in the cluster on that core (spec/10 R281). -/
theorem State.maskGangs_eq (s : State) (g : Gang) (mask : Nat) :
    let named (j : Nat) := ((s.spanGangs g).filter fun h => h.cluster == g.cluster).find? fun h => h.core == j
    (if mask = 0 ∨ 65536 ≤ mask then none else s.maskGangs g mask) =
      if mask = 0 ∨ 65536 ≤ mask ∨ ((List.range 16).any fun j => mask.testBit j && (named j).isNone) = true then none
      else some (((List.range 16).filter mask.testBit).filterMap fun j => (named j).map (·.key)) := by
  intro named
  have bits : (fun i => bitOf mask i) = mask.testBit := funext fun i => bitOf_eq_testBit mask i
  have gangs : s.maskGangs g mask = if ((List.range 16).any fun j => mask.testBit j && (named j).isNone) = true then none
      else some (((List.range 16).filter mask.testBit).filterMap fun j => (named j).map (·.key)) := by
    have first : rangeFrom 0 16 = List.range 16 := rfl
    unfold State.maskGangs
    simp only [first, bits, mapM_option, List.any_filter, Option.isNone_map]
    rfl
  by_cases range : mask = 0 ∨ 65536 ≤ mask
  · rw [if_pos range, if_pos (range.imp_right .inl)]
  · rw [if_neg range, gangs]
    exact if_congr (or_assoc.symm.trans (or_iff_right range)).symm rfl rfl

theorem recordAligned_passes {a : W64} (h : a.toNat % 128 = 0) : ¬ (!recordAligned a) = true := by
  rw [recordAligned, h]
  exact Bool.false_ne_true

theorem recordAligned_refuses {a : W64} (h : a.toNat % 128 ≠ 0) : (!recordAligned a) = true := by
  rw [recordAligned, beq_false_of_ne h]
  rfl

/-- Settles O39: each fibre is refused by its word's checks, or makes the command its registers give. -/
theorem copyCommandsEnter : Obligations.CopyCommandsEnter := by
  unfold Obligations.CopyCommandsEnter
  intro aligned n coords named
  refine ⟨fun f => entersCopies_of (exec_copy f) rfl fun s b p => ?_, fun f => entersCopies_of (exec_copym f) rfl fun s b p => ?_,
    fun f => entersCopies_of (exec_copyl f) rfl fun s b p => .inr ⟨rfl, _, rfl, ⟨rfl, rfl, rfl, rfl, rfl⟩, rfl, rfl, rfl⟩,
    fun f => entersCopies_of (exec_cfill f) rfl fun s b p => .inr ⟨rfl, _, rfl, ⟨rfl, rfl, rfl, rfl, rfl⟩, rfl, rfl, rfl⟩⟩
  · by_cases a : (p.2.pair f.a.toNat).toNat % 128 = 0
    · exact .inr ⟨if_neg (not_not.2 a), _, if_neg (recordAligned_passes a), ⟨rfl, rfl, rfl, rfl, rfl⟩, rfl, rfl, rfl, rfl⟩
    · exact .inl ⟨_, if_pos a, if_pos (recordAligned_refuses a)⟩
  · by_cases a : (p.2.pair f.a.toNat).toNat % 128 = 0
    · have passes : aligned f p.2 = none := if_neg (not_not.2 a)
      have gangs := s.maskGangs_eq b.g (p.2.rd (f.bits 20 13 + 1)).toNat
      have same : s.atIssue.maskGangs (b.taking (.copym f)).g = s.maskGangs b.g := rfl
      simp only [Commands, passes, same, gangs, if_neg (recordAligned_passes a)]
      split
      · exact .inl ⟨_, rfl, rfl⟩
      · exact .inr ⟨rfl, _, rfl, ⟨rfl, rfl, rfl, rfl, rfl⟩, rfl, rfl, rfl, List.map_map.trans (List.map_id _)⟩
    · have bad : aligned f p.2 = some (.align, p.2.pair f.a.toNat) := if_pos a
      exact .inl ⟨_, by simp only [bad], if_pos (recordAligned_refuses a)⟩

end Sys2Proof.Machine
end


section
/-! PROOFS, O40. A cluster's event queue, and a handle thread's launch. -/

namespace Sys2Proof.Machine

open Sys2Proof.Says

/-! ## What the order checker writes (spec/15 R387) -/

/-- t is s but for what its partitions have seen. -/
def Observed (s t : State) : Prop := ∃ ps, t = { s with parts := ps }

theorem Observed.refl (s : State) : Observed s s := ⟨s.parts, rfl⟩

theorem Observed.trans {s t u : State} : Observed s t → Observed t u → Observed s u := by
  rintro ⟨ps, rfl⟩ ⟨qs, rfl⟩
  exact ⟨qs, rfl⟩

section
variable {s t : State} (h : Observed s t)
include h

theorem Observed.gangs : t.gangs = s.gangs := by
  obtain ⟨ps, rfl⟩ := h
  rfl

theorem Observed.grids : t.grids = s.grids := by
  obtain ⟨ps, rfl⟩ := h
  rfl

theorem Observed.mem : t.mem = s.mem := by
  obtain ⟨ps, rfl⟩ := h
  rfl

theorem Observed.cluster (c : Nat) : t.cluster c = s.cluster c := by
  obtain ⟨ps, rfl⟩ := h
  rfl

end

theorem observed_modPart (s : State) (p : Nat) (f : Partition → Partition) : Observed s (s.modPart p f) := ⟨_, rfl⟩

theorem observed_ordering (s : State) (g : Gang) (f : Partition → Partition) : Observed s (s.ordering g f) := by
  unfold State.ordering
  dsimp only
  split
  · exact observed_modPart ..
  · exact .refl s

theorem observed_ordOutside (s : State) : Observed s s.ordOutside := by
  unfold State.ordOutside
  suffices ∀ (gs : List Gang) (t : State), Observed t (gs.foldl (fun s g => s.ordering g fun x => x.publish g [(8, 0, 0)]) t) from this _ s
  intro gs
  induction gs with
  | nil => exact .refl
  | cons g r ih => exact fun t => (observed_ordering ..).trans (ih _)

theorem observed_ordLaunch (s : State) (p key : Nat) : Observed s (s.ordLaunch p key) := by
  unfold State.ordLaunch
  dsimp only
  split
  · exact (observed_ordOutside s).trans (observed_modPart ..)
  · exact observed_ordOutside s

/-! ## EVPOST (spec/10 R286, R287) -/

theorem eventSource_eq (b : Batch) (t : Nat) : eventSource b.g b.k t = BitVec.ofNat 32
    (if b.g.kind = .handle then b.g.core % 16 + 16
      else b.g.core % 16 + 2 ^ 5 * (b.g.gangid % 16) + 2 ^ 9 * (b.k % 16) + 2 ^ 13 * (t % 64)) := by
  unfold eventSource
  split
  · rfl
  · refine congrArg _ ?_
    simp only [packFields]
    omega

theorem Cluster.heldOf_none {c : Cluster} {w : Nat} (h : ∀ e ∈ c.held, e.world ≠ w) : c.heldOf w = 0 := by
  rw [Cluster.heldOf, List.length_eq_zero_iff, List.filter_eq_nil_iff]
  exact fun e he same => h e he (beq_iff_eq.1 same)

theorem Cluster.eventRoom_of {c : Cluster} {w n : Nat} (all : c.events.length + n ≤ 4096)
    (own : (c.events.filter fun e => e.world == w).length + n ≤ 1024) : c.eventRoom w n = true := by
  have own : eventsOf w c.events + n ≤ 1024 := own
  rw [Cluster.eventRoom, decide_eq_true all, decide_eq_true own]
  rfl

/-! ## EVPOP (spec/10 R286) -/

/-- What a pop takes, and what stays. -/
theorem takeEvents_eq (w : Nat) : ∀ (n : Nat) (es : List Event),
    (takeEvents w n es).1 = (es.filter fun e => e.world == w).take n ∧
    ((takeEvents w n es).2.filter fun e => e.world == w) = (es.filter fun e => e.world == w).drop n ∧
    ((takeEvents w n es).2.filter fun e => e.world != w) = es.filter fun e => e.world != w
  | 0, es => by simp [takeEvents]
  | _ + 1, [] => ⟨rfl, rfl, rfl⟩
  | n + 1, e :: r => by
    by_cases own : e.world = w
    · obtain ⟨taken, left, others⟩ := takeEvents_eq w n r
      simp [takeEvents, own, taken, left, others]
    · obtain ⟨taken, left, others⟩ := takeEvents_eq w (n + 1) r
      simp [takeEvents, own, taken, left, others]

/-- The four words of an entry, as registers take them. -/
theorem wrGroup_event (x : Fibre) (n : Nat) (e : Event) :
    x.wrGroup n [e.tag, e.source, BitVec.ofNat 32 e.payload.toNat, BitVec.ofNat 32 (e.payload.toNat / 2 ^ 32)] =
      (((x.wr n e.tag).wr (n + 1) e.source).wr (n + 2) (e.payload.setWidth 32)).wr (n + 3) ((e.payload >>> 32).setWidth 32) := by
  have low : BitVec.ofNat 32 e.payload.toNat = e.payload.setWidth 32 := BitVec.eq_of_toNat_eq (by simp)
  have high : BitVec.ofNat 32 (e.payload.toNat / 2 ^ 32) = (e.payload >>> 32).setWidth 32 :=
    BitVec.eq_of_toNat_eq (by simp [Nat.shiftRight_eq_div_pow])
  rw [low, high]
  rfl

/-! ## LAUNCH (spec/10 R288) -/

/-- An accepted launch appends its grid, and changes nothing else that a gang or memory shows. -/
theorem acceptGrid_appends (s : State) (w ctx : Nat) (d : LaunchDesc) (eq : List EqPoint) (hcpc : W64) (csn : Nat) (l : Launcher) :
    ∃ g : Grid, (s.acceptGrid w ctx d eq hcpc csn l).grids = s.grids ++ [g] ∧ g.world = w ∧ g.ctx = ctx ∧ g.desc = d ∧ g.eq = eq ∧
      g.hcpc = hcpc ∧ g.csn = csn ∧ g.placed = [] ∧ g.stepcnt = 0 ∧ g.launcher = l ∧
      (s.acceptGrid w ctx d eq hcpc csn l).gangs = s.gangs ∧ (s.acceptGrid w ctx d eq hcpc csn l).mem = s.mem := by
  unfold State.acceptGrid
  dsimp only
  exact ⟨_, (observed_ordLaunch ..).grids, rfl, rfl, rfl, rfl, rfl, rfl, rfl, rfl, rfl, (observed_ordLaunch ..).gangs, (observed_ordLaunch ..).mem⟩

/-- Settles O40: the posts go behind the queue's entries, the pop takes the world's first ones, and the launch's grid goes behind the grids. -/
theorem eventsAndLaunches : Obligations.EventsAndLaunches := by
  unfold Obligations.EventsAndLaunches
  intro source
  refine ⟨?_, ?_, ?_⟩
  · intro f s b ready h some_ w k xs quiet free all own
    have releasing : (b.taking (.evpost f)).releasing = true := List.all_eq_true.2 quiet
    have free : (s.atIssue.cluster b.g.cluster).heldOf (s.atIssue.worldOf b.g) = 0 := Cluster.heldOf_none free
    have room : (s.atIssue.cluster b.g.cluster).eventRoom (s.atIssue.worldOf b.g) (b.passing (.evpost f)).length = true :=
      Cluster.eventRoom_of all own
    rw [exec_evpost, execEvpost, h.issueWith]
    simp only [State.worldB, Batch.taking_g, Batch.taking_run, List.isEmpty_iff, some_, releasing, free, room, bne_self_eq_false, Bool.not_true,
      Bool.or_self, Bool.false_eq_true, if_false]
    refine ⟨_, rfl, (observed_ordering ..).gangs, (observed_ordering ..).mem, ?_⟩
    rw [(observed_ordering ..).cluster, State.cluster_modCluster_same]
    refine congrArg (k.events ++ ·) (List.map_congr_left fun p _ => ?_)
    exact congrArg (fun v => (⟨w, p.2.rd f.b.toNat, v, p.2.pair f.a.toNat⟩ : Event)) (eventSource_eq b p.1)
  · intro f s b ready h some_ w k xs mine enough
    obtain ⟨taken, left, others⟩ := takeEvents_eq w xs.length k.events
    have short : ¬ eventsOf (s.atIssue.worldOf b.g) (s.atIssue.cluster b.g.cluster).events < (b.passing (.evpop f)).length := Nat.not_lt.2 enough
    have popped : xs.zip (takeEvents w xs.length k.events).1 = xs.zip mine := by
      have whole : min xs.length mine.length = xs.length := min_eq_left enough
      rw [taken, List.zip_eq_zip_take_min (l₁ := xs) (l₂ := mine), whole, List.take_length]
    rw [exec_evpop, execEvpop, h.issueWith]
    simp only [State.worldB, Batch.taking_g, Batch.taking_run, List.isEmpty_iff, some_, short, if_false]
    refine ⟨_, congrArg (fun outs => Host.Outcome.next (State.finish _ b ready outs)) ?_, (observed_ordering ..).gangs, (observed_ordering ..).mem, ?_, ?_⟩
    · rw [← popped]
      exact List.map_congr_left fun q _ => congrArg (fun y => (q.1.1, Out.next y)) (wrGroup_event ..)
    · rw [(observed_ordering ..).cluster, State.cluster_modCluster_same]
      exact left
    · rw [(observed_ordering ..).cluster, State.cluster_modCluster_same]
      exact others
  · intro f s b ready t x d eq s1 h leading w a idle aligned reads room
    have reads : s.atIssue.readLaunch ⟨b.g.ctx, s.atIssue.worldOf b.g, s.atIssue.featvecOf b.g, b.g.cluster, 5⟩ (x.pair f.a.toNat).toNat =
      .ok (d, eq) s1 := reads
    have aligned : (x.pair f.a.toNat).toNat % 256 = 0 := aligned
    have fits : ¬ 256 ≤ (s1.takeCsn b.g).2.queuedGrids (s.atIssue.worldOf b.g) := Nat.not_le.2 room
    obtain ⟨g, grids, world, ctx, desc, eq_, hcpc, csn, placed, stepcnt, launcher, gangs, mem⟩ :=
      acceptGrid_appends ((s1.takeCsn b.g).2.modGang b.g.key fun g => { g with work := ⟨[], none, false⟩ }) (s.atIssue.worldOf b.g) b.g.ctx d eq
        x.pc (s1.takeCsn b.g).1 (.thread b.g.cluster b.g.core)
    refine ⟨_, g, ?_, grids.trans (congrArg (· ++ [g]) (State.modGang_grids ..)), world, ctx, desc, eq_, hcpc, csn, placed, stepcnt, launcher,
      ?_, ?_, mem.trans (State.modGang_mem ..)⟩
    · rw [exec_launch, execLaunch, h.concludes]
      simp only [Batch.taking_run, leading, Batch.taking_g, State.worldB, idle, aligned, reads, fits, ne_eq, not_true, if_false]
      rfl
    · rw [State.gang, gangs]
      refine (State.gang_modGang_same ..).trans ?_
      have same : (s1.takeCsn b.g).2.gang b.g.key = s1.gang b.g.key := rfl
      rw [same]
      cases at_ : s1.gang b.g.key with
      | none => rfl
      | some h => rw [← State.gang_key at_]; rfl
    · intro k other
      rw [State.gang, gangs]
      exact State.gang_modGang_other _ _ _ _ other

end Sys2Proof.Machine
end


section
/-! PROOFS, O46. Steps of the tile array and of the copy engine: what they write to scratch, and how their operations end. -/

namespace Sys2Proof.Machine

open Sys2Proof.Says

/-! ## Pieces of memory written (spec/05 R109) -/

theorem Memory.read_writeBytes : ∀ (bs : List Byte) (m : Memory) (a c : Nat), m.wf = true →
    (m.writeBytes a bs).read c = if a ≤ c ∧ c < a + bs.length then bs.getD (c - a) 0 else m.read c
  | [], m, a, c, _ => (if_neg (by simp only [List.length_nil]; omega)).symm
  | b :: r, m, a, c, wf => by
    rw [Memory.writeBytes, Memory.read_writeBytes r _ (a + 1) c (Memory.wf_write m a b wf), List.length_cons]
    rcases Nat.lt_trichotomy c a with below | rfl | above
    · rw [if_neg (by omega), if_neg (by omega), Memory.read_write_other m a c _ (by omega)]
    · rw [if_neg (by omega), if_pos (by omega), Memory.read_write_same m c _ wf, Nat.sub_self, List.getD_cons_zero]
    · have next : c - a = c - (a + 1) + 1 := by omega
      rw [Memory.read_write_other m a c _ (by omega), next, List.getD_cons_succ]
      exact if_congr (by omega) rfl rfl

/-- Memory with pieces written, each an address and its bytes. -/
def Memory.writeAll (m : Memory) (ws : List (Nat × List Byte)) : Memory := ws.foldl (fun m p => m.writeBytes p.1 p.2) m

/-- The address lies in a piece. -/
def pieceHas (p : Nat × List Byte) (a : Nat) : Prop := p.1 ≤ a ∧ a < p.1 + p.2.length

theorem Memory.read_writeAll_other : ∀ (ws : List (Nat × List Byte)) (m : Memory) {a : Nat}, (∀ p ∈ ws, ¬ pieceHas p a) →
    (m.writeAll ws).read a = m.read a
  | [], _, _, _ => rfl
  | p :: r, m, a, outside => by
    have first : a < p.1 ∨ p.1 + p.2.length ≤ a := by
      have := outside p List.mem_cons_self
      unfold pieceHas at this
      omega
    exact (Memory.read_writeAll_other r _ fun q hq => outside q (List.mem_cons_of_mem _ hq)).trans (Memory.read_writeBytes_other _ m _ _ first)

/-- Zeros written read zero. -/
theorem Memory.read_writeAll_zeros : ∀ (ws : List (Nat × List Byte)) (m : Memory) {a : Nat}, m.wf = true → (∀ p ∈ ws, ∀ b ∈ p.2, b = 0) →
    (∃ p ∈ ws, pieceHas p a) → (m.writeAll ws).read a = 0
  | [], _, _, _, _, inside => absurd inside (by simp)
  | p :: r, m, a, wf, zeros, inside => by
    have rest : ∀ q ∈ r, ∀ b ∈ q.2, b = 0 := fun q hq => zeros q (List.mem_cons_of_mem _ hq)
    by_cases later : ∃ q ∈ r, pieceHas q a
    · exact Memory.read_writeAll_zeros r _ (Memory.wf_writeBytes p.2 m p.1 wf) rest later
    · have first : pieceHas p a := by
        obtain ⟨q, hq, has⟩ := inside
        rcases List.mem_cons.1 hq with rfl | hq
        · exact has
        · exact absurd ⟨q, hq, has⟩ later
      have zero : p.2.getD (a - p.1) 0 = 0 := by
        rw [List.getD_eq_getElem?_getD]
        cases at_ : p.2[a - p.1]? with
        | none => rfl
        | some b => exact zeros p List.mem_cons_self b (List.mem_of_getElem? at_)
      have kept := Memory.read_writeAll_other r (m.writeBytes p.1 p.2) (a := a) fun q hq has => later ⟨q, hq, has⟩
      exact kept.trans ((Memory.read_writeBytes p.2 m p.1 a wf).trans ((if_pos first).trans zero))

/-! ## Scratch written by the engines (spec/05 R111) -/

/-- t is s but for clusters. -/
def Reclustered (s t : State) : Prop := ∃ cs, t = { s with clusters := cs }

theorem Reclustered.refl (s : State) : Reclustered s s := ⟨s.clusters, rfl⟩

theorem Reclustered.trans {s t u : State} : Reclustered s t → Reclustered t u → Reclustered s u := by
  rintro ⟨cs, rfl⟩ ⟨ds, rfl⟩
  exact ⟨ds, rfl⟩

theorem reclustered_modCluster (s : State) (c : Nat) (f : Cluster → Cluster) : Reclustered s (s.modCluster c f) := ⟨_, rfl⟩

section
variable {s t : State} (h : Reclustered s t)
include h

theorem Reclustered.gangs : t.gangs = s.gangs := by
  obtain ⟨cs, rfl⟩ := h
  rfl

theorem Reclustered.mem : t.mem = s.mem := by
  obtain ⟨cs, rfl⟩ := h
  rfl

theorem Reclustered.core (c : Nat) : t.core c = s.core c := by
  obtain ⟨cs, rfl⟩ := h
  rfl

end

/-- Pieces written to a cluster's scratch, in order; nothing outside clusters changes. -/
theorem writeScratchAll_writes (c : Nat) : ∀ (ws : List (Nat × List Byte)) (s : State), Reclustered s (s.writeScratchAll c ws) ∧
    ((s.writeScratchAll c ws).cluster c).scratch = (s.cluster c).scratch.writeAll ws
  | [], s => ⟨.refl s, rfl⟩
  | p :: r, s => by
    obtain ⟨rest, scratch⟩ := writeScratchAll_writes c r (s.writeScratch c p.1 p.2)
    have first : s.writeScratch c p.1 p.2 = s.modCluster c fun x =>
        { x with scratch := x.scratch.writeBytes p.1 p.2, scratchPoison := x.scratchPoison.filter fun a => !(p.1 ≤ a && a < p.1 + p.2.length) } := rfl
    rw [first] at rest scratch
    refine ⟨(reclustered_modCluster ..).trans rest, scratch.trans ?_⟩
    rw [State.cluster_modCluster_same]
    rfl

theorem Recorded.cluster {s t : State} (h : Recorded s t) (c : Nat) : t.cluster c = s.cluster c := by
  rw [State.cluster, h.clusters, State.cluster]

theorem Recorded.core {s t : State} (h : Recorded s t) (c : Nat) : t.core c = s.core c := by
  obtain ⟨_, _, rfl⟩ := h
  rfl

theorem Recorded.modCore {s t : State} (h : Recorded s t) (c : Nat) (f : Core → Core) : Recorded (s.modCore c f) (t.modCore c f) := by
  obtain ⟨gs, fs, rfl⟩ := h
  exact ⟨gs, fs, rfl⟩

theorem Recorded.modCluster {s t : State} (h : Recorded s t) (c : Nat) (f : Cluster → Cluster) :
    Recorded (s.modCluster c f) (t.modCluster c f) := by
  obtain ⟨gs, fs, rfl⟩ := h
  exact ⟨gs, fs, rfl⟩

theorem State.queue_popTile (s : State) (core : Nat) : ((s.popTile core).core core).queue = (s.core core).queue.drop 1 :=
  congrArg Core.queue (State.core_modCore_same ..)

/-! ## The entry of a name while its skein changes (spec/03 R64) -/

section
variable {s t : State} {id : EntryId} {g : Gang} {sk : Skein} {e : Entry}

theorem Named.of_gangs (h : Named s id g sk e) (gangs : t.gangs = s.gangs) : Named t id g sk e := by
  obtain ⟨gang, rest⟩ := h
  exact ⟨by rw [State.gang, gangs]; exact gang, rest⟩

/-- A name stands for its entry as changed, in the same gang but for its skeins. -/
theorem Named.modEntry (h : Named s id g sk e) {f : Entry → Entry} (number : ∀ e, (f e).seq = e.seq) : ∃ g' : Gang,
    Named (s.modSkein id.gang id.skein fun y => y.modEntry id.seq f) id g' (sk.modEntry id.seq f) (f e) ∧ g'.ended = g.ended := by
  have entry := Named.entry h
  obtain ⟨gang, free, skein, -⟩ := h
  refine ⟨{ g.modSkein id.skein (fun y => y.modEntry id.seq f) with key := id.gang }, ⟨?_, free, ?_, Skein.entry_changed entry number⟩, rfl⟩
  · rw [State.modSkein, State.gang_modGang_same, gang]
    rfl
  · exact (modifyAt_getElem? ..).trans (by rw [if_pos rfl, skein]; rfl)

/-- The entry of a name is closed: of all else, gangs and port writes change. -/
theorem Named.closes (h : Named s id g sk e) (ended : g.ended = false) :
    Recorded s (s.closeId id) ∧ (s.closeId id).skein id.gang id.skein = some (sk.close id.seq) :=
  ⟨recorded_closeId (Named.open h ended), by rw [State.skein_closeId, Named.skein h]; rfl⟩

end

theorem Skein.lower_tile (sk : Skein) {kind : Nat} (tile : kindCounter kind = 4) : sk.lower kind = { sk with t := sk.t - 1 } := by
  simp only [Skein.lower, tile]

theorem Skein.lower_copy (sk : Skein) {kind : Nat} (copy : kindCounter kind = 3) : sk.lower kind = { sk with c := sk.c - 1 } := by
  simp only [Skein.lower, copy]

/-- Closing a finished and acknowledged entry lowers its counter and removes it. -/
theorem Skein.close_lowers {sk : Skein} {seq : Nat} {e : Entry} (entry : sk.entry seq = some e) (finished : e.finished = true)
    (acked : e.acked = true) (counted : e.portacc = false) :
    (sk.close seq).t = (sk.lower e.kind).t ∧ (sk.close seq).c = (sk.lower e.kind).c ∧ ∀ q ∈ (sk.close seq).record, q.seq ≠ seq := by
  rw [Skein.close_finished entry finished acked]
  refine ⟨?_, ?_, sk.dropEntry_gone seq⟩
  · rw [Skein.dropEntry_acked entry acked, counted]
    rfl
  · rw [Skein.dropEntry_acked entry acked, counted]
    rfl

/-- What an event leads to is a skein of the state it makes, whose fibres may try again. -/
theorem State.skein_untried {t : State} {gk k : Nat} {y : Skein} (h : t.skein gk k = some y) :
    t.clearTried.skein gk k = some (y.mapFibres fun _ => untried) := by
  rw [State.skein_clearTried, h, Option.map_some]

/-! ## The tile array (spec/10 R265 to R276) -/

theorem tileReady_of {sk : Skein} {e : Entry}
    (quiet : ∀ q ∈ sk.record, q.seq < e.seq → storeLike q.kind = true → ∀ o ∈ q.ops, o.stage ≠ .sent ∨ ∀ p ∈ o.parts, ∀ k, p.home ≠ .scratch k) :
    tileReady sk e = true := by
  refine List.all_eq_true.2 fun q hq => ?_
  by_cases later : e.seq ≤ q.seq
  · simp [later]
  · cases store : storeLike q.kind with
    | false => simp
    | true =>
      simp only [later, decide_false, Bool.not_true, Bool.false_or, List.all_eq_true, Bool.or_eq_true]
      intro o ho
      refine (quiet q hq (Nat.lt_of_not_le later) store o ho).imp (fun sent => by simpa [SlotOp.performed] using sent) fun elsewhere p hp => ?_
      split
      · rename_i k home
        exact absurd home (elsewhere p hp k)
      · rfl

theorem elemBytes_pos (w : Nat) (iv : Bool) : 0 < elemBytes w iv := by
  unfold elemBytes
  split <;> split <;> decide

theorem elemAt_panel (acc m r panel e : Nat) {j : Nat} (h : j < 16) :
    elemAt acc m r (16 * panel + j) e = acc + (panel * (8 * 2 ^ m) + r) * 16 * e + j * e := by
  have quotient : (16 * panel + j) / 16 = panel := by omega
  have rest : (16 * panel + j) % 16 = j := by omega
  rw [elemAt, quotient, rest, tileRows]
  ring

/-- Consecutive elements cover their range. -/
theorem elements_cover {base e n a : Nat} (pos : 0 < e) :
    (∃ j, j < n ∧ base + j * e ≤ a ∧ a < base + j * e + e) ↔ base ≤ a ∧ a < base + n * e := by
  constructor
  · rintro ⟨j, small, low, high⟩
    have : (j + 1) * e ≤ n * e := Nat.mul_le_mul_right e small
    rw [Nat.add_one_mul] at this
    omega
  · rintro ⟨low, high⟩
    have split_ := Nat.div_add_mod' (a - base) e
    have rest := Nat.mod_lt (a - base) pos
    exact ⟨(a - base) / e, (Nat.div_lt_iff_lt_mul pos).2 (by omega), by omega, by omega⟩

/-- TZERO's pieces are zeros, and lie in the panel's rows. -/
theorem zeroUnit_rows (t : TileOp) (panel : Nat) : ∃ ws, zeroUnit t panel = .writes ws ∧ (∀ p ∈ ws, ∀ b ∈ p.2, b = 0) ∧
    ∀ a, (∃ p ∈ ws, pieceHas p a) ↔ ∃ r ∈ t.rows, let row := t.acc + (panel * (8 * 2 ^ t.m) + r.1) * 16 * elemBytes t.fmt t.iv
      row ≤ a ∧ a < row + 16 * elemBytes t.fmt t.iv := by
  refine ⟨_, rfl, fun p hp b hb => ?_, fun a => ?_⟩
  · obtain ⟨r, -, hp⟩ := List.mem_flatMap.1 hp
    obtain ⟨c, -, rfl⟩ := List.mem_map.1 hp
    exact List.eq_of_mem_replicate hb
  · simp only [← elements_cover (elemBytes_pos t.fmt t.iv)]
    constructor
    · rintro ⟨p, hp, has⟩
      obtain ⟨r, hr, hp⟩ := List.mem_flatMap.1 hp
      obtain ⟨c, hc, rfl⟩ := List.mem_map.1 hp
      rw [mem_rangeFrom] at hc
      obtain ⟨j, rfl⟩ := Nat.exists_eq_add_of_le hc.1
      have small : j < 16 := by omega
      rw [pieceHas, elemAt_panel _ _ _ _ _ small, List.length_replicate] at has
      exact ⟨r, hr, j, small, has⟩
    · rintro ⟨r, hr, j, small, has⟩
      refine ⟨_, List.mem_flatMap.2 ⟨r, hr, List.mem_map.2 ⟨16 * panel + j, mem_rangeFrom.2 (by omega), rfl⟩⟩, ?_⟩
      rw [pieceHas, elemAt_panel _ _ _ _ _ small, List.length_replicate]
      exact has

section
variable {s : State} {id : EntryId} {g : Gang} {sk : Skein} {e : Entry}

/-- TZERO's pieces clear the panel's rows, and nothing else (spec/10 R274). -/
theorem zeroUnit_clears (t : TileOp) (panel : Nat) {m : Memory} (wf : m.wf = true) :
    let row (r : Nat) : Nat := t.acc + (panel * (8 * 2 ^ t.m) + r) * 16 * elemBytes t.fmt t.iv
    ∃ ws, zeroUnit t panel = .writes ws ∧
      ∀ a, ((∃ r ∈ t.rows, row r.1 ≤ a ∧ a < row r.1 + 16 * elemBytes t.fmt t.iv) → (m.writeAll ws).read a = 0) ∧
        ((∀ r ∈ t.rows, a < row r.1 ∨ row r.1 + 16 * elemBytes t.fmt t.iv ≤ a) → (m.writeAll ws).read a = m.read a) := by
  intro row
  obtain ⟨ws, unit, zeros, has⟩ := zeroUnit_rows t panel
  refine ⟨ws, unit, fun a => ⟨fun inside => Memory.read_writeAll_zeros ws m wf zeros ((has a).2 inside), fun outside => ?_⟩⟩
  refine Memory.read_writeAll_other ws m fun p hp inside => ?_
  obtain ⟨r, hr, low, high⟩ := (has a).1 ⟨p, hp, inside⟩
  exact (outside r hr).elim (Nat.not_lt.2 low) (Nat.not_le.2 high)

/-- An entry with one panel more done. -/
def Entry.advanced (e : Entry) : Entry := { e with prog := e.prog + 1 }

/-- A tile operation's entry once it is over: its parts are done, but for those that failed. -/
def Entry.over (e : Entry) : Entry := { e with ops := e.ops.map fun o => { o with stage := if o.complete then o.stage else .done } }

theorem SlotOp.stage_of_complete {o : SlotOp} (h : o.complete = true) : o.stage = .done ∨ ∃ f, o.stage = .failed f := by
  unfold SlotOp.complete at h
  split at h
  · exact .inl ‹_›
  · exact .inr ⟨_, ‹_›⟩
  · cases h

theorem Entry.finished_over (h : ∀ o ∈ e.ops, ∀ f, o.stage ≠ .failed f) : e.over.finished = true := by
  refine List.all_eq_true.2 fun o ho => ?_
  obtain ⟨q, hq, rfl⟩ := List.mem_map.1 ho
  rw [beq_iff_eq]
  dsimp only
  split
  · rename_i complete
    exact (SlotOp.stage_of_complete complete).resolve_right fun ⟨f, failed⟩ => h q hq f failed
  · rfl

/-- An operation over: the queue moves on, and an entry with nothing failed goes, its counter lowered. -/
theorem Named.endTile (h : Named s id g sk e) (ended : g.ended = false) (tile : kindCounter e.kind = 4) (core : Nat) :
    Recorded (s.popTile core) (s.endTile core id) ∧ ∃ y, (s.endTile core id).skein id.gang id.skein = some y ∧
    (e.acked = true → e.portacc = false → (∀ o ∈ e.ops, ∀ f, o.stage ≠ .failed f) →
      y.t = sk.t - 1 ∧ ∀ q ∈ y.record, q.seq ≠ id.seq) := by
  obtain ⟨g', named, open_⟩ := Named.modEntry h (f := Entry.over) fun _ => rfl
  have named : Named ((s.modSkein id.gang id.skein fun y => y.modEntry id.seq Entry.over).popTile core) id g' (sk.modEntry id.seq Entry.over)
      e.over := Named.of_gangs named rfl
  obtain ⟨recorded, skein⟩ := Named.closes named (open_.trans ended)
  refine ⟨?_, _, skein, fun acked counted sound => ?_⟩
  · exact ((recorded_modSkein ..).modCore ..).trans recorded
  · obtain ⟨t, -, gone⟩ := Skein.close_lowers (Named.entry named) (Entry.finished_over sound) acked counted
    refine ⟨t.trans ?_, gone⟩
    rw [Skein.lower_tile (kind := e.over.kind) _ tile]
    rfl

/-- An element of the queue that is ready and fuses with none starts. -/
theorem Named.startTile_op (h : Named s id g sk e) {core : Nat} (head : (s.core core).queue.head? = some (.op id)) {t : TileOp}
    (tile : e.tile = some t) (fresh : t.started = false) (single : t.fuse = false) (ready : tileReady sk e = true) :
    s.startTile core = s.modTile id fun t => { t with started := true } := by
  have alone : fuseKey t = none := by rw [fuseKey, single]; rfl
  unfold State.startTile
  simp only [State.tileHead, head, Named.located h, tile, fresh, ready, alone]
  rfl

/-- A release leaves the queue, and its slot's bytes go. -/
theorem State.startTile_release {s : State} {core n k : Nat} (head : (s.core core).queue.head? = some (.release n k)) :
    s.startTile core = (s.popTile core).modCore core fun c => c.dropFill n k := by
  unfold State.startTile
  simp only [State.tileHead, head]

theorem tilePanelUnit_of {c : CoreId} {u : State} (h : s.tileUnit (tileCore c) = u) : exec (.tilePanelUnit c) s = .next u.clearTried := by
  rw [exec_tilePanelUnit, execTilePanelUnit, h]

theorem ldstatFillDone_of {c : CoreId} {u : State} (h : s.fillSlot (tileCore c) = u) : exec (.ldstatFillDone c) s = .next u.clearTried := by
  rw [exec_ldstatFillDone, execLdstatFillDone, h]

/-- The unit of a started TZERO: its panel's pieces, one more panel done, and the end after the last. -/
theorem Named.tileUnit_zero (h : Named s id g sk e) {core : Nat} (head : (s.core core).queue.head? = some (.op id)) (kind : e.kind = 0x1A)
    {t : TileOp} (tile : e.tile = some t) (started : t.started = true) {ws : List (Nat × List Byte)} (unit : zeroUnit t e.prog = .writes ws) :
    s.tileUnit core =
      let s1 := (s.writeScratchAll g.cluster ws).modSkein id.gang id.skein fun sk => sk.modEntry id.seq Entry.advanced
      if e.prog + 1 < t.n16 then s1 else s1.endTile core id := by
  unfold State.tileUnit
  simp only [State.tileHead, head, Named.located h, tile, started, kind, unit]
  rfl

/-- A TZERO's panel done: its rows cleared in scratch, and of all else the entry and its fibres' gang alone changed. -/
theorem Named.tileUnit_clears (h : Named s id g sk e) {core : Nat} (head : (s.core core).queue.head? = some (.op id)) (kind : e.kind = 0x1A)
    {t : TileOp} (tile : e.tile = some t) (started : t.started = true) (wf : (s.cluster g.cluster).scratch.wf = true) :
    let row (r : Nat) : Nat := t.acc + (e.prog * (8 * 2 ^ t.m) + r) * 16 * elemBytes t.fmt t.iv
    ∃ (v : State) (g' : Gang), s.tileUnit core = (if e.prog + 1 < t.n16 then v else v.endTile core id) ∧
      Named v id g' (sk.modEntry id.seq Entry.advanced) e.advanced ∧ g'.ended = g.ended ∧ v.mem = s.mem ∧ v.core core = s.core core ∧
      ∀ a, ((∃ r ∈ t.rows, row r.1 ≤ a ∧ a < row r.1 + 16 * elemBytes t.fmt t.iv) → (v.cluster g.cluster).scratch.read a = 0) ∧
        ((∀ r ∈ t.rows, a < row r.1 ∨ row r.1 + 16 * elemBytes t.fmt t.iv ≤ a) →
          (v.cluster g.cluster).scratch.read a = (s.cluster g.cluster).scratch.read a) := by
  intro row
  obtain ⟨ws, unit, clears⟩ := zeroUnit_clears t e.prog wf
  obtain ⟨landed, scratch⟩ := writeScratchAll_writes g.cluster ws s
  obtain ⟨g', named, open_⟩ := Named.modEntry (Named.of_gangs h landed.gangs) (f := Entry.advanced) fun _ => rfl
  have recorded := recorded_modSkein (s.writeScratchAll g.cluster ws) id.gang id.skein fun y => y.modEntry id.seq Entry.advanced
  rw [← scratch, ← recorded.cluster] at clears
  exact ⟨_, g', Named.tileUnit_zero h head kind tile started unit, named, open_, recorded.mem.trans landed.mem,
    (recorded.core core).trans (landed.core core), clears⟩

/-- The fill of a started LDSTAT of plain bytes that scratch reads. -/
theorem Named.fillSlot_plain (h : Named s id g sk e) {core : Nat} (head : (s.core core).queue.head? = some (.op id)) (kind : e.kind = 0x19)
    {t : TileOp} (tile : e.tile = some t) (started : t.started = true) (plain : t.iv = false) {bs : List Byte}
    (reads : s.readScratch g.cluster t.p0 t.p2 = some bs) :
    s.fillSlot core = (s.modCore core fun c => c.putFill ⟨t.slot, g.key, some bs, none, false⟩).endTile core id := by
  unfold State.fillSlot
  simp only [State.tileHead, head, Named.located h, tile, started, kind, plain, reads, Bool.not_true, bne_self_eq_false, Bool.or_self,
    Bool.false_eq_true, if_false, Bool.not_false, if_true]

end

/-- A core whose slot is filled by the element at the head of its queue. -/
theorem State.core_popTile_putFill (s : State) (core : Nat) (f : SlotFill) : ((s.modCore core fun c => c.putFill f).popTile core).core core =
    { s.core core with
      queue := (s.core core).queue.drop 1
      fills := f :: (s.core core).fills.filter fun y => !(y.slot == f.slot && y.gang == f.gang) } := by
  rw [State.popTile, State.core_modCore_same, State.core_modCore_same]
  rfl

/-! ## Commands on channels (spec/10 R280 to R285) -/

/-- A command of an entry changed. -/
def Entry.withCopy (e : Entry) (slot : Nat) (f : CopyCmd → CopyCmd) : Entry :=
  { e with copies := e.copies.map fun c => if c.slot = slot then f c else c }

theorem Entry.copy_withCopy {e : Entry} {slot : Nat} {c : CopyCmd} (command : e.copy slot = some c) {f : CopyCmd → CopyCmd}
    (number : ∀ c, (f c).slot = c.slot) : (e.withCopy slot f).copy slot = some (f c) := by
  have blind : ((fun c : CopyCmd => c.slot == slot) ∘ fun c => if c.slot = slot then f c else c) = fun c => c.slot == slot := by
    funext c
    simp only [Function.comp_apply]
    split
    · rw [number]
    · rfl
  have numbered := List.find?_some command
  rw [Entry.copy] at command
  rw [Entry.copy, Entry.withCopy, List.find?_map, blind, command]
  exact congrArg some (if_pos (beq_iff_eq.1 numbered))

section
variable {s : State} {id : EntryId} {g : Gang} {sk : Skein} {e : Entry} {slot : Nat} {c : CopyCmd}

/-- A name's command changed. -/
theorem Named.modCopy (h : Named s id g sk e) (slot : Nat) (f : CopyCmd → CopyCmd) : ∃ g' : Gang,
    Named (s.modCopy id slot f) id g' (sk.modEntry id.seq fun e => e.withCopy slot f) (e.withCopy slot f) ∧ g'.ended = g.ended :=
  Named.modEntry h fun _ => rfl

theorem copyCommandStart_of {cl : Nat} {u : State} (h : s.startCopy cl = u) : exec (.copyCommandStart cl) s = .next u.clearTried := by
  rw [exec_copyCommandStart, execCopyCommandStart, h]

/-- A command that needs neither a record nor receivers, on a channel. -/
def CopyCmd.begun (c : CopyCmd) : CopyCmd := { c with started := true, record := [], receivers := [] }

/-- A command with one burst more done. -/
def CopyCmd.advanced (c : CopyCmd) : CopyCmd := { c with prog := c.prog + 1, burst := [], landed := [] }

/-- A CFILL without an acquire waits for nothing, and starts with neither a record nor receivers. -/
theorem Named.startCopy_fill (h : Named s id g sk e) {cl n : Nat} {r : List CopyRef} (free : (s.cluster cl).freeChannel = some n)
    (waiting : (s.cluster cl).copyWait = .entry id slot :: r) (command : e.copy slot = some c) (kind : e.kind = 0x13) (idle : e.acquire = false) :
    s.startCopy cl = (s.modCopy id slot CopyCmd.begun).modCluster cl fun k =>
      { k with channels := tset k.channels n (.entry id slot), copyWait := k.copyWait.filter fun r => r != .entry id slot } := by
  have reads : readsScratch e = false := by rw [readsScratch, kind]; rfl
  have ready : copyReady sk e c = true := by rw [copyReady, idle, reads]; rfl
  have first : s.startable [] (s.cluster cl).copyWait = some (.entry id slot) := by
    rw [waiting, State.startable]
    simp only [Named.located h, command, ready, List.any_nil, Option.any_some, Bool.not_false, Bool.and_self, if_true]
  unfold State.startCopy
  simp only [free, first, Named.located h, command]
  unfold State.beginCopy
  simp only [kind]
  rfl

/-- The bytes of a CFILL's next burst: its pattern from where it stands on. -/
def CopyCmd.fillBytes (c : CopyCmd) : List Byte :=
  (rangeFrom (256 * c.prog) (min 256 (c.n - 256 * c.prog))).map fun j => BitVec.ofNat 8 (c.pattern.toNat / 256 ^ (j % 4))

theorem CopyCmd.length_fillBytes (c : CopyCmd) : c.fillBytes.length = min 256 (c.n - 256 * c.prog) := by
  rw [CopyCmd.fillBytes, List.length_map, rangeFrom_eq_range', List.length_range']

theorem CopyCmd.getD_fillBytes (c : CopyCmd) {j : Nat} (h : j < min 256 (c.n - 256 * c.prog)) :
    c.fillBytes.getD j 0 = BitVec.ofNat 8 (c.pattern.toNat / 256 ^ (j % 4)) := by
  have phase : (256 * c.prog + j) % 4 = j % 4 := by omega
  rw [CopyCmd.fillBytes, List.getD_eq_getElem?_getD, List.getElem?_map, rangeFrom_eq_range', List.getElem?_range' h, Nat.one_mul, Option.map_some,
    phase]
  rfl

/-- The burst's range in the destination. -/
def CopyCmd.landing (c : CopyCmd) : Nat := (c.b.toNat + 256 * c.prog) % 2 ^ 64

/-- A CFILL's burst to scratch of the world writes its pattern. -/
theorem burst_fill {v : Access} {flags : Nat} (toScratch : flagDst flags = true)
    (inside : s.engineScratch v.cluster v.world c.landing (min 256 (c.n - 256 * c.prog)) = none) :
    s.burst v 0x13 flags c = .ok none (s.writeScratchAll v.cluster [(c.landing, c.fillBytes)]) := by
  rw [← CopyCmd.length_fillBytes] at inside
  have lands : s.landPieces v.cluster v.world [(c.landing, c.fillBytes)] = .ok (s.writeScratchAll v.cluster [(c.landing, c.fillBytes)]) := by
    simp only [State.landPieces, List.findSome?_cons, inside, List.findSome?_nil]
  have fill : s.burst v 0x13 flags c = s.spaceWrites v (flagDst flags) [(c.landing, c.fillBytes)] := rfl
  rw [fill, toScratch, State.spaceWrites, lands]
  rfl

/-- A CFILL to scratch touches no global memory: neither the checker nor an acknowledgement sees its burst. -/
theorem ackBurst_fill (kind : e.kind = 0x13) (toScratch : flagDst e.aux = true) : s.ackBurst id g e c = s := by
  simp only [State.ackBurst, State.burstTouches, kind, toScratch]
  rfl

theorem ordBurst_unchecked (quiet : s.checking (s.partOfCluster g.cluster) = false) : s.ordBurst g e c = s := by
  simp only [State.ordBurst, quiet, Bool.false_eq_true, if_false]

theorem cmdBursts_fill (c : CopyCmd) : cmdBursts 0x13 c = (c.n + 255) / 256 := rfl

/-- A burst of a CFILL to scratch of the world, the checker off: its bytes, one more burst done, and what is to do after the last. -/
theorem Named.copyStep_fill (h : Named s id g sk e) {cl ch : Nat} (command : e.copy slot = some c) (kind : e.kind = 0x13)
    (toScratch : flagDst e.aux = true) (quiet : s.checking (s.partOfCluster g.cluster) = false) (room : e.acked = true → sk.ackc < 1023)
    (left : 256 * c.prog < c.n)
    (inside : s.engineScratch g.cluster (s.worldOf g) c.landing (min 256 (c.n - 256 * c.prog)) = none) :
    s.copyStep id slot cl ch =
      ((s.writeScratchAll g.cluster [(c.landing, c.fillBytes)]).modCopy id slot CopyCmd.advanced).finishCopy id slot cl ch := by
  have more : c.prog < cmdBursts e.kind c := by
    rw [kind, cmdBursts_fill]
    omega
  have counted : (e.acked && 1023 ≤ sk.ackc) = false := by
    cases acked : e.acked with
    | false => rfl
    | true => exact decide_eq_false (Nat.not_le.2 (room acked))
  obtain ⟨landed, -⟩ := writeScratchAll_writes g.cluster [(c.landing, c.fillBytes)] s
  have quiet : (s.writeScratchAll g.cluster [(c.landing, c.fillBytes)]).checking
      ((s.writeScratchAll g.cluster [(c.landing, c.fillBytes)]).partOfCluster g.cluster) = false := by
    obtain ⟨cs, same⟩ := landed
    rw [same]
    exact quiet
  have burst : s.burst (s.copyAccess g e) e.kind e.aux c = .ok none (s.writeScratchAll g.cluster [(c.landing, c.fillBytes)]) := by
    rw [kind]
    exact burst_fill toScratch inside
  unfold State.copyStep
  simp only [Named.located h, command, more, counted, burst, ordBurst_unchecked quiet, ackBurst_fill kind toScratch]
  rfl

/-- The burst landed: the pattern in scratch, and of all else the entry's command and its gang alone changed. -/
theorem Named.copyStep_lands (h : Named s id g sk e) {cl ch : Nat} (command : e.copy slot = some c) (kind : e.kind = 0x13)
    (toScratch : flagDst e.aux = true) (quiet : s.checking (s.partOfCluster g.cluster) = false) (room : e.acked = true → sk.ackc < 1023)
    (left : 256 * c.prog < c.n) (wf : (s.cluster g.cluster).scratch.wf = true)
    (inside : s.engineScratch g.cluster (s.worldOf g) c.landing (min 256 (c.n - 256 * c.prog)) = none) :
    ∃ (v : State) (g' : Gang), s.copyStep id slot cl ch = v.finishCopy id slot cl ch ∧
      Named v id g' (sk.modEntry id.seq fun e => e.withCopy slot CopyCmd.advanced) (e.withCopy slot CopyCmd.advanced) ∧ g'.ended = g.ended ∧
      v.mem = s.mem ∧ ∀ a, (v.cluster g.cluster).scratch.read a =
        if c.landing ≤ a ∧ a < c.landing + min 256 (c.n - 256 * c.prog) then BitVec.ofNat 8 (c.pattern.toNat / 256 ^ ((a - c.landing) % 4))
        else (s.cluster g.cluster).scratch.read a := by
  obtain ⟨landed, scratch⟩ := writeScratchAll_writes g.cluster [(c.landing, c.fillBytes)] s
  obtain ⟨g', named, open_⟩ := Named.modCopy (Named.of_gangs h landed.gangs) slot CopyCmd.advanced
  have recorded : Recorded (s.writeScratchAll g.cluster [(c.landing, c.fillBytes)])
    ((s.writeScratchAll g.cluster [(c.landing, c.fillBytes)]).modCopy id slot CopyCmd.advanced) := recorded_modSkein ..
  refine ⟨_, g', Named.copyStep_fill h command kind toScratch quiet room left inside, named, open_, recorded.mem.trans landed.mem, fun a => ?_⟩
  rw [recorded.cluster, scratch]
  refine (Memory.read_writeBytes _ _ _ _ wf).trans ?_
  rw [CopyCmd.length_fillBytes]
  exact ite_congr rfl (fun within => c.getD_fillBytes (Nat.sub_lt_left_of_lt_add within.1 within.2)) fun _ => rfl

/-- A command without a stamp ends once its bursts are done. -/
theorem Named.finishCopy_unstamped (h : Named s id g sk e) {cl ch : Nat} (command : e.copy slot = some c) (plain : flagStamp e.aux = false) :
    s.finishCopy id slot cl ch = if c.prog < cmdBursts e.kind c then s else s.endCopy id slot cl := by
  unfold State.finishCopy
  simp only [Named.located h, command, plain]
  rfl

/-- A channel's command leaves it, and what waits. -/
def State.freeChannel (s : State) (id : EntryId) (slot cluster : Nat) : State := s.modCluster cluster fun c =>
  { c with channels := c.channels.filter fun p => p.2 != .entry id slot, copyWait := c.copyWait.filter fun r => r != .entry id slot }

theorem State.scratch_freeChannel (s : State) (id : EntryId) (slot cluster k : Nat) :
    ((s.freeChannel id slot cluster).cluster k).scratch = (s.cluster k).scratch := by
  unfold State.freeChannel
  by_cases own : k = cluster
  · rw [own, State.cluster_modCluster_same]
  · rw [State.cluster_modCluster_other _ _ _ _ own]

/-- An entry whose part in a slot is done. -/
def Entry.slotDone (e : Entry) (slot : Nat) : Entry := { e with ops := e.ops.map fun o => if o.slot = slot then { o with stage := .done } else o }

theorem Entry.finished_slotDone (others : ∀ o ∈ e.ops, o.slot ≠ slot → o.stage = .done) : (e.slotDone slot).finished = true := by
  refine List.all_eq_true.2 fun o ho => ?_
  obtain ⟨q, hq, rfl⟩ := List.mem_map.1 ho
  rw [beq_iff_eq]
  split
  · rfl
  · exact others q hq ‹_›

/-- A command over: its channel is free, and an entry whose other commands are done goes, its counter lowered. -/
theorem Named.endCopy (h : Named s id g sk e) (ended : g.ended = false) (copy : kindCounter e.kind = 3) (cl : Nat) :
    Recorded (s.freeChannel id slot cl) (s.endCopy id slot cl) ∧
    ∃ y, (s.endCopy id slot cl).skein id.gang id.skein = some y ∧
      (e.acked = true → e.portacc = false → (∀ o ∈ e.ops, o.slot ≠ slot → o.stage = .done) →
      y.c = sk.c - 1 ∧ ∀ q ∈ y.record, q.seq ≠ id.seq) := by
  obtain ⟨g1, named1, open1⟩ := Named.modCopy h slot fun c => { c with ended := true }
  obtain ⟨g2, named2, open2⟩ := Named.modEntry named1 (f := fun e => e.slotDone slot) fun _ => rfl
  have recorded := (recorded_modSkein s id.gang id.skein fun sk => sk.modEntry id.seq fun e => e.withCopy slot fun c => { c with ended := true }).trans
    (recorded_modSkein _ id.gang id.skein fun sk => sk.modEntry id.seq fun e => e.slotDone slot)
  obtain ⟨closed, skein⟩ := Named.closes (Named.of_gangs named2 (t := State.freeChannel _ id slot cl) rfl) (open2.trans (open1.trans ended))
  refine ⟨(recorded.modCluster ..).trans closed, _, skein, fun acked counted others => ?_⟩
  obtain ⟨-, lowered, gone⟩ := Skein.close_lowers (Named.entry named2) (Entry.finished_slotDone others) acked counted
  refine ⟨lowered.trans ?_, gone⟩
  rw [Skein.lower_copy (kind := ((e.withCopy slot fun c => { c with ended := true }).slotDone slot).kind) _ copy]
  rfl

theorem copyBurst_of {cl ch : Nat} (onChannel : tget (s.cluster cl).channels ch = some (.entry id slot)) :
    exec (.copyBurst cl ch) s = .next (s.copyStep id slot cl ch).clearTried := by
  rw [exec_copyBurst, execCopyBurst, onChannel]

end

/-- Settles O46: each step follows its named element or command; the units' pieces are zeros or the pattern, and what is over is closed. -/
theorem tileAndCopyEngineSteps : Obligations.TileAndCopyEngineSteps := by
  unfold Obligations.TileAndCopyEngineSteps
  intro core
  refine ⟨?_, ?_, ?_, ?_, ?_, ?_, ?_⟩
  · intro s c id g sk e t named head tile fresh single quiet
    unfold Leads
    rw [exec_tileOpStart, execTileOpStart, Named.startTile_op named (core := tileCore c) head tile fresh single (tileReady_of quiet)]
    rfl
  · intro s c n k head
    have released := State.startTile_release (core := tileCore c) head
    have own : (s.startTile (tileCore c)).core (tileCore c) = { s.core (tileCore c) with
        queue := (s.core (tileCore c)).queue.drop 1, fills := (s.core (tileCore c)).fills.filter fun f => !(f.slot == n && f.gang == k) } := by
      rw [released, State.core_modCore_same, State.popTile, State.core_modCore_same]
      rfl
    exact ⟨_, exec_tileOpStart .., congrArg Core.queue own, (congrArg Core.slots own :), congrArg Core.fills own, (congrArg State.mem released :),
      (congrArg State.clusters released :)⟩
  · intro s c id g sk e t named ended head kind tile started wf row
    obtain ⟨v, g', unit, named', open_, mem, same, clears⟩ := Named.tileUnit_clears named (core := core c) head kind tile started wf
    by_cases more : e.prog + 1 < t.n16
    · rw [if_pos more] at unit
      have kept := recorded_clearTried v
      rw [← kept.cluster] at clears
      exact ⟨_, _, tilePanelUnit_of unit, State.skein_untried (Named.skein named'), kept.mem.trans mem, clears,
        fun _ => ⟨rfl, congrArg Core.queue ((kept.core _).trans same), congrArg (Option.map (·.prog)) (Named.entry named')⟩,
        fun last => absurd more (Nat.not_lt.2 last)⟩
    · rw [if_neg more] at unit
      obtain ⟨closed, y, skein, lowered⟩ := Named.endTile named' (open_.trans ended) (congrArg kindCounter kind) (core c)
      have closed := closed.trans (recorded_clearTried _)
      have own : (v.popTile (core c)).cluster g.cluster = v.cluster g.cluster := rfl
      rw [← own, ← closed.cluster] at clears
      refine ⟨_, _, tilePanelUnit_of unit, State.skein_untried skein, closed.mem.trans mem, clears, fun more' => absurd more' more,
        fun _ => ⟨?_, lowered⟩⟩
      refine (congrArg Core.queue (closed.core _)).trans ((State.queue_popTile ..).trans ?_)
      exact congrArg (fun c => c.queue.drop 1) same
  · intro s c id g sk e t bs named head kind tile started plain reads acked counted ended sound
    have filled := Named.fillSlot_plain named head kind tile started plain reads
    have named' : Named (s.modCore (core c) fun c => c.putFill ⟨t.slot, g.key, some bs, none, false⟩) id g sk e := Named.of_gangs named rfl
    obtain ⟨closed, y, skein, lowered⟩ := Named.endTile named' ended (congrArg kindCounter kind) (core c)
    obtain ⟨count, gone⟩ := lowered acked counted sound
    have closed := closed.trans (recorded_clearTried _)
    have own := (closed.core (core c)).trans (State.core_popTile_putFill ..)
    exact ⟨_, _, ldstatFillDone_of filled, State.skein_untried skein, count, gone, congrArg Core.queue own, closed.mem, closed.clusters,
      (congrArg Core.slots own :), congrArg Core.fills own⟩
  · intro s cl n w q num src dst count r free waiting
    have first : s.startable [] (s.cluster cl).copyWait = some (.packet w q num src dst count) := by
      rw [waiting, State.startable]
      rfl
    unfold Leads
    rw [exec_copyCommandStart, execCopyCommandStart, State.startCopy]
    simp only [free, first]
  · intro s cl n id slot g sk e c r named free waiting command kind idle
    have starts := Named.startCopy_fill named free waiting command kind idle
    obtain ⟨g', named', -⟩ := Named.modCopy named slot CopyCmd.begun
    have recorded : Recorded s (s.modCopy id slot CopyCmd.begun) := recorded_modSkein ..
    generalize (s.modCopy id slot CopyCmd.begun) = u at starts named' recorded
    have own : ((u.modCluster cl fun k => { k with
        channels := tset k.channels n (.entry id slot), copyWait := k.copyWait.filter fun r => r != .entry id slot }).clearTried.cluster cl) =
        { s.cluster cl with
          channels := tset (s.cluster cl).channels n (.entry id slot), copyWait := (s.cluster cl).copyWait.filter fun r => r != .entry id slot } := by
      refine ((recorded_clearTried _).cluster cl).trans ?_
      rw [State.cluster_modCluster_same, recorded.cluster]
    refine ⟨_, copyCommandStart_of starts, congrArg Cluster.channels own, fun x waits => ?_, recorded.mem, _, e.withCopy slot CopyCmd.begun,
      c.begun, State.skein_untried (Named.skein (Named.of_gangs named' rfl)), (Named.entry named' :), Entry.copy_withCopy command fun _ => rfl, rfl⟩
    rw [own] at waits
    exact bne_iff_ne.1 (List.mem_filter.1 waits).2
  · intro s cl ch id slot g sk e c named ended room onChannel command kind toScratch plain quiet left wf n dst inside
    have toScratch : flagDst e.aux = true := (bitOf_eq_testBit ..).trans toScratch
    have plain : flagStamp e.aux = false := (bitOf_eq_testBit ..).trans plain
    obtain ⟨v, g', step, named', open_, mem, written⟩ :=
      Named.copyStep_lands named (cl := cl) (ch := ch) command kind toScratch quiet room left wf inside
    have finish := Named.finishCopy_unstamped named' (cl := cl) (ch := ch) (Entry.copy_withCopy command fun _ => rfl) plain
    have bursts : c.advanced.prog < cmdBursts (e.withCopy slot CopyCmd.advanced).kind c.advanced ↔ 256 * (c.prog + 1) < c.n := by
      have kind : (e.withCopy slot CopyCmd.advanced).kind = 0x13 := kind
      rw [kind, cmdBursts_fill]
      change c.prog + 1 < (c.n + 255) / 256 ↔ _
      omega
    have runs := copyBurst_of onChannel
    rw [step, finish] at runs
    by_cases more : 256 * (c.prog + 1) < c.n
    · rw [if_pos (bursts.2 more)] at runs
      have kept := recorded_clearTried v
      refine ⟨_, _, runs, State.skein_untried (Named.skein named'), kept.mem.trans mem, ?_, fun _ => ⟨rfl, ?_⟩,
        fun last => absurd more (Nat.not_lt.2 last)⟩
      · rw [kept.cluster]
        exact written
      · have entry : (sk.modEntry id.seq fun e => e.withCopy slot CopyCmd.advanced).record.find? (fun q => q.seq == id.seq) = _ := Named.entry named'
        refine (congrArg (Option.bind · _) entry).trans ?_
        exact Entry.copy_withCopy command fun _ => rfl
    · rw [if_neg (mt bursts.1 more)] at runs
      obtain ⟨closed, y, skein, lowered⟩ := Named.endCopy named' (open_.trans ended) (congrArg kindCounter kind) cl (slot := slot)
      have closed := closed.trans (recorded_clearTried _)
      refine ⟨_, _, runs, State.skein_untried skein, closed.mem.trans mem, ?_, fun more' => absurd more' more,
        fun _ => ⟨?_, lowered⟩⟩
      · rw [closed.cluster, State.scratch_freeChannel]
        exact written
      · intro x hx
        rw [closed.cluster, State.freeChannel, State.cluster_modCluster_same] at hx
        exact bne_iff_ne.1 (List.mem_filter.1 hx).2

end Sys2Proof.Machine
end


section
/-! PROOFS, shared by O47 to O49. What the memory side and translation leave alone of worlds, clusters and partitions, which `Beside` does not name: all but caches,
local memories, error counts, translation requests, and the frames that a checkpoint has shadowed or marked. -/

namespace Sys2Proof.Machine

/-- A cluster but for its caches and memories. -/
def Cluster.bare (c : Cluster) : Cluster := { c with cache := [], code := [], doc := [], scratch := [], scratchPoison := [], local_ := [] }

/-- A partition's registers but for its error counts, translation requests, and the frames shadowed or marked. -/
def Partition.bare (x : Partition) : Partition :=
  { x with ecc := 0, eccLast := 0, pageReqs := [], atsReqs := [], ckpt := { x.ckpt with thawed := [], shadow := [], bitmap := [] } }

/-- t is s in its worlds, and in its clusters and partitions but for what the memory side changes there. -/
structure Apart (s t : State) : Prop where
  worlds : t.worlds = s.worlds
  clusters : ∀ c, (t.cluster c).bare = (s.cluster c).bare
  parts : ∀ p, (t.part p).bare = (s.part p).bare

theorem Apart.refl (s : State) : Apart s s := ⟨rfl, fun _ => rfl, fun _ => rfl⟩

theorem Apart.trans {s t u : State} (a : Apart s t) (b : Apart t u) : Apart s u :=
  ⟨b.worlds.trans a.worlds, fun c => (b.clusters c).trans (a.clusters c), fun p => (b.parts p).trans (a.parts p)⟩

/-- A change of what is neither of a world, nor of a cluster, nor of a partition. -/
theorem Apart.of_eq {s t : State} (worlds : t.worlds = s.worlds) (clusters : t.clusters = s.clusters) (part : t.part = s.part) : Apart s t :=
  ⟨worlds, fun c => by simp only [State.cluster, clusters], fun p => congrArg Partition.bare (congrFun part p)⟩

theorem apart_modCluster (s : State) (c : Nat) {f : Cluster → Cluster} (h : ∀ k, (f k).bare = k.bare) : Apart s (s.modCluster c f) :=
  ⟨rfl, fun n => by
    by_cases hn : n = c
    · subst hn; simp only [State.cluster_modCluster_same, h]
    · simp only [State.cluster_modCluster_other _ _ _ _ hn], fun _ => rfl⟩

theorem apart_modPart (s : State) (p : Nat) {f : Partition → Partition} (h : ∀ x, (f x).bare = x.bare) : Apart s (s.modPart p f) :=
  ⟨rfl, fun _ => rfl, fun n => by
    by_cases hn : n = p
    · subst hn; simp only [State.part_modPart_same, h]
    · simp only [State.part_modPart_other _ _ _ _ hn]⟩

theorem apart_modCore (s : State) (c : Nat) (f : Core → Core) : Apart s (s.modCore c f) := .of_eq rfl rfl rfl

/-- A fold of changes. -/
theorem apart_foldl {α : Type} (f : State → α → State) (h : ∀ s a, Apart s (f s a)) : ∀ (l : List α) (s : State), Apart s (l.foldl f s)
  | [], s => Apart.refl s
  | a :: r, s => (h s a).trans (apart_foldl f h r (f s a))

theorem apart_draw (s : State) : Apart s s.draw := .of_eq rfl rfl rfl

/-! ## The memory side -/

theorem apart_writeDev {s t : State} {w a : Nat} {bs : List Byte} (h : s.writeDev w a bs = .ok t) : Apart s t := by
  obtain ⟨m, o, q, rfl⟩ := State.writeDev_frame h
  exact .of_eq rfl rfl rfl

theorem apart_markExt (s : State) (a : Nat) : Apart s (s.markExt a) := by
  unfold State.markExt
  split
  · exact apart_modPart _ _ fun _ => by split <;> rfl
  · exact Apart.refl s

theorem Partition.bare_ecc (x : Partition) (e l : W64) : { x with ecc := e, eccLast := l }.bare = x.bare := rfl

theorem apart_countUncorr (s : State) (line : Nat) : Apart s (s.countUncorr line) := by
  unfold State.countUncorr
  exact apart_modPart _ _ fun _ => Partition.bare_ecc ..

theorem apart_writeDirty (s : State) (x : CacheLine) : Apart s (s.writeDirty x) := by
  unfold State.writeDirty
  split_ifs
  · split
    · rename_i h
      exact (apart_writeDev h).trans (apart_markExt ..)
    · exact Apart.refl s
  · exact Apart.refl s

theorem apart_writeBackLine (s : State) (c : Nat) (x : CacheLine) : Apart s (s.writeBackLine c x) := by
  unfold State.writeBackLine
  split
  · exact (apart_writeDirty ..).trans (apart_modCluster _ _ fun _ => rfl)
  · exact Apart.refl s

theorem apart_writeBackAll (s : State) (c : Nat) : Apart s (s.writeBackAll c) :=
  apart_foldl _ (fun s x => apart_writeBackLine s c x) _ s

theorem apart_acquireSync (s : State) (c : Nat) : Apart s (s.acquireSync c) := apart_modCluster _ _ fun _ => rfl

theorem apart_holdLine {s t : State} {c w r l : Nat} (h : s.holdLine c w r l = .ok t) : Apart s t := by
  unfold State.holdLine at h
  simp only at h
  split at h
  · cases h; exact apart_modCluster _ _ fun _ => rfl
  · split at h
    · exact absurd h (by simp)
    · split_ifs at h
      · cases h; exact Apart.refl s
      · split at h
        · cases h; exact apart_modCluster _ _ fun _ => rfl
        · split at h
          · cases h; exact Apart.refl s
          · cases h; exact (apart_writeDirty ..).trans (apart_modCluster _ _ fun _ => rfl)

theorem apart_holdLines {c w r : Nat} : ∀ (ls : List Nat) {s t : State}, s.holdLines c w r ls = .ok t → Apart s t
  | [], s, t, h => by cases h; exact Apart.refl s
  | l :: q, s, t, h => by
    unfold State.holdLines at h
    split at h
    · exact absurd h (by simp)
    · rename_i s' h'
      exact (apart_holdLine h').trans (apart_holdLines q h)

theorem apart_putCachedBytes (s : State) (c w a : Nat) (d : Bool) (bs : List Byte) : Apart s (s.putCachedBytes c w a d bs) :=
  apart_modCluster _ _ fun _ => rfl

theorem apart_writeThrough {c w : Nat} : ∀ (cuts : List (Nat × Nat)) {s t : State} {bs : List Byte},
    s.writeThrough c w cuts bs = .ok t → Apart s t
  | [], s, t, bs, h => by cases h; exact Apart.refl s
  | (x, n) :: r, s, t, bs, h => by
    unfold State.writeThrough at h
    simp only at h
    split_ifs at h
    · exact (apart_putCachedBytes ..).trans (apart_writeThrough r h)
    · split at h
      · exact absurd h (by simp)
      · rename_i s' h'
        exact ((apart_writeDev h').trans (apart_markExt ..)).trans (apart_writeThrough r h)

theorem apart_setPrivate (s : State) (n : Nat) (cs : List CacheLine) : Apart s (s.setPrivate n cs) := apart_modCore ..

theorem apart_pushLine (s : State) (c : Nat) (x : CacheLine) : Apart s (s.pushLine c x) := by
  unfold State.pushLine
  split_ifs
  · exact Apart.refl s
  · split
    · exact Apart.refl s
    · rename_i s1 h
      have b := apart_holdLine h
      split
      · exact b.trans (apart_modCluster _ _ fun _ => rfl)
      · exact b.trans (apart_writeDirty ..)

theorem apart_shedPrivate (s : State) (v : Via) (p : CacheLine → Bool) : Apart s (s.shedPrivate v p) := by
  unfold State.shedPrivate
  split
  · exact Apart.refl s
  · simp only
    split_ifs
    · exact (apart_foldl _ (fun s x => apart_pushLine s v.cluster x) _ s).trans (apart_setPrivate ..)
    · exact Apart.refl s

theorem apart_pushPrivate (s : State) (v : Via) : Apart s (s.pushPrivate v) := by
  unfold State.pushPrivate
  split
  · exact Apart.refl s
  · simp only
    split_ifs
    · exact (apart_foldl _ (fun s x => apart_pushLine s v.cluster x) _ s).trans (apart_setPrivate ..)
    · exact Apart.refl s

theorem apart_holdPrivate {s t : State} {v : Via} {n w r l : Nat} (h : s.holdPrivate v n w r l = .ok t) : Apart s t := by
  unfold State.holdPrivate at h
  simp only at h
  split at h
  · cases h; exact apart_modCore ..
  · split at h
    · exact absurd h (by simp)
    · rename_i s1 h1
      have b := apart_holdLine h1
      split_ifs at h
      · cases h; exact b
      · cases h; exact b.trans (apart_setPrivate ..)
      · split at h
        · cases h; exact b
        · cases h; exact (b.trans (apart_pushLine ..)).trans (apart_setPrivate ..)

theorem apart_holdPrivates {v : Via} {n w r : Nat} : ∀ (ls : List Nat) {s t : State}, s.holdPrivates v n w r ls = .ok t → Apart s t
  | [], s, t, h => by cases h; exact Apart.refl s
  | l :: q, s, t, h => by
    unfold State.holdPrivates at h
    split at h
    · exact absurd h (by simp)
    · rename_i s' h'
      exact (apart_holdPrivate h').trans (apart_holdPrivates q h)

theorem apart_writePrivate {v : Via} {n w : Nat} : ∀ (cuts : List (Nat × Nat)) {s t : State} {bs : List Byte},
    s.writePrivate v n w cuts bs = .ok t → Apart s t
  | [], s, t, bs, h => by cases h; exact Apart.refl s
  | (x, k) :: r, s, t, bs, h => by
    unfold State.writePrivate at h
    simp only at h
    split_ifs at h
    · exact (apart_modCore s n _).trans
        (apart_writePrivate r h)
    · split at h
      · exact absurd h (by simp)
      · rename_i s' h'
        exact (apart_writeThrough _ h').trans (apart_writePrivate r h)

theorem apart_acquireCaches (s : State) (v : Via) (scope : Nat) : Apart s (s.acquireCaches v scope) := by
  have b : Apart s (if 3 ≤ scope then s.shedPrivate v fun _ => true else s) := by
    split_ifs
    · exact apart_shedPrivate ..
    · exact Apart.refl s
  unfold State.acquireCaches
  simp only
  generalize (if 3 ≤ scope then s.shedPrivate v fun _ => true else s) = s1 at b ⊢
  split_ifs
  · exact b.trans (apart_acquireSync ..)
  · exact b

theorem apart_releaseCaches (s : State) (v : Via) (scope : Nat) : Apart s (s.releaseCaches v scope) := by
  have b : Apart s (if 3 ≤ scope then s.pushPrivate v else s) := by
    split_ifs
    · exact apart_pushPrivate ..
    · exact Apart.refl s
  unfold State.releaseCaches
  simp only
  generalize (if 3 ≤ scope then s.pushPrivate v else s) = s1 at b ⊢
  split_ifs
  · exact b.trans (apart_writeBackAll ..)
  · exact b

theorem apart_cleanOne (s : State) (c l w : Nat) : Apart s (s.cleanOne c l w) := by
  unfold State.cleanOne
  split
  · split
    · exact Apart.refl s
    · exact apart_writeBackLine ..
  · exact Apart.refl s

theorem apart_dropLine (s : State) (c l w : Nat) : Apart s (s.dropLine c l w) := by
  unfold State.dropLine
  refine (apart_foldl _ (fun s n => ?_) _ s).trans (apart_modCluster _ _ fun _ => rfl)
  split
  · exact Apart.refl s
  · exact apart_modCore ..

theorem apart_publish (s : State) (c w : Nat) (ls : List Nat) : Apart s (s.publish c w ls) :=
  apart_foldl _ (fun s l => apart_cleanOne s c l w) ls s

theorem apart_refresh (s : State) (c w a n : Nat) : Apart s (s.refresh c w a n) := apart_modCluster _ _ fun _ => rfl

theorem apart_dropFar (s : State) (h : Home) (a n : Nat) : Apart s (s.dropFar h a n) :=
  Apart.of_eq rfl rfl rfl

theorem apart_putPort (s : State) (h : Home) (a : Nat) (bs : List Byte) : Apart s (s.putPort h a bs) := by
  unfold State.putPort
  split <;> exact Apart.of_eq rfl rfl rfl

theorem apart_putNow (s : State) (h : Home) (a : Nat) (bs : List Byte) : Apart s (s.putNow h a bs) :=
  (apart_putPort ..).trans (apart_dropFar ..)

theorem apart_readHome {s : State} {v : Via} {w scope : Nat} {p : Part} {r : List Byte × State} (h : s.readHome v w scope p = .ok r) :
    Apart s r.2 := by
  unfold State.readHome at h
  split at h
  · simp only at h
    split_ifs at h
    · split at h
      · exact absurd h (by simp)
      · rename_i h'
        cases h
        exact apart_holdPrivates _ h'
    · split at h
      · exact absurd h (by simp)
      · rename_i h'
        cases h
        exact (apart_shedPrivate ..).trans (apart_holdLines _ h')
    · split at h
      · exact absurd h (by simp)
      · cases h
        exact ((apart_shedPrivate ..).trans (apart_publish ..)).trans (apart_refresh ..)
  · cases h; exact apart_draw s
  · split at h
    · exact absurd h (by simp)
    · cases h; exact Apart.refl s
  · cases h; exact Apart.refl s
  · cases h; exact Apart.refl s

theorem apart_writeHome {s t : State} {v : Via} {w scope : Nat} {p : Part} {bs : List Byte} (h : s.writeHome v w scope p bs = .ok t) :
    Apart s t := by
  unfold State.writeHome at h
  split at h
  · simp only at h
    split_ifs at h
    · split at h
      · exact absurd h (by simp)
      · rename_i h'
        exact (apart_holdPrivates _ h').trans (apart_writePrivate _ h)
    · split at h
      · exact absurd h (by simp)
      · rename_i h'
        exact ((apart_shedPrivate ..).trans (apart_holdLines _ h')).trans (apart_writeThrough _ h)
    · split at h
      · exact absurd h (by simp)
      · rename_i s' h'
        cases h
        exact (((apart_shedPrivate ..).trans (apart_writeDev h')).trans (apart_markExt ..)).trans (apart_putCachedBytes ..)
  · cases h; exact Apart.refl s
  · cases h; exact apart_modCluster _ _ fun _ => rfl
  · cases h; exact apart_modCluster _ _ fun _ => rfl
  · cases h; exact apart_putNow ..

theorem apart_readParts {c : Via} {w scope : Nat} : ∀ (ps : List Part) {s : State} {r : List Byte × State},
    s.readParts c w scope ps = .ok r → Apart s r.2
  | [], s, r, h => by cases h; exact Apart.refl s
  | p :: q, s, r, h => by
    unfold State.readParts at h
    split at h
    · exact absurd h (by simp)
    · rename_i bs s' h'
      split at h
      · exact absurd h (by simp)
      · rename_i bs' s'' h''
        cases h
        have b1 : Apart s s' := apart_readHome h'
        have b2 : Apart s' s'' := apart_readParts q h''
        exact b1.trans b2

theorem apart_writeParts {c : Via} {w scope : Nat} : ∀ (ps : List Part) {s t : State} {bs : List Byte},
    s.writeParts c w scope ps bs = .ok t → Apart s t
  | [], s, t, bs, h => by cases h; exact Apart.refl s
  | p :: q, s, t, bs, h => by
    unfold State.writeParts at h
    split at h
    · exact absurd h (by simp)
    · rename_i s' h'
      exact (apart_writeHome h').trans (apart_writeParts q h)

/-! ## Translation -/

theorem apart_leafOf {s : State} {ctx va : Nat} {r : TlbEntry × State} (h : s.leafOf ctx va = .ok r) : Apart s r.2 := by
  unfold State.leafOf at h
  split at h
  · cases h; exact Apart.refl s
  · split at h
    · exact absurd h (by simp)
    · split at h
      · exact absurd h (by simp)
      · cases h; exact Apart.of_eq rfl rfl rfl

theorem apart_writeFrz (s : State) (e v : Nat) (on : Bool) : Apart s (s.writeFrz e v on) := by
  unfold State.writeFrz
  generalize v - (if leafFrz v = true then 128 else 0) + (if on = true then 128 else 0) = n
  exact .of_eq rfl rfl rfl

theorem apart_markLeaves (s : State) (p : Nat) (f : Nat → Bool) (on : Bool) : Apart s (s.markLeaves p f on) :=
  apart_foldl _ (fun s _ => apart_foldl _ (fun s _ => apart_writeFrz s _ _ _) _ s) _ s

theorem apart_shadowFrame (s : State) (f : Nat) : Apart s (s.shadowFrame f) := by
  unfold State.shadowFrame
  simp only
  split
  · refine Apart.trans ?_ (apart_markLeaves ..)
    exact apart_modPart _ _ fun _ => rfl
  · exact Apart.refl s

theorem apart_shadowRange (s : State) (a n : Nat) : Apart s (s.shadowRange a n) := by
  unfold State.shadowRange
  split
  · exact Apart.refl s
  · exact apart_foldl _ (fun s f => apart_shadowFrame s f) _ s

theorem apart_setAD {s t : State} {e : TlbEntry} {w : Bool} (h : s.setAD e w = some t) : Apart s t := by
  unfold State.setAD at h
  simp only at h
  generalize wantAD w = k at h
  have b := apart_shadowRange s e.entry 16
  generalize s.shadowRange e.entry 16 = s1 at b h
  split_ifs at h
  · cases h; exact Apart.refl s
  · cases h
    refine b.trans (Apart.trans ?_ (apart_markExt ..))
    exact .of_eq rfl rfl rfl

theorem apart_setLeaves {w : Bool} : ∀ (ls : List TlbEntry) {s t : State}, s.setLeaves w ls = some t → Apart s t
  | [], s, t, h => by cases h; exact Apart.refl s
  | e :: r, s, t, h => by
    unfold State.setLeaves at h
    split at h
    · rename_i s' h'
      exact (apart_setAD h').trans (apart_setLeaves r h)
    · exact absurd h (by simp)

theorem Apart.ite {α : Type} {s : State} {c : Prop} [Decidable c] {x y : Checked α} (hx : Apart s x.st) (hy : Apart s y.st) :
    Apart s (if c then x else y).st := by
  split
  · exact hx
  · exact hy

theorem apart_hostFrame (s : State) (w ioa : Nat) (write : Bool) : Apart s (s.hostFrame w ioa write).st := by
  have asked (f : Partition → Partition) (h : ∀ x, (f x).bare = x.bare) : Apart s (s.modPart (partOfWorld w) f) := apart_modPart _ _ h
  have dropped {l : List AtsEntry} : Apart s { s with ats := l } := .of_eq rfl rfl rfl
  unfold State.hostFrame
  refine .ite (.refl s) ?_
  split
  · exact .ite (.refl s) (.ite dropped (.ite (.refl s) (.ite dropped (.ite (asked (fun q => { q with pageReqs := _ }) fun _ => rfl) (.refl s)))))
  · exact .ite (.refl s) (asked (fun q => { q with atsReqs := _ }) fun _ => rfl)

theorem apart_placeHost (w fv : Nat) (a : Acc) (t : TlbEntry) (va ioa : Nat) :
    ∀ (cs : List (Nat × Nat)) (s : State), Apart s (s.placeHost w fv a t va ioa cs).st
  | [], s => Apart.refl s
  | (x, len) :: r, s => by
    have hh := apart_hostFrame s w x a.writes
    unfold State.placeHost
    simp only
    split
    · rename_i h; rw [h] at hh; exact hh
    · rename_i h; rw [h] at hh; exact hh
    · rename_i s' h
      rw [h] at hh
      replace hh : Apart s s' := hh
      have hr := apart_placeHost w fv a t va ioa r s'
      split_ifs
      · exact hh
      · split
        · rename_i h2; rw [h2] at hr; exact hh.trans hr
        · exact hh.trans hr

theorem apart_place (s : State) (w fv : Nat) (a : Acc) (t : TlbEntry) (va len : Nat) : Apart s (s.place w fv a t va len).st := by
  unfold State.place
  simp only
  split_ifs
  · exact Apart.refl s
  · exact apart_placeHost ..
  · exact Apart.refl s
  · exact Apart.refl s
  · split <;> exact Apart.refl s

theorem apart_dropTlb (s : State) (p : TlbEntry → Bool) : Apart s { s with tlb := s.tlb.filter p } :=
  Apart.of_eq rfl rfl rfl

theorem apart_translatePart (s : State) (ctx w : Nat) (a : Acc) (va : Nat) : Apart s (s.translatePart ctx w a va).st := by
  unfold State.translatePart
  split
  · exact Apart.refl s
  · split
    · exact Apart.refl s
    · rename_i t s1 h1
      have b1 := apart_leafOf h1
      split <;> exact b1

theorem apart_checkPage (s : State) (ctx w fv : Nat) (a : Acc) (va len : Nat) (al wh : Bool) (at_ : Nat) :
    Apart s (s.checkPage ctx w fv a va len al wh at_).st := by
  have b1 := apart_translatePart s ctx w a va
  unfold State.checkPage
  split
  · rename_i h; rw [h] at b1; exact b1
  · rename_i h; rw [h] at b1; exact b1
  · rename_i t s1 h
    rw [h] at b1
    replace b1 : Apart s s1 := b1
    have b2 := apart_place s1 w fv a t va len
    split_ifs
    · exact b1
    · exact b1
    · split
      all_goals (rename_i h2; rw [h2] at b2; exact b1.trans b2)

theorem apart_checkOnce (s : State) (ctx w fv : Nat) (a : Acc) (va n al : Nat) : Apart s (s.checkOnce ctx w fv a va n al).st := by
  have b1 := apart_checkPage s ctx w fv a va (firstLen va n) (va % al == 0) (va % n == 0) va
  unfold State.checkOnce
  simp only
  split
  · rename_i h; rw [h] at b1; exact b1
  · rename_i h; rw [h] at b1; exact b1
  · rename_i p1 s1 h
    rw [h] at b1
    replace b1 : Apart s s1 := b1
    split_ifs
    · exact b1
    · have b2 := apart_checkPage s1 ctx w fv a ((va + firstLen va n) % 2 ^ 64) (n - firstLen va n) true false va
      split
      all_goals (rename_i h2; rw [h2] at b2; exact b1.trans b2)

theorem apart_checkGlobal (s : State) (ctx w fv : Nat) (a : Acc) (va n al : Nat) : Apart s (s.checkGlobal ctx w fv a va n al).st := by
  have b1 := apart_checkOnce s ctx w fv a va n al
  unfold State.checkGlobal
  split
  · rename_i h; rw [h] at b1; exact b1
  · rename_i h; rw [h] at b1; exact b1
  · rename_i r s1 h
    rw [h] at b1
    replace b1 : Apart s s1 := b1
    split_ifs
    · exact b1
    · split
      · rename_i s2 h2
        exact b1.trans (apart_setLeaves _ h2)
      · have b2 := apart_checkOnce { s1 with tlb := s1.tlb.filter fun x => !r.1.contains x } ctx w fv a va n al
        have b3 := b1.trans (apart_dropTlb s1 fun x => !r.1.contains x)
        split
        · rename_i h2; rw [h2] at b2; exact b3.trans b2
        · rename_i h2; rw [h2] at b2; exact b3.trans b2
        · rename_i r' s2 h2
          rw [h2] at b2
          replace b2 : Apart s s2 := b3.trans b2
          show Apart s ((s2.setLeaves a.writes r'.1).getD s2)
          cases h4 : s2.setLeaves a.writes r'.1 with
          | none => exact b2
          | some s4 => exact b2.trans (apart_setLeaves _ h4)

theorem apart_checkScratch (s : State) (c w va n al : Nat) : Apart s (s.checkScratch c w va n al).st := by
  unfold State.checkScratch
  repeat' split
  all_goals exact Apart.refl s

theorem apart_readGlobal {s : State} {ctx w va n : Nat} {r : List Byte × State} (h : s.readGlobal ctx w va n = .ok r) :
    Apart s r.2 := by
  have b := apart_checkGlobal s ctx w 0x103FF .engineRead va n 1
  unfold State.readGlobal at h
  split at h
  · exact absurd h (by simp)
  · exact absurd h (by simp)
  · rename_i ps s' h1
    rw [h1] at b
    split at h
    · exact absurd h (by simp)
    · rename_i r' h2
      cases h
      exact Apart.trans b (apart_readParts ps h2)

theorem apart_writeGlobal {s t : State} {ctx w va : Nat} {bs : List Byte} (h : s.writeGlobal ctx w va bs = .ok t) : Apart s t := by
  have b := apart_checkGlobal s ctx w 0x103FF .engineWrite va bs.length 1
  unfold State.writeGlobal at h
  split at h
  · exact absurd h (by simp)
  · exact absurd h (by simp)
  · rename_i ps s1 h1
    rw [h1] at b
    have b2 : Apart s1 (ps.foldl (fun s p => if p.home == .dev then s.shadowRange p.addr p.len else s) s1) := by
      refine apart_foldl _ (fun s p => ?_) ps s1
      split
      · exact apart_shadowRange ..
      · exact Apart.refl s
    simp only at h
    split at h
    · exact absurd h (by simp)
    · rename_i r' h2
      cases h
      exact (Apart.trans b b2).trans (apart_writeParts ps h2)


/-! ## Records of faults and traces (spec/19 R413, spec/15 R383) -/

/-- t is s in its queues, its forwarding entries, and its partitions' registers. -/
structure Reported (s t : State) : Prop where
  queue : ∀ w q, t.queue w q = s.queue w q
  forwards : ∀ c, (t.cluster c).forwards = (s.cluster c).forwards
  parts : ∀ p, (t.part p).bare = (s.part p).bare

theorem Reported.refl (s : State) : Reported s s := ⟨fun _ _ => rfl, fun _ => rfl, fun _ => rfl⟩

theorem Reported.trans {s t u : State} (a : Reported s t) (b : Reported t u) : Reported s u :=
  ⟨fun w q => (b.queue w q).trans (a.queue w q), fun c => (b.forwards c).trans (a.forwards c), fun p => (b.parts p).trans (a.parts p)⟩

theorem State.queue_of_worlds {s t : State} (h : t.worlds = s.worlds) (w q : Nat) : t.queue w q = s.queue w q := by
  simp only [State.queue, State.world, h]

theorem Apart.reported {s t : State} (a : Apart s t) : Reported s t :=
  ⟨State.queue_of_worlds a.worlds, fun c => (congrArg Cluster.forwards (a.clusters c) :), a.parts⟩

theorem reported_modCluster (s : State) (c : Nat) {f : Cluster → Cluster} (h : ∀ k, (f k).forwards = k.forwards) : Reported s (s.modCluster c f) :=
  ⟨fun _ _ => rfl, fun n => by
    by_cases hn : n = c
    · subst hn; simp only [State.cluster_modCluster_same, h]
    · simp only [State.cluster_modCluster_other _ _ _ _ hn], fun _ => rfl⟩

theorem reported_modWorld (s : State) (w : Nat) {f : World → World} (h : ∀ x, (f x).queues = x.queues) : Reported s (s.modWorld w f) :=
  ⟨fun n q => by
    by_cases hn : n = w
    · subst hn; simp only [State.queue, State.world_modWorld_same, World.queue, h]
    · simp only [State.queue, State.world_modWorld_other _ _ _ _ hn], fun _ => rfl, fun _ => rfl⟩

theorem reported_raise (s : State) (w v : Nat) : Reported s (s.raise w v) := ⟨fun _ _ => rfl, fun _ => rfl, fun _ => rfl⟩

theorem reported_postFor (s : State) (c : Nat) (e : Event) (p : Option (Nat × Nat)) : Reported s (s.postFor c e p) :=
  reported_modCluster _ _ fun _ => by split <;> rfl

theorem reported_dropRecord (s : State) (w : Nat) : Reported s (s.dropRecord w) := reported_modWorld _ _ fun _ => rfl

theorem reported_writeRecord (s : State) (r : Record) : Reported s (s.writeRecord r) := by
  unfold State.writeRecord
  simp only
  split
  · exact reported_dropRecord ..
  · split
    · exact reported_dropRecord ..
    · rename_i s1 written
      have raised := ((apart_writeGlobal written).reported.trans
        (reported_modWorld s1 r.world (f := fun y => { y with fridx := (y.fridx + 1) % 2 ^ 32, loss := false }) fun _ => rfl)).trans
        (reported_raise _ r.world (bitsOf (s.world r.world).frctl.toNat 20 10))
      split
      · exact raised.trans (reported_postFor ..)
      · exact raised

theorem reported_modTraceRegs (s : State) (c o : Nat) (f : TraceRegs → TraceRegs) : Reported s (s.modTraceRegs c o f) := by
  unfold State.modTraceRegs
  split
  · exact reported_modCluster _ _ fun _ => rfl
  · exact reported_modWorld _ _ fun _ => rfl

theorem reported_putTrace {s t : State} {c o ctx : Nat} {bs : List Byte} (h : s.putTrace c o ctx bs = some t) : Reported s t := by
  unfold State.putTrace at h
  simp only at h
  split at h
  · cases h
  · obtain ⟨u, written, rfl⟩ := Option.map_eq_some_iff.1 h
    refine Reported.trans ?_ (reported_modTraceRegs ..)
    split at written
    · split at written
      · rename_i done
        cases written
        exact (apart_writeDev done).reported
      · cases written
    · split at written
      · rename_i done
        cases written
        exact (apart_writeGlobal done).reported
      · cases written

theorem reported_trace (s : State) (c ctx : Nat) (r : TraceRec) : Reported s (s.trace c ctx r) := by
  have dropped (s : State) (n : Nat) :
      Reported s (s.modCluster c fun c => { c with trace := { c.trace with dropped := n } }) := reported_modCluster _ _ fun _ => rfl
  have counted (s : State) :
      Reported s (s.modCluster c fun c => { c with trace := { c.trace with dropped := c.trace.dropped + 1 } }) := reported_modCluster _ _ fun _ => rfl
  unfold State.trace
  simp only
  split
  · exact .refl s
  · split
    · split
      next done => exact reported_putTrace done
      · exact counted s
    · split
      · exact counted s
      next done =>
        refine ((reported_putTrace done).trans (dropped _ 0)).trans ?_
        split
        next again => exact reported_putTrace again
        · exact counted _

/-! ## What passes beside the gangs and the forwarding entries -/

/-- t is s but for what `Beside` names, with the clusters' forwarding entries (spec/12 R325). -/
structure Flank (s t : State) : Prop where
  beside : Beside s t
  forwards : ∀ c, (t.cluster c).forwards = (s.cluster c).forwards

theorem Flank.refl (s : State) : Flank s s := ⟨.refl s, fun _ => rfl⟩

theorem Flank.trans {s t u : State} (a : Flank s t) (b : Flank t u) : Flank s u :=
  ⟨a.beside.trans b.beside, fun c => (b.forwards c).trans (a.forwards c)⟩

theorem Apart.flank {s t : State} (a : Apart s t) (b : Beside s t) : Flank s t := ⟨b, a.reported.forwards⟩

theorem flank_foldl {α : Type} (f : State → α → State) (h : ∀ s a, Flank s (f s a)) : ∀ (l : List α) (s : State), Flank s (l.foldl f s)
  | [], s => .refl s
  | a :: r, s => (h s a).trans (flank_foldl f h r (f s a))

theorem flank_ordering (s : State) (g : Gang) (f : Partition → Partition) : Flank s (s.ordering g f) :=
  ⟨beside_ordering .., fun c => by
    unfold State.ordering
    simp only
    split <;> rfl⟩

theorem flank_ordOutside (s : State) : Flank s s.ordOutside := flank_foldl _ (fun s g => flank_ordering s g _) _ s

theorem flank_ordMeet (s : State) (gs : List Gang) : Flank s (s.ordMeet gs) :=
  (flank_foldl _ (fun s g => flank_ordering s g _) _ s).trans (flank_foldl _ (fun s g => flank_ordering s g _) _ _)

theorem flank_ordWrite (s : State) (w a : Nat) (bs : List Byte) : Flank s (s.ordWrite w a bs) := by
  refine ⟨beside_ordWrite .., ?_⟩
  unfold State.ordWrite
  split
  · rename_i h; exact (apart_writeDev h).reported.forwards
  · exact fun _ => rfl

theorem flank_ordReport (s : State) (w va : Nat) (a b : OrdAccess) : Flank s (s.ordReport w va a b) := by
  unfold State.ordReport
  simp only
  split
  · exact flank_ordWrite ..
  · exact (flank_ordWrite ..).trans (flank_ordWrite ..)

theorem flank_ordCheck (s : State) (g : Gang) (w : Nat) (a : OrdAccess) (r : Bool) (p : Nat × Nat) : Flank s (s.ordCheck g w a r p) := by
  unfold State.ordCheck
  simp only
  refine Flank.trans ?_ (flank_ordering ..)
  split
  · exact flank_foldl _ (fun s b => flank_ordReport s _ _ _ _) _ s
  · exact .refl s

theorem flank_ordPerform (s : State) (g : Gang) (a : OrdAccess) (r q l : Bool) (ps : List (Nat × Nat)) (tr : Bool) :
    Flank s (s.ordPerform g a r q l ps tr) := by
  unfold State.ordPerform
  simp only
  have released (t : State) (h : Flank s t) : Flank s (if a.write then t.ordering g fun x => x.ordRelease g l a.scope (ps.map (·.1)) else t) := by
    split
    · exact h.trans (flank_ordering ..)
    · exact h
  apply released
  have acquired : Flank s (if r = true then s.ordering g fun x => x.ordAcquire g q a.scope (ps.map (·.1)) else s) := by
    split
    · exact flank_ordering ..
    · exact .refl s
  generalize (if r = true then s.ordering g fun x => x.ordAcquire g q a.scope (ps.map (·.1)) else s) = s1 at acquired ⊢
  split
  · exact acquired.trans (flank_foldl _ (fun s p => flank_ordCheck s ..) _ s1)
  · exact acquired

theorem flank_ordOp (s : State) (g : Gang) (e : Entry) (q : SlotOp) (p : Part) : Flank s (s.ordOp g e q p) := by
  unfold State.ordOp
  split
  · exact flank_ordPerform ..
  · exact .refl s

theorem flank_writeRecord (s : State) (r : Record) : Flank s (s.writeRecord r) := ⟨beside_writeRecord .., (reported_writeRecord ..).forwards⟩

theorem flank_beginCut (s : State) (p : Nat) : Flank s (s.beginCut p) := by
  refine ⟨beside_beginCut .., ?_⟩
  unfold State.beginCut
  simp only
  split
  · exact fun _ => rfl
  · split
    · exact fun _ => rfl
    · exact (reported_writeRecord ..).forwards

theorem flank_stepBoundary (s : State) (p g a b : Nat) : Flank s (s.stepBoundary p g a b) := by
  unfold State.stepBoundary
  simp only
  split
  · exact flank_beginCut ..
  · exact .refl s

end Sys2Proof.Machine
end


section
/-! PROOFS, shared by O47, O48, O49 and O58. What passes through every function below a step of the machine: a property of states that asks only about memory's form, the
contexts, the number of partitions and the forwarding entries passes each function that writes memory through `Memory.writeBytes` and leaves the others as they are. -/

namespace Sys2Proof.Machine

/-- A property of memory's form, the contexts, the number of partitions and the clusters' forwarding entries. -/
structure Invariant where
  holds : State → Prop
  flank : ∀ {s t}, holds s → Flank s t → holds t
  same : ∀ {s t : State}, holds s → t.mem = s.mem → t.ctxs = s.ctxs → t.partitions = s.partitions →
    (∀ c, (t.cluster c).forwards = (s.cluster c).forwards) → holds t

/-- The state has the property. -/
def State.Keeps (I : Invariant) (s : State) : Prop := I.holds s

/-- What `Except.map` answers comes from an answer. -/
theorem ok_of_map_eq_ok {ε α β : Type} {x : Except ε α} {f : α → β} {b : β} (e : x.map f = .ok b) : ∃ a, x = .ok a ∧ f a = b := by
  cases x <;> cases e
  exact ⟨_, rfl, rfl⟩

/-- A check keeps it, whatever it answers. -/
def Checked.Keeps {α : Type} (I : Invariant) (x : Checked α) : Prop := x.st.Keeps I

theorem Checked.Keeps.of_ok {I : Invariant} {α : Type} {x : Checked α} {a t} (h : Checked.Keeps I x) (e : x = .ok a t) : t.Keeps I := by rw [e] at h; exact h
theorem Checked.Keeps.of_fault {I : Invariant} {α : Type} {x : Checked α} {c a t} (h : Checked.Keeps I x) (e : x = .fault c a t) : t.Keeps I := by rw [e] at h; exact h
theorem Checked.Keeps.of_wait {I : Invariant} {α : Type} {x : Checked α} {t} (h : Checked.Keeps I x) (e : x = .wait t) : t.Keeps I := by rw [e] at h; exact h

theorem Checked.Keeps.ite {I : Invariant} {α : Type} {c : Prop} [Decidable c] {x y : Checked α} (hx : Checked.Keeps I x) (hy : Checked.Keeps I y) :
    Checked.Keeps I (if c then x else y) := by
  split <;> assumption


namespace State.Keeps

variable {I : Invariant} {s t : State}

theorem flank (h : s.Keeps I) (b : Flank s t) : t.Keeps I := I.flank h b

theorem beside (h : s.Keeps I) (b : Beside s t) (a : Apart s t) : t.Keeps I := h.flank (a.flank b)

theorem same (h : s.Keeps I) (mem : t.mem = s.mem) (ctxs : t.ctxs = s.ctxs) (partitions : t.partitions = s.partitions)
    (forwards : ∀ c, (t.cluster c).forwards = (s.cluster c).forwards) : t.Keeps I := I.same h mem ctxs partitions forwards

/-- A change of nothing that the property asks about. -/
theorem of_eq (h : s.Keeps I) (mem : t.mem = s.mem) (ctxs : t.ctxs = s.ctxs) (partitions : t.partitions = s.partitions)
    (clusters : t.clusters = s.clusters) : t.Keeps I := h.same mem ctxs partitions fun c => by rw [State.cluster, clusters, State.cluster]

/-- A fold of functions that keep it. -/
theorem foldl {α : Type} {f : State → α → State} (step : ∀ {s a}, s.Keeps I → (f s a).Keeps I) :
    ∀ {l : List α} {s : State}, s.Keeps I → (l.foldl f s).Keeps I
  | [], _, h => h
  | a :: l, s, h => show (l.foldl f (f s a)).Keeps I from foldl (fun h => step h) (step h)

theorem ite {c : Prop} [Decidable c] (hs : s.Keeps I) (ht : t.Keeps I) : (if c then s else t).Keeps I := by split <;> assumption

theorem modGang {k f} (h : s.Keeps I) : (s.modGang k f).Keeps I := h.of_eq (modGang_mem ..) (modGang_ctxs ..) (modGang_partitions ..) (modGang_clusters ..)
theorem modSkein {g k f} (h : s.Keeps I) : (s.modSkein g k f).Keeps I := h.of_eq (modSkein_mem ..) (modSkein_ctxs ..) (modSkein_partitions ..) (modSkein_clusters ..)
theorem modWorld {w f} (h : s.Keeps I) : (s.modWorld w f).Keeps I := h.of_eq rfl rfl rfl rfl
theorem modCluster {c f} (h : s.Keeps I) (kept : ∀ k, (f k).forwards = k.forwards := by exact fun _ => rfl) : (s.modCluster c f).Keeps I :=
  h.same rfl rfl rfl (reported_modCluster _ _ kept).forwards
theorem modCore {c f} (h : s.Keeps I) : (s.modCore c f).Keeps I := h.of_eq rfl rfl rfl rfl
theorem modPart {p f} (h : s.Keeps I) : (s.modPart p f).Keeps I := h.of_eq rfl rfl rfl rfl
theorem modGrid {k f} (h : s.Keeps I) : (s.modGrid k f).Keeps I := h.of_eq rfl rfl rfl rfl
theorem draw (h : s.Keeps I) : s.draw.Keeps I := h.of_eq rfl rfl rfl rfl
theorem raise {w v} (h : s.Keeps I) : (s.raise w v).Keeps I := h.of_eq rfl rfl rfl rfl
theorem takeKey (h : s.Keeps I) : s.takeKey.2.Keeps I := h.of_eq rfl rfl rfl rfl
theorem clearTried (h : s.Keeps I) : s.clearTried.Keeps I := h.of_eq rfl rfl rfl rfl

theorem writeDev {w a bs} (h : s.Keeps I) (e : s.writeDev w a bs = .ok t) : t.Keeps I := h.beside (beside_writeDev e) (apart_writeDev e)
theorem writeDirty {x} (h : s.Keeps I) : (s.writeDirty x).Keeps I := h.beside (beside_writeDirty ..) (apart_writeDirty ..)
theorem markExt {a} (h : s.Keeps I) : (s.markExt a).Keeps I := h.beside (beside_markExt ..) (apart_markExt ..)
theorem countUncorr {l} (h : s.Keeps I) : (s.countUncorr l).Keeps I := h.beside (beside_countUncorr ..) (apart_countUncorr ..)
theorem writeBackLine {c x} (h : s.Keeps I) : (s.writeBackLine c x).Keeps I := h.beside (beside_writeBackLine ..) (apart_writeBackLine ..)
theorem writeBackAll {c} (h : s.Keeps I) : (s.writeBackAll c).Keeps I := h.beside (beside_writeBackAll ..) (apart_writeBackAll ..)
theorem pushLine {c x} (h : s.Keeps I) : (s.pushLine c x).Keeps I := h.beside (beside_pushLine ..) (apart_pushLine ..)
theorem pushPrivate {v} (h : s.Keeps I) : (s.pushPrivate v).Keeps I := h.beside (beside_pushPrivate ..) (apart_pushPrivate ..)
theorem shedPrivate {v p} (h : s.Keeps I) : (s.shedPrivate v p).Keeps I := h.beside (beside_shedPrivate ..) (apart_shedPrivate ..)
theorem acquireCaches {v n} (h : s.Keeps I) : (s.acquireCaches v n).Keeps I := h.beside (beside_acquireCaches ..) (apart_acquireCaches ..)
theorem releaseCaches {v n} (h : s.Keeps I) : (s.releaseCaches v n).Keeps I := h.beside (beside_releaseCaches ..) (apart_releaseCaches ..)
theorem publish {c w l} (h : s.Keeps I) : (s.publish c w l).Keeps I := h.beside (beside_publish ..) (apart_publish ..)
theorem dropLine {c l w} (h : s.Keeps I) : (s.dropLine c l w).Keeps I := h.beside (beside_dropLine ..) (apart_dropLine ..)
theorem cleanOne {c l w} (h : s.Keeps I) : (s.cleanOne c l w).Keeps I := h.beside (beside_cleanOne ..) (apart_cleanOne ..)
theorem putPort {p a bs} (h : s.Keeps I) : (s.putPort p a bs).Keeps I := h.beside (beside_putPort ..) (apart_putPort ..)
theorem putNow {p a bs} (h : s.Keeps I) : (s.putNow p a bs).Keeps I := h.beside (beside_putNow ..) (apart_putNow ..)
theorem readHome {v w n p bs'} (h : s.Keeps I) (e : s.readHome v w n p = .ok (bs', t)) : t.Keeps I := h.beside (beside_readHome e) (apart_readHome e)
theorem writeHome {v w n p bs} (h : s.Keeps I) (e : s.writeHome v w n p bs = .ok t) : t.Keeps I := h.beside (beside_writeHome e) (apart_writeHome e)
theorem readParts {v w n ps bs'} (h : s.Keeps I) (e : s.readParts v w n ps = .ok (bs', t)) : t.Keeps I := h.beside (beside_readParts _ e) (apart_readParts _ e)
theorem writeParts {v w n ps bs} (h : s.Keeps I) (e : s.writeParts v w n ps bs = .ok t) : t.Keeps I := h.beside (beside_writeParts _ e) (apart_writeParts _ e)
theorem shadowRange {a n} (h : s.Keeps I) : (s.shadowRange a n).Keeps I := h.beside (beside_shadowRange ..) (apart_shadowRange ..)
theorem hostFrame {w a b} (h : s.Keeps I) : Checked.Keeps I (s.hostFrame w a b) := h.beside (beside_hostFrame ..) (apart_hostFrame ..)
theorem checkOnce {x w f a v n l} (h : s.Keeps I) : Checked.Keeps I (s.checkOnce x w f a v n l) := h.beside (beside_checkOnce ..) (apart_checkOnce ..)
theorem checkGlobal {x w f a v n l} (h : s.Keeps I) : Checked.Keeps I (s.checkGlobal x w f a v n l) := h.beside (beside_checkGlobal ..) (apart_checkGlobal ..)
theorem checkScratch {c w v n l} (h : s.Keeps I) : Checked.Keeps I (s.checkScratch c w v n l) := h.beside (beside_checkScratch ..) (apart_checkScratch ..)
theorem readGlobal {x w a n bs'} (h : s.Keeps I) (e : s.readGlobal x w a n = .ok (bs', t)) : t.Keeps I := h.beside (beside_readGlobal e) (apart_readGlobal e)
theorem writeGlobal {x w a bs} (h : s.Keeps I) (e : s.writeGlobal x w a bs = .ok t) : t.Keeps I := h.beside (beside_writeGlobal e) (apart_writeGlobal e)
theorem writeRecord {r} (h : s.Keeps I) : (s.writeRecord r).Keeps I := h.flank (flank_writeRecord ..)
theorem trace {c x r} (h : s.Keeps I) : (s.trace c x r).Keeps I := h.flank ⟨beside_trace .., (reported_trace ..).forwards⟩
theorem ordering {g f} (h : s.Keeps I) : (s.ordering g f).Keeps I := h.flank (flank_ordering ..)
theorem ordOutside (h : s.Keeps I) : s.ordOutside.Keeps I := h.flank (flank_ordOutside ..)
theorem ordMeet {gs} (h : s.Keeps I) : (s.ordMeet gs).Keeps I := h.flank (flank_ordMeet ..)
theorem ordPerform {g a r q l ps b} (h : s.Keeps I) : (s.ordPerform g a r q l ps b).Keeps I := h.flank (flank_ordPerform ..)
theorem ordOp {g e q p} (h : s.Keeps I) : (s.ordOp g e q p).Keeps I := h.flank (flank_ordOp ..)
theorem markLeaves {p f b} (h : s.Keeps I) : (s.markLeaves p f b).Keeps I := h.beside (beside_markLeaves ..) (apart_markLeaves ..)
theorem shadowFrame {f} (h : s.Keeps I) : (s.shadowFrame f).Keeps I := h.beside (beside_shadowFrame ..) (apart_shadowFrame ..)
theorem beginCut {p} (h : s.Keeps I) : (s.beginCut p).Keeps I := h.flank (flank_beginCut ..)
theorem stepBoundary {p g a b} (h : s.Keeps I) : (s.stepBoundary p g a b).Keeps I := h.flank (flank_stepBoundary ..)

theorem flushAll {c} (h : s.Keeps I) : (s.flushAll c).Keeps I := (foldl pushPrivate h).writeBackAll

theorem cleanLine {c l w} (h : s.Keeps I) : (s.cleanLine c l w).Keeps I := by
  have shed : ((stakesOf c).foldl (fun s core => match findLine (s.core core).cache l w with
      | some x => if x.isDirty then
          (s.pushLine c x).modCore core fun k => { k with cache := putLine k.cache { x with dirty := List.replicate 128 false } }
        else s
      | none => s) s).Keeps I := by
    refine foldl (fun h => ?_) h
    split
    · exact ite h.pushLine.modCore h
    · exact h
  unfold State.cleanLine
  simp only
  split
  · exact shed.writeBackLine
  · exact shed

theorem releaseFootprints {c} (h : s.Keeps I) : (s.releaseFootprints c).Keeps I := h.modCluster
theorem leaveBanks {g} (h : s.Keeps I) : (s.leaveBanks g).Keeps I := h.modCluster

theorem settleFootprint {k} (h : s.Keeps I) : (s.settleFootprint k).Keeps I := by
  unfold State.settleFootprint
  split
  · exact ite h.releaseFootprints h
  · exact h

theorem closeEntry {g k n} (h : s.Keeps I) : (s.closeEntry g k n).Keeps I :=
  ite h.modSkein.settleFootprint (h.modSkein.settleFootprint.of_eq rfl rfl rfl rfl)

theorem closeId {id} (h : s.Keeps I) : (s.closeId id).Keeps I := h.closeEntry

theorem setPool {g a n} (h : s.Keeps I) : (s.setPool g a n).Keeps I := by
  unfold State.setPool
  split
  next e => exact h.writeGlobal e
  · exact h

theorem settleSpan {g} (h : s.Keeps I) : (s.settleSpan g).Keeps I := ite (foldl modGang (foldl acquireCaches h.ordMeet)) h

theorem settleGridStep {n} (h : s.Keeps I) : (s.settleGridStep n).Keeps I := by
  unfold State.settleGridStep
  simp only
  split
  · exact h
  · exact ite h.modGrid.stepBoundary h.modGrid

theorem reportUnconsumed {g k sk us} (h : s.Keeps I) : (s.reportUnconsumed g k sk us).Keeps I := foldl (fun h => h.writeRecord.modSkein.closeEntry) h

theorem releaseSlots {g} (h : s.Keeps I) : (s.releaseSlots g).Keeps I := h.of_eq rfl rfl rfl rfl
theorem mapCounters {g f} (h : s.Keeps I) : (s.mapCounters g f).Keeps I := h.of_eq rfl rfl rfl rfl
theorem addCounter {g n k} (h : s.Keeps I) : (s.addCounter g n k).Keeps I := h.of_eq rfl rfl rfl rfl
theorem modQueue {w q f} (h : s.Keeps I) : (s.modQueue w q f).Keeps I := h.of_eq rfl rfl rfl rfl

theorem dropView {c x} (h : s.Keeps I) : (s.dropView c x).Keeps I := ite h h.modCore

theorem endGang {k} (h : s.Keeps I) : (s.endGang k).Keeps I := by
  unfold State.endGang
  split
  · exact h
  next g _ =>
    refine ite h ?_
    have reported : ((rangeFrom 0 g.skeins.length).foldl (fun s n => match s.skein k n with
        | some sk => s.reportUnconsumed g n sk (sk.live.map (·.2.uid))
        | none => s) s).Keeps I := by
      refine foldl (fun h => ?_) h
      split
      · exact h.reportUnconsumed
      · exact h
    refine settleGridStep (settleSpan (releaseFootprints (dropView (releaseSlots (leaveBanks (modGang ?_))))))
    split
    · exact ite reported reported.setPool
    · exact reported

theorem tracePacket {w q n p} (h : s.Keeps I) : (s.tracePacket w q n p).Keeps I := h.trace

theorem closePacket {w q n} (h : s.Keeps I) : (s.closePacket w q n).Keeps I := by
  unfold State.closePacket
  split
  · exact h
  · exact ite h.modQueue.tracePacket.raise h.modQueue.tracePacket

theorem endRoutine {k} (h : s.Keeps I) : (s.endRoutine k).Keeps I := by
  unfold State.endRoutine
  split
  · exact h
  next g _ =>
    have reported : State.Keeps (I := I) (match s.skein k 0 with
        | some sk => s.reportUnconsumed g 0 sk (sk.live.map (·.2.uid))
        | none => s) := by
      split
      · exact h.reportUnconsumed
      · exact h
    simp only
    split
    · exact closePacket (leaveBanks (modGang reported))
    · exact leaveBanks (modGang reported)

theorem traceBatch {g k n x m d} (h : s.Keeps I) : (s.traceBatch g k n x m d).Keeps I := h.trace

theorem takeFaults {g k m rs} (h : s.Keeps I) : (s.takeFaults g k m rs).Keeps I := by
  unfold State.takeFaults
  split
  · split
    · exact h
    · refine ite h.writeRecord.endRoutine (ite h.writeRecord.endGang (ite h.modSkein ?_))
      exact ite (writeRecord (traceBatch (foldl modSkein h))) (traceBatch (foldl modSkein h))
  · exact h

theorem serveRequests {c} : ∀ {n} {s : State}, s.Keeps I → (s.serveRequests c n).Keeps I
  | 0, _, h => h
  | n + 1, s, h => by
    unfold State.serveRequests
    simp only
    split
    · exact h
    · exact serveRequests h.modGang

theorem resolveMigrate {k} (h : s.Keeps I) : (s.resolveMigrate k).Keeps I := by
  unfold State.resolveMigrate
  split
  · exact h
  · refine ite h (ite (foldl (fun h => ?_) h) ?_)
    · split
      · exact h
      · exact h.takeFaults
    · simp only
      split
      · exact trace (addCounter (modGang h.serveRequests))
      · exact modGang (takeKey h.serveRequests)

theorem traceJoins {k} (h : s.Keeps I) : (s.traceJoins k).Keeps I := by
  unfold State.traceJoins
  split
  · exact h
  · refine foldl (fun h => ?_) h
    split
    · exact h
    · exact foldl traceBatch h

theorem settleGang {k} (h : s.Keeps I) : (s.settleGang k).Keeps I := by
  unfold State.settleGang
  simp only
  split
  · exact h.traceJoins.modGang
  next g _ =>
    have settled {f} : (((s.traceJoins k).modGang k f).settleSpan g |>.settleGridStep g.grid).Keeps I := h.traceJoins.modGang.settleSpan.settleGridStep
    exact ite settled (ite settled.resolveMigrate (ite settled.endRoutine (ite settled.endGang settled)))

theorem writeOwn {p a bs} (h : s.Keeps I) (e : s.writeOwn p a bs = .ok t) : t.Keeps I := by
  obtain ⟨u, e1, e2⟩ := ok_of_map_eq_ok e
  cases e2
  exact (h.shadowRange.writeDev e1).markExt

theorem keepParked {w a cs} (h : s.Keeps I) : (s.keepParked w a cs).Keeps I := by
  have put {s : State} {n bs} (h : s.Keeps I) : State.Keeps (I := I) (match s.writeOwn (partOfWorld w) n bs with | .ok s1 => s1 | .error _ => s) := by
    split
    next e => exact h.writeOwn e
    · exact h
  exact put (foldl put h)

theorem writePieces {w} : ∀ {l bs} {s : State}, s.Keeps I → (s.writePieces w l bs).Keeps I
  | [], _, _, h => h
  | (a, n) :: l, bs, s, h => by
    unfold State.writePieces
    refine writePieces ?_
    split
    next e => exact (h.shadowRange.writeDev e).markExt
    · exact h.shadowRange

theorem writeArea {c n bs} (h : s.Keeps I) : (s.writeArea c n bs).Keeps I := h.writePieces
theorem writeHeader {c a} (h : s.Keeps I) : (s.writeHeader c a).Keeps I := h.writeArea

theorem addSpill {c x} (h : s.Keeps I) : (s.addSpill c x).Keeps I := ite (h.of_eq rfl rfl rfl rfl) (ite h.writeArea.writeHeader (h.of_eq rfl rfl rfl rfl))

theorem putOp {id o} (h : s.Keeps I) : (s.putOp id o).Keeps I := h.modSkein

theorem evictTags {p n} (h : s.Keeps I) : (s.evictTags p n).Keeps I := by
  refine ite h (foldl (fun h => ?_) h)
  refine ite h ?_
  split
  · exact addSpill (h.of_eq rfl rfl rfl rfl)
  · exact h

theorem makeTagRoom {e o} (h : s.Keeps I) : (s.makeTagRoom e o).Keeps I := foldl evictTags h

theorem recordTag {e q p v} (h : s.Keeps I) : (s.recordTag e q p v).Keeps I := ite (h.of_eq rfl rfl rfl rfl) h

theorem writeFar {id c p bs} (h : s.Keeps I) : (s.writeFar id c p bs).Keeps I := h.putPort.of_eq rfl rfl rfl rfl

theorem readOld {v w n p bs} (h : s.Keeps I) (e : s.readOld v w n p = .ok (bs, t)) : t.Keeps I := by
  unfold State.readOld at e
  split at e
  · cases e; exact h
  · exact h.readHome e

theorem writeOp {id v w n p bs} (h : s.Keeps I) (e : s.writeOp id v w n p bs = .ok t) : t.Keeps I := by
  unfold State.writeOp at e
  split at e
  · cases e; exact h.writeFar
  · exact h.writeHome e

theorem performPiece {id g e q p v} (h : s.Keeps I) (eq : s.performPiece id g e q p = .ok (v, t)) : t.Keeps I := by
  unfold State.performPiece at eq
  simp only at eq
  split at eq
  · cases eq; exact h
  · split at eq
    · cases eq
    · have fenced : State.Keeps (I := I) (if e.acquire && !p.unordered then
          (if e.release && !p.unordered then (s.ordOp g e q p).releaseCaches g.via (e.scopeAt p) else s.ordOp g e q p).acquireCaches g.via (e.scopeAt p)
        else if e.release && !p.unordered then (s.ordOp g e q p).releaseCaches g.via (e.scopeAt p) else s.ordOp g e q p) :=
        ite (ite h.ordOp.releaseCaches h.ordOp).acquireCaches (ite h.ordOp.releaseCaches h.ordOp)
      split at eq
      · obtain ⟨⟨bs, u⟩, e1, e2⟩ := ok_of_map_eq_ok eq
        cases e2
        exact fenced.readHome e1
      · split at eq
        · split at eq
          · cases eq; exact fenced.publish.recordTag
          · obtain ⟨u, e1, e2⟩ := ok_of_map_eq_ok eq
            cases e2
            exact (fenced.writeOp e1).recordTag
        · split at eq
          · cases eq; exact fenced.cleanLine
          · split at eq
            · cases eq; exact fenced.dropLine
            · split at eq
              · cases eq
                split
                next e1 =>
                  split at e1
                  · exact fenced.beside (beside_holdPrivate e1) (apart_holdPrivate e1)
                  · exact fenced.beside (beside_holdLine e1) (apart_holdLine e1)
                · exact fenced
              · split at eq
                · cases eq
                next e1 =>
                  obtain ⟨u, e2, e3⟩ := ok_of_map_eq_ok eq
                  cases e3
                  exact ((fenced.readOld e1).writeOp e2).recordTag

theorem performPieces {id g e got} : ∀ {l i bs} {s t : State}, s.Keeps I → s.performPieces id g e got i l = .ok (bs, t) → t.Keeps I
  | [], _, _, _, _, h, eq => by cases eq; exact h
  | q :: l, i, bs, s, t, h, eq => by
    unfold State.performPieces at eq
    split at eq
    · exact performPieces h eq
    · split at eq
      · cases eq
      next e1 =>
        obtain ⟨⟨_, u⟩, e2, e3⟩ := ok_of_map_eq_ok eq
        cases e3
        split at e1
        · exact performPieces (h.performPiece e1) e2
        · cases e1; exact performPieces h e2

theorem performOp {id g e o v} (h : s.Keeps I) (eq : s.performOp id g e o = .ok (v, t)) : t.Keeps I := by
  obtain ⟨⟨_, u⟩, e1, e2⟩ := ok_of_map_eq_ok eq
  cases e2
  exact h.performPieces e1

theorem noteBad {g k e o c} (h : s.Keeps I) : (s.noteBad g k e o c).Keeps I := ite h.countUncorr.writeRecord h

theorem failOp {id n c} (h : s.Keeps I) : (s.failOp id n c).Keeps I := by
  unfold State.failOp
  split
  · exact h
  · split
    · exact h
    · refine ite h (ite (ite h.noteBad.putOp h.noteBad.putOp.modSkein) (closeId ?_))
      exact ite h.noteBad.writeRecord.putOp.modSkein h.noteBad.writeRecord.putOp

theorem putLogValue {g e o v} (h : s.Keeps I) : (s.putLogValue g e o v).Keeps I := by
  refine ite h (foldl (fun h => ?_) h)
  split
  next e => exact h.writeDev e
  · exact h

theorem deliver {id g e o v} (h : s.Keeps I) : (s.deliver id g e o v).Keeps I := h.putLogValue.modSkein.putOp.closeId

theorem askReplay {g e o} (h : s.Keeps I) : Checked.Keeps I (s.askReplay g e o) := by
  unfold State.askReplay
  refine Checked.Keeps.ite h.checkScratch (Checked.Keeps.ite ?_ ?_)
  · split
    next e => exact h.checkOnce.of_ok e
    next e => exact h.checkOnce.of_fault e
    next e => exact h.checkOnce.of_wait e
  · split
    next e => exact h.checkGlobal.of_ok e
    · exact h.checkGlobal

theorem refuseAtom {id g e o} (h : s.Keeps I) : (s.refuseAtom id g e o).Keeps I := by
  refine (fun ended => ite (writeRecord ended) (takeFaults (modSkein ended))) ?_
  exact ite h.putOp.modSkein.closeId h.putOp

theorem completeAtom {id g e o n v} (h : s.Keeps I) : (s.completeAtom id g e o n v).Keeps I := by
  have seen {f} : (s.ordOutside.ordering g f).Keeps I := h.ordOutside.ordering
  have acquired {f} : State.Keeps (I := I) (if e.acquire then (s.ordOutside.ordering g f).acquireCaches g.via 5 else s.ordOutside.ordering g f) :=
    ite seen.acquireCaches seen
  have ended {u : State} (hu : u.Keeps I) : State.Keeps (I := I) (if (u.located id).any (fun q => q.2.2.finished) then
      (u.modSkein id.gang id.skein fun y => y.ackEntry id.seq).closeId id else u) := ite hu.modSkein.closeId hu
  exact ite (ended (ite acquired.deliver acquired.putOp.closeId)) (ite h.refuseAtom h.failOp)

theorem agentRead {v a n} (h : s.Keeps I) : Checked.Keeps I (s.agentRead v a n) := by
  unfold State.agentRead
  split
  · exact h
  · split
    next e => exact h.checkGlobal.of_fault e
    next e => exact h.checkGlobal.of_wait e
    next e =>
      have checked := h.checkGlobal.of_ok e
      split
      · exact checked
      · split
        · exact checked
        next e1 => exact checked.readParts e1

theorem agentChecks {v} : ∀ {l} {s : State}, s.Keeps I → Checked.Keeps I (s.agentChecks v l)
  | [], _, h => h
  | (a, bs) :: l, s, h => by
    unfold State.agentChecks
    split
    · exact agentChecks h
    · split
      next e => exact h.checkGlobal.of_fault e
      next e => exact h.checkGlobal.of_wait e
      next e =>
        have checked := h.checkGlobal.of_ok e
        split
        · exact checked
        · split
          · exact checked
          · split
            next e1 => exact (agentChecks checked).of_ok e1
            · exact agentChecks checked

theorem agentPerform {v} : ∀ {l} {s : State}, s.Keeps I → Checked.Keeps I (s.agentPerform v l)
  | [], _, h => h
  | q :: l, s, h => by
    unfold State.agentPerform
    split
    · exact h
    next e =>
      simp only
      split
      next e1 => exact (agentPerform (h.writeParts e)).of_ok e1
      · exact agentPerform (h.writeParts e)

theorem agentWrites {v l} (h : s.Keeps I) : Checked.Keeps I (s.agentWrites v l) := by
  unfold State.agentWrites
  split
  next e => exact agentPerform (h.agentChecks.of_ok e)
  next e => exact h.agentChecks.of_fault e
  next e => exact h.agentChecks.of_wait e

theorem monRead {g n ps v} (h : s.Keeps I) (e : s.monRead g n ps = .ok (v, t)) : t.Keeps I := by
  unfold State.monRead at e
  simp only at e
  split at e
  · cases e
  · obtain ⟨⟨_, u⟩, e1, e2⟩ := ok_of_map_eq_ok e
    cases e2
    exact h.ordering.acquireCaches.readParts e1

theorem endMonitor {id o f} (h : s.Keeps I) : (s.endMonitor id o f).Keeps I := h.modSkein.putOp.closeId

theorem failMonitor {id o c a} (h : s.Keeps I) : (s.failMonitor id o c a).Keeps I := h.endMonitor.takeFaults

theorem reread {id n} (h : s.Keeps I) : (s.reread id n).Keeps I := by
  unfold State.reread
  split
  · exact h
  · split
    · exact h
    · refine ite h ?_
      split
      next e => exact h.askReplay.of_wait e
      next e => exact (h.askReplay.of_fault e).failMonitor
      next e =>
        have asked := h.askReplay.of_ok e
        refine ite asked.putOp ?_
        split
        · exact asked.failMonitor
        next e1 => exact ite (asked.monRead e1).endMonitor (asked.monRead e1).putOp

theorem pushTile {g r} (h : s.Keeps I) : (s.pushTile g r).Keeps I := h.of_eq rfl rfl rfl rfl

theorem setStat {g n x} (h : s.Keeps I) : (s.setStat g n x).Keeps I := h.of_eq rfl rfl rfl rfl
theorem modTile {id f} (h : s.Keeps I) : (s.modTile id f).Keeps I := h.modSkein

theorem readRange {v} : ∀ {f a n} {s : State}, s.Keeps I → Checked.Keeps I (s.readRange v f a n)
  | 0, _, _, _, h => h
  | f + 1, a, n, s, h => by
    unfold State.readRange
    refine Checked.Keeps.ite h ?_
    simp only
    split
    next e =>
      have read := h.agentRead.of_ok e
      split
      next e1 => exact (readRange read).of_ok e1
      · exact readRange read
    · exact h.agentRead

theorem reopen {g f} (h : s.Keeps I) : (s.reopen g f).Keeps I := by
  unfold State.reopen
  split
  · refine ite h ?_
    split
    next e =>
      split
      · exact (h.readRange.of_ok e).modCore
      · exact (h.readRange.of_ok e).modCore
    next e => exact (h.readRange.of_fault e).modCore
    next e => exact h.readRange.of_wait e
  · exact h

theorem readPoint {v d i} (h : s.Keeps I) : Checked.Keeps I (s.readPoint v d i) := by
  unfold State.readPoint
  simp only
  split
  next e => exact h.readRange.of_fault e
  next e => exact h.readRange.of_wait e
  next e =>
    have read := h.readRange.of_ok e
    split
    next e1 => exact read.readRange.of_fault e1
    next e1 => exact read.readRange.of_wait e1
    next e1 => exact read.readRange.of_ok e1

theorem readPoints {v d} : ∀ {n i} {s : State}, s.Keeps I → Checked.Keeps I (s.readPoints v d n i)
  | 0, _, _, h => h
  | n + 1, i, s, h => by
    unfold State.readPoints
    split
    next e => exact h.readPoint.of_fault e
    next e => exact h.readPoint.of_wait e
    next e =>
      split
      next e1 => exact (readPoints (h.readPoint.of_ok e)).of_ok e1
      · exact readPoints (h.readPoint.of_ok e)

theorem acquireSync {c} (h : s.Keeps I) : (s.acquireSync c).Keeps I := h.beside (beside_acquireSync ..) (apart_acquireSync ..)

theorem rebuildGrid {k w bs q} (h : s.Keeps I) (e : s.rebuildGrid k w bs = some q) : q.2.Keeps I := by
  unfold State.rebuildGrid at e
  simp only at e
  split at e
  · cases e
  · cases e
    split
    · exact h
    · simp only
      split
      next e1 => exact h.takeKey.readPoints.of_ok e1
      · exact h.takeKey

theorem rebuildGrids {k w bs} : ∀ {n off q} {s : State}, s.Keeps I → s.rebuildGrids k w bs off n = some q → q.2.Keeps I
  | 0, _, _, _, h, e => by cases e; exact h
  | n + 1, off, q, s, h, e => by
    unfold State.rebuildGrids at e
    split at e
    · cases e
    next e1 =>
      obtain ⟨r, e2, rfl⟩ := Option.map_eq_some_iff.mp e
      exact rebuildGrids (q := r) (h.rebuildGrid e1) e2

theorem rebuild {c a bs gs slots} (h : s.Keeps I) (e : s.rebuild c a bs = some (gs, slots, t)) : t.Keeps I := by
  unfold State.rebuild at e
  split at e
  · cases e
  next e1 =>
    have grids := h.rebuildGrids e1
    simp only at e
    split at e
    · cases e
    · obtain ⟨_, _, made⟩ := Option.map_eq_some_iff.mp e
      cases made
      exact grids.of_eq rfl rfl rfl rfl

theorem fenceLeft {v b} : ∀ {l} {s : State}, s.Keeps I → Checked.Keeps I (s.fenceLeft v b l)
  | [], _, h => h
  | n :: l, s, h => by
    unfold State.fenceLeft
    split
    next e => exact h.agentRead.of_fault e
    next e =>
      split
      next e1 => exact (fenceLeft (h.agentRead.of_wait e)).of_ok e1
      · exact fenceLeft (h.agentRead.of_wait e)
    next e =>
      split
      next e1 => exact (fenceLeft (h.agentRead.of_ok e)).of_ok e1
      · exact fenceLeft (h.agentRead.of_ok e)

theorem settleNear {ks} (h : s.Keeps I) : (s.settleNear ks).Keeps I := by
  refine foldl (fun h => ?_) h
  split
  · exact h
  · split
    · exact h
    · split
      next e => exact (h.makeTagRoom.performOp e).putOp.closeId
      · exact h.failOp

theorem flushFrozen {c} (h : s.Keeps I) : (s.flushFrozen c).Keeps I :=
  ite (foldl shadowRange h) (flushAll (foldl shadowRange h))

theorem freshCaches {c} (h : s.Keeps I) : (s.freshCaches c).Keeps I := acquireSync (foldl shedPrivate h)

theorem spillTags {c} (h : s.Keeps I) : (s.spillTags c).Keeps I := foldl addSpill (h.of_eq rfl rfl rfl rfl)

theorem endMoves {ks} (h : s.Keeps I) : (s.endMoves ks).Keeps I := foldl modCore h

theorem unqueue {ks} (h : s.Keeps I) : (s.unqueue ks).Keeps I :=
  h.same rfl rfl rfl fun c => by
    have mapped := tget_map (fun _ k => ({ k with
      copyWait := k.copyWait.filter fun r => !refersTo ks r
      channels := k.channels.filter fun q => !refersTo ks q.2
      banks := k.banks.map fun q => (q.1, { q.2 with waiters := q.2.waiters.filter fun w => !ks.contains w.1 }) } : Cluster)) c s.clusters
    show ((tget (s.unqueue ks).clusters c).getD .reset).forwards = _
    rw [State.unqueue, mapped, State.cluster]
    cases tget s.clusters c <;> rfl

theorem replayOp {id n} (h : s.Keeps I) : (s.replayOp id n).Keeps I := by
  unfold State.replayOp
  split
  · exact h
  · split
    · exact h
    · refine ite h ?_
      simp only
      split
      next e =>
        have asked := h.askReplay.of_ok e
        exact ite asked.putOp.putOp.closeId asked.putOp
      next e => exact (h.askReplay.of_fault e).putOp.failOp
      next e => exact (h.askReplay.of_wait e).putOp.modSkein

theorem reack {id} (h : s.Keeps I) : (s.reack id).Keeps I := h.modSkein

theorem replayEntry {id} (h : s.Keeps I) : (s.replayEntry id).Keeps I := by
  unfold State.replayEntry
  split
  · exact h
  · exact ite (reack (foldl replayOp h)) (ite (foldl reread h) (ite h.modSkein.modCluster (ite (ite h h.modTile.pushTile) h)))

theorem countReplay {g e} (h : s.Keeps I) : (s.countReplay g e).Keeps I := h.mapCounters

theorem replayGang {k} (h : s.Keeps I) : (s.replayGang k).Keeps I := by
  unfold State.replayGang
  split
  · exact h
  · exact foldl (foldl fun h => h.replayEntry.countReplay) h

theorem deliverParked {c} (h : s.Keeps I) : (s.deliverParked c).Keeps I := by
  unfold State.deliverParked
  split
  · exact h
  · refine ite h.completeAtom (ite (ite h.deliver h.failOp) ?_)
    exact ite (closeId (modSkein (putOp (ite h h.writeRecord)))) (putOp (ite h h.writeRecord))

theorem matchParked {c} (h : s.Keeps I) : (s.matchParked c).Keeps I := by
  unfold State.matchParked
  extract_lets mine s1
  have parked : s1.Keeps I := by
    simp only [s1]
    split
    · exact h
    · exact ite (foldl deliverParked h.keepParked) h
  clear_value s1
  exact ite (modWorld (foldl deliverParked parked.modWorld)) (foldl deliverParked parked.modWorld)

theorem seatGang {k g} (h : s.Keeps I) (e : s.seatGang k g = some t) : t.Keeps I := by
  unfold State.seatGang at e
  split at e
  · cases e
  · cases e
    exact modCluster (s := { s with gangs := s.gangs ++ [_] }) (f := fun k => { k with idle := false }) (h.of_eq rfl rfl rfl rfl)

theorem seatGangs {k} : ∀ {l : List Gang} {o : Option State} {t}, (∀ s ∈ o, s.Keeps I) →
    l.foldl (fun o g => o.bind fun s => s.seatGang k g) o = some t → t.Keeps I
  | [], _, _, h, e => h _ e
  | g :: l, o, t, h, e => by
    refine seatGangs (l := l) (o := o.bind fun s => s.seatGang k g) (fun s hs => ?_) e
    obtain ⟨u, hu, e1⟩ := Option.bind_eq_some_iff.mp hs
    exact (h u hu).seatGang e1

theorem seatSlot {x} (h : s.Keeps I) : (s.seatSlot x).Keeps I := by
  unfold State.seatSlot
  split
  · exact h
  · have held {g : Gang} : State.Keeps (I := I) (match x.held with | some y => s.setStat g x.slot { y with holder := some x.gang } | none => s) := by
      split
      · exact h.setStat
      · exact h
    simp only
    split
    · exact held
    · exact reopen (modCore held)

theorem requeueReleases {l} (h : s.Keeps I) : (s.requeueReleases l).Keeps I := by
  refine foldl (fun h => ?_) h
  split
  · exact h.pushTile
  · exact h

theorem areaGangs {c a gs sl} (h : s.Keeps I) (e : s.areaGangs c a = .ok (some (gs, sl, t))) : t.Keeps I := by
  unfold State.areaGangs at e
  split at e
  · cases e
  · simp only at e
    split at e
    · cases e
    · split at e
      · cases e; exact h
      · split at e
        · cases e; exact h
        · exact h.rebuild (Except.ok.inj e)


end State.Keeps

/-- To have a state's contexts, number of partitions and forwarding entries. -/
def booksOf (s : State) : Invariant where
  holds t := t.ctxs = s.ctxs ∧ t.partitions = s.partitions ∧ ∀ c, (t.cluster c).forwards = (s.cluster c).forwards
  flank h b := ⟨b.beside.ctxs.trans h.1, b.beside.partitions.trans h.2.1, fun c => (b.forwards c).trans (h.2.2 c)⟩
  same h _ ctxs partitions forwards := ⟨ctxs.trans h.1, partitions.trans h.2.1, fun c => (forwards c).trans (h.2.2 c)⟩

theorem State.keeps_booksOf (s : State) : s.Keeps (booksOf s) := ⟨rfl, rfl, fun _ => rfl⟩

end Sys2Proof.Machine
end


section
/-! PROOFS, O58. Memory stays in its canonical form.  Only a few functions write memory, each through `Memory.writeBytes`, a filter, or an empty memory; for every
other function of the model the lemma here says that it passes the form on, in the order of the model's files. -/

namespace Sys2Proof.Machine

/-- Memory in its canonical form (notes/assumptions/4). -/
def wellFormed : Invariant where
  holds s := s.mem.wf = true
  flank h b := b.beside.wf h
  same h mem _ _ _ := (congrArg Memory.wf mem).trans h

abbrev State.Formed (s : State) : Prop := s.Keeps wellFormed

/-! ### The form in what a function answers -/

abbrev Checked.Formed {α : Type} (x : Checked α) : Prop := Checked.Keeps wellFormed x

/-- The effect of an instruction leaves memory in its form. -/
def Result.Formed : Result → Prop
  | .done _ s | .held _ s | .again s => s.Formed

theorem Result.Formed.of_done {r : Result} {o t} (h : r.Formed) (e : r = .done o t) : t.Formed := by rw [e] at h; exact h
theorem Result.Formed.of_held {r : Result} {w t} (h : r.Formed) (e : r = .held w t) : t.Formed := by rw [e] at h; exact h
theorem Result.Formed.of_again {r : Result} {t} (h : r.Formed) (e : r = .again t) : t.Formed := by rw [e] at h; exact h

/-- Where an outcome is a next state, memory is in its form there. -/
def NextFormed : Host.Outcome State Fault Refusal → Prop
  | .next s => s.Formed
  | _ => True

theorem NextFormed.ite {c : Prop} [Decidable c] {r q : Host.Outcome State Fault Refusal} (hr : NextFormed r) (hq : NextFormed q) :
    NextFormed (if c then r else q) := by split <;> assumption

namespace State.Keeps

variable {s t : State}

theorem of_mem (h : s.Formed) (e : t.mem = s.mem) : t.Formed := (congrArg Memory.wf e).trans h

theorem of_beside (h : s.Formed) (b : Beside s t) : t.Formed := b.wf h

/-! ### Parts of the state by number -/

theorem modCtx {k f} (h : s.Formed) : (s.modCtx k f).Formed := h
/-! ### Caches, translation and reports -/

theorem modTraceRegs {c o f} (h : s.Formed) : (s.modTraceRegs c o f).Formed := h.of_beside (beside_modTraceRegs ..)
theorem putTrace {c o x bs} (h : s.Formed) (e : s.putTrace c o x bs = some t) : t.Formed := h.of_beside (beside_putTrace e)
theorem cleanPrivate {n l w} (h : s.Formed) : (s.cleanPrivate n l w).Formed := by
  unfold State.cleanPrivate
  split
  · exact ite h h.pushLine
  · exact h

theorem dropCode {c n l w} (h : s.Formed) : (s.dropCode c n l w).Formed := by
  unfold State.dropCode
  split <;> exact h

theorem readGlobalLong {x w} : ∀ {n a k bs} {s t : State}, s.Formed → s.readGlobalLong x w n a k = .ok (bs, t) → t.Formed
  | 0, _, _, _, _, _, h, e => by cases e; exact h
  | n + 1, a, k, bs, s, t, h, e => by
    unfold State.readGlobalLong at e
    split at e
    · cases e; exact h
    · simp only at e
      split at e
      · cases e
      next e1 =>
        split at e
        · cases e
        next e2 => cases e; exact readGlobalLong (h.readGlobal e1) e2

theorem writeGlobalLong {x w} : ∀ {n a bs} {s t : State}, s.Formed → s.writeGlobalLong x w n a bs = .ok t → t.Formed
  | 0, _, _, _, _, h, e => by cases e; exact h
  | n + 1, a, bs, s, t, h, e => by
    unfold State.writeGlobalLong at e
    split at e
    · cases e; exact h
    · simp only at e
      split at e
      · cases e
      next e1 => exact writeGlobalLong (h.writeGlobal e1) e

/-! ### Fetches -/

theorem codeLine {g w l bs} (h : s.Formed) (e : s.codeLine g w l = .ok (bs, t)) : t.Formed := by
  unfold State.codeLine at e
  simp only at e
  split at e
  · cases e; exact h
  · split at e
    · cases e; exact h
    · split at e
      · cases e
      next e1 => cases e; exact (h.readHome e1 :)

theorem readCode {g w} : ∀ {l bs} {s t : State}, s.Formed → s.readCode g w l = .ok (bs, t) → t.Formed
  | [], _, _, _, h, e => by cases e; exact h
  | (a, n) :: l, bs, s, t, h, e => by
    unfold State.readCode at e
    split at e
    · cases e
    next e1 =>
      split at e
      · cases e
      next e2 => cases e; exact readCode (h.codeLine e1) e2

theorem readFetch {g w ps bs} (h : s.Formed) (e : s.readFetch g w ps = .ok (bs, t)) : t.Formed := by
  unfold State.readFetch at e
  split at e
  · exact h.readCode e
  · exact h.readParts e

theorem fetchWord {g pc} (h : s.Formed) : (s.fetchWord g pc).Formed := by
  unfold State.fetchWord
  split
  next e => exact h.checkGlobal.of_fault e
  next e => exact h.checkGlobal.of_wait e
  next e =>
    split
    · exact h.checkGlobal.of_ok e
    next e1 => exact (h.checkGlobal.of_ok e).readFetch e1

theorem ordLaunch {p k} (h : s.Formed) : (s.ordLaunch p k).Formed := ite h.ordOutside h.ordOutside

/-! ### The end of an issue: entries, records, gangs, packets -/

theorem addEntry {b e} (h : s.Formed) : (s.addEntry b e).Formed := h.modSkein
theorem takeTag {g} (h : s.Formed) : (s.takeTag g).2.Formed := h
theorem takeCsn {g} (h : s.Formed) : (s.takeCsn g).2.Formed := h
theorem countIssue {b m n} (h : s.Formed) : (s.countIssue b m n).Formed := h
theorem traceFlow {b l} (h : s.Formed) : (s.traceFlow b l).Formed := by
  unfold State.traceFlow
  split
  · exact h
  next x _ _ =>
    have jumped : State.Formed (match b.all.findSome? fun p => l.findSome? fun o => if o.1 = p.1 then (match o.2 with | .jump _ t => some t | _ => none) else none with
        | some t => s.traceBatch b.g b.k 2 x b.amask t
        | none => s) := by
      split
      · exact h.traceBatch
      · exact h
    simp only
    split
    · exact ite jumped jumped.traceBatch
    · exact jumped

theorem finish {b ready outs} (h : s.Formed) : (s.finish b ready outs).Formed :=
  settleGang (reportUnconsumed (takeFaults (traceFlow (ite (clearTried (modSkein h)) (countIssue (clearTried (modSkein h)))))))

theorem holdBatch {b w} (h : s.Formed) : (s.holdBatch b w).Formed := h.takeKey.modSkein

theorem waitIssued {b r w l} (h : s.Formed) : (s.waitIssued b r w l).Formed := h.takeKey.finish

theorem consume {b n c} (h : s.Formed) : (s.consume b n c).Formed := h.modSkein.closeEntry

theorem checkConsumers {b i} : ∀ {l} {s : State}, s.Formed → (s.checkConsumers b i l).2.2.Formed
  | [], _, h => h
  | (_, _) :: l, s, h => by
    unfold State.checkConsumers
    split
    · exact checkConsumers h.consume
    · exact checkConsumers h

/-- An instruction whose effect passes the form on does so when it issues, faults, waits or is held. -/
theorem issueChecked {i pre body} (h : s.Formed) (effect : ∀ b s, s.Formed → (body b s).Formed) : NextFormed (s.issueChecked i pre body) := by
  unfold State.issueChecked
  split
  · trivial
  next b ready _ =>
    simp only
    split
    · exact finish (s := { s with issue := none }) h
    · have consumed : ((({ s with issue := none } : State).checkConsumers b i (b.all.filter fun p => (needOf i).h.g.passes p.2.pw)).2.2).Formed :=
        checkConsumers (s := { s with issue := none }) h
      generalize ({ s with issue := none } : State).checkConsumers b i (b.all.filter fun p => (needOf i).h.g.passes p.2.pw) = q at consumed ⊢
      have made := fun b => effect b _ consumed
      split
      next e => exact ((made _).of_done e).finish
      next e => exact NextFormed.ite ((made _).of_held e).waitIssued (NextFormed.ite ((made _).of_held e).holdBatch ((made _).of_held e).finish)
      next e => exact NextFormed.ite ((made _).of_again e).clearTried ((made _).of_again e).finish

theorem issueWith {i body} (h : s.Formed) (effect : ∀ b s, s.Formed → (body b s).Formed) : NextFormed (s.issueWith i body) :=
  h.issueChecked effect

theorem perFibre {i f} (h : s.Formed) : NextFormed (s.perFibre i f) := h.issueWith fun _ _ h => h

end State.Keeps

/-- What the log makes of an operation leaves memory in its form. -/
def Logged.Formed : Logged → Prop
  | .recorded _ s => s.Formed
  | _ => True

/-- The answers of a batch's accesses leave memory in its form. -/
def Asked.Formed : Asked → Prop
  | .wait s | .done _ _ s => s.Formed

theorem Logged.Formed.of_recorded {x : Logged} {i t} (h : x.Formed) (e : x = .recorded i t) : t.Formed := by rw [e] at h; exact h
theorem Asked.Formed.of_wait {x : Asked} {t} (h : x.Formed) (e : x = .wait t) : t.Formed := by rw [e] at h; exact h
theorem Asked.Formed.of_done {x : Asked} {f o t} (h : x.Formed) (e : x = .done f o t) : t.Formed := by rw [e] at h; exact h

/-- A request written to the ring leaves memory in its form, whatever becomes of it. -/
def Requested.Formed : Requested → Prop
  | .sent _ s | .wait s | .failed _ _ s => s.Formed
  | .full => True

/-- The requests of a batch leave memory in its form. -/
def Requests.Formed : Requests → Prop
  | .hold s | .done _ _ s => s.Formed

theorem Requested.Formed.of_sent {x : Requested} {n t} (h : x.Formed) (e : x = .sent n t) : t.Formed := by rw [e] at h; exact h
theorem Requested.Formed.of_wait {x : Requested} {t} (h : x.Formed) (e : x = .wait t) : t.Formed := by rw [e] at h; exact h
theorem Requested.Formed.of_failed {x : Requested} {c a t} (h : x.Formed) (e : x = .failed c a t) : t.Formed := by rw [e] at h; exact h
theorem Requests.Formed.of_hold {x : Requests} {t} (h : x.Formed) (e : x = .hold t) : t.Formed := by rw [e] at h; exact h
theorem Requests.Formed.of_done {x : Requests} {o b t} (h : x.Formed) (e : x = .done o b t) : t.Formed := by rw [e] at h; exact h

theorem Result.Formed.ite {c : Prop} [Decidable c] {r q : Result} (hr : r.Formed) (hq : q.Formed) : (if c then r else q).Formed := by
  split <;> assumption

/-- `putLog`, whatever writes its bytes: `writeDev` on bytes that are written out is too much to evaluate where the recursion is unfolded. -/
def State.putLogBy (write : State → Nat → Nat → List Byte → Except FaultCode State) (s : State) (g : Gang) (k slot kind size seq : Nat) :
    Nat → Nat → Nat → Option State
  | 0, _, _ => some s
  | n + 1, i, v =>
    match write s (s.worldOf g) (s.logEntryAt g i) (logBytes k slot kind size seq (v % 2 ^ 64)) with
    | .ok s' => State.putLogBy write s' g k slot kind size seq n (i + 1) (v / 2 ^ 64)
    | .error _ => none

theorem State.putLog_eq (s : State) (g : Gang) (k slot kind size seq n i v : Nat) :
    s.putLog g k slot kind size seq n i v = State.putLogBy State.writeDev s g k slot kind size seq n i v := by
  delta State.putLog State.putLogBy
  rfl

namespace State.Keeps

variable {s t : State}

/-! ### The replay log -/

theorem putLogBy {write : State → Nat → Nat → List Byte → Except FaultCode State}
    (writes : ∀ {s t w a bs}, s.Formed → write s w a bs = .ok t → t.Formed) {g k n kind size seq} :
    ∀ {m i v} {s : State}, s.Formed → s.putLogBy write g k n kind size seq m i v = some t → t.Formed
  | 0, _, _, _, h, e => by cases e; exact h
  | m + 1, i, v, s, h, e => by
    unfold State.putLogBy at e
    split at e
    next e1 => exact putLogBy writes (writes h e1) e
    · cases e

theorem putLog {g k n kind size seq m i v} (h : s.Formed) (e : s.putLog g k n kind size seq m i v = some t) : t.Formed :=
  putLogBy writeDev h (State.putLog_eq .. ▸ e)

theorem logged {g k n x kind m v} (h : s.Formed) : (s.logged g k n x kind m v).Formed := by
  unfold State.logged
  split
  · trivial
  · split
    · trivial
    · split
      · split
        · trivial
        · split
          next e => exact (h.putLog e).modGang
          · trivial
      · split
        · split
          · trivial
          · trivial
        · trivial

theorem throughLog {g k n x kind m v v' x'} (h : s.Formed) (e : s.throughLog g k n x kind m v = some (v', x', t)) : t.Formed := by
  unfold State.throughLog at e
  split at e
  · cases e; exact h
  next e1 => cases e; exact h.logged.of_recorded e1
  · cases e; exact h
  · cases e

theorem inOrder {f : State → Nat → Fibre → Out × State} (step : ∀ s n x, s.Formed → (f s n x).2.Formed) :
    ∀ {l} {s : State}, s.Formed → (s.inOrder f l).2.Formed
  | [], _, h => h
  | (n, x) :: l, s, h => show ((f s n x).2.inOrder f l).2.Formed from inOrder step (step _ _ _ h)

/-! ### Memory accesses at issue -/

theorem askAll {b f} : ∀ {l} {s : State}, s.Formed → (s.askAll b f l).Formed
  | [], _, h => h
  | (t, x) :: l, s, h => by
    have b1 := h.of_beside (beside_checkAsk s b x (f t x))
    have asked : (s.checkAsk b x (f t x)).Formed := b1
    unfold State.askAll
    split
    next e => exact asked.of_wait e
    next e =>
      have rest := askAll (b := b) (f := f) (l := l) (asked.of_fault e)
      split
      next e1 => exact rest.of_wait e1
      next e1 => exact rest.of_done e1
    next e =>
      have rest := askAll (b := b) (f := f) (l := l) (asked.of_ok e)
      split
      next e1 => exact rest.of_wait e1
      next e1 => exact rest.of_done e1

theorem recordMem {b x m ops} (h : s.Formed) : (s.recordMem b x m ops).Formed := ite h.addEntry h.takeTag.addEntry

/-- A handle-local access, as `performLocal` makes it for one fibre. -/
theorem performLocal {b m mk} : ∀ {l} {s : State}, s.Formed → (s.performLocal b m mk l).2.Formed
  | [], _, h => h
  | (n, x, ps) :: l, s, h => by
    unfold State.performLocal
    simp only
    split
    · exact performLocal h
    next e =>
      refine performLocal ?_
      split at e
      · cases e
      next e1 =>
        split at e
        · cases e; exact h.readParts e1
        · obtain ⟨u, e2, e3⟩ := ok_of_map_eq_ok e
          cases e3
          exact (h.readParts e1).writeParts e2

theorem issueLocal {b m ask mk} (h : s.Formed) : (s.issueLocal b m ask mk).Formed := by
  unfold State.issueLocal
  split
  next e => exact h.askAll.of_wait e
  next e => exact performLocal (h.askAll.of_done e)

/-! ### Host-assisted atomics -/

theorem request {w l f} (h : s.Formed) : (s.request w l f).Formed := by
  unfold State.request
  split
  · exact h
  · simp only
    split
    · trivial
    · split
      · exact h
      · split
        next e => exact h.hostFrame.of_wait e
        next e => exact h.hostFrame.of_fault e
        next e => exact (h.hostFrame.of_ok e).putNow.modWorld.raise

theorem requestAll {w tag aop size} : ∀ {l busy} {s : State}, s.Formed → (s.requestAll w tag aop size busy l).Formed
  | [], _, _, h => h
  | o :: l, busy, s, h => by
    unfold State.requestAll
    split
    · have rest := requestAll (w := w) (tag := tag) (aop := aop) (size := size) (l := l) (busy := busy) h
      split
      next e => exact rest.of_hold e
      next e => exact rest.of_done e
    · split
      · exact h
      next e => exact h.request.of_wait e
      next e =>
        have rest := requestAll (w := w) (tag := tag) (aop := aop) (size := size) (l := l) (busy := busy) (h.request.of_failed e)
        split
        next e => exact rest.of_hold e
        next e => exact rest.of_done e
      next j _ e =>
        have rest := requestAll (w := w) (tag := tag) (aop := aop) (size := size) (l := l) (busy := j :: busy) (h.request.of_sent e)
        split
        next e => exact rest.of_hold e
        next e => exact rest.of_done e

/-! ### The shared issue of accesses -/

theorem issueMem {b m ask mk} (h : s.Formed) : (s.issueMem b m ask mk).Formed := by
  unfold State.issueMem
  refine Result.Formed.ite h.issueLocal ?_
  split
  · exact h
  · refine Result.Formed.ite h ?_
    split
    next e => exact h.askAll.of_wait e
    next e =>
      have asked := h.askAll.of_done e
      refine Result.Formed.ite h (Result.Formed.ite asked (Result.Formed.ite h ?_))
      simp only
      refine Result.Formed.ite (ite asked.releaseCaches asked).recordMem ?_
      split
      next e1 => exact h
      next e1 =>
        have sent := (ite asked.releaseCaches asked).requestAll.of_done e1
        refine (fun reported => ite reported reported.recordMem) (foldl (fun h => ?_) sent)
        refine (fun refused => ite (writeRecord refused) refused) ?_
        split
        · exact h.writeRecord
        · exact h

theorem logLoads {b n} : ∀ {l} {s : State}, s.Formed → (s.logLoads b n l).2.2.2.Formed
  | [], _, h => h
  | o :: l, s, h => by
    unfold State.logLoads
    simp only
    split
    · exact logLoads h
    · split
      · exact logLoads h
      · split
        · exact logLoads h
        next e => exact logLoads (h.logged.of_recorded e)
        · exact logLoads h
        · exact logLoads h

theorem issueLoad {b m ask mk} (h : s.Formed) : (s.issueLoad b m ask mk).Formed := by
  unfold State.issueLoad
  refine Result.Formed.ite h.issueLocal ?_
  split
  · exact h
  · refine Result.Formed.ite h ?_
    split
    next e => exact h.askAll.of_wait e
    next e =>
      have asked := h.askAll.of_done e
      exact ite asked.logLoads asked.logLoads.recordMem

theorem recordCache {b x k ops} (h : s.Formed) : (s.recordCache b x k ops).Formed := ite h h.addEntry

theorem issueCache {b k a f} (h : s.Formed) : (s.issueCache b k a f).Formed := by
  unfold State.issueCache
  split
  · exact h
  · split
    next e => exact h.askAll.of_wait e
    next e => exact (h.askAll.of_done e).recordCache

/-! ### The parking area and save areas -/

theorem holdAtPort {w c why} (h : s.Formed) : (s.holdAtPort w c why).Formed := by
  unfold State.holdAtPort
  simp only
  split
  · exact h.modWorld.writeRecord.modWorld
  · exact h.modWorld

theorem park {w c} (h : s.Formed) : (s.park w c).Formed := by
  unfold State.park
  refine ite h.holdAtPort ?_
  split
  · exact h.holdAtPort
  · refine ite h.holdAtPort ?_
    split
    · exact h.holdAtPort
    next e =>
      split
      · exact h.holdAtPort
      next e1 => exact (h.writeOwn e).writeOwn e1

theorem markCmpl {tag} (h : s.Formed) : (s.markCmpl tag).Formed := h

theorem parkFor {c} (h : s.Formed) : (s.parkFor c).Formed := by
  unfold State.parkFor
  split
  · exact h
  · exact ite h h.park.markCmpl

theorem lowerLate {k} (h : s.Formed) : (s.lowerLate k).Formed := by
  unfold State.lowerLate
  split
  · exact h
  · exact h.modCtx.writeHeader

/-! ### Operations performed -/

theorem completeLoad {id n} (h : s.Formed) : (s.completeLoad id n).Formed := by
  unfold State.completeLoad
  split
  · exact h
  · split
    · exact h
    · refine ite h ?_
      split
      · exact h.deliver
      · refine ite h.makeTagRoom ?_
        split
        next e =>
          have performed := h.makeTagRoom.performOp e
          exact (ite (foldl (fun h => ite h.putOp h) performed) performed).deliver
        · exact h.makeTagRoom.failOp
      · exact h

theorem performStore {id n} (h : s.Formed) : (s.performStore id n).Formed := by
  unfold State.performStore
  split
  · exact h
  · split
    · exact h
    · have room {e o} : (s.makeTagRoom e o).Formed := h.makeTagRoom
      refine ite room (ite room (ite room ?_))
      split
      next e => exact (room.performOp e).putOp.closeId
      · exact room.failOp

theorem performPart {id n i} (h : s.Formed) : (s.performPart id n i).Formed := by
  unfold State.performPart
  split
  · exact h
  · split
    · exact h
    · split
      · refine ite h.makeTagRoom ?_
        split
        next e => exact (h.makeTagRoom.performPiece e).putOp
        · exact h.makeTagRoom.failOp
      · exact h

theorem performNear {id n} (h : s.Formed) : (s.performNear id n).Formed := by
  unfold State.performNear
  split
  · exact h
  · split
    · exact h
    · refine ite h ?_
      split
      next e => exact (h.writeParts e).putOp
      · exact h.failOp

theorem performLate {id n} (h : s.Formed) : (s.performLate id n).Formed := by
  unfold State.performLate
  split
  · exact h
  · split
    · exact h
    · refine ite h ?_
      have performed {c : Context} {g e o} : State.Formed (match s.performOp id g e o with
          | .error _ => s
          | .ok (_, s1) => (s1.tags.drop s.tags.length).foldl (fun s t => s.addSpill c t)
              { s1 with tags := s1.tags.take s.tags.length, far := s1.far.filter fun f => f.op != id }) := by
        split
        · exact h
        next e1 => exact foldl addSpill ((h.performOp e1).of_mem rfl)
      exact ite performed.modCtx.modCtx.lowerLate performed.modCtx.modCtx

theorem acceptAtPort {id} (h : s.Formed) : (s.acceptAtPort id).Formed := by
  unfold State.acceptAtPort
  split
  · exact h
  · refine ite h (modSkein ?_)
    split
    · exact h.takeTag
    · exact h

theorem ackWrite {id} (h : s.Formed) : (s.ackWrite id).Formed := by
  unfold State.ackWrite
  split
  · exact h
  · exact ite h h.modSkein.closeId

theorem hostAtomicDone {w v} (h : s.Formed) : NextFormed (execHostAtomicDone w v s) := by
  unfold execHostAtomicDone
  split
  · exact h
  · refine NextFormed.ite h ?_
    split
    next e =>
      have read := h.hostFrame.of_ok e
      refine NextFormed.ite h ?_
      split
      · exact NextFormed.ite read.completeAtom.clearTried read
      · simp only
        split
        · exact NextFormed.ite (r := .next _) read.parkFor read
        · exact read
    · exact h

/-! ### Accesses by an engine or the parser -/

theorem agentUpdate {v a f} (h : s.Formed) : (s.agentUpdate v a f).Formed := by
  unfold State.agentUpdate
  split
  next e => exact h.agentRead.of_fault e
  next e => exact h.agentRead.of_wait e
  next e =>
    have read := h.agentRead.of_ok e
    split
    next e => exact read.agentWrites.of_fault e
    next e => exact read.agentWrites.of_wait e
    next e => exact read.agentWrites.of_ok e

theorem packetRecord {w q pc hc n c a} (h : s.Formed) : (s.packetRecord w q pc hc n c a).Formed := h.writeRecord

theorem completePacket {w q n add} (h : s.Formed) : (s.completePacket w q n add).2.Formed := by
  unfold State.completePacket
  split
  · exact h
  · simp only
    split
    · exact h.closePacket
    · split
      · exact h.packetRecord.closePacket
      · split
        next e => exact (h.writeBackAll.agentUpdate.of_ok e).closePacket
        next e => exact h.writeBackAll.agentUpdate.of_wait e
        next e => exact (h.writeBackAll.agentUpdate.of_fault e).packetRecord.closePacket

end State.Keeps

/-- Where a created fibre went, memory is in its form. -/
def Placed.Formed : Placed → Prop
  | .slot _ s | .pool s | .fault _ _ s => s.Formed

theorem Placed.Formed.of_slot {x : Placed} {n t} (h : x.Formed) (e : x = .slot n t) : t.Formed := by rw [e] at h; exact h
theorem Placed.Formed.of_pool {x : Placed} {t} (h : x.Formed) (e : x = .pool t) : t.Formed := by rw [e] at h; exact h
theorem Placed.Formed.of_fault {x : Placed} {c a t} (h : x.Formed) (e : x = .fault c a t) : t.Formed := by rw [e] at h; exact h

namespace State.Keeps

variable {s t : State}

/-! ### Fibres created (spec/02 R39 to R44) -/

theorem badHeader {g} (h : s.Formed) : (s.badHeader g).Formed := h.modGang.writeRecord

theorem placeChild {g k c x} (h : s.Formed) : (s.placeChild g k c x).Formed := by
  unfold State.placeChild
  split
  · exact h
  · split
    · exact h.modSkein
    · split
      · exact h
      · split
        · exact h
        next e =>
          have read := h.readGlobal e
          simp only
          split
          · exact read.badHeader
          · split
            · exact read
            · split
              · exact read
              next e1 =>
                split
                · exact read
                next e2 => exact (read.writeGlobalLong e1).writeGlobal e2

theorem createAll {b make} : ∀ {l} {s : State}, s.Formed → (s.createAll b make l).2.Formed
  | [], _, h => h
  | (t, x) :: l, s, h => by
    unfold State.createAll
    simp only
    split
    · exact createAll h
    · split
      next e => exact createAll (h.takeKey.placeChild.of_fault e)
      next e => exact createAll (h.takeKey.placeChild.of_slot e)
      next e => exact createAll (h.takeKey.placeChild.of_pool e)

/-! ### Fences, monitors, deposits and banks -/

theorem ordFence {g o n} (h : s.Formed) : (s.ordFence g o n).Formed := h.of_beside (beside_ordFence ..)

theorem fenceCaches {v o n} (h : s.Formed) : (s.fenceCaches v o n).Formed :=
  ite (ite h.releaseCaches h).acquireCaches (ite h.releaseCaches h)

/-- What becomes of a monitor at its first read passes the form on. -/
def Passes (f : State → Nat → Fibre → SlotOp → Option (Out × State)) : Prop :=
  ∀ {s n x o out t}, s.Formed → f s n x o = some (out, t) → t.Formed

theorem firstReads {b m hit miss} (hits : Passes hit) (misses : Passes miss) :
    ∀ {l} {s : State}, s.Formed → (s.firstReads b m hit miss l).2.2.Formed
  | [], _, h => h
  | (n, x, o) :: l, s, h => by
    unfold State.firstReads
    split
    · exact firstReads hits misses h
    next e =>
      have read := h.monRead e
      simp only
      split
      next e1 =>
        refine firstReads hits misses ?_
        split at e1
        · exact hits read e1
        · exact misses read e1
      · exact firstReads hits misses read

theorem monitors {b f k hit miss} (hits : Passes hit) (misses : Passes miss) (h : s.Formed) : (s.monitors b f k hit miss).Formed := by
  unfold State.monitors
  simp only
  split
  · exact h
  · split
    next e => exact h.askAll.of_wait e
    next e =>
      have asked := h.askAll.of_done e
      refine Result.Formed.ite asked ?_
      exact ite (firstReads hits misses asked) (firstReads hits misses asked).addEntry

theorem testAnswer_passes {b k} : Passes (testAnswer b k) := by
  intro s n x o out t h e
  unfold testAnswer at e
  split at e
  next e1 => cases e; exact h.throughLog e1
  · cases e; exact h

theorem depositAll {g e} (h : s.Formed) : (s.depositAll g e).Formed :=
  (modSkein (foldl modSkein h) : State.Formed (State.modSkein _ _ _ _))

theorem arriveDeposit {id} (h : s.Formed) : (s.arriveDeposit id).Formed := by
  unfold State.arriveDeposit
  split
  · exact h
  · refine ite h ?_
    split
    · exact h.modSkein
    · refine ite h (ite h.modSkein (ite h.evictTags (modSkein (depositAll ?_))))
      exact ite h.evictTags.releaseCaches.ordering h.evictTags

theorem arriveSpan {id} (h : s.Formed) : (s.arriveSpan id).Formed := by
  unfold State.arriveSpan
  split
  · exact h
  · exact ite h h.modSkein.releaseCaches.settleSpan

/-! ### The tile array (spec/10 R262 to R276) -/

theorem writeScratch {c a bs} (h : s.Formed) : (s.writeScratch c a bs).Formed := by
  unfold State.writeScratch
  split
  next e => exact h.writeHome e
  · exact h

theorem writeScratchAll {c l} (h : s.Formed) : (s.writeScratchAll c l).Formed := foldl writeScratch h

theorem enterQuarters {b k n mk} : ∀ {l} {s : State}, s.Formed → (s.enterQuarters b k n mk l).2.Formed
  | [], _, h => h
  | q :: l, s, h => by
    unfold State.enterQuarters
    split
    · exact enterQuarters h
    · simp only
      split
      · exact enterQuarters h
      · exact enterQuarters h.addEntry.pushTile

theorem issueTile {b k mk} (h : s.Formed) : (s.issueTile b k mk).Formed :=
  Result.Formed.ite h (Result.Formed.ite h h.enterQuarters)

theorem popTile {c} (h : s.Formed) : (s.popTile c).Formed := h
theorem startGroup {k} : ∀ {l} {s : State}, s.Formed → (s.startGroup k l).Formed
  | [], _, h => h
  | .release _ _ :: _, _, h => h
  | .op id :: l, s, h => by
    unfold State.startGroup
    split
    · split
      · exact startGroup h.modTile
      · exact h
    · exact h

theorem startTile {c} (h : s.Formed) : (s.startTile c).Formed := by
  unfold State.startTile
  split
  · exact h
  · exact h.popTile.modCore
  · split
    · exact h.popTile
    · split
      · exact h.popTile
      · refine ite h ?_
        simp only
        split
        · exact h.modTile.startGroup
        · exact h.modTile

theorem endTile {c id} (h : s.Formed) : (s.endTile c id).Formed := h.modSkein.popTile.closeId

theorem settleMma {g k n} (h : s.Formed) : (s.settleMma g k n).Formed := by
  unfold State.settleMma
  split
  · exact h
  · exact ite h (takeFaults (foldl modSkein (foldl modSkein h)))

theorem failTile {c id g e f a} (h : s.Formed) : (s.failTile c id g e f a).Formed := ite h.writeRecord.endTile.settleMma h.writeRecord.endTile

theorem emptyTile {c id e} (h : s.Formed) : (s.emptyTile c id e).Formed := h.modSkein.popTile.settleMma

theorem getSlot {c id x o} (h : s.Formed) : (s.getSlot c id x o).Formed := by
  unfold State.getSlot
  simp only
  split
  · exact h.modSkein.putOp
  · exact h.putOp

theorem tileUnit {c} (h : s.Formed) : (s.tileUnit c).Formed := by
  unfold State.tileUnit
  split
  next id _ =>
    split
    · exact h
    next g sk e _ =>
      split
      · exact h
      next t _ =>
        refine ite h (ite (closeId (popTile ?_)) ?_)
        · have got : (e.ops.foldl (fun (s : State) o => s.getSlot g.cluster id t o) s).Formed := foldl getSlot h
          split
          · exact got.reportUnconsumed
          · exact got
        · extract_lets u fill out passes
          have opened : u.Formed := by
            simp only [u]
            split
            · exact h.reopen
            · exact h
          refine ite opened.failTile (ite opened ?_)
          clear_value out passes
          cases out with
          | empty => exact opened.emptyTile
          | bad => exact opened.failTile
          | writes ws =>
            refine (fun landed => ite landed (ite (settleMma (endTile landed)) (endTile landed))) ?_
            exact ite (modSkein (writeScratchAll opened)) (addCounter (modSkein (writeScratchAll opened)))
  · exact h

theorem fillSlot {c} (h : s.Formed) : (s.fillSlot c).Formed := by
  unfold State.fillSlot
  split
  · split
    · exact h
    · split
      · exact h
      · refine ite h ?_
        simp only
        split
        · exact h.failTile
        · have filled {c f id} : ((s.modCore c f).endTile c id).Formed := h.modCore.endTile
          split
          · exact filled
          · split
            · exact filled
            · exact failTile (modCore (foldl modTile h))
  · exact h

/-! ### The copy engine (spec/10 R278 to R285) -/

theorem issueCopies {b k f mk} (h : s.Formed) : (s.issueCopies b k f mk).Formed := by
  unfold State.issueCopies
  split
  · exact h
  · refine Result.Formed.ite h (Result.Formed.ite h (modCluster (addEntry ?_)))
    refine (fun numbered => ?_) (?_ : State.Formed (if b.g.kind = .handle then s.takeCsn b.g else (0, s)).2)
    · split
      · exact numbered.takeTag
      · exact numbered
    · split
      · exact h.takeCsn
      · exact h

theorem spaceRead {v b a n} (h : s.Formed) : (s.spaceRead v b a n).Formed := by
  unfold State.spaceRead
  refine Checked.Keeps.ite h.agentRead ?_
  split
  · exact h
  · split <;> exact h

theorem readLong {v b} : ∀ {f a n} {s : State}, s.Formed → (s.readLong v b f a n).Formed
  | 0, _, _, _, h => h
  | f + 1, a, n, s, h => by
    unfold State.readLong
    refine Checked.Keeps.ite h ?_
    simp only
    split
    next e => exact h.spaceRead.of_fault e
    next e => exact h.spaceRead.of_wait e
    next e =>
      have read := h.spaceRead.of_ok e
      split
      next e1 => exact (readLong read).of_ok e1
      · exact readLong read

theorem landPieces {c w l} (h : s.Formed) (e : s.landPieces c w l = .ok t) : t.Formed := by
  unfold State.landPieces at e
  split at e
  · cases e
  · cases e; exact h.writeScratchAll

theorem spaceWrites {v b l} (h : s.Formed) : (s.spaceWrites v b l).Formed := by
  unfold State.spaceWrites
  refine Checked.Keeps.ite h.agentWrites ?_
  split
  next e => exact h.landPieces e
  · exact h

theorem gather {v r c} : ∀ {l} {s : State}, s.Formed → (s.gather v r c l).Formed
  | [], _, h => h
  | (row, i) :: l, s, h => by
    unfold State.gather
    extract_lets one
    have read : one.Formed := by
      simp only [one]
      split
      · exact h
      next a _ =>
        split
        next e => split <;> exact h.agentRead.of_ok e
        · exact h.agentRead
    clear_value one
    split
    · exact read
    · exact read
    · split
      next e => exact (gather read).of_ok e
      next e => exact (gather read).of_fault e
      next e => exact (gather read).of_wait e

theorem landAll {w r els} : ∀ {l} {s t : State}, s.Formed → s.landAll w r els l = .ok t → t.Formed
  | [], _, _, h, e => by cases e; exact h
  | (g, n) :: l, s, t, h, e => by
    unfold State.landAll at e
    split at e
    · exact landAll h e
    · split at e
      · cases e
      next e1 => exact landAll (h.landPieces e1) e

theorem burstData {v c} (h : s.Formed) : (s.burstData v c).Formed := Checked.Keeps.ite h.gather h

theorem burst {v k f c} (h : s.Formed) : (s.burst v k f c).Formed := by
  unfold State.burst
  refine Checked.Keeps.ite (Checked.Keeps.ite ?_ ?_) (Checked.Keeps.ite h.spaceWrites ?_)
  · split
    · exact h
    · exact h.agentWrites
  · split
    next e => exact h.burstData.of_fault e
    next e => exact h.burstData.of_wait e
    next e =>
      have read := h.burstData.of_ok e
      split
      next e1 => exact read.landAll e1
      · exact read
  · extract_lets src held data
    have read : data.Formed := Checked.Keeps.ite h h.spaceRead
    clear_value data
    split
    · exact read
    · exact read
    · split
      · exact read
      · exact spaceWrites read

theorem modCopy {id n f} (h : s.Formed) : (s.modCopy id n f).Formed := h.modSkein

theorem endCopy {id n c} (h : s.Formed) : (s.endCopy id n c).Formed := h.modCopy.modSkein.modCluster.closeId

theorem failCopy {id n c ch g e f a} (h : s.Formed) : (s.failCopy id n c ch g e f a).Formed := h.writeRecord.endCopy

theorem beginCopy {id n c ch g e x} (h : s.Formed) : (s.beginCopy id n c ch g e x).Formed := by
  unfold State.beginCopy
  refine ite ?_ (ite ?_ h.modCopy.modCluster)
  · split
    next e => exact h.agentRead.of_wait e
    next e => exact (h.agentRead.of_fault e).failCopy
    next e => exact ite (h.agentRead.of_ok e).modCopy.modCluster (h.agentRead.of_ok e).failCopy
  · split
    next e => exact (h.readLong.of_ok e).modCopy.modCluster
    next e => exact h.readLong.of_wait e
    next e => exact h.readLong.of_fault e

theorem startCopy {c} (h : s.Formed) : (s.startCopy c).Formed := by
  unfold State.startCopy
  simp only
  split
  · split
    · exact h
    · split
      · exact h.beginCopy
      · exact h
  · exact h.modCluster
  · exact h

theorem recordUnit {c} (h : s.Formed) : (s.recordUnit c).Formed := by
  unfold State.recordUnit
  simp only
  split
  · split
    · exact h
    · split
      · exact h
      · refine ite h ?_
        split
        next e => exact (h.agentRead.of_ok e).modCopy
        · exact h
  · exact h

theorem stampOne {id e c p} (h : s.Formed) : (s.stampOne id e c p).Formed := by
  unfold State.stampOne
  refine Checked.Keeps.ite h (Checked.Keeps.ite h.modCopy ?_)
  extract_lets home u
  have room : u.Formed := by
    simp only [u]
    cases home with
    | some p => exact h.evictTags
    | none => exact h
  clear_value u home
  refine Checked.Keeps.ite room ?_
  split
  next e => cases home <;> exact (room.spaceWrites.of_ok e).modCopy
  · exact room.spaceWrites

theorem stampAll {id e c} : ∀ {l} {s : State}, s.Formed → (s.stampAll id e c l).Formed
  | [], _, h => h
  | p :: l, s, h => by
    unfold State.stampAll
    split
    next e =>
      split
      next e1 => exact (stampAll (h.stampOne.of_ok e)).of_ok e1
      · exact stampAll (h.stampOne.of_ok e)
    · exact h.stampOne

theorem oweAck {id x a n} (h : s.Formed) : (s.oweAck id x a n).Formed := ite h.modSkein h

theorem ordStamp {g} (h : s.Formed) : (s.ordStamp g).Formed := h.ordering

theorem ordBurst {g e c} (h : s.Formed) : (s.ordBurst g e c).Formed := ite (foldl (fun h => ite h h.ordPerform) h) h

theorem finishCopy {id n c ch} (h : s.Formed) : (s.finishCopy id n c ch).Formed := by
  unfold State.finishCopy
  split
  · exact h
  · split
    · exact h
    next g sk e _ _ x _ =>
      refine ite h (ite h.endCopy (ite h ?_))
      have ordered : ((if e.release && 4 ≤ e.scope then s.writeBackAll c else s).ordStamp g).Formed := (ite h.writeBackAll h).ordStamp
      simp only
      split
      next e1 => exact ordered.stampAll.of_wait e1
      next e1 => exact (ordered.stampAll.of_fault e1).failCopy
      next e1 => exact endCopy (foldl (fun h => ite h h.oweAck) (ordered.stampAll.of_ok e1))
      next e1 => exact (ordered.stampAll.of_ok e1).failCopy

theorem ackBurst {id g e c} (h : s.Formed) : (s.ackBurst id g e c).Formed := foldl (fun h => ite h.oweAck h) h

theorem copyStep {id n c ch} (h : s.Formed) : (s.copyStep id n c ch).Formed := by
  unfold State.copyStep
  split
  · exact h
  · split
    · exact h
    · refine ite (ite h ?_) h.finishCopy
      split
      next e => exact h.burst.of_wait e
      next e => exact (h.burst.of_fault e).failCopy
      next e => exact (h.burst.of_ok e).ackBurst.failCopy
      next e => exact (h.burst.of_ok e).ordBurst.ackBurst.modCopy.finishCopy

theorem landOne {c ch r} (h : s.Formed) : (s.landOne c ch r).Formed := by
  unfold State.landOne
  split
  · split
    · exact h
    · split
      · exact h
      · refine ite h ?_
        split
        · exact h
        next e _ => exact h.burstData.of_wait e
        next e _ => exact (h.burstData.of_fault e).failCopy
        next e =>
          have read := h.burstData.of_ok e
          split
          · exact read.failCopy
          next e1 =>
            have landed := read.landAll e1
            refine ite ?_ landed.modCopy
            split
            next e2 => exact landed.modCopy.stampAll.of_ok e2
            · exact landed.modCopy
  · exact h

theorem endPacketCopy {c ch w q n add} (h : s.Formed) : (s.endPacketCopy c ch w q n add).Formed := ite h.completePacket h.completePacket

theorem failPacketCopy {c ch w q n f a} (h : s.Formed) : (s.failPacketCopy c ch w q n f a).Formed := by
  unfold State.failPacketCopy
  split
  · exact h.writeRecord.endPacketCopy
  · exact h

theorem packetStep {c ch w q n x y k} (h : s.Formed) : (s.packetStep c ch w q n x y k).Formed := by
  refine ite ?_ h.endPacketCopy
  split
  next e => exact h.burst.of_wait e
  next e => exact (h.burst.of_fault e).failPacketCopy
  next e => exact (h.burst.of_ok e).failPacketCopy
  next e => exact ite (h.burst.of_ok e).modCluster (h.burst.of_ok e).modCluster.endPacketCopy

theorem enterHeld {c w} (h : s.Formed) : (s.enterHeld c w).Formed := by
  refine ite h ?_
  split
  · exact h
  · simp only
    split
    · exact h.modCluster.closePacket
    · exact h

/-! ### Launches, placement and refills (spec/12 R315 to R319) -/

theorem readLaunch {v a} (h : s.Formed) : (s.readLaunch v a).Formed := by
  unfold State.readLaunch
  split
  next e => exact h.readRange.of_fault e
  next e => exact h.readRange.of_wait e
  next e =>
    have read := h.readRange.of_ok e
    refine Checked.Keeps.ite read ?_
    split
    next e1 => exact read.readPoints.of_fault e1
    next e1 => exact read.readPoints.of_wait e1
    next e1 =>
      split
      · exact Checked.Keeps.ite (read.readPoints.of_ok e1) (read.readPoints.of_ok e1)
      · exact read.readPoints.of_ok e1

theorem acceptGrid {w x d eq p c l} (h : s.Formed) : (s.acceptGrid w x d eq p c l).Formed := ordLaunch (h.of_mem rfl)

theorem leaveWays {c l} (h : s.Formed) : (s.leaveWays c l).Formed := ite h (foldl writeDirty h).modCluster

theorem takeFootprint {c w g n l} (h : s.Formed) : (s.takeFootprint c w g n l).Formed := foldl (fun h => by exact ite h h) h.leaveWays

theorem placeGang {gr n c i k} (h : s.Formed) : (s.placeGang gr n c i k).Formed := by
  unfold State.placeGang
  refine ite h ?_
  split
  next e => exact (beside_writeGlobal e).wf h
  · exact modGang (writeRecord (h.of_mem rfl))

theorem placeSpan {g n c l} (h : s.Formed) : (s.placeSpan g n c l).Formed := by
  unfold State.placeSpan
  split
  · exact h
  · exact ite h (modCluster (modGrid (foldl placeGang h.takeFootprint)))

theorem poolRecord {g c a} (h : s.Formed) : (s.poolRecord g c a).Formed := h.writeRecord

theorem refill {k} (h : s.Formed) : (s.refill k).Formed := by
  unfold State.refill
  split
  · exact h
  next g _ =>
    refine ite h ?_
    have failed {u : State} {c a} (hu : u.Formed) : State.Formed (if g.anyLive then u.poolRecord g c a else (u.poolRecord g c a).endGang k) :=
      ite hu.poolRecord hu.poolRecord.endGang
    simp only
    split
    · exact failed h
    next e =>
      have read := h.readGlobal e
      refine ite (failed read.modGang) (ite read ?_)
      split
      · exact failed read
      next e1 =>
        have entry := read.readGlobalLong e1
        split
        · exact entry
        · exact setPool (modSkein entry.takeKey)

theorem completeGrid {g} (h : s.Formed) : (s.completeGrid g).Formed := by
  unfold State.completeGrid
  split
  · exact h
  · refine ite h (ite h ?_)
    have flushed {l : List Nat} : (l.foldl (fun s c => s.flushAll c) s).Formed := foldl flushAll h
    have gone {u : State} {l : List Nat} (hu : u.Formed) : (l.foldl (fun s c => s.releaseFootprints c) u).Formed := foldl releaseFootprints hu
    simp only
    split
    · exact ite (gone flushed.completePacket) flushed.completePacket
    · exact ite (gone (flushed.of_beside (beside_postEvent ..))) flushed

end State.Keeps

/-- What the body of a packet leaves, done or waiting, is in the form. -/
def BodyFormed : Except State State → Prop
  | .ok s | .error s => s.Formed

theorem BodyFormed.of_ok {x : Except State State} {t} (h : BodyFormed x) (e : x = .ok t) : t.Formed := by rw [e] at h; exact h
theorem BodyFormed.of_error {x : Except State State} {t} (h : BodyFormed x) (e : x = .error t) : t.Formed := by rw [e] at h; exact h

theorem BodyFormed.ite {c : Prop} [Decidable c] {x y : Except State State} (hx : BodyFormed x) (hy : BodyFormed y) : BodyFormed (if c then x else y) := by
  split <;> assumption

namespace State.Keeps

variable {s t : State}

/-! ### Weave tables and guest words (spec/16) -/

theorem putTable {c n bs} (h : s.Formed) : (s.putTable c n bs).Formed := h
theorem setWork {b w n} (h : s.Formed) : (s.setWork b w n).Formed := modSkein (modGang h)
theorem readUnit {g a n} (h : s.Formed) : (s.readUnit g a n).Formed := h.of_beside (beside_readUnit ..)

theorem wvload {f} (h : s.Formed) : NextFormed (execWvload f s) := by
  refine h.issueWith fun b s h => ?_
  split
  · exact h
  · refine Result.Formed.ite h.modGang (Result.Formed.ite h.modGang ?_)
    split
    next e => exact h.readUnit.of_wait e
    next e => exact h.readUnit.of_fault e
    next e =>
      have read := h.readUnit.of_ok e
      exact Result.Formed.ite read.modGang (Result.Formed.ite read.setWork (Result.Formed.ite read.putTable.modGang read.modGang))

theorem wvbind {f} (h : s.Formed) : NextFormed (execWvbind f s) := by
  refine h.issueWith fun b s h => ?_
  split <;> exact h

theorem loadTable {p c n a} (h : s.Formed) : (s.loadTable p c n a).2.Formed := by
  unfold State.loadTable
  split
  · exact h
  · split
    · exact h
    · split
      · exact h
      · split
        · exact h
        · simp only
          split <;> exact h

theorem loadTables {p n a} : ∀ {l} {s : State}, s.Formed → (s.loadTables p n a l).2.Formed
  | [], _, h => h
  | c :: _, s, h => loadTables (s := (s.loadTable p c n a).2) h.loadTable

theorem wvhctlWrite {p v} (h : s.Formed) : (s.wvhctlWrite p v).Formed := ite h (ite h.modPart h.loadTables.modPart)

theorem eiscfgWrite {p v} (h : s.Formed) : (s.eiscfgWrite p v).Formed := foldl modCluster h.modPart

theorem fetchParcels {g x} : ∀ {n a} {s : State}, s.Formed → (s.fetchParcels g x n a).Formed
  | 0, _, _, h => h
  | n + 1, a, s, h => by
    unfold State.fetchParcels
    split
    next e => exact h.checkGlobal.of_fault e
    next e => exact h.checkGlobal.of_wait e
    next e =>
      have checked := h.checkGlobal.of_ok e
      split
      · exact checked
      next e1 =>
        have read := checked.readParts e1
        split
        next e2 => exact (fetchParcels read).of_ok e2
        · exact fetchParcels read

theorem weave {g x} (h : s.Formed) : (s.weave g x).Formed := by
  unfold State.weave
  split
  · exact h
  · simp only
    split
    next e => exact h.fetchParcels.of_fault e
    next e => exact h.fetchParcels.of_wait e
    next e =>
      have first := h.fetchParcels.of_ok e
      split
      · exact first
      · split
        · exact first
        · split
          next e1 => exact first.fetchParcels.of_fault e1
          next e1 => exact first.fetchParcels.of_wait e1
          next e1 =>
            have all := first.fetchParcels.of_ok e1
            split <;> exact all

theorem guestDecode (h : s.Formed) : NextFormed (execGuestDecode s) := by
  unfold execGuestDecode
  split
  · trivial
  · simp only
    split
    · exact h
    · have woven {g x} : (({ s with issue := none } : State).weave g x).Formed := weave (s := { s with issue := none }) h
      split
      next e => exact (woven.of_wait e).holdBatch
      next e => exact (woven.of_fault e).finish
      next e =>
        have decoded := woven.of_ok e
        split
        · exact decoded
        · split
          · exact clearTried (addCounter decoded.modSkein)
          · exact traceBatch (clearTried (addCounter decoded.modSkein))

/-! ### Gangs made again from a save area (spec/13) -/

/-! ### Queues and packets (spec/12) -/

theorem wake {p} (h : s.Formed) : (s.wake p).Formed := ite h h

theorem bellHeld {b w n v} (h : s.Formed) (e : s.bellHeld b w n v = some t) : t.Formed := by
  unfold State.bellHeld at e
  simp only at e
  split at e
  · cases e; exact wake h
  · cases e

theorem ringDoorbell {w q v} (h : s.Formed) : (s.ringDoorbell w q v).Formed := ite h (ite h.modQueue.writeRecord h)

theorem countTurn {w q} (h : s.Formed) : (s.countTurn w q).Formed := h
theorem endTurns {c} (h : s.Formed) : (s.endTurns c).Formed := h
theorem takePacketCsn {w q} (h : s.Formed) : (s.takePacketCsn w q).Formed := ite h h

theorem refusePacket {w q p n c a} (h : s.Formed) : (s.refusePacket w q p n c a).Formed := h.modQueue.packetRecord

theorem startPacket {w q p a n} (h : s.Formed) : (s.startPacket w q p a n).Formed := h.modQueue.tracePacket

/-- A packet is parsed in the form where what its type does passes the form on. -/
theorem parse {w q want body} (h : s.Formed) (does : ∀ s p, s.Formed → BodyFormed (body s p)) : (s.parse w q want body).Formed := by
  unfold State.parse
  refine ite h ?_
  have next {u : State} (hu : u.Formed) : ((u.takePacketCsn w q).countTurn w q).Formed := hu.takePacketCsn
  simp only
  split
  next e => exact h.acquireSync.agentRead.of_wait e
  next e => exact refusePacket (next (h.acquireSync.agentRead.of_fault e))
  next e =>
    have read := h.acquireSync.agentRead.of_ok e
    refine ite h (ite (refusePacket (next read)) (ite (refusePacket (next read)) ?_))
    split
    next e1 => exact next ((does _ _ read).of_ok e1)
    next e1 => exact (does _ _ read).of_error e1

theorem packetLaunch {w q p} (h : s.Formed) : BodyFormed (s.packetLaunch w q p) := by
  refine BodyFormed.ite h.refusePacket ?_
  have read : Checked.Formed (match (s.queue w q).waiting with
      | some x => Checked.ok x s
      | none => s.readLaunch (s.worldAccess w (s.homeCluster w q)) (p.field 8 8)) := by
    split
    · exact h
    · exact h.readLaunch
  split
  next e => exact read.of_wait e
  next e => exact (read.of_fault e).refusePacket
  next e =>
    have parsed := read.of_ok e
    exact BodyFormed.ite parsed parsed.startPacket.acceptGrid

theorem wakeFence {w q} (h : s.Formed) : (s.wakeFence w q).Formed := by
  unfold State.wakeFence
  simp only
  split
  · refine ite h.modQueue.packetRecord ?_
    split
    next e => exact (h.acquireSync.fenceLeft.of_fault e).modQueue.packetRecord
    next e => exact h.acquireSync.fenceLeft.of_wait e
    next e => exact (h.acquireSync.fenceLeft.of_ok e).modQueue.closePacket
    next e => exact (h.acquireSync.fenceLeft.of_ok e).modQueue
  · exact h

theorem packetSignal {w q p} (h : s.Formed) : BodyFormed (s.packetSignal w q p) := by
  unfold State.packetSignal
  extract_lets c v a done s0 r
  have ends {u : State} (hu : u.Formed) : (done u).Formed := hu.startPacket.closePacket
  have wrote : r.Formed := by
    refine Checked.Keeps.ite ?_ h.writeBackAll.agentUpdate
    split
    next e => exact h.writeBackAll.agentWrites.of_ok e
    next e => exact h.writeBackAll.agentWrites.of_fault e
    next e => exact h.writeBackAll.agentWrites.of_wait e
  clear_value r done
  refine BodyFormed.ite h (BodyFormed.ite (ends h.packetRecord) ?_)
  split
  · exact ends wrote
  · exact ends (packetRecord wrote)
  · exact wrote

theorem postFor {c q p} (h : s.Formed) : (s.postFor c q p).Formed := h

theorem startRoutine {w q c n p} (h : s.Formed) : (s.startRoutine w q c n p).Formed := h

theorem packetNop {w q} (h : s.Formed) : NextFormed (execPacketNop w q s) :=
  clearTried (h.parse fun _ _ h => closePacket h.startPacket)

theorem packetCopy {w q} (h : s.Formed) : NextFormed (execPacketCopy w q s) :=
  clearTried (h.parse fun _ _ h => modCluster h.startPacket)

theorem packetFence {w q} (h : s.Formed) : NextFormed (execPacketFence w q s) :=
  clearTried (h.parse fun _ _ h => wakeFence (modQueue h.startPacket))

theorem packetEvent {w q} (h : s.Formed) : NextFormed (execPacketEvent w q s) := by
  refine clearTried (h.parse fun s p h => ?_)
  split
  · exact h.refusePacket
  · exact BodyFormed.ite h (ite h.startPacket.postFor.closePacket h.startPacket.postFor)

theorem packetHandle {w q} (h : s.Formed) : NextFormed (execPacketHandle w q s) := by
  refine clearTried (h.parse fun s p h => ?_)
  split
  · exact h.refusePacket
  · split
    · exact h.startPacket.startRoutine
    · exact h

/-! ### The active set, compaction and moves (spec/12 R320 to R325) -/

theorem setActive {r b} (h : s.Formed) : (s.setActive r b).Formed := h.modSkein

theorem moveIn {c} (h : s.Formed) : (s.moveIn c).Formed := by
  unfold State.moveIn
  split
  · exact h
  · refine ite h.setActive ?_
    split
    · exact h.setActive.setActive
    · exact h

theorem rotate {c} (h : s.Formed) : (s.rotate c).Formed := by
  refine ite h ?_
  split
  · exact h
  · refine ite h ?_
    simp only
    split
    · exact h.setActive.setActive
    · exact h

theorem compact {c} (h : s.Formed) : (s.compact c).Formed := by
  unfold State.compact
  split
  · exact h
  · simp only
    split
    · exact h
    · exact modCore (foldl modSkein h)

theorem moveGang {g gr p c} (h : s.Formed) : (s.moveGang g gr p c).Formed := by
  unfold State.moveGang
  simp only
  split
  · exact h.shedPrivate.shedPrivate
  · exact dropView (modGang (takeKey (trace (addCounter h.shedPrivate.shedPrivate))))

theorem migrate {k} (h : s.Formed) : (s.migrate k).Formed := by
  unfold State.migrate
  split
  · exact h
  · split
    · split
      · exact ite h h.moveGang
      · exact h
    · exact h.resolveMigrate.serveRequests
    · exact h

end State.Keeps

/-- What a load of a context leaves is in the form, where it is done. -/
def Loading.Formed : Loading → Prop
  | .done s => s.Formed
  | _ => True

theorem Loading.Formed.of_done {x : Loading} {t} (h : x.Formed) (e : x = .done t) : t.Formed := by rw [e] at h; exact h

namespace State.Keeps

variable {s t : State}

/-! ### Freezing, saving and loading a context (spec/13) -/

theorem saveCtx {k a b c n} (h : s.Formed) : (s.saveCtx k a b c n).Formed := by
  unfold State.saveCtx
  split
  · exact h
  · extract_lets keys near gs0 calm gs slots late grids seq hd off image c' s1 s2 s3 s4
    have flushed : calm.Formed := foldl flushFrozen (settleNear h).endMoves
    clear_value calm
    have cleared : s2.Formed := flushed
    have dropped : s3.Formed := ite (foldl dropView cleared) cleared
    exact spillTags (writeHeader (ite dropped dropped.writeArea))

theorem replayWaiting {g k} (h : s.Formed) : (s.replayWaiting g k).Formed := by
  unfold State.replayWaiting
  split
  · exact h
  · exact ite h (modSkein (foldl (fun h => h.replayOp.reack) h))

theorem parkedCompletion {c} (h : s.Formed) : NextFormed (execParkedCompletion c s) := by
  unfold execParkedCompletion
  split
  · exact h.deliverParked.clearTried
  · exact h.parkFor

theorem loadCtx {k} (h : s.Formed) : (s.loadCtx k).Formed := by
  unfold State.loadCtx
  split
  · trivial
  · extract_lets a placed
    have bad : ∀ {l}, placed = .inr l → l.Formed := by
      intro l e
      simp only [placed] at e
      split at e
      · cases e
      · split at e <;> cases e <;> trivial
    have put : ∀ {gs sl u}, placed = .inl (some (gs, sl, u)) → u.Formed := by
      intro gs sl u e
      simp only [placed] at e
      split at e
      · cases e; exact h
      · split at e
        · cases e
        · cases e
        next e1 => cases e; exact h.areaGangs e1
    clear_value placed
    split
    · exact bad rfl
    · trivial
    · have found := put rfl
      simp only
      split
      · trivial
      · split
        · trivial
        next e =>
          have seated := seatGangs (I := wellFormed) (fun u hu => by cases hu; exact of_mem found rfl) e
          refine clearTried (foldl settleGang (matchParked (requeueReleases (foldl replayGang (writeHeader (modCtx (foldl seatSlot ?_)))))))
          exact of_mem (s := List.foldl (fun s c => s.freshCaches c) _ _) (foldl freshCaches seated) rfl

theorem areaFrames {v} : ∀ {f a n} {s : State}, s.Formed → (s.areaFrames v f a n).Formed
  | 0, _, _, _, h => h
  | f + 1, a, n, s, h => by
    unfold State.areaFrames
    refine Checked.Keeps.ite h ?_
    simp only
    split
    next e => exact h.checkGlobal.of_fault e
    next e => exact h.checkGlobal.of_wait e
    next e =>
      have checked := h.checkGlobal.of_ok e
      split
      · refine Checked.Keeps.ite checked ?_
        split
        next e1 => exact (areaFrames checked).of_ok e1
        · exact areaFrames checked
      · exact checked

theorem rerecord {c} (h : s.Formed) : (s.rerecord c).Formed := by
  refine ite h ?_
  simp only
  split
  next e => exact (h.areaFrames.of_ok e).modCtx
  · exact h

theorem holdThreads {w b} (h : s.Formed) : (s.holdThreads w b).Formed := h

theorem startFreeze {p v} (h : s.Formed) : (s.startFreeze p v).Formed := ite h (ite h h)

theorem freezePoint {k} (h : s.Formed) : (s.freezePoint k).Formed := by
  unfold State.freezePoint
  split
  · exact h
  · exact ite h (ite h.saveCtx h.saveCtx.modPart)

theorem resumeCtx {c} (h : s.Formed) : (s.resumeCtx c).Formed := by
  unfold State.resumeCtx
  split
  next e => exact h.loadCtx.of_done e
  · exact h
  · exact h
  · exact h.writeRecord

theorem resumeWorld {p v} (h : s.Formed) : (s.resumeWorld p v).Formed :=
  ite h (ite h (foldl (fun h => h.rerecord.resumeCtx) (holdThreads (modWorld (modPart h)))))

end State.Keeps

/-- However far a swap has come, memory is in its form. -/
def Swap.Formed : Swap → Prop
  | .ended _ s | .failed _ s | .fault _ _ s | .wait s | .going _ _ s | .hold _ _ s => s.Formed

/-- Whatever a write to the tier comes to, memory is in its form. -/
def Tiered.Formed : Tiered → Prop
  | .ok s | .wait s | .fail _ _ s => s.Formed

theorem Swap.Formed.ite {c : Prop} [Decidable c] {x y : Swap} (hx : x.Formed) (hy : y.Formed) : (if c then x else y).Formed := by split <;> assumption
theorem Tiered.Formed.ite {c : Prop} [Decidable c] {x y : Tiered} (hx : x.Formed) (hy : y.Formed) : (if c then x else y).Formed := by split <;> assumption

theorem Tiered.Formed.of_ok {x : Tiered} {t} (h : x.Formed) (e : x = .ok t) : t.Formed := by rw [e] at h; exact h

namespace State.Keeps

variable {s t : State}

/-! ### Swaps and relocation (spec/08 R239, spec/12 R324, R327) -/

theorem setAreaState {c n} (h : s.Formed) : (s.setAreaState c n).Formed := h.writeHeader

theorem makeKeys {w} (h : s.Formed) : (s.makeKeys w).Formed := ite h h

theorem swapCheck {v a c} (h : s.Formed) : (s.swapCheck v a c).Formed := by
  unfold State.swapCheck
  extract_lets w
  refine Swap.Formed.ite h ?_
  split
  next e => exact h.agentRead.of_fault e
  next e => exact h.agentRead.of_wait e
  next e =>
    have inRead := h.agentRead.of_ok e
    split
    next e1 => exact (Checked.Keeps.ite (x := .ok _ _) inRead inRead.agentRead).of_fault e1
    next e1 => exact (Checked.Keeps.ite (x := .ok _ _) inRead inRead.agentRead).of_wait e1
    next e1 =>
      have outRead := (Checked.Keeps.ite (x := .ok _ _) inRead inRead.agentRead).of_ok e1
      extract_lets inH st
      refine Swap.Formed.ite outRead ?_
      split
      next e2 => exact outRead.areaFrames.of_fault e2
      next e2 => exact outRead.areaFrames.of_wait e2
      next e2 => exact outRead.areaFrames.of_ok e2
      next e2 =>
        have framed := outRead.areaFrames.of_ok e2
        extract_lets n old x made s4 s5
        have listed : s4.Formed := by
          simp only [s4]
          clear_value x
          clear_value old
          cases old <;> exact framed
        clear_value s4 x
        have set : s5.Formed := listed.setAreaState
        clear_value s5
        split
        · exact set.saveCtx
        · exact set

theorem swapSave {w a n} (h : s.Formed) : (s.swapSave w a n).Formed := by
  unfold State.swapSave
  split
  · exact h
  · exact Swap.Formed.ite h.writeArea h

theorem swapClose {w a} (h : s.Formed) : (s.swapClose w a).Formed := by
  unfold State.swapClose
  split
  · exact h.setAreaState
  · exact h

theorem swapFail {w a x n} (h : s.Formed) : (s.swapFail w a x n).Formed := swapClose (modCtx h.setAreaState)

theorem swapRead {w a c n} (h : s.Formed) : (s.swapRead w a c n).Formed := by
  unfold State.swapRead
  split
  · exact h
  · simp only
    split
    · exact h.makeKeys.swapFail
    · refine Swap.Formed.ite h.makeKeys.swapFail (Swap.Formed.ite h.makeKeys (Swap.Formed.ite h.makeKeys ?_))
      split
      · exact h.makeKeys.swapFail
      · exact h.makeKeys

theorem swapStart {w a c} (h : s.Formed) : (s.swapStart w a c).Formed := by
  unfold State.swapStart
  split
  · exact h
  · simp only
    split
    next e => exact swapClose (Loading.Formed.of_done (loadCtx (by exact h)) e)
    · exact h
    · exact h.swapFail

theorem swapStep {v a c p n} (h : s.Formed) : (s.swapStep v a c p n).Formed := by
  unfold State.swapStep
  split
  · exact h.swapCheck
  · exact h.swapSave
  · exact h.swapRead
  · exact h.swapStart

theorem swapRun {v a c} : ∀ {f p n} {s : State}, s.Formed → (s.swapRun v a c f p n).Formed
  | 0, _, _, _, h => h
  | f + 1, p, n, s, h => by
    have stepped : (s.swapStep v a c p n).Formed := h.swapStep
    unfold State.swapRun
    split
    next e => rw [e] at stepped; exact swapRun stepped
    · exact stepped

theorem swapctx {f} (h : s.Formed) : NextFormed (execSwapctx f s) := by
  refine h.issueWith fun b s h => ?_
  split
  · exact h
  · extract_lets a c w at_ mark
    have marked {on p} {u : State} (hu : u.Formed) : (mark on p u).Formed := modSkein (modGang hu)
    have stepped : (s.swapStep ⟨b.g.ctx, w, s.featvecOf b.g, b.g.cluster, 5⟩ a c (at_ / 2 ^ 30) (at_ % 2 ^ 30)).Formed := h.swapStep
    clear_value mark
    generalize s.swapStep ⟨b.g.ctx, w, s.featvecOf b.g, b.g.cluster, 5⟩ a c (at_ / 2 ^ 30) (at_ % 2 ^ 30) = r at stepped ⊢
    cases r with
    | ended _ _ => exact marked stepped
    | failed _ _ => exact marked stepped
    | fault _ _ _ => exact stepped
    | wait _ => exact stepped
    | going _ _ _ => exact marked stepped
    | hold _ _ _ => exact marked stepped

theorem requestSwitch {w v} (h : s.Formed) : (s.requestSwitch w v).Formed := ite h (ite h h)

theorem endSwitch {c w n} (h : s.Formed) : (s.endSwitch c w n).Formed :=
  (modCluster (modWorld h)).of_beside (beside_postEvent ..)

theorem serveSwitch {c} (h : s.Formed) : (s.serveSwitch c).Formed := by
  unfold State.serveSwitch
  split
  · exact h
  next w _ _ =>
    refine ite h ?_
    have ran {v a c n} : (s.swapRun v a c (2 ^ 32) n 0).Formed := h.swapRun
    split
    next e => have := e ▸ ran; exact endSwitch this
    next e => have := e ▸ ran; exact endSwitch this
    next e => have := e ▸ ran; exact this
    next e => have := e ▸ ran; exact this
    next e => have := e ▸ ran; exact this
    next e => have := e ▸ ran; exact endSwitch (writeRecord this)

theorem seatAll {new : Nat} : ∀ {l : List Gang} {o : Option State} {t}, (∀ s ∈ o, s.Formed) →
    l.foldl (fun o g => o.bind fun s => s.seatGang g.ctx { g.stopped with cluster := new }) o = some t → t.Formed
  | [], _, _, h, e => h _ e
  | g :: l, o, t, h, e => by
    refine seatAll (l := l) (o := o.bind fun s => s.seatGang g.ctx { g.stopped with cluster := new }) (fun s hs => ?_) e
    obtain ⟨u, hu, e1⟩ := Option.bind_eq_some_iff.mp hs
    exact (h u hu).seatGang e1

theorem seeAs {a b} (h : s.Formed) : (s.seeAs a b).Formed := h

theorem relocate {g n c} (h : s.Formed) : (s.relocate g n c).Formed := by
  unfold State.relocate
  split
  · exact h
  · extract_lets mine old keys s0 gs slots s1 s2 s3 off s4 s5
    refine ite h ?_
    have near : s0.Formed := h.settleNear
    have flushed : s2.Formed := takeFootprint (seeAs (freshCaches (flushAll near.unqueue)))
    clear_value s2
    have removed : s4.Formed := flushed
    have emptied : s5.Formed := by
      simp only [s5]
      exact foldl dropView removed
    clear_value s5 gs slots
    split
    · exact h
    next e =>
      have seated := seatAll (fun u hu => by cases hu; exact emptied) e
      exact foldl settleGang (requeueReleases (foldl replayGang (foldl seatSlot (of_mem seated rfl))))

/-! ### Checkpoints (spec/13 R346 to R353) -/

theorem modCkpt {p f} (h : s.Formed) : (s.modCkpt p f).Formed := h

theorem askCut {g} (h : s.Formed) : (s.askCut g).Formed := ite h (ite h.beginCut h)

theorem ckpt {f} (h : s.Formed) : NextFormed (execCkpt f s) := h.issueWith fun _ _ h => ite h h.askCut

theorem markImage {c} (h : s.Formed) : (s.markImage c).Formed := h.writeHeader

theorem cut {p} (h : s.Formed) : (s.cut p).Formed := by
  refine ite h ?_
  have saved : State.Formed _ := foldl (l := ((s.clustersOf p).foldl (fun s c => s.flushAll c) s).savedIn p) (f := fun s c => s.markImage c) markImage
    (foldl (l := s.runningIn p) (f := fun s c => s.saveCtx c.key false false true 1) saveCtx (foldl (l := s.clustersOf p) (f := fun s c => s.flushAll c) flushAll h))
  exact ite (markLeaves saved.modCkpt) (clearTried (foldl resumeCtx (markLeaves saved.modCkpt)))

theorem resumeHeld {p} (h : s.Formed) : (s.resumeHeld p).Formed := by
  refine clearTried (foldl (fun h => ?_) h.modCkpt)
  split
  · exact h.resumeCtx
  · exact h

theorem thawAll {p} (h : s.Formed) : (s.thawAll p).Formed := h.markLeaves.modCkpt

theorem abortCut {p} (h : s.Formed) : (s.abortCut p).Formed := ite h h.thawAll.modCkpt.resumeHeld

theorem abortRecord {p c a} (h : s.Formed) : (s.abortRecord p c a).Formed := h.writeRecord

theorem endDrain {p} (h : s.Formed) : (s.endDrain p).Formed := h.thawAll.modCkpt.resumeHeld

theorem tierHost {w} : ∀ {f a bs} {s : State}, s.Formed → (s.tierHost w f a bs).Formed
  | 0, _, _, _, h => h
  | f + 1, a, bs, s, h => by
    unfold State.tierHost
    refine Tiered.Formed.ite h (Tiered.Formed.ite h (Tiered.Formed.ite h ?_))
    split
    next e => exact h.hostFrame.of_wait e
    next e => exact h.hostFrame.of_fault e
    next e => exact tierHost (h.hostFrame.of_ok e).putNow

theorem tierWrite {p o bs} (h : s.Formed) : (s.tierWrite p o bs).Formed :=
  Tiered.Formed.ite h.tierHost (Tiered.Formed.ite h (Tiered.Formed.ite h h.putNow))

theorem frameStreamed {p f} (h : s.Formed) : (s.frameStreamed p f).Formed := ite h.modCkpt.markLeaves h.modCkpt

theorem drainStep {p} (h : s.Formed) : (s.drainStep p).Formed := by
  refine Tiered.Formed.ite ?_ (Tiered.Formed.ite ?_ ?_)
  · split
    next e => exact (h.tierWrite.of_ok e).modCkpt
    · exact h.tierWrite
  · split
    next e => exact (h.tierWrite.of_ok e).frameStreamed
    · exact h.tierWrite
  · split
    · simp only
      split
      next e =>
        have record := h.tierWrite.of_ok e
        split
        next e1 => exact (record.tierWrite.of_ok e1).frameStreamed
        · exact record.tierWrite
      · exact h.tierWrite
    · split
      next e => exact (h.tierWrite.of_ok e).endDrain
      · exact h.tierWrite

theorem drain {p f} (h : s.Formed) : (s.drain p f).Formed := by
  refine ite h ?_
  split
  · exact h.abortRecord.abortCut
  · have stepped : (s.drainStep p).Formed := h.drainStep
    generalize s.drainStep p = r at stepped
    cases r with
    | ok _ => exact stepped
    | wait _ => exact stepped
    | fail _ _ _ => exact (abortRecord stepped).abortCut

theorem ckptcfgWrite {p v} (h : s.Formed) : (s.ckptcfgWrite p v).Formed := ite h.modPart h.modPart.abortCut

theorem ackFrame {p a} (h : s.Formed) : (s.ackFrame p a).Formed := by
  unfold State.ackFrame
  extract_lets c f mine held s1 s2
  refine ite h ?_
  have streamed : s2.Formed := by
    simp only [s2]
    exact ite (modCkpt h).markLeaves h
  exact ite streamed.endDrain streamed

/-! ### Ports, translations and requests that fail (spec/14, spec/21) -/

theorem retryReplays (h : s.Formed) : s.retryReplays.Formed := foldl (fun h => ite h (foldl replayWaiting h)) h

theorem holdTranslation {x} (h : s.Formed) : (s.holdTranslation x).Formed := h

theorem translated {w p f r x} (h : s.Formed) : (s.translated w p f r x).Formed := ite h (ite h h)

theorem pageAnswer {w p b} (h : s.Formed) : (s.pageAnswer w p b).Formed := by
  refine ite h (ite h (ite h ?_))
  split <;> exact h

theorem answer {p n bs} (h : s.Formed) : (s.answer p n bs).Formed := h

theorem completeInval {w a b} (h : s.Formed) : (s.completeInval w a b).Formed := ite h h

theorem invalidateAts {w a b} (h : s.Formed) : (s.invalidateAts w a b).Formed :=
  ite h.completeInval (ite h (completeInval (modPart (of_mem h rfl))))

theorem startXinv {w} (h : s.Formed) : (s.startXinv w).Formed := ite h (ite h h)

theorem endXinv {p} (h : s.Formed) : (s.endXinv p).Formed := ite h (ite h h)

theorem loseAck {id g e o c} (h : s.Formed) : (s.loseAck id g e o c).Formed := ite h h.writeRecord.modSkein.closeId

theorem loseCopyAck {id g e c} (h : s.Formed) : (s.loseCopyAck id g e c).Formed := h.writeRecord.modSkein.closeId

theorem endRequest {id n c} (h : s.Formed) : (s.endRequest id n c).Formed := by
  unfold State.endRequest
  split
  · exact h
  · split
    · exact h
    · exact ite (ite h h.loseCopyAck) (ite h (ite (ite h h.failMonitor) (ite h.failOp (ite h.loseAck h))))

theorem failFetch {id n c} (h : s.Formed) : (s.failFetch id n c).Formed := by
  unfold State.failFetch
  split
  · split
    · exact h
    · refine ite h ?_
      simp only
      split
      · exact finish (of_mem h rfl)
      · exact h
  · exact h

theorem failBurst {c n f} (h : s.Formed) : (s.failBurst c n f).Formed := by
  unfold State.failBurst
  split
  · split
    · exact h
    · split
      · exact h
      · split
        · exact h.failCopy
        · exact h
  · simp only
    split
    · exact h.failPacketCopy
    · exact h
  · exact h

theorem failRing {c f} (h : s.Formed) : (s.failRing c f).Formed := by
  unfold State.failRing
  split
  · exact h
  · exact ite h.takePacketCsn.modQueue.packetRecord.endTurns h

theorem failRequest {id n c} (h : s.Formed) : (s.failRequest id n c).Formed := ite (ite h.failBurst h.failRing) (ite h.endRequest h.failFetch)

theorem perhapsPerformed {id n} (h : s.Formed) : (s.perhapsPerformed id n).Formed := by
  unfold State.perhapsPerformed
  split
  · exact h
  · split
    · exact h
    · refine ite ?_ h
      split
      next e => exact h.draw.performOp e
      · exact h

theorem endRequests {f c} (h : s.Formed) : (s.endRequests f c).Formed := foldl endRequest h

theorem losePeer {p n} (h : s.Formed) : (s.losePeer p n).Formed := ite h (endRequests (of_mem h rfl))

theorem setPort {n b} (h : s.Formed) : (s.setPort n b).Formed := h

theorem parkLost {p f} (h : s.Formed) : (s.parkLost p f).Formed := by
  refine foldl (fun {u q} hu => ?_) h
  exact (hu.parkFor :)

theorem loseHost {p f} (h : s.Formed) : (s.loseHost p f).Formed := parkLost (endRequests (foldl holdTranslation (modPart (of_mem h rfl))))

theorem pcieDown {n f} (h : s.Formed) : (s.pcieDown n f).Formed := ite (retryReplays (foldl loseHost h.setPort)) h

theorem reportHit {r p} (h : s.Formed) : (s.reportHit r p).Formed := trace (ite h.writeRecord h)

theorem portBad {r c} (h : s.Formed) : (s.portBad r c).Formed := (countUncorr (ite h h.writeRecord)).writeRecord

theorem portMemory {r} (h : s.Formed) (e : s.portMemory r = some t) : t.Formed := by
  unfold State.portMemory at e
  simp only at e
  split at e
  · split at e
    · cases e; exact h
    · cases e; exact h.portBad
  · split at e
    · cases e
    · split at e
      · cases e; exact h.shadowRange.portBad
      · split at e
        · cases e; exact h.shadowRange.portBad
        next e1 =>
          cases e
          exact answer (foldl reportHit ((h.shadowRange.writeDev e1).markExt.markExt))

theorem servePort {r} (h : s.Formed) (e : s.servePort r = some t) : t.Formed := by
  unfold State.servePort at e
  simp only at e
  split at e
  · cases e; exact h
  · split at e
    · cases e; exact h
    · split at e
      · cases e; exact h
      · split at e
        · exact h.portMemory e
        · split at e
          · cases e; exact h
          · cases e; exact h
        · cases e; exact h

theorem incoming {r} (h : s.Formed) : (s.incoming r).Formed := by
  refine ite h ?_
  cases e : s.servePort r with
  | none => exact h
  | some u => exact h.servePort e

/-! ### Bounce channels (spec/14 R370 to R372) -/

theorem modChannel {w c f} (h : s.Formed) : (s.modChannel w c f).Formed := h

theorem mismatch {w c f a} (h : s.Formed) : (s.mismatch w c f a).Formed := by
  unfold State.mismatch
  simp only
  refine writeRecord ?_
  split
  next e => exact h.modChannel.agentWrites.of_ok e
  · exact h

theorem ringBounce {w c v} (h : s.Formed) : (s.ringBounce w c v).Formed := ite h (ite h (ite h (ite h h.mismatch)))

theorem bounceDoorbell {w c v} (h : s.Formed) : NextFormed (execBounceDoorbell w c v s) := by
  show State.Formed _
  refine clearTried ?_
  cases e : s.bellHeld true w c v.toNat with
  | none => exact h.ringBounce
  | some u => exact h.bellHeld e

theorem queueDoorbell {w q v} (h : s.Formed) : NextFormed (execQueueDoorbell w q v s) := by
  unfold execQueueDoorbell
  split
  next e => exact h.bellHeld e
  · exact h.ringDoorbell.endTurns.clearTried

theorem resync {w c v} (h : s.Formed) : (s.resync w c v).Formed := by
  unfold State.resync
  simp only
  split
  · exact h
  · exact ite h h

theorem scribble {v} : ∀ {l} {s : State}, s.Formed → (s.scribble v l).Formed
  | [], _, h => h
  | (a, n) :: l, s, h => by
    unfold State.scribble
    split
    next e => exact scribble (h.draw.agentWrites.of_ok e)
    · exact scribble h

theorem landSlot {w c} (h : s.Formed) : (s.landSlot w c).Formed := by
  refine ite h ?_
  split
  next e => exact h.readRange.of_wait e
  next e => exact (h.readRange.of_fault e).scribble.mismatch
  next e =>
    have read := h.readRange.of_ok e
    split
    next e1 => exact read.agentWrites.of_wait e1
    next e1 => exact (read.agentWrites.of_fault e1).scribble.mismatch
    next e1 => exact (read.agentWrites.of_ok e1).mismatch
    next e1 => exact (read.agentWrites.of_ok e1).modChannel

/-! ### Resets, boot and power (spec/17, spec/18) -/

theorem endContexts {w} (h : s.Formed) : (s.endContexts w).Formed := by
  unfold State.endContexts
  extract_lets all keys ctxs grids s1 s2 s3 s4 s5
  have emptied : s1.Formed := by
    simp only [s1]
    split
    · exact h.keepParked
    · exact h
  clear_value s1
  have left : s2.Formed := foldl (fun h => h.leaveBanks) emptied.unqueue
  clear_value s2
  have gone : s5.Formed := left
  exact foldl (fun h => h.releaseFootprints) gone

theorem resetWorld {w} (h : s.Formed) : (s.resetWorld w).Formed := of_mem h.endContexts rfl

theorem retryStatus {p} (h : s.Formed) : (s.retryStatus p).Formed := ite h h

theorem resetPartition {p} (h : s.Formed) : (s.resetPartition p).Formed := by
  unfold State.resetPartition
  have worlds : ((rangeFrom (64 * p) 64).foldl (fun s w => s.resetWorld w) s).Formed := foldl resetWorld h
  generalize (rangeFrom (64 * p) 64).foldl (fun s w => s.resetWorld w) s = u at worlds
  exact worlds

theorem outside : s.outside.Formed := rfl

theorem warm {b} (h : s.Formed) : (s.warm b).Formed := by
  cases b with
  | true => rfl
  | false => exact Memory.wf_filter _ _ h

theorem resetSecondPort (h : s.Formed) : s.resetSecondPort.Formed := retryReplays (parkLost (endRequests (foldl holdTranslation h.draw.setPort.modPart)))

theorem hotReset {n} (h : s.Formed) : (s.hotReset n).Formed := ite h (ite (ite h.warm h.resetSecondPort) (pcieDown (foldl resetPartition h)))

theorem enterPs2 {p} (h : s.Formed) : (s.enterPs2 p).Formed := by
  refine ite h (ite h ?_)
  exact modPart (of_mem (s := (s.clustersOf p).foldl (fun s c => (s.flushAll c).modCluster c Cluster.gated) s) (foldl (fun h => h.flushAll.modCluster) h) rfl)

theorem leavePs2 {p} (h : s.Formed) : (s.leavePs2 p).Formed := by
  refine ite h (foldl (fun {u r} hu => ?_) (foldl (fun h => ite h.ringBounce h.ringDoorbell) h.modPart))
  split
  next e => exact hu.servePort e
  · exact hu

/-! ### Trust, tracing and registers (spec/14, spec/15, spec/18) -/

theorem tdispMove {w m} (h : s.Formed) : (s.tdispMove w m).Formed := ite h.modWorld.resetWorld h.modWorld

theorem dbgGo (h : s.Formed) : s.dbgGo.Formed := by
  refine ite h ?_
  split <;> exact h

theorem payOwed {c w} : ∀ {n} {s : State}, s.Formed → (s.payOwed c w n).Formed
  | 0, _, h => h
  | n + 1, s, h => by
    unfold State.payOwed
    split
    · exact h
    · split
      next e => exact payOwed (h.putTrace e).modTraceRegs
      · exact h

theorem revoke {c w} (h : s.Formed) : (s.revoke c w).Formed := h.modTraceRegs.payOwed.of_beside (beside_postEvent ..)

theorem startPeriod {c} (h : s.Formed) : (s.startPeriod c).Formed := ite h h

theorem ownTrace {c n} (h : s.Formed) : (s.ownTrace c n).Formed := h.startPeriod.modCluster

theorem claimTrace {c p} (h : s.Formed) : (s.claimTrace c p).Formed := by
  unfold State.claimTrace
  simp only
  split
  · exact ite h.ownTrace h
  · exact ite h (ite h.ownTrace h.revoke.ownTrace)

theorem releaseTrace {c p} (h : s.Formed) : (s.releaseTrace c p).Formed := ite h.ownTrace (ite h.modTraceRegs h)

theorem takeSample {c n} (h : s.Formed) : (s.takeSample c n).Formed := by
  refine ite h ?_
  split <;> exact h.trace

theorem sample {c n} (h : s.Formed) : (s.sample c n).Formed := ite h (ite h.takeSample h.takeSample.modCluster)

theorem pwrlimWrite {p v} (h : s.Formed) : (s.pwrlimWrite p v).Formed := h

theorem traceWrite {c p n v} (h : s.Formed) : (s.traceWrite c p n v).Formed := by
  unfold State.traceWrite
  simp only
  split
  · exact h.startPeriod.modTraceRegs.payOwed
  · exact h.startPeriod.modTraceRegs

theorem blockWrite {p o v} (h : s.Formed) : (s.blockWrite p o v).Formed := by
  unfold State.blockWrite
  extract_lets world here
  have worldWrite {w f} : (world w f).Formed := ite h h
  have hereWrite {c} {u : State} (hu : u.Formed) : (here c u).Formed := ite hu h
  clear_value world here
  refine ite worldWrite (ite h.modPart ?_)
  split
  · exact worldWrite
  · exact worldWrite
  · exact worldWrite
  · exact worldWrite
  · split
    · exact hereWrite h.traceWrite
    · exact hereWrite h
    · exact hereWrite h
    · exact worldWrite
    · exact worldWrite
    · exact ite (of_mem h rfl) h.modPart

theorem pageWrite {w o v} (h : s.Formed) : (s.pageWrite w o v).Formed := by
  unfold State.pageWrite
  split
  · exact h
  · exact h
  · exact h
  · exact ite h.traceWrite h
  · exact h

theorem registerWrite {w} (h : s.Formed) : (s.registerWrite w).Formed := by
  unfold State.registerWrite
  split
  · exact ite h.pageWrite h
  · split
    · exact h.blockWrite
    · exact h

/-! ### The instructions whose effect is more than one of the above -/

theorem ld {f} (h : s.Formed) : NextFormed (execLd f s) := h.issueWith fun _ _ h => h.issueLoad
theorem ldiv {f} (h : s.Formed) : NextFormed (execLdiv f s) := h.issueWith fun _ _ h => h.issueLoad
theorem st {f} (h : s.Formed) : NextFormed (execSt f s) := h.issueWith fun _ _ h => h.issueMem
theorem stiv {f} (h : s.Formed) : NextFormed (execStiv f s) := h.issueWith fun _ _ h => h.issueMem
theorem atom {f} (h : s.Formed) : NextFormed (execAtom f s) := h.issueChecked fun _ _ h => h.issueMem
theorem atomc {f} (h : s.Formed) : NextFormed (execAtomc f s) := h.issueChecked fun _ _ h => h.issueMem
theorem red {f} (h : s.Formed) : NextFormed (execRed f s) := h.issueChecked fun _ _ h => h.issueMem
theorem cacheCinv {f} (h : s.Formed) : NextFormed (execCacheCinv f s) := h.issueWith fun _ _ h => h.issueCache
theorem cacheCwb {f} (h : s.Formed) : NextFormed (execCacheCwb f s) := h.issueWith fun _ _ h => h.issueCache
theorem rmark {f} (h : s.Formed) : NextFormed (execRmark f s) := h.issueWith fun _ _ h => h.takeKey
theorem rjoin {f} (h : s.Formed) : NextFormed (execRjoin f s) := h.issueWith fun _ _ h => h.modSkein
theorem fnew {f} (h : s.Formed) : NextFormed (execFnew f s) := h.issueWith fun _ _ h => h.createAll
theorem ivfork {f} (h : s.Formed) : NextFormed (execIvfork f s) := h.issueWith fun _ _ h => h.createAll
theorem exit {f} (h : s.Formed) : NextFormed (execExit f s) := h.issueWith fun _ _ h => Result.Formed.ite h (ite h.endRoutine h.endGang)
theorem bar {f} (h : s.Formed) : NextFormed (execBar f s) := h.issueWith fun _ _ h => Result.Formed.ite h h
theorem bara {f} (h : s.Formed) : NextFormed (execBara f s) := h.issueWith fun _ _ h => Result.Formed.ite h h
theorem mma {f} (h : s.Formed) : NextFormed (execMma f s) := h.issueChecked fun _ _ h => h.issueTile
theorem tzero {f} (h : s.Formed) : NextFormed (execTzero f s) := h.issueChecked fun _ _ h => h.issueTile
theorem tcvt {f} (h : s.Formed) : NextFormed (execTcvt f s) := h.issueChecked fun _ _ h => h.issueTile
theorem tget {f} (h : s.Formed) : NextFormed (execTget f s) := h.issueChecked fun _ _ h => h.issueTile
theorem tstr {f} (h : s.Formed) : NextFormed (execTstr f s) := h.issueChecked fun _ _ h => h.issueTile
theorem copy {f} (h : s.Formed) : NextFormed (execCopy f s) := h.issueWith fun _ _ h => h.issueCopies
theorem copym {f} (h : s.Formed) : NextFormed (execCopym f s) := h.issueWith fun _ _ h => h.issueCopies
theorem copyl {f} (h : s.Formed) : NextFormed (execCopyl f s) := h.issueWith fun _ _ h => h.issueCopies
theorem cfill {f} (h : s.Formed) : NextFormed (execCfill f s) := h.issueWith fun _ _ h => h.issueCopies
theorem yield {f} (h : s.Formed) : NextFormed (execYield f s) := h.issueWith fun _ _ h => Result.Formed.ite h.modSkein h
theorem migrateWord {f} (h : s.Formed) : NextFormed (execMigrate f s) := h.issueChecked fun _ _ h => h
theorem eret {f} (h : s.Formed) : NextFormed (execEret f s) := h.issueChecked fun _ _ h => h
theorem emret {f} (h : s.Formed) : NextFormed (execEmret f s) := h.issueChecked fun _ _ h => h
theorem cvtb {f} (h : s.Formed) : NextFormed (execCvtb f s) := h.issueWith fun _ _ h => h
theorem fend {f} (h : s.Formed) : NextFormed (execFend f s) := h.issueWith fun _ _ h => h

theorem cachePref {f} (h : s.Formed) : NextFormed (execCachePref f s) := by
  refine h.issueWith fun b s h => ?_
  show State.Formed _
  split
  · exact h
  · exact h.recordCache

theorem sbar {f} (h : s.Formed) : NextFormed (execSbar f s) := by
  refine h.issueWith fun b s h => ?_
  split
  · exact h
  · exact h.addEntry

theorem ldstat {f} (h : s.Formed) : NextFormed (execLdstat f s) := by
  refine h.issueChecked fun b s h => ?_
  split
  · exact h
  · exact Result.Formed.ite h (setStat (pushTile h.addEntry))

theorem statrel {f} (h : s.Formed) : NextFormed (execStatrel f s) :=
  h.issueChecked fun _ _ h => Result.Formed.ite h (Result.Formed.ite h h.setStat.pushTile)

theorem evpost {f} (h : s.Formed) : NextFormed (execEvpost f s) :=
  h.issueWith fun _ _ h => Result.Formed.ite h (Result.Formed.ite h (Result.Formed.ite h h.modCluster.ordering))

theorem evpop {f} (h : s.Formed) : NextFormed (execEvpop f s) :=
  h.issueWith fun _ _ h => Result.Formed.ite h (Result.Formed.ite h h.modCluster.ordering)

theorem launch {f} (h : s.Formed) : NextFormed (execLaunch f s) := by
  refine h.issueWith fun b s h => ?_
  split
  · exact h
  · extract_lets a w v accept
    have accepts {n d eq} {u : State} (hu : u.Formed) : (accept n d eq u).Formed := Result.Formed.ite hu.modGang.modSkein hu.modGang.acceptGrid
    clear_value accept
    split
    · exact accepts h
    · refine Result.Formed.ite h.takeCsn ?_
      split
      next e => exact h.readLaunch.of_wait e
      next e => exact (h.readLaunch.of_fault e).takeCsn.modSkein
      next e => exact accepts (h.readLaunch.of_ok e).takeCsn

theorem fence {f} (h : s.Formed) : NextFormed (execFence f s) :=
  h.issueWith fun _ _ h => Result.Formed.ite h (Result.Formed.ite h h.ordFence.fenceCaches)

theorem mwait {f} (h : s.Formed) : NextFormed (execMwait f s) :=
  h.issueWith fun _ _ h => monitors (fun h e => by cases e; exact h) (fun _ e => nomatch e) h

theorem mtest {f} (h : s.Formed) : NextFormed (execMtest f s) :=
  h.issueWith fun _ _ h => Result.Formed.ite (monitors (fun h e => by cases e; exact h) (fun _ e => nomatch e) h) (monitors testAnswer_passes testAnswer_passes h)

theorem rwrite {f} (h : s.Formed) : NextFormed (execRwrite f s) := by
  refine h.issueChecked fun b s h => ?_
  split
  · simp only
    split
    · exact h
    · exact Result.Formed.ite h h.takeTag.addEntry
  · exact h

theorem arrwait {f} (h : s.Formed) : NextFormed (execArrwait f s) :=
  h.issueWith fun _ _ h => Result.Formed.ite h (Result.Formed.ite h.modSkein h.modSkein.acquireCaches.modSkein.ordering)

theorem qpush {f} (h : s.Formed) : NextFormed (execQpush f s) :=
  h.issueChecked fun _ _ h => Result.Formed.ite h (Result.Formed.ite h (Result.Formed.ite h (ordering (modCluster (releaseCaches (modCluster h))))))

theorem qpop {f} (h : s.Formed) : NextFormed (execQpop f s) :=
  h.issueChecked fun _ _ h => Result.Formed.ite h (Result.Formed.ite h (ordering (modCluster h.acquireCaches)))

theorem rdctr {f} (h : s.Formed) : NextFormed (execRdctr f s) := by
  refine h.issueWith fun b s h => inOrder (fun s n x h => ?_) h
  split
  next e => exact h.throughLog e
  · exact h

theorem gets {f} (h : s.Formed) : NextFormed (execGets f s) := by
  refine h.issueWith fun b s h => inOrder (fun s n x h => ?_) h
  simp only
  split
  · split
    next e => exact h.throughLog e
    · exact h
  · exact h

theorem changeBank {c w n m} (h : s.Formed) : (s.changeBank c w n m).Formed := h

theorem bankcfg {f} (h : s.Formed) : NextFormed (execBankcfg f s) := by
  refine h.issueWith fun b s h => Result.Formed.ite h (Result.Formed.ite (ite h h) (Result.Formed.ite h ?_))
  simp only
  split
  · exact Result.Formed.ite h h.writeBackLine.modSkein
  · exact h.changeBank

theorem sets {f} (h : s.Formed) : NextFormed (execSets f s) := by
  refine h.issueWith fun b s h => ?_
  simp only
  split
  · exact h.modGang
  · exact h

theorem waitc {f} (h : s.Formed) : NextFormed (execWaitc f s) :=
  h.issueWith fun _ _ h => Result.Formed.ite h (Result.Formed.ite h.acquireCaches (Result.Formed.ite h (foldl consume h)))

theorem copyBurst {c n} (h : s.Formed) : NextFormed (execCopyBurst c n s) := by
  refine clearTried ?_
  split
  · exact h.copyStep
  · exact h.packetStep
  · exact h

theorem atomicopCompletion {c} (h : s.Formed) : NextFormed (execAtomicopCompletion c s) := by
  unfold execAtomicopCompletion
  split
  · exact h.completeAtom.clearTried
  · exact h.parkFor

end State.Keeps

/-- What a fetch leaves is in the form, where something was fetched. -/
def Fetched.Formed : Fetched → Prop
  | .instr _ s | .bad _ s | .fault _ _ s => s.Formed
  | _ => True

theorem Fetched.Formed.ite {c : Prop} [Decidable c] {x y : Fetched} (hx : x.Formed) (hy : y.Formed) : (if c then x else y).Formed := by
  split <;> assumption

theorem Fetched.Formed.of_instr {x : Fetched} {i t} (h : x.Formed) (e : x = .instr i t) : t.Formed := by rw [e] at h; exact h
theorem Fetched.Formed.of_bad {x : Fetched} {w t} (h : x.Formed) (e : x = .bad w t) : t.Formed := by rw [e] at h; exact h
theorem Fetched.Formed.of_fault {x : Fetched} {c a t} (h : x.Formed) (e : x = .fault c a t) : t.Formed := by rw [e] at h; exact h

theorem fetchedWord_formed {s : State} {w} (h : s.Formed) : (fetchedWord w s).Formed := by
  unfold fetchedWord
  split <;> exact h

namespace State.Keeps

variable {s t : State}

/-! ### Every step -/

/-- What a write of a register by its writer does passes the form on. -/
theorem writer {w : RegWrite} {f : Nat → State} (h : s.Formed) (does : ∀ p, (f p).Formed) :
    NextFormed (.next (match s.writer w with | some p => f p | none => s)) := by
  show State.Formed _
  split
  · exact does _
  · exact h

theorem partcfgWrite {w} (h : s.Formed) : NextFormed (execPartcfgWrite w s) := by
  show State.Formed _
  split
  · exact h.modPart
  · exact h

theorem tdispMessage {w m} (h : s.Formed) : NextFormed (execTdispMessage w m s) := by
  show State.Formed _
  split
  · exact clearTried (answer h.tdispMove)
  · exact h.answer

theorem spdmRequest {w n} (h : s.Formed) : NextFormed (execSpdmRequest w n s) := by
  show State.Formed _
  split <;> exact h.answer

/-- A batch whose every fibre faults. -/
theorem faultsWhole {c a} (h : s.Formed) : NextFormed (match s.batch with
    | none => .fault .noBatch
    | some (b, ready) => .next (({ s with issue := none } : State).finish b ready (faultAll b.all c a))) := by
  split
  · trivial
  · exact finish (of_mem h rfl)

theorem word {i : Instr} (h : s.Formed) (is : i.isWord = true) : NextFormed (exec i s) := by
  cases i with
  | iadd | iaddImm | isub | isubImm | imul | imulImm | imulh | imulhImm | imad | imadImm | imadw | idiv | idivImm | irem | iremImm | imin
  | iminImm | imax | imaxImm | lea | leaImm | icmp | icmpImm | and | andImm | or | orImm | xor | xorImm | andn | andnImm | orn | ornImm
  | shl | shlImm | shr | shrImm | sar | sarImm | rotl | rotlImm | fshl | bfx | bfxImm | bfi | bfiImm | popc | clz | ctz | brev | bperm
  | bpermImm | mov | movImm | movh | sel3 | fadd | faddImm | fmul | fmulImm | ffma | ffmaImm | fmin | fminImm | fmax | fmaxImm | fdiv
  | fdivImm | fsqrt | frcp | frsq | fex2 | flg2 | fsinp | fcosp | frnd | fscale | fscaleImm | fclass | fmant | fexpo | fcmp | fcmpImm
  | cvt | pack2 | unpk | ivmk | ivmid | ivwid | ivhull | ivisect | ivsplit | ivmag | ivmig | bra | brx | brdec | call | callx | ret
  | barw | nop | pand | por | pnot | pxor | pres | pmov | shfl | ballot | vote | rdx | scan | elect | trap | bkpt | step =>
    unfold exec
    exact h.perFibre
  | ld => exact h.ld
  | ldiv => exact h.ldiv
  | st => exact h.st
  | stiv => exact h.stiv
  | atom => exact h.atom
  | atomc => exact h.atomc
  | red => exact h.red
  | cachePref => exact h.cachePref
  | cacheCinv => exact h.cacheCinv
  | cacheCwb => exact h.cacheCwb
  | rmark => exact h.rmark
  | rjoin => exact h.rjoin
  | fnew => exact h.fnew
  | ivfork => exact h.ivfork
  | exit => exact h.exit
  | bar => exact h.bar
  | bara => exact h.bara
  | sbar => exact h.sbar
  | mma => exact h.mma
  | ldstat => exact h.ldstat
  | statrel => exact h.statrel
  | tzero => exact h.tzero
  | tcvt => exact h.tcvt
  | tget => exact h.tget
  | tstr => exact h.tstr
  | copy => exact h.copy
  | copym => exact h.copym
  | copyl => exact h.copyl
  | cfill => exact h.cfill
  | evpost => exact h.evpost
  | evpop => exact h.evpop
  | launch => exact h.launch
  | fence => exact h.fence
  | mwait => exact h.mwait
  | mtest => exact h.mtest
  | rwrite => exact h.rwrite
  | arrwait => exact h.arrwait
  | qpush => exact h.qpush
  | qpop => exact h.qpop
  | rdctr => exact h.rdctr
  | bankcfg => exact h.bankcfg
  | gets => exact h.gets
  | sets => exact h.sets
  | yield => exact h.yield
  | ckpt => exact h.ckpt
  | wvload => exact h.wvload
  | wvbind => exact h.wvbind
  | swapctx => exact h.swapctx
  | waitc => exact h.waitc
  | migrate => exact h.migrateWord
  | eret => exact h.eret
  | emret => exact h.emret
  | cvtb => exact h.cvtb
  | fend => exact h.fend
  | _ => cases is

theorem event {i : Instr} (h : s.Formed) (is : i.isWord = false) : NextFormed (exec i s) := by
  cases i with
  | guestDecode => exact h.guestDecode
  | packetUnknownType => exact clearTried (h.parse fun _ _ h => h)
  | ldstatFillDone => exact h.fillSlot.clearTried
  | multiClockResultWritten => exact h.modSkein.clearTried
  | loadComplete => exact clearTried (foldl completeLoad h)
  | storePerformed => exact clearTried (foldl (fun h => h.performStore.performLate) h)
  | portAccept => exact h.acceptAtPort.clearTried
  | writeAck => exact h.ackWrite.clearTried
  | tagRetire => exact ite h h
  | tileOpStart => exact h.startTile.clearTried
  | tilePanelUnit => exact h.tileUnit.clearTried
  | copyCommandStart => exact h.startCopy.clearTried
  | copyBurst => exact h.copyBurst
  | rwriteArrival => exact h.arriveDeposit.clearTried
  | sbarArrival => exact h.arriveSpan.clearTried
  | monitorWake => exact h.reread.clearTried
  | monitorReread => exact h.reread.clearTried
  | migrationMove => exact h.migrate.clearTried
  | queueDoorbell => exact h.queueDoorbell
  | qctlWrite => exact ite h.modQueue.endTurns.clearTried h
  | packetNop => exact h.packetNop
  | packetLaunch => exact clearTried (h.parse fun _ _ h => h.packetLaunch)
  | packetCopy => exact h.packetCopy
  | packetFence => exact h.packetFence
  | packetSignal => exact clearTried (h.parse fun _ _ h => h.packetSignal)
  | packetEvent => exact h.packetEvent
  | packetHandle => exact h.packetHandle
  | fenceCounterWake => exact h.wakeFence.clearTried
  | gridComplete => exact h.completeGrid.clearTried
  | spanPlacement => exact h.placeSpan.clearTried
  | spawnRefill => exact h.refill.clearTried
  | skeinMoveIn => exact h.moveIn.clearTried
  | forcedRotation => exact h.rotate.clearTried
  | compaction => exact h.compact.clearTried
  | relocation => exact h.relocate.clearTried
  | forwardExpiry => exact clearTried (of_mem h rfl)
  | heldPostEnter => exact h.enterHeld.clearTried
  | switchRequestServe => exact h.serveSwitch.clearTried
  | cswctlGo => exact ite h.requestSwitch h
  | freezePoint => exact h.freezePoint.clearTried
  | wfreezeGo => exact h.writer fun _ => h.startFreeze
  | wfreezeResume => exact h.writer fun _ => h.resumeWorld.clearTried
  | parkedCompletion => exact h.parkedCompletion
  | checkpointTimer => exact ite h.modCkpt h
  | checkpointCut => exact h.cut
  | shadowCopy => exact ite h.shadowFrame.clearTried h
  | drainFrame => exact h.drain.clearTried
  | ckptcfgWrite => exact h.writer fun _ => h.ckptcfgWrite.clearTried
  | ckptack => exact h.writer fun _ => h.ackFrame.clearTried
  | atsTranslationCompletion => exact h.translated.retryReplays.clearTried
  | pageRequestResponse => exact h.pageAnswer.retryReplays.clearTried
  | atsInvalidation => exact h.invalidateAts.clearTried
  | atomicopCompletion => exact h.atomicopCompletion
  | hostAtomicDone => exact h.hostAtomicDone
  | completerError => exact ite h h.failRequest.clearTried
  | requestTimeout => exact h.perhapsPerformed.failRequest.clearTried
  | peerUnreachable => exact h.losePeer.clearTried
  | pcieLinkDown => exact h.pcieDown.clearTried
  | incomingPortRequest => exact h.incoming.clearTried
  | linkSessionRekey => exact ite h h
  | bounceDoorbell => exact h.bounceDoorbell
  | bounceResync => exact ite h.resync.clearTried h
  | bounceSlotLand => exact h.landSlot.clearTried
  | xinvGo => exact ite h.startXinv.clearTried h
  | xinvComplete => exact h.endXinv.clearTried
  | wvhctlGo => exact h.writer fun _ => h.wvhctlWrite
  | eiscfgWrite => exact h.writer fun _ => h.eiscfgWrite
  | dutycfgWrite => exact h.writer fun _ => h.modPart.clearTried
  | pwrlimWrite => exact h.writer fun _ => h.pwrlimWrite
  | ps2Request => exact h.writer fun _ => ite h.enterPs2 h
  | ps0Request => exact h.writer fun _ => ite h.wake h
  | ps2Exit => exact h.leavePs2.clearTried
  | ps1Entry => exact ite h h.modCluster
  | partcfgWrite => exact h.partcfgWrite
  | ecccntClear => exact h.writer fun _ => h.modPart
  | ctrselWrite => exact h.writer fun _ => h.modPart
  | traceClaim => exact ite h.claimTrace.clearTried h
  | traceRelease => exact ite h.releaseTrace.clearTried h
  | traceSample => exact h.sample
  | dbggo => exact ite h.dbgGo.clearTried h
  | debugScrubDone => exact ite h rfl
  | tdispMessage => exact h.tdispMessage
  | modelKeyDelivery => exact ite h.modWorld h
  | spdmRequest => exact h.spdmRequest
  | clockRelock => exact ite h h
  | coldReset => exact outside
  | warmReset => exact ite h h.warm
  | partitionReset => exact ite h.resetPartition.clearTried h
  | functionLevelReset => exact ite h (ite h.retryStatus h.resetWorld.clearTried)
  | pcieHotReset => exact h.hotReset.clearTried
  | pcieD3cold => exact outside (s := s)
  | bootComplete => exact ite h (ite h (ite h h))
  | registerWrite => exact h.registerWrite.clearTried
  | linkRetrained => exact h
  | portDown => exact clearTried (ite h.setPort h.pcieDown)
  | notAnInstruction => exact h.faultsWhole
  | instructionFetchFault => exact h.faultsWhole
  | _ => cases is

theorem fetched {g x} (h : s.Formed) : (s.fetched g x).Formed := by
  refine Fetched.Formed.ite trivial (Fetched.Formed.ite (fetchedWord_formed h) ?_)
  split
  next e => exact fetchedWord_formed (h.fetchWord.of_ok e)
  next e => exact h.fetchWord.of_fault e
  · trivial

theorem aged {g k} (h : s.Formed) : (s.aged g k).Formed := h.modSkein

/-- Whatever comes next, memory is in its form where it issues. -/
theorem issueNext {g k i} (h : s.Formed) (e : s.issueNext g k = some (i, t)) : t.Formed := by
  unfold State.issueNext at e
  split at e
  · cases e
  · split at e
    · cases e
    · split at e
      · cases e
      · split at e
        · cases e
        · split at e
          · cases e
          · simp only at e
            split at e
            next e1 => cases e; exact aged (h.fetched.of_instr e1)
            next e1 => cases e; exact aged (h.fetched.of_bad e1)
            next e1 => cases e; exact aged (h.fetched.of_fault e1)
            · cases e; exact h.aged
            · cases e

theorem event_or_word {i : Instr} (h : s.Formed) : NextFormed (exec i s) := by
  cases is : i.isWord with
  | true => exact h.word is
  | false => exact h.event is

theorem runAction {a} (h : s.Formed) : NextFormed (runAction a s) := by
  cases a with
  | event i => exact event_or_word (ite h h.ordOutside)
  | issue g k =>
    show NextFormed (match s.issueNext g k with | some (i, u) => exec i u | none => .next s)
    split
    next e => exact event_or_word (h.issueNext e)
    · exact h
  | hostWrite a bs => exact h.ordOutside.putNow
  | peerWrite d a bs => exact h.ordOutside.putNow
  | clean c l w => exact h.cleanOne.clearTried
  | cleanPrivate n l w => exact h.cleanPrivate.clearTried
  | dropCode c n l w => exact h.dropCode
  | piece e t i => exact h.performPart.clearTried
  | near e t => exact h.performNear.clearTried
  | see i c => exact of_mem h rfl
  | unit c => exact h.recordUnit.clearTried
  | land c n g => exact h.landOne.clearTried
  | route id ports => exact h.modPart
  | numVfs p n => exact ite h.retryStatus h.modPart

theorem tick (h : s.Formed) : s.tick.Formed := h

theorem step (h : s.Formed) : NextFormed (step s) := by
  unfold Machine.step
  split
  · exact h.tick.runAction
  · exact h.tick

end State.Keeps

/-- Settles O58: each function of the model passes the form on, and a step is one of them. -/
theorem memoryFormKept : Obligations.MemoryFormKept := by
  intro s t formed stepped
  have next : NextFormed (step s) := State.Keeps.step formed
  rw [stepped] at next
  exact next

end Sys2Proof.Machine
end


section
/-! PROOFS, O33. Handler entry: the faults of an issue move each faulting fibre by `Fibre.enter`, one slot after another, and the trace record and
the fault record that follow leave every gang as it is. -/

namespace Sys2Proof.Machine

/-- One fibre of a skein enters the handler. -/
def State.enterOne (s : State) (key k unit : Nat) (fhvec : W64) (am fm : Mask) (r : Raised) : State :=
  s.modSkein key k fun y => { y with slots := modifyAt y.slots r.slot fun o => o.map fun x => x.enter unit fhvec am fm r }

section
variable {s : State} {key k unit : Nat} {fhvec : W64} {am fm : Mask}

theorem fibreAt_enterOne (r : Raised) (t : Nat) : (s.enterOne key k unit fhvec am fm r).fibreAt key k t =
    if t = r.slot then (s.fibreAt key k t).map fun x => x.enter unit fhvec am fm r else s.fibreAt key k t := by
  rw [State.enterOne, State.fibreAt_modSkein_same, State.fibreAt]
  cases s.skein key k with
  | none => simp
  | some sk =>
    simp only [Option.bind_some, Skein.fibre, modifyAt_getElem?]
    split
    · cases sk.slots[t]? <;> rfl
    · rfl

theorem skein_enterOne_other (r : Raised) {key' k' : Nat} (other : key' ≠ key ∨ k' ≠ k) :
    (s.enterOne key k unit fhvec am fm r).skein key' k' = s.skein key' k' := s.skein_modSkein_other key k key' k' _ other

theorem fibreAt_enterAll_other {t : Nat} : ∀ {rs : List Raised} {s : State}, t ∉ rs.map (·.slot) →
    (rs.foldl (fun s r => s.enterOne key k unit fhvec am fm r) s).fibreAt key k t = s.fibreAt key k t
  | [], _, _ => rfl
  | r :: rs, s, out => by
    obtain ⟨head, tail⟩ := not_or.1 (List.mem_cons.not.1 out)
    rw [List.foldl_cons, fibreAt_enterAll_other tail, fibreAt_enterOne, if_neg head]

/-- Slots that differ: each faulting fibre enters once. -/
theorem fibreAt_enterAll {r : Raised} : ∀ {rs : List Raised} {s : State}, r ∈ rs → (rs.map (·.slot)).Nodup →
    (rs.foldl (fun s r => s.enterOne key k unit fhvec am fm r) s).fibreAt key k r.slot =
      (s.fibreAt key k r.slot).map fun x => x.enter unit fhvec am fm r
  | q :: rs, s, mem, nodup => by
    obtain ⟨apart, rest⟩ := List.nodup_cons.1 nodup
    rcases List.mem_cons.1 mem with rfl | mem
    · rw [List.foldl_cons, fibreAt_enterAll_other apart, fibreAt_enterOne, if_pos rfl]
    · have differ : r.slot ≠ q.slot := fun same => apart (List.mem_map.2 ⟨r, mem, same⟩)
      rw [List.foldl_cons, fibreAt_enterAll mem rest, fibreAt_enterOne, if_neg differ]

theorem skein_enterAll_other {key' k' : Nat} (other : key' ≠ key ∨ k' ≠ k) : ∀ {rs : List Raised} {s : State},
    (rs.foldl (fun s r => s.enterOne key k unit fhvec am fm r) s).skein key' k' = s.skein key' k'
  | [], _ => rfl
  | r :: rs, s => by rw [List.foldl_cons, skein_enterAll_other other, skein_enterOne_other r other]

end

theorem Skein.anyParked_eq_false {sk : Skein} (free : ∀ p ∈ sk.live, p.2.parked = false) : sk.anyParked = false :=
  List.any_eq_false.2 fun p hp => by simp [free p hp]

/-- Where the world has a handler and nobody is in it, the faulting fibres enter it, and no gang moves otherwise. -/
theorem gangs_takeFaults_enter {s : State} {key k : Nat} {g : Gang} {sk : Skein} {am : Mask} {r0 : Raised} {rs : List Raised} {x0 : Fibre}
    (gang : s.gang key = some g) (skein : s.skein key k = some sk) (core : g.kind ≠ .handle) (handler : (s.world (s.worldOf g)).fhvec ≠ 0)
    (free : ∀ p ∈ sk.live, p.2.parked = false) (head : sk.fibre r0.slot = some x0) :
    (s.takeFaults key k am (r0 :: rs)).gangs = ((r0 :: rs).foldl (fun u r => u.enterOne key k (s.unitOf g.cluster x0)
      (s.world (s.worldOf g)).fhvec am (maskOf ((r0 :: rs).map (·.slot))) r) s).gangs := by
  have notIn : x0.parked = false := free (r0.slot, x0) ((Skein.mem_live ..).2 head)
  have nobody : sk.anyParked = false := Skein.anyParked_eq_false free
  unfold State.takeFaults
  simp only [gang, skein, head, core, notIn, nobody, handler, if_false, Bool.false_or, Bool.false_eq_true, decide_false, Bool.false_and]
  split
  · exact (beside_writeRecord ..).gangs.trans (gangs_traceBatch ..)
  · exact gangs_traceBatch ..

section
variable {x : Fibre} {unit : Nat} {fhvec : W64} {am fm : Mask} {r : Raised}

/-- In canonical code the fibre goes back to the faulting word, or after a TRAP to the next. -/
theorem enter_canonical (canonical : x.pers = 0 ∨ x.emul = true) :
    (x.enter unit fhvec am fm r).gpc = x.gpc ∧ (x.enter unit fhvec am fm r).fpc = if r.trap then x.pc + 8 else x.pc := by
  have guest : x.isGuest = false := by rcases canonical with h | h <;> simp [Fibre.isGuest, h]
  simp [Fibre.enter, guest]

/-- In a template it goes back to the guest instruction, or after a TRAP past it. -/
theorem enter_guest {e : Expansion} (pers : x.pers ≠ 0) (emul : x.emul = false) (expansion : x.expansion = some e) (inside : x.inTemplate = true) :
    (x.enter unit fhvec am fm r).gpc = (if r.trap then x.gpc + BitVec.ofNat 64 e.len else x.gpc) ∧
      (x.enter unit fhvec am fm r).fpc = (x.enter unit fhvec am fm r).gpc * BitVec.ofNat 64 unit := by
  have guest : x.isGuest = true := by simp [Fibre.isGuest, pers, emul]
  have next : x.nextPc = x.gpc + BitVec.ofNat 64 e.len := by rw [Fibre.nextPc, expansion]; exact if_pos inside
  simp [Fibre.enter, guest, next]

end

theorem unitOf_expansion {s : State} {c : Nat} {x : Fibre} {e : Expansion} (h : x.expansion = some e) : s.unitOf c x = e.unit := by
  rw [State.unitOf, h]

/-- Settles O33, by what the entries of the faulting fibres make of each slot. -/
theorem exceptionEntry : Obligations.ExceptionEntry := by
  intro s key k g sk am rs gang at_ core handler free some_ nodup live
  obtain ⟨r0, rest, rfl⟩ := List.exists_cons_of_ne_nil some_
  obtain ⟨x0, head⟩ := Option.isSome_iff_exists.1 (live r0 List.mem_cons_self)
  have skein : s.skein key k = some sk := by rw [State.skein, gang]; exact at_
  have gangs := gangs_takeFaults_enter (am := am) (rs := rest) gang skein core handler free head
  refine ⟨fun r mem x hx => ?_, fun t out => ?_, fun key' k' other => ?_⟩
  · have was : s.fibreAt key k r.slot = some x := by rw [State.fibreAt, skein]; exact hx
    refine ⟨x.enter (s.unitOf g.cluster x0) (s.world (s.worldOf g)).fhvec am (maskOf ((r0 :: rest).map (·.slot))) r, ?_, rfl, rfl, rfl, rfl, rfl,
      rfl, rfl, rfl, enter_canonical, fun pers emul e expansion inside leads => ?_, rfl, rfl, rfl, rfl, rfl, rfl, rfl, rfl, rfl, rfl⟩
    · rw [State.fibreAt_gangs gangs, fibreAt_enterAll mem nodup, was, Option.map_some]
    · obtain rfl : x0 = x := Option.some.inj (head.symm.trans leads)
      rw [← unitOf_expansion (s := s) (c := g.cluster) expansion]
      exact enter_guest pers emul expansion inside
  · rw [State.fibreAt_gangs gangs, fibreAt_enterAll_other out]
  · rw [State.skein_gangs gangs, skein_enterAll_other other]

end Sys2Proof.Machine
end


section
/-! PROOFS, O44. What a completion makes of its entry: the operation ends or fails, the counter of its kind falls once, and the acknowledgement
takes the entry away. -/

namespace Sys2Proof.Machine

open Sys2Proof.Says

/-! ## Where a skein stands, in a gang that is not frozen -/

/-- The skein of a name is y, and its gang is not frozen. -/
def State.Stands (t : State) (id : EntryId) (y : Skein) : Prop :=
  ∃ g, t.gang id.gang = some g ∧ g.frozen = false ∧ g.skeins[id.skein]? = some y

theorem Named.stands {s : State} {id : EntryId} {g : Gang} {sk : Skein} {e : Entry} (h : Named s id g sk e) : s.Stands id sk := by
  obtain ⟨gang, free, skein, -⟩ := h
  exact ⟨g, gang, free, skein⟩

namespace State.Stands

variable {s t : State} {id : EntryId} {y : Skein}

theorem gangs (h : s.Stands id y) (same : t.gangs = s.gangs) : t.Stands id y := by
  obtain ⟨g, gang, free, skein⟩ := h
  refine ⟨g, ?_, free, skein⟩
  rw [State.gang, same]
  exact gang

theorem skein (h : t.Stands id y) : t.skein id.gang id.skein = some y := by
  obtain ⟨g, gang, -, skein⟩ := h
  rw [State.skein, gang]
  exact skein

theorem modSkein (h : t.Stands id y) (f : Skein → Skein) : (t.modSkein id.gang id.skein f).Stands id (f y) := by
  obtain ⟨g, gang, free, skein⟩ := h
  refine ⟨{ g.modSkein id.skein f with key := id.gang }, ?_, free, ?_⟩
  · rw [State.modSkein, State.gang_modGang_same, gang, Option.map_some]
  · simp only [Gang.modSkein, modifyAt_getElem?, skein, if_true, Option.map_some]

theorem putOp (h : t.Stands id y) (o : SlotOp) : (t.putOp id o).Stands id (y.modEntry id.seq fun e => e.putOp o) := h.modSkein _

theorem ackEntry (h : t.Stands id y) : (t.modSkein id.gang id.skein fun y => y.ackEntry id.seq).Stands id (y.ackEntry id.seq) := h.modSkein _

theorem closeId (h : t.Stands id y) : (t.closeId id).Stands id (y.close id.seq) := (h.modSkein fun sk => sk.close id.seq).gangs (t.gangs_closeId id)

theorem located (h : t.Stands id y) {x : Entry} (entry : y.entry id.seq = some x) : ∃ g, t.located id = some (g, y, x) := by
  obtain ⟨g, gang, free, skein⟩ := h
  refine ⟨g, ?_⟩
  simp only [State.located, gang, free, skein, entry, Bool.false_eq_true, if_false, Option.map_some]

/-- The entry owes nothing more. -/
theorem any_finished (h : t.Stands id y) {x : Entry} (entry : y.entry id.seq = some x) (finished : x.finished = true) :
    ((t.located id).any fun q => q.2.2.finished) = true := by
  obtain ⟨g, located⟩ := h.located entry
  rw [located]
  exact finished

end State.Stands

/-! ## Memory and the host beside -/

theorem State.host_closeId (s : State) (id : EntryId) : (s.closeId id).host = s.host := by
  rw [State.closeId_eq, (recorded_settleFar ..).host]
  obtain ⟨cs, foot⟩ := (s.modSkein id.gang id.skein fun sk => sk.close id.seq).settleFootprint_eq id.gang
  rw [foot]
  exact State.modSkein_host ..

theorem State.ordering_memHost (s : State) (g : Gang) (f : Partition → Partition) : (s.ordering g f).mem = s.mem ∧ (s.ordering g f).host = s.host := by
  unfold State.ordering
  simp only
  split <;> exact ⟨rfl, rfl⟩

theorem State.ordOutside_memHost (s : State) : s.ordOutside.mem = s.mem ∧ s.ordOutside.host = s.host := by
  refine List.foldlRecOn (motive := fun t : State => t.mem = s.mem ∧ t.host = s.host) s.gangs _ ⟨rfl, rfl⟩ fun t kept g _ => ?_
  obtain ⟨mem, host⟩ := t.ordering_memHost g fun x => x.publish g [(8, 0, 0)]
  exact ⟨mem.trans kept.1, host.trans kept.2⟩

/-! ## The last operation of an entry -/

section
variable {y : Skein} {seq : Nat} {x : Entry}

/-- An entry that owes its acknowledgement alone: its counter falls. -/
theorem Skein.close_unacked (entry : y.entry seq = some x) (finished : x.finished = true) (acked : x.acked = false) (counted : x.portacc = false) :
    y.close seq = (y.lower x.kind).modEntry seq fun e => { e with portacc := true } := by
  simp only [Skein.close, entry, finished, acked, Skein.releaseCount, counted, Bool.false_eq_true, if_false, if_true]

theorem Skein.lower_record (y : Skein) (kind : Nat) : (y.lower kind).record = y.record ∧ (y.lower kind).ackc = y.ackc := by
  unfold Skein.lower
  split <;> exact ⟨rfl, rfl⟩

/-- The acknowledgement of an entry whose counter has fallen takes it away. -/
theorem Skein.close_ackEntry (entry : y.entry seq = some x) (finished : x.finished = true) (acked : x.acked = false) (counted : x.portacc = true) :
    (y.ackEntry seq).close seq = { y with ackc := y.ackc - 1, record := (y.ackEntry seq).record.filter fun q => q.seq != seq } := by
  have told : y.ackEntry seq = { y.modEntry seq fun e => { e with acked := true } with ackc := y.ackc - 1 } := by
    simp only [Skein.ackEntry, entry, acked, Bool.false_eq_true, if_false]
  have entry' : (y.ackEntry seq).entry seq = some { x with acked := true } := by
    rw [told]
    exact Skein.entry_changed entry (f := fun e => { e with acked := true }) fun _ => rfl
  rw [Skein.close_finished entry' finished rfl, Skein.dropEntry_acked entry' rfl]
  simp only [counted, if_true]
  rw [told]
  rfl

end

/-- An entry whose counter has fallen and that owes nothing but its acknowledgement, acknowledged. -/
theorem State.Stands.acknowledged {t : State} {id : EntryId} {y : Skein} {x : Entry} (h : t.Stands id y) (entry : y.entry id.seq = some x)
    (finished : x.finished = true) (acked : x.acked = false) (counted : x.portacc = true) :
    ∃ r, ((t.modSkein id.gang id.skein fun y => y.ackEntry id.seq).closeId id).Stands id { y with ackc := y.ackc - 1, record := r } ∧
      ∀ q ∈ r, q.seq ≠ id.seq := by
  have closed := h.ackEntry.closeId
  rw [Skein.close_ackEntry entry finished acked counted] at closed
  exact ⟨_, closed, fun q hq => bne_iff_ne.1 (List.mem_filter.1 hq).2⟩

/-- The state in which every fibre may try again. -/
theorem State.Stands.skein_clearTried {t : State} {id : EntryId} {y : Skein} (h : t.Stands id y) :
    t.clearTried.skein id.gang id.skein = some (y.mapFibres fun _ => untried) := by
  rw [State.skein_clearTried, h.skein, Option.map_some]

/-! ## The completion of an atomic at the host -/

section
variable {s : State} {id : EntryId} {g : Gang} {sk : Skein} {e : Entry} {o : SlotOp}

/-- What the completion of an atomic has done before the value is delivered. -/
def State.seenAtom (s : State) (g : Gang) (e : Entry) : State :=
  let s0 := s.ordOutside.ordering g fun x => x.obtain g fun _ => false
  if e.acquire then s0.acquireCaches g.via 5 else s0

theorem State.gangs_seenAtom (s : State) (g : Gang) (e : Entry) : (s.seenAtom g e).gangs = s.gangs := by
  have seen : (s.ordOutside.ordering g fun x => x.obtain g fun _ => false).gangs = s.gangs :=
    (beside_ordering ..).gangs.trans (beside_ordOutside ..).gangs
  unfold State.seenAtom
  split
  · exact (beside_acquireCaches ..).gangs.trans seen
  · exact seen

theorem State.host_seenAtom (s : State) (g : Gang) (e : Entry) : (s.seenAtom g e).host = s.host := by
  have seen : (s.ordOutside.ordering g fun x => x.obtain g fun _ => false).host = s.host := (State.ordering_memHost ..).2.trans s.ordOutside_memHost.2
  unfold State.seenAtom
  split
  · exact (homeBytes_acquireCaches (h := .host) Home.noConfusion ..).trans seen
  · exact seen

theorem State.mem_seenAtom (s : State) (g : Gang) (relaxed : e.acquire = false) : (s.seenAtom g e).mem = s.mem := by
  simp only [State.seenAtom, relaxed, Bool.false_eq_true, if_false]
  exact (State.ordering_memHost ..).1.trans s.ordOutside_memHost.1

theorem loadWords_atomic {kind aop size v : Nat} (atomic : kind = 5 ∨ kind = 6) : loadWords kind aop size v = words (max 1 (size / 4)) v := by
  rw [← wordsOf_eq_words]
  rcases atomic with rfl | rfl <;> rfl

/-- The skein with an atomic's value in the registers of the fibre whose it was. -/
def Skein.wrote (sk : Skein) (e : Entry) (o : SlotOp) (v : Nat) : Skein := sk.modUid o.uid fun x => x.wrPlaces o.dst (words (max 1 (e.size / 4)) v)

theorem Skein.lower_atomic (sk : Skein) {kind : Nat} (atomic : kind = 5 ∨ kind = 6) : sk.lower kind = { sk with l := sk.l - 1 } := by
  rcases atomic with rfl | rfl <;> rfl

/-- An atomic's value written to its registers; the entry then ends where nothing else is owed. -/
theorem State.deliver_atomic (s : State) (atomic : e.kind = 5 ∨ e.kind = 6) (v : Nat) : s.deliver id g e o v =
    ((s.modSkein id.gang id.skein fun sk => sk.wrote e o v).putOp id (o.ended v)).closeId id := by
  have off : s.putLogValue g e o v = s := if_pos (.inr (by rcases atomic with h | h <;> rw [h] <;> decide))
  simp only [State.deliver, off, loadWords_atomic atomic]
  rfl

theorem State.completeAtom_done (s : State) (atomic : e.kind = 5 ∨ e.kind = 6) (v : Nat) : s.completeAtom id g e o 0 v =
    (let s1 := (s.seenAtom g e).deliver id g e o v
     if (s1.located id).any (fun q => q.2.2.finished) then (s1.modSkein id.gang id.skein fun y => y.ackEntry id.seq).closeId id else s1) := by
  have load : loadLike e.kind = true := by rcases atomic with h | h <;> rw [h] <;> rfl
  simp only [State.completeAtom, load, if_true]
  rfl

/-- The completion of the last operation of an atomic: its value is in its registers, L and ACKC have fallen, and the entry is gone. -/
theorem State.Stands.completeAtom (h : s.Stands id sk) (entry : sk.entry id.seq = some e) (atomic : e.kind = 5 ∨ e.kind = 6) (owed : e.acked = false)
    (counted : e.portacc = false) (rest : ∀ q ∈ e.ops, q ≠ o → q.stage = .done) (v : Nat) :
    ∃ r, (s.completeAtom id g e o 0 v).Stands id { sk.wrote e o v with
        l := sk.l - 1, ackc := sk.ackc - 1, record := r } ∧ (∀ q ∈ r, q.seq ≠ id.seq) ∧
      (s.completeAtom id g e o 0 v).mem = (s.seenAtom g e).mem ∧ (s.completeAtom id g e o 0 v).host = (s.seenAtom g e).host := by
  have finished : (e.putOp (o.ended v)).finished = true :=
    Entry.finished_last fun q hq other => rest q hq fun same => other (same ▸ ⟨rfl, rfl⟩)
  -- the value is written, and the operation ends
  have written := ((h.gangs (s.gangs_seenAtom g e)).modSkein fun sk => sk.wrote e o v).putOp
    (o.ended v)
  have ended := Skein.entry_changed (sk := sk.wrote e o v) (f := fun e => e.putOp (o.ended v))
    entry fun _ => rfl
  -- the counter falls with the last operation
  have closed := written.closeId
  rw [Skein.close_unacked ended finished owed counted, Skein.lower_atomic _ (kind := (e.putOp (o.ended v)).kind) atomic] at closed
  have alone := Skein.entry_changed (sk := { (sk.wrote e o v).modEntry id.seq (fun e => e.putOp (o.ended v)) with l := sk.l - 1 }) (seq := id.seq)
    (f := fun e => { e with portacc := true }) ended fun _ => rfl
  -- the acknowledgement takes the entry away
  obtain ⟨r, gone, none_⟩ := closed.acknowledged alone finished owed rfl
  have does : s.completeAtom id g e o 0 v = (((((s.seenAtom g e).modSkein id.gang id.skein fun sk => sk.wrote e o v).putOp id (o.ended v)).closeId id).modSkein
      id.gang id.skein fun y => y.ackEntry id.seq).closeId id := by
    rw [s.completeAtom_done atomic, State.deliver_atomic _ atomic]
    exact if_pos (closed.any_finished alone finished)
  rw [does]
  refine ⟨r, gone, none_, ?_, ?_⟩
  · rw [State.mem_closeId, State.modSkein_mem, State.mem_closeId, State.putOp, State.modSkein_mem, State.modSkein_mem]
  · rw [State.host_closeId, State.modSkein_host, State.host_closeId, State.putOp, State.modSkein_host, State.modSkein_host]

end

/-- An atomic that is looked for is one that still waits. -/
theorem findAtom_sent {s : State} {tag : W64} {slot : Nat} {id : EntryId} {g : Gang} {e : Entry} {o : SlotOp}
    (found : s.findAtom tag slot = some (id, g, e, o)) : o.stage = .sent := by
  obtain ⟨g', -, inGang⟩ := List.exists_of_findSome?_eq_some found
  split at inGang
  · cases inGang
  · obtain ⟨p, -, inSkein⟩ := List.exists_of_findSome?_eq_some inGang
    obtain ⟨e', -, inEntry⟩ := List.exists_of_findSome?_eq_some inSkein
    split at inEntry
    · obtain ⟨o', at_, same⟩ := Option.map_eq_some_iff.1 inEntry
      cases same
      have waits := List.find?_some at_
      simp only [Bool.and_eq_true, beq_iff_eq] at waits
      exact waits.2
    · cases inEntry

/-! ## Operations that fail (spec/19 R424, spec/21 R447) -/

section
variable {s : State} {id : EntryId} {g : Gang} {sk : Skein} {e : Entry} {o : SlotOp} {t n : Nat} {x : Fibre}

/-- A load or an atomic whose fibre is there fails for its consumer. -/
theorem State.failOp_load (h : Named s id g sk e) (op : e.op t = some o) (load : loadLike e.kind = true) (sent : o.stage = .sent)
    (fibre : sk.fibre n = some x) (mine : x.uid = o.uid) : s.failOp id t .timeout =
      if e.acked then s.putOp id { o with stage := .failed .timeout }
      else (s.putOp id { o with stage := .failed .timeout }).modSkein id.gang id.skein fun y => y.ackEntry id.seq := by
  have open_ : o.complete = false := by rw [SlotOp.complete, sent]
  have alive : (sk.live.any fun p => p.2.uid == o.uid) = true := List.any_eq_true.2 ⟨(n, x), (Skein.mem_live ..).2 fibre, beq_iff_eq.2 mine⟩
  have quiet : s.noteBad g id.skein e o .timeout = s := if_neg (by decide)
  simp only [State.failOp, Named.located h, op, open_, load, alive, quiet, Bool.and_true, Bool.false_eq_true, if_false, if_true]

/-- What a failed load or atomic leaves: the operation failed, its fibres and L as before. -/
theorem State.failOp_stands (h : Named s id g sk e) (op : e.op t = some o) (load : loadLike e.kind = true) (sent : o.stage = .sent)
    (fibre : sk.fibre n = some x) (mine : x.uid = o.uid) :
    ∃ y e', (s.failOp id t .timeout).Stands id y ∧ y.slots = sk.slots ∧ y.l = sk.l ∧ y.entry id.seq = some e' ∧
      e'.ops = restaged e o (.failed .timeout) ∧ (s.failOp id t .timeout).mem = s.mem ∧ (s.failOp id t .timeout).host = s.host := by
  have put := (Named.stands h).putOp { o with stage := .failed .timeout }
  have entry := Skein.entry_changed (Named.entry h) (f := fun e => e.putOp { o with stage := .failed .timeout }) fun _ => rfl
  rw [State.failOp_load h op load sent fibre mine]
  split
  · exact ⟨_, _, put, rfl, rfl, entry, rfl, State.modSkein_mem .., State.modSkein_host ..⟩
  · rename_i owed
    have told : (sk.modEntry id.seq fun e => e.putOp { o with stage := .failed .timeout }).ackEntry id.seq =
        { (sk.modEntry id.seq fun e => e.putOp { o with stage := .failed .timeout }).modEntry id.seq (fun e => { e with acked := true }) with
          ackc := sk.ackc - 1 } := by
      simp only [Skein.ackEntry, entry]
      exact if_neg owed
    refine ⟨_, { e.putOp { o with stage := .failed .timeout } with acked := true }, put.ackEntry, ?_, ?_, ?_, ?_, ?_, ?_⟩
    · rw [told]; rfl
    · rw [told]; rfl
    · rw [told]; exact Skein.entry_changed entry (f := fun e => { e with acked := true }) fun _ => rfl
    · rfl
    · rw [State.modSkein_mem, State.putOp, State.modSkein_mem]
    · rw [State.modSkein_host, State.putOp, State.modSkein_host]

/-- The failure as the fibres find it. -/
theorem State.failOp_tried (h : Named s id g sk e) (op : e.op t = some o) (load : loadLike e.kind = true) (sent : o.stage = .sent)
    (fibre : sk.fibre n = some x) (mine : x.uid = o.uid) :
    ∃ sk', (s.failOp id t .timeout).clearTried.skein id.gang id.skein = some sk' ∧
      (∃ e', sk'.record.find? (fun q => q.seq == id.seq) = some e' ∧ e'.ops = restaged e o (.failed .timeout)) ∧
      (∀ n x, sk.fibre n = some x → sk'.fibre n = some (untried x)) ∧ sk'.l = sk.l ∧ (s.failOp id t .timeout).clearTried.mem = s.mem ∧
      (s.failOp id t .timeout).clearTried.host = s.host := by
  obtain ⟨y, e', stands, slots, l, entry, ops, mem, host⟩ := State.failOp_stands h op load sent fibre mine
  refine ⟨_, stands.skein_clearTried, ⟨e', entry, ops⟩, fun n x at_ => ?_, l, mem, host⟩
  rw [Skein.fibre_mapFibres, Skein.fibre_slots slots, at_, Option.map_some]

/-- A request answered with an error, or not in time: a load's fails for its consumer. -/
theorem State.failRequest_load (h : Named s id g sk e) (guest : id.gang ≠ 0) (load : e.kind = 1 ∨ e.kind = 2) (plain : e.copies = [])
    (op : e.op t = some o) (sent : o.stage = .sent) (port : o.parts.any Part.port = true) : s.failRequest id t .timeout = s.failOp id t .timeout := by
  have open_ : o.complete = false := by rw [SlotOp.complete, sent]
  have monitor : e.kind ≠ 0x0B := by rcases load with h | h <;> rw [h] <;> decide
  have performed : (o.stage == .performed) = false := by rw [sent]; rfl
  simp only [State.failRequest, guest, if_false, Named.located h, Option.isSome_some, if_true, State.endRequest, op, plain, port, monitor, open_, performed,
    List.isEmpty_nil, Bool.not_true, Bool.not_false, Bool.and_false, Bool.true_and, Bool.false_eq_true]

theorem State.postedToHost_load (h : Named s id g sk e) (load : e.kind = 1 ∨ e.kind = 2) (t : Nat) : s.postedToHost id t = false := by
  rw [State.postedToHost, Named.located h]
  rcases load with k | k <;> simp [k]

theorem State.perhapsPerformed_load (h : Named s id g sk e) (load : e.kind = 1 ∨ e.kind = 2) (op : e.op t = some o) : s.perhapsPerformed id t = s.draw := by
  rw [State.perhapsPerformed, Named.located h]
  rcases load with k | k <;> simp [k, op]

end

/-! ## Parked completions (spec/13 R337, R338) -/

section
variable {s : State} {id : EntryId} {g : Gang} {sk : Skein} {e : Entry} {o : SlotOp}

/-- An acknowledgement of a parked write, the last that its entry owes. -/
theorem State.Stands.parkedWrite {c : Completion} (h : s.Stands id sk) (entry : sk.entry id.seq = some e) (found : s.findParked c = some (id, g, e, o))
    (fine : c.status = 0) (store : e.kind = 3 ∨ e.kind = 4) (owed : e.acked = false) (counted : e.portacc = true)
    (rest : ∀ q ∈ e.ops, q ≠ o → q.stage = .done) :
    ∃ y, (s.deliverParked c).Stands id y ∧ y.ackc = sk.ackc - 1 ∧ y.s = sk.s ∧ (∀ q ∈ y.record, q.seq ≠ id.seq) ∧ (s.deliverParked c).mem = s.mem := by
  have put := h.putOp { o with stage := .done }
  have ended := Skein.entry_changed entry (f := fun e => e.putOp { o with stage := .done }) fun _ => rfl
  have finished : (e.putOp { o with stage := .done }).finished = true :=
    Entry.finished_last (o := o) (v := o.val) fun q hq other => rest q hq fun same => other (same ▸ ⟨rfl, rfl⟩)
  have plain : hostAtom e o = false := by rcases store with k | k <;> simp [hostAtom, k]
  have write : loadLike e.kind = false := by rcases store with k | k <;> rw [k] <;> rfl
  obtain ⟨r, gone, none_⟩ := put.acknowledged ended finished owed counted
  have does : s.deliverParked c = (((s.putOp id { o with stage := .done }).modSkein id.gang id.skein fun y => y.ackEntry id.seq).closeId id) := by
    simp only [State.deliverParked, found, plain, write, fine, if_true, Bool.false_eq_true, if_false]
    exact if_pos (put.any_finished ended finished)
  rw [does]
  refine ⟨_, gone, rfl, rfl, none_, ?_⟩
  rw [State.mem_closeId, State.modSkein_mem, State.putOp, State.modSkein_mem]

end

/-- A completion that no operation waits for does nothing. -/
theorem State.parkFor_none {s : State} {c : Completion} (nobody : s.parkedOp c.tag c.slot = none) : s.parkFor c = s := by
  rw [State.parkFor, nobody]

/-- Behind completions that are held at the port, and without a parking area, one more is held. -/
theorem State.parkFor_held {s : State} {c : Completion} {w : Nat} {e : Entry} {o : SlotOp} (op : s.parkedOp c.tag c.slot = some (w, e, o))
    (behind : (s.world w).held ≠ []) (area : ∀ a, s.parkArea w ≠ .ok a) (fresh : ∀ d ∈ (s.world w).held, d.tag ≠ c.tag ∨ d.slot ≠ c.slot) :
    s.parkFor c = (s.modWorld w fun x => { x with held := x.held ++ [c] }).markCmpl c.tag := by
  have new : (s.world w).held.any (fun d => d.tag == c.tag && d.slot == c.slot) = false :=
    List.any_eq_false.2 fun d hd => by
      rcases fresh d hd with h | h <;> simp [h]
  have waits : (s.world w).held.isEmpty = false := Bool.eq_false_iff.2 fun none_ => behind (List.isEmpty_iff.1 none_)
  cases found : s.parkArea w with
  | ok a => exact absurd found (area a)
  | error code =>
    simp only [State.parkFor, op, found, new, State.park, waits, State.holdAtPort, Bool.false_or, Bool.false_eq_true, if_false, Bool.not_false, if_true]

/-! ## The request ring (spec/14 R362) -/

theorem ringField_lt (bs : List Byte) (off n : Nat) : ringField bs off n < 2 ^ (8 * n) :=
  (ofBytes_lt _).trans_le (Nat.pow_le_pow_right (by decide) (Nat.mul_le_mul_left 8 (List.length_take_le ..)))

/-- Settles O44, by how each kind of completion ends its entry. -/
theorem hostAtomicsAndFailedRequests : Obligations.HostAtomicsAndFailedRequests := by
  refine ⟨?_, ?_, ?_, ?_, ?_, ?_, ?_, ?_⟩
  · intro s c id g sk e o named found fine atomic owed counted rest
    obtain ⟨r, stands, none_, mem, host⟩ := (Named.stands named).completeAtom (g := g) (Named.entry named) atomic owed counted rest
      (c.value.toNat % 2 ^ (8 * e.size))
    refine ⟨_, _, ?_, stands.skein_clearTried, fun n x at_ => ?_, rfl, rfl, none_, fun relaxed => mem.trans (s.mem_seenAtom g relaxed),
      host.trans (s.host_seenAtom g e)⟩
    · rw [exec_atomicopCompletion, execAtomicopCompletion, found, fine]
    · have wrote : (sk.wrote e o (c.value.toNat % 2 ^ (8 * e.size))).fibre n = some (if x.uid = o.uid then
          x.wrPlaces o.dst (words (max 1 (e.size / 4)) (c.value.toNat % 2 ^ (8 * e.size))) else x) := by
        rw [Skein.wrote, Skein.modUid, Skein.fibre_mapFibres, at_, Option.map_some]
      rw [Skein.fibre_mapFibres]
      exact congrArg (Option.map untried) wrote
  · intro s c id g sk e o n x named found lost atomic op fibre mine
    have sent := findAtom_sent found
    have load : loadLike e.kind = true := by rcases atomic with h | h <;> rw [h] <;> rfl
    obtain ⟨sk', skein, entry, fibres, -, mem, host⟩ := State.failOp_tried named op load sent fibre mine
    refine ⟨_, sk', ?_, skein, entry, fibres, mem, host⟩
    rw [exec_atomicopCompletion, execAtomicopCompletion, found, lost]
    rfl
  · intro s c nobody none_
    rw [exec_atomicopCompletion, execAtomicopCompletion, nobody, State.parkFor_none none_]
  · intro s w v n base ha s1 ring within frame bs done
    have inRing : ¬ n ≤ v.toNat := Nat.not_le.2 within
    refine ⟨fun pending => ?_, fun id g e o answered found position assisted world => ?_⟩
    · simp only [exec_hostAtomicDone, execHostAtomicDone, ring, inRing, frame, if_false]
      exact if_pos pending
    · have completes : exec (.atomicopCompletion done) s1 =
          .next (s1.completeAtom id g e o done.status (done.value.toNat % 2 ^ (8 * e.size))).clearTried := by
        rw [exec_atomicopCompletion, execAtomicopCompletion, found]
      have value : done.value.toNat = ringField bs 0x20 8 :=
        Nat.mod_eq_of_lt ((ringField_lt bs 0x20 8).trans_le (Nat.pow_le_pow_right (by decide) (by decide)))
      refine ⟨_, ?_, completes⟩
      simp only [exec_hostAtomicDone, execHostAtomicDone, ring, inRing, frame, if_false]
      refine (if_neg answered).trans ?_
      rw [value]
      split
      next at_ =>
        cases at_.symm.trans found
        exact if_pos ⟨.inr ⟨position, assisted⟩, world⟩
      next at_ => cases at_.symm.trans found
  · intro s id g sk e t o n x i is named guest load plain acked op sent port fibre mine
    have kind : loadLike e.kind = true := by rcases load with h | h <;> rw [h] <;> rfl
    rcases is with rfl | rfl
    · obtain ⟨sk', skein, entry, fibres, l, mem, host⟩ := State.failOp_tried named op kind sent fibre mine
      refine ⟨_, sk', ?_, skein, entry, fibres, l, mem, host⟩
      rw [exec_completerError, execCompleterError, State.postedToHost_load named load, State.failRequest_load named guest load plain op sent port]
      rfl
    · have drawn : Named s.draw id g sk e := named
      obtain ⟨sk', skein, entry, fibres, l, mem, host⟩ := State.failOp_tried drawn op kind sent fibre mine
      refine ⟨_, sk', ?_, skein, entry, fibres, l, mem, host⟩
      rw [exec_requestTimeout, execRequestTimeout, State.perhapsPerformed_load named load op, State.failRequest_load drawn guest load plain op sent port]
  · intro s c id g sk e o named found fine store owed counted rest
    obtain ⟨y, stands, ackc, st, gone, mem⟩ := (Named.stands named).parkedWrite (Named.entry named) found fine store owed counted rest
    refine ⟨_, _, ?_, stands.skein_clearTried, ackc, st, gone, mem⟩
    rw [exec_parkedCompletion, execParkedCompletion, found]
  · intro s c nobody none_
    rw [exec_parkedCompletion, execParkedCompletion, nobody, State.parkFor_none none_]
  · intro s c w e o nobody op behind area fresh
    rw [exec_parkedCompletion, execParkedCompletion, nobody, State.parkFor_held op behind area fresh]

end Sys2Proof.Machine
end


section
/-! PROOFS, O52. A guest's claim of a trace unit that is owned does nothing; while the device has not booted that "nothing" is the state itself, not
the state in which every fibre may try to issue again, which the statement asks for without speaking of the boot. -/

namespace Sys2Proof.Machine

open Sys2Proof.Says

/-- A device before its boot has ended: the hypervisor owns cluster 0's trace unit, and a gang's fibre has tried to issue. -/
def unbooted : State :=
  { State.reset with
    clusters := [(0, { Cluster.reset with trace := { Cluster.reset.trace with owner := 1 } })]
    gangs := [{ Gang.fresh 1 .rand 0 0 0 0 16 with skeins := [Skein.fresh 1 0 0 true [{ Fibre.fresh 2 16 0 0 0 0 with tried := true }]] }] }

theorem claim_unbooted : exec (.traceClaim 0 (some 0)) unbooted = .next unbooted := by
  rw [exec_traceClaim]
  rfl

/-- Whether a fibre of slot 0 has tried to issue tells the two states apart. -/
theorem unbooted_ne_clearTried : unbooted ≠ unbooted.clearTried := by
  intro same
  have tried := congrArg (fun s : State => (s.fibreAt 1 0 0).map (·.tried)) same
  exact absurd tried (by decide)

/-- Refutes O52: before the boot has ended a guest's claim of an owned trace unit leaves the state as it is, fibres that have tried to issue
included. -/
theorem not_traceDebugAndTrust : ¬ Obligations.TraceDebugAndTrust := by
  intro holds
  obtain ⟨-, -, -, owned, -⟩ := holds
  have leads : exec (.traceClaim 0 (some 0)) unbooted = .next unbooted.clearTried := owned unbooted 0 0 (by decide)
  rw [claim_unbooted] at leads
  exact unbooted_ne_clearTried (Host.Outcome.next.inj leads)

end Sys2Proof.Machine
end


section
/-! PROOFS, O47. Doorbells, `QCTL`, and the packets of a command queue: what the parser does with a packet that it has read, once for every type, and then each type. -/

namespace Sys2Proof.Machine

open Sys2Proof.Says

/-! ## A queue after a change (spec/12 R309) -/

theorem State.queue_modQueue (s : State) (w q : Nat) (f : Queue → Queue) : (s.modQueue w q f).queue w q = f (s.queue w q) := by
  simp only [State.queue, State.modQueue, State.world_modWorld_same, World.queue, tget_tset_same, Option.getD_some]

/-- Whatever else changes beside the worlds' registers. -/
theorem queue_of_modQueue {s u : State} {w q : Nat} (f : Queue → Queue) (worlds : u.worlds = (s.modQueue w q f).worlds) :
    u.queue w q = f (s.queue w q) := (State.queue_of_worlds worlds w q).trans (State.queue_modQueue ..)

theorem State.homeCluster_of {s t : State} {w q : Nat} (ctl : (t.queue w q).ctl = (s.queue w q).ctl) (partitions : t.partitions = s.partitions) :
    t.homeCluster w q = s.homeCluster w q := by
  rw [State.homeCluster, State.homeCluster, ctl, partitions]

theorem State.threadParses_eq (s : State) (w : Nat) : s.threadParses w = threadParsing s w := bitOf_eq_testBit ..

/-- A stopped queue: `EN` is 0 and `ERR` the code. -/
theorem Queue.stopped_ctl (x : Queue) {err : Nat} (small : err < 8) :
    (x.stopped err).ctl.toNat % 2 = 0 ∧ (x.stopped err).ctl.toNat / 2 ^ 24 = err := by
  have low : x.ctl.toNat % 2 ^ 24 / 2 * 2 + err * 2 ^ 24 < 2 ^ 64 := by omega
  have value : (x.stopped err).ctl.toNat = x.ctl.toNat % 2 ^ 24 / 2 * 2 + err * 2 ^ 24 := by
    simp only [Queue.stopped, BitVec.toNat_ofNat, Nat.mod_eq_of_lt low]
  omega

@[simp] theorem Queue.stopped_qrd (x : Queue) (err : Nat) : (x.stopped err).qrd = x.qrd := by rw [Queue.stopped]
@[simp] theorem Queue.stopped_qwr (x : Queue) (err : Nat) : (x.stopped err).qwr = x.qwr := by rw [Queue.stopped]
@[simp] theorem Queue.stopped_live (x : Queue) (err : Nat) : (x.stopped err).live = x.live := by rw [Queue.stopped]
@[simp] theorem Queue.stopped_csn (x : Queue) (err : Nat) : (x.stopped err).csn = x.csn := by rw [Queue.stopped]

theorem State.modQueue_congr {s : State} {w q : Nat} {f g : Queue → Queue} (h : f (s.queue w q) = g (s.queue w q)) :
    s.modQueue w q f = s.modQueue w q g :=
  congrArg (fun y => s.setWorld w { s.world w with queues := tset (s.world w).queues q y }) h

/-! ## What a packet changes besides its queue: registers of worlds, interrupts, turns -/

/-- t is s but for registers of worlds and interrupts. -/
def Signalled (s t : State) : Prop := ∃ ws ms, t = { s with worlds := ws, msix := ms }

theorem Signalled.refl (s : State) : Signalled s s := ⟨s.worlds, s.msix, rfl⟩

theorem Signalled.trans {s t u : State} (a : Signalled s t) (b : Signalled t u) : Signalled s u := by
  obtain ⟨_, _, rfl⟩ := a
  obtain ⟨ws, ms, rfl⟩ := b
  exact ⟨ws, ms, rfl⟩

theorem signalled_modQueue (s : State) (w q : Nat) (f : Queue → Queue) : Signalled s (s.modQueue w q f) := ⟨_, _, rfl⟩

section
variable {s t : State} (h : Signalled s t)
include h

theorem Signalled.mem : t.mem = s.mem := by obtain ⟨_, _, rfl⟩ := h; rfl
theorem Signalled.clusters : t.clusters = s.clusters := by obtain ⟨_, _, rfl⟩ := h; rfl
theorem Signalled.cluster (c : Nat) : t.cluster c = s.cluster c := by obtain ⟨_, _, rfl⟩ := h; rfl
theorem Signalled.part (p : Nat) : t.part p = s.part p := by obtain ⟨_, _, rfl⟩ := h; rfl
theorem Signalled.grids : t.grids = s.grids := by obtain ⟨_, _, rfl⟩ := h; rfl
theorem Signalled.gangs : t.gangs = s.gangs := by obtain ⟨_, _, rfl⟩ := h; rfl
theorem Signalled.ctxs : t.ctxs = s.ctxs := by obtain ⟨_, _, rfl⟩ := h; rfl
theorem Signalled.host : t.host = s.host := by obtain ⟨_, _, rfl⟩ := h; rfl
theorem Signalled.partitions : t.partitions = s.partitions := by obtain ⟨_, _, rfl⟩ := h; rfl

end

/-- The live packet that a start of the parsed one makes. -/
def Parsed.live (p : Parsed) (caddr cinc : Nat) : Packet :=
  { number := p.number, addr := p.addr, hcpc := p.hcpc, typ := p.field 0 1, intr := bitOf (p.field 1 1) 1, vec := p.field 2 2,
    caddr := BitVec.ofNat 64 caddr, cinc := BitVec.ofNat 64 cinc, csn := p.csn }

/-- A queue past the packet that it has started. -/
def Queue.started (y : Queue) (k : Packet) : Queue := { y with qrd := (y.qrd + 1) % 2 ^ 32, live := y.live ++ [k], waiting := none }

theorem State.homeCluster_modQueue (s : State) (w q : Nat) {f : Queue → Queue} (ctl : ∀ y, (f y).ctl = y.ctl) :
    (s.modQueue w q f).homeCluster w q = s.homeCluster w q :=
  State.homeCluster_of ((congrArg Queue.ctl (State.queue_modQueue ..)).trans (ctl _)) rfl

section
variable {s : State} {w q : Nat} (untraced : (s.cluster (s.homeCluster w q)).trace.owner = 0)
include untraced

theorem startPacket_untraced (p : Parsed) (caddr cinc : Nat) :
    s.startPacket w q p caddr cinc = s.modQueue w q fun y => y.started (p.live caddr cinc) := by
  have home := s.homeCluster_modQueue w q (f := fun y => y.started (p.live caddr cinc)) fun _ => rfl
  refine trace_free _ _ _ _ ?_
  exact (congrArg (fun c => (s.cluster c).trace.owner) home).trans untraced

/-- A packet that completes goes from its queue, and its interrupt is raised. -/
theorem closePacket_untraced {n : Nat} {k : Packet} (found : ((s.queue w q).live.find? fun p => p.number == n) = some k) :
    s.closePacket w q n = (let s1 := s.modQueue w q fun x => { x with live := x.live.filter fun y => y.number != n }
      if k.intr then s1.raise w k.vec else s1) := by
  have home := s.homeCluster_modQueue w q (f := fun x => { x with live := x.live.filter fun y => y.number != n }) fun _ => rfl
  have quiet := trace_free (s.modQueue w q fun x => { x with live := x.live.filter fun y => y.number != n }) (s.homeCluster w q) 0
    { kind := 9, src := 0, skein := 0, leaf := 0, world := w, hcpc := k.hcpc, csn := k.csn, pc := 0, pc2 := 0, mask := 0, data := k.addr } untraced
  simp only [State.closePacket, found, State.tracePacket, home, quiet]

end

/-- The interrupt of a packet that completes. -/
def Packet.raises (k : Packet) (w : Nat) : List (Nat × Nat) := if k.intr ∧ k.vec < vectorsOf w then [(w, k.vec)] else []

theorem signalled_startPacket {s : State} {w q : Nat} (untraced : (s.cluster (s.homeCluster w q)).trace.owner = 0) (p : Parsed) (caddr cinc : Nat) :
    Signalled s (s.startPacket w q p caddr cinc) := by
  rw [startPacket_untraced untraced]
  exact signalled_modQueue ..

theorem queue_startPacket {s : State} {w q : Nat} (untraced : (s.cluster (s.homeCluster w q)).trace.owner = 0) (p : Parsed) (caddr cinc : Nat) :
    (s.startPacket w q p caddr cinc).queue w q = (s.queue w q).started (p.live caddr cinc) := by
  rw [startPacket_untraced untraced, State.queue_modQueue]

/-- What the completion of a packet changes. -/
structure Closed (s t : State) (w q : Nat) (k : Packet) : Prop where
  signalled : Signalled s t
  queue : t.queue w q = { s.queue w q with live := (s.queue w q).live.filter fun y => y.number != k.number }
  msix : t.msix = s.msix ++ k.raises w

theorem closed_closePacket {s : State} {w q n : Nat} {k : Packet} (untraced : (s.cluster (s.homeCluster w q)).trace.owner = 0)
    (found : ((s.queue w q).live.find? fun p => p.number == n) = some k) : Closed s (s.closePacket w q n) w q k := by
  have number : k.number = n := beq_iff_eq.1 (List.find?_some found :)
  rw [closePacket_untraced untraced found, ← number]
  simp only
  split
  next raised =>
    refine ⟨(signalled_modQueue ..).trans ⟨_, _, rfl⟩, queue_of_modQueue (fun x => { x with live := x.live.filter fun y => y.number != k.number }) rfl, ?_⟩
    refine congrArg (s.msix ++ ·) ?_
    simp only [Packet.raises, raised, true_and]
  next silent =>
    refine ⟨signalled_modQueue .., State.queue_modQueue .., ?_⟩
    exact (List.append_nil _).symm.trans (congrArg (s.msix ++ ·) (if_neg fun h => silent h.1).symm)

/-- A packet whose number no live one has is found once it has started, and its end leaves the others. -/
theorem Queue.started_ends {y : Queue} {k : Packet} (fresh : ∀ p ∈ y.live, p.number ≠ k.number) :
    ((y.started k).live.find? fun p => p.number == k.number) = some k ∧ ((y.started k).live.filter fun p => p.number != k.number) = y.live := by
  have others : ∀ p ∈ y.live, (p.number != k.number) = true := fun p hp => bne_iff_ne.2 (fresh p hp)
  have none_ : (y.live.find? fun p => p.number == k.number) = none := List.find?_eq_none.2 fun p hp same => fresh p hp (beq_iff_eq.1 same)
  constructor
  · simp [Queue.started, List.find?_append, none_]
  · simp only [Queue.started, List.filter_append, List.filter_eq_self.2 others, List.filter_singleton, bne_self_eq_false]
    exact List.append_nil _

/-- A packet that starts and completes at once. -/
theorem closed_startPacket {s : State} {w q : Nat} {p : Parsed} (untraced : (s.cluster (s.homeCluster w q)).trace.owner = 0)
    (fresh : ∀ k ∈ (s.queue w q).live, k.number ≠ p.number) (caddr cinc : Nat) :
    let t := (s.startPacket w q p caddr cinc).closePacket w q p.number
    Signalled s t ∧ t.queue w q = { s.queue w q with qrd := ((s.queue w q).qrd + 1) % 2 ^ 32, waiting := none } ∧
      t.msix = s.msix ++ (p.live caddr cinc).raises w := by
  intro t
  obtain ⟨found, left⟩ := Queue.started_ends (y := s.queue w q) (k := p.live caddr cinc) fresh
  have queue := queue_startPacket untraced p caddr cinc
  have started := signalled_startPacket untraced p caddr cinc
  have home : (s.startPacket w q p caddr cinc).homeCluster w q = s.homeCluster w q :=
    State.homeCluster_of ((congrArg Queue.ctl queue).trans rfl) started.partitions
  have closed := closed_closePacket (s := s.startPacket w q p caddr cinc) (q := q) (n := p.number) (k := p.live caddr cinc)
    (by rw [home, started.cluster]; exact untraced) (by rw [queue]; exact found)
  refine ⟨started.trans closed.signalled, ?_, ?_⟩
  · rw [closed.queue, queue, left]
    rfl
  · rw [closed.msix, startPacket_untraced untraced]
    rfl

/-! ## What the parser's reads leave alone -/

theorem beside_agentRead (s : State) (v : Access) (va n : Nat) : Beside s (s.agentRead v va n).st := by
  unfold State.agentRead
  split
  · exact .refl s
  · have checked := beside_checkGlobal s v.ctx v.world v.fv .engineRead va n 1
    split
    next e => rw [e] at checked; exact checked
    next e => rw [e] at checked; exact checked
    next ps s1 e =>
      rw [e] at checked
      have checked : Beside s s1 := checked
      split
      · exact checked
      · split
        · exact checked
        next read => exact checked.trans (beside_readParts ps read)

theorem beside_readRange (v : Access) : ∀ (fuel a n : Nat) (s : State), Beside s (s.readRange v fuel a n).st
  | 0, _, _, s => .refl s
  | fuel + 1, a, n, s => by
    unfold State.readRange
    split
    · exact .refl s
    · have first := beside_agentRead s v a (firstLen a n)
      simp only
      split
      next s1 e =>
        rw [e] at first
        have more := beside_readRange v fuel ((a + firstLen a n) % 2 ^ 64) (n - firstLen a n) s1
        split
        next e1 => rw [e1] at more; exact Beside.trans first more
        · exact Beside.trans first more
      · exact first

theorem beside_readPoint (s : State) (v : Access) (d : LaunchDesc) (i : Nat) : Beside s (s.readPoint v d i).st := by
  unfold State.readPoint
  have head := beside_readRange v 2 ((d.eqtab.toNat + 32 * i) % 2 ^ 64) 32 s
  simp only
  split
  next e => rw [e] at head; exact head
  next e => rw [e] at head; exact head
  next bs s1 e =>
    rw [e] at head
    have maps := beside_readRange v 3 ((d.eqtab.toNat + fieldAt bs 0x18 4) % 2 ^ 64) (4 * fieldAt bs 4 2) s1
    split
    all_goals
      next e1 => rw [e1] at maps; exact Beside.trans head maps

theorem beside_readPoints (v : Access) (d : LaunchDesc) : ∀ (n i : Nat) (s : State), Beside s (s.readPoints v d n i).st
  | 0, _, s => .refl s
  | n + 1, i, s => by
    have point := beside_readPoint s v d i
    unfold State.readPoints
    split
    next e => rw [e] at point; exact point
    next e => rw [e] at point; exact point
    next s1 e =>
      rw [e] at point
      have rest := beside_readPoints v d n (i + 1) s1
      split
      next e1 => rw [e1] at rest; exact Beside.trans point rest
      · exact Beside.trans point rest

theorem beside_readLaunch {s t : State} {v : Access} {a : Nat} {x : LaunchDesc × List EqPoint} (h : s.readLaunch v a = .ok x t) : Beside s t := by
  have head := beside_readRange v 2 a 256 s
  unfold State.readLaunch at h
  split at h
  · cases h
  · cases h
  next bs s1 e =>
    rw [e] at head
    have points := beside_readPoints v (LaunchDesc.ofBytes bs) (LaunchDesc.ofBytes bs).eqcnt 0 s1
    simp only at h
    split at h
    · cases h
    · split at h
      · cases h
      · cases h
      next e1 =>
        rw [e1] at points
        split at h
        · split at h
          · cases h; exact Beside.trans head points
          · cases h
        · cases h

/-! ## The parser (spec/12 R310 to R313) -/

/-- What the parser makes of the bytes that it has read at `QRD`. -/
def State.parsed (s : State) (w q : Nat) (bs : List Byte) : Parsed :=
  let at_ := (s.queue w q).packetAt (s.queue w q).qrd
  ⟨bs, BitVec.ofNat 64 at_, (s.packetSite w q at_).1, (s.packetSite w q at_).2, (s.queue w q).qrd⟩

/-- The state once a packet has been parsed: its number is given, and turns are counted and end. -/
def State.passed (s : State) (w q c : Nat) : State := ((s.takePacketCsn w q).countTurn w q).endTurns c

/-- What follows of a packet that the parser has read. -/
structure Taken (thread0 : Bool) (s s1 : State) (w q typ : Nat) (bs : List Byte) : Prop where
  site : s.threadParses w = thread0
  gives : s1.threadParses w = thread0
  beside : Beside s s1
  queue : s1.queue w q = s.queue w q
  home : s1.homeCluster w q = s.homeCluster w q
  untraced : (s1.cluster (s1.homeCluster w q)).trace.owner = 0
  fresh : ∀ k ∈ (s1.queue w q).live, k.number ≠ (s.parsed w q bs).number
  type : fieldAt bs 0 1 = typ
  parse : ∀ {want : Nat → Bool} {body : State → Parsed → Except State State} {t : State}, typ < 7 → want typ = true →
    body s1 (s.parsed w q bs) = .ok t → s.parse w q want body = t.passed w q (s.homeCluster w q)
  refuse : ∀ {want : Nat → Bool} {body : State → Parsed → Except State State}, 7 ≤ typ → want typ = true →
    s.parse w q want body =
      (((s1.takePacketCsn w q).countTurn w q).refusePacket w q (s.parsed w q bs) 1 .illegalOp 0).endTurns (s.homeCluster w q)

theorem taken_of_parsesAs {thread0 : Bool} {s s1 : State} {w q typ : Nat} {bs : List Byte} (h : ParsesAs thread0 s w q typ bs s1) :
    Taken thread0 s s1 w q typ bs := by
  obtain ⟨served, site, gives, read, worlds, untraced, fresh, type, clean⟩ := h
  have type : fieldAt bs 0 1 = typ := type
  have read : (s.acquireSync (s.homeCluster w q)).agentRead (s.worldAccess w (s.homeCluster w q)) ((s.queue w q).packetAt (s.queue w q).qrd) 64 = .ok bs s1 := read
  have seen := beside_agentRead (s.acquireSync (s.homeCluster w q)) (s.worldAccess w (s.homeCluster w q)) ((s.queue w q).packetAt (s.queue w q).qrd) 64
  rw [read] at seen
  have beside : Beside s s1 := (beside_acquireSync s (s.homeCluster w q)).trans seen
  have queue := State.queue_of_worlds worlds w q
  have home : s1.homeCluster w q = s.homeCluster w q := State.homeCluster_of (congrArg Queue.ctl queue) beside.partitions
  refine ⟨(State.threadParses_eq ..).trans site, (State.threadParses_eq ..).trans gives, beside, queue, home, by rw [home]; exact untraced,
    by rw [queue]; exact fresh, type, fun {want body t} known wanted does => ?_, fun {want body} unknown wanted => ?_⟩
  case refine_2 =>
    simp only [State.parse, served, read, type, wanted, unknown, bne_self_eq_false, Bool.not_true, Bool.false_eq_true, if_false, if_true]
    rfl
  have does : body s1 ⟨bs, BitVec.ofNat 64 ((s.queue w q).packetAt (s.queue w q).qrd), (s.packetSite w q ((s.queue w q).packetAt (s.queue w q).qrd)).1,
    (s.packetSite w q ((s.queue w q).packetAt (s.queue w q).qrd)).2, (s.queue w q).qrd⟩ = .ok t := does
  simp only [State.parse, served, read, type, wanted, clean known, Nat.not_le.2 known, does, bne_self_eq_false, Bool.not_true, Bool.false_eq_true, if_false]
  rfl

theorem Taken.leads {thread0 : Bool} {s s1 t : State} {w q typ : Nat} {bs : List Byte} (h : Taken thread0 s s1 w q typ bs)
    {want : Nat → Bool} {body : State → Parsed → Except State State} (known : typ < 7) (wanted : want typ = true)
    (does : body s1 (s.parsed w q bs) = .ok t) :
    Host.Outcome.next (s.parse w q want body).clearTried =
      (Host.Outcome.next (t.passed w q (s.homeCluster w q)).clearTried : Host.Outcome State Fault Refusal) := by
  rw [h.parse known wanted does]

/-! ### The end of a packet that the device parses -/

/-- A turn counted and ended changes nothing of a cluster but its turns. -/
theorem State.cluster_turned (s : State) (w q c n : Nat) : ∃ ts, ((s.countTurn w q).endTurns c).cluster n = { s.cluster n with turns := ts } := by
  have change (s : State) (c : Nat) (f : Cluster → Cluster) (h : ∀ k, ∃ ts, f k = { k with turns := ts }) :
      ∃ ts, (s.modCluster c f).cluster n = { s.cluster n with turns := ts } := by
    by_cases own : n = c
    · subst own; rw [State.cluster_modCluster_same]; exact h _
    · rw [State.cluster_modCluster_other _ _ _ _ own]; exact ⟨_, rfl⟩
  obtain ⟨ts, counted⟩ := change s (s.homeCluster w q) _ fun k => ⟨_, rfl⟩
  obtain ⟨us, ended⟩ := change (s.countTurn w q) c _ fun k => ⟨_, rfl⟩
  exact ⟨us, ended.trans (congrArg (fun k : Cluster => { k with turns := us }) counted)⟩

/-- What a packet that the device parses leaves once it has done what it does. -/
structure Passed (s u : State) (w q : Nat) : Prop where
  queue : u.queue w q = { s.queue w q with csn := nextCsn (s.queue w q).csn }
  clusters : ∀ n, ∃ ts, u.cluster n = { s.cluster n with turns := ts }
  mem : u.mem = s.mem
  host : u.host = s.host
  msix : u.msix = s.msix
  grids : u.grids = s.grids
  gangs : u.gangs = s.gangs

theorem passed_device {s : State} {w : Nat} (device : s.threadParses w = false) (q c : Nat) : Passed s (s.passed w q c) w q := by
  have given : s.takePacketCsn w q = s.modQueue w q fun y => { y with csn := nextCsn y.csn } := by
    rw [State.takePacketCsn, device]
    rfl
  have same : s.passed w q c = ((s.modQueue w q fun y => { y with csn := nextCsn y.csn }).countTurn w q).endTurns c :=
    congrArg (fun t => (State.countTurn t w q).endTurns c) given
  rw [same]
  exact ⟨queue_of_modQueue (fun y => { y with csn := nextCsn y.csn }) rfl, State.cluster_turned _ w q c, rfl, rfl, rfl, rfl, rfl⟩

theorem past_of_queue {s u : State} {w q : Nat} {more : List Packet} {wt fc}
    (h : u.queue w q = { s.queue w q with
      qrd := ((s.queue w q).qrd + 1) % 2 ^ 32, csn := nextCsn (s.queue w q).csn, live := (s.queue w q).live ++ more, waiting := wt, fence := fc }) :
    Past s u w q more := by
  unfold Past
  rw [h]
  exact ⟨rfl, rfl, rfl, rfl, rfl, rfl⟩

theorem parsed_device {s : State} {w : Nat} (device : s.threadParses w = false) (q : Nat) (bs : List Byte) :
    (s.parsed w q bs).hcpc = (s.parsed w q bs).addr ||| 1 ∧ (s.parsed w q bs).csn = (s.queue w q).csn := by
  simp only [State.parsed, State.packetSite, device, Bool.false_eq_true, if_false, and_self]

theorem livePacket_parsed {s : State} {w : Nat} (device : s.threadParses w = false) (q : Nat) (bs : List Byte) (caddr cinc : Nat) :
    LivePacket s w q bs ((s.parsed w q bs).live caddr cinc) := by
  obtain ⟨hcpc, csn⟩ := parsed_device device q bs
  exact ⟨rfl, csn, rfl, hcpc, by rw [← bitOf_eq_testBit]; exact Iff.rfl, rfl⟩

theorem raises_parsed (s : State) (w q : Nat) (bs : List Byte) (caddr cinc : Nat) :
    ((s.parsed w q bs).live caddr cinc).raises w = interrupts w bs := by
  simp only [Packet.raises, interrupts, Parsed.live, bitOf_eq_testBit]
  rfl

/-! ## Doorbells and `QCTL` (spec/12 R309, spec/01 R20) -/

theorem bellHeld_awake {s : State} {w : Nat} (awake : (s.part (w / 64)).pscur ≠ 2) (bounce : Bool) (n v : Nat) :
    s.bellHeld bounce w n v = none := by
  simp only [State.bellHeld, partOfWorld, beq_eq_false_iff_ne.2 awake, Bool.and_false, Bool.false_eq_true, if_false]

theorem queueDoorbell_awake {s : State} {w : Nat} (awake : (s.part (w / 64)).pscur ≠ 2) (q : Nat) (v : BitVec 64) :
    Leads (.queueDoorbell w q v) s ((s.ringDoorbell w q v.toNat).endTurns (s.homeCluster w q)) := by
  rw [Leads, exec_queueDoorbell, execQueueDoorbell, bellHeld_awake awake]

theorem queueDoorbell_asleep {s : State} {w q : Nat} {v : BitVec 64} (on : s.doorbellsOn w = true) (asleep : (s.part (w / 64)).pscur = 2) :
    exec (.queueDoorbell w q v) s =
      .next (s.modPart (w / 64) fun x => { x with psbells := x.psbells ++ [(false, w, q, v.toNat)], psexit := true }) := by
  have woken : (s.modPart (w / 64) fun x => { x with psbells := x.psbells ++ [(false, w, q, v.toNat)] }).wake (w / 64) =
      s.modPart (w / 64) fun x => { x with psbells := x.psbells ++ [(false, w, q, v.toNat)], psexit := true } := by
    rw [State.wake, if_pos (by rw [State.part_modPart_same]; exact asleep)]
    simp only [State.modPart, State.setPart, State.part, tget_tset_same, Option.getD_some, tset_tset]
  rw [exec_queueDoorbell, execQueueDoorbell]
  simp only [State.bellHeld, partOfWorld, on, asleep, beq_self_eq_true, Bool.and_self, if_true, woken]

/-- Two adjacent fields of five bits are one of ten. -/
theorem tenBits_of_halves {a b : Nat} (low : a / 2 ^ 14 % 32 = b / 2 ^ 14 % 32) (high : a / 2 ^ 19 % 32 = b / 2 ^ 19 % 32) :
    a / 2 ^ 14 % 2 ^ 10 = b / 2 ^ 14 % 2 ^ 10 := by
  have split (n : Nat) : n / 2 ^ 19 = n / 2 ^ 14 / 32 := (Nat.div_div_eq_div_mul n (2 ^ 14) 32).symm
  rw [split, split] at high
  generalize a / 2 ^ 14 = x at *
  generalize b / 2 ^ 14 = y at *
  omega

/-- The fields of `QCTL` after a write. -/
theorem qctlAfter_fields (old v : Nat) :
    let c := qctlAfter old v
    c < 2 ^ 27 ∧ c % 2 = v % 2 ∧ c / 2 ^ 8 % 4 = v / 2 ^ 8 % 4 ∧ c / 2 ^ 10 % 16 = v / 2 ^ 10 % 16 ∧
      c / 2 ^ 14 % 32 = (if old % 2 = 1 then old / 2 ^ 14 % 32 else logszStored (v / 2 ^ 14 % 32)) ∧
      c / 2 ^ 19 % 32 = (if old % 2 = 1 then old / 2 ^ 19 % 32 else v / 2 ^ 19 % 32) ∧
      c / 2 ^ 24 = if v % 2 = 1 then 0 else old / 2 ^ 24 % 8 := by
  intro c
  have size : logszStored (v / 2 ^ 14 % 32) < 32 := by
    unfold logszStored
    split <;> omega
  have value : c = v % 2 + 2 ^ 8 * (v / 2 ^ 8 % 4) + 2 ^ 10 * (v / 2 ^ 10 % 16) +
      2 ^ 14 * (if old % 2 = 1 then old / 2 ^ 14 % 32 else logszStored (v / 2 ^ 14 % 32)) +
      2 ^ 19 * (if old % 2 = 1 then old / 2 ^ 19 % 32 else v / 2 ^ 19 % 32) + 2 ^ 24 * (if v % 2 = 1 then 0 else old / 2 ^ 24 % 8) := by
    simp only [c, qctlAfter, packFields, bitOf, bitsOf, pow_zero, Nat.div_one, beq_iff_eq]
    generalize logszStored _ = z at size ⊢
    split <;> split <;> omega
  rw [value]
  generalize logszStored _ = z at size ⊢
  split <;> split <;> omega

/-! ## What a packet does with its queue -/

section
variable {s t u : State} {w q : Nat}

theorem past_ended {fc} (queue : t.queue w q =
    { s.queue w q with qrd := ((s.queue w q).qrd + 1) % 2 ^ 32, waiting := none, fence := fc }) (passed : Passed t u w q) : Past s u w q [] := by
  refine past_of_queue (wt := none) (fc := fc) ?_
  rw [passed.queue, queue, List.append_nil]

theorem past_started {k : Packet} {fc} (queue : t.queue w q = { (s.queue w q).started k with fence := fc }) (passed : Passed t u w q) :
    Past s u w q [k] := by
  refine past_of_queue (wt := none) (fc := fc) ?_
  rw [passed.queue, queue]
  rfl

end

/-! ### NOP -/

section
variable {s s1 : State} {w q : Nat} {bs : List Byte}

theorem packetNop_taken {thread0 : Bool} (h : Taken thread0 s s1 w q 0 bs) :
    ∃ t, exec (.packetNop w q) s = .next (t.passed w q (s.homeCluster w q)).clearTried ∧ Signalled s1 t ∧
      t.queue w q = { s.queue w q with qrd := ((s.queue w q).qrd + 1) % 2 ^ 32, waiting := none } ∧ t.msix = s1.msix ++ interrupts w bs := by
  obtain ⟨signalled, queue, msix⟩ := closed_startPacket (p := s.parsed w q bs) h.untraced h.fresh 0 0
  exact ⟨_, h.leads (want := (· == 0)) (body := fun s p => .ok ((s.startPacket w q p 0 0).closePacket w q p.number)) (by decide) rfl rfl, signalled,
    by rw [queue, h.queue], by rw [msix, raises_parsed]⟩

theorem packetNop_device (h : Taken false s s1 w q 0 bs) : ∃ u : State, exec (.packetNop w q) s = .next u ∧ Past s u w q [] ∧
    u.msix = s1.msix ++ interrupts w bs ∧ u.mem = s1.mem ∧ u.grids = s.grids := by
  obtain ⟨t, leads, signalled, queue, msix⟩ := packetNop_taken h
  have device : t.threadParses w = false := (congrArg (fun x : Partition => bitOf x.dutycfg.toNat 0) (signalled.part _)).trans h.gives
  have passed := passed_device device q (s.homeCluster w q)
  have past : Past s (t.passed w q (s.homeCluster w q)) w q [] := past_ended queue passed
  exact ⟨_, leads, past, passed.msix.trans msix, passed.mem.trans signalled.mem,
    passed.grids.trans (signalled.grids.trans h.beside.grids)⟩

/-- Thread 0 gives the packet its own number, and the queue's stays. -/
theorem packetNop_thread0 (h : Taken true s s1 w q 0 bs) : ∃ u : State, exec (.packetNop w q) s = .next u ∧
    (u.queue w q).csn = (s.queue w q).csn ∧ (u.queue w q).qrd = ((s.queue w q).qrd + 1) % 2 ^ 32 ∧ (u.queue w q).live = (s.queue w q).live ∧
    (u.cluster (s.homeCluster w q)).csns = modifyAt (s1.cluster (s.homeCluster w q)).csns 0 (fun n => if n + 1 < 2 ^ 48 then n + 1 else 1) ∧
    u.mem = s1.mem := by
  obtain ⟨t, leads, signalled, queue, -⟩ := packetNop_taken h
  have gives : t.threadParses w = true := (congrArg (fun x : Partition => bitOf x.dutycfg.toNat 0) (signalled.part _)).trans h.gives
  have home : t.homeCluster w q = s.homeCluster w q :=
    State.homeCluster_of (by rw [queue]) (signalled.partitions.trans h.beside.partitions)
  have given : t.takePacketCsn w q = t.draw.modCluster (s.homeCluster w q) fun c => { c with csns := modifyAt c.csns 0 nextCsn } := by
    rw [State.takePacketCsn, gives, home]
    rfl
  have same : (t.passed w q (s.homeCluster w q)).queue w q = t.queue w q := by
    refine State.queue_of_worlds ?_ ..
    rw [State.passed, given]
    rfl
  have after := same.trans queue
  refine ⟨_, leads, (congrArg Queue.csn after).trans rfl, (congrArg Queue.qrd after).trans rfl, (congrArg Queue.live after).trans rfl, ?_, ?_⟩
  · have own : (t.takePacketCsn w q).cluster (s.homeCluster w q) =
        { s1.cluster (s.homeCluster w q) with csns := modifyAt (s1.cluster (s.homeCluster w q)).csns 0 nextCsn } := by
      rw [given, State.cluster_modCluster_same]
      have drawn : t.draw.cluster (s.homeCluster w q) = s1.cluster (s.homeCluster w q) := signalled.cluster _
      rw [drawn]
    obtain ⟨ts, turned⟩ := (t.takePacketCsn w q).cluster_turned w q (s.homeCluster w q) (s.homeCluster w q)
    refine (congrArg Cluster.csns turned).trans ?_
    exact congrArg Cluster.csns own
  · refine Eq.trans ?_ signalled.mem
    show (t.passed w q (s.homeCluster w q)).mem = t.mem
    rw [State.passed, given]
    rfl

end

end Sys2Proof.Machine
end


section
/-! PROOFS, O47, continued. Each type of packet that the device parses. -/

namespace Sys2Proof.Machine

open Sys2Proof.Says

/-! ## Who parses, after a launch (spec/15 R387) -/

/-- The idle modes of a partition stay, whatever its order checker sees. -/
theorem State.duty_modPart (s : State) (p : Nat) {f : Partition → Partition} (h : ∀ x, (f x).dutycfg = x.dutycfg) (n : Nat) :
    ((s.modPart p f).part n).dutycfg = (s.part n).dutycfg := by
  by_cases own : n = p
  · subst own; rw [State.part_modPart_same]; exact h _
  · rw [State.part_modPart_other _ _ _ _ own]

theorem Partition.duty_publish (x : Partition) (g : Gang) (ks : List OrdKey) : (x.publish g ks).dutycfg = x.dutycfg := by
  have puts (t : Tbl Nat) : ∀ (ks : List OrdKey) (y : Partition),
      (ks.foldl (fun x k => x.ordPut k (joinClock (x.ordGet k) t)) y).dutycfg = y.dutycfg := by
    intro ks
    induction ks with
    | nil => exact fun _ => rfl
    | cons k r ih => exact fun y => ih _
  exact puts _ ks x

theorem State.duty_ordLaunch (s : State) (p key n : Nat) : ((s.ordLaunch p key).part n).dutycfg = (s.part n).dutycfg := by
  have outside : ∀ (gs : List Gang) (t : State),
      ((gs.foldl (fun s g => s.ordering g fun x => x.publish g [(8, 0, 0)]) t).part n).dutycfg = (t.part n).dutycfg := by
    intro gs
    induction gs with
    | nil => exact fun _ => rfl
    | cons g r ih =>
      refine fun t => (ih _).trans ?_
      unfold State.ordering
      dsimp only
      split
      · exact State.duty_modPart _ _ (fun x => x.duty_publish g _) n
      · rfl
  unfold State.ordLaunch
  dsimp only
  split
  · exact (State.duty_modPart _ _ (f := fun x => x.ordPut (1, key, 0) (x.ordGet (8, 0, 0))) (fun _ => rfl) n).trans (outside _ s)
  · exact outside _ s

theorem State.threadParses_of_duty {s t : State} {w : Nat} (h : (t.part (w / 64)).dutycfg = (s.part (w / 64)).dutycfg) :
    t.threadParses w = s.threadParses w := by
  rw [State.threadParses_eq, State.threadParses_eq, threadParsing, threadParsing, h]

theorem Signalled.threadParses {s t : State} (h : Signalled s t) (w : Nat) : t.threadParses w = s.threadParses w :=
  State.threadParses_of_duty (congrArg Partition.dutycfg (h.part _))

theorem Signalled.homeCluster {s t : State} (h : Signalled s t) {w q : Nat} (ctl : (t.queue w q).ctl = (s.queue w q).ctl) :
    t.homeCluster w q = s.homeCluster w q := State.homeCluster_of ctl h.partitions

/-- An accepted launch's grid goes behind the grids; what else changes is the next key and what the order checker has seen. -/
theorem acceptGrid_leaves (s : State) (w ctx : Nat) (d : LaunchDesc) (eq : List EqPoint) (hcpc : W64) (csn : Nat) (l : Launcher) :
    ∃ (gr : Grid) (n : Nat) (ps : Tbl Partition), s.acceptGrid w ctx d eq hcpc csn l = { s with nextKey := n, grids := s.grids ++ [gr], parts := ps } ∧
      (s.acceptGrid w ctx d eq hcpc csn l).threadParses w = s.threadParses w ∧ gr.world = w ∧ gr.desc = d ∧ gr.eq = eq ∧ gr.csn = csn ∧
      gr.hcpc = hcpc ∧ gr.placed = [] ∧ gr.launcher = l ∧ gr.done = false := by
  obtain ⟨ps, seen⟩ : Observed _ (s.acceptGrid w ctx d eq hcpc csn l) := observed_ordLaunch ..
  exact ⟨_, s.nextKey + 1, ps, seen, State.threadParses_of_duty (State.duty_ordLaunch ..), rfl, rfl, rfl, rfl, rfl, rfl, rfl, rfl⟩

/-! ## The packets -/

section
variable {s s1 : State} {w q : Nat} {bs : List Byte}

/-! ### LAUNCH -/

theorem packetLaunch_device (h : Taken false s s1 w q 1 bs) {d : LaunchDesc} {eq : List EqPoint} {s2 : State}
    (aligned : ringField bs 8 8 % 256 = 0) (first : (s.queue w q).waiting = none)
    (read : s1.readLaunch (s1.worldAccess w (s.homeCluster w q)) (ringField bs 8 8) = .ok (d, eq) s2) (worlds : s2.worlds = s1.worlds)
    (gives : threadParsing s2 w = false) (untraced : (s2.cluster (s.homeCluster w q)).trace.owner = 0) (room : s2.queuedGrids w < 256) :
    ∃ (u : State) (k : Packet) (gr : Grid), exec (.packetLaunch w q) s = .next u ∧ LivePacket s w q bs k ∧ Past s u w q [k] ∧
      k.caddr = BitVec.ofNat 64 (ringField bs 0x10 8) ∧ k.cinc = BitVec.ofNat 64 (ringField bs 0x18 8) ∧ u.grids = s.grids ++ [gr] ∧
      gr.world = w ∧ gr.desc = d ∧ gr.eq = eq ∧ gr.csn = (s.queue w q).csn ∧ gr.hcpc = k.addr ||| 1 ∧ gr.placed = [] ∧
      gr.launcher = .packet w q (s.queue w q).qrd ∧ gr.done = false ∧ u.mem = s2.mem := by
  have beside := beside_readLaunch read
  have queue2 : s2.queue w q = s.queue w q := (State.queue_of_worlds worlds w q).trans h.queue
  have home : s2.homeCluster w q = s.homeCluster w q :=
    State.homeCluster_of (congrArg Queue.ctl queue2) (beside.partitions.trans h.beside.partitions)
  have untraced : (s2.cluster (s2.homeCluster w q)).trace.owner = 0 := by rw [home]; exact untraced
  obtain ⟨hcpc, csn⟩ := parsed_device h.site q bs
  let k := (s.parsed w q bs).live (ringField bs 0x10 8) (ringField bs 0x18 8)
  let t := s2.startPacket w q (s.parsed w q bs) (ringField bs 0x10 8) (ringField bs 0x18 8)
  have started : Signalled s2 t := signalled_startPacket untraced ..
  have queue : t.queue w q = (s.queue w q).started k := (queue_startPacket untraced _ _ _).trans (congrArg (·.started k) queue2)
  let l := t.acceptGrid w (s1.worldAccess w (s.homeCluster w q)).ctx d eq (s.parsed w q bs).hcpc (s.parsed w q bs).csn (.packet w q (s.queue w q).qrd)
  obtain ⟨gr, n, ps, accepted, parses, world, desc, points, csnOf, hcpcOf, placed, launcher, done⟩ :
      ∃ (gr : Grid) (n : Nat) (ps : Tbl Partition), l = { t with nextKey := n, grids := t.grids ++ [gr], parts := ps } ∧
        l.threadParses w = t.threadParses w ∧ _ := acceptGrid_leaves ..
  have body : s1.packetLaunch w q (s.parsed w q bs) = .ok l := by
    have first1 : (s1.queue w q).waiting = none := (congrArg Queue.waiting h.queue).trans first
    have aligned : (s.parsed w q bs).field 8 8 % 256 = 0 := aligned
    have read : s1.readLaunch (s1.worldAccess w (s.homeCluster w q)) ((s.parsed w q bs).field 8 8) = .ok (d, eq) s2 := read
    simp only [State.packetLaunch, h.home, aligned, first1, read, Nat.not_le.2 room, ne_eq, not_true_eq_false, if_false]
    rfl
  have device : l.threadParses w = false := parses.trans ((started.threadParses w).trans ((State.threadParses_eq ..).trans gives))
  have passed := passed_device device q (s.homeCluster w q)
  have past : Past s (l.passed w q (s.homeCluster w q)) w q [k] :=
    past_started (fc := (s.queue w q).fence) ((congrArg (State.queue · w q) accepted).trans queue) passed
  refine ⟨_, k, gr, h.leads (want := (· == 1)) (body := fun s p => s.packetLaunch w q p) (by decide) rfl body, livePacket_parsed h.site .., past, rfl, rfl, ?_,
    world, desc, points, csnOf.trans csn, hcpcOf.trans hcpc, placed, launcher, done, ?_⟩
  · exact passed.grids.trans ((congrArg State.grids accepted).trans (congrArg (· ++ [gr]) (started.grids.trans (beside.grids.trans h.beside.grids))))
  · exact passed.mem.trans ((congrArg State.mem accepted).trans started.mem)

/-! ### COPY -/

theorem Taken.started {thread0 : Bool} {typ : Nat} (h : Taken thread0 s s1 w q typ bs) (caddr cinc : Nat) :
    Signalled s1 (s1.startPacket w q (s.parsed w q bs) caddr cinc) ∧
      (s1.startPacket w q (s.parsed w q bs) caddr cinc).queue w q = (s.queue w q).started ((s.parsed w q bs).live caddr cinc) :=
  ⟨signalled_startPacket h.untraced .., (queue_startPacket h.untraced ..).trans (congrArg (Queue.started · _) h.queue)⟩

theorem packetCopy_device (h : Taken false s s1 w q 2 bs) : ∃ (u : State) (k : Packet), exec (.packetCopy w q) s = .next u ∧
    LivePacket s w q bs k ∧ Past s u w q [k] ∧ k.caddr = BitVec.ofNat 64 (ringField bs 0x20 8) ∧ k.cinc = BitVec.ofNat 64 (ringField bs 0x28 8) ∧
    (u.cluster (s.homeCluster w q)).copyWait = (s1.cluster (s.homeCluster w q)).copyWait ++ [.packet w q (s.queue w q).qrd
      (BitVec.ofNat 64 (ringField bs 8 8)) (BitVec.ofNat 64 (ringField bs 0x10 8)) (ringField bs 0x18 8)] ∧ u.mem = s1.mem := by
  obtain ⟨started, queue⟩ := h.started (ringField bs 0x20 8) (ringField bs 0x28 8)
  let t := s1.startPacket w q (s.parsed w q bs) (ringField bs 0x20 8) (ringField bs 0x28 8)
  let job : CopyRef := .packet w q (s.queue w q).qrd (BitVec.ofNat 64 (ringField bs 8 8)) (BitVec.ofNat 64 (ringField bs 0x10 8)) (ringField bs 0x18 8)
  let l := t.modCluster (s1.homeCluster w q) fun k => { k with copyWait := k.copyWait ++ [job] }
  have device : l.threadParses w = false := (started.threadParses w).trans h.gives
  have passed := passed_device device q (s.homeCluster w q)
  have past : Past s (l.passed w q (s.homeCluster w q)) w q _ := past_started (t := l) (fc := (s.queue w q).fence) queue passed
  refine ⟨_, _, h.leads (want := (· == 2)) (t := l)
    (body := fun s p => .ok ((s.startPacket w q p (p.field 0x20 8) (p.field 0x28 8)).modCluster (s.homeCluster w q) fun k =>
      { k with copyWait := k.copyWait ++ [.packet w q p.number (BitVec.ofNat 64 (p.field 8 8)) (BitVec.ofNat 64 (p.field 0x10 8)) (p.field 0x18 8)] }))
    (by decide) rfl rfl, livePacket_parsed h.site .., past, rfl, rfl, ?_, passed.mem.trans started.mem⟩
  obtain ⟨ts, turned⟩ := passed.clusters (s.homeCluster w q)
  have waits : l.cluster (s.homeCluster w q) = { s1.cluster (s.homeCluster w q) with copyWait := (s1.cluster (s.homeCluster w q)).copyWait ++ [job] } := by
    rw [← h.home, State.cluster_modCluster_same, started.cluster]
  exact (congrArg Cluster.copyWait turned).trans ((congrArg Cluster.copyWait waits).trans rfl)

/-! ### FENCE (spec/12 R314) -/

/-- A packet that ends goes from its queue. -/
theorem State.queue_closePacket (s : State) (w q n : Nat) :
    (s.closePacket w q n).queue w q = { s.queue w q with live := (s.queue w q).live.filter fun y => y.number != n } := by
  unfold State.closePacket
  split
  next none_ =>
    have stays : ((s.queue w q).live.filter fun y => y.number != n) = (s.queue w q).live :=
      List.filter_eq_self.2 fun y hy => bne_iff_ne.2 fun same => List.find?_eq_none.1 none_ y hy (beq_iff_eq.2 same)
    rw [stays]
  next p found =>
    let f : Queue → Queue := fun x => { x with live := x.live.filter fun y => y.number != n }
    have traced : ((s.modQueue w q f).tracePacket w q 9 p).queue w q = f (s.queue w q) :=
      ((reported_trace ..).queue w q).trans (State.queue_modQueue ..)
    show (ite (p.intr = true) (State.raise ((s.modQueue w q f).tracePacket w q 9 p) w p.vec) _).queue w q = f (s.queue w q)
    split
    · exact traced
    · exact traced

/-- The counters that the queue waits at, all of which can be read. -/
theorem wakeFence_read {s s1 : State} {w q : Nat} {es left : List Nat} {p : Packet} (fence : (s.queue w q).fence = some es)
    (found : ((s.queue w q).live.find? fun p => p.typ == 3) = some p) (aligned : p.caddr.toNat % 8 = 0)
    (read : (s.acquireSync (s.homeCluster w q)).fenceLeft (s.worldAccess w (s.homeCluster w q)) p.caddr.toNat es = .ok left s1) :
    s.wakeFence w q = if left = [] then (s1.modQueue w q fun y => { y with fence := none }).closePacket w q p.number
      else s1.modQueue w q fun y => { y with fence := some left } := by
  unfold State.wakeFence
  simp only [fence, found, aligned, read, ne_eq, not_true_eq_false, if_false]
  cases left with
  | nil => rw [if_pos rfl]
  | cons e r => rw [if_neg (by simp)]

/-- A queue that is woken goes on without its fence, or waits at what is left. -/
theorem fenceCounterWake_read {es left : List Nat} {p : Packet} (fence : (s.queue w q).fence = some es)
    (found : ((s.queue w q).live.find? fun p => p.typ == 3) = some p) (aligned : p.caddr.toNat % 8 = 0)
    (read : (s.acquireSync (s.homeCluster w q)).fenceLeft (s.worldAccess w (s.homeCluster w q)) p.caddr.toNat es = .ok left s1)
    (worlds : s1.worlds = s.worlds) :
    ∃ u : State, exec (.fenceCounterWake w q) s = .next u ∧ (u.queue w q).fence = (if left = [] then none else some left) ∧
      (u.queue w q).live = (if left = [] then (s.queue w q).live.filter (fun k => k.number != p.number) else (s.queue w q).live) ∧
      (u.queue w q).qrd = (s.queue w q).qrd := by
  have same := State.queue_of_worlds worlds w q
  refine ⟨_, congrArg (fun t => Host.Outcome.next (State.clearTried t)) (wakeFence_read fence found aligned read), ?_⟩
  split
  next all =>
    have queue : ((s1.modQueue w q fun y => { y with fence := none }).closePacket w q p.number).clearTried.queue w q =
        { s.queue w q with fence := none, live := (s.queue w q).live.filter fun k => k.number != p.number } := by
      refine (State.queue_closePacket ..).trans ?_
      rw [State.queue_modQueue, same]
    rw [queue]
    exact ⟨rfl, rfl, rfl⟩
  next some_ =>
    have queue : (s1.modQueue w q fun y => { y with fence := some left }).clearTried.queue w q = { s.queue w q with fence := some left } :=
      (queue_of_modQueue (fun y => { y with fence := some left }) rfl).trans (congrArg (fun y : Queue => { y with fence := some left }) same)
    rw [queue]
    exact ⟨rfl, rfl, rfl⟩

/-- The entries of a FENCE packet. -/
theorem fenceEntries (bs : List Byte) :
    ((rangeFrom 0 (fieldAt bs 4 1)).map fun i => fieldAt bs (0x10 + 4 * i) 4) =
      (List.range (ringField bs 4 1)).map fun i => ringField bs (0x10 + 4 * i) 4 := by
  rw [rangeFrom_eq_range', List.range_eq_range']
  rfl

theorem packetFence_device (h : Taken false s s1 w q 3 bs) (aligned : ringField bs 8 8 % 8 = 0) (noOther : ∀ p ∈ (s.queue w q).live, p.typ ≠ 3) :
    ∃ (u t : State) (k : Packet), exec (.packetFence w q) s = .next u ∧ LivePacket s w q bs k ∧ t.mem = s1.mem ∧ t.clusters = s1.clusters ∧
      (t.queue w q).fence = some ((List.range (ringField bs 4 1)).map fun i => ringField bs (0x10 + 4 * i) 4) ∧
      ∀ left s2, (t.acquireSync (s.homeCluster w q)).fenceLeft (t.worldAccess w (s.homeCluster w q))
          (ringField bs 8 8) ((List.range (ringField bs 4 1)).map fun i => ringField bs (0x10 + 4 * i) 4) = .ok left s2 →
        s2.worlds = t.worlds → threadParsing s2 w = false → (s2.cluster (s.homeCluster w q)).trace.owner = 0 →
        (u.queue w q).fence = (if left = [] then none else some left) ∧ Past s u w q (if left = [] then [] else [k]) ∧ u.mem = s2.mem := by
  obtain ⟨started, queue⟩ := h.started (ringField bs 8 8) 0
  let k := (s.parsed w q bs).live (ringField bs 8 8) 0
  let es := (List.range (ringField bs 4 1)).map fun i => ringField bs (0x10 + 4 * i) 4
  let t := (s1.startPacket w q (s.parsed w q bs) (ringField bs 8 8) 0).modQueue w q fun y => { y with fence := some es }
  have queueT : t.queue w q = { (s.queue w q).started k with fence := some es } := by
    rw [State.queue_modQueue, queue]
  have startedT : Signalled s1 t := started.trans (signalled_modQueue ..)
  have homeT : t.homeCluster w q = s.homeCluster w q :=
    State.homeCluster_of ((congrArg Queue.ctl queueT).trans rfl) (startedT.partitions.trans h.beside.partitions)
  have body : (fun (s : State) (p : Parsed) => (Except.ok (((s.startPacket w q p (p.field 8 8) 0).modQueue w q fun y =>
      { y with fence := some ((rangeFrom 0 (p.field 4 1)).map fun i => p.field (0x10 + 4 * i) 4) }).wakeFence w q) : Except State State))
      s1 (s.parsed w q bs) = .ok (t.wakeFence w q) := by
    refine congrArg (fun es => Except.ok (State.wakeFence (State.modQueue _ w q fun y => { y with fence := some es }) w q)) (fenceEntries bs)
  refine ⟨_, t, k, h.leads (want := (· == 3)) (by decide) rfl body, livePacket_parsed h.site .., startedT.mem, startedT.clusters,
    congrArg Queue.fence queueT, fun left s2 read worlds gives untraced => ?_⟩
  have value : k.caddr.toNat = ringField bs 8 8 := Nat.mod_eq_of_lt (ringField_lt bs 8 8)
  have found : ((t.queue w q).live.find? fun p => p.typ == 3) = some k := by
    have none_ : ((s.queue w q).live.find? fun p => p.typ == 3) = none := List.find?_eq_none.2 fun p hp same => noOther p hp (beq_iff_eq.1 same)
    have own : k.typ = 3 := h.type
    rw [queueT]
    simp [Queue.started, List.find?_append, none_, own]
  have woken := wakeFence_read (congrArg Queue.fence queueT) found (by rw [value]; exact aligned) (by rw [value, homeT]; exact read)
  have queue2 : s2.queue w q = { (s.queue w q).started k with fence := some es } := (State.queue_of_worlds worlds w q).trans queueT
  obtain ⟨-, partitions, -⟩ : s2.Keeps (booksOf t) := (State.keeps_booksOf t).acquireSync.fenceLeft.of_ok read
  have home2 : s2.homeCluster w q = s.homeCluster w q :=
    (State.homeCluster_of (congrArg Queue.ctl (State.queue_of_worlds worlds w q)) partitions).trans homeT
  have device : s2.threadParses w = false := (State.threadParses_eq ..).trans gives
  rw [woken]
  split
  next all =>
    let open_ := s2.modQueue w q fun y => { y with fence := none }
    have queueO : open_.queue w q = { (s.queue w q).started k with fence := none } := by
      rw [State.queue_modQueue, queue2]
    obtain ⟨ends, rest⟩ := Queue.started_ends (y := s.queue w q) (k := k) (by rw [← h.queue]; exact h.fresh)
    have closed : Closed open_ (open_.closePacket w q k.number) w q k := by
      refine closed_closePacket ?_ ?_
      · rw [(s2.homeCluster_modQueue w q (f := fun y => { y with fence := none }) fun _ => rfl).trans home2]
        exact untraced
      · rw [queueO]
        exact ends
    have queueC : (open_.closePacket w q k.number).queue w q =
        { s.queue w q with qrd := ((s.queue w q).qrd + 1) % 2 ^ 32, waiting := none, fence := none } := by
      rw [closed.queue, queueO]
      exact congrArg (fun l => { (s.queue w q).started k with fence := none, live := l }) rest
    have signalled : Signalled s2 (open_.closePacket w q k.number) := (signalled_modQueue ..).trans closed.signalled
    have passed := passed_device ((signalled.threadParses w).trans device) q (s.homeCluster w q)
    have past : Past s (State.passed _ w q _) w q [] := past_ended queueC passed
    refine ⟨?_, past, passed.mem.trans signalled.mem⟩
    refine (congrArg Queue.fence passed.queue).trans ?_
    exact (congrArg Queue.fence queueC).trans rfl
  next some_ =>
    have queueW : (s2.modQueue w q fun y => { y with fence := some left }).queue w q = { (s.queue w q).started k with fence := some left } := by
      rw [State.queue_modQueue, queue2]
    have signalled : Signalled s2 (s2.modQueue w q fun y => { y with fence := some left }) := signalled_modQueue ..
    have passed := passed_device ((signalled.threadParses w).trans device) q (s.homeCluster w q)
    have past : Past s (State.passed _ w q _) w q [k] := past_started queueW passed
    refine ⟨?_, past, passed.mem.trans signalled.mem⟩
    refine (congrArg Queue.fence passed.queue).trans ?_
    exact congrArg Queue.fence queueW

/-! ### SIGNAL -/

/-- A packet that has done all it does: it starts and completes in a state with its queue, partitions and parser as before. -/
theorem Taken.ends {typ : Nat} (h : Taken false s s1 w q typ bs) {s2 : State} (queue2 : s2.queue w q = s.queue w q)
    (partitions : s2.partitions = s1.partitions) (gives : s2.threadParses w = false)
    (untraced : (s2.cluster (s.homeCluster w q)).trace.owner = 0) :
    let t := (s2.startPacket w q (s.parsed w q bs) 0 0).closePacket w q (s.parsed w q bs).number
    let u := t.passed w q (s.homeCluster w q)
    Signalled s2 t ∧ Passed t u w q ∧ Past s u w q [] ∧ t.msix = s2.msix ++ interrupts w bs := by
  intro t u
  have home2 : s2.homeCluster w q = s.homeCluster w q :=
    State.homeCluster_of (congrArg Queue.ctl queue2) (partitions.trans h.beside.partitions)
  obtain ⟨signalled, queue, msix⟩ := closed_startPacket (p := s.parsed w q bs) (by rw [home2]; exact untraced)
    (by rw [queue2, ← h.queue]; exact h.fresh) 0 0
  have passed : Passed t u w q := passed_device ((signalled.threadParses w).trans gives) q (s.homeCluster w q)
  exact ⟨signalled, passed, past_ended (fc := (s.queue w q).fence) (queue.trans (by rw [queue2])) passed, msix.trans (by rw [raises_parsed])⟩

theorem packetSignal_device (h : Taken false s s1 w q 4 bs) {a : Nat} {done : Option W64} {s2 : State}
    (clean : s1.dirtyHeld (s.homeCluster w q) = false) (place : a = ringField bs 8 8) (aligned : a % 8 = 0) (write : ringField bs 0x18 1 = 0)
    (written : (s1.writeBackAll (s.homeCluster w q)).agentWrites (s1.worldAccess w (s.homeCluster w q)) [(a, bytesOf 8 (ringField bs 0x10 8))] =
      .ok done s2) (worlds : s2.worlds = s1.worlds) (gives : threadParsing s2 w = false)
    (untraced : (s2.cluster (s.homeCluster w q)).trace.owner = 0) :
    ∃ u : State, exec (.packetSignal w q) s = .next u ∧ Past s u w q [] ∧ u.mem = s2.mem ∧ u.host = s2.host ∧ u.msix = s2.msix ++ interrupts w bs := by
  obtain ⟨-, partitions, -⟩ : s2.Keeps (booksOf s1) := (State.keeps_booksOf s1).writeBackAll.agentWrites.of_ok written
  obtain ⟨signalled, passed, past, msix⟩ :=
    h.ends ((State.queue_of_worlds worlds w q).trans h.queue) partitions ((State.threadParses_eq ..).trans gives) untraced
  have body : s1.packetSignal w q (s.parsed w q bs) =
      .ok ((s2.startPacket w q (s.parsed w q bs) 0 0).closePacket w q (s.parsed w q bs).number) := by
    have aligned : (s.parsed w q bs).field 8 8 % 8 = 0 := by rw [← aligned, place]; rfl
    have write : (s.parsed w q bs).field 0x18 1 = 0 := write
    have written : (s1.writeBackAll (s.homeCluster w q)).agentWrites (s1.worldAccess w (s.homeCluster w q))
      [((s.parsed w q bs).field 8 8, bytesOf 8 ((s.parsed w q bs).field 0x10 8))] = .ok done s2 := by rw [← written, place]; rfl
    simp only [State.packetSignal, h.home, clean, aligned, write, written, ne_eq, not_true_eq_false, Bool.false_eq_true, if_false, if_true]
  exact ⟨_, h.leads (want := (· == 4)) (body := fun s p => s.packetSignal w q p) (by decide) rfl body, past, passed.mem.trans signalled.mem,
    passed.host.trans signalled.host, passed.msix.trans msix⟩

/-! ### EVENT -/

theorem State.namedCluster_of {t : State} {w n p : Nat} (partitions : t.partitions = p) (named : n < 32 / p) :
    t.namedCluster w n = some (w / 64 * (32 / p) + n) := by
  rw [State.namedCluster, partitions, if_pos named]
  rfl

theorem packetEvent_device (h : Taken false s s1 w q 5 bs) (named : ringField bs 0x14 1 < 32 / s.partitions)
    (none_ : (s1.cluster (w / 64 * (32 / s.partitions) + ringField bs 0x14 1)).heldOf w = 0)
    (room : (s1.cluster (w / 64 * (32 / s.partitions) + ringField bs 0x14 1)).eventRoom w 1 = true) :
    ∃ u : State, exec (.packetEvent w q) s = .next u ∧ Past s u w q [] ∧ u.mem = s1.mem ∧ u.msix = s1.msix ++ interrupts w bs ∧
      (u.cluster (w / 64 * (32 / s.partitions) + ringField bs 0x14 1)).events =
        (s1.cluster (w / 64 * (32 / s.partitions) + ringField bs 0x14 1)).events ++
          [⟨w, BitVec.ofNat 32 (ringField bs 0x10 4), 0x80000000, BitVec.ofNat 64 (ringField bs 8 8)⟩] := by
  have found := State.namedCluster_of (t := s1) (w := w) h.beside.partitions named
  generalize w / 64 * (32 / s.partitions) + ringField bs 0x14 1 = c at none_ room found ⊢
  let e : Event := ⟨w, BitVec.ofNat 32 (ringField bs 0x10 4), 0x80000000, BitVec.ofNat 64 (ringField bs 8 8)⟩
  obtain ⟨started, queue⟩ := h.started 0 0
  let k := (s.parsed w q bs).live 0 0
  let t := s1.startPacket w q (s.parsed w q bs) 0 0
  let r := t.postFor c e (some (q, (s.queue w q).qrd))
  have now : (s1.cluster c).postNow w = true := by rw [Cluster.postNow, none_, room]; rfl
  have posted : ∀ n, r.cluster n = if n = c then { s1.cluster c with events := (s1.cluster c).events ++ [e] } else s1.cluster n := by
    intro n
    have at_ : t.cluster n = s1.cluster n := started.cluster n
    split
    next own =>
      subst own
      have now : (t.cluster n).postNow e.world = true := by rw [at_]; exact now
      refine (State.cluster_modCluster_same ..).trans ?_
      rw [if_pos now, at_]
    next other => exact (State.cluster_modCluster_other _ _ _ _ other).trans at_
  have homeR : r.homeCluster w q = s1.homeCluster w q :=
    State.homeCluster_of (((congrArg Queue.ctl queue).trans rfl).trans (congrArg Queue.ctl h.queue).symm) started.partitions
  obtain ⟨ends, rest⟩ := Queue.started_ends (y := s.queue w q) (k := k) (by rw [← h.queue]; exact h.fresh)
  have closed : Closed r (r.closePacket w q k.number) w q k := by
    refine closed_closePacket ?_ ((congrArg (fun y : Queue => y.live.find? fun p => p.number == k.number) queue).trans ends)
    rw [homeR, posted]
    split
    next own => rw [← own]; exact h.untraced
    next => exact h.untraced
  have device : (r.closePacket w q k.number).threadParses w = false := (closed.signalled.threadParses w).trans ((started.threadParses w).trans h.gives)
  have passed := passed_device device q (s.homeCluster w q)
  have queueC : (r.closePacket w q k.number).queue w q = { s.queue w q with qrd := ((s.queue w q).qrd + 1) % 2 ^ 32, waiting := none } := by
    have queue : r.queue w q = (s.queue w q).started k := queue
    rw [closed.queue, queue]
    exact congrArg (fun l => { (s.queue w q).started k with live := l }) rest
  have past : Past s (State.passed _ w q _) w q [] := past_ended (fc := (s.queue w q).fence) queueC passed
  have started_msix : t.msix = s1.msix := (congrArg State.msix (startPacket_untraced h.untraced ..)).trans rfl
  refine ⟨_, h.leads (want := (· == 5)) (by decide) rfl (body := fun s p =>
    match s.namedCluster w (p.field 0x14 1) with
    | none => .ok (s.refusePacket w q p 3 .launchBad 0)
    | some c =>
      if !s.canPost c w then .error s
      else
        let s1 := (s.startPacket w q p 0 0).postFor c
          ⟨w, BitVec.ofNat 32 (p.field 0x10 4), schedSource, BitVec.ofNat 64 (p.field 8 8)⟩ (some (q, p.number))
        .ok (if (s.cluster c).postNow w then s1.closePacket w q p.number else s1))
    (t := r.closePacket w q k.number) ?_, past, ?_, ?_, ?_⟩
  · have found : s1.namedCluster w ((s.parsed w q bs).field 0x14 1) = some c := found
    have can : s1.canPost c w = true := by rw [State.canPost, now]; rfl
    simp only [found, can, now, Bool.not_true, Bool.false_eq_true, if_false, if_true]
    rfl
  · exact passed.mem.trans (closed.signalled.mem.trans started.mem)
  · rw [← raises_parsed s w q bs 0 0]
    exact passed.msix.trans (closed.msix.trans (congrArg (· ++ k.raises w) started_msix))
  · obtain ⟨ts, turned⟩ := passed.clusters c
    refine (congrArg Cluster.events turned).trans ?_
    have own : (r.closePacket w q k.number).cluster c = { s1.cluster c with events := (s1.cluster c).events ++ [e] } :=
      (closed.signalled.cluster c).trans ((posted c).trans (if_pos rfl))
    exact (congrArg Cluster.events own).trans rfl

/-! ### HANDLE (spec/12 R326) -/

/-- The gang of a routine: one fibre at the packet's PC, with its argument in d2. -/
def routineGang (key uid ctx w q c t : Nat) (p : Parsed) : Gang :=
  { Gang.fresh key .handle c t ctx 0 64 with
    hcpc := p.hcpc, csn := p.csn, routine := some (w, q, p.number)
    skeins := [Skein.fresh 32 0 0 true [Fibre.fresh uid 64 (BitVec.ofNat 64 (p.field 8 8)) 0 0 (BitVec.ofNat 64 (p.field 0x10 8))]] }

theorem routineGang_mem (s : State) (w q c t : Nat) (p : Parsed) :
    routineGang s.nextKey (s.nextKey + 1) (s.worldCtx w) w q c t p ∈ (s.startRoutine w q c t p).gangs :=
  List.mem_append_right _ (List.mem_singleton_self _)

theorem packetHandle_device (h : Taken false s s1 w q 6 bs) {t : Nat} {x : Context} (named : ringField bs 0x18 1 < 32 / s.partitions)
    (free : s1.freeThread (w / 64 * (32 / s.partitions) + ringField bs 0x18 1) = some t) (ctx : s1.ctx (s1.worldCtx w) = some x)
    (running : x.st = .running) :
    ∃ (u : State) (k : Packet) (g : Gang) (sk : Skein) (y : Fibre), exec (.packetHandle w q) s = .next u ∧ LivePacket s w q bs k ∧
      Past s u w q [k] ∧ g ∈ u.gangs ∧ g.kind = .handle ∧ g.cluster = w / 64 * (32 / s.partitions) + ringField bs 0x18 1 ∧ g.core = t ∧
      g.ctx = s1.worldCtx w ∧ g.hcpc = k.addr ||| 1 ∧
      g.csn = (s.queue w q).csn ∧ g.routine = some (w, q, (s.queue w q).qrd) ∧ g.skeins = [sk] ∧ sk.live = [(0, y)] ∧
      y.pc = BitVec.ofNat 64 (ringField bs 8 8) ∧ y.regs.getD 2 0 = BitVec.ofNat 32 (ringField bs 0x10 8) ∧
      y.regs.getD 3 0 = BitVec.ofNat 32 (ringField bs 0x10 8 / 2 ^ 32) ∧ u.mem = s1.mem := by
  have found := State.namedCluster_of (t := s1) (w := w) h.beside.partitions named
  generalize w / 64 * (32 / s.partitions) + ringField bs 0x18 1 = c at free found ⊢
  obtain ⟨started, queue⟩ := h.started 0 0
  obtain ⟨hcpc, csn⟩ := parsed_device h.site q bs
  let l := (s1.startPacket w q (s.parsed w q bs) 0 0).startRoutine w q c t (s.parsed w q bs)
  have device : l.threadParses w = false := (started.threadParses w).trans h.gives
  have passed := passed_device device q (s.homeCluster w q)
  have past : Past s (State.passed l w q _) w q _ := past_started (t := l) (fc := (s.queue w q).fence) queue passed
  have site : (s1.startPacket w q (s.parsed w q bs) 0 0).worldCtx w = s1.worldCtx w := by
    rw [State.worldCtx, State.worldCtx, started.ctxs]
  have argument : (BitVec.ofNat 64 (ringField bs 0x10 8)).toNat = ringField bs 0x10 8 := Nat.mod_eq_of_lt (ringField_lt bs 0x10 8)
  have seated := routineGang_mem (s1.startPacket w q (s.parsed w q bs) 0 0) w q c t (s.parsed w q bs)
  rw [← passed.gangs] at seated
  refine ⟨_, _, _, _, _, h.leads (want := (· == 6)) (by decide) rfl (body := fun s p =>
    match s.namedCluster w (p.field 0x18 1) with
    | none => .ok (s.refusePacket w q p 3 .launchBad 0)
    | some c =>
      match s.freeThread c, (s.ctx (s.worldCtx w)).map Context.st with
      | some t, some CtxState.running => .ok ((s.startPacket w q p 0 0).startRoutine w q c t p)
      | _, _ => .error s)
    (t := l) ?_, livePacket_parsed h.site .., past, List.mem_map_of_mem seated, rfl, rfl, rfl, site,
    hcpc, csn, rfl, rfl, rfl, rfl, ?_, ?_, passed.mem.trans started.mem⟩
  · have found : s1.namedCluster w ((s.parsed w q bs).field 0x18 1) = some c := found
    simp only [found, free, ctx, running, Option.map_some]
    rfl
  · exact congrArg (BitVec.ofNat 32) argument
  · exact congrArg (fun n => BitVec.ofNat 32 (n / 2 ^ 32)) argument

/-! ### Packets of no known type (spec/12 R310) -/

theorem packetUnknownType_device {typ : Nat} (h : Taken false s s1 w q typ bs) (unknown : 7 ≤ typ) :
    ∃ u : State, exec (.packetUnknownType w q) s = .next u ∧
      (u.queue w q).ctl.toNat % 2 = 0 ∧ (u.queue w q).ctl.toNat / 2 ^ 24 = 1 ∧ (u.queue w q).qrd = (s.queue w q).qrd ∧
      (u.queue w q).live = (s.queue w q).live ∧ (u.queue w q).csn = (if (s.queue w q).csn + 1 < 2 ^ 48 then (s.queue w q).csn + 1 else 1) := by
  have parsed := h.refuse (want := fun t => 7 ≤ t) (body := fun s _ => .ok s) unknown (decide_eq_true unknown)
  let next := (s1.takePacketCsn w q).countTurn w q
  let stop : Queue → Queue := fun y => { y.stopped 1 with waiting := none }
  let u := (next.refusePacket w q (s.parsed w q bs) 1 .illegalOp 0).endTurns (s.homeCluster w q)
  have taken : s1.takePacketCsn w q = s1.modQueue w q fun y => { y with csn := nextCsn y.csn } := by
    rw [State.takePacketCsn, h.gives]
    rfl
  have nextQueue : next.queue w q = { s.queue w q with csn := nextCsn (s.queue w q).csn } := by
    refine (congrArg (State.queue · w q) taken).trans ?_
    rw [State.queue_modQueue, h.queue]
  have queue : u.clearTried.queue w q = stop { s.queue w q with csn := nextCsn (s.queue w q).csn } :=
    ((reported_writeRecord ..).queue w q).trans ((State.queue_modQueue ..).trans (congrArg stop nextQueue))
  obtain ⟨off, code⟩ := Queue.stopped_ctl { s.queue w q with csn := nextCsn (s.queue w q).csn } (err := 1) (by decide)
  refine ⟨_, congrArg (fun t => Host.Outcome.next (State.clearTried t)) parsed, ?_⟩
  rw [queue]
  refine ⟨off, code, ?_, ?_, ?_⟩
  · simp only [stop, Queue.stopped_qrd]
  · simp only [stop, Queue.stopped_live]
  · simp only [stop, Queue.stopped_csn, nextCsn]

end

/-! ## The statement -/

/-- A doorbell beyond the ring stops the queue. -/
theorem queueDoorbell_beyond {s : State} {w q : Nat} {v : BitVec 64} (on : s.doorbellsOn w = true) (awake : (s.part (w / 64)).pscur ≠ 2)
    (beyond : 2 ^ ((s.queue w q).ctl.toNat / 2 ^ 14 % 32) < (v.toNat % 2 ^ 32 + 2 ^ 32 - (s.queue w q).qrd) % 2 ^ 32) :
    ∃ u : State, exec (.queueDoorbell w q v) s = .next u ∧ (u.queue w q).ctl.toNat % 2 = 0 ∧ (u.queue w q).ctl.toNat / 2 ^ 24 = 5 ∧
      (u.queue w q).qrd = (s.queue w q).qrd ∧ (u.queue w q).qwr = (s.queue w q).qwr := by
  have beyond : (s.queue w q).size < (v.toNat % 2 ^ 32 + 2 ^ 32 - (s.queue w q).qrd) % 2 ^ 32 := beyond
  have queue : ((s.ringDoorbell w q v.toNat).endTurns (s.homeCluster w q)).clearTried.queue w q = (s.queue w q).stopped 5 := by
    show (s.ringDoorbell w q v.toNat).queue w q = _
    simp only [State.ringDoorbell, on, beyond, Bool.not_true, Bool.false_eq_true, if_false, if_true]
    exact ((reported_writeRecord ..).queue w q).trans (State.queue_modQueue ..)
  obtain ⟨off, code⟩ := Queue.stopped_ctl (s.queue w q) (err := 5) (by decide)
  refine ⟨_, queueDoorbell_awake awake q v, ?_⟩
  rw [queue]
  exact ⟨off, code, Queue.stopped_qrd .., Queue.stopped_qwr ..⟩

/-- A doorbell within the ring writes `QWR`. -/
theorem queueDoorbell_within {s : State} {w q : Nat} {v : BitVec 64} (on : s.doorbellsOn w = true) (awake : (s.part (w / 64)).pscur ≠ 2)
    (within : (v.toNat % 2 ^ 32 + 2 ^ 32 - (s.queue w q).qrd) % 2 ^ 32 ≤ 2 ^ ((s.queue w q).ctl.toNat / 2 ^ 14 % 32)) :
    Leads (.queueDoorbell w q v) s ((s.modQueue w q fun y => { y with qwr := v.toNat % 2 ^ 32 }).endTurns (s.homeCluster w q)) := by
  have within : ¬(s.queue w q).size < (v.toNat % 2 ^ 32 + 2 ^ 32 - (s.queue w q).qrd) % 2 ^ 32 := Nat.not_lt.2 within
  have rung : s.ringDoorbell w q v.toNat = s.modQueue w q fun y => { y with qwr := v.toNat % 2 ^ 32 } := by
    simp only [State.ringDoorbell, on, within, Bool.not_true, Bool.false_eq_true, if_false]
  rw [← rung]
  exact queueDoorbell_awake awake q v

/-- What a `QCTL` write leaves in the register. -/
theorem qctlWrite_fields (s : State) (w q : Nat) (v : BitVec 64) (up : s.boot = 1) :
    ∃ c : W64, Leads (.qctlWrite w q v) s ((s.modQueue w q fun y =>
      { y with ctl := c, waiting := if v.toNat % 2 = 1 then y.waiting else none }).endTurns (s.homeCluster w q)) ∧
      let old := (s.queue w q).ctl.toNat
      c.toNat % 2 = v.toNat % 2 ∧ c.toNat / 2 ^ 8 % 4 = v.toNat / 2 ^ 8 % 4 ∧ c.toNat / 2 ^ 10 % 16 = v.toNat / 2 ^ 10 % 16 ∧
      (old % 2 = 1 → c.toNat / 2 ^ 14 % 2 ^ 10 = old / 2 ^ 14 % 2 ^ 10) ∧
      (old % 2 = 0 → c.toNat / 2 ^ 19 % 32 = v.toNat / 2 ^ 19 % 32 ∧
        c.toNat / 2 ^ 14 % 32 = (if 4 ≤ v.toNat / 2 ^ 14 % 32 ∧ v.toNat / 2 ^ 14 % 32 ≤ 20 then v.toNat / 2 ^ 14 % 32 else 4)) ∧
      c.toNat / 2 ^ 24 = (if v.toNat % 2 = 1 then 0 else old / 2 ^ 24 % 8) := by
  obtain ⟨small, enabled, prio, weight, size, home, err⟩ := qctlAfter_fields (s.queue w q).ctl.toNat v.toNat
  have value : (BitVec.ofNat 64 (qctlAfter (s.queue w q).ctl.toNat v.toNat)).toNat = qctlAfter (s.queue w q).ctl.toNat v.toNat :=
    Nat.mod_eq_of_lt (small.trans (by decide))
  have written : s.modQueue w q (fun y => { y with
        ctl := BitVec.ofNat 64 (qctlAfter y.ctl.toNat v.toNat), waiting := if bitOf v.toNat 0 then y.waiting else none }) =
      s.modQueue w q fun y => { y with
        ctl := BitVec.ofNat 64 (qctlAfter (s.queue w q).ctl.toNat v.toNat), waiting := if v.toNat % 2 = 1 then y.waiting else none } :=
    State.modQueue_congr (by simp only [bitOf, pow_zero, Nat.div_one, beq_iff_eq])
  refine ⟨BitVec.ofNat 64 (qctlAfter (s.queue w q).ctl.toNat v.toNat), by rw [Leads, exec_qctlWrite, execQctlWrite, if_pos up, written], ?_⟩
  rw [value]
  clear written value
  generalize qctlAfter (s.queue w q).ctl.toNat v.toNat = c at *
  refine ⟨enabled, prio, weight, fun kept => ?_, fun off => ⟨?_, ?_⟩, err⟩
  · rw [if_pos kept] at size home
    exact tenBits_of_halves size home
  · rw [home, if_neg (by rw [off]; decide)]
  · rw [size, if_neg (by rw [off]; decide), logszStored]

/-- Settles O47, packet by packet. -/
theorem queuesAndPackets : Obligations.QueuesAndPackets := by
  unfold Obligations.QueuesAndPackets
  refine ⟨fun s w q v on awake within => queueDoorbell_within on awake within, fun s w q v on asleep => queueDoorbell_asleep on asleep,
    fun s w q v on awake beyond => queueDoorbell_beyond on awake beyond, fun s w q v up => qctlWrite_fields s w q v up,
    fun s w q bs s1 h => packetNop_device (taken_of_parsesAs h), fun s w q bs s1 h => packetNop_thread0 (taken_of_parsesAs h), ?_,
    fun s w q bs s1 h => packetCopy_device (taken_of_parsesAs h), fun s w q bs s1 h => packetFence_device (taken_of_parsesAs h), ?_,
    fun s w q bs s1 h => packetEvent_device (taken_of_parsesAs h), fun s w q bs s1 t x h => packetHandle_device (taken_of_parsesAs h),
    fun s w q typ bs s1 h => packetUnknownType_device (taken_of_parsesAs h), ?_⟩
  · intro s w q bs s1 d eq s2 h
    exact packetLaunch_device (taken_of_parsesAs h)
  · intro s w q bs s1 a done s2 h
    exact packetSignal_device (taken_of_parsesAs h)
  · intro s w q es p left s1
    exact fenceCounterWake_read

end Sys2Proof.Machine
end


section
/-! PROOFS, O48. The active set, compaction, refills, placement, moves of spans and the end of grids. -/

namespace Sys2Proof.Machine

open Sys2Proof.Says

/-! ## The active set (spec/12 R320) -/

section
variable {s : State} {c : CoreId} {r : Resident} (next : s.nextIn c = some r)
include next

theorem skeinMoveIn_free (free : s.activeCount c.cluster c.core < 8) : Leads (.skeinMoveIn c) s (s.setActive r true) := by
  rw [Leads, exec_skeinMoveIn, execSkeinMoveIn]
  simp only [State.moveIn, next, free, if_true]

theorem skeinMoveIn_full {a : Resident} (full : 8 ≤ s.activeCount c.cluster c.core) (out : (s.coreSkeins c).find? s.movesOut = some a) :
    Leads (.skeinMoveIn c) s ((s.setActive a false).setActive r true) := by
  rw [Leads, exec_skeinMoveIn, execSkeinMoveIn]
  simp only [State.moveIn, next, Nat.not_lt.2 full, out, if_false]

theorem forcedRotation_waiting {a : Resident} (full : 8 ≤ s.activeCount c.cluster c.core)
    (due : (s.core (coreNumber c.cluster c.core)).rotated ≤ (s.core (coreNumber c.cluster c.core)).clocks) (old : 256 ≤ r.sk.age)
    (waits : ((s.coreSkeins c).filter fun a => a.sk.active && a.sk.issued).find? (fun a => !s.residentReady a) = some a) :
    Leads (.forcedRotation c) s (((s.setActive a false).setActive r true).modCore (coreNumber c.cluster c.core)
      fun k => { k with rotated := k.clocks + 8 }) := by
  rw [Leads, exec_forcedRotation, execForcedRotation]
  simp only [State.rotate, next, Nat.not_lt.2 full, Nat.not_lt.2 due, Nat.not_lt.2 old, waits, decide_false, Bool.or_self, Bool.false_eq_true, if_false,
    Option.some_or]

theorem forcedRotation_young (young : r.sk.age < 256) : Leads (.forcedRotation c) s s := by
  rw [Leads, exec_forcedRotation, execForcedRotation]
  simp only [State.rotate, next, young, if_true, ite_self]

end

/-! ## Compaction (spec/12 R322) -/

/-- A skein moved by a compaction: pending until `done`, its blocks from `at_` on. -/
def Skein.shifted (sk : Skein) (at_ done : Nat) : Skein := { sk with active := false, block := at_, moving := done }

/-- What compaction leaves of a skein. -/
def Skein.Alike (a b : Skein) : Prop := b.record = a.record ∧ b.slots = a.slots

/-- Moves of runs leave every skein's record and fibres. -/
theorem skein_shifts (done : Nat) (gk k : Nat) : ∀ (moves : List (Resident × Nat)) {s : State} {sk : Skein}, s.skein gk k = some sk →
    ∃ sk' : Skein, (moves.foldl (fun s m => s.modSkein m.1.gang.key m.1.k fun sk => sk.shifted m.2 done) s).skein gk k = some sk' ∧ sk.Alike sk'
  | [], _, sk, h => ⟨sk, h, rfl, rfl⟩
  | m :: r, s, sk, h => by
    have moved : ∃ y : Skein, (s.modSkein m.1.gang.key m.1.k fun sk => sk.shifted m.2 done).skein gk k = some y ∧ sk.Alike y := by
      by_cases own : gk = m.1.gang.key ∧ k = m.1.k
      · obtain ⟨rfl, rfl⟩ := own
        exact ⟨sk.shifted m.2 done, by rw [State.skein_modSkein_same, h, Option.map_some], rfl, rfl⟩
      · exact ⟨sk, (State.skein_modSkein_other _ _ _ _ _ _ (by tauto)).trans h, rfl, rfl⟩
    obtain ⟨y, found, alike⟩ := moved
    obtain ⟨z, last, alike'⟩ := skein_shifts done gk k r found
    exact ⟨z, last, alike'.1.trans alike.1, alike'.2.trans alike.2⟩

/-- What compaction leaves alone. -/
structure Compacted (s t : State) : Prop where
  mem : t.mem = s.mem
  clusters : t.clusters = s.clusters
  skein : ∀ gk k (sk : Skein), s.skein gk k = some sk → ∃ sk' : Skein, t.skein gk k = some sk' ∧ sk.Alike sk'

theorem foldl_modSkein_frame (f : Resident × Nat → Skein → Skein) : ∀ (moves : List (Resident × Nat)) (s : State),
    (moves.foldl (fun s m => s.modSkein m.1.gang.key m.1.k (f m)) s).mem = s.mem ∧
      (moves.foldl (fun s m => s.modSkein m.1.gang.key m.1.k (f m)) s).clusters = s.clusters
  | [], _ => ⟨rfl, rfl⟩
  | m :: r, s => by
    obtain ⟨mem, clusters⟩ := foldl_modSkein_frame f r (s.modSkein m.1.gang.key m.1.k (f m))
    exact ⟨mem.trans (State.modSkein_mem ..), clusters.trans (State.modSkein_clusters ..)⟩

theorem compacted_compact (s : State) (c : CoreId) : Compacted s (s.compact c) := by
  have same (t : State) (mem : t.mem = s.mem) (clusters : t.clusters = s.clusters) (gangs : t.gangs = s.gangs) : Compacted s t :=
    ⟨mem, clusters, fun gk k sk h => ⟨sk, by rw [State.skein, State.gang, gangs]; exact h, rfl, rfl⟩⟩
  unfold State.compact
  split
  · exact same s rfl rfl rfl
  next w _ _ =>
    simp only
    split
    · exact same _ rfl rfl rfl
    next cost moves _ =>
      let s0 := s.modCore (coreNumber c.cluster c.core) fun k => { k with wanting := tset k.wanting w.key k.clocks }
      have frame := foldl_modSkein_frame (fun m sk => sk.shifted m.2 ((s.core (coreNumber c.cluster c.core)).clocks + cost)) moves s0
      exact ⟨frame.1, frame.2, fun gk k sk h => skein_shifts _ gk k moves h⟩

/-- Compaction of a single run. -/
theorem compact_one {s : State} {c : CoreId} {w : Grid} {l : List Grid} {cost at_ : Nat} {r : Resident} (wanted : s.runsWanted c = w :: l)
    (cheap : cheapest (openings (s.runsUsed c.cluster c.core) ((rangeFrom 0 512).flatMap fun b => (s.coreSkeins c).filter fun r => r.sk.block == b)
      (runLength w.desc.width w.desc.regs)) = some (cost, [(r, at_)])) {sk : Skein} (found : s.skein r.gang.key r.k = some sk) :
    (s.compact c).skein r.gang.key r.k = some (sk.shifted at_ ((s.core (coreNumber c.cluster c.core)).clocks + cost)) := by
  unfold State.compact
  simp only [wanted, cheap]
  refine (State.skein_modSkein_same ..).trans ?_
  have found : (s.modCore (coreNumber c.cluster c.core) fun k => { k with wanting := tset k.wanting w.key k.clocks }).skein r.gang.key r.k = some sk := found
  rw [found]
  rfl

/-- Compaction moves runs, and no fibre. -/
theorem compaction_moves (s : State) (c : CoreId) : ∃ u : State, exec (.compaction c) s = .next u ∧ u.mem = s.mem ∧ u.clusters = s.clusters ∧
    (∀ gk k (sk : Skein), s.skein gk k = some sk → ∃ sk' : Skein, u.skein gk k = some sk' ∧ sk'.record = sk.record ∧
      ∀ n x, sk.fibre n = some x → sk'.fibre n = some (untried x)) ∧
    ∀ (w : Grid) l cost (r : Resident) at_, s.runsWanted c = w :: l →
      cheapest (openings (s.runsUsed c.cluster c.core) ((rangeFrom 0 512).flatMap fun b => (s.coreSkeins c).filter fun r => r.sk.block == b)
        (runLength w.desc.width w.desc.regs)) =
        some (cost, [(r, at_)]) → ∀ sk, s.skein r.gang.key r.k = some sk → ∃ sk' : Skein, u.skein r.gang.key r.k = some sk' ∧ sk'.block = at_ ∧
          sk'.active = false ∧ sk'.moving = (s.core (coreNumber c.cluster c.core)).clocks + cost := by
  obtain ⟨mem, clusters, skein⟩ := compacted_compact s c
  refine ⟨(s.compact c).clearTried, by rw [exec_compaction, execCompaction], mem, clusters, fun gk k sk found => ?_,
    fun w l cost r at_ wanted cheap sk found => ?_⟩
  · obtain ⟨y, after, record, slots⟩ := skein gk k sk found
    refine ⟨y.mapFibres fun _ => untried, by rw [State.skein_clearTried, after, Option.map_some], record, fun n x here => ?_⟩
    rw [Skein.fibre_mapFibres, Skein.fibre_slots slots, here, Option.map_some]
  · exact ⟨(sk.shifted at_ _).mapFibres fun _ => untried, by rw [State.skein_clearTried, compact_one wanted cheap found, Option.map_some], rfl, rfl, rfl⟩

/-! ## Forwarding entries (spec/12 R325) -/

theorem forwardExpiry_drops (s : State) (cl : Nat) : Leads (.forwardExpiry cl) s (s.modCluster cl fun k => { k with forwards := k.forwards.drop 1 }) := by
  rw [Leads, exec_forwardExpiry, execForwardExpiry]

/-! ## The end of a grid (spec/12 R313) -/

theorem apart_flushAll (s : State) (c : Nat) : Apart s (s.flushAll c) :=
  (apart_foldl _ (fun s n => apart_pushPrivate s ⟨c, some n⟩) _ s).trans (apart_writeBackAll ..)

/-- A cluster's events and held posts are as before the caches were written back. -/
theorem Apart.events {s t : State} (h : Apart s t) (c : Nat) : (t.cluster c).events = (s.cluster c).events ∧ (t.cluster c).held = (s.cluster c).held :=
  ⟨(congrArg Cluster.events (h.clusters c) :), (congrArg Cluster.held (h.clusters c) :)⟩

/-- A grid that is gone, with its gangs. -/
def State.gone (s : State) (grid : Nat) (cs : List Nat) : State :=
  let s2 := cs.foldl (fun s c => s.releaseFootprints c) s
  { s2 with
    grids := s2.grids.filter fun g => g.key != grid
    gangs := s2.gangs.filter fun g => g.kind == .handle || g.grid != grid }

theorem findGrid_filter (grid : Nat) : ∀ gs : List Grid, findGrid (gs.filter fun g => g.key != grid) grid = none
  | [] => rfl
  | g :: r => by
    by_cases own : g.key = grid
    · simpa [own] using findGrid_filter grid r
    · simpa [own, findGrid] using findGrid_filter grid r

/-- Releases of footprints change no queue and no events. -/
theorem releaseFootprints_keep : ∀ (cs : List Nat) (s : State),
    (cs.foldl (fun s c => s.releaseFootprints c) s).worlds = s.worlds ∧
      ∀ n, ((cs.foldl (fun s c => s.releaseFootprints c) s).cluster n).events = (s.cluster n).events
  | [], _ => ⟨rfl, fun _ => rfl⟩
  | c :: r, s => by
    obtain ⟨worlds, events⟩ := releaseFootprints_keep r (s.releaseFootprints c)
    refine ⟨worlds.trans rfl, fun n => (events n).trans ?_⟩
    by_cases own : n = c
    · subst own
      exact (congrArg Cluster.events (State.cluster_modCluster_same s n _)).trans rfl
    · exact congrArg Cluster.events (State.cluster_modCluster_other _ _ _ _ own)

theorem gone_grid (s : State) (grid : Nat) (cs : List Nat) :
    (s.gone grid cs).clearTried.grid grid = none ∧ ∀ g ∈ (s.gone grid cs).clearTried.gangs, g.grid = grid → g.kind = .handle := by
  refine ⟨findGrid_filter grid _, fun g hg same => ?_⟩
  obtain ⟨h, mem, rfl⟩ := List.mem_map.1 hg
  have kept := (List.mem_filter.1 mem).2
  have same : h.grid = grid := same
  show h.kind = .handle
  simpa [same] using kept

/-- The clusters that a grid's gangs stand on. -/
def State.gridClusters (s : State) (grid : Nat) : List Nat := ((s.gangs.filter fun g => g.grid == grid && g.kind != .handle).map (·.cluster)).dedup

theorem gridClusters_free {s : State} {grid : Nat} (free : ∀ g ∈ s.gangs, g.grid = grid → g.kind ≠ .handle → s.anyHeld g.cluster = false) :
    (s.gridClusters grid).any s.anyHeld = false := by
  refine List.any_eq_false.2 fun c hc => ?_
  obtain ⟨g, hg, rfl⟩ := List.mem_map.1 (List.mem_dedup.1 hc)
  obtain ⟨mem, kept⟩ := List.mem_filter.1 hg
  obtain ⟨own, kind⟩ := Bool.and_eq_true_iff.1 kept
  rw [free g mem (beq_iff_eq.1 own) (bne_iff_ne.1 kind)]
  exact Bool.false_ne_true

section
variable {s : State} {grid : Nat} {gr : Grid} (found : s.grid grid = some gr)
include found

theorem gridComplete_waits (busy : s.gridOver gr = false) : Leads (.gridComplete grid) s s := by
  rw [Leads, exec_gridComplete, execGridComplete]
  simp only [State.completeGrid, found, busy, Bool.not_false, if_true]

variable (ended : s.gridOver gr = true) (free : ∀ g ∈ s.gangs, g.grid = grid → g.kind ≠ .handle → s.anyHeld g.cluster = false)
include ended free

theorem gridComplete_thread {c t : Nat} (launcher : gr.launcher = .thread c t) (none_ : (s.cluster c).heldOf gr.world = 0)
    (room : (s.cluster c).eventRoom gr.world 1 = true) :
    ∃ u : State, exec (.gridComplete grid) s = .next u ∧ u.grid grid = none ∧ (∀ g ∈ u.gangs, g.grid = grid → g.kind = .handle) ∧
      (u.cluster c).events = (s.cluster c).events ++ [⟨gr.world, BitVec.ofNat 32 (0x80000000 + t), 0x80000000, BitVec.ofNat 64 gr.csn⟩] := by
  let cs := s.gridClusters grid
  let s1 := cs.foldl (fun s c => s.flushAll c) s
  let e : Event := ⟨gr.world, BitVec.ofNat 32 (0x80000000 + t), 0x80000000, BitVec.ofNat 64 gr.csn⟩
  have flushed : Apart s s1 := apart_foldl _ (fun s c => apart_flushAll s c) cs s
  obtain ⟨events, held⟩ := flushed.events c
  have now : (s1.cluster c).postNow gr.world = true := by
    rw [Cluster.postNow, Cluster.heldOf, held, Cluster.eventRoom, events]
    exact Bool.and_eq_true_iff.2 ⟨beq_iff_eq.2 none_, room⟩
  have done : s.completeGrid grid = (s1.postEvent c e).gone grid cs := by
    have can : s1.canPost c gr.world = true := by rw [State.canPost, now]; rfl
    have free : (s.gridClusters grid).any s.anyHeld = false := gridClusters_free free
    unfold State.completeGrid
    simp only [found, ended, launcher, Bool.not_true, Bool.false_eq_true, if_false]
    rw [if_neg (by rw [State.gridClusters] at free; rw [free]; exact Bool.false_ne_true)]
    exact if_pos can
  obtain ⟨none_, handles⟩ := gone_grid (s1.postEvent c e) grid cs
  refine ⟨_, by rw [exec_gridComplete, execGridComplete, done], none_, handles, ?_⟩
  refine ((releaseFootprints_keep cs (s1.postEvent c e)).2 c).trans ?_
  have posted : (s1.postEvent c e).cluster c = { s1.cluster c with events := (s1.cluster c).events ++ [e] } :=
    (State.cluster_modCluster_same ..).trans (if_pos now)
  rw [posted, ← events]

theorem gridComplete_packet {w q n : Nat} {p : Packet} (launcher : gr.launcher = .packet w q n)
    (live : (s.queue w q).live.find? (fun p => p.number == n) = some p) (uncounted : p.caddr = 0) :
    ∃ u : State, exec (.gridComplete grid) s = .next u ∧ u.grid grid = none ∧ (∀ g ∈ u.gangs, g.grid = grid → g.kind = .handle) ∧
      ∀ p ∈ (u.queue w q).live, p.number ≠ n := by
  let cs := s.gridClusters grid
  let s1 := cs.foldl (fun s c => s.flushAll c) s
  have flushed : Apart s s1 := apart_foldl _ (fun s c => apart_flushAll s c) cs s
  have done : s.completeGrid grid = (s1.closePacket w q n).gone grid cs := by
    have live : (s1.queue w q).live.find? (fun p => p.number == n) = some p := by rw [flushed.reported.queue]; exact live
    have completed : s1.completePacket w q n true = (true, s1.closePacket w q n) := by
      unfold State.completePacket
      simp only [live, uncounted, decide_true, Bool.not_true, Bool.false_or, if_true]
    have free : (s.gridClusters grid).any s.anyHeld = false := gridClusters_free free
    unfold State.completeGrid
    simp only [found, ended, launcher, Bool.not_true, Bool.false_eq_true, if_false]
    rw [if_neg (by rw [State.gridClusters] at free; rw [free]; exact Bool.false_ne_true)]
    exact (congrArg (fun r : Bool × State => if r.1 then r.2.gone grid cs else r.2) completed).trans (if_pos rfl)
  obtain ⟨none_, handles⟩ := gone_grid (s1.closePacket w q n) grid cs
  refine ⟨_, by rw [exec_gridComplete, execGridComplete, done], none_, handles, ?_⟩
  have queue : ((s1.closePacket w q n).gone grid cs).clearTried.queue w q =
      { s1.queue w q with live := (s1.queue w q).live.filter fun y => y.number != n } :=
    (State.queue_of_worlds (releaseFootprints_keep cs (s1.closePacket w q n)).1 w q).trans (State.queue_closePacket ..)
  rw [queue]
  exact fun p hp => bne_iff_ne.1 (List.mem_filter.1 hp).2

end

/-! ## Refills (spec/02 R43, R44) -/

/-- The slot that a refill takes is free. -/
theorem freeSlot_free {g : Gang} {j k t : Nat} (h : g.freeSlot j = some (k, t)) :
    ∃ sk, g.skeins[k]? = some sk ∧ t < sk.width ∧ sk.fibre t = none := by
  obtain ⟨i, -, found⟩ := List.exists_of_findSome?_eq_some h
  obtain ⟨sk, at_, slot⟩ := Option.bind_eq_some_iff.1 found
  obtain ⟨n, first, pair⟩ := Option.map_eq_some_iff.1 slot
  cases pair
  refine ⟨sk, at_, ?_, by simpa using List.find?_some first⟩
  have mem := List.mem_of_find?_eq_some first
  rw [mem_rangeFrom] at mem
  omega

theorem Skein.fibre_setFibre (sk : Skein) (t n : Nat) (f : Option Fibre) (inside : t < sk.slots.length) :
    (sk.setFibre t f).fibre n = if n = t then f else sk.fibre n := by
  rw [Skein.setFibre, Skein.fibre, setAt_getElem?]
  split
  next own => subst own; rw [List.getElem?_eq_getElem inside]; rfl
  · rfl

theorem beside_readGlobalLong {ctx w : Nat} : ∀ (fuel a n : Nat) {s t : State} {bs : List Byte},
    s.readGlobalLong ctx w fuel a n = .ok (bs, t) → Beside s t
  | 0, _, _, s, _, _, h => by cases h; exact .refl s
  | fuel + 1, a, n, s, t, bs, h => by
    unfold State.readGlobalLong at h
    split at h
    · cases h; exact .refl s
    · simp only at h
      split at h
      · cases h
      next read =>
        split at h
        · cases h
        next rest =>
          cases h
          exact (beside_readGlobal read).trans (beside_readGlobalLong fuel _ _ rest)

/-- Registers that a pool entry gives, but for v0. -/
theorem getD_setAt_other {α : Type} (l : List α) (v d : α) {n m : Nat} (h : m ≠ n) : (setAt l n v).getD m d = l.getD m d := by
  rw [List.getD_eq_getElem?_getD, setAt_getElem?, if_neg h, List.getD_eq_getElem?_getD]

theorem length_setAt {α : Type} (v : α) : ∀ (l : List α) (n : Nat), (setAt l n v).length = l.length
  | [], _ => rfl
  | _ :: _, 0 => rfl
  | _ :: r, n + 1 => congrArg (· + 1) (length_setAt v r n)

/-- The words of a pool entry. -/
theorem entryWords (bs : List Byte) (off n : Nat) :
    ((rangeFrom 0 n).map fun i => BitVec.ofNat 32 (fieldAt bs (off + 4 * i) 4)) =
      (List.range n).map fun i => BitVec.ofNat 32 (ringField bs (off + 4 * i) 4) := by
  rw [rangeFrom_eq_range', List.range_eq_range']
  rfl

/-- A fibre as a pool entry gives it, with its v0. -/
structure Refilled (y : Fibre) (es : List Byte) (n : Nat) : Prop where
  pc : y.pc = BitVec.ofNat 64 (ringField es 0 8)
  gpc : y.gpc = BitVec.ofNat 64 (ringField es 8 8)
  wshift : y.wshift = ringField es 0x14 2
  pers : y.pers = ringField es 0x16 1 % 16
  wait : y.wait = .none
  size : y.regs.length = n
  regs : ∀ r, r ≠ y.wshift → r < n → y.regs.getD r 0 = BitVec.ofNat 32 (ringField es (0x40 + 4 * r) 4)
  e : y.e = (List.range 8).map fun i => BitVec.ofNat 32 (ringField es (0x20 + 4 * i) 4)

theorem refilled_entry (uid n legacy : Nat) (es : List Byte) (v : W32) : Refilled ((fibreOfEntry uid n legacy es).wr 0 v) es n where
  pc := rfl
  gpc := rfl
  wshift := rfl
  pers := rfl
  wait := rfl
  size := by
    refine (length_setAt ..).trans ?_
    show ((rangeFrom 0 n).map _).length = n
    rw [entryWords, List.length_map, List.length_range]
  regs r other inside := by
    refine (getD_setAt_other _ _ _ (by exact other)).trans ?_
    show ((rangeFrom 0 n).map _).getD r 0 = _
    rw [entryWords, List.getD_eq_getElem?_getD, List.getElem?_map, List.getElem?_range inside]
    rfl
  e := entryWords es 0x20 8

theorem Refilled.untried {y : Fibre} {es : List Byte} {n : Nat} (h : Refilled y es n) : Refilled (untried y) es n :=
  ⟨h.pc, h.gpc, h.wshift, h.pers, h.wait, h.size, h.regs, h.e⟩

theorem setPool_gangs (s : State) (g : Gang) (head count : Nat) : (s.setPool g head count).gangs = s.gangs := by
  unfold State.setPool
  split
  next written => exact (beside_writeGlobal written).gangs
  · rfl

theorem spawnRefill_takes {s s1 s2 : State} {key k t : Nat} {g : Gang} {bs es : List Byte} (found : s.gang key = some g) (live : g.ended = false)
    (running : g.frozen = false) (pool : g.poolCap ≠ 0) (good : g.poolBad = false) (shape : ∀ sk ∈ g.skeins, sk.slots.length = sk.width)
    (header : s.readGlobal g.ctx (s.worldOf g) g.poolBase 16 = .ok (bs, s1)) (count : ringField bs 4 4 ≤ g.poolCap)
    (head : ringField bs 0 4 < g.poolCap) (some_ : ringField bs 4 4 ≠ 0)
    (entry : s1.readGlobalLong g.ctx (s1.worldOf g) 3 (g.poolBase + 16 + ringField bs 0 4 * ((s1.grid g.grid).map Grid.poolEntrySize).getD 64)
      (((s1.grid g.grid).map Grid.poolEntrySize).getD 64) = .ok (es, s2))
    (slot : g.freeSlot (ringField es 0x18 4 / ((g.skeins.head?).map (·.width)).getD 32) = some (k, t)) :
    ∃ (u : State) (sk sk' : Skein) (y : Fibre), exec (.spawnRefill key) s = .next u ∧ g.skeins[k]? = some sk ∧ sk.fibre t = none ∧
      u.skein key k = some sk' ∧ sk'.fibre t = some y ∧ Refilled y es g.nregs ∧ ∀ n x, n ≠ t → sk.fibre n = some x → sk'.fibre n = some (untried x) := by
  obtain ⟨sk, at_, inside, free⟩ := freeSlot_free slot
  let y := (fibreOfEntry s2.nextKey g.nregs (s2.takeKey.2.legacyOf g.cluster (fieldAt es 0x16 1 % 16)) es).wr 0 (BitVec.ofNat 32 (fieldAt es 0x10 4))
  let s4 := s2.takeKey.2.setFibre key k t (some y)
  have done : s.refill key = s4.setPool g ((ringField bs 0 4 + 1) % g.poolCap) (ringField bs 4 4 - 1) := by
    have count : ¬g.poolCap < fieldAt bs 4 4 := Nat.not_lt.2 count
    have head : ¬g.poolCap ≤ fieldAt bs 0 4 := Nat.not_le.2 head
    have some_ : fieldAt bs 4 4 ≠ 0 := some_
    have entry : s1.readGlobalLong g.ctx (s1.worldOf g) 3 (g.poolBase + 16 + fieldAt bs 0 4 * ((s1.grid g.grid).map Grid.poolEntrySize).getD 64)
      (((s1.grid g.grid).map Grid.poolEntrySize).getD 64) = .ok (es, s2) := entry
    have slot : g.freeSlot (fieldAt es 0x18 4 / ((g.skeins.head?).map (·.width)).getD 32) = some (k, t) := slot
    unfold State.refill
    simp only [found, live, running, pool, good, header, count, head, some_, entry, slot, decide_false, Bool.or_self, Bool.false_eq_true, if_false]
    rfl
  have gangs : s2.gangs = s.gangs := ((beside_readGlobal header).trans (beside_readGlobalLong _ _ _ entry)).gangs
  have before : s2.takeKey.2.skein key k = some sk := by
    have same : s2.takeKey.2.gangs = s.gangs := gangs
    have found : findGang s.gangs key = some g := found
    rw [State.skein, State.gang, same, found]
    exact at_
  have after : (s4.setPool g ((ringField bs 0 4 + 1) % g.poolCap) (ringField bs 4 4 - 1)).skein key k = some (sk.setFibre t (some y)) := by
    rw [State.skein, State.gang, setPool_gangs, ← State.gang, ← State.skein]
    refine (State.skein_modSkein_same ..).trans ?_
    rw [before]
    rfl
  have long : t < sk.slots.length := by rw [shape sk (List.mem_of_getElem? at_)]; exact inside
  refine ⟨_, sk, (sk.setFibre t (some y)).mapFibres fun _ => untried, untried y, by rw [exec_spawnRefill, execSpawnRefill, done], at_, free,
    by rw [State.skein_clearTried, after, Option.map_some], ?_, (refilled_entry ..).untried, fun n x other here => ?_⟩
  · rw [Skein.fibre_mapFibres, Skein.fibre_setFibre _ _ _ _ long, if_pos rfl, Option.map_some]
  · rw [Skein.fibre_mapFibres, Skein.fibre_setFibre _ _ _ _ long, if_neg other, here, Option.map_some]

/-! ## Placement (spec/12 R318, R319) -/

theorem beside_takeFootprint (s : State) (c w grid span : Nat) (banks : List Nat) : Beside s (s.takeFootprint c w grid span banks) := by
  have left : Beside s (s.leaveWays c banks) := by
    unfold State.leaveWays
    dsimp only
    split
    · exact .refl s
    · exact (beside_foldl _ (fun s x => beside_writeDirty s x) _ s).trans (beside_modCluster ..)
  refine left.trans (beside_foldl _ (fun t b => ?_) banks _)
  split
  · exact beside_modCluster ..
  · exact (beside_modCluster ..).trans (beside_modCluster ..)

theorem findGrid_modGrid {f : Grid → Grid} (key : ∀ g, (f g).key = g.key) (s : State) (k : Nat) : (s.modGrid k f).grid k = (s.grid k).map f := by
  have maps : ∀ gs : List Grid, findGrid (gs.map fun g => if g.key = k then f g else g) k = (findGrid gs k).map f := by
    intro gs
    induction gs with
    | nil => rfl
    | cons g r ih =>
      by_cases own : g.key = k
      · simp [findGrid, own, key]
      · simpa [findGrid, own] using ih
  exact maps s.grids

theorem findGrid_key : ∀ {gs : List Grid} {k : Nat} {g : Grid}, findGrid gs k = some g → g.key = k
  | h :: r, k, g, found => by
    unfold findGrid at found
    split at found
    · cases found; assumption
    · exact findGrid_key found

/-- A gang as a launch places it: gang gi of a span, on a core of a cluster. -/
structure Launched (gr : Grid) (span c gi core : Nat) (g : Gang) : Prop where
  grid : g.grid = gr.key
  ctx : g.ctx = gr.ctx
  spanid : g.spanid = span
  gangid : g.gangid = gi
  linear : g.linear = gr.desc.spang * span + gi
  cluster : g.cluster = c
  core : g.core = core
  nregs : g.nregs = gr.desc.regs
  det : g.det = gr.desc.det
  csn : g.csn = gr.csn
  hcpc : g.hcpc = gr.hcpc
  ended : g.ended = false
  frozen : g.frozen = false
  stepCount : g.stepCount = gr.stepcnt
  skeins : g.skeins.length = gr.desc.gangsk
  skein : ∀ (k : Nat) (sk : Skein), g.skeins[k]? = some sk → sk.width = gr.desc.width ∧ sk.record = [] ∧
    ∀ n, n < min gr.desc.width (gr.desc.fibs - k * gr.desc.width) → ∃ x, sk.fibre n = some x ∧
      x.pc = (if gr.desc.start then gr.desc.simg else gr.desc.rimg) ∧ x.pers = gr.desc.pers ∧ x.wait = .none ∧ x.parked = false

theorem Launched.untried {gr : Grid} {span c gi core : Nat} {g : Gang} (h : Launched gr span c gi core g) : Launched gr span c gi core g.untried where
  grid := h.grid
  ctx := h.ctx
  spanid := h.spanid
  gangid := h.gangid
  linear := h.linear
  cluster := h.cluster
  core := h.core
  nregs := h.nregs
  det := h.det
  csn := h.csn
  hcpc := h.hcpc
  ended := h.ended
  frozen := h.frozen
  stepCount := h.stepCount
  skeins := (List.length_map ..).trans h.skeins
  skein k sk' at_ := by
    have at_ : (g.skeins.map fun sk => sk.mapFibres fun _ => Says.untried)[k]? = some sk' := by
      rw [← untried_eq]
      exact at_
    obtain ⟨sk, before, rfl⟩ := Option.map_eq_some_iff.1 ((List.getElem?_map ..).symm.trans at_)
    obtain ⟨width, record, fibres⟩ := h.skein k sk before
    refine ⟨width, record, fun n inside => ?_⟩
    obtain ⟨x, here, pc, pers, wait, parked⟩ := fibres n inside
    exact ⟨Says.untried x, by rw [Skein.fibre_mapFibres, here, Option.map_some], pc, pers, wait, parked⟩

/-- Fibre n of a skein made with a list of fibres that fits it. -/
theorem Skein.fibre_fresh {width block age n : Nat} {active : Bool} {fibres : List Fibre} {x : Fibre} (fits : n < width) (at_ : fibres[n]? = some x) :
    (Skein.fresh width block age active fibres).fibre n = some x := by
  obtain ⟨inside, -⟩ := List.getElem?_eq_some_iff.1 at_
  have slot : ((fibres.map some ++ List.replicate width none).take width)[n]? = some (some x) := by
    rw [List.getElem?_take_of_lt fits, List.getElem?_append_left (by simpa using inside), List.getElem?_map, at_, Option.map_some]
  exact congrArg Option.join slot

/-- The gang that a placement makes. -/
def State.launchedGang (s : State) (gr : Grid) (span c gi core : Nat) : Gang :=
  let d := gr.desc
  let s2 := { s with nextKey := s.nextKey + 1 + d.fibs }
  let runs := (s2.roomFor c core d.gangsk d.width d.regs).getD []
  let res := s2.freeResidencies c core d.gangsk
  let act := s2.activeCount c core
  let unit := ((s2.weaveTable c d.pers).map WeaveTable.unit).getD 1
  let linear := d.linear span gi
  { Gang.fresh s.nextKey d.kind c core gr.ctx gr.key d.regs with
    gangid := gi, spanid := span, linear := linear, det := d.det, hcpc := gr.hcpc, csn := gr.csn
    poolBase := (d.spbase + linear * (16 + d.spcap * gr.poolEntrySize)) % 2 ^ 64, poolCap := d.spcap
    stepCount := gr.stepcnt
    log := ⟨gr.log.1, gr.log.2.1 + 16 * gr.log.2.2 * linear, gr.log.2.2, 0⟩
    skeins := (rangeFrom 0 d.gangsk).map fun k =>
      { Skein.fresh d.width (runs.getD k 0) 0 (act + k < 8) (launchFibres d unit (s2.legacyOf c d.pers) (s.nextKey + 1) (k * d.width)) with
        residency := res.getD k 0, readyFrom := s2.movesEnd c core } }

/-- The fibres of a launch, one by one. -/
theorem launchFibres_at {d : LaunchDesc} {unit legacy key first n : Nat} (inside : n < min d.width (d.fibs - first)) :
    ∃ x, (launchFibres d unit legacy key first)[n]? = some x ∧ x.pc = (if d.start then d.simg else d.rimg) ∧ x.pers = d.pers ∧
      x.wait = .none ∧ x.parked = false := by
  rw [launchFibres, rangeFrom_eq_range', List.getElem?_map, List.getElem?_range' inside]
  exact ⟨_, rfl, rfl, rfl, rfl, rfl⟩

theorem launched_launchedGang (s : State) (gr : Grid) (span c gi core : Nat) : Launched gr span c gi core (s.launchedGang gr span c gi core) := by
  refine ⟨rfl, rfl, rfl, rfl, rfl, rfl, rfl, rfl, rfl, rfl, rfl, rfl, rfl, rfl, ?_, fun k sk at_ => ?_⟩
  · refine (List.length_map ..).trans ?_
    rw [rangeFrom_eq_range', List.length_range']
  · obtain ⟨j, numbered, rfl⟩ := Option.map_eq_some_iff.1 ((List.getElem?_map ..).symm.trans at_)
    rw [rangeFrom_eq_range'] at numbered
    obtain ⟨inside, value⟩ := List.getElem?_eq_some_iff.1 numbered
    rw [List.getElem_range', Nat.zero_add, Nat.one_mul] at value
    subst value
    refine ⟨rfl, rfl, fun n fits => ?_⟩
    obtain ⟨x, here, entry⟩ := launchFibres_at fits
    exact ⟨x, Skein.fibre_fresh (block := 0) (age := 0) (active := false) (fits.trans_le (Nat.min_le_left ..)) here, entry⟩

/-- A gang without a pool, placed. -/
theorem placeGang_places (s : State) {gr : Grid} (span c gi core : Nat) (nopool : gr.desc.spcap = 0) :
    s.placeGang gr span c gi core =
      { s with nextKey := s.nextKey + 1 + gr.desc.fibs, gangs := s.gangs ++ [s.launchedGang gr span c gi core] } := if_pos nopool

/-- The gangs of a span, placed one after another. -/
theorem placeGangs_place {gr : Grid} (span c : Nat) (nopool : gr.desc.spcap = 0) (core : Nat → Nat) : ∀ (l : List Nat) (s : State),
    ∃ (n : Nat) (gs : List Gang), l.foldl (fun s i => s.placeGang gr span c i (core i)) s = { s with nextKey := n, gangs := s.gangs ++ gs } ∧
      gs.length = l.length ∧ ∀ i ∈ l, ∃ g ∈ gs, Launched gr span c i (core i) g
  | [], s => ⟨s.nextKey, [], by rw [List.append_nil]; rfl, rfl, by simp⟩
  | i :: l, s => by
    obtain ⟨n, gs, after, size, launched⟩ := placeGangs_place span c nopool core l (s.placeGang gr span c i (core i))
    refine ⟨n, s.launchedGang gr span c i (core i) :: gs, ?_, congrArg (· + 1) size, fun j hj => ?_⟩
    · refine after.trans ?_
      rw [placeGang_places s span c i (core i) nopool]
      simp only [List.append_assoc, List.singleton_append]
    · rcases List.mem_cons.1 hj with rfl | later
      · exact ⟨_, List.mem_cons_self, launched_launchedGang ..⟩
      · obtain ⟨g, hg, is⟩ := launched j later
        exact ⟨g, List.mem_cons_of_mem _ hg, is⟩

/-- The cores that a placement names, in order. -/
theorem namedCores_length {cores : List Nat} (once : cores.Nodup) (small : ∀ x ∈ cores, x < 16) :
    ((List.range 16).filter cores.contains).length = cores.length := by
  refine List.Perm.length_eq ((List.perm_ext_iff_of_nodup (List.nodup_range.filter _) once).2 fun x => ?_)
  rw [List.mem_filter, List.mem_range, List.contains_iff_mem]
  exact ⟨fun h => h.2, fun h => ⟨small x h, h⟩⟩

theorem spanPlacement_waits {s : State} {grid span c : Nat} {gr : Grid} {cores : List Nat} (found : s.grid grid = some gr)
    (unfit : s.placeable gr span c cores = false) : Leads (.spanPlacement grid span c cores) s s := by
  rw [Leads, exec_spanPlacement, execSpanPlacement]
  simp only [State.placeSpan, found, unfit, Bool.not_false, if_true]

theorem spanPlacement_places {s : State} {grid span c : Nat} {gr : Grid} {cores : List Nat} (found : s.grid grid = some gr)
    (fits : s.placeable gr span c cores = true) (nopool : gr.desc.spcap = 0) :
    ∃ (u : State) (gr' : Grid), exec (.spanPlacement grid span c cores) s = .next u ∧ u.grid grid = some gr' ∧ gr'.placed = gr.placed ++ [span] ∧
      gr'.desc = gr.desc ∧ u.gangs.length = s.gangs.length + gr.desc.spang ∧ (u.cluster c).idle = false ∧
      ∀ (i core : Nat), ((List.range 16).filter cores.contains)[i]? = some core → ∃ g ∈ u.gangs, Launched gr span c i core g := by
  have order : (rangeFrom 0 16).filter cores.contains = (List.range 16).filter cores.contains := by
    rw [rangeFrom_eq_range', List.range_eq_range']
  have size : ((List.range 16).filter cores.contains).length = gr.desc.spang := by
    simp only [State.placeable, Bool.and_eq_true, List.all_eq_true, beq_iff_eq, decide_eq_true_eq, State.coreFits] at fits
    obtain ⟨⟨⟨⟨⟨-, count⟩, once⟩, fit⟩, -⟩, -⟩ := fits
    exact (namedCores_length once fun x hx => (fit x hx).1.1.2).trans count
  let named := (List.range 16).filter cores.contains
  let s1 := s.takeFootprint c gr.world grid span gr.desc.footBanks
  have beside : Beside s s1 := beside_takeFootprint ..
  obtain ⟨n, gs, placed, many, launched⟩ := placeGangs_place span c nopool (fun i => named.getD i 0) (rangeFrom 0 named.length) s1
  let s2 : State := { s1 with nextKey := n, gangs := s1.gangs ++ gs }
  let s3 := (s2.modGrid grid fun y => { y with placed := y.placed ++ [span] }).modCluster c fun k => { k with idle := false }
  have done : s.placeSpan grid span c cores = s3 := by
    unfold State.placeSpan
    simp only [found, fits, Bool.not_true, Bool.false_eq_true, if_false, order]
    exact congrArg (fun t : State => (t.modGrid grid fun y => { y with placed := y.placed ++ [span] }).modCluster c fun k => { k with idle := false }) placed
  have grids : s3.grid grid = some { gr with placed := gr.placed ++ [span] } := by
    have before : s2.grid grid = some gr := (congrArg (findGrid · grid) beside.grids).trans found
    refine (findGrid_modGrid (f := fun y => { y with placed := y.placed ++ [span] }) (fun _ => rfl) s2 grid).trans ?_
    rw [before, Option.map_some]
  have gangs : s3.clearTried.gangs = (s1.gangs ++ gs).map Gang.untried := rfl
  refine ⟨s3.clearTried, _, by rw [exec_spanPlacement, execSpanPlacement, done], grids, rfl, rfl, ?_, ?_, fun i core at_ => ?_⟩
  · rw [gangs, List.length_map, List.length_append, many, beside.gangs, rangeFrom_eq_range', List.length_range', size]
  · have own : s3.cluster c = { s2.cluster c with idle := false } := State.cluster_modCluster_same ..
    exact (congrArg Cluster.idle own).trans rfl
  · obtain ⟨inside, value⟩ := List.getElem?_eq_some_iff.1 at_
    obtain ⟨g, mem, is⟩ := launched i (by rw [mem_rangeFrom]; exact ⟨Nat.zero_le _, by rw [Nat.zero_add]; exact inside⟩)
    have core_ : named.getD i 0 = core := by rw [List.getD_eq_getElem?_getD, at_, Option.getD_some]
    rw [core_] at is
    exact ⟨g.untried, gangs ▸ List.mem_map_of_mem (List.mem_append_right _ mem), is.untried⟩

end Sys2Proof.Machine
end


section
/-! PROOFS, O48, continued. Where a gang stands while what waits on it is looked at again, and the move of a span to another cluster. -/

namespace Sys2Proof.Machine

open Sys2Proof.Says

/-! ## A gang stays on its core -/

/-- The gang with a key stands on a core of a cluster. -/
def State.Seats (s : State) (key c n : Nat) : Prop := ∃ g, s.gang key = some g ∧ g.cluster = c ∧ g.core = n

theorem Gang.seat_settleBarriers (g : Gang) : g.settleBarriers.cluster = g.cluster ∧ g.settleBarriers.core = g.core := by
  have one (b : Nat) : ∀ (fuel : Nat) (g : Gang), (g.settleBarrier b fuel).cluster = g.cluster ∧ (g.settleBarrier b fuel).core = g.core := by
    intro fuel
    induction fuel with
    | zero => exact fun _ => ⟨rfl, rfl⟩
    | succ fuel ih =>
      intro g
      unfold Gang.settleBarrier
      split
      · exact ih _
      · exact ⟨rfl, rfl⟩
  have all : ∀ (l : List Nat) (g : Gang), (l.foldl (fun g b => g.settleBarrier b 3) g).cluster = g.cluster ∧
      (l.foldl (fun g b => g.settleBarrier b 3) g).core = g.core := by
    intro l
    induction l with
    | nil => exact fun _ => ⟨rfl, rfl⟩
    | cons b r ih => exact fun g => ⟨(ih _).1.trans (one b 3 g).1, (ih _).2.trans (one b 3 g).2⟩
  exact all _ g

theorem Gang.seat_settleStep (g : Gang) : g.settleStep.cluster = g.cluster ∧ g.settleStep.core = g.core := by
  unfold Gang.settleStep
  split
  · exact ⟨rfl, rfl⟩
  · exact ⟨rfl, rfl⟩

namespace State.Seats

variable {s t : State} {key c n : Nat}

theorem of_gangs (h : s.Seats key c n) (gangs : t.gangs = s.gangs) : t.Seats key c n := by
  rw [State.Seats, State.gang, gangs]
  exact h

theorem beside (h : s.Seats key c n) (b : Beside s t) : t.Seats key c n := h.of_gangs b.gangs

theorem foldl {α : Type} {f : State → α → State} (step : ∀ {s a}, s.Seats key c n → (f s a).Seats key c n) :
    ∀ {l : List α} {s : State}, s.Seats key c n → (l.foldl f s).Seats key c n
  | [], _, h => h
  | a :: l, s, h => show (l.foldl f (f s a)).Seats key c n from foldl (fun h => step h) (step h)

theorem ite {p : Prop} [Decidable p] (hs : s.Seats key c n) (ht : t.Seats key c n) : (if p then s else t).Seats key c n := by
  split
  · exact hs
  · exact ht

/-- A change of a gang that leaves it where it is. -/
theorem modGang {k : Nat} {f : Gang → Gang} (h : s.Seats key c n) (stays : ∀ g, (f g).cluster = g.cluster ∧ (f g).core = g.core := by
    exact fun _ => ⟨rfl, rfl⟩) : (s.modGang k f).Seats key c n := by
  obtain ⟨g, found, cluster, core⟩ := h
  by_cases own : key = k
  · subst own
    exact ⟨{ f g with key := key }, by rw [State.gang_modGang_same, found, Option.map_some], (stays g).1.trans cluster, (stays g).2.trans core⟩
  · exact ⟨g, by rw [State.gang_modGang_other _ _ _ _ own, found], cluster, core⟩

theorem modSkein {g k f} (h : s.Seats key c n) : (s.modSkein g k f).Seats key c n := h.modGang
theorem writeRecord {r} (h : s.Seats key c n) : (s.writeRecord r).Seats key c n := h.beside (beside_writeRecord ..)
theorem trace {k x r} (h : s.Seats key c n) : (s.trace k x r).Seats key c n := h.beside (beside_trace ..)
theorem clearTried (h : s.Seats key c n) : s.clearTried.Seats key c n := by
  obtain ⟨g, found, cluster, core⟩ := h
  exact ⟨g.untried, by rw [State.gang_clearTried, found, Option.map_some], cluster, core⟩

theorem raise {w v} (h : s.Seats key c n) : (s.raise w v).Seats key c n := h.of_gangs rfl
theorem modQueue {w q f} (h : s.Seats key c n) : (s.modQueue w q f).Seats key c n := h.of_gangs rfl
theorem leaveBanks {g} (h : s.Seats key c n) : (s.leaveBanks g).Seats key c n := h.of_gangs rfl
theorem releaseSlots {g} (h : s.Seats key c n) : (s.releaseSlots g).Seats key c n := h.of_gangs rfl
theorem releaseFootprints {k} (h : s.Seats key c n) : (s.releaseFootprints k).Seats key c n := h.of_gangs rfl
theorem setPool {g a m} (h : s.Seats key c n) : (s.setPool g a m).Seats key c n := h.of_gangs (setPool_gangs ..)
theorem takeKey (h : s.Seats key c n) : s.takeKey.2.Seats key c n := h.of_gangs rfl
theorem addCounter {g k m} (h : s.Seats key c n) : (s.addCounter g k m).Seats key c n := h.of_gangs rfl

theorem settleFootprint {k} (h : s.Seats key c n) : (s.settleFootprint k).Seats key c n := by
  unfold State.settleFootprint
  split
  · exact ite h.releaseFootprints h
  · exact h

theorem closeEntry {g k q} (h : s.Seats key c n) : (s.closeEntry g k q).Seats key c n :=
  ite h.modSkein.settleFootprint (h.modSkein.settleFootprint.of_gangs rfl)

theorem settleSpan {g} (h : s.Seats key c n) : (s.settleSpan g).Seats key c n :=
  ite (foldl modGang (foldl (fun h => h.beside (beside_acquireCaches ..)) (h.beside (beside_ordMeet ..)))) h

theorem settleGridStep {k} (h : s.Seats key c n) : (s.settleGridStep k).Seats key c n := h.of_gangs (gangs_settleGridStep ..)

theorem reportUnconsumed {g k sk us} (h : s.Seats key c n) : (s.reportUnconsumed g k sk us).Seats key c n :=
  foldl (fun h => h.writeRecord.modSkein.closeEntry) h

theorem dropView {k x} (h : s.Seats key c n) : (s.dropView k x).Seats key c n := ite h (h.of_gangs rfl)

theorem endGang {k} (h : s.Seats key c n) : (s.endGang k).Seats key c n := by
  unfold State.endGang
  split
  · exact h
  next g _ =>
    refine ite h ?_
    have reported : ((rangeFrom 0 g.skeins.length).foldl (fun s m => match s.skein k m with
        | some sk => s.reportUnconsumed g m sk (sk.live.map (·.2.uid))
        | none => s) s).Seats key c n := by
      refine foldl (fun h => ?_) h
      split
      · exact h.reportUnconsumed
      · exact h
    refine settleGridStep (settleSpan (releaseFootprints (dropView (releaseSlots (leaveBanks (modGang ?_))))))
    split
    · exact ite reported reported.setPool
    · exact reported

theorem closePacket {w q m} (h : s.Seats key c n) : (s.closePacket w q m).Seats key c n := by
  unfold State.closePacket
  split
  · exact h
  · exact ite (raise (trace h.modQueue)) (trace h.modQueue)

theorem endRoutine {k} (h : s.Seats key c n) : (s.endRoutine k).Seats key c n := by
  unfold State.endRoutine
  split
  · exact h
  next g _ =>
    have reported : State.Seats (match s.skein k 0 with
        | some sk => s.reportUnconsumed g 0 sk (sk.live.map (·.2.uid))
        | none => s) key c n := by
      split
      · exact h.reportUnconsumed
      · exact h
    simp only
    split
    · exact closePacket (leaveBanks (modGang reported))
    · exact leaveBanks (modGang reported)

theorem takeFaults {g k m rs} (h : s.Seats key c n) : (s.takeFaults g k m rs).Seats key c n := by
  unfold State.takeFaults
  split
  · split
    · exact h
    · refine ite h.writeRecord.endRoutine (ite h.writeRecord.endGang (ite h.modSkein ?_))
      exact ite (writeRecord (trace (foldl modSkein h))) (trace (foldl modSkein h))
  · exact h

theorem serveRequests {k} : ∀ {m} {s : State}, s.Seats key c n → (s.serveRequests k m).Seats key c n
  | 0, _, h => h
  | m + 1, s, h => by
    unfold State.serveRequests
    simp only
    split
    · exact h
    · exact serveRequests h.modGang

theorem resolveMigrate {k} (h : s.Seats key c n) : (s.resolveMigrate k).Seats key c n := by
  unfold State.resolveMigrate
  split
  · exact h
  · refine ite h (ite (foldl (fun h => ?_) h) ?_)
    · split
      · exact h
      · exact h.takeFaults
    · simp only
      split
      · exact trace (addCounter (modGang h.serveRequests))
      · exact modGang (takeKey h.serveRequests)

theorem settleGang {k} (h : s.Seats key c n) : (s.settleGang k).Seats key c n := by
  unfold State.settleGang
  simp only
  have joined : ((s.traceJoins k).modGang k fun g => ({ g with skeins := g.skeins.map Skein.settleJoins } : Gang).settleBarriers.settleStep).Seats key c n :=
    modGang (h.of_gangs (gangs_traceJoins ..)) fun g =>
      ⟨(Gang.seat_settleStep _).1.trans (Gang.seat_settleBarriers _).1, (Gang.seat_settleStep _).2.trans (Gang.seat_settleBarriers _).2⟩
  split
  · exact joined
  next g _ =>
    have settled := (joined.settleSpan (g := g)).settleGridStep (k := g.grid)
    exact ite settled (ite settled.resolveMigrate (ite settled.endRoutine (ite settled.endGang settled)))

end State.Seats

/-! ## The move of a span (spec/12 R324, R325) -/

theorem foldl_still {α : Type} {f : State → α → State} {s : State} : ∀ {l : List α}, (∀ a ∈ l, f s a = s) → l.foldl f s = s
  | [], _ => rfl
  | a :: l, h => by
    rw [List.foldl_cons, h a List.mem_cons_self]
    exact foldl_still fun b hb => h b (List.mem_cons_of_mem _ hb)

/-- A gang without records replays nothing. -/
theorem replayGang_idle {s : State} {key : Nat} {g : Gang} (found : s.gang key = some g) (idle : ∀ sk ∈ g.skeins, sk.record = []) :
    s.replayGang key = s := by
  unfold State.replayGang
  rw [found]
  refine foldl_still fun p hp => ?_
  rw [idle p.1 (List.fst_mem_of_mem_zipIdx hp)]
  rfl

/-- Gangs that no near store of theirs waits for have nothing to perform. -/
theorem settleNear_far {s : State} {keys : List Nat}
    (far : ∀ g ∈ s.gangs, g.key ∈ keys → ∀ sk ∈ g.skeins, ∀ e ∈ sk.record, ∀ o ∈ e.ops, o.near = false) : s.settleNear keys = s := by
  have none_ : ((s.gangs.filter fun g => keys.contains g.key).flatMap fun g => g.skeins.zipIdx.flatMap fun p =>
      p.1.record.flatMap fun e => (e.ops.filter fun o => o.near && o.stage == .sent).map fun o => ((⟨g.key, p.2, e.seq⟩ : EntryId), o.slot)) = [] := by
    refine List.flatMap_eq_nil_iff.2 fun g hg => List.flatMap_eq_nil_iff.2 fun p hp => List.flatMap_eq_nil_iff.2 fun e he => ?_
    obtain ⟨mem, own⟩ := List.mem_filter.1 hg
    rw [List.map_eq_nil_iff, List.filter_eq_nil_iff]
    intro o ho
    rw [far g mem (List.contains_iff_mem.1 own) p.1 (List.fst_mem_of_mem_zipIdx hp) e he o ho]
    exact Bool.false_ne_true
  unfold State.settleNear
  simp only [none_]
  rfl

theorem takeFootprint_nil (s : State) (c w grid span : Nat) : s.takeFootprint c w grid span [] = s := by
  have none_ : ((s.cluster c).cache.filter fun x => ([] : List Nat).contains x.way) = [] := List.filter_eq_nil_iff.2 fun x _ => by simp
  unfold State.takeFootprint State.leaveWays
  simp only [none_]
  rfl

theorem findGang_append {key : Nat} {g : Gang} (own : g.key = key) : ∀ {gs : List Gang}, (∀ h ∈ gs, h.key ≠ key) → findGang (gs ++ [g]) key = some g
  | [], _ => if_pos own
  | h :: r, others => by
    rw [List.cons_append, findGang, if_neg (others h List.mem_cons_self)]
    exact findGang_append own fun k hk => others k (List.mem_cons_of_mem _ hk)

/-- The gang gone from its cluster: what the new cluster sees, the footprint streamed and let go, slots and view dropped. -/
def State.handedOver (s : State) (gr : Grid) (g : Gang) (grid span new : Nat) : State :=
  let s3 := ((s.seeAs g.cluster new).streamFootprint g.cluster new gr.desc.scrbase gr.desc.footBytes).dropFootprint g.cluster grid span
  { s3.dropSlots [g.key] with gangs := s3.gangs.filter fun h => !([g.key].contains h.key) }.dropView g.coreNo g.ctx

theorem dropView_gangs (s : State) (n x : Nat) : (s.dropView n x).gangs = s.gangs := by
  unfold State.dropView
  split
  · rfl
  · rfl

theorem gangs_handedOver (s : State) (gr : Grid) (g : Gang) (grid span new : Nat) :
    (s.handedOver gr g grid span new).gangs = s.gangs.filter fun h => h.key != g.key :=
  (dropView_gangs ..).trans (List.filter_congr fun h _ => congrArg (!·) (Bool.eq_iff_iff.2 (by simp)))

theorem keeps_handedOver {I : Invariant} {s : State} (h : s.Keeps I) (gr : Grid) (g : Gang) (grid span new : Nat) :
    (s.handedOver gr g grid span new).Keeps I := by
  have seen : (s.seeAs g.cluster new).Keeps I := h.of_eq rfl rfl rfl rfl
  have streamed : (((s.seeAs g.cluster new).streamFootprint g.cluster new gr.desc.scrbase gr.desc.footBytes).dropFootprint g.cluster grid span).Keeps I :=
    have copied : ((s.seeAs g.cluster new).streamFootprint g.cluster new gr.desc.scrbase gr.desc.footBytes).Keeps I := by
      unfold State.streamFootprint
      exact State.Keeps.modCluster seen
    State.Keeps.modCluster copied
  exact State.Keeps.dropView (streamed.of_eq rfl rfl rfl rfl)

/-- The state in which the moved gang is seated. -/
def State.vacated (s : State) (gr : Grid) (g : Gang) (grid span new : Nat) : State :=
  (((s.unqueue [g.key]).flushAll g.cluster).freshCaches new).handedOver gr g grid span new

theorem beside_freshCaches (s : State) (c : Nat) : Beside s (s.freshCaches c) :=
  (beside_foldl _ (fun s n => beside_shedPrivate s ⟨c, some n⟩ _) _ s).trans (beside_acquireSync ..)

theorem gangs_vacated (s : State) (gr : Grid) (g : Gang) (grid span new : Nat) :
    (s.vacated gr g grid span new).gangs = s.gangs.filter fun h => h.key != g.key := by
  have flushed : Beside (s.unqueue [g.key]) (((s.unqueue [g.key]).flushAll g.cluster).freshCaches new) :=
    ((beside_foldl _ (fun s n => beside_pushPrivate s ⟨g.cluster, some n⟩) _ _).trans (beside_writeBackAll ..)).trans (beside_freshCaches ..)
  have gangs : (((s.unqueue [g.key]).flushAll g.cluster).freshCaches new).gangs = s.gangs := flushed.gangs
  rw [State.vacated, gangs_handedOver, gangs]

theorem keeps_vacated (s : State) (gr : Grid) (g : Gang) (grid span new : Nat) : (s.vacated gr g grid span new).Keeps (booksOf s) :=
  keeps_handedOver (((State.keeps_booksOf s).unqueue (ks := [g.key])).flushAll (c := g.cluster)).freshCaches ..

/-- A gang as it is seated again. -/
def State.seated (s : State) (g : Gang) (runs : List Nat) : Gang :=
  { g with
    frozen := false
    skeins := g.skeins.zipIdx.map fun q =>
      let parked := maskOf ((q.1.live.filter fun p => p.2.parked).map (·.1))
      { q.1.mapFibres (fun _ x => if x.parked then { x with amask := parked, fmask := parked } else x) with
        block := runs.getD q.2 0, residency := (s.freeResidencies g.cluster g.core g.skeins.length).getD q.2 0
        active := decide (s.activeCount g.cluster g.core + q.2 < 8), age := 0, readyFrom := s.movesEnd g.cluster g.core, moving := 0, issued := false,
        replaying := false } }

theorem seatGang_seats {s : State} {g : Gang} {runs : List Nat}
    (room : s.roomFor g.cluster g.core g.skeins.length (((g.skeins.head?).map (·.width)).getD 32) g.nregs = some runs) :
    s.seatGang g.ctx g = some ({ s with gangs := s.gangs ++ [s.seated g runs] }.modCluster g.cluster fun k => { k with idle := false }) := by
  unfold State.seatGang
  rw [room]
  rfl

/-- The gang at its freeze point, on the cluster it moves to. -/
def Gang.movedTo (g : Gang) (new : Nat) : Gang := { g.stopped with cluster := new }

/-- The room that the move was granted for is there when the gang is seated. -/
theorem roomFor_vacated {s : State} {gr : Grid} {g : Gang} {grid span new : Nat} (once : (s.gangs.map (·.key)).Nodup) (mem : g ∈ s.gangs)
    (away : g.cluster ≠ new) (k width regs : Nat) :
    (s.vacated gr g grid span new).roomFor new g.core k width regs = s.roomFor new g.core k width regs := by
  have own : ∀ h ∈ s.gangs, h.key = g.key → h = g := fun h hh same => List.inj_on_of_nodup_map once hh mem same
  have residents : (s.vacated gr g grid span new).residents new g.core = s.residents new g.core := by
    rw [State.residents, State.residents, gangs_vacated, List.filter_filter]
    refine List.filter_congr fun h hh => ?_
    by_cases same : h.key = g.key
    · rw [own h hh same]
      simp [away]
    · simp [same]
  rw [State.roomFor, State.roomFor, State.skeinsHeld, State.skeinsHeld, State.runsUsed, State.runsUsed, residents]

/-- A gang put on a cluster, with the old cluster's forwarding entry to it. -/
def State.reseat (s : State) (h : Gang) (old : Nat) (e : Forward) : State :=
  ({ s with gangs := s.gangs ++ [h] }.modCluster h.cluster fun k => { k with idle := false }).modCluster old fun k =>
    { k with forwards := k.forwards ++ [e] }

section
variable {s : State} {h : Gang} {old : Nat} {e : Forward} (fresh : ∀ k ∈ s.gangs, k.key ≠ h.key)
include fresh

theorem gang_reseat : (s.reseat h old e).gang h.key = some h := findGang_append rfl fresh

/-- It stands there when all that waits on it has been looked at. -/
theorem seats_settle_reseat : ((s.reseat h old e).settleGang h.key).clearTried.Seats h.key h.cluster h.core :=
  (State.Seats.settleGang ⟨h, gang_reseat fresh, rfl, rfl⟩).clearTried

end

theorem forwards_settle_reseat (s : State) (h : Gang) (old key : Nat) (e : Forward) :
    (((s.reseat h old e).settleGang key).cluster old).forwards = (s.cluster old).forwards ++ [e] := by
  obtain ⟨-, -, after⟩ : ((s.reseat h old e).settleGang key).Keeps (booksOf (s.reseat h old e)) := (State.keeps_booksOf _).settleGang
  obtain ⟨-, -, before⟩ : ({ s with gangs := s.gangs ++ [h] }.modCluster h.cluster fun k => { k with idle := false }).Keeps (booksOf s) :=
    have joined : State.Keeps (booksOf s) { s with gangs := s.gangs ++ [h] } := (State.keeps_booksOf s).of_eq rfl rfl rfl rfl
    joined.modCluster
  rw [after old, State.reseat, State.cluster_modCluster_same]
  exact congrArg (· ++ [e]) (before old)

/-- What a granted move says of its gang. -/
theorem relocatable_one {s : State} {gr : Grid} {g : Gang} {new : Nat} (may : s.relocatable gr [g] g.cluster new = true) :
    g.cluster ≠ new ∧ ∃ runs, s.roomFor new g.core g.skeins.length (((g.skeins.head?).map (·.width)).getD 32) g.nregs = some runs := by
  simp only [State.relocatable, Bool.and_eq_true, List.all_cons, List.all_nil, bne_iff_ne, Bool.and_true] at may
  obtain ⟨⟨⟨⟨⟨⟨⟨⟨⟨⟨⟨⟨⟨⟨away, -⟩, -⟩, -⟩, -⟩, -⟩, -⟩, -⟩, -⟩, ⟨-, room⟩⟩, -⟩, -⟩, -⟩, -⟩, -⟩ := may
  exact ⟨away, Option.isSome_iff_exists.1 room⟩

theorem roomFor_movedTo {t : State} {g : Gang} {new : Nat} {runs : List Nat}
    (room : t.roomFor new g.core g.skeins.length (((g.skeins.head?).map (·.width)).getD 32) g.nregs = some runs) :
    t.roomFor (g.movedTo new).cluster (g.movedTo new).core (g.movedTo new).skeins.length
      ((((g.movedTo new).skeins.head?).map (·.width)).getD 32) (g.movedTo new).nregs = some runs := by
  have count : (g.movedTo new).skeins.length = g.skeins.length := List.length_map ..
  have width : ((g.movedTo new).skeins.head?).map (·.width) = (g.skeins.head?).map (·.width) := by
    show ((g.skeins.map fun sk => sk.mapFibres fun _ x => x.stopped).head?).map (·.width) = _
    cases g.skeins <;> rfl
  rw [count, width]
  exact room

/-- A gang that is seated has the records that it had. -/
theorem records_seated {t : State} {g : Gang} {new : Nat} {runs : List Nat} (idle : ∀ sk ∈ g.skeins, sk.record = []) :
    ∀ sk ∈ (t.seated (g.movedTo new) runs).skeins, sk.record = [] := by
  intro sk hsk
  obtain ⟨q, hq, rfl⟩ := List.mem_map.1 hsk
  obtain ⟨sk0, h0, same⟩ := List.mem_map.1 (List.fst_mem_of_mem_zipIdx hq)
  exact (congrArg Skein.record same).symm.trans (idle sk0 h0)

/-- The move of a span of one gang that has nothing outstanding. -/
theorem relocate_one {s : State} {grid span new : Nat} {gr : Grid} {g : Gang} (found : s.grid grid = some gr)
    (alone : (s.gangs.filter fun g => g.kind != .handle && g.grid == grid && g.spanid == span && !g.ended) = [g])
    (may : s.relocatable gr [g] g.cluster new = true) (nobanks : gr.desc.footBanks = []) (noslots : s.slotsHeld g = [])
    (near : s.settleNear [g.key] = s) :
    s.relocate grid span new = match (s.vacated gr g grid span new).seatGang g.ctx (g.movedTo new) with
      | none => s
      | some s6 => ((s6.modCluster g.cluster fun k => { k with forwards := k.forwards ++ [⟨gr.world, grid, span, new⟩] }).replayGang g.key).settleGang
        g.key := by
  unfold State.relocate
  simp only [found, alone, List.head?_cons, Option.map_some, Option.getD_some, may, Bool.not_true, Bool.false_eq_true, if_false, List.map_cons,
    List.map_nil, near, List.flatMap_cons, List.flatMap_nil, noslots, List.append_nil, nobanks, takeFootprint_nil, List.foldl_cons, List.foldl_nil,
    Option.bind_some]
  rfl

theorem relocation_moves {s : State} {grid span new : Nat} {gr : Grid} {g : Gang} (found : s.grid grid = some gr)
    (alone : (s.gangs.filter fun g => g.kind != .handle && g.grid == grid && g.spanid == span && !g.ended) = [g])
    (may : s.relocatable gr [g] g.cluster new = true) (nobanks : gr.desc.footBanks = []) (noslots : s.slotsHeld g = [])
    (idle : ∀ sk ∈ g.skeins, sk.record = []) (once : (s.gangs.map (·.key)).Nodup) :
    ∃ (u : State) (g' : Gang), exec (.relocation grid span new) s = .next u ∧ u.gang g.key = some g' ∧ g'.cluster = new ∧ g'.core = g.core ∧
      (u.cluster g.cluster).forwards = (s.cluster g.cluster).forwards ++ [⟨gr.world, grid, span, new⟩] := by
  have mem : g ∈ s.gangs := (List.mem_filter.1 (alone ▸ List.mem_singleton_self g)).1
  have near : s.settleNear [g.key] = s := settleNear_far fun h hh same sk hsk e he => by
    obtain rfl := List.inj_on_of_nodup_map once hh mem (List.mem_singleton.1 same)
    rw [idle sk hsk] at he
    cases he
  obtain ⟨away, runs, room⟩ := relocatable_one may
  have done := relocate_one found alone may nobanks noslots near
  have seated := seatGang_seats (roomFor_movedTo ((roomFor_vacated (gr := gr) (grid := grid) (span := span) once mem away ..).trans room))
  have gangs := gangs_vacated s gr g grid span new
  obtain ⟨-, -, before⟩ := keeps_vacated s gr g grid span new
  generalize s.vacated gr g grid span new = s5 at done seated gangs before
  have fresh : ∀ h ∈ s5.gangs, h.key ≠ (s5.seated (g.movedTo new) runs).key := by
    intro h hh
    rw [gangs] at hh
    exact bne_iff_ne.1 (List.mem_filter.1 hh).2
  let s7 := s5.reseat (s5.seated (g.movedTo new) runs) g.cluster ⟨gr.world, grid, span, new⟩
  have replayed : s7.replayGang g.key = s7 := replayGang_idle (gang_reseat fresh) (records_seated idle)
  have seated : s5.seatGang g.ctx (g.movedTo new) = _ := seated
  have done : s.relocate grid span new = s7.settleGang g.key := by
    rw [done, seated]
    exact congrArg (State.settleGang · g.key) replayed
  obtain ⟨g', here, cluster, core⟩ : (s7.settleGang g.key).clearTried.Seats g.key new g.core := seats_settle_reseat fresh
  have forwards : ((s7.settleGang g.key).clearTried.cluster g.cluster).forwards = (s5.cluster g.cluster).forwards ++ [⟨gr.world, grid, span, new⟩] :=
    forwards_settle_reseat ..
  refine ⟨_, g', by rw [exec_relocation, execRelocation, done], here, cluster, core, ?_⟩
  rw [forwards, before]

/-! ## The statement -/

/-- Settles O48, clause by clause. -/
theorem gridsAndScheduling : Obligations.GridsAndScheduling := by
  unfold Obligations.GridsAndScheduling
  refine ⟨?_, fun s grid gr span c cores found unfit => spanPlacement_waits found unfit, ?_, ?_, compaction_moves, ?_, forwardExpiry_drops, ?_⟩
  · intro s grid gr span c cores found fits nopool _ d order
    obtain ⟨u, gr', leads, after, placed, desc, gangs, busy, launched⟩ := spanPlacement_places found fits nopool
    refine ⟨u, gr', leads, after, placed, desc, gangs, busy, fun i core at_ => ?_⟩
    obtain ⟨g, mem, is⟩ := launched i core at_
    exact ⟨g, mem, is.grid, is.ctx, is.spanid, is.gangid, is.linear, is.cluster, is.core, is.nregs, is.det, is.csn, is.hcpc, is.ended, is.frozen,
      is.stepCount, is.skeins, is.skein⟩
  · intro s key g bs s1 es s2 k t found live running pool good shape header head count inside some_ entry slot
    obtain ⟨u, sk, sk', y, leads, at_, free, after, here, is, others⟩ :=
      spawnRefill_takes found live running pool good shape header count inside some_ entry slot
    exact ⟨u, sk, sk', y, leads, at_, free, after, here, is.pc, is.gpc, is.wshift, is.pers, is.wait, is.size, is.regs, is.e, others⟩
  · intro s c r next put n
    exact ⟨fun free => skeinMoveIn_free next free, fun a full out => skeinMoveIn_full next full out,
      fun a full due old waits => forcedRotation_waiting next full due old waits, fun young => forcedRotation_young next young⟩
  · intro s grid span new gr g found alone may nobanks noslots idle once
    exact relocation_moves found alone may nobanks noslots idle once
  · intro s grid gr found
    exact ⟨gridComplete_waits found, fun c t ended free launcher none_ room => gridComplete_thread found ended free launcher none_ room,
      fun w q n p ended free launcher live uncounted => gridComplete_packet found ended free launcher live uncounted⟩

end Sys2Proof.Machine
end


section
/-! PROOFS, O49. Switch requests, requests for a cut, shadow copies, the drain, and its registers. -/

namespace Sys2Proof.Machine

open Sys2Proof.Says

/-! ## Switch requests (spec/12 R327) -/

theorem cswctlGo_ignored {s : State} {w : Nat} (v : BitVec 64) (h : (s.world w).cswbusy = true ∨ s.boot ≠ 1) : exec (.cswctlGo w v) s = .next s := by
  rw [exec_cswctlGo, execCswctlGo]
  split
  next up =>
    rw [State.requestSwitch, if_pos (h.resolve_right (not_not_intro up))]
  · rfl

theorem cswctlGo_joins {s : State} {w : Nat} {v : BitVec 64} (up : s.boot = 1) (free : (s.world w).cswbusy = false) (go : v.toNat.testBit 63 = true) :
    let cl := w / 64 * (32 / s.partitions) + v.toNat / 8 % 32 % (32 / s.partitions)
    ∃ u : State, exec (.cswctlGo w v) s = .next u ∧ (u.world w).cswbusy = true ∧ (u.world w).cswcl = v.toNat / 8 % 32 ∧
      (u.cluster cl).switches = (s.cluster cl).switches ++ [w] ∧ u.gangs = s.gangs ∧ u.ctxs = s.ctxs ∧ u.mem = s.mem := by
  intro cl
  have go : bitOf v.toNat 63 = true := (bitOf_eq_testBit ..).trans go
  let s1 := s.modWorld w fun x => { x with cswcl := bitsOf v.toNat 7 3, cswbusy := bitOf v.toNat 63 }
  have joined : s.requestSwitch w v.toNat = s1.modCluster cl fun k => { k with switches := k.switches ++ [w] } := by
    rw [State.requestSwitch, if_neg (by rw [free]; exact Bool.false_ne_true)]
    exact if_pos go
  have world : s1.world w = { s.world w with cswcl := bitsOf v.toNat 7 3, cswbusy := bitOf v.toNat 63 } := State.world_modWorld_same ..
  refine ⟨s1.modCluster cl fun k => { k with switches := k.switches ++ [w] }, by rw [exec_cswctlGo, execCswctlGo, if_pos up, joined],
    (congrArg World.cswbusy world).trans go, (congrArg World.cswcl world).trans rfl, ?_, rfl, rfl, rfl⟩
  rw [State.cluster_modCluster_same]
  rfl

section
variable {s s1 : State} {cl w st : Nat}

/-- What the end of a request leaves, but for its event. -/
theorem endSwitch_leaves (s : State) (cl w st : Nat) :
    ((s.endSwitch cl w st).world w).cswst = st ∧ ((s.endSwitch cl w st).world w).cswbusy = false ∧
      ((s.endSwitch cl w st).cluster cl).switches = (s.cluster cl).switches.drop 1 ∧
      ((s.endSwitch cl w st).cluster cl).events = (s.cluster cl).events ++ (if (s.cluster cl).postNow w then
        [⟨w, BitVec.ofNat 32 (0x83000000 + w), 0x80000000, BitVec.ofNat 64 st⟩] else []) := by
  let s1 := s.modWorld w fun x => { x with cswst := st, cswbusy := false, cswbegun := false }
  have world : (s.endSwitch cl w st).world w = { s.world w with cswst := st, cswbusy := false, cswbegun := false } :=
    State.world_modWorld_same s w fun x => { x with cswst := st, cswbusy := false, cswbegun := false }
  let k := { s.cluster cl with switches := (s.cluster cl).switches.drop 1 }
  have dropped : (s1.modCluster cl fun k => { k with switches := k.switches.drop 1 }).cluster cl = k := State.cluster_modCluster_same ..
  have cluster : (s.endSwitch cl w st).cluster cl = if k.postNow w then
      { k with events := k.events ++ [⟨w, BitVec.ofNat 32 (0x83000000 + w), 0x80000000, BitVec.ofNat 64 st⟩] }
      else { k with held := k.held ++ [⟨⟨w, BitVec.ofNat 32 (0x83000000 + w), 0x80000000, BitVec.ofNat 64 st⟩, none⟩] } := by
    refine (State.cluster_modCluster_same ..).trans ?_
    rw [dropped]
    rfl
  refine ⟨(congrArg World.cswst world).trans rfl, (congrArg World.cswbusy world).trans rfl, ?_, ?_⟩
  · rw [cluster]
    split
    · rfl
    · rfl
  · have now : k.postNow w = (s.cluster cl).postNow w := rfl
    rw [cluster, now]
    split
    · rfl
    · exact (List.append_nil _).symm

theorem postNow_iff {k : Cluster} : k.postNow w = true ↔ k.heldOf w = 0 ∧ k.eventRoom w 1 = true := by
  rw [Cluster.postNow, Bool.and_eq_true, beq_iff_eq]

theorem switchRequestServe_ended {l : List Nat} (first : (s.cluster cl).switches = w :: l) (running : (s.world w).frozen = false)
    (ended : s.swapRun (s.worldAccess w cl) (s.world w).cswout (s.world w).cswin (2 ^ 32) (if (s.world w).cswbegun then 2 else 0) 0 = .ended st s1) :
    Leads (.switchRequestServe cl) s (s1.endSwitch cl w st) := by
  rw [Leads, exec_switchRequestServe, execSwitchRequestServe, State.serveSwitch]
  simp only [first, running, ended, Bool.false_eq_true, if_false]

theorem switchRequestServe_frozen {l : List Nat} (first : (s.cluster cl).switches = w :: l) (frozen : (s.world w).frozen = true) :
    Leads (.switchRequestServe cl) s s := by
  rw [Leads, exec_switchRequestServe, execSwitchRequestServe, State.serveSwitch]
  simp only [first, frozen, if_true]

end

/-! ## Requests for a cut (spec/13 R347) -/

theorem checkpointTimer_asks {s : State} {p : Nat} (on : (s.part p).ckptcfg.toNat.testBit 63 = true) (period : (s.part p).ckptcfg.toNat / 2 ^ 32 % 2 ^ 24 ≠ 0)
    (cut : (s.part p).ckpt.phase ≠ 1) (drain : (s.part p).ckpt.phase ≠ 2) :
    exec (.checkpointTimer p) s = .next (s.modPart p fun x => { x with ckpt := { x.ckpt with timer := true } }) := by
  have on : (s.part p).ckptOn = true := (bitOf_eq_testBit ..).trans on
  have period : bitsOf (s.part p).ckptcfg.toNat 55 32 ≠ 0 := period
  rw [exec_checkpointTimer, execCheckpointTimer]
  simp only [on, bne_iff_ne.2 period, bne_iff_ne.2 cut, bne_iff_ne.2 drain, Bool.and_self, if_true]
  rfl

theorem checkpointTimer_ignored {s : State} {p : Nat} (h : (s.part p).ckptcfg.toNat.testBit 63 = false ∨ (s.part p).ckptcfg.toNat / 2 ^ 32 % 2 ^ 24 = 0 ∨
    (s.part p).ckpt.phase = 1 ∨ (s.part p).ckpt.phase = 2) : exec (.checkpointTimer p) s = .next s := by
  have off : ((s.part p).ckptOn && bitsOf (s.part p).ckptcfg.toNat 55 32 != 0 && (s.part p).ckpt.phase != 1 && (s.part p).ckpt.phase != 2) = false := by
    rcases h with h | h | h | h
    · rw [show (s.part p).ckptOn = false from (bitOf_eq_testBit ..).trans h]
      rfl
    · rw [show bitsOf (s.part p).ckptcfg.toNat 55 32 = 0 from h]
      simp
    · simp [h]
    · simp [h]
  rw [exec_checkpointTimer, execCheckpointTimer]
  simp only [off, Bool.false_eq_true, if_false]

/-! ## Frames frozen and shadowed (spec/13 R348, R349) -/

/-- t is s but for memory and the translations held. -/
def Marked (s t : State) : Prop := ∃ m l, t = { s with mem := m, tlb := l }

theorem Marked.refl (s : State) : Marked s s := ⟨s.mem, s.tlb, rfl⟩

theorem Marked.trans {s t u : State} (a : Marked s t) (b : Marked t u) : Marked s u := by
  obtain ⟨_, _, rfl⟩ := a
  obtain ⟨m, l, rfl⟩ := b
  exact ⟨m, l, rfl⟩

theorem marked_foldl {α : Type} (f : State → α → State) (h : ∀ s a, Marked s (f s a)) : ∀ (l : List α) (s : State), Marked s (l.foldl f s)
  | [], s => .refl s
  | a :: r, s => (h s a).trans (marked_foldl f h r (f s a))

theorem marked_markLeaves (s : State) (p : Nat) (frames : Nat → Bool) (on : Bool) : Marked s (s.markLeaves p frames on) :=
  marked_foldl _ (fun _ _ => marked_foldl _ (fun _ _ => ⟨_, _, rfl⟩) _ _) _ s

section
variable {s t : State} (h : Marked s t)
include h

theorem Marked.part (p : Nat) : t.part p = s.part p := by obtain ⟨_, _, rfl⟩ := h; rfl
theorem Marked.peers : t.peers = s.peers := by obtain ⟨_, _, rfl⟩ := h; rfl
theorem Marked.ctxs : t.ctxs = s.ctxs := by obtain ⟨_, _, rfl⟩ := h; rfl

end

theorem tget_filter {α : Type} {f : Nat → Bool} {n : Nat} (kept : f n = true) : ∀ t : Tbl α, tget (t.filter fun c => f c.1) n = tget t n
  | [] => rfl
  | (k, v) :: r => by
    rw [List.filter_cons, tget]
    by_cases own : k = n
    · subst own
      rw [if_pos kept, if_pos rfl, tget, if_pos rfl]
    · rw [if_neg own]
      split
      · rw [tget, if_neg own, tget_filter kept r]
      · exact tget_filter kept r

theorem shadowCopy_ignored {s : State} {p f : Nat} (open_ : (s.part p).ckpt.holds f = false) : exec (.shadowCopy p f) s = .next s := by
  rw [exec_shadowCopy, execShadowCopy, open_]
  rfl

theorem shadowCopy_copies {s : State} {p f : Nat} (held : (s.part p).ckpt.holds f = true) (own : f * 2 ^ 18 / 2 ^ 52 = p)
    (room : (s.part p).ckpt.shadow.length < (s.part p).shadowFrames) :
    ∃ u : State, exec (.shadowCopy p f) s = .next u ∧ (u.part p).ckpt.thawed = (s.part p).ckpt.thawed ++ [f] ∧
      ∃ m, (u.part p).ckpt.shadow = (s.part p).ckpt.shadow ++ [(f, m)] ∧ ∀ a, a / 2 ^ 18 = f → Memory.read m a = s.mem.read a := by
  let m : Memory := s.mem.filter fun c => frameOf c.1 == f
  let s1 := s.modPart p fun x => { x with ckpt := { x.ckpt with thawed := x.ckpt.thawed ++ [f], shadow := x.ckpt.shadow ++ [(f, m)] } }
  have copied : s.shadowFrame f = s1.markLeaves p (· == f) false := by
    rw [State.shadowFrame]
    simp only [own, held, room, decide_true, Bool.and_self, if_true]
    rfl
  have part : (s1.markLeaves p (· == f) false).part p =
      { s.part p with ckpt := { (s.part p).ckpt with thawed := (s.part p).ckpt.thawed ++ [f], shadow := (s.part p).ckpt.shadow ++ [(f, m)] } } :=
    ((marked_markLeaves ..).part p).trans (State.part_modPart_same ..)
  refine ⟨(s1.markLeaves p (· == f) false).clearTried, ?_, (congrArg (fun x : Partition => x.ckpt.thawed) part).trans rfl, m,
    (congrArg (fun x : Partition => x.ckpt.shadow) part).trans rfl, fun a at_ => ?_⟩
  · rw [exec_shadowCopy, execShadowCopy, held, own, copied]
    simp
  · exact congrArg (Option.getD · 0) (tget_filter (f := fun n => frameOf n == f) (beq_iff_eq.2 at_) s.mem)

/-! ## The drain (spec/13 R350, R351, spec/22 R461) -/

theorem drainFrame_of {s u : State} {p : Nat} (drains : (s.part p).ckpt.phase = 2) (device : (s.part p).ckpt.pull = false)
    (step : s.drainStep p = .ok u) : Leads (.drainFrame p none) s u := by
  rw [Leads, exec_drainFrame, execDrainFrame, Option.map_none, State.drain]
  simp only [drains, device, step, ne_eq, not_true_eq_false, decide_false, Bool.or_self, Bool.false_eq_true, if_false]

section
variable {s : State} {p d : Nat} (tier : (s.part p).ckpt.tgt.toNat / 2 ^ 62 = 1) (buddy : d = (s.part p).ckpt.tgt.toNat / 2 ^ 42 % 2 ^ 20)
  (there : s.peerGone p d = false) (named : s.rosterOk (64 * p) d .store = true)
include tier buddy there named

/-- Bytes written at a buddy's memory. -/
theorem tierWrite_peer (off : Nat) (bs : List Byte) :
    s.tierWrite p off bs = .ok (s.putNow (.peer d) ((s.part p).ckpt.adr.toNat / 4096 * 4096 + off) bs) := by
  have kind : bitsOf (s.part p).ckpt.tgt.toNat 63 62 ≠ 2 := by
    show (s.part p).ckpt.tgt.toNat / 2 ^ 62 % 2 ^ (63 + 1 - 62) ≠ 2
    rw [tier]
    decide
  have device : bitsOf (s.part p).ckpt.tgt.toNat 61 42 = d := buddy.symm
  unfold State.tierWrite
  simp only [kind, device, there, named, Bool.not_true, Bool.false_eq_true, if_false]

variable (drains : (s.part p).ckpt.phase = 2) (device : (s.part p).ckpt.pull = false)
include drains device

/-- The first step breaks the header. -/
theorem drainFrame_opens (closed : (s.part p).ckpt.opened = false) : ∃ u : State, exec (.drainFrame p none) s = .next u ∧
    (u.part p).ckpt.opened = true ∧ (u.part p).ckpt.phase = 2 ∧
    tget u.peers d = some (((tget s.peers d).getD []).writeBytes ((s.part p).ckpt.adr.toNat / 4096 * 4096) [0, 0, 0, 0]) := by
  let a := (s.part p).ckpt.adr.toNat / 4096 * 4096
  let s1 := s.putNow (.peer d) a (bytesOf 4 0)
  have step : s.drainStep p = .ok (s1.modCkpt p fun c => { c with opened := true }) := by
    have written : s.tierWrite p 0 (bytesOf 4 0) = .ok s1 := by rw [tierWrite_peer tier buddy there named, Nat.add_zero]
    rw [State.drainStep]
    simp only [closed, written, Bool.not_false, if_true]
  have part : (s1.modCkpt p fun c => { c with opened := true }).part p = { s.part p with ckpt := { (s.part p).ckpt with opened := true } } :=
    State.part_modPart_same ..
  refine ⟨_, drainFrame_of drains device step, (congrArg (fun x : Partition => x.ckpt.opened) part).trans rfl,
    (congrArg (fun x : Partition => x.ckpt.phase) part).trans drains, ?_⟩
  exact tget_tset_same ..

/-- Each further step streams a frame. -/
theorem drainFrame_streams (opened : (s.part p).ckpt.opened = true) (more : (s.part p).ckpt.lo < (s.part p).ckpt.hi) :
    ∃ u : State, exec (.drainFrame p none) s = .next u ∧ (u.part p).ckpt.lo = (s.part p).ckpt.lo + 1 ∧ (u.part p).ckpt.phase = 2 ∧
      tget u.peers d = some (((tget s.peers d).getD []).writeBytes
        ((s.part p).ckpt.adr.toNat / 4096 * 4096 + (0x1000 + ((s.part p).ckpt.lo * 2 ^ 18 - p * 2 ^ 52))) (s.frameBytes p (s.part p).ckpt.lo)) := by
  let f := (s.part p).ckpt.lo
  let a := (s.part p).ckpt.adr.toNat / 4096 * 4096 + (0x1000 + (f * 2 ^ 18 - p * 2 ^ 52))
  let s1 := s.putNow (.peer d) a (s.frameBytes p f)
  have step : s.drainStep p = .ok (s1.frameStreamed p f) := by
    rw [State.drainStep]
    have base : absAddr p 0 = p * 2 ^ 52 := Nat.add_zero _
    simp only [opened, more, tierWrite_peer tier buddy there named, Bool.not_true, Bool.false_eq_true, if_false, if_true, base, s1, a, f]
  let c : Checkpoint := (s.part p).ckpt
  let s2 := s1.modCkpt p fun c =>
    { c with
      lo := if f = c.lo && f < c.hi then c.lo + 1 else c.lo
      ext := c.ext.filter (· != f)
      thawed := c.thawed.filter (· != f)
      shadow := c.shadow.filter fun x => x.1 != f
      bitmap := if (s1.part p).ckpt.holds f then c.bitmap.filter (· != f) else c.bitmap
      streamed := if c.extAll.contains f then c.streamed ++ [f] else c.streamed }
  have marked : Marked s2 (if (s1.part p).ckpt.holds f then s2.markLeaves p (· == f) false else s2) := by
    split
    · exact marked_markLeaves ..
    · exact .refl s2
  have marked : Marked s2 (s1.frameStreamed p f) := marked
  have lo : (s2.part p).ckpt.lo = f + 1 := by
    refine (congrArg (fun x : Partition => x.ckpt.lo) (State.part_modPart_same ..)).trans ?_
    exact if_pos (Bool.and_eq_true_iff.2 ⟨decide_eq_true rfl, decide_eq_true more⟩)
  have phase : (s2.part p).ckpt.phase = 2 := (congrArg (fun x : Partition => x.ckpt.phase) (State.part_modPart_same ..)).trans drains
  refine ⟨_, drainFrame_of drains device step, ?_, ?_, ?_⟩
  · exact (congrArg (fun x : Partition => x.ckpt.lo) (marked.part p)).trans lo
  · exact (congrArg (fun x : Partition => x.ckpt.phase) (marked.part p)).trans phase
  · exact (congrArg (tget · d) marked.peers).trans (tget_tset_same ..)

end

/-! ### Aborts (spec/22 R462) -/

/-- Nothing is resumed where nothing was kept frozen. -/
theorem resumeHeld_none {s : State} {p : Nat} (none_ : (s.part p).ckpt.heldContexts = []) :
    s.resumeHeld p = (s.modCkpt p fun c => { c with heldContexts := [] }).clearTried := by
  rw [State.resumeHeld, none_]
  rfl

/-- A partition whose frames are all unfrozen. -/
def Checkpoint.unfrozen (c : Checkpoint) : Checkpoint := { c with lo := 0, hi := 0, ext := [], thawed := [], shadow := [] }

theorem part_thawAll (s : State) (p : Nat) : (s.thawAll p).part p = { s.part p with ckpt := (s.part p).ckpt.unfrozen } := by
  have marked := (marked_markLeaves s p (fun f => (s.part p).ckpt.holds f || (s.part p).ckpt.thawed.contains f) false).part p
  refine (State.part_modPart_same ..).trans ?_
  rw [marked]
  rfl

/-- What an abort leaves of a partition that kept no context frozen. -/
theorem part_abortCut {s : State} {p : Nat} (busy : (s.part p).ckpt.phase = 1 ∨ (s.part p).ckpt.phase = 2) (none_ : (s.part p).ckpt.heldContexts = []) :
    ((s.abortCut p).part p).ckpt.phase = 4 ∧ ((s.abortCut p).part p).ckpt.shadow = [] ∧ ((s.abortCut p).part p).ckptcfg = (s.part p).ckptcfg := by
  let again := (s.part p).ckpt.streamed.filter fun f => (s.part p).ckpt.extAll.contains f
  let mend : Checkpoint → Checkpoint := fun c => { c with phase := 4, bitmap := c.bitmap ++ again.filter fun f => !c.bitmap.contains f }
  let s2 := (s.thawAll p).modCkpt p mend
  have part : s2.part p = { s.part p with ckpt := mend (s.part p).ckpt.unfrozen } := by
    refine (State.part_modPart_same ..).trans ?_
    rw [part_thawAll]
  have done : s.abortCut p = s2.resumeHeld p := by
    rw [State.abortCut]
    exact if_neg (by omega)
  have last : (s.abortCut p).part p = { s2.part p with ckpt := { (s2.part p).ckpt with heldContexts := [] } } := by
    rw [done, resumeHeld_none (by rw [part]; exact none_)]
    exact State.part_modPart_same s2 p fun x => { x with ckpt := { x.ckpt with heldContexts := [] } }
  rw [last, part]
  exact ⟨rfl, rfl, rfl⟩

theorem drainFrame_fails {s : State} {p : Nat} (n : BitVec 8) (drains : (s.part p).ckpt.phase = 2) (device : (s.part p).ckpt.pull = false)
    (none_ : (s.part p).ckpt.heldContexts = []) :
    ∃ u : State, exec (.drainFrame p (some n)) s = .next u ∧ (u.part p).ckpt.phase = 4 ∧ (u.part p).ckpt.shadow = [] := by
  have failed : ∃ code, s.drain p (some n.toNat) = (s.abortRecord p code ((s.part p).ckpt.adr.toNat / 4096 * 4096)).abortCut p := by
    rw [State.drain]
    simp only [drains, device, ne_eq, not_true_eq_false, decide_false, Bool.or_self, Bool.false_eq_true, if_false]
    exact ⟨_, rfl⟩
  obtain ⟨code, failed⟩ := failed
  let s1 := s.abortRecord p code ((s.part p).ckpt.adr.toNat / 4096 * 4096)
  have bare : (s1.part p).bare = (s.part p).bare := (reported_writeRecord ..).parts p
  have phase : (s1.part p).ckpt.phase = 2 := (congrArg (fun x : Partition => x.ckpt.phase) bare).trans drains
  have held : (s1.part p).ckpt.heldContexts = [] := (congrArg (fun x : Partition => x.ckpt.heldContexts) bare).trans none_
  obtain ⟨after, shadow, -⟩ := part_abortCut (.inr phase) held
  exact ⟨(s1.abortCut p).clearTried, by rw [exec_drainFrame, execDrainFrame, Option.map_some, failed], after, shadow⟩

/-! ## Registers of a drain (spec/13 R346, R350) -/

theorem writer_physical {s : State} {r : RegWrite} {p : Nat} (up : s.boot = 1) (whole : r.page = none) (by_ : r.by_ = 64 * p) : s.writer r = some p := by
  have rest : r.by_ % 64 = 0 := by omega
  have part : r.by_ / 64 = p := by omega
  rw [State.writer, if_pos up, writerPart, whole, rest, part]
  rfl

/-- `CKPTCFG` after a write. -/
def ckptcfgAfter (v : Nat) : Nat := packFields [(32, v), (24, bitsOf v 55 32), (6, 0), (2, bitsOf v 63 62)]

theorem ckptcfgAfter_fields {v : Nat} (small : v < 2 ^ 64) :
    ckptcfgAfter v < 2 ^ 64 ∧ ckptcfgAfter v % 2 ^ 56 = v % 2 ^ 56 ∧ ckptcfgAfter v / 2 ^ 56 % 64 = 0 ∧ ckptcfgAfter v / 2 ^ 62 = v / 2 ^ 62 := by
  have value : ckptcfgAfter v = v % 2 ^ 32 + 2 ^ 32 * (v / 2 ^ 32 % 2 ^ 24) + 2 ^ 62 * (v / 2 ^ 62 % 4) := by
    simp only [ckptcfgAfter, packFields, bitsOf]
    omega
  omega

theorem ckptcfgWrite_writes {s : State} {r : RegWrite} {p : Nat} (writer : s.writer r = some p) :
    ∃ u : State, exec (.ckptcfgWrite r) s = .next u ∧ ((s.part p).ckpt.heldContexts = [] →
      (u.part p).ckptcfg.toNat % 2 ^ 56 = r.v.toNat % 2 ^ 56 ∧ (u.part p).ckptcfg.toNat / 2 ^ 56 % 64 = 0 ∧
      (u.part p).ckptcfg.toNat / 2 ^ 62 = r.v.toNat / 2 ^ 62 ∧
      (r.v.toNat.testBit 63 = true → (u.part p).ckpt = (s.part p).ckpt) ∧
      (r.v.toNat.testBit 63 = false → (s.part p).ckpt.phase = 1 ∨ (s.part p).ckpt.phase = 2 → (u.part p).ckpt.phase = 4)) := by
  let s1 := s.modPart p fun x => { x with ckptcfg := BitVec.ofNat 64 (ckptcfgAfter r.v.toNat) }
  let t := if bitOf r.v.toNat 63 then s1 else s1.abortCut p
  have leads : exec (.ckptcfgWrite r) s = .next t.clearTried := by
    rw [exec_ckptcfgWrite, execCkptcfgWrite, writer]
    rfl
  refine ⟨t.clearTried, leads, fun none_ => ?_⟩
  have part : s1.part p = { s.part p with ckptcfg := BitVec.ofNat 64 (ckptcfgAfter r.v.toNat) } := State.part_modPart_same ..
  obtain ⟨small, low, mid, high⟩ := ckptcfgAfter_fields r.v.isLt
  have cfg : (t.part p).ckptcfg = BitVec.ofNat 64 (ckptcfgAfter r.v.toNat) := by
    have cfg1 : (s1.part p).ckptcfg = BitVec.ofNat 64 (ckptcfgAfter r.v.toNat) := (congrArg Partition.ckptcfg part).trans rfl
    show (State.part (ite _ _ _) p).ckptcfg = _
    split
    · exact cfg1
    · by_cases busy : (s1.part p).ckpt.phase = 1 ∨ (s1.part p).ckpt.phase = 2
      · exact (part_abortCut busy (by rw [part]; exact none_)).2.2.trans cfg1
      · rw [State.abortCut]
        simp only
        rw [if_pos (by omega)]
        exact cfg1
  have value : (t.clearTried.part p).ckptcfg.toNat = ckptcfgAfter r.v.toNat :=
    (congrArg BitVec.toNat cfg).trans (Nat.mod_eq_of_lt small)
  rw [value]
  refine ⟨low, mid, high, fun on => ?_, fun off busy => ?_⟩
  · have same : t = s1 := if_pos ((bitOf_eq_testBit ..).trans on)
    show (t.part p).ckpt = _
    rw [same, part]
  · have aborted : t = s1.abortCut p := if_neg (by rw [bitOf_eq_testBit, off]; exact Bool.false_ne_true)
    show (t.part p).ckpt.phase = 4
    rw [aborted]
    exact (part_abortCut (by rw [part]; exact busy) (by rw [part]; exact none_)).1

theorem ckptack_streams {s : State} {r : RegWrite} {p : Nat} (writer : s.writer r = some p) :
    let c := (s.part p).ckpt
    let f := (p * 2 ^ 52 + r.v.toNat % 2 ^ 52) / 2 ^ 18
    c.phase = 2 → c.pull = true → c.lo ≤ f → f < c.hi → f ∉ c.streamed → f ∉ c.thawed → 1 < c.left →
    ∃ u : State, exec (.ckptack r) s = .next u ∧ (u.part p).ckpt.streamed = c.streamed ++ [f] ∧ (u.part p).ckpt.thawed = c.thawed ++ [f] ∧
      (u.part p).ckpt.left = c.left - 1 ∧ (u.part p).ckpt.phase = 2 := by
  intro c f drains pulls above below new frozen more
  let c' : Checkpoint := { c with
    thawed := if c.thawed.contains f then c.thawed else c.thawed ++ [f], shadow := c.shadow.filter fun x => x.1 != f
    bitmap := if c.holds f then c.bitmap.filter (· != f) else c.bitmap, streamed := c.streamed ++ [f] }
  let s1 := s.modCkpt p fun c => { c with
    thawed := if c.thawed.contains f then c.thawed else c.thawed ++ [f], shadow := c.shadow.filter fun x => x.1 != f
    bitmap := if (s.part p).ckpt.holds f then c.bitmap.filter (· != f) else c.bitmap, streamed := c.streamed ++ [f] }
  let s2 := if c.holds f then s1.markLeaves p (· == f) false else s1
  have marked : Marked s1 s2 := by
    show Marked s1 (ite _ _ _)
    split
    · exact marked_markLeaves ..
    · exact .refl s1
  have part1 : s1.part p = { s.part p with ckpt := c' } := State.part_modPart_same ..
  have ckpt : (s2.part p).ckpt = c' := (congrArg Partition.ckpt (marked.part p)).trans ((congrArg Partition.ckpt part1).trans rfl)
  have left : c'.left = c.left - 1 := by
    have pulls' : c'.pull = true := pulls
    have one : c'.streamed.length = c.streamed.length + 1 := List.length_append
    show (if c'.pull then c'.hi - c'.lo + c'.extAll.length - c'.streamed.length else c'.hi - c'.lo + c'.ext.length) = _
    rw [if_pos pulls', one, Checkpoint.left, if_pos pulls]
    rfl
  have done : s.ackFrame p r.v.toNat = s2 := by
    have mine : (decide (c.lo ≤ f) && decide (f < c.hi) || c.extAll.contains f) = true := by
      rw [decide_eq_true above, decide_eq_true below]
      rfl
    have new : c.streamed.contains f = false := by simpa using new
    have guard : ¬(decide (c.phase ≠ 2) || !c.pull || !(decide (c.lo ≤ f) && decide (f < c.hi) || c.extAll.contains f) || c.streamed.contains f) = true := by
      rw [mine, new, pulls]
      simpa using drains
    unfold State.ackFrame
    refine (if_neg guard).trans ?_
    refine if_neg (c := (s2.part p).ckpt.left = 0) ?_
    rw [ckpt, left]
    omega
  refine ⟨s2.clearTried, by rw [exec_ckptack, execCkptack, writer]; exact congrArg (fun t => Host.Outcome.next (State.clearTried t)) done, ?_⟩
  have after : (s2.clearTried.part p).ckpt = c' := ckpt
  rw [after]
  refine ⟨rfl, if_neg ?_, left, drains⟩
  simpa using frozen

end Sys2Proof.Machine
end


section
/-! PROOFS, O49, continued. Contexts frozen, saved and resumed, and the cut. -/

namespace Sys2Proof.Machine

open Sys2Proof.Says

/-! ## Contexts by key -/

theorem findCtx_key : ∀ {cs : List Context} {k : Nat} {c : Context}, findCtx cs k = some c → c.key = k
  | h :: r, k, c, found => by
    unfold findCtx at found
    split at found
    · cases found; assumption
    · exact findCtx_key found

theorem State.ctx_modCtx {s : State} {k : Nat} {c : Context} {f : Context → Context} (found : s.ctx k = some c) (key : (f c).key = c.key) :
    (s.modCtx k f).ctx k = some (f c) := by
  have maps : ∀ cs : List Context, findCtx cs k = some c → findCtx (cs.map fun c => if c.key = k then f c else c) k = some (f c) := by
    intro cs
    induction cs with
    | nil => intro found; cases found
    | cons h r ih =>
      intro found
      by_cases own : h.key = k
      · rw [findCtx, if_pos own] at found
        cases found
        simp [findCtx, own, key]
      · rw [findCtx, if_neg own] at found
        simpa [findCtx, own] using ih found
  exact maps s.ctxs found

theorem State.ctx_of_ctxs {s t : State} (h : t.ctxs = s.ctxs) (k : Nat) : t.ctx k = s.ctx k := congrArg (findCtx · k) h

/-! ## Saving (spec/13 R328) -/

/-- A context as a save leaves it. -/
structure Saved (s : State) (key : Nat) (c c' : Context) (hyp : Bool) : Prop where
  same : c'.key = c.key
  world : c'.world = c.world
  ctxid : c'.ctxid = c.ctxid
  st : c'.st = .frozen hyp
  saved : c'.saved = (((s.settleNear ((s.gangsIn key).map (·.key))).endMoves ((s.gangsIn key).map (·.key))).gangsIn key).map Gang.stopped

theorem saveCtx_saves {s : State} {key : Nat} {c : Context} (found : s.ctx key = some c) (hyp out ck : Bool) (st : Nat) :
    ∃ c', (s.saveCtx key hyp out ck st).Keeps (booksOf (s.modCtx key fun _ => c')) ∧ Saved s key c c' hyp := by
  suffices ∀ t, s.saveCtx key hyp out ck st = t → ∃ c', t.Keeps (booksOf (s.modCtx key fun _ => c')) ∧ Saved s key c c' hyp from this _ rfl
  intro t saves
  unfold State.saveCtx at saves
  split at saves
  next none_ => rw [found] at none_; cases none_
  next c0 found0 =>
  obtain rfl : c0 = c := Option.some.inj (found0.symm.trans found)
  extract_lets keys near gs0 calm gs slots late grids seq hd off image c' s1 s2 s3 s4 at saves
  subst saves
  refine ⟨c', ?_, rfl, rfl, rfl, rfl, rfl⟩
  obtain ⟨ctxs, partitions, forwards⟩ : (calm.unqueue keys).Keeps (booksOf s) :=
    (State.Keeps.foldl State.Keeps.flushFrozen (State.keeps_booksOf s).settleNear.endMoves).unqueue
  clear_value calm
  have saved : s1.Keeps (booksOf (s.modCtx key fun _ => c')) :=
    ⟨congrArg (List.map fun c : Context => if c.key = key then c' else c) ctxs, partitions, forwards⟩
  have cleared : s2.Keeps (booksOf (s.modCtx key fun _ => c')) := saved.of_eq rfl rfl rfl rfl
  have dropped : s3.Keeps (booksOf (s.modCtx key fun _ => c')) :=
    .ite (.foldl State.Keeps.dropView (cleared.of_eq rfl rfl rfl rfl)) cleared
  exact State.Keeps.spillTags (State.Keeps.writeHeader (.ite dropped dropped.writeArea))

theorem saveCtx_partitions (s : State) (key : Nat) (hyp out ck : Bool) (st : Nat) : (s.saveCtx key hyp out ck st).partitions = s.partitions := by
  by_cases found : ∃ c, s.ctx key = some c
  · obtain ⟨c, found⟩ := found
    obtain ⟨c', ⟨-, partitions, -⟩, -⟩ := saveCtx_saves found hyp out ck st
    exact partitions
  · have none_ : s.ctx key = none := Option.eq_none_iff_forall_ne_some.2 fun c h => found ⟨c, h⟩
    unfold State.saveCtx
    rw [none_]

/-- Gangs with no near store are saved as they stand. -/
theorem gangsIn_settled {s : State} {key : Nat} {keys : List Nat}
    (far : ∀ g ∈ s.gangs, ∀ sk ∈ g.skeins, ∀ e ∈ sk.record, ∀ o ∈ e.ops, o.near = false) :
    ((s.settleNear keys).endMoves keys).gangsIn key = s.gangsIn key := by
  have settled : s.settleNear keys = s := settleNear_far fun g hg _ => far g hg
  have moved : (s.endMoves keys).gangs = s.gangs := by
    unfold State.endMoves
    refine foldl_keeps State.gangs (fun t g => ?_) _ s
    rfl
  rw [settled, State.gangsIn, State.gangsIn, moved]

/-! ## The freeze point (spec/13 R329) -/

theorem wfreezeBusy_iff {v : Nat} (small : v < 2 ^ 64) : wfreezeBusy v = decide (2 ^ 63 ≤ v) := by
  rw [wfreezeBusy, bitOf_eq_testBit, Nat.testBit_eq_decide_div_mod_eq]
  refine decide_eq_decide.2 ?_
  omega

theorem freezePoint_freezes {s : State} {key : Nat} {c : Context} (found : s.ctx key = some c) (runs : c.st = .running)
    (busy : 2 ^ 63 ≤ (s.part (c.world / 64)).wfreeze) (small : (s.part (c.world / 64)).wfreeze < 2 ^ 64)
    (named : (s.part (c.world / 64)).wfreeze % 256 = c.world) :
    ∃ (u : State) (c' : Context), exec (.freezePoint key) s = .next u ∧ u.ctx key = some c' ∧ c'.st = .frozen true ∧ c'.ctxid = c.ctxid ∧
      ((∀ g ∈ s.gangs, ∀ sk ∈ g.skeins, ∀ e ∈ sk.record, ∀ o ∈ e.ops, o.near = false) →
        c'.saved.map (·.key) = ((s.gangs.filter fun g => g.kind != .handle && g.ctx == key &&
          !(g.ended && g.skeins.all fun sk => sk.record.isEmpty)).map (·.key))) ∧ (∀ g ∈ c'.saved, g.frozen = true) ∧
      ((∀ x ∈ s.ctxs, x.world = c.world → x.key ≠ key → x.st ≠ .running) → (u.part (c.world / 64)).wfreeze = c.world) := by
  obtain ⟨c', ⟨ctxs, -, -⟩, same, world, ctxid, st, saved⟩ := saveCtx_saves found true false false 1
  let s1 := s.saveCtx key true false false 1
  let u := if s1.ctxs.any fun x => x.world == c.world && x.st == .running then s1 else s1.modPart (c.world / 64) fun x => { x with wfreeze := c.world }
  have frozen : s.freezePoint key = u := by
    have busy : wfreezeBusy (s.part (partOfWorld c.world)).wfreeze = true := (wfreezeBusy_iff small).trans (decide_eq_true busy)
    have named : (s.part (partOfWorld c.world)).wfreeze % 256 = c.world := named
    unfold State.freezePoint
    simp only [found, runs, busy, named, bne_self_eq_false, Bool.not_true, Bool.or_self, Bool.false_eq_true, if_false]
    rfl
  have after : u.ctxs = (s.modCtx key fun _ => c').ctxs := by
    show (State.ctxs (ite _ _ _)) = _
    split
    · exact ctxs
    · exact ctxs
  refine ⟨u.clearTried, c', by rw [exec_freezePoint, execFreezePoint, frozen], (State.ctx_of_ctxs after key).trans (State.ctx_modCtx (f := fun _ => c') found same),
    st, ctxid, fun far => ?_, fun g hg => ?_, fun alone => ?_⟩
  · rw [saved, gangsIn_settled far, List.map_map]
    rfl
  · rw [saved] at hg
    obtain ⟨g0, -, rfl⟩ := List.mem_map.1 hg
    rfl
  · have none_ : ¬(s1.ctxs.any fun x => x.world == c.world && x.st == .running) = true := by
      rw [List.any_eq_true]
      rintro ⟨x, hx, runs⟩
      obtain ⟨own, running⟩ := Bool.and_eq_true_iff.1 runs
      have hx : x ∈ (s.modCtx key fun _ => c').ctxs := ctxs ▸ hx
      obtain ⟨y, hy, rfl⟩ := List.mem_map.1 hx
      by_cases named : y.key = key
      · rw [if_pos named, st] at running
        exact absurd running (by decide)
      · rw [if_neg named] at own running
        exact alone y hy (beq_iff_eq.1 own) named (beq_iff_eq.1 running)
    have last : u = s1.modPart (c.world / 64) fun x => { x with wfreeze := c.world } := if_neg none_
    show (u.part (c.world / 64)).wfreeze = c.world
    rw [last, State.part_modPart_same]

/-! ## `WFREEZE` (spec/13 R329) -/

theorem wfreezeBusy_idle {v : Nat} (idle : v < 2 ^ 63) : wfreezeBusy v = false :=
  (wfreezeBusy_iff (idle.trans (by decide))).trans (decide_eq_false (by omega))

/-- The threads of a held world are frozen. -/
theorem holdThreads_frozen {s : State} {w : Nat} {g : Gang} (mem : g ∈ (s.holdThreads w true).gangs) (handle : g.kind = .handle)
    (own : s.worldOf g = w) : g.frozen = true := by
  obtain ⟨h, -, rfl⟩ := List.mem_map.1 mem
  by_cases held : h.kind = .handle ∧ s.worldOf h = w
  · rw [if_pos held]
  · rw [if_neg held] at handle own
    exact absurd ⟨handle, own⟩ held

theorem wfreezeGo_stops {s : State} {r : RegWrite} {p : Nat} (writer : s.writer r = some p) (idle : (s.part p).wfreeze < 2 ^ 63)
    (go : r.v.toNat.testBit 9 = false) (mine : r.v.toNat % 256 / 64 = p) :
    let w := r.v.toNat % 256
    ∃ u : State, exec (.wfreezeGo r) s = .next u ∧ (u.world w).frozen = true ∧
      (u.part p).wfreeze = w + (if ∃ c ∈ s.ctxs, c.world = w ∧ c.st = .running then 2 ^ 63 else 0) ∧
      (∀ g ∈ u.gangs, g.kind = .handle → s.worldOf g = w → g.frozen = true) ∧ u.ctxs = s.ctxs ∧ u.mem = s.mem := by
  intro w
  let n := if (s.ctxs.any fun c => c.world == w && c.st == .running) = true then 2 ^ 63 else 0
  let s1 := s.modPart p fun x => { x with wfreeze := w + n }
  let s2 := s1.modWorld w fun x => { x with frozen := true }
  have done : s.startFreeze p r.v.toNat = s2.holdThreads w true := by
    have go : bitOf r.v.toNat 9 = false := (bitOf_eq_testBit ..).trans go
    unfold State.startFreeze
    simp only [wfreezeBusy_idle idle, go, mine, Bool.or_self, Bool.false_eq_true, if_false, if_true, true_and]
    rfl
  refine ⟨s2.holdThreads w true, by rw [exec_wfreezeGo, execWfreezeGo, writer]; exact congrArg Host.Outcome.next done, ?_, ?_,
    fun g mem handle own => holdThreads_frozen mem handle own,
    rfl, rfl⟩
  · exact (congrArg World.frozen (State.world_modWorld_same s1 w fun x => { x with frozen := true })).trans rfl
  · have some_ : (s.ctxs.any fun c => c.world == w && c.st == .running) = true ↔ ∃ c ∈ s.ctxs, c.world = w ∧ c.st = .running := by
      simp only [List.any_eq_true, Bool.and_eq_true, beq_iff_eq]
    refine (congrArg Partition.wfreeze (State.part_modPart_same s p fun x => { x with wfreeze := w + n })).trans ?_
    exact congrArg (w + ·) (if_congr some_ rfl rfl)

/-- A context loaded runs, and has nothing saved. -/
theorem loadCtx_done {s s3 : State} {key : Nat} (loads : s.loadCtx key = .done s3) :
    ∃ c', s3.ctx key = some c' ∧ c'.st = .running ∧ c'.saved = [] := by
  unfold State.loadCtx at loads
  split at loads
  · cases loads
  next c found =>
    extract_lets h placed at loads
    have put : ∀ {gs sl u}, placed = .inl (some (gs, sl, u)) → u.Keeps (booksOf s) := by
      intro gs sl u e
      simp only [placed] at e
      split at e
      · cases e; exact State.keeps_booksOf s
      · split at e
        · cases e
        · cases e
        next e1 => cases e; exact (State.keeps_booksOf s).areaGangs e1
    have bad : ∀ {l}, placed = .inr l → l ≠ .done s3 := by
      intro l e
      simp only [placed] at e
      split at e
      · cases e
      · split at e
        · cases e; simp
        · cases e; simp
        · cases e
    clear_value placed
    split at loads
    · exact absurd loads (bad rfl)
    · cases loads
    next gs slots u =>
      have found1 := put rfl
      extract_lets at loads
      split at loads
      · cases loads
      · split at loads
        · cases loads
        next seat =>
          have seated := State.Keeps.seatGangs (I := booksOf s) (fun t ht => by cases ht; exact found1.of_eq rfl rfl rfl rfl) seat
          extract_lets v2 spills v3 v4 v5 v6 v7 v8 at loads
          have fresh : v2.Keeps (booksOf s) := .foldl State.Keeps.freshCaches seated
          clear_value v2
          have filled : v3.Keeps (booksOf s) := fresh.of_eq rfl rfl rfl rfl
          obtain ⟨ctxs, -, -⟩ : v4.Keeps (booksOf s) := .foldl State.Keeps.seatSlot filled
          have runs : v5.ctx key = some { c with st := .running, saved := [], slots := [], image := [], late := 0, lates := [] } :=
            State.ctx_modCtx (f := fun x => { x with st := .running, saved := [], slots := [], image := [], late := 0, lates := [] })
              ((State.ctx_of_ctxs ctxs key).trans found) rfl
          obtain rfl := Loading.done.inj loads
          obtain ⟨after, -, -⟩ : ((gs.foldl (fun s g => s.settleGang g.key) v8).clearTried).Keeps (booksOf v5) :=
            State.Keeps.clearTried (.foldl State.Keeps.settleGang (State.Keeps.matchParked (State.Keeps.requeueReleases
              (.foldl State.Keeps.replayGang (State.keeps_booksOf v5).writeHeader))))
          exact ⟨_, (State.ctx_of_ctxs after key).trans runs, rfl, rfl⟩

theorem wfreezeResume_resumes {s s3 : State} {r : RegWrite} {p : Nat} {c : Context} (writer : s.writer r = some p) (idle : (s.part p).wfreeze < 2 ^ 63)
    (go : r.v.toNat.testBit 8 = false) (mine : r.v.toNat % 256 / 64 = p) :
    let w := r.v.toNat % 256
    let s2 := ((s.modPart p fun x => { x with wfreeze := w }).modWorld w fun x => { x with frozen := false }).holdThreads w false
    (s.ctxs.filter fun c => c.world == w && c.st == .frozen true) = [c] → (s2.rerecord c).loadCtx c.key = .done s3 →
    ∃ (u : State) (c' : Context), exec (.wfreezeResume r) s = .next u ∧ u.ctx c.key = some c' ∧ c'.st = .running ∧ c'.saved = [] := by
  intro w s2 alone loads
  obtain ⟨c', after, runs, saved⟩ := loadCtx_done loads
  have resumed : (s2.rerecord c).resumeCtx c = s3 := by
    rw [State.resumeCtx, loads]
  have done : s.resumeWorld p r.v.toNat = s3 := by
    have go : bitOf r.v.toNat 8 = false := (bitOf_eq_testBit ..).trans go
    have alone : (s2.ctxs.filter fun c => c.world == w && c.st == .frozen true) = [c] := alone
    unfold State.resumeWorld
    rw [wfreezeBusy_idle idle, go]
    refine (if_neg (by decide)).trans ((if_neg (not_not_intro mine)).trans ?_)
    exact (congrArg (List.foldl (fun (s : State) (c : Context) => (s.rerecord c).resumeCtx c) s2) alone).trans resumed
  refine ⟨s3.clearTried, c', ?_, after, runs, saved⟩
  rw [exec_wfreezeResume, execWfreezeResume, writer]
  exact congrArg (fun t => Host.Outcome.next (State.clearTried t)) done

/-! ## The cut (spec/13 R348, R351) -/

theorem checkpointCut_idle {s : State} {p : Nat} (idle : (s.part p).ckpt.phase ≠ 1) : exec (.checkpointCut p) s = .next s := by
  rw [exec_checkpointCut, execCheckpointCut, State.cut]
  simp only [idle, ne_eq, not_false_eq_true, decide_true, Bool.true_or, if_true]

theorem partitions_saves (cs : List Context) (s : State) : (cs.foldl (fun s c => s.saveCtx c.key false false true 1) s).partitions = s.partitions :=
  foldl_keeps State.partitions (fun s c => saveCtx_partitions s c.key false false true 1) cs s

/-- The cut of a partition whose writes are acknowledged, under the fall-back: it keeps the contexts frozen. -/
theorem checkpointCut_cuts {s : State} {p : Nat} (asked : (s.part p).ckpt.phase = 1)
    (acks : ∀ g ∈ s.gangs, s.partOfCluster g.cluster = p → ∀ sk ∈ g.skeins, sk.ackc = 0) (fallback : (s.part p).ckptcfg.toNat.testBit 62 = true) :
    ∃ u : State, exec (.checkpointCut p) s = .next u ∧ (u.part p).ckpt.phase = 2 ∧ (u.part p).ckpt.lo = p * 2 ^ 52 / 2 ^ 18 ∧
      (u.part p).ckpt.hi = p * 2 ^ 52 / 2 ^ 18 + 768 * 2 ^ 30 / s.partitions / 2 ^ 18 ∧ (u.part p).ckpt.thawed = [] ∧
      (u.part p).ckpt.opened = false ∧ (u.part p).ckpt.adr = (s.part p).ckptadr ∧ (u.part p).ckpt.tgt = (s.part p).ckpttgt ∧
      (u.part p).ckpt.heldContexts = ((s.ctxs.filter fun c => c.world / 64 == p && c.st == .running).map (·.key)) := by
  have settled : s.acksIn p = true := by
    refine List.all_eq_true.2 fun g hg => List.all_eq_true.2 fun sk hsk => beq_iff_eq.2 ?_
    obtain ⟨mem, own⟩ := List.mem_filter.1 hg
    exact acks g mem (beq_iff_eq.1 own) sk hsk
  have kept : (s.part p).fallback = true := by
    rw [Partition.fallback, Partition.shadowFrames, bitOf_eq_testBit, fallback]
    rfl
  let cs := s.runningIn p
  let s1 := (s.clustersOf p).foldl (fun s c => s.flushAll c) s
  let s2 := (s1.savedIn p).foldl (fun s c => s.markImage c) (cs.foldl (fun s c => s.saveCtx c.key false false true 1) s1)
  have partitions : s2.partitions = s.partitions := by
    obtain ⟨-, flushed, -⟩ : s1.Keeps (booksOf s) := .foldl State.Keeps.flushAll (State.keeps_booksOf s)
    have marks : ∀ (l : List Context) (t : State), (l.foldl (fun s c => s.markImage c) t).partitions = t.partitions := fun l t =>
      (State.Keeps.foldl (f := fun s c => s.markImage c) (l := l) (fun h => State.Keeps.writeHeader h) (State.keeps_booksOf t)).2.1
    exact (marks ..).trans ((partitions_saves ..).trans flushed)
  let base := frameOf (absAddr p 0)
  let ext := sortFrames (s2.part p).ckpt.bitmap
  let begin_ : Checkpoint → Checkpoint := fun c =>
    { c with phase := 2, lo := base, hi := base + s2.hbmBytes / 2 ^ 18, ext := ext, extAll := ext, thawed := [], shadow := [], streamed := [],
             opened := false, tgt := (s.part p).ckpttgt, adr := (s.part p).ckptadr, pull := bitOf (s.part p).dutycfg.toNat 4
             heldContexts := if (s.part p).fallback then cs.map (·.key) else [] }
  let s3 := s2.modCkpt p begin_
  let s4 := s3.markLeaves p (fun f => (s3.part p).ckpt.holds f) true
  have done : s.cut p = s4 := by
    have go : ¬(decide ((s.part p).ckpt.phase ≠ 1) || !s.acksIn p) = true := by
      rw [settled, asked]
      decide
    unfold State.cut
    exact (if_neg go).trans (if_pos kept)
  have ckpt : (s4.part p).ckpt = begin_ (s2.part p).ckpt :=
    (congrArg Partition.ckpt ((marked_markLeaves s3 p _ true).part p)).trans
      ((congrArg Partition.ckpt (State.part_modPart_same s2 p fun x => { x with ckpt := begin_ x.ckpt })).trans rfl)
  refine ⟨s4, by rw [exec_checkpointCut, execCheckpointCut, done], ?_⟩
  rw [ckpt]
  have first : base = p * 2 ^ 52 / 2 ^ 18 := by rw [← Nat.add_zero (p * 2 ^ 52)]; rfl
  refine ⟨rfl, first, ?_, rfl, rfl, rfl, rfl, if_pos kept⟩
  show base + s2.hbmBytes / 2 ^ 18 = _
  rw [State.hbmBytes, partitions, first]

/-! ## The statement -/

/-- Settles O49, clause by clause. -/
theorem contextsAndCheckpoints : Obligations.ContextsAndCheckpoints := by
  unfold Obligations.ContextsAndCheckpoints
  refine ⟨fun s w v => cswctlGo_ignored v, fun s w v => cswctlGo_joins, ?_, fun s cl w l => switchRequestServe_frozen, ?_, ?_, ?_, ?_, ?_, ?_, ?_, ?_, ?_, ?_⟩
  · intro s cl w l first running swap
    refine ⟨fun st s1 ended none_ room => ?_, fun st s1 ended full => ?_⟩
    · obtain ⟨status, idle, switches, events⟩ := endSwitch_leaves s1 cl w st
      rw [if_pos (postNow_iff.2 ⟨none_, room⟩)] at events
      exact ⟨_, switchRequestServe_ended first running ended, status, idle, switches, rfl, rfl, events⟩
    · obtain ⟨status, idle, switches, events⟩ := endSwitch_leaves s1 cl w st
      have waits : ¬(s1.cluster cl).postNow w = true := fun now => by
        obtain ⟨none_, room⟩ := postNow_iff.1 now
        rcases full with some_ | full
        · exact some_ none_
        · rw [room] at full
          cases full
      rw [if_neg waits, List.append_nil] at events
      exact ⟨_, switchRequestServe_ended first running ended, status, idle, switches, events⟩
  · intro s key c found runs busy small named
    exact freezePoint_freezes found runs busy small named
  · intro s r p up whole by_ idle go mine
    exact wfreezeGo_stops (writer_physical up whole by_) idle go mine
  · intro s r p c s3 up whole by_ idle go mine
    exact wfreezeResume_resumes (writer_physical up whole by_) idle go mine
  · exact fun s p => ⟨checkpointTimer_asks, checkpointTimer_ignored⟩
  · exact fun s p => ⟨checkpointCut_idle, checkpointCut_cuts⟩
  · intro s p f
    refine ⟨shadowCopy_ignored, fun held own room => ?_⟩
    obtain ⟨u, leads, thawed, m, shadow, copy⟩ := shadowCopy_copies held own room
    exact ⟨u, leads, thawed, m, shadow, fun _ => copy⟩
  · intro s p d c drains device tier buddy there named
    exact ⟨drainFrame_opens tier buddy there named drains device, drainFrame_streams tier buddy there named drains device⟩
  · exact fun s p n => drainFrame_fails n
  · intro s r p up whole by_
    exact ckptcfgWrite_writes (writer_physical up whole by_)
  · intro s r p up whole by_
    exact ckptack_streams (writer_physical up whole by_)

end Sys2Proof.Machine
end
